-- ==== Sys2Proof/Word.lean ====
section
/-! DEFINITION. The plainest data of the model: bytes, words, sparse tables and saturating counters.
Nothing here carries a rule of the device beyond R330 (48-bit statistics counters) and R331 (serial numbers). -/

namespace Sys2Proof

/-- One byte. -/
abbrev Byte := BitVec 8

/-- A sparse table: keys strictly rising, and no entry that equals what an unlisted key reads as. -/
abbrev Tbl (α : Type) := List (Nat × α)

/-- The listed value of a key, or the default of an unlisted key. -/
def Tbl.get {α : Type} (d : α) : Tbl α → Nat → α
  | [], _ => d
  | (k, v) :: rest, i => if i = k then v else Tbl.get d rest i

/-- Insert a listed value, keeping the keys rising. -/
def Tbl.put {α : Type} (i : Nat) (x : α) : Tbl α → Tbl α
  | [] => [(i, x)]
  | (k, v) :: rest =>
    if i < k then (i, x) :: (k, v) :: rest
    else if i = k then (i, x) :: rest
    else (k, v) :: Tbl.put i x rest

/-- Remove a key. -/
def Tbl.drop {α : Type} (i : Nat) : Tbl α → Tbl α
  | [] => []
  | (k, v) :: rest => if i = k then Tbl.drop i rest else (k, v) :: Tbl.drop i rest

/-- Write a key: a value equal to the default removes the entry, so that equal tables are equal data. -/
def Tbl.set {α : Type} [DecidableEq α] (d : α) (i : Nat) (x : α) (t : Tbl α) : Tbl α :=
  if x = d then Tbl.drop i t else Tbl.put i x t

/-- The canonical form of a sparse table with default `d`. -/
def Tbl.wf {α : Type} [DecidableEq α] (d : α) : Tbl α → Bool
  | [] => true
  | (k, v) :: rest =>
    decide (v ≠ d) && (rest.all fun e => decide (k < e.1)) && Tbl.wf d rest

/-- A 48-bit statistics counter with its sticky overflow bit (R330). -/
structure Ctr48 where
  v : Nat := 0
  ovf : Bool := false
  deriving DecidableEq, Repr

/-- The largest value of a 48-bit counter (R330). -/
abbrev ctr48Max : Nat := 0xFFFFFFFFFFFF

/-- Bit `i` of a word as a Bool. -/
abbrev bitAt {n : Nat} (w : BitVec n) (i : Nat) : Bool := w.getLsbD i

end Sys2Proof
end

