-- ==== Sys2Proof/Machine/Types.lean ====
section
/-! DEFINITION. Data that commands carry and State holds: the packets, records and words of the spec
that both name. Each structure cites the rule whose layout it follows. -/

namespace Sys2Proof

/-- Site states (R62), codes 0x0 to 0x7 in order. -/
inductive SiteSt where
  | defect | fenced | tile | spare | vigil | filling | test | dark
  deriving DecidableEq, Repr

/-- Verdicts of the Calends (R37). -/
inductive Verdict where
  | clean | span | shadow | fault
  deriving DecidableEq, Repr

/-- Outcomes of the Herald (R47): codes 0x01 to 0x04. -/
inductive OutcomeKind where
  | seal | replay | hold | abandon
  deriving DecidableEq, Repr

/-- A vote packet (R43). `verdict` holds the raw code, so that the validity test of R578 has something to test. -/
structure Vote where
  step : Nat := 0
  device : Nat := 0
  group : Nat := 0
  verdict : Nat := 0
  attempt : Nat := 0
  flags : BitVec 8 := 0
  part : Nat := 0
  reserved : BitVec 8 := 0
  closeFt : Nat := 0
  ordoId : BitVec 64 := 0
  stateDigest : BitVec 128 := 0
  weightDigest : BitVec 128 := 0
  deriving DecidableEq, Repr

/-- An outcome packet (R47). -/
structure OutcomePkt where
  step : Nat := 0
  herald : Nat := 0
  group : Nat := 0
  outcome : OutcomeKind := .hold
  attempt : Nat := 0
  reason : Nat := 0
  missing : Nat := 0
  firstMissing : Nat := 0xFFFF
  latest : Nat := 0xFFFFFFFF
  decideFt : Nat := 0
  deriving DecidableEq, Repr

/-- The Epact record (R418): `offset` is the signed 16-bit field. -/
structure Epact where
  draws : BitVec 64 := 0
  cursor : BitVec 48 := 0
  offset : BitVec 16 := 0
  deriving DecidableEq, Repr

/-- States of a commit ledger record (R29). -/
inductive LedgerSt where
  | none | prepared | sealed | discarded
  deriving DecidableEq, Repr

/-- A commit ledger record (R29). -/
structure LedgerRec where
  step : Nat := 0
  sealFt : Nat := 0
  attempt : Nat := 0
  state : LedgerSt := .none
  rootGroup : Nat := 0
  flags : BitVec 8 := 0
  depth : Nat := 0
  ordoId : BitVec 64 := 0
  stateDigest : BitVec 128 := 0
  weightDigest : BitVec 128 := 0
  epact : Epact := {}
  anchorPage : Nat := 0
  flipped : Nat := 0
  logPages : Nat := 0
  prevDigest : BitVec 128 := 0
  deriving DecidableEq, Repr

/-- An error record (R322); `detail` is the 128-bit field, byte 0 in bits 7:0. -/
structure ErrRec where
  ft : Nat := 0
  lastFt : Nat := 0
  cls : Nat := 0
  unitKind : Nat := 0
  part : Nat := 0xFF
  unit : BitVec 32 := 0
  step : BitVec 64 := BitVec.allOnes 64
  epoch : BitVec 16 := 0
  phase : Nat := 0xFFFF
  opId : BitVec 32 := 0x00FFFFFF
  temp : BitVec 16 := 0x8000
  volt : Nat := 0
  count : Nat := 1
  rflags : BitVec 8 := 0
  detail : BitVec 128 := 0
  deriving DecidableEq, Repr

/-- An event record (R458); `arg` is the packed 320-bit argument field. -/
structure EventRec where
  ft : Nat := 0
  eseq : Nat := 0
  code : Nat := 0
  part : Nat := 0xFF
  phase : Bool := false
  count : Nat := 0
  arg : BitVec 320 := 0
  deriving DecidableEq, Repr

/-- A completion (R442). -/
structure Completion where
  tag : BitVec 32 := 0
  opcode : BitVec 16 := 0
  status : Nat := 0
  slot : Nat := 0
  phase : Bool := false
  more : Bool := false
  detail : BitVec 16 := 0
  result : BitVec 128 := 0
  deriving DecidableEq, Repr

/-- An Almanac entry (R277) with its 4-bit status (R286). -/
structure AlmEntry where
  trigger : Nat := 0
  action : Nat := 0
  part : Nat := 0
  rep : Bool := false
  dlScale : Nat := 0
  target : Nat := 0
  arg : Nat := 0
  deadline : Nat := 0
  fired : Bool := false
  late : Bool := false
  watching : Bool := false
  /-- the entry is a job's own: `JOB_START` wrote it from a template of the Ordo (R291) -/
  own : Bool := false
  deriving DecidableEq, Repr

/-- Packet kinds (R352). -/
inductive PKind where
  | write | readReq | readData | completion | deposit | credit | contrib | signal
  | barrier | vote | outcome | heraldQuery | twinTime | steward | reserved
  deriving DecidableEq, Repr

/-- Kinds of `DEST_UNIT` and `SRC_UNIT` (R351), codes 0 to 5. -/
inductive UnitKind where
  | tile | dma | ddr | hub | combiner | tree
  deriving DecidableEq, Repr

/-- A packet: the header of R351 and its payload bytes. -/
structure Packet where
  destDev : Nat := 0
  destKind : UnitKind := .tile
  destIdx : Nat := 0
  srcDev : Nat := 0
  srcKind : UnitKind := .tile
  srcIdx : Nat := 0
  kind : PKind := .reserved
  cls : Nat := 0
  epoch : Bool := false
  ce : Bool := false
  ece : Bool := false
  leg : Bool := false
  minimal : Bool := false
  combine : Bool := false
  hops : Nat := 0
  srcPart : Nat := 0
  tag : Nat := 0
  interDev : Nat := 0
  interRtr : Nat := 0
  arg : BitVec 32 := 0
  addr : Nat := 0
  payload : List Byte := []
  deriving DecidableEq, Repr

/-- Completion statuses of packets (R353), codes 0x00 to 0x09 in order. -/
inductive PStatus where
  | ok | windowRefused | tileMoving | partitionDown | pageRefused | noRoute | hopLimit | timeout
  | badDescriptor | noKey
  deriving DecidableEq, Repr

/-- An A64 tag (R116); `maxExp` and `anchor` are the signed fields. -/
structure A64Tag where
  chunk : Nat := 0
  maxExp : Int := -512
  anchor : Int := 0
  count : Nat := 0
  span : Bool := false
  nonfin : Bool := false
  deriving DecidableEq, Repr

/-- One element on a fabric plane or an internal stream: up to 512 bits of data, or an Eve token
(R159) whose epoch stands in bits 15:0. `scales` are the MX scale bytes that travel with a vector (R181);
`tag` is the A64 tag that travels with a segment (R116). -/
structure Elem where
  data : BitVec 512 := 0
  eve : Bool := false
  scales : List Byte := []
  tag : Option A64Tag := none
  deriving DecidableEq, Repr

/-- A message header (R217) with its payload. -/
structure Msg where
  kind : Nat := 1
  spilled : Bool := false
  chan : Nat := 0
  lines : Nat := 0
  srcTile : Nat := 0
  seq : BitVec 32 := 0
  srcDev : Nat := 0
  utag : BitVec 16 := 0
  payload : List Byte := []
  deriving DecidableEq, Repr

/-- A time frame (R269). -/
structure TimeFrame where
  txFt : Nat := 0
  echoTx : Nat := 0
  echoRx : Nat := 0
  srcDev : Nat := 0
  hops : Nat := 255
  state : Nat := 0
  seq : BitVec 16 := 0
  deriving DecidableEq, Repr

/-- What the SPD of a module declares (R373, R374): the code of its rate, its capacity in GiB and its serial number. -/
structure DdrSpd where
  rate : Nat := 3
  capacity : Nat := 64
  serial : Nat := 0
  deriving DecidableEq, Repr

/-- How many codewords of a channel's write-read test needed correction or were uncorrectable (R376). -/
structure DdrTest where
  corrected : Nat := 0
  uncorrectable : Nat := 0
  deriving DecidableEq, Repr

/-- What `PORT_TRAIN` brings (R336): the lanes that have locked in steps 1 and 2, and in step 4 the map of good lanes and the `MIN_WIDTH` of the
partner. -/
structure TrainMap where
  mask : BitVec 9 := 0
  peer : Option (BitVec 9 × Nat) := none
  deriving DecidableEq, Repr

/-- The cause code of a lane's failure and the measured error ratio × 10^9 (R339, R372). -/
structure LaneFault where
  cause : Nat := 1
  ratio : Nat := 0
  deriving DecidableEq, Repr

/-- What a host access meets: `data` in its first codeword (R379), `map` in the SRAM of its Page Map entry (R387). -/
structure CxlEcc where
  data : Nat := 0
  map : Nat := 0
  deriving DecidableEq, Repr

/-- A host write to the CXL.mem window (R398): its bytes and what the access meets. -/
structure CxlData where
  bytes : List Byte := []
  ecc : CxlEcc := {}
  deriving DecidableEq, Repr

/-- A DMA descriptor (R365); `reserved` is true when every reserved field holds zero. -/
structure DmaDesc where
  op : Nat := 1
  sigValid : Bool := false
  minimal : Bool := false
  combine : Bool := false
  srcKind : Nat := 0
  dstKind : Nat := 0
  length : Nat := 0
  srcDev : Nat := 0
  srcTile : Nat := 0
  srcWin : Nat := 0
  dstWin : Nat := 0
  dstDev : Nat := 0
  dstTile : Nat := 0
  sigTile : Nat := 0
  sigNum : Nat := 0
  tclass : Nat := 3
  leaves : Nat := 0
  srcAddr : Nat := 0
  dstAddr : Nat := 0
  reservedZero : Bool := true
  deriving DecidableEq, Repr

/-- Operations of a link control flit (R347), with their arguments. `INIT` carries the values of R336 step 6: `res` are the reserved units of credit that
the sender grants by 8 × class + VC and `shared` the shared ones by class; `ack` is the `ACK` field of the flit that carries it. -/
inductive CtlOp where
  | init (dev port : Nat) (res shared : List Nat) (slot : Nat) (keySel : Bool) (ack : BitVec 16)
  | keyNext (slot : Nat) | retrain | swapPlan (lane : Nat) | downNotice | minWidth (w : Nat)
  deriving DecidableEq, Repr

/-- What a flit carries (R343 `FKIND`). -/
inductive FlitBody where
  | idle | data (pkts : List Packet) | nak | time (f : TimeFrame) | control (op : CtlOp)
  deriving DecidableEq, Repr

/-- A flit that a port sends (R343). `shared` says of each packet of a data flit whether it travels on shared credits (R346): no field of the flit
carries it. -/
structure Flit where
  lseq : BitVec 16 := 0
  ack : BitVec 16 := 0
  body : FlitBody := .idle
  enc : Bool := false
  keySel : Bool := false
  credits : List (Nat × Nat × Bool × Nat) := []
  shared : List Bool := []
  deriving DecidableEq, Repr

/-- A flit as a port receives it: its 640 bytes after FEC, whether FEC succeeded and corrected, the lanes with symbols in error (R342, R344), whether it
takes the framing slot of a time flit (R348), the idle flits since the last one (R349), and the kind of credits of its packets (R346). -/
structure RxFlit where
  bytes : List Byte := []
  fecOk : Bool := true
  corrected : Bool := false
  symErr : List Nat := []
  timeSlot : Bool := false
  idle : Nat := 0
  shared : List Bool := []
  deriving DecidableEq, Repr

/-- One manifest entry of a mirror (R409). -/
structure ManEntry where
  page : Nat := 0
  cls : Nat := 0
  mask : BitVec 64 := 0
  digest : BitVec 128 := 0
  deriving DecidableEq, Repr

/-- Where a router or a port die hands a packet (R354, R364): another router, a site of its cluster, a combining unit, a port die, a unit of the
hub. -/
inductive MeshOut where
  | router (r : Nat) | site (k : Nat) | combiner (n : Nat) | die (d : Nat) | hub
  deriving DecidableEq, Repr

/-- One enabled channel slot of a device's channel table (R216): its `CHAN_CFG` in a phase (R214). -/
structure ChanEnt where
  phase : Nat := 0
  tile : Nat := 0
  slot : Nat := 0
  word : Nat := 0
  deriving DecidableEq, Repr

/-- What the device sends out of itself, and what its routers and port dies hand on: packets, flits, management messages, interrupts and host writes. -/
inductive OutMsg where
  | packet (p : Packet)
  | twinApply (dest part step : Nat)
  | twinAck (dest part step : Nat) (digest : BitVec 128)
  | twinNak (dest part : Nat) (pages : List Nat)
  | twinBreak (dest part : Nat)
  | twinUnbind (dest part : Nat)
  | twinBind (dest part dev mine deadlineMs fullS reserve : Nat)
  | mirrorRead (dest part : Nat)
  | exportEnd (dest dev : Nat)
  | flit (port : Nat) (f : Flit) (bytes : List Byte) (lanes : List (Nat × List (BitVec 10)))
  | linkMap (port : Nat) (good : BitVec 9) (minWidth : Nat)
  | hop (p : Packet) (out : MeshOut)
  | swapSet (port lane : Nat)
  | mgmt (port : Nat) (frame : List Byte)
  | ptpDelayReq (port : Nat)
  | ptpPdelayReq (port : Nat)
  | ptpPdelayResp (port turn : Nat)
  | chanTable (dest part : Nat) (table : List ChanEnt)
  | msix (vector : Nat)
  | hostWrite (addr : Nat) (data : List Byte)
  | hostRead (addr : Nat) (data : List Byte) (poison : Bool)
  | pmbusVout (entry mv : Nat)
  | pmbusOff
  | jtag (data : BitVec 32)
  deriving DecidableEq, Repr

/-- Where a message on a management port goes (14 R463, R464): a MAC address as it stands on the wire, an MCTP endpoint, and a message tag. -/
structure MgmtAddr where
  mac : List Byte := List.replicate 6 0
  eid : Nat := 0
  tag : Nat := 0
  deriving DecidableEq, Repr

/-- What a `RESET` of kind 2 finds outside the state (R542): the host's buffer, and the alarm classes whose glitch and debug sources assert. -/
structure RecoveryIn where
  buf : Option (List Byte) := none
  asserting : List Nat := []
  deriving DecidableEq, Repr

/-- What a cold boot finds (R502, R531): whether the fuses check, and whether the PUF can be rebuilt. -/
structure BootTests where
  fuseOk : Bool := true
  pufOk : Bool := true
  deriving DecidableEq, Repr

/-- A failure of the memory BIST at start (R307, R324): the site, the failing bank and entry, and the March element. -/
structure MemFail where
  site : Nat := 0
  bank : Nat := 0
  entry : Nat := 0
  elem : Nat := 0
  deriving DecidableEq, Repr

/-- An alarm as its source raises it (R539, R540): its class, its detector, and the value measured. -/
structure AlarmSrc where
  cls : Nat := 0
  det : Nat := 0
  val : Nat := 0
  deriving DecidableEq, Repr

/-- A PTP master seen on a management port (09 R267, R268): the data set the best master clock algorithm compares. -/
structure PtpMaster where
  port : Nat := 0
  priority1 : Nat := 255
  clockClass : Nat := 255
  accuracy : Nat := 255
  variance : Nat := 65535
  priority2 : Nat := 255
  /-- grandmaster identity of the Announce -/
  identity : BitVec 64 := 0
  steps : Nat := 0
  /-- clock identity of the port that sent the Announce -/
  sender : BitVec 64 := 0
  deriving DecidableEq, Repr

/-- Transports of PTP messages (R267): the three that the device takes, and any other. -/
inductive PtpTransport where
  | ethernet | udp4 | udp6 | other
  deriving DecidableEq, Repr

/-- What a PTP message carries (R267). Times of the master are in quarter-nanoseconds of the PTP timescale, corrections included. `sync` has the
origin time of a one-step Sync and the exponent of its interval; `delayResp` answers a request that left at an own FT; `pdelayReq` is a neighbour's request
and `pdelayResp` gives the responder's turnaround. `other` is a message or an option outside the table. -/
inductive PtpBody where
  | announce (m : PtpMaster)
  | sync (logInterval : Int) (origin : Option Nat)
  | followUp (origin : Nat)
  | delayResp (sent received : Nat)
  | pdelayResp (sent turn : Nat)
  | pdelayReq
  | other
  deriving DecidableEq, Repr

/-- The header of a PTP message on a management port (R267). -/
structure PtpMsg where
  port : Nat := 0
  version : Nat := 2
  minor : Nat := 1
  transport : PtpTransport := .ethernet
  domain : Nat := 0
  identity : BitVec 64 := 0
  deriving DecidableEq, Repr

/-- What a board module answers a telemetry poll (R469): `none` for a register stands for no answer of the address. -/
structure PmbusTel where
  vout : Nat := 0
  iout : Nat := 0
  temp : Int := 0
  status : BitVec 16 := 0
  answered : Bool := true
  deriving DecidableEq, Repr

/-- What a restore reads from the survivor (R423, R424, R433): whether its export names this device and its binding is not SYNCING,
whether every transfer completes, the mirror's record, class and digest of each page, and the content that the first fetch and a
refetch return. -/
structure MirrorIn where
  exported : Bool := false
  lostDev : Nat := 0
  answered : Bool := false
  lrec : LedgerRec := {}
  pt : List (Nat × BitVec 128) := []
  pages : List (List Byte) := []
  again : List (List Byte) := []
  deriving DecidableEq, Repr

/-- What the peer of a twin bind confirms (R404): the device and the partition that its own `TWIN_BIND` names, its `RESERVE`, the base page MB of the
mirror region it keeps (R407), and the `LIVE` masks of that region's page table in order (R408), empty for a new region. -/
structure TwinPeer where
  dev : Nat := 0
  part : Nat := 0
  reserve : Nat := 0
  base : Nat := 0
  live : List (BitVec 64) := []
  deriving DecidableEq, Repr

/-- What the world outside answers to a command that runs: the host's buffer, the channel tables of a job's other devices
(R216), the peer of a twin bind that confirms it (R404), the root Herald asked
by `REPLAY_FORCE` (R52; `none` for no answer), and the mirror that a restore reads. `later`: the answer is still to come, and the command holds
its mailbox and its lock until its row comes again with the answer; `asked`: it has asked already. -/
structure ExtIn where
  buf : Option (List Byte) := none
  tables : List (Nat × List ChanEnt) := []
  peer : Option TwinPeer := none
  herald : Option Nat := none
  mirror : MirrorIn := {}
  later : Bool := false
  asked : Bool := false
  deriving DecidableEq, Repr

/-- Forms of an access to a slice (R173, R174): a narrow one carries its bytes. -/
inductive SliceForm where
  | line | halfColumn | narrow (n : Nat)
  deriving DecidableEq, Repr

/-- An access that a requester asks of a slice: wide requesters are 0 to 3 address generators, 4 crossbar, 5 DMA port (R173), narrow ones 0 fetch, 1 data,
2 deposit, 3 census (R174); `enables` are the byte enables of a wide write, bits 16i upward for its `i`-th entry. -/
structure SliceReq where
  who : Nat := 0
  addr : Nat := 0
  form : SliceForm := .line
  write : Bool := false
  enables : BitVec 256 := BitVec.allOnes 256
  deriving DecidableEq, Repr

/-- One loop nest position of an address generator (R178): indices i0 to i4. -/
structure AgIdx where
  i0 : Nat := 0
  i1 : Nat := 0
  i2 : Nat := 0
  i3 : Nat := 0
  i4 : Nat := 0
  deriving DecidableEq, Repr

end Sys2Proof
end

