-- ==== Sys2Proof/Syntax.lean ====
section
/-! DEFINITION. The commands of the device, one constructor per row of spec/opcode_table.json. The first operand of every
command is the Fleet Time at which it happens (assumption 1). A mailbox command names its mailbox and holds what the host
answers at the descriptor's host-memory buffer (`none`: the buffer cannot be accessed in full); its arguments stand in the
acknowledged descriptor. The other operands are what the command observes of the world outside the state. -/

namespace Sys2Proof

/-- The commands. -/
inductive Instr where
  /-- `CALENDS_CLOSE` (R41). -/
  | calendsClose (t : Nat) (p : Nat)
  /-- `VOTE_SEND` (R42). -/
  | voteSend (t : Nat) (p : Nat)
  /-- `VOTE_RECEIVE` (R45). -/
  | voteReceive (t : Nat) (v : Vote)
  /-- `VOTE_DEADLINE_EXPIRE` (R46). -/
  | voteDeadlineExpire (t : Nat) (g : Nat) (step : Nat) (attempt : Nat)
  /-- `OUTCOME_QUERY_TIMEOUT` (R50). -/
  | outcomeQueryTimeout (t : Nat) (p : Nat)
  /-- `HERALD_QUERY_RECEIVE` (R50). -/
  | heraldQueryReceive (t : Nat) (v : Vote)
  /-- `HERALD_SILENT` (R50). -/
  | heraldSilent (t : Nat) (p : Nat)
  /-- `SEAL_OUTCOME` (R53). -/
  | sealOutcome (t : Nat) (p : Nat) (o : OutcomePkt)
  /-- `REPLAY_OUTCOME` (R54). -/
  | replayOutcome (t : Nat) (p : Nat) (o : OutcomePkt)
  /-- `REPLAY_START` (R54). -/
  | replayStart (t : Nat) (p : Nat)
  /-- `HOLD_OUTCOME` (R51). -/
  | holdOutcome (t : Nat) (p : Nat) (o : OutcomePkt)
  /-- `ABANDON_OUTCOME` (R51). -/
  | abandonOutcome (t : Nat) (p : Nat) (o : OutcomePkt)
  /-- `WB_WRITE_BACK` (R187). -/
  | wbWriteBack (t : Nat) (site : Nat)
  /-- `MIRROR_DEADLINE_EXPIRE` (R56). -/
  | mirrorDeadlineExpire (t : Nat) (p : Nat)
  /-- `TWIN_ACK_RECEIVE` (R411). -/
  | twinAckReceive (t : Nat) (p : Nat) (step : Nat)
  /-- `VIGIL_LOAD` (R297). -/
  | vigilLoad (t : Nat) (g : Nat)
  /-- `STEP_RELEASE` (R164). -/
  | stepRelease (t : Nat) (p : Nat)
  /-- `FULL_PLACEMENT` (R76). -/
  | fullPlacement (t : Nat) (g : Nat)
  /-- `SITE_FAULT_DETECT` (R309). -/
  | siteFaultDetect (t : Nat) (site : Nat) (cls : Nat) (check : Nat) (lane : Nat) (syndrome : Nat) (unit : Nat)
  /-- `PLANNED_FENCE` (R309). -/
  | plannedFence (t : Nat) (site : Nat)
  /-- `REPAIR_START` (R313). -/
  | repairStart (t : Nat) (g : Nat)
  /-- `SPARE_FILL_COMPLETE` (R312). -/
  | spareFillComplete (t : Nat) (g : Nat)
  /-- `PATCH_KGROUP` (R99). -/
  | patchKgroup (t : Nat) (site : Nat)
  /-- `VECTOR_BEAT` (R572). -/
  | vectorBeat (t : Nat) (site : Nat)
  /-- `ROUTE_ELEMENT_SEND` (R135). -/
  | routeElementSend (t : Nat) (site : Nat) (plane : Nat) (port : Nat)
  /-- `CREDIT_RETURN` (R135). -/
  | creditReturn (t : Nat) (site : Nat) (plane : Nat) (port : Nat)
  /-- `PORT_SWITCH` (R161). -/
  | portSwitch (t : Nat) (site : Nat) (plane : Nat) (port : Nat) (inject : Bool)
  /-- `COUNTER_ADVANCE` (R140). -/
  | counterAdvance (t : Nat) (site : Nat) (n : Nat)
  /-- `STEER_FIRE` (R143). -/
  | steerFire (t : Nat) (site : Nat) (n : Nat)
  /-- `SHADOW_LOAD` (R158). -/
  | shadowLoad (t : Nat) (site : Nat)
  /-- `UNIT_SWITCH` (R160). -/
  | unitSwitch (t : Nat) (site : Nat) (unit : Nat)
  /-- `EVE_TOKEN_HEAD` (R162). -/
  | eveTokenHead (t : Nat) (site : Nat) (unit : Nat)
  /-- `SLICE_ACCESS_GRANT` (R175). -/
  | sliceAccessGrant (t : Nat) (site : Nat) (wreq : List SliceReq) (nreq : List SliceReq) (hits : List (Nat × List Byte))
  /-- `AG_ITERATION` (R178). -/
  | agIteration (t : Nat) (site : Nat) (n : Nat)
  /-- `WINDOW_ACCESS` (R190). -/
  | windowAccess (t : Nat) (pkt : Packet) (hits : List (Nat × List Byte))
  /-- `TILE_MOVING_RETRY` (R191). -/
  | tileMovingRetry (t : Nat) (die : Nat) (tag : Nat)
  /-- `ZERO_SWEEP_COMPLETE` (R197). -/
  | zeroSweepComplete (t : Nat) (p : Nat)
  /-- `SEQ_INSTRUCTION` (R199). -/
  | seqInstruction (t : Nat) (site : Nat) (upset : Option (List Byte))
  /-- `X_SEND` (R218). -/
  | xSend (t : Nat) (site : Nat)
  /-- `X_TRYSEND` (R211). -/
  | xTrysend (t : Nat) (site : Nat)
  /-- `X_DONE` (R219). -/
  | xDone (t : Nat) (site : Nat)
  /-- `X_RECV` (R219). -/
  | xRecv (t : Nat) (site : Nat)
  /-- `X_RELEASE` (R219). -/
  | xRelease (t : Nat) (site : Nat)
  /-- `X_PUTW` (R209). -/
  | xPutw (t : Nat) (site : Nat)
  /-- `X_GETW` (R210). -/
  | xGetw (t : Nat) (site : Nat)
  /-- `X_PUTT` (R209). -/
  | xPutt (t : Nat) (site : Nat)
  /-- `X_GETT` (R210). -/
  | xGett (t : Nat) (site : Nat)
  /-- `X_PUTV` (R209). -/
  | xPutv (t : Nat) (site : Nat)
  /-- `X_GETV` (R210). -/
  | xGetv (t : Nat) (site : Nat)
  /-- `X_EPHASE` (R207). -/
  | xEphase (t : Nat) (site : Nat)
  /-- `X_SIGRAISE` (R231). -/
  | xSigraise (t : Nat) (site : Nat)
  /-- `X_SIGWAIT` (R232). -/
  | xSigwait (t : Nat) (site : Nat)
  /-- `X_SIGWAITL` (R248). -/
  | xSigwaitl (t : Nat) (site : Nat)
  /-- `X_SIGSUB` (R232). -/
  | xSigsub (t : Nat) (site : Nat)
  /-- `X_SIGREAD` (R209). -/
  | xSigread (t : Nat) (site : Nat)
  /-- `X_BARRIVE` (R241). -/
  | xBarrive (t : Nat) (site : Nat)
  /-- `X_BARWAIT` (R241). -/
  | xBarwait (t : Nat) (site : Nat)
  /-- `X_FENCE` (R238). -/
  | xFence (t : Nat) (site : Nat)
  /-- `X_SEMSET` (R246). -/
  | xSemset (t : Nat) (site : Nat)
  /-- `X_SEMCLR` (R246). -/
  | xSemclr (t : Nat) (site : Nat)
  /-- `X_SEMWAIT` (R246). -/
  | xSemwait (t : Nat) (site : Nat)
  /-- `SEQ_WAIT_WAKE` (R247). -/
  | seqWaitWake (t : Nat) (site : Nat)
  /-- `FAST_ENTER` (R247). -/
  | fastEnter (t : Nat) (site : Nat)
  /-- `HANDLER_DISPATCH` (R204). -/
  | handlerDispatch (t : Nat) (site : Nat)
  /-- `DEPOSIT_RECEIVE` (R219). -/
  | depositReceive (t : Nat) (pkt : Packet)
  /-- `CHANNEL_CREDIT_RECEIVE` (R219). -/
  | channelCreditReceive (t : Nat) (site : Nat) (slot : Nat) (lines : Nat)
  /-- `SEND_STALL_EXPIRE` (R225). -/
  | sendStallExpire (t : Nat) (site : Nat) (slot : Nat)
  /-- `SPILL_DEPOSIT_RECEIVE` (R225). -/
  | spillDepositReceive (t : Nat) (pkt : Packet)
  /-- `CONTRIBUTION_RECEIVE` (R222). -/
  | contributionReceive (t : Nat) (pkt : Packet)
  /-- `SIGNAL_RAISE_RECEIVE` (R232). -/
  | signalRaiseReceive (t : Nat) (pkt : Packet) (amount : Nat)
  /-- `BARRIER_ARRIVAL_RECEIVE` (R242). -/
  | barrierArrivalReceive (t : Nat) (router : Nat) (p : Nat) (bar : Nat)
  /-- `BARRIER_RELEASE_RECEIVE` (R241). -/
  | barrierReleaseReceive (t : Nat) (tile : Nat) (bar : Nat)
  /-- `LONG_WAIT_THRESHOLD` (R248). -/
  | longWaitThreshold (t : Nat) (site : Nat)
  /-- `IDES_WAIT_EXPIRE` (R250). -/
  | idesWaitExpire (t : Nat) (site : Nat)
  /-- `IDES_PHASE_EXPIRE` (R250). -/
  | idesPhaseExpire (t : Nat) (p : Nat)
  /-- `IDES_STEP_EXPIRE` (R250). -/
  | idesStepExpire (t : Nat) (p : Nat)
  /-- `HARVEST_COMPLETE` (R519). -/
  | harvestComplete (t : Nat) (p : Nat)
  /-- `PTP_MESSAGE_RECEIVE` (R267). -/
  | ptpMessageReceive (t : Nat) (m : PtpMsg) (body : PtpBody)
  /-- `PTP_MASTER_LOSS` (R268). -/
  | ptpMasterLoss (t : Nat) (port : Nat)
  /-- `TIME_FRAME_SEND` (R269). -/
  | timeFrameSend (t : Nat) (port : Nat)
  /-- `TIME_FRAME_RECEIVE` (R270). -/
  | timeFrameReceive (t : Nat) (port : Nat) (f : TimeFrame)
  /-- `SERVO_UPDATE` (R272). -/
  | servoUpdate (t : Nat)
  /-- `HOLDOVER_EXPIRE` (R273). -/
  | holdoverExpire (t : Nat)
  /-- `SYNC_EDGE` (R274). -/
  | syncEdge (t : Nat)
  /-- `TWIN_TIME_RECEIVE` (R274). -/
  | twinTimeReceive (t : Nat) (capture : Nat)
  /-- `SYNC_FOLLOWER_TIMEOUT` (R274). -/
  | syncFollowerTimeout (t : Nat)
  /-- `ALMANAC_FIRE` (R279). -/
  | almanacFire (t : Nat) (e : Nat)
  /-- `ALMANAC_DEADLINE_EXPIRE` (R285). -/
  | almanacDeadlineExpire (t : Nat) (p : Nat) (e : Nat)
  /-- `ALMANAC_BANK_SWAP` (R290). -/
  | almanacBankSwap (t : Nat)
  /-- `AUTOMATIC_PREWARN` (R282). -/
  | automaticPrewarn (t : Nat) (p : Nat)
  /-- `INTERCALARY_SLOT_OPEN` (R284). -/
  | intercalarySlotOpen (t : Nat) (p : Nat)
  /-- `INTERCALARY_SLOT_CLOSE` (R284). -/
  | intercalarySlotClose (t : Nat) (p : Nat)
  /-- `BIST_COMPLETE` (R307). -/
  | bistComplete (t : Nat) (site : Nat) (logicSig : BitVec 64) (memPass : Bool) (bank : Nat) (entry : Nat) (elem : Nat)
  /-- `ERROR_RECORD_ARRIVE` (R325). -/
  | errorRecordArrive (t : Nat) (r : ErrRec)
  /-- `COALESCE_ENTRY_AGE` (R326). -/
  | coalesceEntryAge (t : Nat) (cls : Nat) (unitKind : Nat) (unit : BitVec 32)
  /-- `LOG_RING_APPEND` (R328). -/
  | logRingAppend (t : Nat)
  /-- `PORT_TRAIN` (R336). -/
  | portTrain (t : Nat) (port : Nat) (mask : TrainMap)
  /-- `LANE_LOCK_TIMEOUT` (R336). -/
  | laneLockTimeout (t : Nat) (port : Nat) (lane : Nat)
  /-- `BER_GATE_END` (R337). -/
  | berGateEnd (t : Nat) (port : Nat) (errors : List Nat)
  /-- `TRAINING_ABANDON` (R337). -/
  | trainingAbandon (t : Nat) (port : Nat)
  /-- `LANE_FAIL` (R339). -/
  | laneFail (t : Nat) (port : Nat) (lane : Nat) (cause : LaneFault)
  /-- `SWAP_ORDERED_SET_RECEIVE` (R340). -/
  | swapOrderedSetReceive (t : Nat) (port : Nat) (lane : Nat)
  /-- `LANE_SWAP_RESUME` (R340). -/
  | laneSwapResume (t : Nat) (port : Nat)
  /-- `FLIT_RECEIVE` (R344). -/
  | flitReceive (t : Nat) (port : Nat) (f : RxFlit)
  /-- `NAK_RECEIVE` (R345). -/
  | nakReceive (t : Nat) (port : Nat) (ack : BitVec 16)
  /-- `RETRY_ACK_TIMEOUT` (R345). -/
  | retryAckTimeout (t : Nat) (port : Nat)
  /-- `INIT_FLIT_RECEIVE` (R347). -/
  | initFlitReceive (t : Nat) (port : Nat) (op : CtlOp)
  /-- `KEY_NEXT_RECEIVE` (R347). -/
  | keyNextReceive (t : Nat) (port : Nat) (slot : Nat)
  /-- `RETRAIN_REQUEST_RECEIVE` (R347). -/
  | retrainRequestReceive (t : Nat) (port : Nat)
  /-- `SWAP_PLAN_RECEIVE` (R347). -/
  | swapPlanReceive (t : Nat) (port : Nat) (lane : Nat)
  /-- `DOWN_NOTICE_RECEIVE` (R338). -/
  | downNoticeReceive (t : Nat) (port : Nat)
  /-- `MIN_WIDTH_RECEIVE` (R347). -/
  | minWidthReceive (t : Nat) (port : Nat) (w : Nat)
  /-- `CONTROL_FLIT_RESEND` (R347). -/
  | controlFlitResend (t : Nat) (port : Nat)
  /-- `KEY_SEL_CHANGE` (R537). -/
  | keySelChange (t : Nat) (port : Nat) (rx : Bool)
  /-- `PACKET_ROUTE` (R354). -/
  | packetRoute (t : Nat) (router : Nat) (die : Option Nat) (pkt : Packet)
  /-- `COMBINE_FORWARD` (R362). -/
  | combineForward (t : Nat) (router : Nat) (cu : Nat)
  /-- `DMA_DESCRIPTOR_START` (R365). -/
  | dmaDescriptorStart (t : Nat) (die : Nat) (tile : Nat)
  /-- `COMPLETION_RECEIVE` (R353). -/
  | completionReceive (t : Nat) (die : Nat) (tag : Nat) (status : PStatus) (ece : Bool) (ue : Bool) (data : List Byte)
  /-- `DMA_RATE_INCREASE` (R361). -/
  | dmaRateIncrease (t : Nat) (q : Nat) (dest : Nat)
  /-- `TRANSACTION_TIMEOUT` (R367). -/
  | transactionTimeout (t : Nat) (die : Nat) (tag : Nat)
  /-- `ROUTE_DRAIN_COMPLETE` (R359). -/
  | routeDrainComplete (t : Nat) (cls : Nat)
  /-- `DDR_TRAINING_COMPLETE` (R376). -/
  | ddrTrainingComplete (t : Nat) (ch : Nat) (present : Bool) (disabled : Bool) (spd : DdrSpd) (fails : Nat) (test : DdrTest)
  /-- `DDR_PHY_LOCK_LOSS` (R378). -/
  | ddrPhyLockLoss (t : Nat) (ch : Nat)
  /-- `PAGE_ACCESS` (R386). -/
  | pageAccess (t : Nat) (pkt : Packet) (ecc : Nat) (mapEcc : Nat) (word : Nat) (inPort : Option Nat)
  /-- `PAGEMAP_REBUILD` (R387). -/
  | pagemapRebuild (t : Nat) (page : Nat)
  /-- `SCRUB_READ` (R381). -/
  | scrubRead (t : Nat) (addr : Nat) (ecc : Nat)
  /-- `PAGE_MIGRATION_COPY` (R395). -/
  | pageMigrationCopy (t : Nat) (die : Nat) (err : Option (Nat × Nat))
  /-- `PAGE_ZERO_COMPLETE` (R388). -/
  | pageZeroComplete (t : Nat) (ppn : Nat)
  /-- `CXL_MEM_READ` (R394). -/
  | cxlMemRead (t : Nat) (hpa : Nat) (len : Nat) (ecc : CxlEcc)
  /-- `CXL_MEM_WRITE` (R398). -/
  | cxlMemWrite (t : Nat) (hpa : Nat) (data : CxlData)
  /-- `MIRROR_RELEASE` (R409). -/
  | mirrorRelease (t : Nat) (p : Nat)
  /-- `MIRROR_WRITES_ACKED` (R409). -/
  | mirrorWritesAcked (t : Nat) (p : Nat)
  /-- `MIRROR_SLOT_ACKED` (R409). -/
  | mirrorSlotAcked (t : Nat) (p : Nat)
  /-- `TWIN_APPLY_RECEIVE` (R410). -/
  | twinApplyReceive (t : Nat) (p : Nat) (step : Nat)
  /-- `TWIN_NAK_RECEIVE` (R410). -/
  | twinNakReceive (t : Nat) (p : Nat) (pages : List Nat)
  /-- `TWIN_BREAK_RECEIVE` (R406). -/
  | twinBreakReceive (t : Nat) (p : Nat) (unbind : Bool)
  /-- `MIRROR_EXPORT_EXPIRE` (R423). -/
  | mirrorExportExpire (t : Nat) (p : Nat) (commit : Bool)
  /-- `INPUT_RECORD_CONSUME` (R419). -/
  | inputRecordConsume (t : Nat) (p : Nat)
  /-- `DOORBELL` (R439). -/
  | doorbell (t : Nat) (mb : Nat) (tail : Nat)
  /-- `COMMAND_LOCK_GRANT` (R443). -/
  | commandLockGrant (t : Nat) (p : Nat) (buf : Option (List Byte))
  /-- `MAILBOX_RESET` (R446). -/
  | mailboxReset (t : Nat) (mb : Nat)
  /-- `CPL_HEAD_WRITE` (R444). -/
  | cplHeadWrite (t : Nat) (mb : Nat) (head : Nat)
  /-- `EV_HEAD_WRITE` (R460). -/
  | evHeadWrite (t : Nat) (head : Nat)
  /-- `REGISTER_WRITE` (R7). -/
  | registerWrite (t : Nat) (off : Nat) (len : Nat) (val : Nat)
  /-- `HOST_PORT_RESET` (R435). -/
  | hostPortReset (t : Nat)
  /-- `MGMT_FRAME_RECEIVE` (R464). -/
  | mgmtFrameReceive (t : Nat) (port : Nat) (frame : List Byte)
  /-- `CENSUS_GATE_CAPTURE` (R455). -/
  | censusGateCapture (t : Nat) (p : Nat)
  /-- `IDENTIFY` (R450). -/
  | identify (t : Nat) (mb : Nat) (buf : Option (List Byte))
  /-- `SHUTDOWN` (R523). -/
  | shutdown (t : Nat) (mb : Nat) (buf : Option (List Byte)) (sigs : List (Nat × BitVec 64)) (slow : List Nat)
  /-- `RESET_PARTITION` (R512). -/
  | resetPartition (t : Nat) (mb : Nat) (buf : Option (List Byte))
  /-- `RESET_JUBILEE` (R513). -/
  | resetJubilee (t : Nat) (mb : Nat) (buf : Option (List Byte))
  /-- `RESET_RECOVERY` (R514). -/
  | resetRecovery (t : Nat) (mb : Nat) (found : RecoveryIn)
  /-- `DEVICE_ID_SET` (R450). -/
  | deviceIdSet (t : Nat) (mb : Nat) (buf : Option (List Byte))
  /-- `CONFIG_WRITE` (R450). -/
  | configWrite (t : Nat) (mb : Nat) (buf : Option (List Byte))
  /-- `MAILBOX_CLAIM` (R447). -/
  | mailboxClaim (t : Nat) (mb : Nat) (buf : Option (List Byte))
  /-- `MAILBOX_RELEASE` (R450). -/
  | mailboxRelease (t : Nat) (mb : Nat) (buf : Option (List Byte))
  /-- `FW_HOSTLOAD` (R499). -/
  | fwHostload (t : Nat) (mb : Nat) (buf : Option (List Byte)) (memFail : List MemFail)
  /-- `EVENT_MASK_SET` (R461). -/
  | eventMaskSet (t : Nat) (mb : Nat) (buf : Option (List Byte))
  /-- `EVENT_STREAM_SET` (R465). -/
  | eventStreamSet (t : Nat) (mb : Nat) (buf : Option (List Byte))
  /-- `PARTITION_CREATE` (R447). -/
  | partitionCreate (t : Nat) (mb : Nat) (buf : Option (List Byte))
  /-- `PARTITION_DESTROY` (R450). -/
  | partitionDestroy (t : Nat) (mb : Nat) (buf : Option (List Byte))
  /-- `ORDO_LOAD` (R155). -/
  | ordoLoad (t : Nat) (mb : Nat) (buf : Option (List Byte))
  /-- `ORDO_UNLOAD` (R450). -/
  | ordoUnload (t : Nat) (mb : Nat) (buf : Option (List Byte))
  /-- `JOB_START` (R450). -/
  | jobStart (t : Nat) (mb : Nat) (buf : Option (List Byte)) (tables : List (Nat × List ChanEnt)) (later : Bool)
  /-- `JOB_KILL` (R443). -/
  | jobKill (t : Nat) (mb : Nat) (buf : Option (List Byte))
  /-- `ALMANAC_WRITE` (R289). -/
  | almanacWrite (t : Nat) (mb : Nat) (buf : Option (List Byte))
  /-- `ALMANAC_ARM` (R289). -/
  | almanacArm (t : Nat) (mb : Nat) (buf : Option (List Byte))
  /-- `ALMANAC_DISARM` (R289). -/
  | almanacDisarm (t : Nat) (mb : Nat) (buf : Option (List Byte))
  /-- `TIME_SET` (R272). -/
  | timeSet (t : Nat) (mb : Nat) (buf : Option (List Byte))
  /-- `IDES_SET` (R249). -/
  | idesSet (t : Nat) (mb : Nat) (buf : Option (List Byte))
  /-- `HERALD_STATS_SET` (R294). -/
  | heraldStatsSet (t : Nat) (mb : Nat) (buf : Option (List Byte))
  /-- `COMMIT_STATUS` (R450). -/
  | commitStatus (t : Nat) (mb : Nat) (buf : Option (List Byte))
  /-- `DIGEST_READ` (R450). -/
  | digestRead (t : Nat) (mb : Nat) (buf : Option (List Byte))
  /-- `REPLAY_FORCE` (R52). -/
  | replayForce (t : Nat) (mb : Nat) (buf : Option (List Byte)) (herald : Option Nat) (later : Bool)
  /-- `COMMIT_REWIND` (R28). -/
  | commitRewind (t : Nat) (mb : Nat) (buf : Option (List Byte))
  /-- `HOLD_RELEASE` (R51). -/
  | holdRelease (t : Nat) (mb : Nat) (buf : Option (List Byte))
  /-- `FENCE_SITE` (R309). -/
  | fenceSite (t : Nat) (mb : Nat) (buf : Option (List Byte))
  /-- `VIGIL_SET` (R295). -/
  | vigilSet (t : Nat) (mb : Nat) (buf : Option (List Byte))
  /-- `PORT_CONFIG` (R335). -/
  | portConfig (t : Nat) (mb : Nat) (buf : Option (List Byte))
  /-- `PORT_RETRAIN` (R338). -/
  | portRetrain (t : Nat) (mb : Nat) (buf : Option (List Byte))
  /-- `ROUTE_CFG_SET` (R350). -/
  | routeCfgSet (t : Nat) (mb : Nat) (buf : Option (List Byte))
  /-- `ROUTE_TABLE_WRITE` (R358). -/
  | routeTableWrite (t : Nat) (mb : Nat) (buf : Option (List Byte))
  /-- `ROUTE_SWAP` (R359). -/
  | routeSwap (t : Nat) (mb : Nat) (buf : Option (List Byte))
  /-- `ROUTE_EPOCH_SWITCH` (R360). -/
  | routeEpochSwitch (t : Nat) (mb : Nat) (buf : Option (List Byte))
  /-- `GROUP_HERALD_SET` (R431). -/
  | groupHeraldSet (t : Nat) (mb : Nat) (buf : Option (List Byte))
  /-- `PAGEMAP_ALLOC` (R388). -/
  | pagemapAlloc (t : Nat) (mb : Nat) (buf : Option (List Byte))
  /-- `PAGEMAP_FREE` (R388). -/
  | pagemapFree (t : Nat) (mb : Nat) (buf : Option (List Byte))
  /-- `WINDOW_OPEN` (R189). -/
  | windowOpen (t : Nat) (mb : Nat) (buf : Option (List Byte))
  /-- `WINDOW_CLOSE` (R189). -/
  | windowClose (t : Nat) (mb : Nat) (buf : Option (List Byte))
  /-- `KEEP_SET` (R389). -/
  | keepSet (t : Nat) (mb : Nat) (buf : Option (List Byte))
  /-- `SCRUB_SET` (R381). -/
  | scrubSet (t : Nat) (mb : Nat) (buf : Option (List Byte))
  /-- `PAGE_RETIRE` (R395). -/
  | pageRetire (t : Nat) (mb : Nat) (buf : Option (List Byte))
  /-- `PAGE_RETIRE_SET` (R395). -/
  | pageRetireSet (t : Nat) (mb : Nat) (buf : Option (List Byte))
  /-- `TWIN_BIND` (R404). -/
  | twinBind (t : Nat) (mb : Nat) (buf : Option (List Byte)) (peerOk : Bool) (peer : TwinPeer) (later : Bool)
  /-- `TWIN_UNBIND` (R403). -/
  | twinUnbind (t : Nat) (mb : Nat) (buf : Option (List Byte))
  /-- `MIRROR_EXPORT` (R423). -/
  | mirrorExport (t : Nat) (mb : Nat) (buf : Option (List Byte))
  /-- `RESTORE_BEGIN` (R424). -/
  | restoreBegin (t : Nat) (mb : Nat) (buf : Option (List Byte)) (mirror : MirrorIn) (later : Bool)
  /-- `RESTORE_COMMIT` (R429). -/
  | restoreCommit (t : Nat) (mb : Nat) (buf : Option (List Byte))
  /-- `RESTORE_PAGE` (R433). -/
  | restorePage (t : Nat) (mb : Nat) (buf : Option (List Byte)) (mirror : MirrorIn) (later : Bool)
  /-- `EPACT_READ` (R450). -/
  | epactRead (t : Nat) (mb : Nat) (buf : Option (List Byte))
  /-- `RECONCILE` (R428). -/
  | reconcile (t : Nat) (mb : Nat) (buf : Option (List Byte))
  /-- `CENSUS_READ` (R452). -/
  | censusRead (t : Nat) (mb : Nat) (buf : Option (List Byte))
  /-- `CENSUS_SNAPSHOT` (R455). -/
  | censusSnapshot (t : Nat) (mb : Nat) (buf : Option (List Byte))
  /-- `LOG_READ` (R450). -/
  | logRead (t : Nat) (mb : Nat) (buf : Option (List Byte))
  /-- `HARVEST_SET` (R192). -/
  | harvestSet (t : Nat) (mb : Nat) (buf : Option (List Byte))
  /-- `HARVEST_READ` (R194). -/
  | harvestRead (t : Nat) (mb : Nat) (buf : Option (List Byte))
  /-- `LENT_SET` (R248). -/
  | lentSet (t : Nat) (mb : Nat) (buf : Option (List Byte))
  /-- `EMBER_RUN` (R526). -/
  | emberRun (t : Nat) (mb : Nat) (buf : Option (List Byte)) (sigs : List (Nat × BitVec 64)) (slow : List Nat)
  /-- `INTERCALARY_SET` (R284). -/
  | intercalarySet (t : Nat) (mb : Nat) (buf : Option (List Byte))
  /-- `LINK_BER_TEST` (R450). -/
  | linkBerTest (t : Nat) (mb : Nat) (buf : Option (List Byte)) (ratios : List Nat)
  /-- `DVFS_SET` (R491). -/
  | dvfsSet (t : Nat) (mb : Nat) (buf : Option (List Byte))
  /-- `POWER_BUDGET_SET` (R475). -/
  | powerBudgetSet (t : Nat) (mb : Nat) (buf : Option (List Byte))
  /-- `PREWARN_DEFAULT_SET` (R483). -/
  | prewarnDefaultSet (t : Nat) (mb : Nat) (buf : Option (List Byte))
  /-- `REGION_POWER` (R488). -/
  | regionPower (t : Nat) (mb : Nat) (buf : Option (List Byte))
  /-- `THERMAL_SET` (R478). -/
  | thermalSet (t : Nat) (mb : Nat) (buf : Option (List Byte))
  /-- `ATTEST` (R532). -/
  | attest (t : Nat) (mb : Nat) (buf : Option (List Byte))
  /-- `ALARM_POLICY` (R541). -/
  | alarmPolicy (t : Nat) (mb : Nat) (buf : Option (List Byte))
  /-- `DEBUG_UNLOCK` (R544). -/
  | debugUnlock (t : Nat) (mb : Nat) (buf : Option (List Byte))
  /-- `DEBUG_LOCK` (R545). -/
  | debugLock (t : Nat) (mb : Nat) (buf : Option (List Byte))
  /-- `KEY_INSTALL` (R536). -/
  | keyInstall (t : Nat) (mb : Nat) (buf : Option (List Byte))
  /-- `KEY_ERASE` (R536). -/
  | keyErase (t : Nat) (mb : Nat) (buf : Option (List Byte))
  /-- `MGMT_CHALLENGE` (R547). -/
  | mgmtChallenge (t : Nat) (mb : Nat) (buf : Option (List Byte))
  /-- `MGMT_AUTH` (R547). -/
  | mgmtAuth (t : Nat) (mb : Nat) (buf : Option (List Byte))
  /-- `OPERATOR_KEY_FUSE` (R546). -/
  | operatorKeyFuse (t : Nat) (mb : Nat) (buf : Option (List Byte))
  /-- `POWER_SAMPLE` (R475). -/
  | powerSample (t : Nat) (mw : Nat) (cells : List Nat)
  /-- `BUDGET_CAP_RAISE` (R475). -/
  | budgetCapRaise (t : Nat)
  /-- `BUDGET_CAP_LOWER` (R475). -/
  | budgetCapLower (t : Nat)
  /-- `PMBUS_POLL` (R469). -/
  | pmbusPoll (t : Nat) (telem : List (Nat × PmbusTel))
  /-- `THERMAL_SENSOR_READ` (R477). -/
  | thermalSensorRead (t : Nat) (sensor : Nat) (reading : Int)
  /-- `THERMAL_CAP_RAISE` (R478). -/
  | thermalCapRaise (t : Nat) (g : Nat)
  /-- `THERMAL_CAP_LOWER` (R478). -/
  | thermalCapLower (t : Nat) (g : Nat)
  /-- `THERMAL_TRIP` (R479). -/
  | thermalTrip (t : Nat) (sensor : Nat)
  /-- `IVR_CELL_FAIL` (R480). -/
  | ivrCellFail (t : Nat) (g : Nat) (cell : Nat) (cause : Nat)
  /-- `SURGE_RECHARGED` (R484). -/
  | surgeRecharged (t : Nat) (g : Nat)
  /-- `DROOP_DETECT` (R485). -/
  | droopDetect (t : Nat) (g : Nat) (mv : Nat) (ns : Nat)
  /-- `DROOP_HARD_FLOOR` (R485). -/
  | droopHardFloor (t : Nat) (g : Nat) (mv : Nat) (ns : Nat)
  /-- `BUMP_SAMPLE` (R486). -/
  | bumpSample (t : Nat) (g : Nat) (current : Nat) (measured : Nat)
  /-- `POWER_GROUP_CLOSE` (R489). -/
  | powerGroupClose (t : Nat) (g : Nat) (marginOk : Bool)
  /-- `COLD_BOOT` (R505). -/
  | coldBoot (t : Nat) (tests : BootTests) (memFail : List MemFail)
  /-- `READY_SET` (R506). -/
  | readySet (t : Nat)
  /-- `LEDGER_APPEND` (R503). -/
  | ledgerAppend (t : Nat) (kind : Nat) (cls : Nat) (id : Nat)
  /-- `LOCKSTEP_MISMATCH` (R515). -/
  | lockstepMismatch (t : Nat) (pair : Nat) (pc : Nat)
  /-- `HEARTBEAT_TICK` (R437). -/
  | heartbeatTick (t : Nat)
  /-- `WATCHDOG_EXPIRE` (R517). -/
  | watchdogExpire (t : Nat)
  /-- `COLD_RST_N_ASSERT` (R565). -/
  | coldRstNAssert (t : Nat) (us : Nat)
  /-- `RAIL_REMOVAL` (R560). -/
  | railRemoval (t : Nat)
  /-- `ALARM_RAISE` (R540). -/
  | alarmRaise (t : Nat) (src : AlarmSrc)
  /-- `TAMPER_SAMPLE` (R539). -/
  | tamperSample (t : Nat) (ok : Bool)
  /-- `FUSE_RECHECK` (R539). -/
  | fuseRecheck (t : Nat) (ok : Bool)
  /-- `JTAG_INSTRUCTION` (R566). -/
  | jtagInstruction (t : Nat) (ir : Nat)
  /-- `COLD_RST_N_RELEASE` (R565). -/
  | coldRstNRelease (t : Nat)
  /-- `MGMT_LINK_LOSS` (R547). -/
  | mgmtLinkLoss (t : Nat) (port : Nat)
  /-- `FT_NOW_READ` (R437). -/
  | ftNowRead (t : Nat)
  /-- `EV_HOLDOFF_EXPIRE` (R459). -/
  | evHoldoffExpire (t : Nat)
  /-- `NORMAL_COMPLETION` (R195). -/
  | normalCompletion (t : Nat) (p : Nat)
  deriving DecidableEq, Repr

end Sys2Proof
end

