-- ==== Sys2Proof/Decode.lean ====
section
/-! DEFINITION. The command that a word of the table spells. No row of spec/opcode_table.json gives bits: the commands are bus
transactions, packets, timer expiries and events, and no word spells one. -/

namespace Sys2Proof

/-- The command spelled by the `nbits` bits of `w`: none, for no row of the table has bits. -/
def decodeTableWord (_nbits _w : Nat) : Option Instr := none

end Sys2Proof
end

