-- ==== Sys2Proof/Config.lean ====
section
/-! DEFINITION. What the spec leaves to an implementation or to another standard: free values and functions with no
body, so that nothing can be proved about their values. -/

namespace Sys2Proof

/-- A value the spec leaves open: bit string of width `w`, the `n`-th one drawn (assumption 14). -/
opaque Config.freeValue (w n : Nat) : BitVec w

/-- SHA-384 (R148, R497, R500), a standard outside the spec (assumption 15). -/
opaque Config.sha384 (bytes : List Byte) : BitVec 384

/-- ECDSA verification on brainpoolP384r1 of a digest under a public key x, y (R149, R498, R544; assumption 15). -/
opaque Config.ecdsaOk (key : BitVec 768) (digest : BitVec 384) (r s : BitVec 384) : Bool

/-- The public key whose SHA-384 hash is given: what an Ordo signing key slot stands for (R149; assumption 15). -/
opaque Config.keyOfHash (hash : BitVec 384) : BitVec 768

/-- ECDSA signature of a digest under the device identity key (R532; assumption 15): r then s. -/
opaque Config.identitySign (digest : BitVec 384) : BitVec 768

/-- The session key agreed from the device's ephemeral key and the verifier's public key, under a nonce (R534; assumption 15). -/
opaque Config.sessionKey (hostKey : BitVec 768) (draw : Nat) (nonce : BitVec 256) : BitVec 256

/-- The device's ephemeral public key of a session (R534; assumption 15). -/
opaque Config.ephemeralKey (draw : Nat) : BitVec 768

/-- The 30 parity symbols of an RS(544,514) codeword over its 514 message symbols, as in IEEE 802.3 (11 R342; log 159). -/
opaque Config.rsParity (msg : List (BitVec 10)) : Fin 30 → BitVec 10

/-- Units of 16 bytes that an output queue of a router holds (11 R361; log 158). -/
opaque Config.rtrQueueUnits : Nat

/-- AES-256-GCM opening: the plain text when the tag verifies (R536, R538; assumption 15). -/
opaque Config.gcmOpen (key : BitVec 256) (iv : BitVec 96) (aad cipher : List Byte) : Option (List Byte)

/-- AES-256-GCM sealing: cipher text and tag (R538, R534; assumption 15). -/
opaque Config.gcmSeal (key : BitVec 256) (iv : BitVec 96) (aad plain : List Byte) : List Byte

/-- The code that selects, among the valid maps of a region, the one the placer builds: a function of the Ordo digest,
the running Ernex version and the site states (R71; log 16). -/
opaque Config.placerCode (digest : BitVec 384) (version : BitVec 32) (states : List SiteSt) : Nat

/-- The hops that Ernex proposes for a route inside a region, as (site index, unit of the switch output, input code): from the Ordo
digest, the running Ernex version, the region, its site states and tile table, the route, and the links (site key, unit) on which the
route crosses the region's edge already (R74, R134; log 16). -/
opaque Config.regionPath (digest : BitVec 384) (version : BitVec 32) (region : Nat) (states : List SiteSt) (tiles : List Nat)
  (phase route : Nat) (edges : List (Nat × Nat)) : List (Nat × Nat × Nat)

/-- The order in which stream C brings the initial values of an output block's cells, as the code of a permutation (R104; assumption 19). -/
opaque Config.patchInit (cfg : BitVec 64) : Nat

/-- The order in which an output block's accumulators are emitted, as the code of a permutation (R99; assumption 19). -/
opaque Config.patchCell (cfg : BitVec 64) : Nat

/-- What a lane of INT32 values becomes under an arithmetic operation of a stage, which the spec states for the floating-point lane format only
(R105, R108; assumption 22): a function of the version, the stage's word, the draw, the operands and the old register value. -/
opaque Config.intLane (asv : Nat) (cfg : BitVec 128) (draw a b c old : Nat) : BitVec 32

/-- What lane `i` holds after a reduction of INT32 lanes (R109; assumption 22). -/
opaque Config.intReduce (asv : Nat) (cfg : BitVec 128) (lanes : List Nat) (i : Nat) : BitVec 32

/-- What `TO_A64` makes of an INT32 value, which may not be converted (R114; assumption 22). -/
opaque Config.intA64 (anchor : Int) (a : Nat) : BitVec 64

/-- What a stage before the last passes on as lanes when it converts to a microscaling format (R90, R105; assumption 44). -/
opaque Config.mxPass (cfg : BitVec 128) (lanes draws : List Nat) : BitVec 512

/-- What 512 bits hold of a result that is wider: lanes that read A64 vectors, a stage register written with them, a beat of 32 lanes of 32 bits
(R106, R107, R571; assumption 44). -/
opaque Config.narrow (vs : List (BitVec 512)) : BitVec 512

/-- Which of several failing checks names the status of a send, the statuses given (R211; assumption 50). -/
opaque Config.sendPick (codes : List Nat) : Nat

/-- Special functions of the vector stages (R111, R112): the tables belong to the arithmetic-semantics version and are not
in the spec (assumption 17). `f` is the operation code, `x` the FP32 operand. The accuracy of R111 bounds what the model takes of it. -/
opaque Config.special (asv f : Nat) (x : BitVec 32) : BitVec 32

/-- `mtval` after an exception (R201): the RISC-V privileged specification leaves zero or the value named to the implementation
(assumption 23). -/
opaque Config.seqTval (cause : Nat) (v : BitVec 32) : BitVec 32

/-- The identity CSRs `mvendorid`, `marchid`, `mimpid` and `mconfigptr` of the sequencer (R199; assumption 23). -/
opaque Config.seqIdCsr (n : Nat) : BitVec 32

/-- The servo's filter: the filtered offset from the last one and a measured one (R272, R276; assumption 24). -/
opaque Config.servoFilter (last measured : Int) : Int

/-- The servo's rate law: the rate adjustment in parts per 10^9 before its bound, from the filtered offset, the rate in force and a manual
slew still to be made (R272; assumption 24). -/
opaque Config.servoRate (offset rate slew : Int) : Int

/-- The two tiles of a region that a placement swap of an intercalary slot exchanges (R284; log 104). -/
opaque Config.placementSwap (region count : Nat) : Nat × Nat

/-- Bexvia's JEDEC manufacturer code in `IDCODE` (R566; assumption 27). -/
opaque Config.jedec : BitVec 11

/-- SHA-384 of the fuse shadow registers, secret fuses excluded: their layout is not in the spec (R533; assumption 15). -/
opaque Config.fuseDigest (fields : List Nat) : BitVec 384

/-- The census object ID and counter index by which `COUNTER_OVERFLOW` names `EV_LOST`, which no census object holds (R330, R459; log 140). -/
opaque Config.evLostName : Nat × Nat

/-- Half of the even `MGEN` of a census mirror entry at a time (R457; assumption 33). -/
opaque Config.mirrorGen (offset ft : Nat) : BitVec 63

end Sys2Proof
end

