-- ==== Sys2Proof/Machine/State.lean ====
section
/-! DEFINITION. The state of the device: plain data, every piece the spec gives the machine. Each field's docstring
names its width, the file and rule of spec/ that names it, and its value after reset. `State.reset` is the device held in
cold reset with its flash blank, before `COLD_BOOT`. -/

namespace Sys2Proof.Machine

/-! ## One configurable unit and the fabric of a site (04) -/

/-- A configurable unit (04 R156). -/
structure UnitSt where
  /-- active configuration; 512 bit (the widest word, `AG_CFG`); 04 R156; the unit's reset word -/
  active : BitVec 512 := 0
  /-- shadow configuration; 512 bit; 04 R156; the unit's reset word -/
  shadow : BitVec 512 := 0
  /-- active configuration of the epoch before, in which other units of the site may still be; 512 bit; 04 R156, R160; the unit's reset word -/
  prev : BitVec 512 := 0
  /-- `CUR_EPOCH`; 16 bit; 04 R156; DESIGN CHOICE 0 (log 3) -/
  epoch : BitVec 16 := 0
  /-- `SHADOW_VALID`; 1 bit; 04 R156; DESIGN CHOICE 0 (log 3) -/
  valid : Bool := false
  /-- outputs of the active configuration on which the Eve token of the next epoch has been emitted, by code; 04 R160; DESIGN CHOICE empty (log 3) -/
  eveOut : List Nat := []
  deriving DecidableEq, Repr

/-- An ejection port of one plane (04 R128, R135). -/
structure EjPort where
  /-- FIFO contents, oldest first; up to 256 elements; 04 R128; empty -/
  fifo : List Elem := []
  /-- `CREDITS` of the bound route, the FIFO's depth; 8 bit; 04 R132; DESIGN CHOICE 0 (log 3) -/
  depth : Nat := 0
  /-- credits returned by the consumer and not yet back at the injection port; 8 bit; 04 R135; DESIGN CHOICE 0 (log 3) -/
  owed : Nat := 0
  /-- the grant of this port has been sent for its current route; 1 bit; 04 R135; DESIGN CHOICE 0 (log 3) -/
  granted : Bool := false
  /-- its consumer has removed the Eve token of the next epoch; 1 bit; 04 R161; DESIGN CHOICE 0 (log 3) -/
  eveTaken : Bool := false
  /-- epoch of the route the port has switched to; 16 bit; 04 R161; DESIGN CHOICE 0 (log 3) -/
  epoch : BitVec 16 := 0
  deriving DecidableEq, Repr

/-- An injection port of one plane (04 R128, R135). -/
structure InPort where
  /-- elements its unit has emitted and that have not left yet, oldest first; 04 R135; empty -/
  outq : List Elem := []
  /-- credit counter; 8 bit; 04 R135; DESIGN CHOICE 0 (log 3) -/
  credit : Nat := 0
  /-- `CREDITS` of the bound route; 8 bit; 04 R132; DESIGN CHOICE 0 (log 3) -/
  cap : Nat := 0
  /-- `ROUTE_ID` of the bound route; 16 bit; 04 R132; DESIGN CHOICE none (log 3) -/
  route : Option Nat := none
  /-- destinations: (site, ejection port) pairs, 1 to 16; 04 R133; DESIGN CHOICE empty (log 3) -/
  dests : List (Nat × Nat) := []
  /-- switch outputs of the bound route's physical path: (site, unit) pairs; 04 R134, R135; DESIGN CHOICE empty (log 3) -/
  outs : List (Nat × Nat) := []
  /-- the Eve token of the next epoch has left the port; 1 bit; 04 R161; DESIGN CHOICE 0 (log 3) -/
  eveSent : Bool := false
  /-- epoch of the route the port has switched to; 16 bit; 04 R161; DESIGN CHOICE 0 (log 3) -/
  epoch : BitVec 16 := 0
  deriving DecidableEq, Repr

/-- The running state of a counter (04 R139, R140). -/
structure CounterSt where
  /-- next value of the pass; 32 bit signed; 04 R139; DESIGN CHOICE 0 (log 3) -/
  cur : Int := 0
  /-- passes completed; 32 bit; 04 R139; DESIGN CHOICE 0 (log 3) -/
  passes : Nat := 0
  /-- the program has emitted its final value; 1 bit; 04 R140; DESIGN CHOICE 0 (log 3) -/
  done : Bool := false
  /-- the program has been started since its configuration switch; 1 bit; 04 R153; DESIGN CHOICE 0 (log 3) -/
  started : Bool := false
  /-- passes of the chain source not yet used, chained mode; count; 04 R140; DESIGN CHOICE 0 (log 3) -/
  pend : Nat := 0
  deriving DecidableEq, Repr

/-- The running state of an address generator (05 R178, R179). -/
structure AgSt where
  /-- loop indices i0 to i4; 16 bit each; 05 R178; DESIGN CHOICE 0 (log 3) -/
  idx : AgIdx := {}
  /-- a program runs; 1 bit; 05 R198 `AG_ACTIVE`; 0 -/
  running : Bool := false
  /-- the program of the phase has ended; 1 bit; 05 R183; DESIGN CHOICE 0 (log 3) -/
  done : Bool := false
  /-- transpose buffer: the D-block half-columns it holds, at most eight, newest first, each with its 256 bytes; 05 R179; empty -/
  tbuf : List (Nat × List Byte) := []
  /-- persistent granules the program has written; 192 bit; 05 R187; DESIGN CHOICE 0 (log 3) -/
  wrote : BitVec 192 := 0
  deriving DecidableEq, Repr

/-- The running state of the matrix patch (03 R99, R104). -/
structure PatchSt where
  /-- accumulators by cell 32 × row + column (FP32 or INT32 bits); 32 bit each; 03 R99; DESIGN CHOICE 0 (log 3) -/
  acc : Tbl (BitVec 32) := []
  /-- K-groups folded since the last emission; 16 bit; 03 R99; DESIGN CHOICE 0 (log 3) -/
  kg : Nat := 0
  /-- weight-stationary rows streamed for the stationary block; 10 bit; 03 R104; DESIGN CHOICE 0 (log 3) -/
  wsRow : Nat := 0
  /-- K-groups of the stationary block folded for the row that streams; 5 bit; 03 R98; DESIGN CHOICE 0 (log 3) -/
  wsGrp : Nat := 0
  /-- bytes of operand A delivered and not folded yet, then its scale bytes; 03 R99; DESIGN CHOICE empty (log 3) -/
  bufA : List Byte := []
  sclA : List Byte := []
  /-- bytes of operand B delivered and not folded yet (in weight-stationary mode from the stationary block on), then its scale bytes; 03 R98, R99; DESIGN CHOICE empty (log 3) -/
  bufB : List Byte := []
  sclB : List Byte := []
  /-- `PATCH_STATUS.INT_WRAP`; 1 bit; 03 R104; 0 -/
  intWrap : Bool := false
  /-- `PATCH_STATUS.NAN_SEEN`; 1 bit; 03 R104; 0 -/
  nanSeen : Bool := false
  deriving DecidableEq, Repr

/-- The running state of one vector stage (03 R94, R106). -/
structure StageSt where
  /-- stage registers V0 to V7; 512 bit each; 03 R106; +0 -/
  v : Tbl (BitVec 512) := []
  /-- element position p of the next element; 35 bit; 03 R94; 0 -/
  pos : Nat := 0
  /-- stage registers that hold INT32 values; 03 R105; empty -/
  ints : List Nat := []
  /-- first half of an MX block of 32 in 16-lane mode; 512 bit; 03 R108, 05 R571; none -/
  hold : Option (BitVec 512) := none
  /-- the same for a block that `FROM_A64` converts: its first A64 vectors with their tags; 03 R119, 05 R571; empty -/
  holdA : List Elem := []
  deriving DecidableEq, Repr

/-! ## Memory unit, sequencer and channels of a site (05, 06, 07) -/

/-- Kinds of wait, `SYNC_STATUS.WAIT_KIND` codes 1 to 10 in order (07 R251). -/
inductive WaitKind where
  | sigwait | sigwaitl | barrive | barwait | semwait | getw | recv | send | ephase | fence
  deriving DecidableEq, Repr

/-- The wait of a suspended context (07 R247, R251). -/
structure Wait where
  kind : WaitKind
  /-- signal, barrier, flag, port or channel waited on; 6 bit; 07 R251 -/
  arg : Nat := 0
  /-- second operand of the instruction; 32 bit; 06 R209 -/
  val : BitVec 32 := 0
  /-- destination register of the instruction; 5 bit; 06 R209 -/
  rd : Nat := 0
  /-- FT at which the wait began; 64 bit; 07 R249 -/
  since : Nat := 0
  /-- the wait is long; 1 bit; 07 R248 -/
  long : Bool := false
  /-- the wait's Ides timer has expired; 1 bit; 07 R250 -/
  timedOut : Bool := false
  deriving DecidableEq, Repr

/-- One sequencer context bank: main or handler (06 R203). -/
structure Bank where
  /-- registers x1 to x31; 32 bit each; 06 R203; DESIGN CHOICE 0 (log 3) -/
  regs : Tbl (BitVec 32) := []
  /-- program counter; 32 bit; 06 R203; DESIGN CHOICE 0 (log 3) -/
  pc : BitVec 32 := 0
  /-- the suspended blocking instruction, if any; 06 R203; none -/
  wait : Option Wait := none
  /-- a program or handler runs in the bank; 1 bit; 06 R203; DESIGN CHOICE 0 (log 3) -/
  live : Bool := false
  deriving DecidableEq, Repr

/-- The sequencer of a site (06 R199 to R213). -/
structure SeqSt where
  /-- bank of the main context; 06 R203 -/
  main : Bank := {}
  /-- bank shared by the handlers; 06 R203 -/
  hand : Bank := {}
  /-- `XM_CTX`; 6 bit; 06 R213; 0 -/
  ctx : Nat := 0
  /-- complete messages not yet dispatched, (channel, `SEQ`, FT of completion), in the order of dispatch; 06 R204; empty -/
  pending : List (Nat × BitVec 32 × Nat) := []
  /-- halted by an exception; 1 bit; 06 R201; DESIGN CHOICE 0 (log 3) -/
  halted : Bool := false
  /-- `mcause`; 32 bit; 06 R201; DESIGN CHOICE 0 (log 3) -/
  mcause : BitVec 32 := 0
  /-- `mepc`; 32 bit; 06 R201; DESIGN CHOICE 0 (log 3) -/
  mepc : BitVec 32 := 0
  /-- `mtval`; 32 bit; 06 R201; DESIGN CHOICE 0 (log 3) -/
  mtval : BitVec 32 := 0
  /-- `mstatus`; 32 bit; 06 R199 (machine CSRs); PRESUMED 0 (log 3) -/
  mstatus : BitVec 32 := 0
  /-- `mscratch`; 32 bit; 06 R199 (machine CSRs); PRESUMED 0 (log 3) -/
  mscratch : BitVec 32 := 0
  /-- `mcycle`; 64 bit; 06 R199, R212; PRESUMED 0 (log 3) -/
  mcycle : BitVec 64 := 0
  /-- `minstret`; 64 bit; 06 R199, R212; PRESUMED 0 (log 3) -/
  minstret : BitVec 64 := 0
  /-- phase index held by `XM_EPOCH` bits 31:16; 16 bit; 06 R213; 0 -/
  phase : Nat := 0
  /-- `XM_MSEQ`; 32 bit; 06 R213; 0 -/
  mseq : BitVec 32 := 0
  /-- `XM_RLEN`; 32 bit; 06 R213; 0 -/
  rlen : BitVec 32 := 0
  /-- `XM_STATUS.EVE_HEAD`; 1 bit; 06 R210; 0 -/
  eveHead : Bool := false
  /-- `XM_STATUS.COMPAT`; 1 bit; 06 R213; 0 -/
  compat : Bool := false
  /-- `XM_STATUS` status of the last send; 8 bit; 06 R213; 0 -/
  lastSend : Nat := 0
  /-- FT sample of the last `XM_FTL` read, for `XM_FTH`; 64 bit; 06 R213; DESIGN CHOICE 0 (log 3) -/
  ftSample : Nat := 0
  /-- `XM_UTAG`; 32 bit; 06 R213; 0 -/
  utag : BitVec 32 := 0
  /-- the main context has executed `X.EPHASE` in this phase; 1 bit; 06 R207; DESIGN CHOICE 0 (log 3) -/
  ephase : Bool := false
  /-- earlier stores, sends and deposits not yet acknowledged; count; 07 R238; DESIGN CHOICE 0 (log 3) -/
  unacked : Nat := 0
  /-- cycles waited by the current wait, for Fast; 07 R247; DESIGN CHOICE 0 (log 3) -/
  fast : Bool := false
  deriving DecidableEq, Repr

/-- One channel slot: `CHAN_STATUS` (06 R220) and the messages behind it. -/
structure ChanSt where
  /-- `RX_RPTR`; 11 bit; 06 R220; from sealed state, DESIGN CHOICE 0 before any (log 3) -/
  rxRptr : Nat := 0
  /-- ring lines deposited and not yet freed, whose number is `RX_LINES`; 1,024 of 1 bit; 06 R220; empty -/
  present : List Nat := []
  /-- `RX_SEQ`; 32 bit; 06 R220; from sealed state, DESIGN CHOICE 0 before any (log 3) -/
  rxSeq : BitVec 32 := 0
  /-- `TX_WPTR`; 11 bit; 06 R220; from sealed state, DESIGN CHOICE 0 before any (log 3) -/
  txWptr : Nat := 0
  /-- `TX_CREDITS`; 11 bit; 06 R220; `TX_LINES` when configured, DESIGN CHOICE 0 before (log 3) -/
  txCredits : Nat := 0
  /-- `TX_WAIT`; 1 bit; 06 R220; 0 -/
  txWait : Bool := false
  /-- `TX_SPILL`; 1 bit; 06 R220; 0 -/
  txSpill : Bool := false
  /-- `TX_SPILLS`; 8 bit; 06 R220; 0 -/
  txSpills : Nat := 0
  /-- `TX_SEQ`; 32 bit; 06 R220; from sealed state, DESIGN CHOICE 0 before any (log 3) -/
  txSeq : BitVec 32 := 0
  /-- FT since which the send has waited for credits; 64 bit; 06 R225; DESIGN CHOICE 0 (log 3) -/
  txSince : Nat := 0
  /-- contributions sent and not acknowledged; count; 06 R207; DESIGN CHOICE 0 (log 3) -/
  txContrib : Nat := 0
  /-- lines deposited and not acknowledged; count; 06 R225; DESIGN CHOICE 0 (log 3) -/
  txUnacked : Nat := 0
  /-- the message being handled or last received and not completed; 06 R219; none -/
  cur : Option Msg := none
  /-- lines to free when that message completes, its pads before it included; 06 R219; DESIGN CHOICE 0 (log 3) -/
  curLines : Nat := 0
  /-- lines moved to the spill ring behind that message; 06 R225; 0 -/
  moved : Nat := 0
  /-- slice address of that message's payload; 20 bit; 06 R204, R205; DESIGN CHOICE 0 (log 3) -/
  curAddr : Nat := 0
  /-- a combining round has been delivered and not completed; 1 bit; 06 R222; DESIGN CHOICE 0 (log 3) -/
  delivered : Bool := false
  /-- a deposit with `CE` has arrived since the last credit packet; 1 bit; 11 R361; 0 -/
  marked : Bool := false
  /-- packets of a spill deposit that has not arrived whole, by byte offset; 06 R225; none -/
  spillIn : Tbl (List Byte) := []
  deriving DecidableEq, Repr

/-- One combining queue (06 R221 to R223). -/
structure CombQ where
  /-- merged tag; 64 bit; 06 R222; none -/
  tag : Option A64Tag := none
  /-- sum of E × `COUNT` over the accepted contributions; 64 bit; 06 R222; DESIGN CHOICE 0 (log 3) -/
  added : Nat := 0
  /-- the queue is armed; 1 bit; 06 R223; DESIGN CHOICE 1 (log 3) -/
  armed : Bool := true
  /-- contributions waiting at the queue's input, oldest first; 06 R223; empty -/
  waiting : List Packet := []
  deriving DecidableEq, Repr

/-- An entry of the tile's spill ring (06 R225, R227). -/
structure SpillEnt where
  msg : Msg
  /-- lines of padding before it; 06 R225 -/
  pads : Nat := 0
  bytes : Nat := 0
  /-- completed and awaiting reclaim; 1 bit; 06 R227 -/
  done : Bool := false
  /-- dispatched through the staging buffer; 1 bit; 06 R226 -/
  staged : Bool := false
  deriving DecidableEq, Repr

/-- A message or combining delivery forwarded to a shadow (06 R229, 10 R298): the record, its payload's slice address, what it
holds, and the words for `a3` and `a4`. -/
structure FwdMsg where
  msg : Msg := {}
  addr : Nat := 0
  bytes : List Byte := []
  a3 : Nat := 0
  a4 : Nat := 0
  deriving DecidableEq, Repr

/-- A window descriptor `WIN_DESC` (05 R189); `key` is `KEY_SLOT`. -/
structure WinDesc where
  base : Nat := 0
  size : Nat := 0
  rights : Nat := 0
  remote : Bool := false
  isOpen : Bool := false
  owner : Nat := 0
  key : Nat := 0
  deriving DecidableEq, Repr

/-- The memory unit of a site (05). -/
structure MuSt where
  /-- slice contents by slice address, in 32 banks of 1,536 entries of 16 bytes under the mapping of R170: 786,432 bytes, an unlisted byte reads 0; 05 R169, R195; swept to zero at start -/
  slice : List Host.Cell := []
  /-- tags of the A64 segments that the slice holds, by address div 64; 03 R116; DESIGN CHOICE empty (log 99) -/
  tags : Tbl A64Tag := []
  /-- `MU_STATUS.SWEPT`; 1 bit; 05 R198; 0 -/
  swept : Bool := false
  /-- `MU_STATUS.UE`; 1 bit; 05 R198; 0 -/
  ue : Bool := false
  /-- `MU_STATUS.DISCARD`; 1 bit; 05 R198; 0 -/
  discard : Bool := false
  /-- `MU_STATUS.CE`; 8 bit; 05 R198; 0 -/
  ce : Nat := 0
  /-- `MU_STATUS.WIN_FAULTS`; 8 bit; 05 R198; 0 -/
  winFaults : Nat := 0
  /-- persistent mask; 192 bit; 05 R187; DESIGN CHOICE 0 before any load (log 3) -/
  persistent : BitVec 192 := 0
  /-- dirty mask; 192 bit; 05 R187; DESIGN CHOICE 0 before any write (log 3) -/
  dirty : BitVec 192 := 0
  /-- granules queued for write-back, oldest first; `WB_PENDING` when not empty; 05 R187, R198; empty -/
  wbQueue : List Nat := []
  /-- discard count per tensor, 256 of 48 bit; 05 R186, 14 R456; 0 -/
  discards : Tbl Ctr48 := []
  /-- window descriptors `WIN_DESC` 0 to 7; 64 bit each; 05 R189; 0 -/
  windows : Tbl WinDesc := []
  /-- cycles a narrow request has been pending without a narrow grant; 4 bit; 05 R175; DESIGN CHOICE 0 (log 3) -/
  narrowWait : Nat := 0
  /-- next wide requester of the round robin, 0 to 5; 05 R175; DESIGN CHOICE 0 (log 3) -/
  rrWide : Nat := 0
  /-- next narrow requester of the round robin, 0 to 3; 05 R175; DESIGN CHOICE 0 (log 3) -/
  rrNarrow : Nat := 0
  /-- pending wide accesses, one of a requester, oldest first; 05 R173; empty -/
  wideReq : List SliceReq := []
  /-- pending narrow accesses, one of a requester, oldest first; 05 R174; empty -/
  narrowReq : List SliceReq := []
  /-- errors that stand in the entries' check codes, by slice address div 16: 1 a single bit, 2 uncorrectable; 05 R172; DESIGN CHOICE empty (log 3) -/
  errs : Tbl Nat := []
  deriving DecidableEq, Repr

/-- A history entry of a site (10 R318): `role` 1 tile, 2 shadow. -/
structure HistEnt where
  tile : Nat := 0
  role : Nat := 0
  fromStep : Nat := 0
  deriving DecidableEq, Repr

/-- What one output stream has contributed to the site's signature (10 R300). -/
structure SigStream where
  /-- running CRC-64 of the stream; 64 bit; 10 R300 -/
  crc : BitVec 64 := 0
  /-- the stream has carried at least one byte; 1 bit; 10 R300 -/
  used : Bool := false
  deriving DecidableEq, Repr

/-- Counts of one barrier at a member (07 R241). -/
structure BarCnt where
  /-- arrivals a; 16 bit; 07 R241; 0 -/
  a : BitVec 16 := 0
  /-- completions c; 16 bit; 07 R241; 0 -/
  c : BitVec 16 := 0
  deriving DecidableEq, Repr

/-- One site (02 R62, R68; 04 R168; 10 R318) with the units, memory and sequencer it carries. -/
structure Site where
  /-- site state; 4 bit; 02 R62; from fuses and ledger, PRESUMED spare before the load (log 4) -/
  st : SiteSt := .spare
  /-- `TILE`: local index held, shadowed or filled; 7 bit; 02 R68; DESIGN CHOICE 0 before placement (log 4) -/
  tile : Nat := 0
  /-- `UNTESTED`; 1 bit; 02 R68, 16 R504; DESIGN CHOICE 1 before start-up (log 4) -/
  untested : Bool := true
  /-- `FAULTS`; 4 bit saturating at 15; 02 R68; 0 -/
  faults : Nat := 0
  /-- suspect bit of the health object; 1 bit; 10 R318; DESIGN CHOICE 0 (log 4) -/
  suspect : Bool := false
  /-- planned fence pending; 1 bit; 10 R318; DESIGN CHOICE 0 (log 4) -/
  planned : Bool := false
  /-- class recorded when the planned fence was ordered; 16 bit; 10 R309; DESIGN CHOICE 0 (log 4) -/
  plannedClass : Nat := 0
  /-- FT of the record that ordered the planned fence; 64 bit; 10 R309, R318; DESIGN CHOICE 0 (log 4) -/
  plannedFt : Nat := 0
  /-- `UNREPRO`; 8 bit; 10 R305, R318; DESIGN CHOICE 0 (log 4) -/
  unrepro : Nat := 0
  /-- `LAST_CLEAN`; 64 bit, all ones for none; 10 R318, R319; all ones -/
  lastClean : BitVec 64 := BitVec.allOnes 64
  /-- `LAST_BIST`; 64 bit; 10 R318; 0 (none) -/
  lastBist : Nat := 0
  /-- `FENCE_FT`; 64 bit; 10 R318; 0 (not fenced) -/
  fenceFt : Nat := 0
  /-- `FENCE_CLASS`; 16 bit; 10 R318; 0 (not fenced) -/
  fenceClass : Nat := 0
  /-- history, newest first, at most five; 10 R318; empty -/
  hist : List HistEnt := []
  /-- signature streams of the attempt by identifier; 10 R300; empty -/
  sig : Tbl SigStream := []
  /-- last Σ; 64 bit; 10 R300; DESIGN CHOICE 0 (log 4) -/
  sigma : BitVec 64 := 0
  /-- `SLICE_CE` records of the power cycle, for the planned fence at 64; 10 R309; 0 -/
  ceFence : Nat := 0
  /-- configurable units by unit ID of R154; 04 R156; reset words -/
  units : Tbl UnitSt := []
  /-- `FAB_STATUS.FAULT_UNIT`; 8 bit; 04 R168; 0 -/
  fabFaultUnit : Nat := 0
  /-- `FAB_STATUS.FAULT_CAUSE`; 4 bit; 04 R168; 0 -/
  fabFaultCause : Nat := 0
  /-- `FAB_STATUS.FAULT_EPOCH`; 16 bit; 04 R168; 0 -/
  fabFaultEpoch : BitVec 16 := 0
  /-- `FAB_STATUS.DUP_EVE`; 8 bit; 04 R168; 0 -/
  dupEve : Nat := 0
  /-- `FAB_STATUS.DRAINED`; 8 bit; 04 R168; 0 -/
  drained : Nat := 0
  /-- phase of the step in which the site's slowest unit is active; none since the last flush; 04 R164; DESIGN CHOICE none (log 3) -/
  phaseAt : Option Nat := none
  /-- units stopped by a configuration fault, by unit ID; 04 R165; empty -/
  stopped : List Nat := []
  /-- ejection ports by 8 × plane + port; 04 R128 -/
  ej : Tbl EjPort := []
  /-- injection ports by 4 × plane + port; 04 R128 -/
  inj : Tbl InPort := []
  /-- counters 0 to 7; 04 R139 -/
  counters : Tbl CounterSt := []
  /-- internal streams of the tile by stream code (Ops); 03 R105, 05 R182; empty -/
  streams : Tbl (List Elem) := []
  /-- the matrix patch; 03 R99 -/
  patch : PatchSt := {}
  /-- vector stages 1 to 6; 03 R105 -/
  stages : Tbl StageSt := []
  /-- anchor cache: anchor by chunk ID, at most 256 entries; 03 R121; empty -/
  anchorCache : Tbl Int := []
  /-- address generators 0 to 3; 05 R177 -/
  ags : Tbl AgSt := []
  /-- the memory unit; 05 -/
  mu : MuSt := {}
  /-- the sequencer; 06 -/
  seq : SeqSt := {}
  /-- channel slots 0 to 31; 06 R214, R220 -/
  chans : Tbl ChanSt := []
  /-- combining queues 0 to 7; 06 R221 -/
  combqs : Tbl CombQ := []
  /-- spill ring entries, oldest first; 06 R225, R227; empty -/
  spill : List SpillEnt := []
  /-- a shadow's forwarded messages, oldest first; 10 R298; empty -/
  fwdMsgs : List FwdMsg := []
  /-- a shadow's forwarded `X.TRYSEND` statuses, oldest first; 10 R298; empty -/
  fwdTry : List Nat := []
  /-- signals 0 to 63; 32 bit each; 07 R231; DESIGN CHOICE 0 (log 3), set to 0 at every step release -/
  signals : Tbl (BitVec 32) := []
  /-- barrier counts by barrier; 07 R241; 0 -/
  bars : Tbl BarCnt := []
  /-- semaphore flags; 16 bit; 07 R246; 0 -/
  sem : BitVec 16 := 0
  deriving DecidableEq, Repr

/-! ## Regions (02, 10, 15) -/

/-- A Placement Map tile entry (02 R67); `site` is p. -/
structure TileEnt where
  site : Nat := 0
  moving : Bool := false
  gen : BitVec 16 := 0
  deriving DecidableEq, Repr

/-- A repair of a region (10 R313): a spare fill of tile `k` into `p`, or a full placement. -/
inductive Repair where
  | fill (k p restarts : Nat) (stopped : Bool)
  | full
  deriving DecidableEq, Repr

/-- Logic states of a region (15 R493), codes 0 to 4. -/
inductive LogicSt where
  | off | poweringUp | on | poweringDown | dark
  deriving DecidableEq, Repr

/-- Array states of a region (15 R493), codes 0 to 2. -/
inductive ArraySt where
  | off | retention | on
  deriving DecidableEq, Repr

/-- One region: its placement tables, repair queue, Vigil and power. -/
structure Region where
  /-- tile table, 128 entries; 32 bit each; 02 R67; set at placement -/
  tiles : Tbl TileEnt := []
  /-- a placement has been built; 1 bit; 02 R71; DESIGN CHOICE 0 (log 4) -/
  placed : Bool := false
  /-- placement generation; 16 bit; 02 R69; DESIGN CHOICE 0 (log 4) -/
  gen : BitVec 16 := 0
  /-- site index that a tile held before the fence that its latest fill follows; 10 R311, R314; empty -/
  fillFrom : Tbl Nat := []
  /-- fences since the last full placement; 02 R76; DESIGN CHOICE 0 (log 4) -/
  fences : Nat := 0
  /-- `REGION_LOW` raised this power cycle; 1 bit; 02 R65; 0 -/
  lowRaised : Bool := false
  /-- `REGION_EXHAUSTED` raised this power cycle; 1 bit; 02 R65; 0 -/
  exhRaised : Bool := false
  /-- treated as if the good-spare count were 0; 1 bit; 02 R76, 10 R313; 0 -/
  exhausted : Bool := false
  /-- Vigil depth D; 3 bit; 10 R295; 1 -/
  vigilD : Nat := 1
  /-- targets of the step: (Vigil site p, local tile k); 10 R296; empty -/
  targets : List (Nat × Nat) := []
  /-- Vigil sites loaded for the step: p; 10 R297; empty -/
  loaded : List Nat := []
  /-- mismatched pairs under resolution: (k, P, V, T3); 10 R302; empty -/
  pairs : List (Nat × Nat × Nat × Option Nat) := []
  /-- repairs, the active one first, at most five; 10 R313; empty -/
  repairs : List Repair := []
  /-- BIST rotation pointer; 8 bit; 10 R306; DESIGN CHOICE 0 (log 4) -/
  bistPtr : Nat := 0
  /-- logic state; 3 bit; 15 R493; 2 (on) -/
  logic : LogicSt := .on
  /-- array state; 2 bit; 15 R493; 2 (on) -/
  array : ArraySt := .on
  /-- effective step; 3 bit; 15 R493; 0 -/
  dvfs : Nat := 0
  /-- operator cap; 3 bit; 15 R473; DESIGN CHOICE 0 (log 5) -/
  capOp : Nat := 0
  /-- thermal cap; 3 bit; 15 R478; DESIGN CHOICE 0 (log 5) -/
  capTherm : Nat := 0
  /-- budget cap; 3 bit; 15 R475; DESIGN CHOICE 0 (log 5) -/
  capBudget : Nat := 0
  /-- `LENT`: the region is a lender; 1 bit; 15 R493; 0 -/
  lent : Bool := false
  /-- headroom that its lending counts, in mW; 15 R476; 0 -/
  lentMw : Nat := 0
  /-- `BUMP`; 1 bit; 15 R493; 0 -/
  bump : Bool := false
  /-- `LOGIC_FAIL`; 6 bit; 15 R493; from ledger, 0 with a blank ledger -/
  logicFail : BitVec 6 := 0
  /-- `ARRAY_FAIL`; 2 bit; 15 R493; from ledger, 0 with a blank ledger -/
  arrayFail : BitVec 2 := 0
  /-- `MARGIN`; 8 bit; 15 R493; 0 -/
  margin : Nat := 0
  /-- `PU_GROUPS`; 5 bit; 15 R493; 16 -/
  puGroups : Nat := 16
  /-- pause of the current power-up so far in FT units; 15 R489; DESIGN CHOICE 0 (log 5) -/
  puPaused : Nat := 0
  /-- FT of the last group closed in this power-up; 15 R489; DESIGN CHOICE 0 (log 5) -/
  puLast : Nat := 0
  /-- slice contents were lost and await a sweep; 1 bit; 15 R487; DESIGN CHOICE 0 (log 5) -/
  lost : Bool := false
  /-- clocks stopped by a thermal trip or a HALT policy; 1 bit; 15 R479, 17 R540; DESIGN CHOICE 0 (log 5) -/
  clocksOff : Bool := false
  /-- sensor readings of the region, 3, in 0.125 °C; 15 R477; no reading until the first read -/
  sensors : Tbl (Option Int) := []
  /-- FT of the last thermal raise; 15 R478; none -/
  thermRaise : Option Nat := none
  /-- FT since which every sensor has read below the fall threshold; 15 R478; none -/
  coolSince : Option Nat := none
  /-- consecutive bump samples in excess; 5 bit; 15 R486; DESIGN CHOICE 0 (log 5) -/
  bumpRun : Nat := 0
  /-- cell currents, 8, in mA; 15 R493; DESIGN CHOICE 0 (log 5) -/
  cellCur : Tbl Nat := []
  /-- logic current in mA, for the choice of R475; 15 R475; DESIGN CHOICE 0 (log 5) -/
  logicCur : Nat := 0
  /-- surge cells charged to at least 90 %; 1 bit; 15 R484; DESIGN CHOICE 1 (log 5) -/
  surgeOk : Bool := true
  /-- feedforward load code λ; 4 bit; 15 R483; DESIGN CHOICE 0 (log 5) -/
  lambda : Nat := 0
  /-- FT of the last prewarn; 09 R282; none -/
  prewarnAt : Option Nat := none
  deriving DecidableEq, Repr

/-! ## The Ordo as loaded (04 R147 to R155, R573 to R576; 06; 08; 09) -/

/-- A phase table entry (04 R152). -/
structure PhaseEnt where
  pflags : Nat := 0
  idesUs : Nat := 0
  configOff : Nat := 0
  configBlocks : Nat := 0
  routeFirst : Nat := 0
  routeCount : Nat := 0
  deriving DecidableEq, Repr

/-- A record of a configuration block (04 R153). -/
structure CfgRec where
  unit : Nat := 0
  op : Nat := 0
  word : BitVec 512 := 0
  words : Nat := 0
  deriving DecidableEq, Repr

/-- A configuration block (04 R153). -/
structure CfgBlock where
  tile : Nat := 0
  phase : Nat := 0
  recs : List CfgRec := []
  deriving DecidableEq, Repr

/-- A route with its path expanded (04 R132, R133): `dests` are (tile, ejection port), `hops` the directed
logical hops it uses as (tile left, direction), `far` the hops and stack crossings to each destination. -/
structure Route where
  id : Nat := 0
  phase : Nat := 0
  src : Nat := 0
  plane : Nat := 0
  port : Nat := 0
  credits : Nat := 0
  dests : List (Nat × Nat) := []
  hops : List (Nat × Nat) := []
  far : List (Nat × Nat) := []
  deriving DecidableEq, Repr

/-- A group entry of the GROUPS section (04 R574). -/
structure GroupDef where
  group : Nat := 0
  deadlineUs : Nat := 20
  herald : Nat := 0
  members : List Nat := []
  replicaSets : List (List Nat) := []
  deriving DecidableEq, Repr

/-- A barrier descriptor (07 R240). -/
structure BarDef where
  id : Nat := 0
  scope : Nat := 0
  group : Nat := 0
  members : List Nat := []
  root : Nat := 0
  deriving DecidableEq, Repr

/-- A slice-map entry (04 R573). -/
structure SliceMap where
  tile : Nat := 0
  sgran : Nat := 0
  pgran : Nat := 0
  page : Nat := 0
  deriving DecidableEq, Repr

/-- A HANDLERS tile record (06 R202); `entries` are (phase, `PC_OFF`, `SP`). -/
structure HandlerRec where
  tile : Nat := 0
  imem : List Byte := []
  dmem : List Byte := []
  compat : Bool := false
  entries : List (Nat × Nat × Nat) := []
  deriving DecidableEq, Repr

/-- A CHANNELS record (06 R215). -/
structure ChanRec where
  tile : Nat := 0
  spillLog2 : Nat := 20
  stageBase : Nat := 0
  stageLines : Nat := 0
  deriving DecidableEq, Repr

/-- A recompute entry (08 R255). -/
structure RecompEnt where
  rphase : Nat := 0
  fphase : Nat := 0
  unitMask : BitVec 32 := 0
  x0 : Nat := 0
  y0 : Nat := 0
  x1 : Nat := 0
  y1 : Nat := 0
  deriving DecidableEq, Repr

/-- A retain entry (08 R260). -/
structure RetainEnt where
  tensor : Nat := 0
  plain : Bool := false
  producer : Nat := 0
  lastUse : Nat := 0
  pages : Nat := 0
  deriving DecidableEq, Repr

/-- A DATA item (04 R576): `slice` selects `DKIND` 2. -/
structure DataItem where
  slice : Bool := false
  tile : Nat := 0
  page : Nat := 0
  off : Nat := 0
  bytes : List Byte := []
  deriving DecidableEq, Repr

/-- A loaded Ordo. -/
structure Ordo where
  /-- Ordo digest; 384 bit; 04 R148 -/
  digest : BitVec 384 := 0
  /-- `FLAGS` bit 0; 1 bit; 04 R147 -/
  timingData : Bool := false
  asv : Nat := 1
  regionMask : BitVec 64 := 0
  depth : Nat := 1
  rootGroup : Nat := 0
  logPages : Nat := 0
  phases : List PhaseEnt := []
  blocks : List CfgBlock := []
  routes : List Route := []
  groups : List GroupDef := []
  barriers : List BarDef := []
  classes : List Nat := []
  sliceMaps : List SliceMap := []
  handlers : List HandlerRec := []
  chanRecs : List ChanRec := []
  /-- the channel table; 06 R216 -/
  chans : List ChanEnt := []
  almanac : List AlmEntry := []
  cadence : Nat := 0
  anchors : Tbl (BitVec 64) := []
  seed : BitVec 64 := 0
  epOffset : BitVec 16 := 0
  keys : Tbl (BitVec 32) := []
  recomputes : List RecompEnt := []
  retains : List RetainEnt := []
  discard : BitVec 256 := 0
  data : List DataItem := []
  deriving DecidableEq, Repr

/-! ## Jobs, twins and partitions (01, 07, 09, 13) -/

/-- Where a job stands (14 R450 `COMMIT_STATUS`, 01 R41 to R54). -/
inductive JobSt where
  | atGate | running | closed | voting | hold | replayWait | stopped
  deriving DecidableEq, Repr

/-- One pre-image of R26: the value of granule `gran` of page `page` taken in the attempt that made SEAL `step`. -/
structure PreImage where
  page : Nat := 0
  gran : Nat := 0
  side : Bool := false
  /-- place in the job's log reservation, 64 to a page; 01 R26 -/
  slot : Nat := 0
  /-- step whose attempt made it; 01 R26 -/
  step : Nat := 0
  /-- step of the SEAL that flipped the granule last before it; 01 R26 -/
  flip : Nat := 0
  /-- made in the attempt in progress; 01 R26 -/
  fresh : Bool := true
  deriving DecidableEq, Repr

/-- What the ledger keeps of one generation, for the rewind of R28: step, record and live masks. -/
structure GenRec where
  gen : Nat := 0
  lrec : LedgerRec := {}
  live : Tbl (BitVec 64) := []
  digests : Tbl (BitVec 128) := []
  deriving DecidableEq, Repr

/-- A bound job. -/
structure Job where
  /-- step index; 64 bit; 01 R13 -/
  step : Nat := 0
  /-- attempt number; 8 bit; 01 R15 -/
  attempt : Nat := 0
  /-- where the job stands; 14 R450 -/
  st : JobSt := .atGate
  /-- first step of the binding not yet released; 1 bit; 04 R164 -/
  first : Bool := true
  /-- the attempt in progress or next is a replay; 1 bit; 01 R54 -/
  replay : Bool := false
  /-- faulted: no vote for the step; 1 bit; 01 R38 -/
  faulted : Bool := false
  /-- a debug unlock was granted while the job ran: no further step seals; 1 bit; 01 R34 -/
  debugged : Bool := false
  /-- retention depth d; 2 bit; 01 R25 -/
  depth : Nat := 1
  /-- `TIMING_DATA`; 1 bit; 01 R34 -/
  timingData : Bool := false
  /-- `ORDO_ID`; 64 bit; 04 R148 -/
  ordoId : BitVec 64 := 0
  rootGroup : Nat := 0
  /-- Herald device of each group, group state of R20; 01 R44, 13 R431 -/
  heralds : Tbl Nat := []
  /-- Herald assignments as last sealed; 01 R20, 13 R431 -/
  heraldsSealed : Tbl Nat := []
  /-- Heralds that the close of the latest attempt wrote into the working generation; 01 R44, 04 R573; empty -/
  heraldsWorking : Tbl Nat := []
  /-- sites whose Σ matched their partner's at the close of the latest attempt; 10 R319; empty -/
  matched : List Nat := []
  /-- excess of each spanning chunk of the latest attempt, for the replay; 01 R39 -/
  excess : Tbl Int := []
  /-- the step index has been rewound and no attempt has started since; 1 bit; 01 R28; 0 -/
  rewound : Bool := false
  /-- step and attempt of the HOLD that a rewind left in force; 01 R52; none -/
  heldAt : Option (Nat × Nat) := none
  /-- HOLD arrived before the attempt's vote was sent; 1 bit; 01 R51 -/
  holdSeen : Bool := false
  /-- mailbox whose `JOB_START` completes at the first step release; 14 R450; none -/
  startMb : Option Nat := none
  /-- live mask of each tally page; 64 bit; 01 R21 -/
  live : Tbl (BitVec 64) := []
  /-- dirty mask of each tally page; 64 bit; 01 R22 -/
  dirty : Tbl (BitVec 64) := []
  /-- mask table: the dirty masks of the prepared record; 01 R29, R30 -/
  maskTable : Tbl (BitVec 64) := []
  /-- step of the last SEAL that flipped a granule (key 64 × page + granule); 01 R26 -/
  flipped : Tbl (Option Nat) := []
  /-- log pre-images; 01 R26 -/
  log : List PreImage := []
  /-- class of each tally page; 04 R573 -/
  classes : List Nat := []
  /-- logical pages of sides A and B by tally page; 01 R21 -/
  sideA : Tbl Nat := []
  sideB : Tbl Nat := []
  /-- ledger ring positions; 4,096 of 128 bytes; 01 R30 -/
  ledger : Tbl LedgerRec := []
  /-- next ring position; 12 bit; 01 R30 -/
  ledgerPos : Nat := 0
  /-- ring position of the prepared record, if one is held; 01 R29 -/
  prepared : Option Nat := none
  /-- sealed record of the latest generation; 01 R29 -/
  lastSealed : LedgerRec := {}
  /-- earlier generations that may be retained, newest first; 01 R25, R28 -/
  gens : List GenRec := []
  /-- only the latest generation is retained until this generation; 13 R430, R433 -/
  retainFloor : Nat := 0
  /-- sealed page digests; 128 bit each; 13 R416 -/
  digSealed : Tbl (BitVec 128) := []
  /-- working page digests; 128 bit each; 13 R416 -/
  digWorking : Tbl (BitVec 128) := []
  /-- working Epact record: live `DRAWS` and `CURSOR`; 13 R418, R419 -/
  epact : Epact := {}
  /-- the draw that the last input record took; 128 bit; 03 R97, 13 R419; DESIGN CHOICE 0 before any (log 3) -/
  ingest : BitVec 128 := 0
  /-- Epact record of the latest generation; 13 R418 -/
  epactSealed : Epact := {}
  /-- working side of the anchor table by chunk; 64 bit entries; 03 R121 -/
  anchors : Tbl (BitVec 64) := []
  /-- sealed anchor table; 03 R121 -/
  anchorsSealed : Tbl (BitVec 64) := []
  /-- what this device contributed in the step: (chunk, site, unit); 03 R120 -/
  contributed : List (Nat × Nat × Nat) := []
  /-- sealed channel state by 32 × tile + slot: (`TX_WPTR`, `RX_RPTR`, `TX_SEQ`, `RX_SEQ`); 04 R573, 06 R220 -/
  chanSealed : Tbl (Nat × Nat × BitVec 32 × BitVec 32) := []
  /-- the same captured at the close of the attempt; 06 R220 -/
  chanWorking : Tbl (Nat × Nat × BitVec 32 × BitVec 32) := []
  /-- close FT of the attempt; 64 bit; 01 R41 -/
  closeFt : Nat := 0
  /-- verdict derived at the close; 01 R37 -/
  verdict : Verdict := .clean
  /-- the vote of the closed attempt; 01 R41 -/
  vote : Option Vote := none
  /-- the vote has been sent; 1 bit; 01 R42 -/
  voteSent : Bool := false
  /-- FT of the HERALD_QUERY, while unanswered; 01 R50 -/
  queryFt : Option Nat := none
  /-- a site was fenced, a configuration fault or consumed UE occurred in the step; 1 bit; 01 R37 -/
  faultSeen : Bool := false
  /-- a Vigil mismatch was found in the step; 1 bit; 01 R37 -/
  shadowSeen : Bool := false
  /-- a delivered sum carried a span flag in the step; 1 bit; 01 R37 -/
  spanSeen : Bool := false
  /-- the attempt was closed under steps 2 and 3 of R165; 1 bit; 04 R165 -/
  forcedClose : Bool := false
  /-- further writes to persistent state are blocked; 1 bit; 01 R41 -/
  writesBlocked : Bool := false
  /-- tiles that have completed each remaining phase: current phase index; 04 R164 -/
  phase : Nat := 0
  /-- tiles of the partition that have completed the current phase; 04 R164 -/
  phaseDone : List Nat := []
  /-- step permission flag; 1 bit; 09 R281 -/
  released : Bool := false
  /-- epoch of the released first phase; 16 bit; 04 R164 -/
  relEpoch : BitVec 16 := 0
  /-- FT of the step release of the attempt; 07 R249 -/
  releaseFt : Nat := 0
  /-- the phase Ides timers that run: (phase, FT at which it started); 07 R249 -/
  phaseFt : Tbl Nat := []
  /-- the Ides timers of the attempt run: from the step release to the close; 1 bit; 07 R249 -/
  timers : Bool := false
  /-- the step Ides timer has not expired in the attempt; 1 bit; 07 R249 -/
  stepTimer : Bool := false
  /-- an Ides timer has expired in the attempt; 1 bit; 07 R250 -/
  idesFired : Bool := false
  /-- a mirror-late step makes the next vote unmirrored; 1 bit; 01 R56 -/
  unmirrored : Bool := false
  /-- the latest SEAL is not yet mirrored; 1 bit; 01 R55 -/
  sealUnmirrored : Bool := false
  /-- FT of an automatic prewarn that holds the release; 09 R282 -/
  releaseHold : Option Nat := none
  /-- pages of the ledger, log, retain and spill allocations of the job; 01 R30, 08 R260, 06 R215 -/
  jobPages : List Nat := []
  /-- pages lost from the tally (page index); 12 R391 -/
  lostPages : List Nat := []
  /-- live tally pages read uncorrectable by a fill; 10 R316 -/
  fillStopped : Bool := false
  /-- the reload for the coming attempt has read uncorrectable data, which its attempt consumes; 1 bit; 12 R393; 0 -/
  loadUe : Bool := false
  /-- base FT of the job; 64 bit; 09 R291 -/
  baseFt : Nat := 0
  deriving DecidableEq, Repr

/-- States of a twin binding (13 R405), codes 0 to 3. -/
inductive TwinSt where
  | unbound | syncing | bound | broken
  deriving DecidableEq, Repr

/-- How far an outgoing mirror has come (13 R409). -/
inductive MirrorPhase where
  | idle | pending | writing | slotWritten | awaitAck
  deriving DecidableEq, Repr

/-- A twin binding and the mirror it holds (13). -/
structure Twin where
  /-- `STATE`; 2 bit; 13 R405; 0 -/
  st : TwinSt := .unbound
  /-- `FULL`; 1 bit; 13 R405; 0 -/
  full : Bool := false
  /-- `AWAIT_ACK`; 1 bit; 13 R405; 0 -/
  awaitAck : Bool := false
  /-- `EXPORTED`; 1 bit; 13 R405; 0 -/
  exported : Bool := false
  /-- `PORT_A`; 5 bit; 13 R405; 0x1F -/
  portA : Nat := 0x1F
  /-- `PORT_B`; 5 bit; 13 R405; 0x1F -/
  portB : Nat := 0x1F
  /-- `PEER_DEV`; 16 bit; 13 R405; 0 -/
  peerDev : Nat := 0
  /-- `PEER_PART`; 4 bit; 13 R405; 0 -/
  peerPart : Nat := 0
  /-- `DEADLINE_MS`; 16 bit; 13 R403; 50 -/
  deadlineMs : Nat := 50
  /-- `FULL_DEADLINE_S`; 16 bit; 13 R403; 60 -/
  fullS : Nat := 60
  /-- `RESERVE`; 32 bit; 13 R403; DESIGN CHOICE 0 before a bind (log 6) -/
  reserve : Nat := 0
  /-- first logical page MB of the mirror region; 13 R407; none -/
  base : Option Nat := none
  /-- the peer's `RESERVE`; 32 bit; 13 R407; DESIGN CHOICE 0 before a bind (log 6) -/
  peerReserve : Nat := 0
  /-- a full mirror in each direction has been acknowledged: outgoing, incoming; 13 R406; 0 -/
  outFull : Bool := false
  inFull : Bool := false
  /-- outgoing mirror; 13 R409; idle -/
  phase : MirrorPhase := .idle
  /-- step whose SEAL the outgoing mirror carries; 13 R409; DESIGN CHOICE 0 (log 6) -/
  mStep : Nat := 0
  /-- flipped granules of the outgoing mirror by tally page; 13 R409; empty -/
  mMasks : Tbl (BitVec 64) := []
  /-- FT at which the mirror release began; 13 R411; DESIGN CHOICE 0 (log 6) -/
  mStart : Nat := 0
  /-- a `TWIN_NAK` of this mirror has been answered; 1 bit; 13 R410; 0 -/
  naked : Bool := false
  /-- a mirror release waits for `TWIN_BEGIN`; 1 bit; 09 R287; 0 -/
  waitBegin : Bool := false
  /-- first page MB of the region that the peer keeps for this tally; 13 R407, R409; DESIGN CHOICE 0 before a bind (log 6) -/
  peerBase : Nat := 0
  /-- `LIVE` masks of that region by tally page; 13 R408, R409; 0 -/
  peerLive : Tbl (BitVec 64) := []
  /-- writes of the outgoing mirror that still wait for a transaction tag, oldest first; 13 R409, 11 R367; none -/
  todo : List Packet := []
  /-- number of the outgoing mirror, the model's own mark of its writes; 13 R409; DESIGN CHOICE 0 (log 6) -/
  mirrors : Nat := 0
  /-- a write of the outgoing mirror ended with an error; 1 bit; 13 R409; 0 -/
  failed : Bool := false
  /-- tally pages of the peer, `ENTRIES` of its last full mirror; 32 bit; 13 R407, R409; DESIGN CHOICE 0 before any (log 6) -/
  peerPages : Nat := 0
  /-- `MIRROR_GEN`; 64 bit; 13 R405; DESIGN CHOICE 0 (log 6) -/
  mirrorGen : Nat := 0
  /-- `MIRRORS_ACKED`; 48 bit; 13 R405; 0 -/
  acked : Ctr48 := {}
  /-- `MIRRORS_LATE`; 48 bit; 13 R405; 0 -/
  late : Ctr48 := {}
  /-- `MIRROR_NAKS`; 48 bit; 13 R405; 0 -/
  naks : Ctr48 := {}
  /-- spare the mirror is exported to, with its key slot; 13 R423; none -/
  spare : Option (Nat × Nat) := none
  /-- FT at which the export began; 13 R423; DESIGN CHOICE 0 (log 6) -/
  exportFt : Nat := 0
  deriving DecidableEq, Repr

/-- How far a restore has come on a spare (13 R424, R429). -/
inductive RestoreSt where
  | none | mismatch | epact | verified
  deriving DecidableEq, Repr

/-- A restore in progress on a spare (13 R421 to R429). -/
structure Restore where
  st : RestoreSt := .none
  /-- reconciled bit; 13 R428 -/
  reconciled : Bool := false
  survivor : Nat := 0
  /-- device and partition restored; 13 R429 -/
  lostDev : Nat := 0
  gen : Nat := 0
  cursor : BitVec 64 := 0
  /-- the mirror's record; 13 R408 -/
  lrec : LedgerRec := {}
  /-- restored pages: class and digest by index; 13 R424 -/
  pages : Tbl (Nat × BitVec 128) := []
  /-- pages allocated for the tally sides and the log; 13 R424 -/
  sideA : Tbl Nat := []
  sideB : Tbl Nat := []
  jobPages : List Nat := []
  deriving DecidableEq, Repr

/-- An intercalary slot (09 R283, R284). -/
structure Slot where
  /-- length in µs; 16 bit; 09 R283 -/
  lenUs : Nat := 0
  /-- trigger of the `STEP_START` whose gate it attaches to; none for the next gate; 09 R283 -/
  gate : Option Nat := none
  /-- FT at which it opened; none while it waits; 09 R284 -/
  opened : Option Nat := none
  /-- the firings whose slots merged into it: Almanac entry index and trigger; 09 R283, R285 -/
  entries : List (Nat × Nat) := []
  /-- items started in the slot and not ended: 0 planned fence, 1 full placement, 2 swap, 3 BIST, 4 routing change; 09 R284 -/
  running : List Nat := []
  /-- items started at all in the slot; 09 R284 -/
  started : List Nat := []
  deriving DecidableEq, Repr

/-- A deadline watch of the Almanac (09 R285). -/
structure Watch where
  entry : Nat := 0
  action : Nat := 0
  arg : Nat := 0
  trigger : Nat := 0
  due : Nat := 0
  target : Nat := 0
  /-- for `DEADLINE`: the step the watch concerns, once one is released at or after the trigger; 09 R278 -/
  armed : Bool := false
  /-- the entry that opened the watch stands in no bank any more: another took its place (R290, R291) -/
  gone : Bool := false
  deriving DecidableEq, Repr

/-- Ides settings of a partition in µs (07 R249). -/
structure Ides where
  waitUs : Nat := 20000
  longUs : Nat := 10000000
  phaseUs : Nat := 1000000
  stepUs : Nat := 60000000
  deriving DecidableEq, Repr

/-- Reasons a reset or sweep holds a partition (14 R443, 16 R512). -/
inductive SweepFor where
  | jobKill (mb : Nat) | reset (mb : Nat) | harvest | normal | jubilee
  deriving DecidableEq, Repr

/-- A Harvest in progress or kept (16 R519, R520). -/
structure HarvestRec where
  present : Bool := false
  cause : Nat := 0
  attempt : Nat := 0
  sampleBytes : Nat := 0
  ft : Nat := 0
  step : BitVec 64 := BitVec.allOnes 64
  cls : Nat := 0
  site : Nat := 0xFFFF
  /-- owner credential that held the partition; 128 bit; 05 R194 -/
  cred : BitVec 128 := 0
  /-- sampled tiles, ascending: (tile ID, offset in the Harvest store, bytes of header and ranges); 05 R193 -/
  tiles : List (Nat × Nat × Nat) := []
  /-- census objects of the partition record; 16 R520 -/
  objects : List Byte := []
  /-- error records of the partition record; 16 R520 -/
  recs : List ErrRec := []
  deriving DecidableEq, Repr

/-- One hop of a physical path (04 R134): the switch output of a site that the route takes, by unit ID, and the input code that drives it. -/
structure PhysHop where
  site : Nat := 0
  unit : Nat := 0
  inp : Nat := 0
  deriving DecidableEq, Repr

/-- The physical path of a route (04 R134): `loaded` is false while a re-route has not fitted (R137). -/
structure PhysPath where
  phase : Nat := 0
  id : Nat := 0
  hops : List PhysHop := []
  loaded : Bool := true
  deriving DecidableEq, Repr

/-- One partition. -/
structure Part where
  /-- physical paths of the routes of the loaded Ordo; 04 R134; empty -/
  paths : List PhysPath := []
  /-- a flush waits for the transaction tags of the partition; 1 bit; 04 R166; 0 -/
  flushing : Bool := false
  /-- the partition exists; 1 bit; 14 R437 `PARTS`; 0 -/
  exist : Bool := false
  /-- its regions; 64 bit; 14 R450; 0 -/
  regions : BitVec 64 := 0
  /-- owner credential; 128 bit; 14 R447; none before creation, zero -/
  cred : BitVec 128 := 0
  /-- the loaded Ordo; 04 R155; none -/
  ordo : Option Ordo := none
  /-- configuration pages of the phase images of the loaded Ordo; logical pages of 24 bit; 04 R158, 12 R386, 16 R511; empty -/
  imagePages : List Nat := []
  /-- the bound job; 01; none -/
  job : Option Job := none
  /-- tally kept by an ended binding, for `JOB_START` `MODE` 1; 14 R450; none -/
  kept : Option Job := none
  /-- `PART_EPOCH`; 16 bit; 04 R157; DESIGN CHOICE 0 (log 3) -/
  epoch : BitVec 16 := 0
  /-- sweep in progress or awaited, and for what; 05 R197; none -/
  sweep : Option SweepFor := none
  /-- the partition is stopped (units with no inputs halted); 1 bit; 04 R165; DESIGN CHOICE 0 (log 3) -/
  halted : Bool := false
  /-- a partition, Jubilee or recovery reset covers it; 1 bit; 09 R279; 0 -/
  underReset : Bool := false
  /-- FT at which that partition reset began; 64 bit; 16 R527; DESIGN CHOICE 0 before any (log 12) -/
  resetFt : Nat := 0
  /-- a Harvest runs; 1 bit; 16 R519; 0 -/
  harvesting : Bool := false
  /-- Ides settings; 07 R249; 20 ms, 10 s, 1 s, 60 s -/
  ides : Ides := {}
  /-- Ides expiries of the attempt after the first; 07 R250; 0 -/
  idesLater : Nat := 0
  /-- long-wait threshold in µs; 32 bit; 07 R248; 50 -/
  longWaitUs : Nat := 50
  /-- `ALM_CADENCE`; 64 bit; 09 R280; 0 (none) -/
  cadence : Nat := 0
  /-- step permission flag; 1 bit; 09 R281; 0 -/
  perm : Bool := false
  /-- entry and trigger of the `STEP_START` that set the flag; 09 R285; none -/
  permEntry : Option Nat := none
  /-- trigger of that entry when it fired; 64 bit; 09 R283; DESIGN CHOICE 0 before any (log 7) -/
  permTrig : Nat := 0
  /-- attached slots; 09 R283; empty -/
  slots : List Slot := []
  /-- items of a closed slot that still run; 09 R284; empty -/
  overItems : List Nat := []
  /-- the partition's gate has been reached since the last SEAL; 1 bit; 09 R283; DESIGN CHOICE 0 (log 7) -/
  gate : Bool := false
  /-- open deadline watches; 09 R285; empty -/
  watches : List Watch := []
  /-- Almanac counters of R286 in table order, 8 of 48 bit; 09 R286; 0 -/
  almCtr : Tbl Ctr48 := []
  /-- `INTERCALARY_SET` work mask; 3 bit; 14 R450; 7 (all) -/
  work : BitVec 3 := 7
  /-- default prewarn load code; 16 bit; 15 R483; 15 -/
  load : Nat := 15
  /-- Harvest slice ranges (start, length); 05 R192; one range 0xB_E000 + 0x1000 -/
  harvest : List (Nat × Nat) := [(0xBE000, 0x1000)]
  /-- the latest Harvest; 05 R193, 16 R519; absent -/
  harvested : HarvestRec := {}
  /-- the twin binding; 13 R405 -/
  twin : Twin := {}
  /-- the restore session; 13 R424 -/
  restore : Restore := {}
  /-- holder of the partition's lock: a mailbox; 14 R443; none -/
  lock : Option Nat := none
  /-- mailboxes awaiting the lock, with acknowledgement FT, in grant order; 14 R443; empty -/
  lockWait : List (Nat × Nat) := []
  /-- the STEP_START release permission counted for the next release; 09 R281; none -/
  replayHold : Bool := false
  deriving DecidableEq, Repr

/-! ## Heralds (01, 09) -/

/-- A Herald member statistics entry (09 R293). -/
structure MemStat where
  device : Nat := 0
  lastRank : Nat := 0
  lastArrival : Int := -0x80000000
  onTime : Ctr48 := {}
  missing : Ctr48 := {}
  lateVotes : Ctr48 := {}
  lastPlace : Ctr48 := {}
  arrivalSum : Int := 0
  arrivalOvf : Bool := false
  streak : Nat := 0
  /-- the straggler event of this run has been raised; 09 R294 -/
  raised : Bool := false
  deriving DecidableEq, Repr

/-- A vote window (01 R45): votes as received, with receipt FT and rank. -/
structure Window where
  step : Nat := 0
  attempt : Nat := 0
  baseFt : Nat := 0
  deadline : Nat := 0
  votes : List (Vote × Nat) := []
  deriving DecidableEq, Repr

/-- A Herald context (01 R16, R44 to R52). -/
structure Herald where
  group : Nat := 0
  members : List Nat := []
  replicaSets : List (List Nat) := []
  deadlineUs : Nat := 20
  /-- open windows; 01 R45 -/
  windows : List Window := []
  /-- retained outcomes, newest first, of the last four steps; 01 R48 -/
  outcomes : List OutcomePkt := []
  /-- votes of the held steps and attempts, late ones included; 01 R49 -/
  heldVotes : List Vote := []
  /-- the HOLDs in force, one for each held step and attempt; 01 R51 -/
  held : List OutcomePkt := []
  /-- every vote that took part in decided windows, for the duplicates of R49 and R50; 01 R49 -/
  decidedVotes : List Vote := []
  /-- member statistics in ascending device ID; 09 R293 -/
  stats : List MemStat := []
  /-- device-wide index of the group's first entry; 09 R293 -/
  firstEntry : Nat := 0
  /-- straggler threshold; 8 bit; 09 R294; 0 -/
  threshold : Nat := 0
  deriving DecidableEq, Repr

/-! ## Time (09) -/

/-- What a Lantern port knows of its neighbour's time (09 R269 to R271). -/
structure PortTime where
  /-- the last valid frame; none -/
  last : Option TimeFrame := none
  /-- FT of the last frame's reception; 64 bit; 09 R269; DESIGN CHOICE 0 (log 8) -/
  lastRx : Nat := 0
  /-- delay and offset computed from it; 09 R270; DESIGN CHOICE 0 (log 8) -/
  delay : Int := 0
  offset : Int := 0
  /-- `TX_FT` of the last 16 frames sent, newest first; 09 R270; empty -/
  sent : List Nat := []
  /-- echo values for the next frame; 09 R269; 0 -/
  echoTx : Nat := 0
  echoRx : Nat := 0
  /-- next frame sequence number; 16 bit; 09 R269; DESIGN CHOICE 0 (log 8) -/
  seq : BitVec 16 := 0
  /-- trained asymmetry correction α; 09 R270; DESIGN CHOICE 0 until the port has trained (log 8) -/
  alpha : Int := 0
  deriving DecidableEq, Repr

/-- The FT block (09 R264 to R276). -/
structure TimeSt where
  /-- FT; 64 bit; 09 R264; DESIGN CHOICE 0 (log 8) -/
  ft : Nat := 0
  /-- `FT_EPOCH`; 64 bit; 09 R265; 0 -/
  epoch : Nat := 0
  /-- `FT_STATUS.STATE`: 0 FREE, 1 ACQUIRING, 2 LOCKED, 3 HOLDOVER; 3 bit; 09 R276; 0 -/
  state : Nat := 0
  /-- `SOURCE`; 3 bit; 09 R276; 0 -/
  source : Nat := 0
  /-- `SRC_PORT`; 5 bit; 09 R276; 0 -/
  srcPort : Nat := 0
  /-- `HOPS`; 8 bit; 09 R276; 255 -/
  hops : Nat := 255
  /-- `SRC_DEV`; 16 bit; 09 R276; 0 -/
  srcDev : Nat := 0
  /-- `STEPPED`; 1 bit; 09 R276; 0 -/
  stepped : Bool := false
  /-- `STEP_NEEDED`; 1 bit; 09 R276; 0 -/
  stepNeeded : Bool := false
  /-- `FT_STEP_NEEDED` has been raised since the offset came to exceed 100 µs; 1 bit; 09 R272; DESIGN CHOICE 0 (log 8) -/
  stepTold : Bool := false
  /-- `SYNC_EN`; 1 bit; 09 R276; 0 -/
  syncEn : Bool := false
  /-- `FT_SERVO.OFFSET`; 32 bit signed; 09 R276; 0 -/
  offset : Int := 0
  /-- `FT_SERVO.RATE`; 32 bit signed; 09 R276; 0 -/
  rate : Int := 0
  /-- last rate that the servo set from an offset, at which FT runs without one; 32 bit signed; 09 R273; DESIGN CHOICE 0 (log 8) -/
  lastRate : Int := 0
  /-- offset still to be slewed out for `TIME_SET`; 09 R272; DESIGN CHOICE 0 (log 8) -/
  slew : Int := 0
  /-- FT of the last servo update; 64 bit; 09 R272; DESIGN CHOICE 0 (log 8) -/
  lastUpd : Nat := 0
  /-- consecutive updates within ±40 units; 09 R273; DESIGN CHOICE 0 (log 8) -/
  good : Nat := 0
  /-- consecutive updates beyond ±200 units; 09 R273; DESIGN CHOICE 0 (log 8) -/
  bad : Nat := 0
  /-- FT at which HOLDOVER began; 09 R273; DESIGN CHOICE 0 (log 8) -/
  holdSince : Nat := 0
  /-- PTP domain; 7 bit; 09 R267; 0 -/
  domain : Nat := 0
  /-- masters heard by their Announce messages; 09 R268; empty -/
  masters : List PtpMaster := []
  /-- selected master; 09 R268; none -/
  master : Option PtpMaster := none
  /-- own FT at the reception of the selected master's last Sync; 09 R267; none -/
  ptpRx : Option Nat := none
  /-- own FT at that reception and the master's origin time, once it is known; 09 R265, R267; none -/
  ptpPair : Option (Nat × Nat) := none
  /-- own FT at which the last delay request to the selected master, or to the neighbour of its port, left; 09 R267; none -/
  ptpReq : Option Nat := none
  /-- management ports on which the peer-to-peer delay mechanism has been heard; 09 R267; none -/
  ptpPeer : List Nat := []
  /-- measured path delay to the selected master in units; 09 R267; DESIGN CHOICE 0 (log 8) -/
  ptpDelay : Int := 0
  /-- per Lantern port; 09 R269 -/
  ports : Tbl PortTime := []
  /-- last SYNC edge; 09 R274; none -/
  syncEdge : Option Nat := none
  /-- own captures without a partner yet, newest first; 09 R274; empty -/
  captures : List Nat := []
  /-- partner captures without an own one yet; 09 R274; empty -/
  partner : List Nat := []
  /-- offset of the last usable pair; 09 R274; none -/
  syncOffset : Option Int := none
  /-- FT of the last usable pair; 09 R274; DESIGN CHOICE 0 (log 8) -/
  syncPair : Nat := 0
  deriving DecidableEq, Repr

/-- The Almanac (09 R277 to R290). -/
structure Almanac where
  /-- active bank, 8,192 entries of 128 bit; 09 R277; empty -/
  active : Tbl AlmEntry := []
  /-- shadow bank; 09 R277; empty -/
  shadow : Tbl AlmEntry := []
  /-- arm FT, while armed; 09 R289; none -/
  armed : Option Nat := none
  deriving DecidableEq, Repr

/-! ## Error collector, events and mailboxes (10, 14) -/

/-- The error collector and log ring (10 R325 to R329). -/
structure Collector where
  /-- FIFO, oldest first; up to 1,024 records; 10 R325; empty -/
  fifo : List ErrRec := []
  /-- coalescing table, oldest first; up to 256 entries; 10 R325; empty -/
  table : List ErrRec := []
  /-- `ERR_LOST` with `LOST_OVF`; 48 bit; 10 R329; 0 -/
  lost : Ctr48 := {}
  /-- log ring by position mod 2^20; 10 R328; empty -/
  ring : Tbl ErrRec := []
  /-- `ERR_RING.TOTAL`; 64 bit; 10 R329; 0 -/
  total : Nat := 0
  /-- storm state was entered and not left; 1 bit; 10 R326; 0 -/
  storm : Bool := false
  /-- FT of the last `ERR_STORM` event; 10 R326; none -/
  stormAt : Option Nat := none
  deriving DecidableEq, Repr

/-- The BAR0 event ring and the latest-event object (14 R458 to R461). -/
structure Events where
  /-- ring slots; 2,048 of 64 bytes; 14 R436; 0 -/
  ring : Tbl EventRec := []
  /-- `EV_TAIL`; 11 bit; 14 R459; 0 -/
  tail : Nat := 0
  /-- `EV_PHASE`; 1 bit; 14 R459; 1 -/
  phase : Bool := true
  /-- `EV_HEAD`; 11 bit; 14 R459; 0 -/
  head : Nat := 0
  /-- `EV_ENABLE`; 1 bit; 14 R459; 0 -/
  enable : Bool := false
  /-- `EV_HOLDOFF`; 8 bit; 14 R459; 0 -/
  holdoff : Nat := 0
  /-- `EV_MARK`; 11 bit; 14 R459; 0 -/
  mark : Nat := 0
  /-- `EV_LOST` with `EV_LOST_OVF`; 48 bit; 14 R459; 0 -/
  lost : Ctr48 := {}
  /-- drops since the last `EVENTS_LOST` event; 14 R460; 0 -/
  dropped : Nat := 0
  /-- FT of the last vector 16 interrupt; 14 R459; none -/
  lastIrq : Option Nat := none
  /-- `ESEQ`: events raised since cold boot; 64 bit; 14 R458; 0 -/
  eseq : Nat := 0
  /-- latest event by code with its 48-bit count; 14 R456; empty -/
  latest : Tbl (EventRec × Ctr48) := []
  /-- masks by 256 × destination + group; 64 bit; 14 R461; all unmasked but `SEALED` -/
  masks : Tbl (BitVec 64) := []
  /-- counter names whose `COUNTER_OVERFLOW` has been raised; 10 R330; empty -/
  ovfRaised : List (Nat × Nat) := []
  deriving DecidableEq, Repr

/-- An acknowledged descriptor (14 R439, R440). -/
structure Desc where
  slot : Nat := 0
  /-- the 64 bytes, byte 0 in bits 7:0; 14 R440 -/
  word : BitVec 512 := 0
  /-- acknowledgement FT; 14 R443 -/
  ackFt : Nat := 0
  /-- buffer data carried in a management message; 14 R464 -/
  data : List Byte := []
  /-- where the answers to a management message go; 14 R464 -/
  reply : MgmtAddr := {}
  deriving DecidableEq, Repr

/-- An entry of a mailbox's history object (14 R456). -/
structure HistCmd where
  opcode : BitVec 16 := 0
  tag : BitVec 32 := 0
  status : Nat := 0
  ackFt : Nat := 0
  cplFt : Nat := 0
  deriving DecidableEq, Repr

/-- One mailbox: 0 to 15 in BAR0, 16 to 23 on the management ports (14 R438, R465). -/
structure Mailbox where
  /-- `ENABLE`; 1 bit; 14 R438; 0 -/
  enable : Bool := false
  /-- `IRQ_EN`; 1 bit; 14 R438; 0 -/
  irqEn : Bool := false
  /-- `ACKED`; 6 bit; 14 R438; 0 -/
  acked : Nat := 0
  /-- `EXEC`; 6 bit; 14 R438; 0 -/
  exec : Nat := 0
  /-- `STALLED`; 1 bit; 14 R438; 0 -/
  stalled : Bool := false
  /-- `CPL_TAIL`; 6 bit; 14 R438; 0 -/
  cplTail : Nat := 0
  /-- `CPL_PHASE`; 1 bit; 14 R438; 1 -/
  cplPhase : Bool := true
  /-- `CPL_HEAD`; 6 bit; 14 R438; 0 -/
  cplHead : Nat := 0
  /-- `ROLE`: 0 unclaimed, 1 admin, 2 owner; 2 bit; 14 R438, R447; mailbox 0 admin, others 0 -/
  role : Nat := 0
  /-- `ROLE_PART`; 4 bit; 14 R438; 0 -/
  rolePart : Nat := 0
  /-- `BAD_DOORBELL`; 1 bit; 14 R438; 0 -/
  badDoorbell : Bool := false
  /-- `RESET_DONE`; 1 bit; 14 R438; 0 -/
  resetDone : Bool := false
  /-- command ring: 64 slots of 64 bytes; 14 R436; DESIGN CHOICE 0 (log 9) -/
  cmdRing : Tbl (BitVec 512) := []
  /-- completion ring: 64 slots of 32 bytes; 14 R442; 0 -/
  cplRing : Tbl Completion := []
  /-- result buffer: 512 KiB; 14 R436; DESIGN CHOICE 0 (log 9) -/
  result : List Host.Cell := []
  /-- acknowledged commands not yet started, oldest first; 14 R439; empty -/
  queue : List Desc := []
  /-- the command that executes and has not completed (`RUNNING`); 14 R438, R443; none -/
  running : Option Desc := none
  /-- what the world answers to that command (the model's own field); empty -/
  ext : ExtIn := {}
  /-- the finished completion kept while stalled, and whether it signals; 14 R444; none -/
  kept : Option (Completion × Bool) := none
  /-- the running command's completion is to be discarded; 1 bit; 14 R446; 0 -/
  discard : Bool := false
  /-- last 64 commands, newest first; 14 R456; empty -/
  hist : List HistCmd := []
  /-- management: `TAG` and completion of the last 64 commands; 14 R466; empty -/
  keptCpl : List (BitVec 32 × Completion) := []
  /-- attestation session key; 256 bit; 17 R534; none -/
  session : Option (BitVec 256) := none
  /-- pending gate capture: object, count; 14 R455; none -/
  capture : Option (Nat × Nat) := none
  /-- staging area: captured output; up to 16 MiB; 14 R455; empty -/
  staging : List Byte := []
  /-- management challenge and its FT; 17 R547; none -/
  challenge : Option (BitVec 128 × Nat) := none
  deriving DecidableEq, Repr

/-- A management Ethernet port (14 R463 to R466). -/
structure MgmtPort where
  /-- the link is up; 1 bit; 17 R547; DESIGN CHOICE 1 (log 9) -/
  link : Bool := true
  /-- `OSEQ` of the next frame sent; 32 bit; 14 R464; DESIGN CHOICE 0 (log 9) -/
  oseq : BitVec 32 := 0
  /-- event stream enabled; 1 bit; 14 R465; DESIGN CHOICE 0 (log 9) -/
  stream : Bool := false
  /-- `DEST_MAC`; 48 bit; 14 R465; DESIGN CHOICE 0 (log 9) -/
  destMac : BitVec 48 := 0
  /-- messages in reassembly: (source MAC, EID, message tag), next packet sequence, bytes; 14 R464; empty -/
  reasm : List ((Nat × Nat × Nat) × Nat × List Byte) := []
  deriving DecidableEq, Repr

/-- An MSI-X table entry (14 R436, R462). -/
structure MsixEnt where
  addr : BitVec 64 := 0
  data : BitVec 32 := 0
  /-- vector masked; 1 bit; 14 R462; PRESUMED 1 (log 9) -/
  masked : Bool := true
  /-- pending bit; 1 bit; 14 R436; 0 -/
  pending : Bool := false
  deriving DecidableEq, Repr

/-! ## Links, routing and DMA (11) -/

/-- States of a port (11 R369), codes 0 to 4. -/
inductive PortSt where
  | off | training | gate | up | down
  deriving DecidableEq, Repr

/-- Counters of a port (11 R371). -/
structure PortCtr where
  flitsTx : Ctr48 := {}
  flitsRx : Ctr48 := {}
  fecCorr : Ctr48 := {}
  fecUncorr : Ctr48 := {}
  crcFail : Ctr48 := {}
  retries : Ctr48 := {}
  authFail : Ctr48 := {}
  timeDrop : Ctr48 := {}
  symErr : Tbl Ctr48 := []
  deriving DecidableEq, Repr

/-- A data flit in a retry buffer (11 R345). -/
structure RetryEnt where
  seq : BitVec 16 := 0
  pkts : List Packet := []
  /-- whether each packet travels on shared credits; 11 R346 -/
  shared : List Bool := []
  /-- FT of its last sending -/
  ft : Nat := 0
  deriving DecidableEq, Repr

/-- A packet in a port's receive buffer (11 R346, R358). -/
structure RxPkt where
  pkt : Packet := {}
  /-- it holds shared units -/
  shared : Bool := false
  /-- the version that routes it -/
  ver : Bool := false
  deriving DecidableEq, Repr

/-- One Lantern port (11 R333 to R349, R369). -/
structure Port where
  /-- `STATE`; 3 bit; 11 R369; 0 (OFF) -/
  st : PortSt := .off
  /-- enabled by the configuration block; 1 bit; 11 R338; DESIGN CHOICE 1 until the block is read (log 10) -/
  enabled : Bool := true
  /-- lane map: physical lane of each logical lane; `WIDTH` is its length; 11 R334, R369; 0 lanes -/
  lanes : List Nat := []
  /-- `SUB`; 4 bit; 11 R369; 0xF -/
  sub : Nat := 0xF
  /-- `LS_OK`; 1 bit; 11 R369; 0 -/
  lsOk : Bool := false
  /-- `FAILED`; 9 bit; 11 R369; 0 -/
  failed : BitVec 9 := 0
  /-- lanes that have locked and deskewed in this training; 9 bit; 11 R336; DESIGN CHOICE 0 (log 10) -/
  locked : BitVec 9 := 0
  /-- `ENC`; 1 bit; 11 R369; 0 -/
  enc : Bool := false
  /-- `KEY_SEL` for transmission; 1 bit; 11 R369; 0 -/
  keySelTx : Bool := false
  /-- key slot in use for reception; 1 bit; 11 R349; DESIGN CHOICE 0 (log 10) -/
  keySelRx : Bool := false
  /-- announced change of `KEY_SEL`: transmit and receive slot counts; 11 R347, 17 R537; none -/
  keyNextTx : Option Nat := none
  keyNextRx : Option Nat := none
  /-- `TWIN`; 1 bit; 11 R369; 0 -/
  twin : Bool := false
  /-- `MIN_WIDTH`; 4 bit; 11 R369; 6 -/
  minWidth : Nat := 6
  /-- the partner's `MIN_WIDTH`; 4 bit; 11 R335; DESIGN CHOICE 4 until told (log 10) -/
  peerMin : Nat := 4
  /-- `DOWN_CAUSE`; 4 bit; 11 R369; 0 -/
  downCause : Nat := 0
  /-- `PARTNER_DEV`; 16 bit; 11 R369; 0 -/
  partnerDev : Nat := 0
  /-- `PARTNER_PORT`; 5 bit; 11 R369; 0 -/
  partnerPort : Nat := 0
  /-- step of training reached; 11 R336; DESIGN CHOICE 0 (log 10) -/
  trainStep : Nat := 0
  /-- next `LSEQ`; 16 bit; 11 R345; DESIGN CHOICE 0 (log 10) -/
  txSeq : BitVec 16 := 0
  /-- `LSEQ` next in order at the receiver; 16 bit; 11 R345; DESIGN CHOICE 0 (log 10) -/
  rxSeq : BitVec 16 := 0
  /-- retry buffer, oldest first, up to 1,024; 11 R345; empty -/
  retry : List RetryEnt := []
  /-- resends of the oldest flit without progress; 5 bit; 11 R345; DESIGN CHOICE 0 (log 10) -/
  resends : Nat := 0
  /-- the last retrain came of exhausted resends, and no flit has been acknowledged since; 1 bit; 11 R345, R369; DESIGN CHOICE 0 (log 10) -/
  retrained : Bool := false
  /-- a NAK has been sent and data flits are discarded; 1 bit; 11 R345; DESIGN CHOICE 0 (log 10) -/
  nakSent : Bool := false
  /-- packets queued for the port by class, oldest first; 11 R350; empty -/
  egress : Tbl (List Packet) := []
  /-- deficits of classes MSG and DMA in units, at 2 and 3, and the class whose turn it is, at 0; 11 R350; DESIGN CHOICE 0 (log 10) -/
  deficit : Tbl Nat := []
  /-- reserved credits by 8 × class + VC used so far, of 64; 11 R346; 0 used -/
  usedRes : Tbl Nat := []
  /-- shared credits by class used so far, of 7,680; 11 R346; 0 used -/
  usedShared : Tbl Nat := []
  /-- receive buffer: packets not yet routed on, oldest first; 11 R346; empty -/
  rxHeld : List RxPkt := []
  /-- bytes received of a packet that spans flits; 11 R343; empty -/
  rxPart : List Byte := []
  /-- credits to return: (class, VC, shared, units), oldest first; 11 R346; none -/
  credDue : List (Nat × Nat × Bool × Nat) := []
  /-- control flits sent and not acknowledged, with the FT of the first and of the last sending; 11 R338, R347; empty -/
  ctlPend : List (CtlOp × Nat × Nat) := []
  /-- a swap or narrowing runs on this physical lane, since FT, planned; 11 R340; none -/
  swap : Option (Nat × Nat × Bool) := none
  /-- own `INIT` of that swap has been sent; 1 bit; 11 R340; 0 -/
  swapInit : Bool := false
  /-- last `ACK` of the partner's `INIT` of that swap; 16 bit; 11 R340; none -/
  swapAck : Option (BitVec 16) := none
  /-- further lanes that have failed while it runs; 11 R339; none -/
  swapNext : List Nat := []
  /-- FT and transmit slot count at which the present width came into force; 64 bit each; 11 R349; DESIGN CHOICE 0 (log 10) -/
  slotFt : Nat := 0
  slotZero : Nat := 0
  /-- transmit and receive flit-slot counters; 64 bit; 11 R349; DESIGN CHOICE 0 (log 10) -/
  slotTx : Nat := 0
  slotRx : Nat := 0
  /-- FTs of tag failures within the last second; 11 R349; empty -/
  authFails : List Nat := []
  /-- counters of R371; 0 -/
  ctr : PortCtr := {}
  /-- mailboxes whose `PORT_RETRAIN` awaits UP or DOWN; 14 R450; none -/
  waiter : List Nat := []
  deriving DecidableEq, Repr

/-- A segment held by a router combining unit (11 R362, R363). -/
structure CuSeg where
  pkt : Packet := {}
  tag : A64Tag := {}
  /-- recorded sources: (`SRC_DEV`, kind index, unit index, `TAG`); 11 R363 -/
  srcs : List (Nat × Nat × Nat) := []
  merges : Nat := 0
  /-- FT of the capture; 11 R362 -/
  since : Nat := 0
  /-- forwarded and awaiting its completion; 11 R363 -/
  sentTag : Option Nat := none
  deriving DecidableEq, Repr

/-- A router of the packet network (11 R368, R370, R371; 07 R242). -/
structure Router where
  /-- `DOWN`; 1 bit; 11 R370; 0 -/
  down : Bool := false
  /-- combining units 0 to 3; 11 R362; free -/
  cus : Tbl (Option CuSeg) := []
  /-- deficits of its output queues, by the router or 576 + die beyond the output; 11 R350; DESIGN CHOICE 0 (log 10) -/
  deficit : Tbl (Tbl Nat) := []
  pktsFwd : Ctr48 := {}
  ceMarked : Ctr48 := {}
  combined : Ctr48 := {}
  pdownRefused : Ctr48 := {}
  pdownDropped : Ctr48 := {}
  staleEpoch : Ctr48 := {}
  hopLimit : Ctr48 := {}
  /-- barrier arrivals collected in the current generation, by 64 × partition + barrier; 07 R242; 0 -/
  barArr : Tbl Nat := []
  deriving DecidableEq, Repr

/-- Routing configuration of a class (11 R350, R356, R361, R367). -/
structure RouteCfg where
  /-- `RANDOM_MESH`; 1 bit; 11 R356; DESIGN CHOICE 0 (log 10) -/
  randomMesh : Bool := false
  /-- `RANDOM_LANTERN`; 1 bit; 11 R356; DESIGN CHOICE 0 (log 10) -/
  randomLantern : Bool := false
  /-- weight of the round robin; 4 bit; 11 R350; 1 -/
  weight : Nat := 1
  /-- marking threshold in percent; 7 bit; 11 R361; 25 -/
  markPct : Nat := 25
  /-- injection version; 1 bit; 11 R358; DESIGN CHOICE 0 (log 10) -/
  ver : Bool := false
  /-- new injections of the class are held; 1 bit; 11 R359; 0 -/
  hold : Bool := false
  /-- pending `ROUTE_SWAP`: mailbox, start FT once held; 11 R359; none -/
  swap : Option (Nat × Option Nat) := none
  deriving DecidableEq, Repr

/-- A routing table entry (11 R355): ports in order and the intermediate set. -/
structure RouteEnt where
  ports : List Nat := []
  nports : Nat := 0
  iset : Nat := 0
  deriving DecidableEq, Repr

/-- A multicast tree entry (11 R364): mesh outputs or ports, sites of the cluster, hub or local bit. -/
structure TreeEnt where
  outs : BitVec 24 := 0
  sites : BitVec 16 := 0
  hub : Bool := false
  deriving DecidableEq, Repr

/-- A packet in the packet network of the device, in a queue of the router or port die that hands it on (11 R354, R357, R358). -/
structure Hop where
  /-- router 0 to 575 or port die 576 + d whose output queue holds it; 1,023 for one that its source has injected -/
  src : Nat := 1023
  out : MeshOut := .hub
  pkt : Packet := {}
  /-- the version that routes it -/
  ver : Bool := false
  /-- Lantern port by which it is to leave the device; 11 R355 -/
  port : Option Nat := none
  deriving DecidableEq, Repr

/-- Routing of the device (11 R355 to R364). -/
structure Routing where
  /-- device entries by 65,536 × version + device ID; 32 bit; 11 R355; 0 -/
  table : Tbl RouteEnt := []
  /-- intermediate sets by 256 × version + set; 11 R356; empty -/
  isets : Tbl (List Nat) := []
  /-- multicast trees by (version × 1024 + router or port-die index) × 256 + tree; 11 R364; 0 -/
  trees : Tbl TreeEnt := []
  /-- per class 0 to 3; 11 R350 -/
  cfg : Tbl RouteCfg := []
  /-- `CMB_WAIT`; 10 bit; 11 R362; 32 -/
  cmbWait : Nat := 32
  /-- completion timeout in µs; 32 bit; 11 R367; 2,000 -/
  timeoutUs : Nat := 2000
  /-- packets of classes on hold, oldest first; 11 R359; none -/
  held : List Packet := []
  /-- packets in the mesh, oldest first; 11 R357, R358; none -/
  mesh : List Hop := []
  /-- packets discarded where the spec names no counter of its own; 48 bit; 11 R352, R355, R577; DESIGN CHOICE 0 (log 155) -/
  dropped : Ctr48 := {}
  /-- versions whose retirement is awaited for `ROUTE_EPOCH_RETIRED`; 11 R360; empty -/
  retiring : List Nat := []
  deriving DecidableEq, Repr

/-- What an outstanding transaction tag serves (11 R367, R577). -/
structure Txn where
  /-- issuing partition and site, if a tile or its sequencer; 11 R367 -/
  part : Nat := 0
  site : Nat := 0
  /-- the request, kept for the resend of R577 -/
  pkt : Packet := {}
  /-- FT at which the tag was taken; 11 R367 -/
  since : Nat := 0
  /-- transfer the request belongs to; 11 R365 -/
  xfer : Option Nat := none
  /-- Lantern port it left through; 11 R577 -/
  port : Option Nat := none
  /-- `TILE_MOVING` retries so far; 11 bit; 05 R191 -/
  retries : Nat := 0
  /-- FT of the `TILE_MOVING` completion that awaits its retry; 05 R191 -/
  movedAt : Option Nat := none
  /-- channel slot of the send port, for a sequencer request (06 R218); completions still due, for a multicast (11 R364) -/
  slot : Nat := 0
  /-- chunk of the transfer, by its offset; 11 R365 -/
  off : Nat := 0
  /-- a flush of its partition waits for this tag; 04 R166 -/
  dead : Bool := false
  /-- a leaf of the multicast has answered `TILE_MOVING`: the write goes again once every leaf has answered; 05 R191, 11 R364 -/
  moved : Bool := false
  deriving DecidableEq, Repr

/-- A transfer in progress (07 R234, 11 R365). -/
structure Xfer where
  desc : DmaDesc := {}
  part : Nat := 0
  tile : Nat := 0
  /-- requests not yet acknowledged -/
  left : Nat := 0
  /-- bytes not yet asked for -/
  todo : Nat := 0
  /-- chunks of a contribution's block read so far, by offset -/
  buf : Tbl (List Byte) := []
  /-- a contribution's block has been read, and `buf` holds the pieces still to send, by accumulator offset -/
  sending : Bool := false
  /-- worst status so far -/
  status : PStatus := .ok
  /-- that status is `TILE_MOVING` from a tile whose site was fenced; 07 R235 -/
  fenced : Bool := false
  deriving DecidableEq, Repr

/-- A flow of R361: rate in MB/s, FT of its last decrease and of its last ECE or rise. -/
structure Flow where
  rate : Nat := 0
  lastDec : Nat := 0
  lastUp : Nat := 0
  deriving DecidableEq, Repr

/-- The DMA complexes of both port dies (11 R365 to R367). -/
structure Dma where
  /-- descriptor queue of each tile, up to 16; 11 R366; empty -/
  queues : Tbl (List DmaDesc) := []
  /-- outstanding tags by 4,096 × die + tag; 11 R367; empty -/
  tags : Tbl (Option Txn) := []
  /-- transfers in progress by number; 11 R365; empty -/
  xfers : Tbl (Option Xfer) := []
  /-- number of the next transfer; 11 R365; DESIGN CHOICE 0 (log 10) -/
  nextXfer : Nat := 0
  /-- flows by 65,536 × queue + destination device; 11 R361; empty -/
  flows : Tbl Flow := []
  /-- descriptor rate halved by a hot port-die sensor, by die; 15 R478; empty -/
  halved : List Nat := []
  deriving DecidableEq, Repr

/-! ## External memory (12) -/

/-- States of a DDR channel (12 R400), codes 0 to 5. -/
inductive McSt where
  | empty | training | up | omitted | offline | selfRefresh
  deriving DecidableEq, Repr

/-- One DDR channel (12 R373 to R381, R400, R401). -/
structure Mc where
  /-- `STATE`; 3 bit; 12 R400; 0 -/
  st : McSt := .empty
  /-- `RATE`; 4 bit; 12 R400; 0 -/
  rate : Nat := 0
  /-- `CAPACITY` in GiB; 9 bit; 12 R400; 0 -/
  capacity : Nat := 0
  /-- `CAUSE`; 4 bit; 12 R400; 0 -/
  cause : Nat := 0
  /-- retired physical pages of the channel; 12 R400; empty -/
  retired : List Nat := []
  /-- module serial number from the SPD; 12 R397; DESIGN CHOICE 0 (log 11) -/
  serial : Nat := 0
  /-- highest data rate that the SPD of the present module declares, in the codes of `RATE`, 0 with none; 4 bit; 12 R374; 0 -/
  spd : Nat := 0
  ceCount : Ctr48 := {}
  ueCount : Ctr48 := {}
  scrubPasses : Ctr48 := {}
  rmwCount : Ctr48 := {}
  refused : Ctr48 := {}
  /-- FTs of uncorrectable codewords within the last second; 12 R378; empty -/
  ueTimes : List Nat := []
  deriving DecidableEq, Repr

/-- Page kinds (12 R386), codes 0 to 7. -/
inductive PageKind where
  | unmapped | plain | tallyA | tallyB | mirror | log | window | system
  deriving DecidableEq, Repr

/-- A Page Map entry (12 R385). -/
structure PageEnt where
  ppn : Nat := 0
  owner : Nat := 0
  kind : PageKind := .unmapped
  kept : Bool := false
  retired : Bool := false
  deriving DecidableEq, Repr

/-- A page window of a port die (12 R386). -/
structure PageWin where
  first : Nat := 0
  count : Nat := 0
  rights : Nat := 0
  key : Nat := 0
  owner : Nat := 0
  isOpen : Bool := false
  deriving DecidableEq, Repr

/-- A migration of a port die (12 R395). -/
structure Migration where
  page : Nat := 0
  oldPpn : Nat := 0
  newPpn : Nat := 0
  /-- 4 KiB blocks copied; 12 R395 -/
  done : Nat := 0
  cause : Nat := 0
  deriving DecidableEq, Repr

/-- External memory and the Page Map (12). -/
structure Mem where
  /-- DRAM contents by physical byte address 2^18 × PPN + offset; an unlisted byte reads 0; 12 R388; DESIGN CHOICE 0 (log 2) -/
  dram : List Host.Cell := []
  /-- codewords that read uncorrectable, by physical address div 64; 12 R379; empty -/
  bad : List Nat := []
  /-- channels M00 to M15; 12 R400 -/
  chans : Tbl Mc := []
  /-- Page Map, 16,777,216 entries of 40 bit; 12 R384; 0 -/
  map : Tbl PageEnt := []
  /-- Page Map journal, one copy of every entry; 12 R387; 0 -/
  journal : Tbl PageEnt := []
  /-- entries whose SRAM reads uncorrectable; 12 R387; empty -/
  mapBad : List Nat := []
  /-- PPNs freed and not yet zeroed; 12 R388; empty -/
  zeroing : List Nat := []
  /-- PPNs in use (mapped or reserved), the rest of the present pages being free; 12 R388; empty -/
  used : List Nat := []
  /-- page windows by 256 × die + window; 12 R386; closed -/
  wins : Tbl PageWin := []
  /-- corrections per physical page with FTs in the rolling 24 h; 12 R395; empty -/
  ceTimes : Tbl (List Nat) := []
  /-- retirement threshold; 8 bit; 12 R395; 8 -/
  threshold : Nat := 8
  /-- scrub period in hours; 16 bit; 12 R381; 24 -/
  scrubH : Nat := 24
  /-- migration of each port die; 12 R395; none -/
  mig : Tbl (Option Migration) := []
  /-- pages whose migration waits for its port die: (logical page, cause); 12 R395; empty -/
  migWait : List (Nat × Nat) := []
  /-- migrations stopped by an uncorrectable codeword: logical page; 12 R396; empty -/
  migStopped : List Nat := []
  /-- kept-page digests held across a reset; 128 bit; 12 R390; empty -/
  keptDig : Tbl (BitVec 128) := []
  /-- `KEPT_LOST` list: logical page and cause; 12 R391; empty -/
  keptLost : List (Nat × Nat) := []
  /-- commands waiting for zeroing: mailboxes; 12 R388; empty -/
  allocWait : List Nat := []
  /-- logical pages of the system area: 256 of the log ring, 258 of the Harvest store, 64 of the Harvest annex, 512 of the journal; 1,090 × 24
  bit; 05 R193, 10 R328, 12 R386, R387, 16 R519; empty -/
  system : List Nat := []
  /-- HDM decoder: base and size; 12 R398, 14 R435; PRESUMED off (log 11) -/
  hdmBase : Nat := 0
  hdmOn : Bool := false
  deriving DecidableEq, Repr

/-! ## Hub, flash, power and security (14 to 18) -/

/-- The Ernex image as flash holds it (16 R497): header fields and the bytes the digest covers. -/
structure Image where
  magic : BitVec 32 := 0
  format : Nat := 0
  asv : Nat := 0
  version : BitVec 32 := 0
  build : BitVec 32 := 0
  length : Nat := 0
  svn : Nat := 0
  digest : BitVec 384 := 0
  pubkey : BitVec 768 := 0
  sigR : BitVec 384 := 0
  sigS : BitVec 384 := 0
  bytes : List Byte := []
  deriving DecidableEq, Repr

/-- The device configuration block (16 R500). -/
structure ConfigBlock where
  seq : BitVec 16 := 0
  devId : Nat := 0xFFFF
  signedReq : Bool := false
  flashRepair : Bool := true
  syncFitted : Bool := false
  portEn : BitVec 24 := BitVec.allOnes 24
  ddrRateMax : Nat := 3
  mctpEid : Nat := 8
  minWidth : Nat := 6
  pmbus : List Nat := []
  hdmPageBase : Nat := 0
  hdmSize : Nat := 0
  digest : BitVec 384 := 0
  deriving DecidableEq, Repr

/-- A field defect ledger entry (16 R503). -/
structure LedgerEnt where
  kind : Nat := 0
  cls : Nat := 0
  id : Nat := 0
  ft : Nat := 0
  deriving DecidableEq, Repr

/-- The Ember record (16 R525). -/
structure EmberRec where
  seq : BitVec 16 := 0
  boot : Nat := 0
  partialScan : Bool := false
  ft : Nat := 0
  run : BitVec 64 := 0
  fails : List Nat := []
  deriving DecidableEq, Repr

/-- The boot record (16 R502). -/
structure BootRec where
  boots : Nat := 0
  resetFt : Nat := 0
  resetKind : Nat := 0
  hostCause : Nat := 0
  lastStep : Nat := 0
  deriving DecidableEq, Repr

/-- Boot flash (16 R495). Of the two-copy items that the Steward alone writes, each version after the last, the newest stands (R496, log 166); the
configuration block, whose `SEQ` the host chooses, has both copies. -/
structure Flash where
  /-- Ernex image; 32 MiB; 16 R495; DESIGN CHOICE none, a blank flash (log 12) -/
  image : Option Image := none
  /-- configuration block, its two copies; 4 KiB each; 16 R495, R500; none -/
  config : Option ConfigBlock := none
  configB : Option ConfigBlock := none
  /-- field defect ledger; up to 16,384 entries; 16 R503; empty -/
  ledger : List LedgerEnt := []
  /-- ledger entries not yet written to flash; 16 R503, R523; empty -/
  ledgerPend : List LedgerEnt := []
  /-- Ember record; 16 R525; none -/
  ember : Option EmberRec := none
  /-- memory defect ledger: (module serial, channel, page); up to 65,536; 12 R397; empty -/
  memLedger : List (Nat × Nat × Nat) := []
  /-- boot record; 16 R502; zero -/
  boot : BootRec := {}
  deriving DecidableEq, Repr

/-- One operator-key fuse slot (17 R546). -/
structure OpKey where
  hash : BitVec 384 := 0
  programmed : Bool := false
  revoked : Bool := false
  deriving DecidableEq, Repr

/-- Fuses and one-time-programmable memory (16 R505, 17 R530, R546); a part's fuses are fixed at manufacture. -/
structure Fuses where
  /-- `GRADE`; 4 bit; 14 R437; DESIGN CHOICE 0 (log 12) -/
  grade : Nat := 0
  /-- `HOST_OPT`; 4 bit; 14 R437; DESIGN CHOICE 0 (log 12) -/
  hostOpt : Nat := 0
  /-- factory defect map: site keys; 16 R505; DESIGN CHOICE empty (log 12) -/
  defects : List Nat := []
  /-- public-key hash; 384 bit; 16 R498; DESIGN CHOICE 0 (log 12) -/
  pubHash : BitVec 384 := 0
  /-- minimum security version; 32 bit; 16 R498; DESIGN CHOICE 0 (log 12) -/
  svnMin : Nat := 0
  /-- golden BIST signatures by site key; 64 bit; 10 R307; DESIGN CHOICE 0 (log 12) -/
  golden : Tbl (BitVec 64) := []
  /-- bump resistance of each region in µΩ; 15 R486; DESIGN CHOICE 0 (log 12) -/
  bumpRes : Tbl Nat := []
  /-- debug authority hash; 384 bit; 17 R544; DESIGN CHOICE 0 (log 12) -/
  debugHash : BitVec 384 := 0
  /-- operator-key slots 0 to 3; 17 R546; DESIGN CHOICE unprogrammed (log 12) -/
  opKeys : Tbl OpKey := []
  /-- MAC address of each management port; 48 bit; 14 R463; DESIGN CHOICE 0 (log 12) -/
  macs : Tbl (BitVec 48) := []
  /-- identity public key; 768 bit; 17 R530; DESIGN CHOICE 0 (log 12) -/
  idKey : BitVec 768 := 0
  /-- every bit of the PUF helper data is blown; 1 bit; 17 R540; 0 -/
  idDestroyed : Bool := false
  deriving DecidableEq, Repr

/-- Resets by rank (16 R507, R509). -/
inductive ResetKind where
  | partition | jubilee | recovery | cold
  deriving DecidableEq, Repr

/-- The hub: identity and status registers, the Steward and its resets (14 R437, 16). -/
structure Hub where
  /-- held in cold reset or without power: nothing runs; 1 bit; 16 R507, 18 R565; 1 -/
  inReset : Bool := true
  /-- `READY`; 1 bit; 14 R437; 0 -/
  ready : Bool := false
  /-- `DEGRADED`; 1 bit; 14 R437; 0 -/
  degraded : Bool := false
  /-- `HOSTLOAD`; 1 bit; 14 R437; 0 -/
  hostload : Bool := false
  /-- the running image came from `FW_HOSTLOAD`; 1 bit; 16 R499; 0 -/
  hostBoot : Bool := false
  /-- `UNTESTED`; 1 bit; 14 R437; 0 -/
  untested : Bool := false
  /-- `HALTED`; 1 bit; 14 R437; 0 -/
  halted : Bool := false
  /-- device ID in force; 16 bit; 14 R437; configuration block, 0xFFFF by default (16 R501) -/
  devId : Nat := 0xFFFF
  /-- configuration block in force; 16 R500, R501; the defaults -/
  config : ConfigBlock := {}
  /-- the defaults of R501 are in force (no block); 1 bit; 16 R501; 1 -/
  configDefault : Bool := true
  /-- running image's header: `FW_VERSION`, `FW_BUILD`, `ASV_MAX`, `SVN`; 14 R437; from the image, 0 without one -/
  image : Option Image := none
  /-- Ernex runs on pair 0 and 1; 1 bit each; 16 R515; 0 -/
  pair0 : Bool := false
  pair1 : Bool := false
  /-- `HEARTBEAT`; 32 bit; 14 R437; 0 -/
  heartbeat : BitVec 32 := 0
  /-- FT of the last `HEARTBEAT` advance; 16 R517; DESIGN CHOICE 0 (log 12) -/
  beatFt : Nat := 0
  /-- latched FT sample of `FT_NOW`; 64 bit; 14 R437; DESIGN CHOICE 0 (log 9) -/
  ftNow : Nat := 0
  /-- the reset that runs, its mailbox and start FT; 16 R509; none -/
  reset : Option (ResetKind × Option Nat × Nat) := none
  /-- an orderly shutdown runs or has run; 1 bit; 16 R509; 0 -/
  shutdown : Bool := false
  /-- a thermal trip holds the regions; 1 bit; 15 R479; 0 -/
  tripped : Bool := false
  /-- start-up step reached; 16 R505; 0 -/
  bootStep : Nat := 0
  /-- `STRAY_VOTES`; 48 bit; 01 R578; 0 -/
  strayVotes : Ctr48 := {}
  /-- `DEVICE_DEGRADED` raised in this power cycle; 1 bit; 10 R317; 0 -/
  degradedRaised : Bool := false
  /-- statistics entries in use; 17 bit; 09 R293; 0 -/
  statEntries : Nat := 0
  deriving DecidableEq, Repr

/-- A board module's telemetry (15 R469). -/
structure PmbusRec where
  vout : Nat := 0
  iout : Nat := 0
  temp : Int := 0
  status : BitVec 16 := 0
  /-- the address did not answer; 18 R563 -/
  absent : Bool := false
  deriving DecidableEq, Repr

/-- The power manager (15 R469 to R479). -/
structure Power where
  /-- `BUDGET` in W; 16 bit; 15 R475; 2,600 -/
  budget : Nat := 2600
  /-- 1 s average in mW; 15 R475; DESIGN CHOICE 0 (log 5) -/
  avg1s : Nat := 0
  /-- 10 ms average in mW; 15 R475; DESIGN CHOICE 0 (log 5) -/
  avg10ms : Nat := 0
  /-- power samples in mW, newest first, those of the last second; 15 R475; empty -/
  samples : List Nat := []
  /-- lent headroom in mW; 15 R476; 0 -/
  lent : Nat := 0
  /-- budget caps lowered against lent headroom, newest first: region; 15 R476; empty -/
  lentCaps : List Nat := []
  /-- `THROTTLE_C`; 8 bit; 15 R478; 100 -/
  throttle : Nat := 100
  /-- port-die and hub sensors 192 to 255 in 0.125 °C; 15 R477; no reading -/
  sensors : Tbl (Option Int) := []
  /-- FT since which a sensor has read at or above 105 °C, by sensor; 15 R479; none -/
  hotSince : Tbl (Option Nat) := []
  /-- board module telemetry by list index; 15 R469; zero -/
  pmbus : Tbl PmbusRec := []
  /-- failed network regulators by 2 × stack + regulator; 15 R470; empty -/
  netFail : List Nat := []
  /-- FT of the last step under item 1 of R475, and under item 2; 15 R475; DESIGN CHOICE 0 (log 5) -/
  lastRaise : Nat := 0
  lastLower : Nat := 0
  /-- rails in range: VIN_CORE, VIN_LINK, VDDQ, VAUX; 18 R557; DESIGN CHOICE in range (log 12) -/
  railsOk : Bool := true
  deriving DecidableEq, Repr

/-- A key-store slot (17 R535): the key and what the kind adds to it. -/
structure Key where
  valid : Bool := false
  key : BitVec 256 := 0
  salt : BitVec 32 := 0
  srcDev : Nat := 0xFFFF
  destDev : Nat := 0
  destIdx : Nat := 0
  destPage : Bool := false
  win : Nat := 0
  hash : BitVec 384 := 0
  /-- outbound: next counter; inbound window: highest counter accepted; 17 R538 -/
  ctr : Nat := 0
  /-- inbound window: counters seen below the highest; 17 R538 -/
  seen : List Nat := []
  deriving DecidableEq, Repr

/-- One alarm class (17 R539 to R541). -/
structure Alarm where
  policy : Nat := 0
  locked : Bool := false
  /-- alarmed since cold boot; 17 R533 -/
  raised : Bool := false
  /-- its source asserts now; 17 R542 -/
  asserts : Bool := false
  deriving DecidableEq, Repr

/-- The security block (17). -/
structure Sec where
  /-- key store by 1,024 × kind + slot; kind 1 slots are 4 × port + 2 × direction + slot; 17 R535; empty -/
  keys : Tbl Key := []
  /-- alarm classes 0 to 5; 17 R539; default policies HALT, HALT, LOG, ERASE_SESSION, HALT, LOG -/
  alarms : Tbl Alarm := []
  /-- debug scope in force; 5 bit; 17 R544; 0 -/
  debug : BitVec 5 := 0
  /-- debug challenge, its FT and scope; 17 R544; none -/
  challenge : Option (BitVec 128 × Nat × BitVec 8) := none
  /-- PUF reconstruction failed this power cycle; 1 bit; 17 R531; 0 -/
  idLost : Bool := false
  /-- TAP instruction register: open scope or bypass; 18 R566; bypass -/
  tap : Nat := 0
  deriving DecidableEq, Repr

/-- Board pins the device drives or reads (18 R562, R564, R565). -/
structure Pins where
  /-- `THERMTRIP_N` level; 18 R562; high -/
  thermtripN : Bool := true
  /-- `HALT_N` level; 18 R562; high -/
  haltN : Bool := true
  /-- `COLD_RST_N` level; 18 R565; DESIGN CHOICE high (log 12) -/
  coldRstN : Bool := true
  deriving DecidableEq, Repr

/-- The device. -/
structure State where
  /-- commands that wait, first in, first out; the block's queue (the model's own); empty -/
  pending : List Instr := []
  /-- Fleet Time; 09 -/
  time : TimeSt := {}
  /-- hub; 14, 16 -/
  hub : Hub := {}
  /-- fuses; 16, 17 -/
  fuses : Fuses := {}
  /-- boot flash; 16 R495 -/
  flash : Flash := {}
  /-- power manager; 15 -/
  power : Power := {}
  /-- security block; 17 -/
  sec : Sec := {}
  /-- pins; 18 -/
  pins : Pins := {}
  /-- sites by 144 × region + p, 9,216; 02 R58 -/
  sites : Tbl Site := []
  /-- regions 0 to 63; 02 -/
  regions : Tbl Region := []
  /-- partitions 0 to 15; 00, 14 -/
  parts : Tbl Part := []
  /-- Herald contexts by group, 0 to 63; 01 R16 -/
  heralds : Tbl (Option Herald) := []
  /-- outcome packets received, by group, newest first, at most four; 01 R44, 14 R456 type 0x17; empty -/
  outcomes : Tbl (List OutcomePkt) := []
  /-- the Almanac; 09 -/
  alm : Almanac := {}
  /-- error collector and log ring; 10 -/
  col : Collector := {}
  /-- events; 14 -/
  ev : Events := {}
  /-- mailboxes 0 to 23; 14 -/
  mbs : Tbl Mailbox := []
  /-- management ports 0 and 1; 14 -/
  mgmt : Tbl MgmtPort := []
  /-- MSI-X table, 64 entries; 14 R436 -/
  msix : Tbl MsixEnt := []
  /-- Lantern ports P00 to P23; 11 -/
  ports : Tbl Port := []
  /-- routers by 24 × ry + rx, 576; 02 R80, 11 -/
  routers : Tbl Router := []
  /-- routing tables; 11 -/
  routing : Routing := {}
  /-- DMA complexes; 11 -/
  dma : Dma := {}
  /-- external memory and Page Map; 12 -/
  mem : Mem := {}
  /-- what the device has sent out, oldest first (the model's own record of its outputs); empty -/
  sent : List OutMsg := []
  /-- count of free values drawn so far (the model's own field: the argument of Config's free values); DESIGN CHOICE 0 (log 14) -/
  free : Nat := 0
  deriving DecidableEq, Repr

/-- Why the device stops with a fault: no command of the table does. -/
inductive Fault where
  /-- nobody raises it: no rule of the spec ends the device in a stuck state (safe) -/
  | unreachable
  deriving DecidableEq, Repr

/-- Why a command has no meaning in this model. -/
inductive Refusal where
  /-- raised by Dispatch for a command that has no meaning yet (safe: the command is refused by name) -/
  | notModelled (mnemonic : String)
  deriving DecidableEq, Repr

/-- The device held in cold reset, before `COLD_BOOT` (16 R507): every register at its reset value, mailbox 0 admin
(14 R447), the queue empty. -/
def State.reset : State :=
  { mbs := [(0, { role := 1 })] }

end Sys2Proof.Machine
end

