-- ==== Sys2Proof/Machine/Ops.lean ====
section
/-! DEFINITION. The named operations that the meanings share: reading and writing the state, memory, numbering of sites
and tiles, packing of arguments, counters, events, error records and command completions. -/

namespace Sys2Proof.Machine

/-- The answer of a meaning. -/
abbrev Out := Host.Outcome State Fault Refusal

/-! ## Time -/

/-- FT units in a microsecond (R264). -/
abbrev ftUs : Nat := 4000
/-- FT units in a millisecond (R264). -/
abbrev ftMs : Nat := 4000000
/-- FT units in a second (R264). -/
abbrev ftSec : Nat := 4000000000

/-- FT reaches the time of a command; it never runs back (R264, assumption 1). -/
def State.adv (s : State) (t : Nat) : State :=
  { s with time := { s.time with ft := max s.time.ft t } }

/-- FT now. -/
abbrev State.now (s : State) : Nat := s.time.ft

/-! ## Fields of words -/

/-- Bits `lo` upward, `len` of them, of a number. -/
def bitsN (w lo len : Nat) : Nat := w / 2 ^ lo % 2 ^ len

/-- The same, read as a two's complement number. -/
def bitsZ (w lo len : Nat) : Int :=
  let v := bitsN w lo len
  if len ≠ 0 ∧ 2 ^ (len - 1) ≤ v then (v : Int) - 2 ^ len else v

/-- A number as `len` bits of two's complement. -/
def wrapZ (len : Nat) (x : Int) : Nat := (x % (2 ^ len : Int)).toNat

/-- Whether bit `i` of a number is 1. -/
def bitOn (w i : Nat) : Bool := bitsN w i 1 == 1

/-- A Bool as a bit. -/
def b1 (b : Bool) : Nat := if b then 1 else 0

/-- Little-endian bytes of a number. -/
def leBytes : Nat → Nat → List Byte
  | 0, _ => []
  | n + 1, v => BitVec.ofNat 8 v :: leBytes n (v / 256)

/-- The number that little-endian bytes spell. -/
def ofLe : List Byte → Nat
  | [] => 0
  | b :: bs => b.toNat + 256 * ofLe bs

/-- `n` bytes from offset `a` of a byte string; bytes beyond its end read 0. -/
def slice (bs : List Byte) (a n : Nat) : List Byte :=
  let r := (bs.drop a).take n
  r ++ List.replicate (n - r.length) 0

/-- The little-endian number of `n` bytes at offset `a`. -/
def num (bs : List Byte) (a n : Nat) : Nat := ofLe (slice bs a n)

/-- The alignment of a field of `w` bits under R449: its size in bytes rounded up to a power of two, at most 8. -/
def fieldAlign (w : Nat) : Nat :=
  if w ≤ 8 then 1 else if w ≤ 16 then 2 else if w ≤ 32 then 4 else 8

/-- The next offset that fits a field of `w` bits (R449). -/
def fieldAt (off w : Nat) : Nat :=
  let a := fieldAlign w
  (off + a - 1) / a * a

/-- Pack fields (width, value) by the rule of R449, from byte offset `off`. -/
def packFrom : Nat → List (Nat × Nat) → Nat
  | _, [] => 0
  | off, (w, v) :: rest =>
    let a := fieldAt off w
    v % 2 ^ w * 2 ^ (8 * a) + packFrom (a + (w + 7) / 8) rest

/-- Pack fields by the rule of R449. -/
def pack (fs : List (Nat × Nat)) : Nat := packFrom 0 fs

/-- Put fields (width, value) one after another, without gaps: the byte tables of records (R324). -/
def packRaw : List (Nat × Nat) → Nat
  | [] => 0
  | (w, v) :: rest => v % 2 ^ w + 2 ^ w * packRaw rest

/-- The fields of given widths packed in a number by the rule of R449. -/
def unpackFrom (n : Nat) : Nat → List Nat → List Nat
  | _, [] => []
  | off, w :: ws =>
    let a := fieldAt off w
    bitsN n (8 * a) w :: unpackFrom n (a + (w + 7) / 8) ws

/-- The fields of a packed number, or none when a byte that no field covers is not zero (R449). -/
def unpack (ws : List Nat) (n : Nat) : Option (List Nat) :=
  let fs := unpackFrom n 0 ws
  if pack (ws.zip fs) = n then some fs else none

/-! ## Memory: lists of (address, byte), addresses rising, no listed byte 0 -/

/-- The byte at an address; an unlisted byte reads 0 (R195, assumption 2). -/
def memRead (m : List Host.Cell) (a : Nat) : Byte := Tbl.get 0 m a

/-- Write one byte, keeping the canonical form. -/
def memWrite (m : List Host.Cell) (a : Nat) (b : Byte) : List Host.Cell := Tbl.set 0 a b m

/-- The bytes of a range. -/
def memReadN (m : List Host.Cell) (a n : Nat) : List Byte :=
  (List.range n).map fun i => memRead m (a + i)

/-- Write bytes at an address. -/
def memWriteN (m : List Host.Cell) (a : Nat) : List Byte → List Host.Cell
  | [] => m
  | b :: bs => memWriteN (memWrite m a b) (a + 1) bs

/-- The listed bytes of a range, by offset. -/
def memGrab (m : List Host.Cell) (a n : Nat) : List Host.Cell :=
  (m.filter fun c => decide (a ≤ c.1 ∧ c.1 < a + n)).map fun c => (c.1 - a, c.2)

/-- The cells with offsets from `lo` up to `n` in their order, without zeros and without any that does not rise. -/
def memClean (n : Nat) : Nat → List Host.Cell → List Host.Cell
  | _, [] => []
  | lo, c :: r => if lo ≤ c.1 ∧ c.1 < n ∧ c.2 ≠ 0 then c :: memClean n (c.1 + 1) r else memClean n lo r

/-- Replace a range by bytes given by offset. -/
def memBlit (m : List Host.Cell) (a n : Nat) (r : List Host.Cell) : List Host.Cell :=
  (m.filter fun c => decide (c.1 < a)) ++ ((memClean n 0 r).map fun c => (c.1 + a, c.2)) ++ (m.filter fun c => decide (a + n ≤ c.1))

/-- The canonical form of a memory. -/
def memWf (m : List Host.Cell) : Bool := Tbl.wf (0 : Byte) m

/-! ## Numbering (R10, R57 to R61) -/

/-- The site key of site index p in region g. -/
abbrev siteKey (g p : Nat) : Nat := 144 * g + p
/-- The region of a site key. -/
abbrev keyRegion (k : Nat) : Nat := k / 144
/-- The site index p of a site key. -/
abbrev keyIdx (k : Nat) : Nat := k % 144

/-- The site ID of R59. -/
def siteId (k : Nat) : Nat := k % 144 + 256 * (k / 144)

/-- The site that a site ID names, if any (R59). -/
def siteOfId (id : Nat) : Option Nat :=
  if id < 16384 ∧ bitsN id 4 4 ≤ 8 then some (144 * (id / 256) + id % 256) else none

/-- Local coordinate u of site index p (R58). -/
def siteU (p : Nat) : Nat := 4 * (p / 16 % 3) + p % 16 % 4
/-- Local coordinate v of site index p (R58). -/
def siteV (p : Nat) : Nat := 4 * (p / 16 / 3) + p % 16 / 4

/-- Distance of two natural numbers. -/
def dist (a b : Nat) : Nat := (a - b) + (b - a)

/-- Distance of two sites of a region (R311). -/
def siteDist (p q : Nat) : Nat := dist (siteU p) (siteU q) + dist (siteV p) (siteV q)

/-- The block of a tile ID (R60, R61). -/
def tileBlock (t : Nat) : Nat :=
  let bx := t % 128 / 16
  let by' := t / 128 / 8
  8 * (4 * (by' / 4) + bx / 2) + (2 * (by' % 4) + bx % 2)

/-- The local index k of a tile ID (R60). -/
def tileLocal (t : Nat) : Nat := t % 128 % 16 + 16 * (t / 128 % 8)

/-- The tile ID of local index k of block g (R60, R61). -/
def tileOf (g k : Nat) : Nat :=
  let bx := 2 * (g / 8 % 4) + g % 8 % 2
  let by' := 4 * (g / 8 / 4) + g % 8 / 2
  (16 * bx + k % 16) + 128 * (8 * by' + k / 16)

/-- The router of a site's cluster, numbered 24 × ry + rx (R80). -/
def routerOf (key : Nat) : Nat :=
  let g := key / 144
  let c := key % 144 / 16
  let rx := 6 * (g / 8 % 4) + 3 * (g % 8 % 2) + c % 3
  let ry := 12 * (g / 8 / 4) + 3 * (g % 8 / 2) + c / 3
  24 * ry + rx

/-- The region of a router (R80). -/
def routerRegion (r : Nat) : Nat :=
  let rx := r % 24
  let ry := r / 24
  8 * (4 * (ry / 12) + rx / 6) + (2 * (ry % 12 / 3) + rx % 6 / 3)

/-! ## Parts of the state -/

/-- Partition p. -/
def State.part (s : State) (p : Nat) : Part := Tbl.get {} s.parts p
/-- Change partition p. -/
def State.modPart (s : State) (p : Nat) (f : Part → Part) : State :=
  { s with parts := Tbl.set {} p (f (s.part p)) s.parts }
/-- Site of a key. -/
def State.site (s : State) (k : Nat) : Site := Tbl.get {} s.sites k
/-- Change a site. -/
def State.modSite (s : State) (k : Nat) (f : Site → Site) : State :=
  { s with sites := Tbl.set {} k (f (s.site k)) s.sites }
/-- Change several sites. -/
def State.modSites (s : State) (ks : List Nat) (f : Nat → Site → Site) : State :=
  ks.foldl (fun s k => s.modSite k (f k)) s
/-- Region g. -/
def State.region (s : State) (g : Nat) : Region := Tbl.get {} s.regions g
/-- Change region g. -/
def State.modRegion (s : State) (g : Nat) (f : Region → Region) : State :=
  { s with regions := Tbl.set {} g (f (s.region g)) s.regions }
/-- Mailbox i. -/
def State.mbx (s : State) (i : Nat) : Mailbox := Tbl.get {} s.mbs i
/-- Change mailbox i. -/
def State.modMb (s : State) (i : Nat) (f : Mailbox → Mailbox) : State :=
  { s with mbs := Tbl.set {} i (f (s.mbx i)) s.mbs }
/-- Port i. -/
def State.port (s : State) (i : Nat) : Port := Tbl.get {} s.ports i
/-- Change port i. -/
def State.modPort (s : State) (i : Nat) (f : Port → Port) : State :=
  { s with ports := Tbl.set {} i (f (s.port i)) s.ports }
/-- Router r. -/
def State.router (s : State) (r : Nat) : Router := Tbl.get {} s.routers r
/-- Change router r. -/
def State.modRouter (s : State) (r : Nat) (f : Router → Router) : State :=
  { s with routers := Tbl.set {} r (f (s.router r)) s.routers }
/-- The Herald context of a group, if the device is its Herald. -/
def State.herald (s : State) (g : Nat) : Option Herald := Tbl.get none s.heralds g
/-- Set the Herald context of a group. -/
def State.setHerald (s : State) (g : Nat) (h : Option Herald) : State :=
  { s with heralds := Tbl.set none g h s.heralds }
/-- Management port i. -/
def State.mgmtPort (s : State) (i : Nat) : MgmtPort := Tbl.get {} s.mgmt i
/-- Change management port i. -/
def State.modMgmt (s : State) (i : Nat) (f : MgmtPort → MgmtPort) : State :=
  { s with mgmt := Tbl.set {} i (f (s.mgmtPort i)) s.mgmt }
/-- DDR channel i. -/
def State.chan (s : State) (i : Nat) : Mc := Tbl.get {} s.mem.chans i
/-- Change DDR channel i. -/
def State.modChan (s : State) (i : Nat) (f : Mc → Mc) : State :=
  { s with mem := { s.mem with chans := Tbl.set {} i (f (s.chan i)) s.mem.chans } }
/-- The job bound to partition p. -/
def State.job (s : State) (p : Nat) : Option Job := (s.part p).job
/-- Change the job of partition p, if one is bound. -/
def State.modJob (s : State) (p : Nat) (f : Job → Job) : State :=
  s.modPart p fun x => { x with job := x.job.map f }
/-- Change the hub. -/
def State.modHub (s : State) (f : Hub → Hub) : State := { s with hub := f s.hub }
/-- Change the twin binding of partition p. -/
def State.modTwin (s : State) (p : Nat) (f : Twin → Twin) : State :=
  s.modPart p fun x => { x with twin := f x.twin }
/-- Record an output. -/
def State.emit (s : State) (m : OutMsg) : State := { s with sent := s.sent ++ [m] }
/-- Record several outputs. -/
def State.emits (s : State) (ms : List OutMsg) : State := { s with sent := s.sent ++ ms }

/-- Draw a free value of `w` bits (assumption 14). -/
def State.draw (s : State) (w : Nat) : BitVec w × State :=
  (Config.freeValue w s.free, { s with free := s.free + 1 })

/-- The routing configuration of a class (11 R358). -/
def State.rcfg (s : State) (c : Nat) : RouteCfg := Tbl.get {} s.routing.cfg c
/-- Change the routing configuration of a class. -/
def State.modRcfg (s : State) (c : Nat) (f : RouteCfg → RouteCfg) : State :=
  { s with routing := { s.routing with cfg := Tbl.set {} c (f (s.rcfg c)) s.routing.cfg } }

/-- The partition that holds region g, if any. -/
def State.partOfRegion (s : State) (g : Nat) : Option Nat :=
  (List.range 16).find? fun p => (s.part p).exist && bitAt (s.part p).regions g

/-- The regions of partition p. -/
def State.regionsOf (s : State) (p : Nat) : List Nat :=
  (List.range 64).filter fun g => bitAt (s.part p).regions g

/-- The sites of a region, by key. -/
def sitesOfRegion (g : Nat) : List Nat := (List.range 144).map (siteKey g)

/-- The sites of partition p, ascending. -/
def State.sitesOf (s : State) (p : Nat) : List Nat := (s.regionsOf p).flatMap sitesOfRegion

/-- The tiles of partition p, in ascending tile ID. -/
def State.tilesOf (s : State) (p : Nat) : List Nat :=
  (List.range 8192).filter fun t => bitAt (s.part p).regions (tileBlock t)

/-- The Placement Map entry of a tile. -/
def State.tileEnt (s : State) (t : Nat) : TileEnt := Tbl.get {} (s.region (tileBlock t)).tiles (tileLocal t)

/-- The site that holds a tile. -/
def State.siteOfTile (s : State) (t : Nat) : Nat := siteKey (tileBlock t) (s.tileEnt t).site

/-- The tile that a site holds, shadows or receives. -/
def State.tileAt (s : State) (k : Nat) : Nat := tileOf (keyRegion k) (s.site k).tile

/-- Whether a site holds a tile (R62). -/
def State.holdsTile (s : State) (k : Nat) : Bool := (s.site k).st == .tile || (s.site k).st == .filling

/-- The routers of partition p's clusters (R368). -/
def State.routersOf (s : State) (p : Nat) : List Nat :=
  (List.range 576).filter fun r => bitAt (s.part p).regions (routerRegion r)

/-- Set or clear the `DOWN` bits of partition p's routers (R368). -/
def State.setDown (s : State) (p : Nat) (v : Bool) : State :=
  (s.routersOf p).foldl (fun s r => s.modRouter r fun x => { x with down := v }) s

/-- Whether a transaction is a write of an outgoing mirror (R409): no other `WRITE` in flight belongs to no transfer. -/
def Txn.isMirror (x : Txn) : Bool := !x.dead && x.xfer.isNone && x.pkt.kind == .write

/-! ## Counters (R330) -/

/-- Add to a counter; the second answer is true when the sticky bit is newly set. -/
def ctrAdd (c : Ctr48) (n : Nat) : Ctr48 × Bool :=
  if c.v + n ≤ ctr48Max then ({ c with v := c.v + n }, false)
  else ({ v := ctr48Max, ovf := true }, !c.ovf)

/-- A count field that saturates at its own maximum (R330). -/
def satAdd (max v n : Nat) : Nat := min max (v + n)

/-! ## Injection (R358, R359) -/

/-- A packet leaves its source for the network, where the device holds it from then on (R358). -/
def State.launch (s : State) (p : Packet) : State :=
  ({ s with routing := { s.routing with mesh := s.routing.mesh ++ [{ pkt := p, ver := p.epoch }] } } : State).emit (.packet p)

/-- A source injects a packet under its class's injection version (R358); while the class is on hold the packet waits (R359 step 2). -/
def State.inject (s : State) (p : Packet) : State :=
  if (s.rcfg p.cls).hold then { s with routing := { s.routing with held := s.routing.held ++ [p] } }
  else s.launch { p with epoch := (s.rcfg p.cls).ver }

/-- Inject packets in order. -/
def State.injects (s : State) (ps : List Packet) : State := ps.foldl (fun s p => s.inject p) s

/-- Packets on hold of a class go out under its injection version (R359 step 4). -/
def State.injectHeld (s : State) (c : Nat) : State :=
  State.injects { s with routing := { s.routing with held := s.routing.held.filter fun p => p.cls != c } } (s.routing.held.filter fun p => p.cls == c)

/-! ## Commit traffic (R43, R47, R50) -/

/-- The code of an outcome (R47). -/
def outcomeCode : OutcomeKind → Nat
  | .seal => 1
  | .replay => 2
  | .hold => 3
  | .abandon => 4

/-- The 64 bytes of a vote packet's payload (R43). -/
def voteBytes (v : Vote) : List Byte :=
  leBytes 8 v.step ++ leBytes 2 v.device ++ leBytes 1 v.group ++ leBytes 1 v.verdict ++ leBytes 1 v.attempt ++
    leBytes 1 v.flags.toNat ++ leBytes 1 v.part ++ leBytes 1 v.reserved.toNat ++ leBytes 8 v.closeFt ++
    leBytes 8 v.ordoId.toNat ++ leBytes 16 v.stateDigest.toNat ++ leBytes 16 v.weightDigest.toNat

/-- The 32 bytes of an outcome packet's payload (R47). -/
def outcomeBytes (o : OutcomePkt) : List Byte :=
  leBytes 8 o.step ++ leBytes 2 o.herald ++ leBytes 1 o.group ++ leBytes 1 (outcomeCode o.outcome) ++ leBytes 1 o.attempt ++
    leBytes 1 o.reason ++ leBytes 2 o.missing ++ leBytes 2 o.firstMissing ++ leBytes 2 0 ++ leBytes 4 o.latest ++ leBytes 8 o.decideFt

/-- A packet of the commit traffic class from this hub to the hub of a device (R350 to R352).
The fields that no rule fixes for it, hub index, tag, argument and address, are 0 (log 83). -/
def State.commitPacket (s : State) (dest part : Nat) (kind : PKind) (payload : List Byte) : Packet :=
  { destDev := dest, destKind := .hub, srcDev := s.hub.devId, srcKind := .hub, kind, cls := 0, srcPart := part, payload }

/-- A vote on its way to a Herald device (R43). -/
def State.votePacket (s : State) (dest : Nat) (v : Vote) : Packet := s.commitPacket dest v.part .vote (voteBytes v)

/-- A `HERALD_QUERY` that carries a vote (R50). -/
def State.queryPacket (s : State) (dest : Nat) (v : Vote) : Packet := s.commitPacket dest v.part .heraldQuery (voteBytes v)

/-- An outcome on its way to a member (R47); a Herald context belongs to no partition, and its `SRC_PART` is 0 (log 83). -/
def State.outcomePacket (s : State) (dest : Nat) (o : OutcomePkt) : Packet := s.commitPacket dest 0 .outcome (outcomeBytes o)

/-! ## MSI-X (R462) -/

/-- Signal a vector whose source is enabled: sent when its table entry is unmasked, else pending. -/
def State.msixFire (s : State) (v : Nat) : State :=
  let e := Tbl.get {} s.msix v
  if e.masked then { s with msix := Tbl.set {} v { e with pending := true } s.msix }
  else ({ s with msix := Tbl.set {} v { e with pending := false } s.msix }).emit (.msix v)

/-! ## Events (R458 to R461) -/

/-- The mask of a group at reset: all unmasked but `SEALED` (R461). -/
def maskDefault (key : Nat) : BitVec 64 := if key % 256 = 4 then 0x20 else 0

/-- Whether an event code is masked at a destination (R461). -/
def State.masked (s : State) (dest code : Nat) : Bool :=
  let key := 256 * dest + code / 256 % 256
  bitAt (Tbl.get (maskDefault key) s.ev.masks key) (code % 64)

/-- The 64 bytes of an event record (R458). -/
def eventBytes (e : EventRec) : List Byte :=
  leBytes 8 e.ft ++ leBytes 8 e.eseq ++ leBytes 2 e.code ++ leBytes 1 e.part ++ leBytes 1 (b1 e.phase) ++
    leBytes 4 e.count ++ leBytes 40 e.arg.toNat

/-- Records of the event ring that the host has not consumed. -/
def State.evUnconsumed (s : State) : Nat := (s.ev.tail + 2048 - s.ev.head) % 2048

/-- Whether the event ring is full (R460). -/
def State.evFull (s : State) : Bool := (s.ev.tail + 1) % 2048 == s.ev.head

/-- Vector 16: fires when at least `EV_MARK` records are unconsumed and the hold-off has elapsed (R459). -/
def State.evSignal (s : State) : State :=
  let due : Bool := match s.ev.lastIrq with
    | none => true
    | some f => decide (f + s.ev.holdoff * ftUs ≤ s.now)
  if s.ev.enable ∧ (if s.ev.mark = 0 then 1 else s.ev.mark) ≤ s.evUnconsumed ∧ due then
    ({ s with ev := { s.ev with lastIrq := some s.now } }).msixFire 16
  else s

/-- Write a record at `EV_TAIL` (R459); vector 17 signals that the ring has become full (R462). -/
def State.evWrite (s : State) (e : EventRec) : State :=
  let r := { e with phase := s.ev.phase }
  let t := (s.ev.tail + 1) % 2048
  let s := ({ s with ev := { s.ev with ring := Tbl.set {} s.ev.tail r s.ev.ring, tail := t,
                                       phase := if t = 0 then !s.ev.phase else s.ev.phase } }).evSignal
  if s.evFull then s.msixFire 17 else s

/-- Put a record into the BAR0 ring, or drop it (R459, R460). -/
def State.evPost (s : State) (e : EventRec) : State :=
  if s.ev.enable ∧ ¬ s.masked 0 e.code then
    if s.evFull then { s with ev := { s.ev with lost := (ctrAdd s.ev.lost 1).1, dropped := s.ev.dropped + 1 } }
    else s.evWrite e
  else s

/-- A MAC address given as a number, as it stands on the wire: the most significant byte first (PRESUMED IEEE 802, log 165). -/
def macBytes (m : BitVec 48) : List Byte := (leBytes 6 m.toNat).reverse

/-- A management message (R464): type and enterprise number, `MOP`, `MAILBOX`, two reserved bytes, body. -/
def mgmtMessage (mop mb : Nat) (body : List Byte) : List Byte := [0x7F, 0, 3, 0xA1, 0xE5] ++ leBytes 1 mop ++ leBytes 1 mb ++ leBytes 2 0 ++ body

/-- A message leaves a management port, in MCTP packets of up to 1,024 bytes with a frame each (R463 to R465); `own`: the device is the owner of
its tag, as it is of an event's and not of an answer's (PRESUMED DSP0236, log 165). -/
def State.mgmtSend (s : State) (port : Nat) (dst : MgmtAddr) (own : Bool) (mop mb : Nat) (body : List Byte) : State :=
  let msg := mgmtMessage mop mb body
  let n := (msg.length + 1023) / 1024
  (List.range n).foldl (fun (s : State) i =>
    let fl := 128 * b1 (i == 0) + 64 * b1 (i + 1 == n) + 16 * (i % 4) + 8 * b1 own + dst.tag % 8
    let head := dst.mac ++ macBytes (Tbl.get 0 s.fuses.macs port) ++ [0x88, 0xB5]
    let seqn := leBytes 4 1 ++ leBytes 4 (s.mgmtPort port).oseq.toNat
    let mctp := leBytes 1 1 ++ leBytes 1 dst.eid ++ leBytes 1 s.hub.config.mctpEid ++ leBytes 1 fl
    (s.modMgmt port fun m => { m with oseq := m.oseq + 1 }).emit (.mgmt port (head ++ seqn ++ mctp ++ (msg.drop (1024 * i)).take 1024))) s

/-- Send an event on the stream of a management port (R465), to the null endpoint with tag 0 (DESIGN CHOICE, log 165). -/
def State.evStream (s : State) (i : Nat) (e : EventRec) : State :=
  if (s.mgmtPort i).stream ∧ ¬ s.masked (i + 1) e.code then
    s.mgmtSend i { mac := macBytes (s.mgmtPort i).destMac } true 4 0 (eventBytes e)
  else s

/-- One event record: `ESEQ` and `COUNT` count the event itself, the latest-event object takes it, and it goes to the ring and the streams
(R458 to R460). -/
def State.eventRaw (s : State) (code part : Nat) (arg : List (Nat × Nat)) : State :=
  let c := (ctrAdd (Tbl.get ({}, {}) s.ev.latest code).2 1).1
  let e : EventRec := { ft := s.now, eseq := (s.ev.eseq + 1) % 2 ^ 64, code, part, count := c.v % 2 ^ 32,
                        arg := BitVec.ofNat 320 (pack arg) }
  let s := { s with ev := { s.ev with eseq := s.ev.eseq + 1, latest := Tbl.set ({}, {}) code (e, c) s.ev.latest } }
  ((s.evPost e).evStream 0 e).evStream 1 e

/-- The counters that raising an event has brought to their sticky bit, each as the `ARG` of its `COUNTER_OVERFLOW` (R330): the count of a code, by
its object of type 0x26, and `EV_LOST`, which is in no census object and whose name the spec leaves open (log 140). -/
def evOvf (s s' : State) (code : Nat) : List (List (Nat × Nat)) :=
  let sticky (s : State) : Bool := (Tbl.get ({}, {}) s.ev.latest code).2.ovf
  (if sticky s' && !sticky s then [[(32, 0x26000000 + code), (32, 0)]] else []) ++
    (if s'.ev.lost.ovf && !s.ev.lost.ovf then [[(32, Config.evLostName.1), (32, Config.evLostName.2)]] else [])

/-- Raise an event (R458 to R461), and `COUNTER_OVERFLOW` for what it counts past 48 bits, the count of `COUNTER_OVERFLOW` itself included (R330). -/
def State.event (s : State) (code part : Nat) (arg : List (Nat × Nat)) : State :=
  let s1 := s.eventRaw code part arg
  (evOvf s s1 code).foldl (fun (s : State) a =>
    let s' := s.eventRaw 0x0103 0xFF a
    (evOvf s s' 0x0103).foldl (fun (s : State) a => s.eventRaw 0x0103 0xFF a) s') s1

/-- `COUNTER_OVERFLOW`, once until the counter is cleared (R330): `obj` is the census object ID. -/
def State.ovfEvent (s : State) (obj idx : Nat) : State :=
  if (obj, idx) ∈ s.ev.ovfRaised then s
  else ({ s with ev := { s.ev with ovfRaised := (obj, idx) :: s.ev.ovfRaised } }).event 0x0103 0xFF [(32, obj), (32, idx)]

/-- Forget that a counter has overflowed, when it is cleared (R330). -/
def State.ovfClear (s : State) (obj : Nat) : State :=
  { s with ev := { s.ev with ovfRaised := s.ev.ovfRaised.filter fun x => x.1 != obj } }

/-- Raise the overflow event when `o` says that the sticky bit was newly set. -/
def State.ovfIf (s : State) (o : Bool) (obj idx : Nat) : State := if o then s.ovfEvent obj idx else s

/-- Add to a counter of a router (R371). -/
def State.rtrAdd (s : State) (r idx n : Nat) : State :=
  let x := s.router r
  let pick : Ctr48 := match idx with
    | 0 => x.pktsFwd
    | 1 => x.ceMarked
    | 2 => x.combined
    | 3 => x.pdownRefused
    | 4 => x.pdownDropped
    | 5 => x.staleEpoch
    | _ => x.hopLimit
  let (c, o) := ctrAdd pick n
  (s.modRouter r fun x => match idx with
    | 0 => { x with pktsFwd := c }
    | 1 => { x with ceMarked := c }
    | 2 => { x with combined := c }
    | 3 => { x with pdownRefused := c }
    | 4 => { x with pdownDropped := c }
    | 5 => { x with staleEpoch := c }
    | _ => { x with hopLimit := c }).ovfIf o (0x19000000 + r % 24 + 32 * (r / 24)) idx

/-- Add 1 to a counter of a router. -/
def State.rtrCount (s : State) (r idx : Nat) : State := s.rtrAdd r idx 1

/-- The entries that await their place in the field defect ledger, in it (R64, R503). -/
def Flash.ledgerFlush (f : Flash) : Flash := { f with ledger := (f.ledger ++ f.ledgerPend).take 16384, ledgerPend := [] }

/-! ## The error collector (R325, R326) -/

/-- The error classes of R321. -/
def errClasses : List Nat :=
  (List.range 8).map (0x0101 + ·) ++ (List.range 5).map (0x0201 + ·) ++ (List.range 9).map (0x0301 + ·) ++ (List.range 4).map (0x0401 + ·) ++
    (List.range 9).map (0x0501 + ·) ++ (List.range 9).map (0x0601 + ·) ++ (List.range 7).map (0x0701 + ·) ++ (List.range 4).map (0x0801 + ·) ++
    [0x0901, 0x0902]

/-- How a class coalesces (R321): 0 never, 1 storm, 2 always. -/
def coalescing (cls : Nat) : Nat :=
  if cls ∈ [0x0102, 0x0106, 0x0506, 0x0507, 0x0508, 0x0601, 0x0605, 0x0705] then 2
  else if cls ∈ [0x0103, 0x0104, 0x0105, 0x0107, 0x0201, 0x0202, 0x0203, 0x0204, 0x0205, 0x0404, 0x0509, 0x0602,
                 0x0608, 0x0609, 0x0706, 0x0804] then 1
  else 0

/-- Merge a record into an entry of the same class and unit (R325). -/
def recMerge (e r : ErrRec) : ErrRec :=
  let n := e.count + r.count
  { e with count := min n 0xFFFFFF, lastFt := r.ft, detail := r.detail,
           rflags := e.rflags ||| 1 ||| (if 0xFFFFFF < n then 2 else 0) }

/-- Whether two records name one class and unit (R325). -/
def recSame (e r : ErrRec) : Bool := e.cls == r.cls && e.unitKind == r.unitKind && e.unit == r.unit

/-- Append a record to the collector's FIFO; on entry into storm state raise `ERR_STORM`, at most once a second (R326). -/
def State.errAppend (s : State) (r : ErrRec) : State :=
  let fifo := s.col.fifo ++ [r]
  let now := decide (768 ≤ fifo.length)
  let quiet : Bool := match s.col.stormAt with
    | none => true
    | some f => decide (f + ftSec ≤ s.now)
  let s1 := { s with col := { s.col with fifo, storm := now } }
  if now ∧ ¬ s.col.storm ∧ quiet then
    ({ s1 with col := { s1.col with stormAt := some s.now } }).event 0x0104 0xFF [(16, fifo.length)]
  else s1

/-- Emit coalescing entries while `FILL` is 512 or less, until it reaches 768 or the table is empty (R326). -/
def State.errEmit : Nat → State → State
  | 0, s => s
  | n + 1, s =>
    match s.col.table with
    | [] => s
    | e :: rest =>
      if s.col.fifo.length < 768 then
        State.errEmit n (({ s with col := { s.col with table := rest } }).errAppend e)
      else s

/-- Count a record lost (R325, R330). -/
def State.errLose (s : State) : State :=
  let (c, o) := ctrAdd s.col.lost 1
  ({ s with col := { s.col with lost := c } }).ovfIf o 0x20000000 0

/-- What the collector does with an arriving record (R325). -/
def State.collect (s : State) (r : ErrRec) : State :=
  let fill := s.col.fifo.length
  let co := coalescing r.cls
  if co = 2 ∨ (co = 1 ∧ 768 ≤ fill) then
    if s.col.table.any (recSame · r) then
      { s with col := { s.col with table := s.col.table.map fun e => if recSame e r then recMerge e r else e } }
    else if s.col.table.length < 256 then { s with col := { s.col with table := s.col.table ++ [r] } }
    else s.errLose
  else if fill < 960 ∨ (co = 0 ∧ fill < 1024) then s.errAppend r
  else s.errLose

/-- A record arrives: a record that names a site adds to its `FAULTS` (R68, R325); while `FILL` is 512 or less the table empties into the FIFO
(R326). -/
def State.errArrive (s : State) (r : ErrRec) : State :=
  let s := s.collect r
  let s := if s.col.fifo.length ≤ 512 then State.errEmit s.col.table.length s else s
  if r.unitKind = 1 then
    match siteOfId (r.unit.toNat % 65536) with
    | some k => s.modSite k fun x => { x with faults := satAdd 15 x.faults 1 }
    | none => s
  else s

/-- The reading of a sensor, if it has one (R477). -/
def State.sensor (s : State) (n : Nat) : Option Int :=
  if n < 192 then Tbl.get none (s.region (n / 3)).sensors (n % 3) else Tbl.get none s.power.sensors n

/-- The sensors nearest the unit of a record, in the order in which `TEMP` takes the first that reads (R322, R323, R477; assumption 18): those of the
unit's region; of the die of its port or memory channel; of the hub for the device, hub blocks, Almanac entries and partitions. -/
def nearSensors (unitKind unit : Nat) : List Nat :=
  let region : Nat → List Nat := fun g => [3 * g, 3 * g + 1, 3 * g + 2]
  let die : Nat → List Nat := fun d => (List.range 24).map (192 + 24 * d + ·)
  if unitKind = 1 then match siteOfId (unit % 65536) with
    | some k => region (keyRegion k)
    | none => []
  else if unitKind = 2 then region (tileBlock (unit % 8192))
  else if unitKind = 3 then die (bitsN unit 0 5 / 12)
  else if unitKind = 4 then die (bitsN unit 0 4 / 8)
  else if unitKind = 5 then region (unit % 64)
  else if unitKind = 7 then region (routerRegion (24 * bitsN unit 5 5 + bitsN unit 0 5))
  else (List.range 16).map (240 + ·)

/-- `TEMP` of a record (R322, R477): the nearest sensor that reads, 0x8000 with none. -/
def State.tempOf (s : State) (unitKind unit : Nat) : BitVec 16 :=
  match (nearSensors unitKind unit ++ List.range 256).findSome? s.sensor with
  | some x => BitVec.ofInt 16 x
  | none => 0x8000

/-- `EPOCH` and `PHASE` of a record (R322): the epoch of the unit that `OP_ID` names in the site that `UNIT` names, sequencer contexts being those
of the sequencer, with the phase of that epoch; else `PART_EPOCH` and the phase of the job. -/
def State.recEpoch (s : State) (kind part unit op : Nat) : BitVec 16 × Nat :=
  let j := if part < 16 then s.job part else none
  let u := if op < 0x100 then some op else if op < 0x180 then some 0x0F0 else none
  let e : Option (BitVec 16) := if kind = 1 then
      match u, siteOfId (unit % 65536) with
      | some u, some k => some (Tbl.get ({} : UnitSt) (s.site k).units u).epoch
      | _, _ => none
    else none
  (e.getD (if part < 16 then (s.part part).epoch else 0), match j with
    | some j => if j.st = .running then (match e with
        | some e => (e - j.relEpoch).toNat
        | none => j.phase) else 0xFFFF
    | none => 0xFFFF)

/-- `VOLT` of a record (R322): a free value for a unit at which a supply may be sensed (assumption 18), 0 for an Almanac entry or a partition, which
stand at no place of the device. -/
def State.voltOf (s : State) (kind : Nat) : BitVec 16 × State := if kind = 6 ∨ kind = 9 then (0, s) else s.draw 16

/-- Write an error record: the common fields of R322 come from the state. `op` is the unit of `OP_ID`. -/
def State.reportOp (s : State) (cls kind part unit op : Nat) (detail : List (Nat × Nat)) : State :=
  let (v, s) := s.voltOf kind
  let j := if part < 16 then s.job part else none
  let r : ErrRec :=
    { ft := s.now, lastFt := s.now, cls, unitKind := kind, part, unit := BitVec.ofNat 32 unit,
      step := match j with
        | some j => BitVec.ofNat 64 j.step
        | none => BitVec.allOnes 64,
      epoch := (s.recEpoch kind part unit op).1,
      phase := (s.recEpoch kind part unit op).2,
      opId := BitVec.ofNat 32 (op + 65536 * (match j with
        | some j => j.attempt
        | none => 0xFF)),
      temp := s.tempOf kind unit,
      volt := v.toNat,
      detail := BitVec.ofNat 128 (packRaw detail) }
  s.errArrive r

/-- Write an error record that names no unit in `OP_ID`. -/
def State.report (s : State) (cls kind part unit : Nat) (detail : List (Nat × Nat)) : State :=
  s.reportOp cls kind part unit 0xFFFF detail

/-- `UNIT` of a site (R323). -/
def State.siteUnit (s : State) (k : Nat) : Nat :=
  siteId k + (if s.holdsTile k then s.tileAt k * 65536 + 536870912 else 0)

/-- The partition of a site as a record field: 0xFF none. -/
def State.partField (s : State) (k : Nat) : Nat := (s.partOfRegion (keyRegion k)).getD 0xFF

/-- Write a record about a site. -/
def State.reportSite (s : State) (cls k op : Nat) (detail : List (Nat × Nat)) : State :=
  s.reportOp cls 1 (s.partField k) (s.siteUnit k) op detail

/-- Append a record to the log ring (R328). -/
def State.ringAppend (s : State) (r : ErrRec) : State :=
  { s with col := { s.col with ring := Tbl.set {} (s.col.total % 1048576) r s.col.ring, total := s.col.total + 1 } }

/-- The Steward drains the FIFO and the table into the ring (R327). -/
def State.errDrain (s : State) : State :=
  let s1 := (s.col.fifo ++ s.col.table).foldl State.ringAppend s
  { s1 with col := { s1.col with fifo := [], table := [], storm := false } }

/-! ## Status bits of the hub -/

/-- Change `READY`, `DEGRADED`, `HOSTLOAD` or `HALTED`: a change signals vector 18 (R462). -/
def State.hubStatus (s : State) (f : Hub → Hub) : State :=
  let h := f s.hub
  let s1 := s.modHub fun _ => h
  if (h.ready, h.degraded, h.hostload, h.halted) = (s.hub.ready, s.hub.degraded, s.hub.hostload, s.hub.halted) then s1
  else s1.msixFire 18

/-! ## Completions (R442 to R444, R465, R466) -/

/-- Command status codes (R448). -/
abbrev stOk : Nat := 0
abbrev stBadOpcode : Nat := 1
abbrev stBadArgument : Nat := 2
abbrev stNotPermitted : Nat := 3
abbrev stNoCredential : Nat := 4
abbrev stNotReady : Nat := 5
abbrev stAborted : Nat := 6
abbrev stBufferFault : Nat := 7
abbrev stJobBound : Nat := 8
abbrev stNoJob : Nat := 9
abbrev stSweepPending : Nat := 0xA
abbrev stNoMemory : Nat := 0xB
abbrev stTimeout : Nat := 0xC
abbrev stBadFormat : Nat := 0x10
abbrev stDigestMismatch : Nat := 0x11
abbrev stSignature : Nat := 0x12
abbrev stAsv : Nat := 0x13
abbrev stPartMismatch : Nat := 0x14
abbrev stLogReserve : Nat := 0x15
abbrev stConfigInvalid : Nat := 0x16
abbrev stRouteHeadroom : Nat := 0x17
abbrev stCreditBound : Nat := 0x18
abbrev stAlmanacArmed : Nat := 0x20
abbrev stAlmanacFull : Nat := 0x21
abbrev stNotRetained : Nat := 0x30
abbrev stRouteBusy : Nat := 0x60
abbrev stKeepLimit : Nat := 0x70
abbrev stTwinSpace : Nat := 0x80
abbrev stTwinMismatch : Nat := 0x81
abbrev stNoMirror : Nat := 0x82
abbrev stRestoreOrdo : Nat := 0x83
abbrev stRestoreGeneration : Nat := 0x84
abbrev stRestoreMismatch : Nat := 0x85
abbrev stObjectUnknown : Nat := 0x90
abbrev stHostloadOnly : Nat := 0x91

/-- Fields of a descriptor (R440). -/
abbrev Desc.opcode (d : Desc) : Nat := bitsN d.word.toNat 0 16
abbrev Desc.irq (d : Desc) : Bool := bitOn d.word.toNat 16
abbrev Desc.tag (d : Desc) : Nat := bitsN d.word.toNat 32 32
abbrev Desc.part (d : Desc) : Nat := bitsN d.word.toNat 64 8
abbrev Desc.bufKind (d : Desc) : Nat := bitsN d.word.toNat 80 8
abbrev Desc.bufLen (d : Desc) : Nat := bitsN d.word.toNat 96 32
abbrev Desc.bufAddr (d : Desc) : Nat := bitsN d.word.toNat 128 64
abbrev Desc.args (d : Desc) : Nat := bitsN d.word.toNat 192 320

/-- Whether the reserved bits of a descriptor are zero (R440). -/
def Desc.reservedZero (d : Desc) : Bool :=
  bitsN d.word.toNat 17 15 == 0 && bitsN d.word.toNat 72 8 == 0 && bitsN d.word.toNat 88 8 == 0

/-- The 32 bytes of a completion (R442). -/
def completionBytes (c : Completion) : List Byte :=
  leBytes 4 c.tag.toNat ++ leBytes 2 c.opcode.toNat ++ leBytes 2 c.status ++ leBytes 1 c.slot ++
    leBytes 1 (b1 c.phase + 2 * b1 c.more) ++ leBytes 2 c.detail.toNat ++ leBytes 4 0 ++ leBytes 16 c.result.toNat

/-- Write a completion at `CPL_TAIL` (R442) and signal the vector (R462). -/
def State.writeCpl (s : State) (mb : Nat) (c : Completion) (irq : Bool) : State :=
  let m := s.mbx mb
  let t := (m.cplTail + 1) % 64
  let s := s.modMb mb fun m =>
    { m with cplRing := Tbl.set {} m.cplTail { c with phase := m.cplPhase } m.cplRing, cplTail := t,
             cplPhase := if t = 0 then !m.cplPhase else m.cplPhase }
  if irq ∧ m.irqEn then s.msixFire mb else s

/-- Whether the completion ring is full (R444). -/
def Mailbox.cplFull (m : Mailbox) : Bool := (m.cplTail + 1) % 64 == m.cplHead

/-- Release whatever partition lock a mailbox holds or awaits (R443). -/
def State.unlock (s : State) (mb : Nat) : State :=
  (List.range 16).foldl (fun s p => s.modPart p fun x =>
    { x with lock := if x.lock = some mb then none else x.lock,
             lockWait := x.lockWait.filter fun w => w.1 != mb }) s

/-- Complete the running command of a mailbox (R442, R444, R446, R465). `out` is output for a message. -/
def State.finishWith (s : State) (mb status detail result : Nat) (more : Bool) (out : List Byte) : State :=
  match (s.mbx mb).running with
  | none => s
  | some d =>
    let m := s.mbx mb
    let c : Completion :=
      { tag := BitVec.ofNat 32 d.tag, opcode := BitVec.ofNat 16 d.opcode, status, slot := d.slot, phase := m.cplPhase,
        more, detail := BitVec.ofNat 16 detail, result := BitVec.ofNat 128 result }
    let h : HistCmd := { opcode := c.opcode, tag := c.tag, status, ackFt := d.ackFt, cplFt := s.now }
    let s := { s with mem := { s.mem with allocWait := s.mem.allocWait.filter (· != mb) } }
    let s := (s.unlock mb).modMb mb fun m =>
      { m with running := none, hist := (h :: m.hist).take 64,
               exec := if m.discard then m.exec else (d.slot + 1) % 64 }
    if m.discard then s.modMb mb fun m => { m with discard := false }
    else if mb < 16 then
      if m.cplFull then s.modMb mb fun m => { m with kept := some (c, d.irq), stalled := true }
      else s.writeCpl mb c d.irq
    else
      (s.modMb mb fun m => { m with keptCpl := ((c.tag, c) :: m.keptCpl).take 64 }).mgmtSend ((mb - 16) / 4) d.reply false 3 mb
        (completionBytes c ++ out)

/-- Complete the running command with a status, `DETAIL` and `RESULT`. -/
def State.finish (s : State) (mb status : Nat) (detail : Nat := 0) (result : Nat := 0) : State :=
  s.finishWith mb status detail result false []

/-- Complete, with `ABORTED`, the commands that hold or await a partition's lock (R443, R510). -/
def State.abortLocked (s : State) (p except : Nat) (final : Mailbox → Bool) : State :=
  let ms := (match (s.part p).lock with
    | some m => [m]
    | none => []) ++ (s.part p).lockWait.map (·.1)
  ms.foldl (fun s m => if m = except ∨ final (s.mbx m) then s else s.finish m stAborted) s

end Sys2Proof.Machine
end

