-- ==== Sys2Proof/Machine/Paths.lean ====
section
/-! DEFINITION. The physical paths of routes: the grid of sites, the length of a path, the paths that may be loaded, and the re-route of a
region (02 R73 to R76, R79; 04 R127, R134, R137). -/

namespace Sys2Proof.Machine

/-! ## The grid of sites (R57, R58) -/

/-- Column of a site in the package, 0 to 95, from its stack, region column and local coordinate (R57, R58). -/
def siteX (k : Nat) : Nat := 24 * (keyRegion k / 8 % 4) + 12 * (keyRegion k % 8 % 2) + siteU (keyIdx k)
/-- Row of a site in the package, 0 to 95 (R57, R58). -/
def siteY (k : Nat) : Nat := 48 * (keyRegion k / 8 / 4) + 12 * (keyRegion k % 8 / 2) + siteV (keyIdx k)
/-- The site at a column and a row. -/
def siteXY (x y : Nat) : Nat :=
  siteKey (8 * (4 * (y / 48) + x / 24) + (2 * (y % 48 / 12) + x % 24 / 12))
    (16 * (3 * (y % 12 / 4) + x % 12 / 4) + (4 * (y % 12 % 4) + x % 12 % 4))

/-- The neighbour of a site beyond output 0 north, 1 east, 2 south or 3 west; none at the package edge. -/
def siteNext (k out : Nat) : Option Nat :=
  let x := siteX k
  let y := siteY k
  if out = 0 then (if y = 0 then none else some (siteXY x (y - 1)))
  else if out = 1 then (if x = 95 then none else some (siteXY (x + 1) y))
  else if out = 2 then (if y = 95 then none else some (siteXY x (y + 1)))
  else if out = 3 then (if x = 0 then none else some (siteXY (x - 1) y))
  else none

/-- The stack of a site. -/
def siteStack (k : Nat) : Nat := keyRegion k / 8

/-- Cycles of the hop between two neighbours: one within a stack, four across a stack boundary (R79, R127). -/
def hopCycles (k k' : Nat) : Nat := if siteStack k = siteStack k' then 1 else 4

/-- The output of its switch plane that a hop takes: 0 to 3 north, east, south, west; 4 + j ejection port Ej (R134). -/
def PhysHop.out (h : PhysHop) : Nat := (h.unit - 0x0C0) % 16
/-- The plane of a hop (R154). -/
def PhysHop.plane (h : PhysHop) : Nat := (h.unit - 0x0C0) / 16
/-- The site that a hop leads to, none for a delivery. -/
def PhysHop.next (h : PhysHop) : Option Nat := siteNext h.site h.out
/-- The input code at which an element arrives that left by an output (R134). -/
def arriveCode (out : Nat) : Nat := (out + 2) % 4 + 1
/-- The link or ejection output that a hop takes. -/
def PhysHop.link (h : PhysHop) : Nat × Nat := (h.site, h.unit)

/-- Whether hop `q` leads to the input of hop `h`. -/
def PhysHop.leadsTo (q h : PhysHop) : Bool := q.next == some h.site && arriveCode q.out == h.inp && q.plane == h.plane

/-- Cycles from the source to the input of a hop along a path, over at most `fuel` hops; none where the hop hangs on no source. -/
def hopLat (src inj : Nat) (hops : List PhysHop) : Nat → PhysHop → Option Nat
  | 0, _ => none
  | n + 1, h =>
    if h.site = src ∧ h.inp = inj then some 0
    else hops.findSome? fun q => if q.leadsTo h then (hopLat src inj hops n q).map (· + hopCycles q.site h.site) else none

/-- The length of a path: the hop latency to its farthest delivery (R127). -/
def physLength (src inj : Nat) (hops : List PhysHop) : Nat :=
  hops.foldl (fun n h => if 4 ≤ h.out then max n ((hopLat src inj hops (hops.length + 1) h).getD 0) else n) 0

/-- The provisioned length of a route to its farthest destination (R73, R137). -/
def provLength (r : Route) : Nat := (r.far.map fun f => 3 * f.1 + 4 + 4 * f.2).foldl max 0

/-- Whether a route of a given credit passes the credit-loop check at a length (R137). -/
def creditsCover (credits len : Nat) : Bool := decide (2 * len + 6 ≤ credits)

/-! ## Paths that may be loaded -/

/-- Whether the switch of a site carries routes: the site works, or is under test in a slot. -/
def carries (st : SiteSt) : Bool := st ∈ [SiteSt.tile, .spare, .vigil, .filling, .test]

/-- The switch outputs that deliver a route (R133). -/
def State.deliveries (s : State) (r : Route) : List (Nat × Nat) :=
  r.dests.map fun d => (s.siteOfTile d.1, 0x0C0 + 16 * r.plane + 4 + d.2)

/-- Whether hops are a physical path of a route of partition `p` (R73, R127, R133, R134, R137): a tree from the injection port to exactly
the route's deliveries, over working sites of the partition, on the route's plane, no longer than the provisioned length and within the
credit bound; a route from a tile to itself takes no link. -/
def State.pathOk (s : State) (p : Nat) (r : Route) (hops : List PhysHop) : Bool :=
  let src := s.siteOfTile r.src
  let inj := 5 + r.port
  let len := physLength src inj hops
  hops.all (fun h =>
      decide (0x0C0 ≤ h.unit ∧ h.plane = r.plane ∧ h.out < 12 ∧ h.site < 9216) && bitAt (s.part p).regions (keyRegion h.site) &&
        carries (s.site h.site).st && (hopLat src inj hops (hops.length + 1) h).isSome &&
        (if h.out < 4 then hops.any fun q => h.leadsTo q else (s.deliveries r).contains h.link)) &&
    (s.deliveries r).all (fun d => hops.any fun h => h.link == d) && decide (hops.map PhysHop.link).Nodup &&
    (!(r.dests.all fun d => d.1 == r.src) || hops.all fun h => decide (4 ≤ h.out)) &&
    decide (len ≤ provLength r) && creditsCover r.credits len

/-- Whether two paths of one phase share a directed link or a delivery (R127). -/
def PhysPath.clash (a b : PhysPath) : Bool :=
  a.phase == b.phase && a.id != b.id && a.hops.any fun h => b.hops.any fun q => q.link == h.link

/-- The route of an Ordo that a path belongs to. -/
def Ordo.routeOf (o : Ordo) (q : PhysPath) : Option Route := o.routes.find? fun r => r.phase == q.phase && r.id == q.id

/-- Whether a path may be loaded among others (R127, R137). -/
def State.pathFits (s : State) (p : Nat) (o : Ordo) (all : List PhysPath) (q : PhysPath) : Bool :=
  (match o.routeOf q with
    | some r => s.pathOk p r q.hops
    | none => false) && !all.any fun x => x.clash q

/-! ## Building and re-routing (R71, R74, R76) -/

/-- Digest of the loaded Ordo that the placer reads. -/
def State.ordoDigest (s : State) (p : Nat) : BitVec 384 :=
  match (s.part p).ordo with
  | some o => o.digest
  | none => 0

/-- Version and build of the running image. -/
def State.fw (s : State) : BitVec 32 × BitVec 32 :=
  match s.hub.image with
  | some i => (i.version, i.build)
  | none => (0, 0)

/-- The links on which a path crosses the edge of a region (R74). -/
def edgeLinks (g : Nat) (hops : List PhysHop) : List (Nat × Nat) :=
  (hops.filter fun h => match h.next with
    | some k => (keyRegion h.site == g) != (keyRegion k == g)
    | none => false).map PhysHop.link

/-- The hops that Ernex proposes for a route inside a region, given the links on which the route crosses its edge. -/
def State.regionHops (s : State) (p g phase id : Nat) (edges : List (Nat × Nat)) : List PhysHop :=
  (Config.regionPath (s.ordoDigest p) s.fw.1 g ((List.range 144).map fun i => (s.site (siteKey g i)).st)
    ((List.range 128).map fun k => (Tbl.get {} (s.region g).tiles k : TileEnt).site) phase id edges).map fun h =>
      { site := siteKey g (h.1 % 144), unit := h.2.1, inp := h.2.2 }

/-- Whether a path has a hop in a region. -/
def PhysPath.inRegion (q : PhysPath) (g : Nat) : Bool := q.hops.any fun h => keyRegion h.site == g

/-- A path with its hops inside a region chosen anew; its other hops stand (R74). -/
def State.rehop (s : State) (p g : Nat) (q : PhysPath) : PhysPath :=
  { q with hops := (q.hops.filter fun h => keyRegion h.site != g) ++ s.regionHops p g q.phase q.id (edgeLinks g q.hops), loaded := true }

/-- Whether two paths cross the edge of a region on the same links (R74). -/
def sameEdges (g : Nat) (a b : PhysPath) : Bool :=
  let x := edgeLinks g a.hops
  let y := edgeLinks g b.hops
  x.all y.contains && y.all x.contains

/-- Re-route a region (R74, R75, R137): only routes with a hop in it change, each keeps its links over the region's edge, and a path that
fails a check is never loaded. Answers whether every route fitted. R75 guarantees that Ernex finds such paths for the first two fences: which paths it
finds is open (`Config.regionPath`), and the model does not assume that they pass (DESIGN CHOICE, log 138). -/
def State.reroute (s : State) (p g : Nat) : State × Bool :=
  match (s.part p).ordo with
  | none => (s, true)
  | some o =>
    let old := (s.part p).paths
    let new := old.map fun q => if q.inRegion g then s.rehop p g q else q
    let ok : Bool := (old.zip new).all fun x => !(x.1.inRegion g) || (sameEdges g x.1 x.2 && s.pathFits p o new x.2)
    if ok then (s.modPart p fun x => { x with paths := new }, true)
    else (s.modPart p fun x => { x with paths := old.map fun q => if q.inRegion g then { q with loaded := false } else q }, false)

/-- The paths of a partition whose regions have just been placed (R71, R76): those that fail a check stay out. -/
def State.buildPaths (s : State) (p : Nat) : State :=
  match (s.part p).ordo with
  | none => s.modPart p fun x => { x with paths := [] }
  | some o =>
    let all : List PhysPath := o.routes.map fun r =>
      { phase := r.phase, id := r.id, hops := (s.regionsOf p).flatMap fun g => s.regionHops p g r.phase r.id [] }
    s.modPart p fun x => { x with paths := all.map fun q => { q with loaded := s.pathFits p o all q } }

/-- Whether every route of a partition has its path loaded. -/
def State.routed (s : State) (p : Nat) : Bool := (s.part p).paths.all (·.loaded)

/-- The regions in which a route without a loaded path starts or ends. -/
def State.unroutedRegions (s : State) (p : Nat) : List Nat :=
  match (s.part p).ordo with
  | none => []
  | some o => (s.regionsOf p).filter fun g => (s.part p).paths.any fun q => !q.loaded && (match o.routeOf q with
      | some r => tileBlock r.src == g || r.dests.any fun d => tileBlock d.1 == g
      | none => false)

/-- The switch word of an output in a phase (R134): the input code of the loaded path that takes it, 0 for none. -/
def State.switchWord (s : State) (p phase k u : Nat) : BitVec 512 :=
  match (s.part p).paths.findSome? fun q =>
      if q.loaded ∧ q.phase = phase then q.hops.find? fun h => h.link == (k, u) else none with
  | some h => BitVec.ofNat 512 (h.inp % 16)
  | none => 0

end Sys2Proof.Machine
end

