-- ==== Sys2Proof/Machine/Place.lean ====
section
/-! DEFINITION. The Placement Map: good spares, the choice of a spare, initial and full placement, and the choice of the
Vigil sites (02 R62 to R76, 10 R295, R296, R311). -/

namespace Sys2Proof.Machine

/-- Sites of a region in `DEFECT`, `FENCED` or `DARK` (R63). -/
def State.badSites (s : State) (g : Nat) : Nat :=
  ((sitesOfRegion g).filter fun k => (s.site k).st ∈ [SiteSt.defect, .fenced, .dark]).length

/-- The good-spare count of a region (R63), 0 when the region is treated as if its count were 0 (R76, R313). -/
def State.goodSpares (s : State) (g : Nat) : Nat :=
  if (s.region g).exhausted then 0
  else if (sitesOfRegion g).all fun k => (s.site k).st == .dark then 0
  else 16 - s.badSites g

/-- `REGION_LOW`, `REGION_EXHAUSTED` and `DEVICE_DEGRADED` (R65, R317), each once. -/
def State.spareEvents (s : State) (g : Nat) : State :=
  let n := s.goodSpares g
  let s := if n < 2 ∧ ¬ (s.region g).lowRaised then
      (s.modRegion g fun r => { r with lowRaised := true }).event 0x0503 (s.partField (siteKey g 0)) [(8, g), (8, n)]
    else s
  if n = 0 ∧ ¬ (s.region g).exhRaised then
    let s := (s.modRegion g fun r => { r with exhRaised := true }).event 0x0504 (s.partField (siteKey g 0)) [(8, g)]
    let s := if s.hub.degradedRaised then s
      else (s.modHub fun h => { h with degradedRaised := true }).event 0x0102 0xFF [(8, g)]
    s.hubStatus fun h => { h with degraded := true }
  else s

/-- One update of a region's tables: the placement generation advances by one (R69). -/
def State.newGen (s : State) (g : Nat) : State := s.modRegion g fun r => { r with gen := r.gen + 1 }

/-- Set a site's state. -/
def State.setSt (s : State) (k : Nat) (st : SiteSt) : State := s.modSite k fun x => { x with st }

/-- The nearest of some sites to site index p, the lowest index on a tie (R311). -/
def nearest (p : Nat) (qs : List Nat) : Option Nat :=
  qs.foldl (fun best q => match best with
    | none => some q
    | some b => if siteDist p q < siteDist p b then some q else some b) none

/-- Site indices of a region in a state. -/
def State.sitesIn (s : State) (g : Nat) (st : SiteSt) : List Nat :=
  (List.range 144).filter fun p => (s.site (siteKey g p)).st == st

/-- Whether a site of a partition is under test (R76, R306). -/
def State.testing (s : State) (p : Nat) : Bool := (s.sitesOf p).any fun k => (s.site k).st == .test

/-- The spare for a tile that was on site index p (R311): nearest `SPARE`, else nearest `VIGIL`. -/
def State.pickSpare (s : State) (g p : Nat) : Option Nat :=
  match nearest p (s.sitesIn g .spare) with
  | some q => some q
  | none => nearest p (s.sitesIn g .vigil)

/-- The site that tile `k` held before its fence, while its fill is outstanding (R311). -/
def Region.fillOrigin (r : Region) (k : Nat) : Nat := Tbl.get 0 r.fillFrom k

/-- A site takes no Vigil target any more: repair or a test has claimed it, or it is fenced (R295, R296). -/
def State.unVigil (s : State) (g p : Nat) : State :=
  s.modRegion g fun r => { r with loaded := r.loaded.filter (· != p), targets := r.targets.filter fun t => t.1 != p }

/-- Tile `k` is on site `p` in the update that the region's generation counts (R67, R69): `SITE` names it, and `GEN` is that generation.
`fill`: the site is `FILLING` and `MOVING` is set (R310). -/
def State.placeAt (s : State) (g k p : Nat) (fill : Bool) : State :=
  let s := s.modSite (siteKey g p) fun x => { x with st := if fill then .filling else .tile, tile := k }
  (s.modRegion g fun r => { r with tiles := Tbl.set {} k { site := p, moving := fill, gen := r.gen } r.tiles }).unVigil g p

/-- Tile `k` is on site `p`, which has received it: `MOVING` clear and the site `TILE`, one update; `SITE` does not change (R67, R312). -/
def State.endFill (s : State) (g k p : Nat) : State :=
  let s := (s.modSite (siteKey g p) fun x => { x with st := .tile, tile := k }).newGen g
  s.modRegion g fun r => { r with tiles := Tbl.set {} k { (Tbl.get {} r.tiles k : TileEnt) with site := p, moving := false } r.tiles }

/-- The units of a tile with the switch outputs of a site, which stay with the site (R134, R154). -/
def withSwitches (tile site : Tbl UnitSt) : Tbl UnitSt :=
  tile.filter (fun e => decide (e.1 < 0x0C0)) ++ site.filter (fun e => decide (0x0C0 ≤ e.1 ∧ e.1 < 0x0F0)) ++
    tile.filter fun e => decide (0x0F0 ≤ e.1)

/-- What moves with a tile from one site to another: slice, sequencer, channels and configuration (R70). What `MU_STATUS` keeps of each site stays
with the site (R198). -/
def moveTile (a b : Site) : Site :=
  { b with units := withSwitches a.units b.units, ej := a.ej, inj := a.inj, counters := a.counters, streams := a.streams, patch := a.patch,
           stages := a.stages, anchorCache := a.anchorCache, ags := a.ags, phaseAt := a.phaseAt,
           mu := { a.mu with ce := b.mu.ce, swept := b.mu.swept, winFaults := b.mu.winFaults, ue := b.mu.ue, discard := b.mu.discard },
           seq := a.seq, chans := a.chans,
           combqs := a.combqs, spill := a.spill, signals := a.signals, bars := a.bars, sem := a.sem }

/-- The window descriptors of a tile move with it from one site to another (R191). -/
def State.moveWindows (s : State) (a b : Nat) : State :=
  if a = b then s
  else
    let w := (s.site a).mu.windows
    (s.modSite a fun x => { x with mu := { x.mu with windows := [] } }).modSite b fun x => { x with mu := { x.mu with windows := w } }

/-- Move tile `k` of region `g` to site `q` (R70): `copy` copies what the old site holds; the old site becomes `st`. -/
def State.moveTo (s : State) (g k q : Nat) (copy : Bool) (st : SiteSt) : State :=
  let p := (Tbl.get {} (s.region g).tiles k : TileEnt).site
  let old := s.site (siteKey g p)
  let s := if copy then s.modSite (siteKey g q) (moveTile old) else s.moveWindows (siteKey g p) (siteKey g q)
  let s := s.modSite (siteKey g p) fun x => { x with st, tile := 0, mu := { x.mu with windows := [] } }
  (s.newGen g).placeAt g k q false

/-- Choose `n` distinct elements of a list by a code: every choice in every order has a code (R71, assumption 16). -/
def pickMap : Nat → Nat → List Nat → List Nat
  | 0, _, _ => []
  | n + 1, code, good =>
    match good with
    | [] => []
    | g :: gs =>
      let i := code % (gs.length + 1)
      ((g :: gs).getD i g) :: pickMap n (code / (gs.length + 1)) ((g :: gs).eraseIdx i)

/-- The site states that the placer reads: sites in `SPARE`, `VIGIL` or `TILE` are good ones (R76). -/
def State.placerStates (s : State) (g : Nat) : List SiteSt :=
  (List.range 144).map fun p =>
    let st := (s.site (siteKey g p)).st
    if st ∈ [SiteSt.tile, .vigil] then SiteSt.spare else st

/-- The map that the placer builds for region `g` (R71, R76): a function of the Ordo digest, the Ernex version and the site states alone. -/
def State.placerMap (s : State) (g : Nat) : List Nat :=
  let sts := s.placerStates g
  pickMap 128 (Config.placerCode (s.ordoDigest ((s.partOfRegion g).getD 16)) s.fw.1 sts)
    ((List.range 144).filter fun p => sts.getD p .defect == .spare)

/-- Whether tile `k` of a region must be filled at its new site: a job is bound, and the tile stands on no working site (R310, R312). -/
def State.needsFill (s : State) (g k : Nat) : Bool :=
  let e : TileEnt := Tbl.get {} (s.region g).tiles k
  (match s.partOfRegion g with
    | some p => (s.job p).isSome
    | none => false) && (s.region g).placed && (s.site (siteKey g e.site)).st != .tile

/-- The site that a repair fills, under a new map; fills of `ks` that no repair holds yet follow (R76). A fill that a full placement
overtakes goes on at the tile's new site (DESIGN CHOICE, log 92). -/
def refill (rs : List Repair) (map ks : List Nat) : List Repair :=
  (rs.map fun r => match r with
    | .fill k p n f => .fill k (map.getD k p) n f
    | .full => .full) ++
    (ks.filter fun k => !rs.any fun r => match r with
      | .fill k' _ _ _ => k' == k
      | .full => false).map fun k => .fill k (map.getD k 144) 0 false

/-- Put a map of region `g` into force, one update (R69, R76): tiles that need a fill stand `FILLING`, windows move with their tiles. -/
def State.putMap (s : State) (g : Nat) (map : List Nat) : State :=
  let s0 := s
  let fills := (List.range 128).filter (s0.needsFill g)
  let s := (s.modSites (sitesOfRegion g) fun _ x =>
    let x := if x.st ∈ [SiteSt.tile, .vigil, .filling] then { x with st := .spare, tile := 0 } else x
    { x with mu := { x.mu with windows := [] } }).newGen g
  let old := fun (k : Nat) => (Tbl.get {} (s0.region g).tiles k : TileEnt)
  let s := map.zipIdx.foldl (fun (s : State) e => s.modSite (siteKey g e.1) fun x =>
    { x with st := if fills.contains e.2 then .filling else .tile, tile := e.2,
             mu := { x.mu with windows := if (s0.region g).placed then (s0.site (siteKey g (old e.2).site)).mu.windows else [] } }) s
  s.modRegion g fun r =>
    { r with tiles := map.zipIdx.foldl (fun t e => Tbl.set {} e.2
               { site := e.1, moving := fills.contains e.2,
                 gen := if (old e.2).site = e.1 ∧ r.placed then (old e.2).gen else r.gen } t) r.tiles,
             placed := true, fences := 0, repairs := refill r.repairs map fills, pairs := [], targets := [], loaded := [] }

/-- Place every tile of region `g` on its good sites and rebuild the routes of the region (R71, R76). Answers false, and changes nothing,
when no valid map within the provisioned lengths is found. -/
def State.fullPlace (s : State) (g : Nat) : State × Bool :=
  let map := s.placerMap g
  if map.length = 128 then
    let s' := s.putMap g map
    match s.partOfRegion g with
    | none => (s', true)
    | some p => match s'.reroute p g with
      | (s', true) => (s', true)
      | (_, false) => (s, false)
  else (s, false)

/-- `ROUTE_UNPLACEABLE`: the region is then treated as exhausted (R76). -/
def State.unplaceable (s : State) (g : Nat) : State :=
  let p := s.partField (siteKey g 0)
  let s := (s.report 0x0309 5 p g []).event 0x0505 p [(8, g)]
  (s.modRegion g fun r => { r with exhausted := true }).spareEvents g

/-- A full placement of a region, or its failure (R76). -/
def State.placeRegion (s : State) (g : Nat) : State :=
  match s.fullPlace g with
  | (s', true) => s'
  | (s', false) => s'.unplaceable g

/-- Place the regions of a partition afresh, and build the physical paths of its Ordo (R71, R76): a region whose routes find no valid
path is unplaceable. -/
def State.placePart (s : State) (p : Nat) : State :=
  let s := s.modPart p fun x => { x with paths := [] }
  let s := ((s.regionsOf p).filter fun g => (s.region g).logic != .dark).foldl (fun (s : State) g => s.placeRegion g) s
  let s := s.buildPaths p
  (s.unroutedRegions p).foldl (fun (s : State) g => s.unplaceable g) s

/-- Whether the job of partition `p` carries `TIMING_DATA`. -/
def State.timingJob (s : State) (p : Nat) : Bool :=
  match s.job p with
  | some j => j.timingData
  | none => false

/-- Sites of a region in `SPARE` or `VIGIL`, ascending (R295). -/
def State.vigilPool (s : State) (g : Nat) : List Nat :=
  (List.range 144).filter fun p => (s.site (siteKey g p)).st ∈ [SiteSt.spare, .vigil]

/-- The depth E that a choice of Vigil sites gives a region (R295); 0 for a job that carries `TIMING_DATA` (R296). -/
def State.vigilChoice (s : State) (g : Nat) : Nat :=
  if s.timingJob ((s.partOfRegion g).getD 16) then 0 else min (s.region g).vigilD (s.vigilPool g).length

/-- The Vigil sites of a region that stand for rotation: those of the last choice that repair has not claimed, without both sites of each
mismatched pair (R295, R296). -/
def State.vigilRota (s : State) (g : Nat) : List Nat :=
  let pairSites := (s.region g).pairs.flatMap fun x => [x.2.1, x.2.2.1]
  (s.sitesIn g .vigil).filter fun q => !pairSites.contains q

/-- The effective depth E of a region (R295): between gates the choice stands, and it falls when repair claims a `VIGIL` site. -/
def State.vigilE (s : State) (g : Nat) : Nat :=
  if s.timingJob ((s.partOfRegion g).getD 16) then 0 else (s.vigilRota g).length

/-- Choose the `VIGIL` sites of a region afresh (R295): the E of lowest index; the rest is `SPARE`; no new generation (R69). -/
def State.vigilSelect (s : State) (g : Nat) : State :=
  let pool := s.vigilPool g
  let e := s.vigilChoice g
  ((pool.zipIdx).foldl (fun s x => s.modSite (siteKey g x.1) fun y =>
    { y with st := if x.2 < e then .vigil else .spare, tile := if x.2 < e then y.tile else 0 }) s).modRegion g fun r => { r with loaded := [] }

/-- The rotation targets of a region's Vigil sites for step `step` (R296): (site index, local tile). Sites of a mismatched
pair take none and do not count. -/
def State.vigilTargets (s : State) (g p step : Nat) : List (Nat × Nat) :=
  let vs := s.vigilRota g
  let e := vs.length
  if s.timingJob p then []
  else vs.zipIdx.map fun x => (x.1, (e * step + x.2) % 128)

/-- The shadows of a release: rotation targets, both sites of each pair that a third site replaced on their mismatched tile, and the
shadow alone of a pair that has none (R296, R302, R304). -/
def State.shadowPlan (s : State) (g p step : Nat) : List (Nat × Nat) :=
  s.vigilTargets g p step ++ (s.region g).pairs.flatMap fun x =>
    match x.2.2.2 with
    | some _ => [(x.2.1, x.1), (x.2.2.1, x.1)]
    | none => [(x.2.2.1, x.1)]

/-- Take the targets of a release (R296, R302). -/
def State.vigilAssign (s : State) (g p step : Nat) : State :=
  let all := s.shadowPlan g p step
  let s := all.foldl (fun s x => s.modSite (siteKey g x.1) fun y => { y with tile := x.2 }) s
  s.modRegion g fun r => { r with targets := all }

/-- The Vigil sites of a region with a target. -/
def State.shadowsOf (s : State) (g k : Nat) : List Nat :=
  ((s.region g).targets.filter fun x => x.2 == k).map (·.1)

/-- Open or extend a history entry at a step release (R318). -/
def histAdd (tile role step : Nat) (h : List HistEnt) : List HistEnt :=
  match h with
  | e :: _ => if e.tile = tile ∧ e.role = role then h else ({ tile, role, fromStep := step } :: h).take 5
  | [] => [{ tile, role, fromStep := step }]

/-- The site status entry of R68 as a word. -/
def siteWord (x : Site) : Nat :=
  let st := match x.st with
    | .defect => 0
    | .fenced => 1
    | .tile => 2
    | .spare => 3
    | .vigil => 4
    | .filling => 5
    | .test => 6
    | .dark => 7
  st + 16 * (if x.st ∈ [SiteSt.tile, .vigil, .filling] then x.tile else 0) + 2048 * b1 x.untested + 4096 * x.faults

/-- The tile table entry of R67 as a word. -/
def tileWord (t : TileEnt) : Nat := t.site + 256 * b1 t.moving + 65536 * t.gen.toNat

end Sys2Proof.Machine
end

