-- ==== Sys2Proof/Machine/Pages.lean ====
section
/-! DEFINITION. DRAM pages: the Page Map and its journal, allocation, retirement and migration, what a read of a codeword meets, and refused
accesses (12 R379 to R402, 13 R413, R414). -/

namespace Sys2Proof.Machine

/-! ## GF(2^128) and page digests (R413, R414) -/

/-- Multiply by x modulo P(x) = x^128 + x^7 + x^2 + x + 1 (R413). -/
def gfDouble (a : BitVec 128) : BitVec 128 := (a <<< 1) ^^^ (if bitAt a 127 then 0x87 else 0)

/-- Product in GF(2^128), over the bits of the second factor from bit `n` - 1 down (R413). -/
def gfMulFrom (a b : BitVec 128) : Nat → BitVec 128 → BitVec 128
  | 0, acc => acc
  | n + 1, acc => gfMulFrom a b n (gfDouble acc ^^^ (if bitAt b n then a else 0))

/-- Product in GF(2^128) (R413). -/
def gfMul (a b : BitVec 128) : BitVec 128 := gfMulFrom a b 128 0

/-- The key H (R413). -/
def gfKey : BitVec 128 := 0x8A51C3E72D940B6F51E2A7C83F069D4B

/-- The digest of blocks under page index `i` (R414). -/
def digestOf (i : Nat) (blocks : List (BitVec 128)) : BitVec 128 :=
  blocks.foldl (fun y m => gfMul (y ^^^ m) gfKey) (gfMul (BitVec.ofNat 128 (i % 2 ^ 32 + 2 ^ 32)) gfKey)

/-- The 16-byte blocks of a page given by its bytes (R413). -/
def blocksOf (rd : Nat → Byte) (n : Nat) : List (BitVec 128) :=
  (List.range n).map fun j => BitVec.ofNat 128 (ofLe ((List.range 16).map fun i => rd (16 * j + i)))

/-! ## Pages -/

/-- Bytes of a page. -/
abbrev pageBytes : Nat := 262144

/-- The Page Map entry of a logical page (R385). -/
def State.pageEnt (s : State) (l : Nat) : PageEnt := Tbl.get {} s.mem.map l

/-- Physical address of a logical page (R383). -/
def State.pageBase (s : State) (l : Nat) : Nat := pageBytes * (s.pageEnt l).ppn

/-- The digest (R414) of a page under index `i` whose granule `g` stands at byte `addr g` of the DRAM. -/
def State.gransDigest (s : State) (i : Nat) (addr : Nat → Nat) : BitVec 128 :=
  let cells : List Host.Cell := (List.range 64).flatMap fun g => (memGrab s.mem.dram (addr g) 4096).map fun x => (x.1 + 4096 * g, x.2)
  digestOf i (blocksOf (memRead cells) 16384)

/-- The DRAM address of a byte of the Steward's system area (R386), by page of the area and offset: none where the page is lost, its channel is
not `UP`, or the codeword reads uncorrectable. -/
def State.sysAddr (s : State) (i off : Nat) : Option Nat :=
  match s.mem.system[i]? with
  | none => none
  | some l =>
    let e := s.pageEnt l
    let a := pageBytes * e.ppn + off
    if e.kind = .system ∧ (s.chan (e.ppn / 1048576 % 16)).st = .up ∧ ¬ s.mem.bad.contains (a / 64) then some a else none

/-- Whether a byte of a part of the system area that a table of State holds can be read (R328, R386, R387): while the Steward has mapped no
system pages the tables stand alone (log 132). -/
def State.sysReads (s : State) (i off : Nat) : Bool := s.mem.system.isEmpty || (s.sysAddr i off).isSome

/-- Whether the journal's copy of a Page Map entry, 8 bytes in the 512 pages that follow the log ring, the Harvest store and its annex, can be
read (R387). -/
def State.journalReads (s : State) (l : Nat) : Bool := s.sysReads (578 + l / 32768) (8 * (l % 32768))

/-- Whether the record at a position of the log ring, 64 bytes in the first 256 pages of the area, can be read (R328). -/
def State.ringReads (s : State) (pos : Nat) : Bool := s.sysReads (pos / 4096) (64 * (pos % 4096))

/-- Write a Page Map entry: the journal first, then the map (R387). -/
def State.setPage (s : State) (l : Nat) (e : PageEnt) : State :=
  { s with mem := { s.mem with journal := Tbl.set {} l e s.mem.journal, map := Tbl.set {} l e s.mem.map } }

/-- While a page is migrated, what has just been written to the blocks already copied of the old page goes to the new one too (R395). -/
def State.migBoth (s : State) (a n : Nat) : State :=
  s.mem.mig.foldl (fun (s : State) (e : Nat × Option Migration) => match e.2 with
    | none => s
    | some m =>
      let o := pageBytes * m.oldPpn
      let lo := max a o
      let len := min (a + n) (o + 4096 * m.done) - lo
      if len = 0 then s
      else { s with mem := { s.mem with dram := memBlit s.mem.dram (pageBytes * m.newPpn + (lo - o)) len (memGrab s.mem.dram lo len) } }) s

/-- The codewords written whole in a range read correctly again (R380). -/
def Mem.mended (m : Mem) (a n : Nat) : Mem := { m with bad := m.bad.filter fun c => ¬ (a ≤ 64 * c ∧ 64 * c + 64 ≤ a + n) }

/-- Replace a range of DRAM. -/
def State.dramBlit (s : State) (a n : Nat) (r : List Host.Cell) : State :=
  ({ s with mem := ({ s.mem with dram := memBlit s.mem.dram a n r }).mended a n }).migBoth a n

/-- Copy a range of DRAM. -/
def State.dramCopy (s : State) (dst src n : Nat) : State := s.dramBlit dst n (memGrab s.mem.dram src n)

/-- The pieces of a range that each lie in one codeword: (offset, length). -/
def pieces (off n : Nat) : List (Nat × Nat) :=
  ((List.range (n / 64 + 2)).map fun i =>
    let lo := max off (64 * (off / 64 + i))
    (lo, min (off + n) (64 * (off / 64 + i + 1)) - lo)).filter fun x => x.2 != 0

/-- Write bytes into DRAM. -/
def State.dramWrite (s : State) (a : Nat) (bs : List Byte) : State :=
  ({ s with mem := ({ s.mem with dram := memWriteN s.mem.dram a bs }).mended a bs.length }).migBoth a bs.length

/-- Channel of a physical page (12 R382): PPN bits 23:20. -/
def ppnChan (ppn : Nat) : Nat := ppn / 1048576 % 16

/-- Whether a range of DRAM holds a codeword that reads uncorrectable. -/
def State.dramBad (s : State) (a n : Nat) : Bool :=
  s.mem.bad.any fun c => decide (64 * c < a + n ∧ a < 64 * c + 64)

/-- The first `n` numbers from `l` on, of at most `fuel`, that pass a test. -/
def takeFree (ok : Nat → Bool) : Nat → Nat → Nat → List Nat
  | 0, _, _ => []
  | _, _, 0 => []
  | fuel + 1, l, n + 1 => if ok l then l :: takeFree ok fuel (l + 1) n else takeFree ok fuel (l + 1) (n + 1)

/-- The first number from `l` on, of at most `fuel`, that passes a test. -/
def firstFree (ok : Nat → Bool) : Nat → Nat → Option Nat
  | 0, _ => none
  | fuel + 1, l => if ok l then some l else firstFree ok fuel (l + 1)

/-- The first free physical page of an `UP` channel: neither in use, nor awaiting its zeros, nor retired (R388). -/
def State.chanFree (s : State) (ch : Nat) : Option Nat :=
  if (s.chan ch).st = .up then
    firstFree (fun p => !(s.mem.used.contains p || s.mem.zeroing.contains p || (s.chan ch).retired.contains p)) ((s.chan ch).capacity * 4096)
      (1048576 * ch)
  else none

/-- Kept pages on a channel (R389). -/
def State.keptCount (s : State) (ch : Nat) : Nat :=
  (s.mem.map.filter fun e => e.2.kept && e.2.kind != .unmapped && ppnChan e.2.ppn == ch).length

/-- The free page of a port die to which a page migrates: that of a channel where a kept page keeps the bound of R389. -/
def State.migFree (s : State) (half : Nat) (e : PageEnt) : Option Nat :=
  (List.range 8).findSome? fun c =>
    let ch := 8 * half + c
    if e.kept ∧ ppnChan e.ppn ≠ ch ∧ 262144 ≤ s.keptCount ch then none else s.chanFree ch

/-- The next free page of a port die, channels with free pages in rotation (R388): the `n`-th page of an allocation. -/
def State.nextFree (s : State) (half n : Nat) : Option Nat :=
  let free := (List.range 8).filterMap fun c => s.chanFree (8 * half + c)
  free[n % max 1 free.length]?

/-- The first `n` free logical pages of a half from `from'` on, outside the HDM range when `out` (R36). -/
def State.freeLogical (s : State) (half from' n : Nat) (out : Bool) : List Nat :=
  let hdmLo := s.hub.config.hdmPageBase
  let hdmN := s.hub.config.hdmSize / pageBytes
  let lo := max from' (8388608 * half)
  takeFree (fun l => (s.pageEnt l).kind == .unmapped && !(out && decide (hdmLo ≤ l ∧ l < hdmLo + hdmN))) (8388608 * (half + 1) - lo) lo n

/-- Map one logical page to a free zeroed physical page. -/
def State.mapPage (s : State) (l owner : Nat) (kind : PageKind) (kept : Bool) (n : Nat) : Option State :=
  match s.nextFree (l / 8388608) n with
  | none => none
  | some p =>
    let s := s.setPage l { ppn := p, owner, kind, kept }
    some { s with mem := { s.mem with used := p :: s.mem.used } }

/-- Map logical pages one after another; none when the pool is too small (R388). -/
def State.mapPages (s : State) (ls : List Nat) (owner : Nat) (kind : PageKind) (kept : Bool) : Option State :=
  (ls.zipIdx).foldl (fun o x => match o with
    | none => none
    | some s => s.mapPage x.1 owner kind kept x.2) (some s)

/-- How many free physical pages a port die has on its `UP` channels (R384, R388). -/
def State.freeCount (s : State) (half : Nat) : Nat :=
  ((List.range 8).map fun c =>
    let ch := 8 * half + c
    let x := s.chan ch
    let gone : List Nat := s.mem.used ++ s.mem.zeroing ++ x.retired.filter fun p => !(s.mem.used.contains p || s.mem.zeroing.contains p)
    if x.st = .up then x.capacity * 4096 - (gone.filter fun p => ppnChan p == ch && decide (p % 1048576 < x.capacity * 4096)).length else 0).sum

/-- Allocate `n` pages wherever there is room, outside the HDM range when `out`: each half takes as many as it has physical pages for
(R30, R36, R384). -/
def State.allocPages (s : State) (n owner : Nat) (kind : PageKind) (kept out : Bool) : Option (State × List Nat) :=
  let ls := (s.freeLogical 0 0 (min n (s.freeCount 0)) out ++ s.freeLogical 1 0 (min n (s.freeCount 1)) out).take n
  if ls.length < n then none
  else match s.mapPages ls owner kind kept with
    | some s' => some (s', ls)
    | none => none

/-- `UNIT` of a physical page (R323, R402). -/
def ddrUnit (ppn : Nat) : Nat := ppnChan ppn + 16 * ppn

/-- The port die of a physical or logical page (R382, R384). -/
def pageDie (n : Nat) : Nat := n / 8388608 % 2

/-- A physical page leaves service: it is retired for the power cycle and entered in the memory defect ledger (R395, R397). -/
def State.retirePpn (s : State) (ppn : Nat) : State :=
  let ch := ppnChan ppn
  let e := ((s.chan ch).serial, ch, ppn % 1048576)
  let s := s.modChan ch fun x => { x with retired := if x.retired.contains ppn then x.retired else ppn :: x.retired }
  let s := { s with mem := { s.mem with used := s.mem.used.filter (· != ppn), zeroing := s.mem.zeroing.filter (· != ppn) } }
  if s.flash.memLedger.contains e then s
  else if s.flash.memLedger.length < 65536 then { s with flash := { s.flash with memLedger := s.flash.memLedger ++ [e] } }
  else s.event 0x0704 0xFF [(8, ch)]

/-- A logical page that is unmapped leaves its migration: the page it was copied to awaits zeroing (R395). -/
def State.dropMig (s : State) (l : Nat) : State :=
  let s := { s with mem := { s.mem with migWait := s.mem.migWait.filter fun w => w.1 != l, migStopped := s.mem.migStopped.filter (· != l) } }
  match Tbl.get none s.mem.mig (pageDie l) with
  | some (m : Migration) =>
    if m.page = l then
      { s with mem := { s.mem with mig := Tbl.set none (pageDie l) none s.mem.mig, used := s.mem.used.filter (· != m.newPpn),
                                   zeroing := s.mem.zeroing ++ [m.newPpn] } }
    else s
  | none => s

/-- The cause for which a page is being retired (R395, R402). -/
def State.migCause (s : State) (l : Nat) : Nat :=
  match s.mem.migWait.find? fun w => w.1 == l with
  | some w => w.2
  | none => match Tbl.get none s.mem.mig (pageDie l) with
    | some (m : Migration) => if m.page = l then m.cause else 2
    | none => 2

/-- Unmap pages: their physical pages await zeroing (R388); one that is being retired is free now, and retired at once (R395). -/
def State.unmapPages (s : State) (ls : List Nat) : State :=
  ls.foldl (fun (s : State) l =>
    let e := s.pageEnt l
    if e.kind = .unmapped then s
    else
      let cause := s.migCause l
      let s := (s.setPage l {}).dropMig l
      if e.retired then
        (s.retirePpn e.ppn).report 0x0604 4 0xFF (ddrUnit e.ppn) [(8, cause), (8, 2), (16, 0), (24, 0), (8, 0), (24, l)]
      else { s with mem := { s.mem with used := s.mem.used.filter (· != e.ppn), zeroing := s.mem.zeroing ++ [e.ppn] } }) s

/-- Free the pages of a restore and forget it (R388, R424). -/
def State.dropRestore (s : State) (p : Nat) : State :=
  let r := (s.part p).restore
  (s.unmapPages (r.sideA.map (·.2) ++ r.sideB.map (·.2) ++ r.jobPages)).modPart p fun x => { x with restore := {} }

/-! ## Units and records (R401, R402) -/

/-- `UNIT` of a channel without a page (R402). -/
def chanUnit4 (ch : Nat) : Nat := ch + 16 * 0xFFFFFF
/-- `UNIT` of a Page Map entry (R402): its index is the logical page (DEDUCED, log 163). -/
def mapUnit (l : Nat) : Nat := (if l < 8388608 then 0 else 8) + 16 * l

/-- Add to a counter of a channel (R401): `CE_COUNT`, `UE_COUNT`, `SCRUB_PASSES`, `RMW_COUNT`, `REFUSED`. -/
def State.mcCount (s : State) (ch idx : Nat) : State :=
  let x := s.chan ch
  let pick : Ctr48 := match idx with
    | 0 => x.ceCount
    | 1 => x.ueCount
    | 2 => x.scrubPasses
    | 3 => x.rmwCount
    | _ => x.refused
  let (c, o) := ctrAdd pick 1
  (s.modChan ch fun x => match idx with
    | 0 => { x with ceCount := c }
    | 1 => { x with ueCount := c }
    | 2 => { x with scrubPasses := c }
    | 3 => { x with rmwCount := c }
    | _ => { x with refused := c }).ovfIf o (0x1D000000 + ch) idx

/-! ## Retirement and migration (R395 to R397) -/

/-- A port die with no migration starts the oldest one that waits, when the pool has a zeroed page of its half (R395) that the page may take. -/
def State.migStart (s : State) (die : Nat) : State :=
  if (Tbl.get none s.mem.mig die).isSome then s
  else match s.mem.migWait.find? fun w => pageDie w.1 == die with
  | none => s
  | some w =>
    match s.migFree die (s.pageEnt w.1) with
    | none => s
    | some n =>
      let m : Migration := { page := w.1, oldPpn := (s.pageEnt w.1).ppn, newPpn := n, cause := w.2 }
      { s with mem := { s.mem with mig := Tbl.set none die (some m) s.mem.mig, used := n :: s.mem.used,
                                   migWait := s.mem.migWait.filter fun x => x != w } }

/-- A migration whose new page leaves service gives it up and waits for another page (R395). -/
def State.migLoses (s : State) (ppn : Nat) : State :=
  [0, 1].foldl (fun (s : State) die => match Tbl.get none s.mem.mig die with
    | some (m : Migration) =>
      if m.newPpn = ppn then
        { s with mem := { s.mem with mig := Tbl.set none die none s.mem.mig, migWait := (m.page, m.cause) :: s.mem.migWait } }
      else s
    | none => s) s

/-- A physical page starts retirement (R395): a free page is retired at once, a mapped page is migrated. A page to which a migration copies
is one that no entry names yet: it is retired at once, and the migration takes another (DEDUCED, log 163). -/
def State.startRetire (s : State) (ppn cause : Nat) : State :=
  if (s.chan (ppnChan ppn)).retired.contains ppn then s
  else match s.mem.map.find? fun e => e.2.kind != .unmapped && e.2.ppn == ppn with
  | some (l, e) =>
    if e.retired then s
    else
      let s := s.setPage l { e with retired := true }
      ({ s with mem := { s.mem with migWait := s.mem.migWait ++ [(l, cause)] } }).migStart (pageDie l)
  | none =>
    (((s.migLoses ppn).retirePpn ppn).report 0x0604 4 0xFF (ddrUnit ppn) [(8, cause), (8, 2), (16, 0), (24, 0), (8, 0), (24, 0)]).migStart
      (pageDie ppn)

/-! ## ECC (R378 to R381, R393) -/

/-- A channel that was `UP` goes `OFFLINE` (R378). -/
def State.chanOffline (s : State) (ch cause : Nat) : State :=
  if (s.chan ch).st ≠ .up then s
  else
    let s := s.modChan ch fun x => { x with st := .offline, cause }
    (s.report 0x0603 4 0xFF (chanUnit4 ch) [(8, cause), (8, 0), (8, (s.chan ch).rate)]).event 0x0702 0xFF [(8, ch), (8, cause)]

/-- A codeword of a physical address is corrected (R379, R395): the record, the count, and retirement at the threshold. -/
def State.ddrCe (s : State) (a src : Nat) : State :=
  let ppn := a / pageBytes
  let (v, s) := s.draw 16
  let ts := s.now :: (Tbl.get [] s.mem.ceTimes ppn).filter fun f => decide (s.now < f + 86400 * ftSec)
  let s := { s with mem := { s.mem with ceTimes := Tbl.set [] ppn ts s.mem.ceTimes } }
  let s := s.report 0x0601 4 0xFF (ddrUnit ppn)
    [(16, a % pageBytes / 64), (8, v.toNat % 2), (8, v.toNat / 2 % 10), (8, src), (8, min 255 ts.length)]
  let s := s.mcCount (ppnChan ppn) 0
  if s.mem.threshold ≤ ts.length then s.startRetire ppn 1 else s

/-- A codeword of a physical address reads uncorrectable (R378, R393, R395): the record, the count, a channel that returns more than
64 within a second goes `OFFLINE`, and the page starts retirement. `page` is the tally page index of a fill (R316, R402). -/
def State.ddrUe (s : State) (a src l part : Nat) (page : Nat := 0xFFFFFFFF) : State :=
  let ppn := a / pageBytes
  let ch := ppnChan ppn
  let (v, s) := s.draw 16
  let s := s.report 0x0602 4 part (ddrUnit ppn)
    [(16, a % pageBytes / 64), (8, v.toNat % 2), (8, src), (24, l), (8, (s.pageEnt l).owner), (32, page)]
  let s := (s.modChan ch fun x => { x with ueTimes := s.now :: x.ueTimes.filter fun f => decide (s.now < f + ftSec) }).mcCount ch 1
  let s := if 64 < (s.chan ch).ueTimes.length then s.chanOffline ch 6 else s
  s.startRetire ppn 2

/-- The codeword of an address reads uncorrectable from now on. -/
def State.markBad (s : State) (a : Nat) : State :=
  if s.mem.bad.contains (a / 64) then s else { s with mem := { s.mem with bad := (a / 64) :: s.mem.bad } }

/-- A codeword whose error spans several devices and is miscorrected (R379): what the correction writes back is a free value. -/
def State.miscorrect (s : State) (a : Nat) : State :=
  let (v, s) := s.draw 512
  s.dramWrite (64 * (a / 64)) (leBytes 64 v.toNat)

/-- What a read of a codeword meets (`ecc` 0 nothing, 1 corrected, 2 uncorrectable, 3 miscorrected), and whether it is uncorrectable. -/
def State.eccRead (s : State) (a ecc src l part : Nat) : State × Bool :=
  let s := if ecc = 2 then s.markBad a else s
  if s.mem.bad.contains (a / 64) then (s.ddrUe a src l part, true)
  else if ecc = 3 then ((s.miscorrect a).ddrCe a src, false)
  else if ecc = 1 then (s.ddrCe a src, false)
  else (s, false)

/-- The codewords of a range of DRAM that read uncorrectable (R379). -/
def State.badIn (s : State) (a n : Nat) : List Nat := s.mem.bad.filter fun c => decide (64 * c < a + n ∧ a < 64 * c + 64)

/-- A read of a range of DRAM by the device itself, in a page (R379, R393): every codeword that reads uncorrectable is recorded. -/
def State.dieRead (s : State) (a n src l part : Nat) : State := (s.badIn a n).foldl (fun (s : State) c => s.ddrUe (64 * c) src l part) s

/-- A write of bytes to a page by the device itself, codeword by codeword (R380): a partial one whose codeword reads uncorrectable is not
performed. -/
def State.dieWrite (s : State) (a : Nat) (bs : List Byte) (l part : Nat) : State :=
  (pieces a bs.length).foldl (fun (s : State) x =>
    if x.2 = 64 then s.dramWrite x.1 (slice bs (x.1 - a) x.2)
    else
      let s := s.mcCount (ppnChan (x.1 / pageBytes)) 3
      if s.mem.bad.contains (x.1 / 64) then s.ddrUe x.1 3 l part else s.dramWrite x.1 (slice bs (x.1 - a) x.2)) s

/-! ## Refused accesses (R386, R402) -/

/-- A page access: logical page, offset, length, write or read; the source code of R402 (0 tile DMA, 1 remote, 2 host, 3 Steward),
its device and partition. -/
structure PageAcc where
  addr : Nat := 0
  len : Nat := 0
  write : Bool := false
  src : Nat := 0
  dev : Nat := 0
  part : Nat := 0
  deriving DecidableEq, Repr

/-- The logical page of an access (R383). -/
abbrev PageAcc.page (x : PageAcc) : Nat := bitsN x.addr 18 24

/-- Record a refused access (R386, R401, R402). -/
def State.pageRefuse (s : State) (x : PageAcc) (cause : Nat) : State :=
  let e := s.pageEnt x.page
  let none' := e.kind == .unmapped
  let s := s.report 0x0608 4 (if x.part < 16 then x.part else 0xFF) (if none' then chanUnit4 (8 * pageDie x.page) else ddrUnit e.ppn)
    [(8, cause), (8, x.src), (8, b1 x.write), (8, 0), (16, x.dev), (16, 0), (24, x.page)]
  if none' then s else s.mcCount (ppnChan e.ppn) 4

/-- Whether the channel of a logical page's physical page takes accesses (R378). -/
def State.pageUp (s : State) (l : Nat) : Bool := (s.chan (ppnChan (s.pageEnt l).ppn)).st == .up

/-- An access of the Steward or the Calends to a page of a channel out of service is refused and recorded (R378, R402). -/
def State.downRefuse (s : State) (l : Nat) (write : Bool) : State :=
  s.pageRefuse { addr := pageBytes * l, len := 64, write, src := 3, dev := s.hub.devId, part := (s.pageEnt l).owner } 5

end Sys2Proof.Machine
end

