-- ==== Sys2Proof/Machine/Tally.lean ====
section
/-! DEFINITION. DRAM pages, the two sides of tally pages, pre-images, digests, the Epact record and the commit ledger
(01 R21 to R30, 12 R379 to R388, 13 R413 to R419). -/

namespace Sys2Proof.Machine

/-! ## Sides of tally pages (R21, R22) -/

/-- The logical page of a side of a tally page. -/
def Job.sidePage (j : Job) (page : Nat) (side : Bool) : Nat := if side then Tbl.get 0 j.sideB page else Tbl.get 0 j.sideA page

/-- DRAM address of a granule on a side. -/
def State.granAddr (s : State) (j : Job) (page gran : Nat) (side : Bool) : Nat :=
  s.pageBase (j.sidePage page side) + 4096 * gran

/-- The side that holds the sealed copy of a granule (R21). -/
def Job.liveSide (j : Job) (page gran : Nat) : Bool := bitAt (Tbl.get (0 : BitVec 64) j.live page) gran

/-- Whether a granule is dirty (R22). -/
def Job.isDirty (j : Job) (page gran : Nat) : Bool := bitAt (Tbl.get (0 : BitVec 64) j.dirty page) gran

/-- The side that the step reads: non-live for dirty granules, live for the others (R22). -/
def Job.workSide (j : Job) (page gran : Nat) : Bool :=
  if j.isDirty page gran then !j.liveSide page gran else j.liveSide page gran

/-- Set a bit of a 64-bit mask. -/
def setBit (m : BitVec 64) (i : Nat) : BitVec 64 := m ||| (1#64 <<< i)

/-- Pages of the live mask table, and of the mask table, of a tally of `t` pages (R30). -/
def maskTablePages (t : Nat) : Nat := (8 * t + pageBytes - 1) / pageBytes

/-- Ledger pages of a tally (R30): the ring, the live mask table and the mask table. -/
def ledgerPages (t : Nat) : Nat := 2 + 2 * maskTablePages t

/-- The `i`-th page that a job holds beside its tally, while it is a log page: the ledger's pages come first, then the log reservation
(R27, R30). -/
def State.logPage (s : State) (j : Job) (i : Nat) : Option Nat :=
  match j.jobPages[i]? with
  | some l => if (s.pageEnt l).kind = .log then some l else none
  | none => none

/-- The page and the DRAM address of place `i` of a job's log reservation, 64 granules to a page (R26, R29). -/
def State.logAddr (s : State) (j : Job) (i : Nat) : Option (Nat × Nat) :=
  (s.logPage j (ledgerPages j.classes.length + i / 64)).map fun l => (l, s.pageBase l + 4096 * (i % 64))

/-- The first place of the log reservation that holds no pre-image (R26). -/
def Job.freeSlot (j : Job) : Nat :=
  (firstFree (fun i => !j.log.any fun x => x.slot == i) (j.log.length + 1) 0).getD 0

/-- Copy 4,096 bytes from one page to another inside the device (R22, R26): refused where either page's channel is out of service (R378), and
what reads uncorrectable is recorded and delivered as read (R393). -/
def State.granCopy (s : State) (p dst dstPage src srcPage : Nat) : State :=
  if ¬ s.pageUp srcPage then s.downRefuse srcPage false
  else if ¬ s.pageUp dstPage then s.downRefuse dstPage true
  else (s.dieRead src 4096 0 srcPage p).dramCopy dst src 4096

/-- Copy a pre-image back to the side that it was taken from (R26). -/
def State.putBack (s : State) (j : Job) (i : PreImage) : State :=
  match s.logAddr j i.slot with
  | some a => s.granCopy (s.pageEnt a.1).owner (s.granAddr j i.page i.gran i.side) (j.sidePage i.page i.side) a.2 a.1
  | none => s

/-- The pre-image of R26 before a step's first write to a retained granule: a copy of the non-live side in a log page. -/
def State.logPre (s : State) (p page gran : Nat) : State :=
  match s.job p with
  | none => s
  | some j =>
    match Tbl.get none j.flipped (64 * page + gran) with
    | none => s
    | some f =>
      if 2 ≤ j.depth ∧ j.step ≤ f + (j.depth - 1) ∧ ¬ j.isDirty page gran ∧
          ¬ j.log.any fun i => i.fresh && i.page == page && i.gran == gran then
        let side := !j.liveSide page gran
        let slot := j.freeSlot
        let s := match s.logAddr j slot with
          | some a => s.granCopy p a.2 a.1 (s.granAddr j page gran side) (j.sidePage page side)
          | none => s
        s.modJob p fun j => { j with log := { page, gran, side, slot, step := j.step, flip := f } :: j.log }
      else s

/-- A step's write to a tally granule begins: the pre-image of R26, then, for a first write that does not cover the granule,
the copy of the live granule, then the dirty bit (R22). -/
def State.touch (s : State) (p page gran : Nat) (whole : Bool) : State :=
  let s := s.logPre p page gran
  match s.job p with
  | none => s
  | some j =>
    let s := if j.isDirty page gran ∨ whole then s
      else s.granCopy p (s.granAddr j page gran (!j.liveSide page gran)) (j.sidePage page (!j.liveSide page gran))
        (s.granAddr j page gran (j.liveSide page gran)) (j.sidePage page (j.liveSide page gran))
    s.modJob p fun j => { j with dirty := Tbl.set 0 page (setBit (Tbl.get 0 j.dirty page) gran) j.dirty }

/-- Whether a step's writes to a granule reach its non-live side (R22, R378). -/
def State.granUp (s : State) (p page gran : Nat) : Bool := match s.job p with
  | some j => s.pageUp (j.sidePage page (!j.liveSide page gran))
  | none => false

/-- A write to a granule whose non-live side stands on a channel out of service is refused (R378). -/
def State.granRefuse (s : State) (p page gran : Nat) : State := match s.job p with
  | some j => s.downRefuse (j.sidePage page (!j.liveSide page gran)) true
  | none => s

/-- Write bytes (by offset) into a tally granule in the step. -/
def State.granWrite (s : State) (p page gran off : Nat) (bs : List Byte) : State :=
  if ¬ s.granUp p page gran then s.granRefuse p page gran
  else
    let s := s.touch p page gran (off == 0 && bs.length == 4096)
    match s.job p with
    | none => s
    | some j =>
      let side := !j.liveSide page gran
      s.dieWrite (s.granAddr j page gran side + off) bs (j.sidePage page side) p

/-- Carry 4,096 bytes (listed by offset) to a granule's non-live side. -/
def State.granCarry (s : State) (p page gran : Nat) (r : List Host.Cell) : State :=
  if ¬ s.granUp p page gran then s.granRefuse p page gran
  else
    let s := s.touch p page gran true
    match s.job p with
    | none => s
    | some j => s.dramBlit (s.granAddr j page gran (!j.liveSide page gran)) 4096 r

/-- What the step reads of a granule. -/
def State.granWork (s : State) (j : Job) (page gran : Nat) : List Host.Cell :=
  memGrab s.mem.dram (s.granAddr j page gran (j.workSide page gran)) 4096

/-- A read of a granule's sealed copy by the device for the coming attempt (R54, R378, R393): refused on a channel out of service, and what
reads uncorrectable is consumed by that attempt. -/
def State.granLoad (s : State) (p page gran : Nat) : State := match s.job p with
  | none => s
  | some j =>
    let side := j.liveSide page gran
    let l := j.sidePage page side
    let a := s.granAddr j page gran side
    if ¬ s.pageUp l then s.downRefuse l false
    else if (s.badIn a 4096).isEmpty then s
    else (s.dieRead a 4096 0 l p).modJob p fun j => { j with loadUe := true }

/-- The sealed copy of a granule. -/
def State.granSealed (s : State) (j : Job) (page gran : Nat) : List Host.Cell :=
  memGrab s.mem.dram (s.granAddr j page gran (j.liveSide page gran)) 4096

/-- Digest of a tally page composed granule by granule from the sides that `side` names (R415). -/
def State.pageDigest (s : State) (j : Job) (page : Nat) (side : Nat → Bool) : BitVec 128 :=
  s.gransDigest page fun g => s.granAddr j page g (side g)

/-- The working digests: those of dirty pages anew, the others as sealed (R416). -/
def State.workDigests (s : State) (j : Job) : Tbl (BitVec 128) :=
  (List.range j.classes.length).foldl (fun t i =>
    if Tbl.get 0 j.dirty i = (0 : BitVec 64) then t else Tbl.set 0 i (s.pageDigest j i (j.workSide i)) t) j.digSealed

/-- The combined digest over the pages that `f` admits (R417). -/
def combine (classes : List Nat) (t : Tbl (BitVec 128)) (f : Nat → Bool) : BitVec 128 :=
  (classes.zipIdx.filter fun x => f x.1).foldl (fun a x => a ^^^ Tbl.get 0 t x.2) 0

/-- The combined state digest (R417). -/
def stateDigest (classes : List Nat) (t : Tbl (BitVec 128)) : BitVec 128 := combine classes t fun _ => true
/-- The combined weight digest (R417). -/
def weightDigest (classes : List Nat) (t : Tbl (BitVec 128)) : BitVec 128 := combine classes t fun c => c == 0

/-- The pages of a class, ascending. -/
def pagesOf (classes : List Nat) (c : Nat) : List Nat := (classes.zipIdx.filter fun x => x.1 == c).map (·.2)

/-- Write bytes at an offset of a class's pages taken in index order (R573). -/
def State.classWrite (s : State) (p c off : Nat) (bs : List Byte) : State :=
  match s.job p with
  | none => s
  | some j =>
    let page := (pagesOf j.classes c).getD (off / pageBytes) 0
    s.granWrite p page (off % pageBytes / 4096) (off % 4096) bs

/-- The 128-bit Epact record as a number (R418). -/
def epactNum (e : Epact) : Nat := e.draws.toNat + 2 ^ 64 * e.cursor.toNat + 2 ^ 112 * e.offset.toNat

/-- Number of granules set in masks. -/
def maskCount (t : Tbl (BitVec 64)) : Nat :=
  t.foldl (fun n e => n + ((List.range 64).filter fun i => bitAt e.2 i).length) 0

/-! ## The commit ledger (R29, R30) -/

/-- The 128 bytes of a ledger record (R29). -/
def recBytes (r : LedgerRec) : List Byte :=
  let st := match r.state with
    | .none => 0
    | .prepared => 1
    | .sealed => 2
    | .discarded => 3
  leBytes 8 r.step ++ leBytes 8 r.sealFt ++ leBytes 1 r.attempt ++ leBytes 1 st ++ leBytes 1 r.rootGroup ++
    leBytes 1 r.flags.toNat ++ leBytes 1 r.depth ++ leBytes 3 0 ++ leBytes 8 r.ordoId.toNat ++
    leBytes 16 r.stateDigest.toNat ++ leBytes 16 r.weightDigest.toNat ++ leBytes 16 (epactNum r.epact) ++
    leBytes 8 r.anchorPage ++ leBytes 4 r.flipped ++ leBytes 4 r.logPages ++ leBytes 16 r.prevDigest.toNat ++ leBytes 16 0

/-- Log pages of the step: 64 granules to a page, rounded up (R29). -/
def Job.logCount (j : Job) : Nat := ((j.log.filter (·.fresh)).length + 63) / 64

/-- The contents of a mask table, by byte offset: 8 bytes a tally page (R30). -/
def maskCells (t : Tbl (BitVec 64)) : List Host.Cell :=
  t.flatMap fun e => (leBytes 8 e.2.toNat).zipIdx.map fun x => (8 * e.1 + x.2, x.1)

/-- The contents of the record ring, by byte offset: 128 bytes a position (R30). -/
def ringCells (t : Tbl LedgerRec) : List Host.Cell :=
  t.flatMap fun e => (recBytes e.2).zipIdx.map fun x => (128 * e.1 + x.2, x.1)

/-- Fill `n` log pages of a job from the `first` on with contents given by byte offset. -/
def State.logFill (s : State) (j : Job) (first n : Nat) (cells : List Host.Cell) : State :=
  (List.range n).foldl (fun s i => match s.logPage j (first + i) with
    | some l => s.dramBlit (s.pageBase l) pageBytes (memGrab cells (pageBytes * i) pageBytes)
    | none => s) s

/-- The commit ledger in its log pages (R29, R30): the record ring, the live mask table, and the mask table of the prepared record, as the
job's tables hold them. -/
def State.ledgerOut (s : State) (p : Nat) : State :=
  match s.job p with
  | none => s
  | some j =>
    let n := maskTablePages j.classes.length
    ((s.logFill j 0 2 (ringCells j.ledger)).logFill j 2 n (maskCells j.live)).logFill j (2 + n) n (maskCells j.maskTable)

/-- The Page Map address of the first page of the anchor table, `ANCHOR_PAGE` (R29, R573). That page stands on two sides, and no rule says
which of them is named: the model names side A (DESIGN CHOICE, log 84). -/
def Job.anchorPage (j : Job) : Nat := pageBytes * j.sidePage ((pagesOf j.classes 2).getD 0 0) false

/-- Write the prepared record of the attempt at the next ring position, with the dirty masks (R29, R41). -/
def State.writePrepared (s : State) (p : Nat) : State :=
  match s.job p with
  | none => s
  | some j =>
    let dw := s.workDigests j
    let r : LedgerRec :=
      { step := j.step, sealFt := 0, attempt := j.attempt, state := .prepared, rootGroup := j.rootGroup,
        flags := BitVec.ofNat 8 (4 * b1 (decide (2 ≤ j.attempt)) + 8 * b1 j.timingData), depth := j.depth, ordoId := j.ordoId,
        stateDigest := stateDigest j.classes dw, weightDigest := weightDigest j.classes dw, epact := j.epact,
        anchorPage := j.anchorPage,
        flipped := maskCount j.dirty, logPages := j.logCount, prevDigest := j.lastSealed.stateDigest }
    (s.modJob p fun j =>
      { j with digWorking := dw, maskTable := j.dirty, prepared := some j.ledgerPos,
               ledger := Tbl.set {} j.ledgerPos r j.ledger, ledgerPos := (j.ledgerPos + 1) % 4096 }).ledgerOut p

/-- Mark the prepared record discarded (R30). -/
def Job.discardPrepared (j : Job) : Job :=
  match j.prepared with
  | none => j
  | some i => { j with prepared := none, maskTable := [],
                       ledger := Tbl.set {} i { (Tbl.get {} j.ledger i : LedgerRec) with state := .discarded } j.ledger }

/-- Copy the discarded attempt's pre-images back to their non-live sides and free them (R26). -/
def State.restorePre (s : State) (p : Nat) : State :=
  match s.job p with
  | none => s
  | some j =>
    let s := (j.log.filter (·.fresh)).foldl (fun s i => s.putBack j i) s
    s.modJob p fun j => { j with log := j.log.filter fun i => !i.fresh }

/-- The excess that the anchor records of an attempt hold for its spanning chunks (R39, R121). -/
def Job.spanExcess (j : Job) : Tbl Int :=
  j.anchors.foldl (fun t e => if bitAt e.2 30 then Tbl.set 0 e.1 (bitsN e.2.toNat 32 9 : Int) t else t) []

/-- The excess that a replay adds after an attempt is discarded (R39): an attempt that never closed still has it in its records, a closed one
left it with the job. -/
def Job.keptExcess (j : Job) : Tbl Int := if j.spanExcess.isEmpty then j.excess else j.spanExcess

/-- Discard the attempt: pre-images back, dirty masks clear, prepared record discarded, working values as sealed (R26, R54). -/
def State.discardAttempt (s : State) (p : Nat) : State :=
  ((s.restorePre p).modJob p fun j =>
    { j.discardPrepared with dirty := [], digWorking := j.digSealed, epact := j.epactSealed, excess := j.keptExcess,
                             anchors := j.anchorsSealed, chanWorking := j.chanSealed, contributed := [], timers := false }).ledgerOut p

end Sys2Proof.Machine
end

