-- ==== Sys2Proof/Machine/Flags.lean ====
section
/-! DEFINITION. The status words that census and the records read, computed from the state: site, fabric, memory-unit,
synchronisation and patch status, commit status, the identity registers and the site health object. -/

namespace Sys2Proof.Machine

/-- Every configurable unit of a tile (R154, R156), the switch outputs included. -/
def allUnits : List Nat :=
  [0x000] ++ (List.range 6).map (0x010 + ·) ++ (List.range 4).map (0x020 + ·) ++ (List.range 8).map (0x030 + ·) ++
    (List.range 8).map (0x040 + ·) ++ (List.range 3).map (0x050 + ·) ++ (List.range 32).map (0x060 + ·) ++
    (List.range 12).map (0x0C0 + ·) ++ (List.range 12).map (0x0D0 + ·) ++ (List.range 12).map (0x0E0 + ·)

/-- The sequencer's place among a site's units for R160 (R207): the model's own number, outside R154. -/
abbrev seqUnit : Nat := 0x0F0

/-- The units that switch: those of R154 and the sequencer. -/
def switchUnits : List Nat := allUnits ++ [seqUnit]

/-- The reset word of a unit: zero but for `LANE_MASK` of a vector stage (R113) and `SIGNAL` of a channel descriptor (R214). -/
def resetWord (u : Nat) : BitVec 512 :=
  if 0x010 ≤ u ∧ u ≤ 0x015 then BitVec.ofNat 512 (0xFFFFFFFF * 2 ^ 96)
  else if 0x060 ≤ u ∧ u ≤ 0x07F then BitVec.ofNat 512 (0xFF * 2 ^ 56) else 0

/-- A unit at its reset configuration. -/
def resetUnit (u : Nat) : UnitSt := { active := resetWord u, shadow := resetWord u, prev := resetWord u }

/-- A unit of a site. -/
def Site.unit (x : Site) (u : Nat) : UnitSt := Tbl.get (resetUnit u) x.units u

/-- Change a unit of a site. -/
def Site.setUnit (x : Site) (u : Nat) (y : UnitSt) : Site := { x with units := Tbl.set (resetUnit u) u y x.units }

/-- The lowest `CUR_EPOCH` of a site, as the next epoch of R156 orders them (R168). -/
def Site.epoch (x : Site) : BitVec 16 :=
  switchUnits.foldl (fun e u => if (x.unit u).epoch + 1 = e then (x.unit u).epoch else e) (x.unit 0).epoch

/-- Whether the configuration loader of a site is fetching a shadow (R157, R158, R168): every unit of the site is active at one epoch and
holds none, and the phase of the next epoch exists, with no flush, sweep or stop of the partition in the way. -/
def State.loadDue (s : State) (k : Nat) : Bool :=
  let x := s.site k
  match s.partOfRegion (keyRegion k) with
  | none => false
  | some p =>
    match (s.part p).ordo, s.job p with
    | some o, some j =>
      decide (x.st ∈ [SiteSt.tile, .vigil, .spare]) && !o.phases.isEmpty && j.st != .stopped && !(s.part p).halted &&
        !(s.part p).flushing && (s.part p).sweep.isNone && switchUnits.all fun u => (x.unit u).epoch == x.epoch && !(x.unit u).valid
    | _, _ => false

/-- `FAB_STATUS` (R168) of a site whose loader is fetching or not. -/
def Site.fabStatus (x : Site) (loading : Bool) : Nat :=
  x.epoch.toNat + 2 ^ 16 * (x.fabFaultUnit % 256) + 2 ^ 24 * x.fabFaultCause + 2 ^ 28 * b1 loading +
    2 ^ 32 * x.fabFaultEpoch.toNat + 2 ^ 48 * x.dupEve + 2 ^ 56 * x.drained

/-- Bits set in a mask of `n` bits. -/
def popCount (n w : Nat) : Nat := ((List.range n).filter fun i => bitOn w i).length

/-- `MU_STATUS` (R198). -/
def Site.muStatus (x : Site) : Nat :=
  b1 x.mu.swept + 2 * b1 x.mu.ue + 4 * b1 x.mu.discard + 8 * b1 (!x.mu.wbQueue.isEmpty) +
    2 ^ 4 * ((List.range 4).foldl (fun n i => n + 2 ^ i * b1 (Tbl.get {} x.ags i : AgSt).running) 0) +
    2 ^ 8 * x.mu.ce +
    2 ^ 16 * ((List.range 8).foldl (fun n i => n + 2 ^ i * b1 (Tbl.get {} x.mu.windows i : WinDesc).isOpen) 0) +
    2 ^ 24 * x.mu.winFaults + 2 ^ 32 * popCount 192 x.mu.dirty.toNat

/-- The code of a wait kind (R251). -/
def waitCode : WaitKind → Nat
  | .sigwait => 1
  | .sigwaitl => 2
  | .barrive => 3
  | .barwait => 4
  | .semwait => 5
  | .getw => 6
  | .recv => 7
  | .send => 8
  | .ephase => 9
  | .fence => 10

/-- The current wait of a sequencer and its context (R251): a handler's before the main context's. -/
def SeqSt.curWait (q : SeqSt) : Option (Wait × Nat) :=
  match q.hand.wait with
  | some w => some (w, q.ctx)
  | none => match q.main.wait with
    | some w => some (w, 0)
    | none => none

/-- `SYNC_STATUS` (R251) at FT `now` in a region that is a lender or not. -/
def Site.syncStatus (x : Site) (now : Nat) (lent : Bool) : Nat :=
  let w := x.seq.curWait
  (match w with
    | some (w, c) => waitCode w.kind + 2 ^ 5 * b1 w.long + 2 ^ 8 * (w.arg % 64) +
        2 ^ 32 * min 0xFFFFFF ((now - w.since) / ftUs) + 2 ^ 56 * c
    | none => 0) +
    2 ^ 4 * b1 x.seq.fast + 2 ^ 6 * b1 lent + 2 ^ 16 * x.sem.toNat

/-- `PATCH_STATUS` (R104). -/
def Site.patchStatus (x : Site) : Nat := b1 x.patch.intWrap + 2 * b1 x.patch.nanSeen

/-- The four status words of a site (object type 0x04). -/
def State.siteStatusBytes (s : State) (k : Nat) : List Byte :=
  let x := s.site k
  leBytes 8 (x.fabStatus (s.loadDue k)) ++ leBytes 8 x.muStatus ++ leBytes 8 (x.syncStatus s.now (s.region (keyRegion k)).lent) ++
    leBytes 8 x.patchStatus

/-- `WIN_DESC` as a word (R189). -/
def winWord (w : WinDesc) : Nat :=
  w.base + 2 ^ 20 * w.size + 2 ^ 40 * w.rights + 2 ^ 42 * b1 w.remote + 2 ^ 43 * b1 w.isOpen + 2 ^ 44 * w.owner +
    2 ^ 48 * w.key

/-- The site state code (R62). -/
def siteCode (st : SiteSt) : Nat :=
  match st with
  | .defect => 0
  | .fenced => 1
  | .tile => 2
  | .spare => 3
  | .vigil => 4
  | .filling => 5
  | .test => 6
  | .dark => 7

/-- The 128-byte site health object (R318). -/
def State.healthBytes (s : State) (k : Nat) : List Byte :=
  let x := s.site k
  leBytes 2 (siteId k) ++ leBytes 1 (siteCode x.st) ++ leBytes 1 (b1 x.suspect + 2 * b1 x.planned + 4 * b1 x.untested) ++
    leBytes 1 x.unrepro ++ leBytes 1 x.hist.length ++ leBytes 2 0 ++ leBytes 8 x.lastClean.toNat ++ leBytes 8 x.lastBist ++
    leBytes 8 x.fenceFt ++ leBytes 2 x.fenceClass ++ leBytes 14 0 ++
    ((List.range 5).flatMap fun i =>
      match x.hist.drop i with
      | e :: _ => leBytes 2 e.tile ++ leBytes 1 e.role ++ leBytes 5 0 ++ leBytes 8 e.fromStep
      | [] => leBytes 16 0)

/-- Whether a region holds its 128 tiles on working sites (R54, R65). -/
def State.holdsAll (s : State) (g : Nat) : Bool :=
  (List.range 128).all fun k =>
    let e : TileEnt := Tbl.get {} (s.region g).tiles k
    let x := s.site (siteKey g e.site)
    !e.moving && x.st == .tile && x.tile == k

/-- A replay that never starts (R54, R316): a region has no repair left and does not hold its tiles, or a fill stopped. -/
def State.replayStuck (s : State) (p : Nat) (j : Job) : Bool :=
  j.fillStopped || (!s.routed p && (List.range 64).all fun g => !bitAt (s.part p).regions g || (s.region g).repairs.isEmpty) || (List.range 64).any fun g => bitAt (s.part p).regions g && (s.region g).repairs.isEmpty && !s.holdsAll g

/-- `STATE` of `COMMIT_STATUS` (R450): 0 no job, 1 running, 2 voting, 3 HOLD, 4 stopped. A member that waits for its repairs before a
replay shows 1, which the rule does not say (DESIGN CHOICE, log 85); one whose replay can never start is stopped (R54). -/
def State.jobStateCode (s : State) (p : Nat) : Nat :=
  match s.job p with
  | none => 0
  | some j => match j.st with
    | .atGate => 1
    | .running => 1
    | .closed => 2
    | .voting => 2
    | .hold => 3
    | .replayWait => if s.replayStuck p j then 4 else 1
    | .stopped => 4

/-- The result of `COMMIT_STATUS` (R450, R55), packed. -/
def State.commitResult (s : State) (p : Nat) : Nat :=
  match s.job p with
  | none => 0
  | some j => pack [(64, j.step), (8, j.attempt), (8, s.jobStateCode p),
      (8, b1 j.sealUnmirrored + 2 * b1 j.timingData), (8, j.depth)]

/-- The commit status object (type 0x0D). -/
def State.commitBytes (s : State) (p : Nat) : List Byte :=
  let e : Epact := match s.job p with
    | some j => j.epact
    | none => {}
  leBytes 16 (s.commitResult p) ++ leBytes 8 e.draws.toNat ++ leBytes 8 e.cursor.toNat ++ leBytes 2 (s.part p).epoch.toNat

/-- The partition object (type 0x24): regions, job state, Ordo digest, Ides settings, long-wait threshold. -/
def State.partBytes (s : State) (p : Nat) : List Byte :=
  let x := s.part p
  leBytes 8 x.regions.toNat ++ leBytes 1 (s.jobStateCode p) ++ leBytes 48 (s.ordoDigest p).toNat ++
    leBytes 8 x.ides.waitUs ++ leBytes 8 x.ides.longUs ++ leBytes 8 x.ides.phaseUs ++ leBytes 8 x.ides.stepUs ++
    leBytes 4 x.longWaitUs

/-- `CHAN_STATUS` (R220) as a word, with the channel's messages in the spill ring. -/
def chanWord (c : ChanSt) (spilled : Nat) : Nat :=
  c.rxRptr + 2 ^ 11 * c.present.length + 2 ^ 22 * min 1023 spilled + 2 ^ 32 * c.rxSeq.toNat + 2 ^ 64 * c.txWptr +
    2 ^ 75 * c.txCredits + 2 ^ 86 * b1 c.txWait + 2 ^ 87 * b1 c.txSpill + 2 ^ 88 * c.txSpills + 2 ^ 96 * c.txSeq.toNat

/-- `ASV_MAX` (R437, R497): what the running image's header states, 1 before any runs. -/
def State.asvMax (s : State) : Nat := match s.hub.image with
  | some i => i.asv
  | none => 1

/-- The identity word at offset 0 (R437). -/
def State.idWord0 (s : State) : Nat :=
  0x8A08 + 2 ^ 16 * 0xB0 + 2 ^ 24 * s.fuses.grade + 2 ^ 28 * s.fuses.hostOpt + 2 ^ 32 * s.hub.devId + 2 ^ 48 * s.asvMax

/-- Partitions with a job bound, as a mask (R437). -/
def State.jobsMask (s : State) : Nat :=
  (List.range 16).foldl (fun n p => n + 2 ^ p * b1 (s.job p).isSome) 0

/-- Partitions that exist, as a mask (R437). -/
def State.partsMask (s : State) : Nat :=
  (List.range 16).foldl (fun n p => n + 2 ^ p * b1 (s.part p).exist) 0

/-- The status word at offset 8 (R437). -/
def State.idWord1 (s : State) : Nat :=
  b1 s.hub.ready + 2 * b1 s.hub.degraded + 4 * b1 s.hub.hostload + 8 * b1 s.hub.untested +
    16 * b1 s.hub.config.signedReq + 32 * b1 s.hub.halted + 2 ^ 8 * s.time.state + 2 ^ 16 * s.jobsMask +
    2 ^ 32 * s.partsMask

/-- The firmware word at offset 0x10 (R437). -/
def State.idWord2 (s : State) : Nat := s.fw.1.toNat + 2 ^ 32 * s.fw.2.toNat

/-- The identity and status registers as bytes (R437); `FT_NOW` as last sampled. -/
def State.idBytes (s : State) : List Byte :=
  leBytes 8 s.idWord0 ++ leBytes 8 s.idWord1 ++ leBytes 8 s.idWord2 ++ leBytes 8 s.hub.ftNow ++
    leBytes 8 s.hub.heartbeat.toNat

/-- `ERR_COLLECT` (R329). -/
def State.errCollect (s : State) : Nat :=
  s.col.fifo.length + 2 ^ 11 * s.col.table.length + 2 ^ 20 * b1 (decide (768 ≤ s.col.fifo.length)) + 2 ^ 21 * b1 s.col.lost.ovf

end Sys2Proof.Machine
end

