-- ==== Sys2Proof/Machine/Partition.lean ====
section
/-! DEFINITION. What happens to a whole partition: stop, flush, zero sweep, Harvest, a faulted job, the end of a binding,
and the mask tables a slice takes from the Ordo (01 R38, 04 R166, 05 R187 to R197, 06 R202, R228, 16 R518 to R520). -/

namespace Sys2Proof.Machine

/-- Number of phases of a partition's step. -/
def State.phaseCount (s : State) (p : Nat) : Nat :=
  match (s.part p).ordo with
  | some o => o.phases.length
  | none => 0

/-- Stop every unit with no inputs in the partition (R165). -/
def State.stopPart (s : State) (p : Nat) : State := s.modPart p fun x => { x with halted := true }

/-- A field of the active configuration of a unit. -/
def Site.cfg (x : Site) (u lo len : Nat) : Nat := bitsN (x.unit u).active.toNat lo len

/-- Units at their reset configuration under an epoch (R166). -/
def resetUnits (e : BitVec 16) : Tbl UnitSt := if e = 0 then [] else switchUnits.map fun u => (u, { resetUnit u with epoch := e })

/-- Channel slots as the sealed channel state of a tile gives them (R228). -/
def sealedChans (t : Tbl (Nat × Nat × BitVec 32 × BitVec 32)) (tile : Nat) : Tbl ChanSt :=
  (List.range 32).foldl (fun c i =>
    let x := Tbl.get (0, 0, 0, 0) t (32 * tile + i)
    Tbl.set {} i { txWptr := x.1, rxRptr := x.2.1, txSeq := x.2.2.1, rxSeq := x.2.2.2 } c) []

/-- A flush of one site (R166, R228, R236): every FIFO, queue, counter and shadow empty, every unit at its reset
configuration with the partition's epoch, fault fields and sticky bits clear. -/
def flushSite (e : BitVec 16) (chans : Tbl ChanSt) (x : Site) : Site :=
  { x with
    units := resetUnits e
    ej := if e = 0 then [] else (List.range 24).map fun i => (i, { epoch := e })
    inj := if e = 0 then [] else (List.range 12).map fun i => (i, { epoch := e })
    counters := [], streams := [], patch := {}, stages := [], anchorCache := [], ags := [], stopped := []
    fabFaultUnit := 0, fabFaultCause := 0, fabFaultEpoch := 0, phaseAt := none
    mu := { x.mu with ue := false, discard := false, wbQueue := [], wideReq := [], narrowReq := [], narrowWait := 0 }
    seq := { x.seq with main := {}, hand := {}, ctx := 0, pending := [], halted := false, ephase := false, unacked := 0,
                        fast := false, eveHead := false }
    chans := chans, combqs := [], spill := [], fwdMsgs := [], fwdTry := [], signals := [], bars := [], sem := 0 }

/-- Clear the barrier arrivals that a partition's routers hold (R236, R241, R242). -/
def State.clearBarriers (s : State) (p : Nat) : State :=
  (s.routersOf p).foldl (fun s r => s.modRouter r fun x => { x with barArr := x.barArr.filter fun e => e.1 / 64 != p }) s

/-- Whether a clean attempt of a job awaits its outcome. -/
def Job.sealOpen (j : Job) : Bool := decide (j.st ∈ [JobSt.closed, .voting]) && j.verdict == .clean

/-- Whether a flush of a partition still waits for transaction tags that its sources held (R166, R367). -/
def State.tagsOpen (s : State) (p : Nat) : Bool := s.dma.tags.any fun t => match t.2 with
  | some (x : Txn) => x.part == p && x.dead
  | none => false

/-- The end of a flush (R166, R368): once no tag is held, the `DOWN` bits clear, unless a sweep follows. -/
def State.flushEnd (s : State) (p : Nat) : State :=
  if (s.part p).flushing ∧ ¬ s.tagsOpen p then
    let s := s.modPart p fun x => { x with flushing := false }
    if (s.part p).sweep.isSome ∨ (s.part p).underReset ∨ s.hub.halted then s else s.setDown p false
  else s

/-- A flush of a partition (R166): `keepDown` leaves the `DOWN` bits set for the sweep that follows. The requests of the partition's sources
hold their tags until they complete, those of combining units aside (R363), and the flush ends with the last of them: until then the `DOWN` bits stand and no phase is loaded. -/
def State.flush (s : State) (p : Nat) (keepDown : Bool) : State :=
  let e := (s.part p).epoch
  let sealedT := match s.job p with
    | some j => if j.sealOpen then j.chanWorking else j.chanSealed
    | none => []
  let s := (s.setDown p true).clearBarriers p
  let s := (s.regionsOf p).foldl (fun (s : State) g => s.modRegion g fun r => { r with loaded := [] }) s
  let s := s.modSites (s.sitesOf p) fun k => flushSite e (if s.holdsTile k then sealedChans sealedT (s.tileAt k) else [])
  let s := { s with dma := { s.dma with
      tags := s.dma.tags.map fun (t : Nat × Option Txn) => (t.1, t.2.map fun (x : Txn) => if x.part = p ∧ ¬ x.isMirror ∧ x.pkt.srcKind ≠ UnitKind.combiner then ({ x with dead := true, xfer := none, movedAt := none } : Txn) else x)
      xfers := s.dma.xfers.filter fun t => match t.2 with
        | some x => x.part != p
        | none => true
      queues := s.dma.queues.filter fun q => !bitAt (s.part p).regions (tileBlock q.1) } }
  (s.modPart p fun x => { x with flushing := !keepDown }).flushEnd p

/-- A partition whose Placement Map is about to change is flushed while a job is bound (R166, R167). -/
def State.mapFlush (s : State) (p : Nat) : State := if (s.job p).isSome then s.flush p false else s

/-- Zero one slice and what the sweep clears with it (R195). -/
def sweepSite (x : Site) : Site :=
  if x.st ∈ [SiteSt.fenced, .defect, .dark] then x
  else { x with
    mu := { ({} : MuSt) with ce := x.mu.ce, discards := x.mu.discards, rrWide := x.mu.rrWide, rrNarrow := x.mu.rrNarrow }
    ags := [] }

/-- Start the staged power-up of a region that is off or in retention (R489): arrays first. -/
def State.powerUp (s : State) (g : Nat) : State :=
  s.modRegion g fun r =>
    if r.logic = .off then
      { r with logic := .poweringUp, array := .on, puGroups := 0, puPaused := 0, puLast := s.now + 6000 }
    else r

/-- A site once a zero sweep has completed on it (R195, R198). -/
def sweptSite (x : Site) : Site :=
  if x.st ∈ [SiteSt.fenced, .defect, .dark] then x else { sweepSite x with mu := { (sweepSite x).mu with swept := true } }

/-- A zero sweep of a partition begins (R195): its gates of R197 hold until `ZERO_SWEEP_COMPLETE`. A region that is powered down first takes the
staged power-up (R196). -/
def State.beginSweep (s : State) (p : Nat) (why : SweepFor) : State :=
  let s := (s.regionsOf p).foldl (fun (s : State) g => s.powerUp g) (s.setDown p true)
  (s.modSites (s.sitesOf p) fun _ => sweepSite).modPart p fun x => { x with sweep := some why }

/-- Whether every region of a partition that is to be swept is powered (R196). -/
def State.sweepPowered (s : State) (p : Nat) : Bool := (s.regionsOf p).all fun g => (s.region g).logic ∈ [LogicSt.on, .dark]

/-! ## Check bits (R172) -/

/-- Order a planned fence (R305, R309); the FT is that of the record that orders it (R318), of the command for `FENCE_SITE`, which writes none. -/
def State.planFence (s : State) (k cls : Nat) : State :=
  s.modSite k fun x => if x.planned then x else { x with planned := true, plannedClass := cls, plannedFt := s.now }

/-- A corrected slice error (R172, R309): counted, recorded, and at the 64th of the power cycle a planned fence. -/
def State.sliceCe (s : State) (k : Nat) : State :=
  let s := (s.modSite k fun x => { x with mu := { x.mu with ce := satAdd 255 x.mu.ce 1 }, ceFence := x.ceFence + 1 }).reportSite
    0x0102 k 0xFFFF []
  if (s.site k).ceFence = 64 then s.planFence k 0x0102 else s

/-- An uncorrectable slice read (R172): the raw data goes on unmarked, `UE` is set, and the entry is rewritten; a step that consumes
the data has verdict `FAULT` (R37). -/
def State.sliceUe (s : State) (k : Nat) (consumed : Bool) : State :=
  let s := (s.modSite k fun x => { x with mu := { x.mu with ue := true } }).reportSite 0x0103 k 0xFFFF []
  if consumed then s.modJob (s.partField k) fun j => if j.st = .running then { j with faultSeen := true } else j else s

/-- The error that stands in an entry is gone: it holds fresh check bits (R172). -/
def State.clearErr (s : State) (k e : Nat) : State :=
  s.modSite k fun x => { x with mu := { x.mu with errs := Tbl.drop e x.mu.errs } }

/-- A read of the entries that `hit` names (R172): each error that stands in one is corrected or delivered raw, and written back with fresh check bits.
That the second read of an uncorrectable entry fails too is `SITE_FAULT_DETECT`. -/
def State.bankRead (s : State) (k : Nat) (hit : Nat → Bool) (consumed : Bool) : State :=
  (s.site k).mu.errs.foldl (fun s e =>
    if hit e.1 then (if e.2 = 1 then (s.clearErr k e.1).sliceCe k else (s.clearErr k e.1).sliceUe k consumed) else s) s

/-- Whether a range of the slice meets an entry, given as an address div 16. -/
def inEntry (a n e : Nat) : Bool := decide (16 * e < a + n ∧ a < 16 * e + 16)

/-- Whether a range of the slice covers an entry. -/
def coversEntry (a n e : Nat) : Bool := decide (a ≤ 16 * e ∧ 16 * e + 16 ≤ a + n)

/-- Whether a range of a site's slice holds an entry that reads uncorrectable. -/
def Site.rangeUe (x : Site) (a n : Nat) : Bool := x.mu.errs.any fun e => e.2 != 1 && inEntry a n e.1

/-- A read of a range of the slice (R172). -/
def State.eccRange (s : State) (k a n : Nat) (consumed : Bool) : State := s.bankRead k (inEntry a n) consumed

/-- A write of a range of the slice (R172): an entry written whole holds fresh check bits; one written in part is read, merged and written back, which
consumes what it held. -/
def State.eccWrite (s : State) (k a n : Nat) : State :=
  let s := s.bankRead k (fun e => inEntry a n e && !coversEntry a n e) true
  s.modSite k fun x => { x with mu := { x.mu with errs := x.mu.errs.filter fun e => !coversEntry a n e.1 } }

/-- An entry's stored code is disturbed: by one bit, which a read corrects, or so that it reads as other raw data (R172). An entry that
is uncorrectable stays so until it is read or written. -/
def State.disturb (s : State) (k e : Nat) (raw : List Byte) : State :=
  s.modSite k fun x =>
    { x with mu := { x.mu with errs := Tbl.put e (if raw.isEmpty ∧ Tbl.get 0 x.mu.errs e ≠ 2 then 1 else 2) x.mu.errs, slice := memWriteN x.mu.slice (16 * e) (raw.take 16) } }

/-- The entries whose stored codes have been disturbed, each with the raw data that it now reads as, none for a single wrong bit (R172). -/
def State.disturbs (s : State) (k : Nat) (hits : List (Nat × List Byte)) : State :=
  hits.foldl (fun s h => if h.1 < 49152 then s.disturb k h.1 h.2 else s) s

/-- The tile header of a Harvest sample (R193). -/
def State.harvestHeader (s : State) (p tile : Nat) (bytes : Nat) : List Byte :=
  let k := s.siteOfTile tile
  let x := s.site k
  let bad := x.st ∈ [SiteSt.fenced, .dark]
  leBytes 2 tile ++ leBytes 2 (siteId k) ++ leBytes 2 (b1 bad + 2 * b1 (s.tileEnt tile).moving) ++
    leBytes 1 (s.part p).harvest.length ++ leBytes 1 0 ++ leBytes 8 s.now ++
    leBytes 8 (match s.job p with
      | some j => j.step
      | none => 2 ^ 64 - 1) ++
    leBytes 2 x.epoch.toNat ++ leBytes 2 (s.region (tileBlock tile)).gen.toNat ++ leBytes 4 bytes ++ leBytes 8 x.muStatus ++
    leBytes 8 (x.fabStatus (s.loadDue k)) ++ leBytes 16 0

/-- The slice sample of one tile: header, then its ranges in order; zeros for a fenced or dark site (R193). -/
def State.harvestTile (s s0 : State) (p tile : Nat) : Nat × List Byte :=
  let x := s.site (s.siteOfTile tile)
  let data := (s.part p).harvest.flatMap fun r =>
    if x.st ∈ [SiteSt.fenced, .dark] then List.replicate r.2 0 else memReadN x.mu.slice r.1 r.2
  (tile, s0.harvestHeader p tile data.length ++ data)

/-- The reads of a Harvest (R172, R193): what they find in the check bits of the sampled ranges; no step consumes their data. -/
def State.harvestReads (s : State) (p : Nat) : State :=
  (s.tilesOf p).foldl (fun s t =>
    let k := s.siteOfTile t
    if (s.site k).st ∈ [SiteSt.fenced, .dark] then s
    else (s.part p).harvest.foldl (fun s r => s.eccRange k r.1 r.2 false) s) s

/-- The bytes of the Harvest store: 64.5 MiB (R193). -/
abbrev storeBytes : Nat := 67633152

/-- The logical page of a place in the Harvest store, while it is mapped (R193, R386, R391). -/
def State.storePage (s : State) (off : Nat) : Option Nat :=
  match (s.mem.system.drop 256)[off / pageBytes]? with
  | some l => if (s.pageEnt l).kind = .system ∧ off < storeBytes then some l else none
  | none => none

/-- What reads of the store's lost pages return: a free value, drawn only where a page is lost. -/
def State.storeLost (s : State) : BitVec (8 * storeBytes) × State :=
  if (List.range 258).all fun i => (s.storePage (pageBytes * i)).isSome then (0, s) else s.draw (8 * storeBytes)

/-- Bytes of the Harvest store; those of a lost page are `v`'s. -/
def State.storeRead (s : State) (v : BitVec (8 * storeBytes)) (off n : Nat) : List Byte :=
  (List.range n).map fun i => match s.storePage (off + i) with
    | some l => memRead s.mem.dram (s.pageBase l + (off + i) % pageBytes)
    | none => v.extractLsb' (8 * (off + i)) 8

/-- Write into the pages of the Harvest store; what falls on a lost page is lost. -/
def State.storeWrite (s : State) (off : Nat) (bs : List Byte) : State :=
  (List.range 258).foldl (fun (s : State) i =>
    let lo := max off (pageBytes * i)
    let n := min (off + bs.length) (pageBytes * (i + 1)) - lo
    if n = 0 then s
    else match s.storePage lo with
      | some l => s.dramWrite (s.pageBase l + lo % pageBytes) (slice bs (lo - off) n)
      | none => s) s

/-- The sampled tiles that the store holds of a partition, with their bytes; and the state after a free value was drawn for lost pages. -/
def State.storeTiles (s : State) (p : Nat) : List (Nat × List Byte) × State :=
  let (v, s) := s.storeLost
  ((s.part p).harvested.tiles.map fun x => (x.1, s.storeRead v x.2.1 x.2.2), s)

/-- Put a partition's sample into the store in place of its previous one (R193): the samples stand one after another, ascending partitions
(DESIGN CHOICE, log 107). -/
def State.storePut (s : State) (p : Nat) (tiles : List (Nat × List Byte)) : State :=
  let (all, s) : List (Nat × List (Nat × List Byte)) × State := (List.range 16).foldl (fun (a : List (Nat × List (Nat × List Byte)) × State) q =>
    if q = p then (a.1 ++ [(q, tiles)], a.2)
    else
      let (ts, s) := a.2.storeTiles q
      (a.1 ++ [(q, ts)], s)) ([], s)
  (all.foldl (fun (a : Nat × State) x =>
    let (off, s, at') := x.2.foldl (fun (b : Nat × State × List (Nat × Nat × Nat)) y =>
      (b.1 + y.2.length, b.2.1.storeWrite b.1 y.2, b.2.2 ++ [(y.1, b.1, y.2.length)])) (a.1, a.2, [])
    (off, s.modPart x.1 fun z => { z with harvested := { z.harvested with tiles := at' } })) (0, s)).2

/-- The error records of a partition in the log ring, oldest first, at most 4,096 (R520). -/
def State.partRecords (s : State) (p : Nat) : List ErrRec :=
  let first := s.col.total - min s.col.total 1048576
  let rs := (List.range (s.col.total - first)).filterMap fun i =>
    let r : ErrRec := Tbl.get {} s.col.ring ((first + i) % 1048576)
    if r.part = p ∧ s.ringReads ((first + i) % 1048576) then some r else none
  rs.drop (rs.length - 4096)

/-- A census object: its header, then its data padded to a multiple of 16 bytes; `BYTES` counts the padded data that follow (R453). -/
def objBytes (id now : Nat) (data : List Byte) : List Byte :=
  let body := data ++ List.replicate ((16 - data.length % 16) % 16) 0
  leBytes 4 id ++ leBytes 4 body.length ++ leBytes 8 now ++ body

/-- The census objects of a Harvest partition record (R520). -/
def State.harvestObjects (s : State) (p : Nat) : List Byte :=
  objBytes 0x0D000000 s.now (s.commitBytes p) ++ objBytes 0x24000000 s.now (s.partBytes p) ++
    (s.sitesOf p).flatMap fun k => objBytes (0x04000000 + siteId k) s.now (s.siteStatusBytes k)

/-- A Harvest begins (R519 steps 1 to 4): stop and flush, partition record, slice sample, sweep. The sample's status words
are those at the fault. -/
def State.beginHarvest (s : State) (p cause cls site : Nat) : State :=
  if (s.part p).harvesting then s
  else
    let s0 := s
    let recs := s0.partRecords p
    let s := (s.stopPart p).flush p true
    let tiles := (s.tilesOf p).map (s.harvestTile s0 p)
    let s := s.harvestReads p
    let h : HarvestRec :=
      { present := true, cause, attempt := match s0.job p with
          | some j => j.attempt
          | none => 0,
        sampleBytes := tiles.length * ((s0.part p).harvest.map (·.2)).sum,
        ft := s.now, step := match s0.job p with
          | some j => BitVec.ofNat 64 j.step
          | none => BitVec.allOnes 64,
        cls, site, cred := (s0.part p).cred, objects := s0.harvestObjects p, recs }
    ((s.modPart p fun x => { x with harvesting := true, harvested := h }).storePut p tiles).beginSweep p .harvest

/-- The job of a partition is faulted: it sends no vote for the step (R38); `JOB_FAULTED` is raised. The open attempt's
Almanac watches are left to their deadlines. -/
def State.faultJob (s : State) (p cls : Nat) : State :=
  match s.job p with
  | none => s
  | some j =>
    if j.faulted then s
    else ((s.modJob p fun j => { j with faulted := true, st := .stopped, released := false }).stopPart p).event
      0x0203 p [(16, cls), (64, j.step)]

/-- A fault that takes a Harvest (R518): the job is faulted, the partition stopped and sampled. -/
def State.hang (s : State) (p cls cause site : Nat) : State :=
  match s.job p with
  | none => s
  | some _ => (s.faultJob p cls).beginHarvest p cause cls site

/-- Fault a job as on an expiry of the phase Ides timer (R233, R235): `IDES_EXPIRED` names the class; `cause` is that of R520. -/
def State.faultAsIdes (s : State) (p cls cause k : Nat) : State :=
  match s.job p with
  | none => s
  | some j =>
    if j.faulted then s
    else ((s.event 0x0201 p [(16, cls), (16, siteId k)]).modJob p fun j => { j with idesFired := true }).hang p cls cause (siteId k)

/-- An entry of the active bank. -/
def State.almEnt (s : State) (i : Nat) : AlmEntry := Tbl.get {} s.alm.active i

/-- Change an entry of the active bank. -/
def State.modAlm (s : State) (i : Nat) (f : AlmEntry → AlmEntry) : State :=
  { s with alm := { s.alm with active := Tbl.set {} i (f (s.almEnt i)) s.alm.active } }

/-- Clear `WATCHING` of an entry that no watch names any more (R286). -/
def State.unwatch (s : State) (i : Nat) : State :=
  if (List.range 16).any fun p => (s.part p).watches.any fun w => w.entry == i && !w.gone then s
  else s.modAlm i fun e => if e.watching then { e with watching := false } else e

/-- Drop the watches of a partition that `f` says are met (R285). -/
def State.watchMet (s : State) (p : Nat) (f : Watch → Bool) : State :=
  let met := (s.part p).watches.filter f
  let s := s.modPart p fun x => { x with watches := x.watches.filter fun w => !f w }
  met.foldl (fun s w => if w.gone then s else s.unwatch w.entry) s

/-- The watches of a partition whose job ends are dropped uncounted (R285); the entries that they named are not watched any more (R286). -/
def State.watchesEnd (s : State) (p : Nat) : State :=
  let is := ((s.part p).watches.filter fun w => !w.gone).map (·.entry)
  { s.modPart p fun x => { x with watches := [] } with
    alm := { s.alm with active := s.alm.active.map fun e => (e.1, if is.contains e.1 then { e.2 with watching := false } else e.2) } }

/-- With no job bound the partition sends no mirror: one that has not sent its notice ends there, and the peer keeps what it holds (R412). -/
def Twin.jobEnds (x : Twin) : Twin :=
  if x.phase = .awaitAck then x else { x with phase := .idle, todo := [], waitBegin := false }

/-- A binding is undone (R195, R281, R283, R291, R388): the job's Almanac entries, unopened slots and permission flag are dropped, its
ledger, log, retain and spill pages freed, the partition flushed. The tally stays for `JOB_START` `MODE` 1. -/
def State.unbind (s : State) (p : Nat) : State :=
  match s.job p with
  | none => s
  | some j =>
    let ends := fun (t : Tbl AlmEntry) => t.filter fun e => !(e.2.own && e.2.part == p)
    let s := { s with alm := { s.alm with active := ends s.alm.active, shadow := ends s.alm.shadow } }
    let s := s.watchesEnd p
    let s := s.modSites (s.sitesOf p) fun _ x => { x with mu := { x.mu with windows := [] } }
    let s := (s.stopPart p).flush p true
    let s := (s.regionsOf p).foldl (fun (s : State) g => s.modRegion g fun r => { r with pairs := [], targets := [] }) (s.unmapPages j.jobPages)
    s.modPart p fun x =>
      { x with job := none, kept := some { j with dirty := [], prepared := none, jobPages := [] },
               perm := false, permEntry := none, slots := x.slots.filter (·.opened.isSome), twin := x.twin.jobEnds,
               halted := false, gate := false }

/-- The end of every job binding: `JOB_ENDED` is raised and the partition swept (R195). -/
def State.endBinding (s : State) (p cause : Nat) (why : SweepFor) : State :=
  match s.job p with
  | none => s
  | some j => ((s.unbind p).event 0x0204 p [(8, cause), (64, j.step)]).beginSweep p why

end Sys2Proof.Machine
end

