-- ==== Sys2Proof/Machine/Slice.lean ====
section
/-! DEFINITION. The slice of a site: its banks and entries, the accesses that the memory unit performs, and its check bits (05 R169 to R174). -/

namespace Sys2Proof.Machine

/-! ## Banks and entries (R169, R170) -/

/-- The D-block of a slice address (R170). -/
def sliceBlock (a : Nat) : Nat := a / 2048
/-- The row of a slice address in its D-block (R170). -/
def sliceRow (a : Nat) : Nat := a % 2048 / 64
/-- The unit of a slice address in its row (R170). -/
def sliceUnit (a : Nat) : Nat := a % 64 / 16
/-- The bank, 0 to 31, that stores a slice address (R170). -/
def sliceBank (a : Nat) : Nat := 4 * (sliceRow a % 8) + (sliceUnit a + sliceRow a / 8) % 4
/-- The entry, 0 to 1,535, of that bank (R170). -/
def sliceEntry (a : Nat) : Nat := 4 * sliceBlock a + sliceRow a / 8
/-- The slice address that an entry of a bank stores (R170). -/
def sliceAddr (bank entry : Nat) : Nat :=
  2048 * (entry / 4) + 64 * (8 * (entry % 4) + bank / 4) + 16 * ((bank + 4 - entry % 4) % 4)

end Sys2Proof.Machine

namespace Sys2Proof

open Machine

/-! ## Accesses (R173, R174) -/

/-- Bytes of an access: 256 for a line or a half-column, else those of a narrow access. -/
def SliceReq.bytes (r : SliceReq) : Nat :=
  match r.form with
  | .line => 256
  | .halfColumn => 256
  | .narrow n => n

/-- Whether an access has one of the forms of R173 and R174, with its alignment, in the slice. -/
def SliceReq.ok (r : SliceReq) : Bool :=
  decide (r.addr < 0xC0000) &&
    (match r.form with
      | .line => r.who < 6 && r.addr % 256 == 0
      | .halfColumn => r.who < 6 && r.addr % 16 == 0 && sliceRow r.addr % 16 == 0
      | .narrow n => r.who < 4 && decide (n ∈ [4, 8, 16, 32, 64]) && r.addr % n == 0)

/-- The entries of an access, as slice addresses div 16: sixteen for a wide one (R173), those of one row for a narrow one (R174). -/
def SliceReq.entries (r : SliceReq) : List Nat :=
  match r.form with
  | .line => (List.range 16).map (r.addr / 16 + ·)
  | .halfColumn => (List.range 16).map fun i => r.addr / 16 + 4 * i
  | .narrow n => (List.range ((r.addr % 16 + n + 15) / 16)).map (r.addr / 16 + ·)

/-- How many bytes of its `i`-th entry a write enables: by its byte enables in a wide access, all its bytes in a narrow one. -/
def SliceReq.enabled (r : SliceReq) (i : Nat) : Nat :=
  match r.form with
  | .narrow n => min n 16
  | _ => popCount 16 (bitsN r.enables.toNat (16 * i) 16)

end Sys2Proof

namespace Sys2Proof.Machine

/-! ## Check bits of an access (R172) -/

/-- The `i`-th entry of a granted write takes its bytes (R172, R173): none, all, or some. -/
def State.grantWrite (s : State) (k : Nat) (r : SliceReq) (i e : Nat) : State :=
  if r.enabled i = 0 then s else if 16 ≤ r.enabled i then s.clearErr k e else s.bankRead k (· == e) true

/-- What a granted access does to the check bits of its entries (R172): a census read consumes nothing for the step. -/
def State.grantEcc (s : State) (k : Nat) (r : SliceReq) : State :=
  if r.write then (r.entries.zipIdx).foldl (fun s e => s.grantWrite k r e.2 e.1) s
  else s.bankRead k (r.entries.contains ·) (r.form != .narrow r.bytes || r.who != 3)

end Sys2Proof.Machine
end

