-- ==== Sys2Proof/Machine/Fence.lean ====
section
/-! DEFINITION. Fencing a site, the repair queue, the output signatures, and the close of a step by the Calends with the Vigil
comparison (01 R23, R37, R41, 03 R120 to R123, 04 R165, 10 R300 to R314). -/

namespace Sys2Proof.Machine

/-! ## Fencing (R309 to R314) -/

/-- Repairs a region may hold: one active and four queued (R313). -/
abbrev maxRepairs : Nat := 5

/-- `REPAIR_OVERFLOW`: the region is treated as exhausted (R313). -/
def State.repairOverflow (s : State) (g : Nat) : State :=
  (s.report 0x0308 5 (s.partField (siteKey g 0)) g []).modRegion g fun r => { r with exhausted := true }

/-- The end of a pair that a third site replaced (R303): P returns to `SPARE` and V to the rotation, unless it has left `VIGIL`. -/
def State.endPair (s : State) (g : Nat) (x : Nat × Nat × Nat × Option Nat) : State :=
  match x.2.2.2 with
  | some _ => s.modSite (siteKey g x.2.1) fun y => if y.st = .vigil then { y with st := .spare, tile := 0 } else y
  | none => s

/-- A fenced site `p` held tile `k` of a bound job: the fence counts, and a spare is chosen and its fill queued (R310 step 3, R311, R313). Site
index 144 stands for a fill that waits for a `TEST` site. -/
def State.queueFill (s : State) (g k p : Nat) : State × Option Nat :=
  let s := s.modRegion g fun r => { r with fences := r.fences + 1, fillFrom := Tbl.set 0 k p r.fillFrom }
  if maxRepairs ≤ (s.region g).repairs.length then (s.repairOverflow g, none)
  else
    match s.pickSpare g p with
    | some q => ((s.placeAt g k q true).modRegion g fun r => { r with repairs := r.repairs ++ [.fill k q 0 false] }, some q)
    | none =>
      if (s.sitesIn g .test).isEmpty then (s, none)
      else (s.modRegion g fun r => { r with repairs := r.repairs ++ [.fill k 144 0 false] }, none)

/-- A fence struck the site `p` that receives tile `k`: the fill restarts on the next spare, the nearest to the site that the tile held before its
fence (R311, R314). -/
def State.restartFill (s : State) (g k p : Nat) : State × Option Nat :=
  let n := (s.region g).repairs.foldl (fun n r => match r with
    | .fill k' _ c _ => if k' = k then c + 1 else n
    | .full => n) 0
  let q := s.pickSpare g ((s.region g).fillOrigin k)
  let s := match q with
    | some q => s.placeAt g k q true
    | none => s
  let s := s.modRegion g fun r => { r with
    fences := r.fences + 1
    repairs := r.repairs.map fun x => match x with
      | .fill k' p' c f => if k' = k then .fill k (q.getD 144) (c + 1) false else .fill k' p' c f
      | .full => .full }
  (s.reportSite 0x0307 (siteKey g p) 0xFFFF
    [(16, siteId (siteKey g p)), (16, (q.map fun q => siteId (siteKey g q)).getD 0xFFFF), (8, n)], q)

/-- A full placement joins a region's repairs (R76, R313), once. -/
def State.queueFull (s : State) (g : Nat) : State :=
  if (s.region g).repairs.contains .full then s
  else if maxRepairs ≤ (s.region g).repairs.length then s.repairOverflow g
  else s.modRegion g fun r => { r with repairs := r.repairs ++ [.full] }

/-- The re-route that follows a change of a region's map under a bound job (R74, R310 step 4): where a route does not fit, a full
placement follows as a repair (R76, R137). R76 says of a third fence both that a re-route that fits stands, and that the full placement runs before the
replay in either case: the model takes the full placement as one of the queued repairs only where the re-route does not fit (DESIGN CHOICE,
log 139). -/
def State.rerouteRegion (s : State) (g : Nat) : State :=
  match s.partOfRegion g with
  | none => s
  | some p =>
    if (s.job p).isNone then s
    else match s.reroute p g with
      | (s, true) => s
      | (s, false) => s.queueFull g

/-- A fenced site leaves the mismatched pairs of its region, which stay unresolved (R302, R303): the other site of a pair that a third site
replaced returns to `SPARE`, or to the rotation. -/
def State.dropPairs (s : State) (g p : Nat) : State :=
  let hit (x : Nat × Nat × Nat × Option Nat) : Bool := x.2.1 == p || x.2.2.1 == p || x.2.2.2 == some p
  let s := ((s.region g).pairs.filter hit).foldl (fun (s : State) x => s.endPair g x) s
  s.modRegion g fun r => { r with pairs := r.pairs.filter fun x => !hit x }

/-- Fence a site: steps 3 to 5 of R310. `kind` is 0 immediate, 1 planned, 2 operator. A `DEFECT`, `FENCED` or `DARK` site keeps
its state (R64). -/
def State.fenceSite (s : State) (k cls kind : Nat) : State :=
  let g := keyRegion k
  let p := keyIdx k
  let x := s.site k
  if x.st ∈ [SiteSt.defect, .fenced, .dark] then s
  else
    let tile := s.tileAt k
    let held := s.holdsTile k
    let part := s.partField k
    let bound := (s.job part).isSome && decide (part < 16)
    let s := ((s.modSite k fun x =>
      { x with st := .fenced, tile := 0, suspect := true, planned := false, plannedFt := 0,
               fenceFt := if kind = 1 then x.plannedFt else s.now, fenceClass := cls }).newGen g).unVigil g p
    let s := s.dropPairs g p
    let (s, q) :=
      if x.st = .filling then s.restartFill g x.tile p
      else if x.st = .tile ∧ bound then s.queueFill g x.tile p
      else (s, none)
    let s := match q with
      | some q => s.moveWindows k (siteKey g q)
      | none => s
    let s := if bound ∧ (¬ held ∨ q.isSome) then s.rerouteRegion g else s
    let good := s.goodSpares g
    let s := s.reportOp 0x0306 1 part (siteId k + (if held then tile * 65536 + 536870912 else 0)) 0xFFFF
      [(16, cls), (16, (q.map fun q => siteId (siteKey g q)).getD 0xFFFF), (8, good), (8, (s.region g).fences), (8, kind), (8, 0),
       (64, x.lastClean.toNat)]
    let s := s.event 0x0501 part [(16, siteId k), (16, if held then tile else 0xFFFF), (8, good)]
    let s := s.event 0x0502 part [(16, siteId k), (64, x.lastClean.toNat)]
    let s := { s with flash := { s.flash with ledgerPend := s.flash.ledgerPend ++ [({ kind := 1, cls, id := siteId k, ft := s.now } : LedgerEnt)] } }
    s.spareEvents g

/-! ## Output signatures (R300) -/

/-- CRC-64 of one byte: polynomial 0x42F0E1EBA9EA3693, most significant bit first (R300). -/
def crcByte (c : BitVec 64) (b : Byte) : BitVec 64 :=
  (List.range 8).foldl (fun c _ => (c <<< 1) ^^^ (if bitAt c 63 then 0x42F0E1EBA9EA3693 else 0)) (c ^^^ (b.setWidth 64 <<< 56))

/-- CRC-64 of bytes. -/
def crcBytes (c : BitVec 64) (bs : List Byte) : BitVec 64 := bs.foldl crcByte c

/-- Add bytes to a site's signature stream (R300): a new stream opens with its identifier. -/
def Site.sign (x : Site) (id : Nat) (bs : List Byte) : Site :=
  if bs.isEmpty then x
  else
    let o : SigStream := Tbl.get {} x.sig id
    let c := if o.used then o.crc else crcBytes (BitVec.allOnes 64) (leBytes 2 id)
    { x with sig := Tbl.set {} id { crc := crcBytes c bs, used := true } x.sig }

/-- Σ of a site: the exclusive-OR of its streams' signatures (R300). -/
def Site.sigmaNow (x : Site) : BitVec 64 :=
  x.sig.foldl (fun a o => if o.2.used then a ^^^ o.2.crc else a) 0

/-! ## The Vigil comparison (R301 to R305) -/

/-- Add 1 to a site's `UNREPRO`; at 3 it receives a planned fence (R303, R305). -/
def State.unrepro (s : State) (k : Nat) : State :=
  let s := s.modSite k fun x => { x with unrepro := satAdd 3 x.unrepro 1 }
  if 3 ≤ (s.site k).unrepro then s.planFence k 0x0302 else s

/-- Mark that the step met a Vigil mismatch (R37). -/
def State.markShadow (s : State) (p : Nat) : State := s.modJob p fun j => { j with shadowSeen := true }

/-- Record of a resolution (R303, R304). -/
def State.resolveRec (s : State) (cls key kP kV : Nat) (t3 : Option Nat) (outcome : Nat) : State :=
  s.reportSite cls key 0xFFFF [(16, siteId kP), (16, siteId kV), (16, (t3.map siteId).getD 0xFFFF), (8, outcome)]

/-- Resolve one mismatched pair at the close of a replay (R303, R304): answers the site to fence after the close. -/
def State.resolvePair (s : State) (g p : Nat) (x : Nat × Nat × Nat × Option Nat) : State × Option Nat :=
  let kP := siteKey g x.2.1
  let kV := siteKey g x.2.2.1
  let sP := (s.site kP).sigma
  let sV := (s.site kV).sigma
  match x.2.2.2 with
  | some t =>
    let kT := siteKey g t
    let sT := (s.site kT).sigma
    let back (s : State) : State := s.endPair g x
    if sT = sP ∧ sP = sV then (back ((s.unrepro kP).unrepro kV) |>.resolveRec 0x0302 kT kP kV (some kT) 0, none)
    else if sT = sP then (back s |>.resolveRec 0x0302 kV kP kV (some kT) 1, some kV)
    else if sT = sV then (back s |>.resolveRec 0x0302 kP kP kV (some kT) 2, some kP)
    else if sP = sV then (back (s.markShadow p) |>.resolveRec 0x0302 kT kP kV (some kT) 3, some kT)
    else (back (s.markShadow p) |>.resolveRec 0x0303 kT kP kV (some kT) 4, none)
  | none =>
    if sP = sV then ((s.unrepro kP).unrepro kV, none)
    else (s.markShadow p |>.resolveRec 0x0303 kP kP kV none 4, none)

/-- Compare the signatures of one region at a close (R301, R303): answers the sites that the table orders fenced. -/
def State.vigilRegion (s : State) (p g : Nat) : State × List Nat :=
  let pairs := (s.region g).pairs
  let pairSites := pairs.flatMap fun x => [x.2.1, x.2.2.1]
  let (s, fence) := pairs.foldl (fun a x =>
    let r := a.1.resolvePair g p x
    (r.1, a.2 ++ r.2.toList)) (s, [])
  let s := s.modRegion g fun r => { r with pairs := [] }
  let rot := (s.region g).targets.filter fun x => !pairSites.contains x.1
  let s := rot.foldl (fun s x =>
    let kV := siteKey g x.1
    let tile := Tbl.get {} (s.region g).tiles x.2
    let kP := siteKey g tile.site
    if (s.site kP).sigma = (s.site kV).sigma then s
    else
      let s := (s.reportSite 0x0301 kP 0xFFFF
        [(16, siteId kV), (48, (s.site kP).sigma.toNat), (48, (s.site kV).sigma.toNat)]).markShadow p
      s.modRegion g fun r => { r with pairs := r.pairs ++ [(x.2, tile.site, x.1, none)] }) s
  (s, fence)

/-- The sites of a partition that were targets or shadows in the attempt, as pairs of target and shadow (R296, R300). -/
def State.vigilPairs (s : State) (p : Nat) : List (Nat × Nat) :=
  (s.regionsOf p).flatMap fun g => (s.region g).targets.map fun x =>
    (siteKey g (Tbl.get {} (s.region g).tiles x.2 : TileEnt).site, siteKey g x.1)

/-- Put the final Σ of an attempt in every target and shadow (R300); the others keep the last that they had. -/
def State.sealSigmas (s : State) (p : Nat) : State :=
  (s.vigilPairs p).foldl (fun s e =>
    (s.modSite e.1 fun x => { x with sigma := x.sigmaNow }).modSite e.2 fun x => { x with sigma := x.sigmaNow }) s

/-- The sites whose Σ, as target or as shadow, equals their partner's (R319). -/
def State.matchedSites (s : State) (p : Nat) : List Nat :=
  ((s.vigilPairs p).filter fun e => e.1 != e.2 && (s.site e.1).sigma == (s.site e.2).sigma).flatMap fun e => [e.1, e.2]

/-! ## Anchors (R120 to R123) -/

/-- The signed `ANCHOR` of an entry (R121). -/
def anchorOf (e : BitVec 64) : Int := bitsZ e.toNat 0 10
/-- `REC_MAXEXP` of an entry (R121). -/
def recMaxExp (e : BitVec 64) : Int := bitsZ e.toNat 20 10

/-- The chunks that a phase declares for a tile (R121): those of its stage words that convert to or from A64. No rule says where a phase declares them
(DESIGN CHOICE, log 97). -/
def Site.chunks (x : Site) : List Nat :=
  (((List.range 6).map (0x010 + ·)).filterMap fun u =>
    if x.cfg u 0 6 = 0x14 ∨ x.cfg u 0 6 = 0x15 then some (x.cfg u 48 16) else none).dedup

/-- The anchor cache of a site from the working side of its partition's anchor table (R121, R122). -/
def State.anchorsFor (s : State) (x : Site) (g : Nat) : Tbl Int :=
  let ts : Tbl (BitVec 64) := match s.partOfRegion g with
    | some p => match s.job p with
      | some j => j.anchors
      | none => []
    | none => []
  x.chunks.foldl (fun t c => Tbl.set 0 c (anchorOf (Tbl.get 0 ts c)) t) []

/-- Clamp an anchor (R122, R123). -/
def clampAnchor (x : Int) : Int := max (-192) (min 191 x)

/-- An entry with a new anchor and cleared recorded fields (R123). -/
def anchorCleared (e : BitVec 64) (a : Int) : BitVec 64 :=
  BitVec.ofNat 64 (wrapZ 10 a + 2 ^ 10 * bitsN e.toNat 10 8 + 2 ^ 20 * wrapZ 10 (-512))

/-- The entry of the next generation (R123). -/
def anchorAdvance (e : BitVec 64) : BitVec 64 :=
  let a := anchorOf e
  let m := recMaxExp e
  if bitAt e 31 ∧ m ≠ -512 then
    let target := m + bitsN e.toNat 10 4
    let a' := if a ≤ target then target else max target (a - bitsN e.toNat 14 4)
    anchorCleared e (clampAnchor a')
  else anchorCleared e a

/-- Record a final tag in the working side of a chunk's entry (R121, R122). When a chunk receives several final tags in one step the last
one stands, which the rules leave open (DESIGN CHOICE, log 90). -/
def anchorRecord (e : BitVec 64) (maxExp : Int) (span : Bool) : BitVec 64 :=
  let excess := if span then (maxExp - anchorOf e + 1) else 0
  BitVec.ofNat 64 (bitsN e.toNat 0 18 + 2 ^ 20 * wrapZ 10 maxExp + 2 ^ 30 * b1 span + 2 ^ 31 + 2 ^ 32 * wrapZ 9 excess)

/-- Set the entry of a chunk in the working side of the anchor table (R22, R122): the job's table and its granule of the anchors class. -/
def State.setAnchor (s : State) (p chunk : Nat) (e : BitVec 64) : State :=
  match s.job p with
  | none => s
  | some j =>
    let s := s.modJob p fun j => { j with anchors := Tbl.set 0 chunk e j.anchors }
    if chunk < 32768 * (pagesOf j.classes 2).length then s.classWrite p 2 (8 * chunk) (leBytes 8 e.toNat) else s

/-- Raise an anchor by the recorded excess of its chunk at the start of a replay (R39, R122). -/
def anchorRaise (e : BitVec 64) (excess : Int) : BitVec 64 :=
  BitVec.ofNat 64 (wrapZ 10 (clampAnchor (anchorOf e + excess)) + 2 ^ 10 * bitsN e.toNat 10 54)

/-! ## The close of a step (R23, R37, R41) -/

/-- The tally granule that a slice granule of a tile is bound to (R573). -/
def Ordo.sliceMapOf (o : Ordo) (tile gran : Nat) : Option SliceMap :=
  o.sliceMaps.find? fun m => m.tile == tile && m.sgran == gran

/-- Write one dirty slice granule of a tile's site back to its tally granule and clear its dirty bit (R23, R187). A site in
`VIGIL` writes nothing back (R188). A write back that a channel out of service refuses (R378) leaves the step unclean (DEDUCED, log 133). -/
def State.writeBack (s : State) (p k gran : Nat) : State :=
  match (s.part p).ordo with
  | none => s
  | some o =>
    match o.sliceMapOf (s.tileAt k) gran with
    | none => s
    | some m =>
      let s := if s.granUp p m.page m.pgran then s else s.modJob p fun j => { j with faultSeen := true }
      ((s.eccRange k (4096 * gran) 4096 true).granCarry p m.page m.pgran (memGrab (s.site k).mu.slice (4096 * gran) 4096)).modSite k fun x =>
        { x with mu := { x.mu with dirty := x.mu.dirty &&& ~~~(1#192 <<< gran) } }

/-- Sites of a partition that hold a tile. -/
def State.tileSites (s : State) (p : Nat) : List Nat := (s.sitesOf p).filter fun k => (s.site k).st == .tile

/-- The residue of R23: every granule still dirty, and the masks clear (R187). -/
def State.residue (s : State) (p : Nat) : State :=
  let s := (s.tileSites p).foldl (fun s k =>
    ((List.range 192).filter fun i => bitAt (s.site k).mu.dirty i).foldl (fun s i => s.writeBack p k i) s) s
  s.modSites (s.sitesOf p) fun _ x => { x with mu := { x.mu with dirty := 0, wbQueue := [] } }

/-- The channel state of the partition's tiles at the close (R220). -/
def State.chanCapture (s : State) (p : Nat) : Tbl (Nat × Nat × BitVec 32 × BitVec 32) :=
  (s.tileSites p).foldl (fun t k =>
    (s.site k).chans.foldl (fun t c =>
      Tbl.set (0, 0, 0, 0) (32 * s.tileAt k + c.1) (c.2.txWptr, c.2.rxRptr, c.2.txSeq, c.2.rxSeq) t) t) []

/-- The 16 bytes of a sealed channel state (R573). -/
def chanSealBytes (x : Nat × Nat × BitVec 32 × BitVec 32) : List Byte :=
  leBytes 2 x.1 ++ leBytes 2 x.2.1 ++ leBytes 4 0 ++ leBytes 4 x.2.2.1.toNat ++ leBytes 4 x.2.2.2.toNat

/-- The anchor entries of the next generation (R123): every chunk ID has one, 32,768 to a page of the anchors class (R573). -/
def Job.anchorsNext (j : Job) : Tbl (BitVec 64) :=
  (List.range (32768 * (pagesOf j.classes 2).length)).map fun c => (c, anchorAdvance (Tbl.get 0 j.anchors c))

/-- Write the device-written classes: anchors, random state, Epact record, channel and group state (R20, R419, R573). An anchor entry
whose next value differs from the sealed one, or from what the step recorded, is written; no rule says whether the others' granules flip,
and the model leaves them (DESIGN CHOICE, log 130). -/
def State.writeClasses (s : State) (p : Nat) : State :=
  match s.job p with
  | none => s
  | some j =>
    let anc := j.anchorsNext
    let s := (anc.filter fun e => Tbl.get 0 j.anchorsSealed e.1 != e.2 || Tbl.get 0 j.anchors e.1 != e.2).foldl (fun s e =>
      s.classWrite p 2 (8 * e.1) (leBytes 8 e.2.toNat)) s
    let s := (j.heralds.filter fun e => Tbl.get 0 j.heraldsSealed e.1 != e.2).foldl (fun s e =>
      s.classWrite p 5 (16 * pageBytes + 2 * e.1) (leBytes 2 e.2)) s
    let s := s.classWrite p 3 8 (leBytes 8 j.epact.draws.toNat)
    let s := s.classWrite p 4 0 (leBytes 16 (epactNum j.epact))
    let ch := s.chanCapture p
    let s := (ch.filter fun e => Tbl.get (0, 0, 0, 0) j.chanSealed e.1 != e.2).foldl (fun s e =>
      s.classWrite p 5 (512 * (e.1 / 32) + 16 * (e.1 % 32)) (chanSealBytes e.2)) s
    s.modJob p fun j => { j with anchors := anc, chanWorking := ch, heraldsWorking := j.heralds }

/-- Note a contribution to a chunk from a unit of a site: of several to one chunk the first stands (R120). -/
def Job.noteContrib (j : Job) (chunk k unit : Nat) : List (Nat × Nat × Nat) :=
  if j.contributed.any fun c => c.1 == chunk then j.contributed else j.contributed ++ [(chunk, k, unit)]

/-- The oldest contribution whose chunk's final tag has not come (R120). -/
def Job.missingTag (j : Job) : Option (Nat × Nat × Nat) :=
  j.contributed.find? fun c => !bitAt (Tbl.get 0 j.anchors c.1) 31

/-- The verdict of the step (R37). -/
def Job.derive (j : Job) : Verdict :=
  if j.faultSeen then .fault else if j.shadowSeen then .shadow else if j.spanSeen then .span else .clean

/-- The code of a verdict (R37). -/
def verdictCode : Verdict → Nat
  | .clean => 0
  | .span => 1
  | .shadow => 2
  | .fault => 3

/-- Whether a repair is active or queued in a partition (R43). -/
def State.repairQueued (s : State) (p : Nat) : Bool := (s.regionsOf p).any fun g => !(s.region g).repairs.isEmpty

/-- The vote of a closed attempt (R43), without its group. -/
def State.makeVote (s : State) (p : Nat) (j : Job) : Vote :=
  let r : LedgerRec := match j.prepared with
    | some i => Tbl.get {} j.ledger i
    | none => {}
  { step := j.step, device := s.hub.devId, verdict := verdictCode j.verdict, attempt := j.attempt,
    flags := BitVec.ofNat 8 (b1 j.timingData + 2 * b1 j.unmirrored + 4 * b1 (s.repairQueued p)), part := p,
    closeFt := j.closeFt, ordoId := j.ordoId, stateDigest := r.stateDigest, weightDigest := r.weightDigest }

/-- The close sequence of the Calends up to the prepared record (R41 steps 1 to 4). `forced`: a close under steps 2 and 3 of
R165, which compares no signatures (R301, R303). Fences that the resolution orders follow the close (R303). -/
def State.closeStep (s : State) (p : Nat) (forced : Bool) : State :=
  match s.job p with
  | none => s
  | some _ =>
    let s := s.modJob p fun j => { j with closeFt := s.now, forcedClose := forced, writesBlocked := true, released := false, timers := false }
    let s := s.residue p
    let s := s.sealSigmas p
    let s := s.modJob p fun j => { j with matched := if forced then [] else s.matchedSites p }
    let (s, fences) :=
      if forced then
        ((s.regionsOf p).foldl (fun s g =>
          let s := (s.region g).pairs.foldl (fun (s : State) x => s.endPair g x) s
          s.modRegion g fun r => { r with pairs := [] }) s, [])
      else (s.regionsOf p).foldl (fun a g =>
        let r := a.1.vigilRegion p g
        (r.1, a.2 ++ r.2)) (s, [])
    let s := s.modJob p fun j =>
      { j with verdict := j.derive,
               excess := j.spanExcess }
    let s := s.writeClasses p
    let s := s.writePrepared p
    let s := match s.job p with
      | some j => s.modJob p fun j' => { j' with vote := some (s.makeVote p j), voteSent := false, st := .closed }
      | none => s
    fences.foldl (fun s k => s.fenceSite k 0x0302 0) (if fences = [] then s else s.mapFlush p)

/-- Steps 2 and 3 of R165: stop the units with no inputs, flush, mark the remaining phases complete, close with `FAULT`, which meets the phase
deadlines that stand (R278, R285). With no attempt running there is no step to close: the partition is flushed, and its held first phase loads
again (R166; DEDUCED, log 143). -/
def State.forceClose (s : State) (p : Nat) : State :=
  match s.job p with
  | none => s
  | some j =>
    if j.st = .running then
      let s := s.modJob p fun j => { j with faultSeen := true, phase := s.phaseCount p }
      (((s.stopPart p).flush p false).closeStep p true).watchMet p fun w => w.action == 6 && w.armed
    else s.flush p false

/-- An immediate fence (R310): the step in progress closes with verdict `FAULT`, then the site is fenced. -/
def State.fenceNow (s : State) (k cls kind : Nat) : State :=
  if (s.site k).st ∈ [SiteSt.defect, .fenced, .dark] then s
  else ((s.forceClose (s.partField k)).mapFlush (s.partField k)).fenceSite k cls kind

/-- A configuration fault of a unit of a site (R165): the unit stops, its fault fields are set, a record is written, and the
step closes with `FAULT`; the flush of that close clears the fields again (R168). `cause` is the code of R168. -/
def State.configFault (s : State) (k unit cause cls : Nat) : State :=
  let x := s.site k
  let e := (x.unit unit).epoch
  let first := x.fabFaultCause == 0
  let s := s.reportSite cls k unit []
  let s := s.modSite k fun x =>
    let x := { x with stopped := unit :: x.stopped }
    if first then { x with fabFaultUnit := unit % 256, fabFaultCause := cause, fabFaultEpoch := e } else x
  s.forceClose (s.partField k)

end Sys2Proof.Machine
end

