-- ==== Sys2Proof/Machine/AlmOps.lean ====
section
/-! DEFINITION. Deadline watches and counters of the Almanac, and the tests of its active bank (09 R281 to R287). -/

namespace Sys2Proof.Machine

/-- Add to an Almanac counter of a partition (R286): 0 `LATE_STEP`, 1 `LATE_SLOT`, 2 `LATE_TWIN`, 3 `LATE_POWER`,
4 `LATE_PHASE`, 5 `STEP_OVERRUN`, 6 `SKIPPED`, 7 `SLOT_OVERRUN`. -/
def State.almCount (s : State) (p i n : Nat) : State :=
  let (c, o) := ctrAdd (Tbl.get {} (s.part p).almCtr i) n
  (s.modPart p fun x => { x with almCtr := Tbl.set {} i c x.almCtr }).ovfIf o 0x12000000 i

/-- Whether the active bank holds an entry of a partition with an action. -/
def State.almHas (s : State) (p action : Nat) : Bool := s.alm.active.any fun e => e.2.action == action && e.2.part == p

/-- Whether a partition is gated (R281). -/
def State.gated (s : State) (p : Nat) : Bool := s.almHas p 1

/-- The unit of a deadline in FT units (R277). -/
def dlUnit (scale : Nat) : Nat := if scale = 0 then 64 else if scale = 1 then ftUs else ftMs

/-- The counter of a late action (R286). -/
def lateCounter (action : Nat) : Nat :=
  if action = 1 then 0 else if action = 2 then 1 else if action = 4 then 2 else if action = 5 then 3 else 4

/-- Other entries take the places of the active bank that `f` names: the watches that the former ones opened stay with their partitions (R290),
and name no entry of the bank. -/
def State.watchOrphan (s : State) (f : Nat → Bool) : State :=
  (List.range 16).foldl (fun s p => s.modPart p fun x => { x with watches := x.watches.map fun w => if f w.entry then { w with gone := true } else w }) s

/-- A watched action is late (R285): `LATE`, the counter, and an `ALMANAC_LATE` record. The watch closes. -/
def State.watchLate (s : State) (p : Nat) (w : Watch) : State :=
  let s := s.modPart p fun x => { x with watches := x.watches.erase w }
  let s := if w.gone then s else (s.modAlm w.entry fun e => { e with late := true }).unwatch w.entry
  (s.almCount p (lateCounter w.action) 1).report 0x0404 6 p w.entry
    [(8, w.action), (8, 0), (16, w.arg), (32, 0), (64, w.trigger)]

/-- Whether every region of a partition was prewarned in the last microsecond and at least 200 ns ago (R282). -/
def State.prewarned (s : State) (p : Nat) : Bool :=
  (s.regionsOf p).all fun g => match (s.region g).prewarnAt with
    | some w => decide (w + 800 ≤ s.now) && decide (s.now ≤ w + ftUs)
    | none => false

/-- The smallest trigger strictly after `f` that a `STEP_START` entry of a partition contributes: its current one, or one that it will
take on re-arming (R283). -/
def State.stepAfter (s : State) (p f : Nat) : Option Nat :=
  let cad := (s.part p).cadence
  (s.alm.active.filterMap fun e =>
    if e.2.action = 1 ∧ e.2.part = p then
      if f < e.2.trigger then some e.2.trigger
      else if e.2.rep ∧ cad ≠ 0 then some (e.2.trigger + ((f - e.2.trigger) / cad + 1) * cad)
      else none
    else none).min?

/-- Whether the gate that a partition stands at, or comes to next, is that of a slot (R283): the next gate, or the one before the
release that the slot's `STEP_START` trigger governs, or would govern if it were not an overrun. `perm` and `trig` are the permission flag and the
trigger that set it. -/
def State.slotDue (s : State) (p : Nat) (perm : Bool) (trig : Nat) (sl : Slot) : Bool :=
  match sl.gate with
  | none => true
  | some g =>
    if perm then decide (g ≤ trig)
    else match s.alm.active.filterMap fun e => if e.2.action = 1 ∧ e.2.part = p then some e.2.trigger else none with
      | [] => true
      | t :: ts => decide (g ≤ ts.foldl min t)

/-- Issue a prewarn of one region with a load code (R483): feedforward for the code. -/
def State.prewarnRegion (s : State) (g code : Nat) : State :=
  s.modRegion g fun r => { r with prewarnAt := some s.now, lambda := code % 16 }

end Sys2Proof.Machine
end

