-- ==== Sys2Proof/Machine/Calends.lean ====
section
/-! DEFINITION. The commands of a member's Calends: close, vote, the outcomes, replay and step release
(01 R38 to R56, 04 R164, 06 R202, 09 R281, R282, 10 R295 to R302, R315, R319). -/

namespace Sys2Proof.Machine

/-- The groups of a partition's Ordo of which the device is a member (R44). -/
def State.groupsOf (s : State) (p : Nat) : List GroupDef :=
  match (s.part p).ordo with
  | some o => o.groups.filter fun g => g.members.contains s.hub.devId
  | none => []

/-- The Herald device of a group as the group state names it (R20, R431). -/
def Job.heraldOf (j : Job) (g : GroupDef) : Nat := Tbl.get g.herald j.heralds g.group

/-- `CALENDS_CLOSE` (R41): when the last phase has completed in every tile of the partition, the Calends closes the step,
writes back the residue, derives the verdict, computes the digests and writes the prepared record. Where a chunk that the device contributed to
has no final tag, that is a configuration fault of the contributing unit (R120, R165). -/
def execCalendsClose (t p : Nat) (s : State) : Out :=
  let s := s.adv t
  .next <| match s.job p with
  | none => s
  | some j =>
    if j.st = .running ∧ s.phaseCount p ≤ j.phase then
      (match j.missingTag with
        | some c => s.configFault c.2.1 c.2.2 5 0x0205
        | none => s.closeStep p false).watchMet p fun w => w.action == 6 && w.armed && w.arg == 0xFFFF
    else s

/-- Whether the vote of a closed attempt is still withheld for the mirror of the previous step (R42). -/
def State.mirrorOpen (s : State) (p : Nat) : Bool :=
  (s.part p).twin.phase != .idle && ((s.part p).twin.st == .bound || (s.part p).twin.st == .syncing)

/-- Send a vote to the Herald of every group of the job (R41 step 5, R43). -/
def State.sendVotes (s : State) (p : Nat) (j : Job) (v : Vote) : State :=
  s.injects ((s.groupsOf p).map fun g => s.votePacket (j.heraldOf g) { v with group := g.group })

/-- `VOTE_SEND` (R42): the vote goes to every group Herald once the previous step's twin acknowledgement has arrived or its
deadline has expired. A faulted job sends none (R38). -/
def execVoteSend (t p : Nat) (s : State) : Out :=
  let s := s.adv t
  .next <| match s.job p with
  | none => s
  | some j =>
    match j.vote with
    | none => s
    | some v =>
      if j.st = .closed ∧ ¬ j.voteSent ∧ ¬ j.faulted ∧ ¬ s.mirrorOpen p then
        let v := { v with flags := (v.flags &&& ~~~2) ||| (if j.unmirrored then 2 else 0) }
        (s.sendVotes p j v).modJob p fun j =>
          { j with voteSent := true, vote := some v, st := if j.holdSeen then .hold else .voting }
      else s

/-- The root group of a job. -/
def State.rootGroup (s : State) (p : Nat) (j : Job) : Option GroupDef :=
  (s.groupsOf p).find? fun g => g.group == j.rootGroup

/-- `OUTCOME_QUERY_TIMEOUT` (R50): no root outcome by `CLOSE_FT` plus twice the vote deadline plus 10 µs: a query that carries
the vote goes to the root Herald by the routes of every group shared with it. A member whose vote R42 still withholds sends no query
(DESIGN CHOICE, log 88). -/
def execOutcomeQueryTimeout (t p : Nat) (s : State) : Out :=
  let s := s.adv t
  .next <| match s.job p with
  | none => s
  | some j =>
    match s.rootGroup p j, j.vote with
    | some g, some v =>
      if j.st = .voting ∧ j.prepared.isSome ∧ j.queryFt = none ∧
          j.closeFt + 2 * g.deadlineUs * ftUs + 10 * ftUs ≤ s.now then
        let h := j.heraldOf g
        let shared := (s.groupsOf p).filter fun x => x.members.contains h
        (s.injects (shared.map fun _ => s.queryPacket h { v with group := g.group })).modJob p fun j => { j with queryFt := some s.now }
      else s
    | _, _ => s

/-- `HERALD_SILENT` (R50): the query went unanswered for 10 µs: the step is treated as HOLD, the prepared record kept. -/
def execHeraldSilent (t p : Nat) (s : State) : Out :=
  let s := s.adv t
  .next <| match s.job p with
  | none => s
  | some j =>
    match j.queryFt with
    | none => s
    | some f =>
      if j.st = .voting ∧ f + 10 * ftUs ≤ s.now then
        let s := s.modJob p fun j => { j with st := .hold, queryFt := none }
        (s.report 0x0902 9 p (p + 16 * j.rootGroup + 1024) []).event 0x0401 p [(8, j.rootGroup), (64, j.step)]
      else s

/-- Keep an outcome packet for census (R44, R456). -/
def State.keepOutcome (s : State) (o : OutcomePkt) : State :=
  { s with outcomes := Tbl.set [] o.group ((o :: Tbl.get [] s.outcomes o.group).take 4) s.outcomes }

/-- Whether an outcome is the root outcome of the job's step and attempt (R44). -/
def Job.concerns (j : Job) (o : OutcomePkt) : Bool :=
  o.group == j.rootGroup && o.step == j.step && o.attempt == j.attempt

/-- The seal of a generation in the job's tables (R24 to R26, R29, R30, R53 steps 1 and 2). The step that follows carries no unmirrored flag
of its own: that votes after the one that announced a broken binding go without it is the model's reading (DESIGN CHOICE, log 129). -/
def Job.seal (j : Job) (now : Nat) : Job :=
  match j.prepared with
  | none => j
  | some i =>
    let r : LedgerRec := { (Tbl.get {} j.ledger i : LedgerRec) with state := .sealed, sealFt := now }
    let old : GenRec := { gen := j.step, lrec := j.lastSealed, live := j.live, digests := j.digSealed }
    let flips := j.maskTable
    { j with
      live := flips.foldl (fun t e => Tbl.set 0 e.1 (Tbl.get 0 t e.1 ^^^ e.2) t) j.live
      flipped := flips.foldl (fun t e => ((List.range 64).filter fun b => bitAt e.2 b).foldl
        (fun t b => Tbl.set none (64 * e.1 + b) (some j.step) t) t) j.flipped
      dirty := [], maskTable := [], prepared := none
      ledger := Tbl.set {} i r j.ledger, lastSealed := r
      gens := (old :: j.gens).take (j.depth - 1)
      log := (j.log.map fun x => { x with fresh := false }).filter fun x => decide (j.step + 2 ≤ x.flip + j.depth)
      digSealed := j.digWorking, epactSealed := j.epact, anchorsSealed := j.anchors, chanSealed := j.chanWorking
      heraldsSealed := j.heraldsWorking
      step := j.step + 1, attempt := 0, replay := false, queryFt := none, holdSeen := false, vote := none
      unmirrored := false, excess := [] }

/-- `LAST_CLEAN` of every site whose Σ equalled its partner's at the close of the sealed attempt (R301, R319). -/
def State.lastClean (s : State) (ks : List Nat) (step : Nat) : State :=
  ks.foldl (fun s k => s.modSite k fun y => { y with lastClean := BitVec.ofNat 64 step }) s

/-- Release a mirror to the twin, if one is bound (R53 step 3, R412). A seal made while none is bound, or the binding is broken, does not
show as unmirrored in `COMMIT_STATUS` (DESIGN CHOICE, log 87). A release of R53 step 3 waits for a `TWIN_BEGIN` of the partition
where its active bank holds one (R287); the full mirror that a binding or `JOB_START` begins with is none of those (DEDUCED, log 35). -/
def State.mirrorPend (s : State) (p : Nat) (masks : Tbl (BitVec 64)) (step : Nat) (sealing : Bool) : State :=
  let tw := (s.part p).twin
  if tw.st = .bound ∨ tw.st = .syncing then
    (s.modTwin p fun x =>
      { x with phase := .pending, mStep := step, mMasks := if x.full then [] else masks, naked := false,
               waitBegin := sealing && s.almHas p 4 }).modJob p fun j => { j with sealUnmirrored := true }
  else s.modJob p fun j => { j with sealUnmirrored := false }

/-- Choose the Vigil sites of every region of a partition (R295). -/
def State.vigilGate (s : State) (p : Nat) : State := (s.regionsOf p).foldl (fun s g => s.vigilSelect g) s

/-- Load a tile's sequencer memories from its HANDLERS record, zero beyond the images (R202). -/
def loadHandlers (o : Ordo) (tile : Nat) (m : List Host.Cell) : List Host.Cell :=
  let r : HandlerRec := (o.handlers.find? fun h => h.tile == tile).getD {}
  let z := memBlit m 0xBA000 0x6000 []
  memWriteN (memWriteN z 0xBA000 (r.imem.take 16384)) 0xBE000 (r.dmem.take 8192)

/-- The persistent mask that the TALLY section declares for a tile (R187, R573). -/
def persistMask (o : Ordo) (tile : Nat) : BitVec 192 :=
  (o.sliceMaps.filter fun m => m.tile == tile).foldl (fun w m => w ||| (1#192 <<< m.sgran)) 0

/-- Load a tile's sequencer memories, then its persistent granules from `g` on from their live sides (R54, R202). What is written whole holds fresh
check bits (R172). -/
def State.loadSlice (s : State) (p k g : Nat) : State :=
  match (s.part p).ordo, s.job p with
  | some o, some j =>
    let tile := s.tileAt k
    let all := o.sliceMaps.filter fun x => x.tile == tile && decide (g ≤ x.sgran)
    let s := all.foldl (fun (s : State) x => s.granLoad p x.page x.pgran) s
    let maps := all.filter fun x => s.pageUp (j.sidePage x.page (j.liveSide x.page x.pgran))
    let m := maps.foldl (fun m x => memBlit m (4096 * x.sgran) 4096 (s.granSealed j x.page x.pgran))
      (loadHandlers o tile (s.site k).mu.slice)
    s.modSite k fun x =>
      { x with mu := { x.mu with
          slice := m
          errs := x.mu.errs.filter fun e => decide (e.1 < 0xBA00) && !(maps.any fun y => y.sgran == e.1 / 256) } }
  | _, _ => s

/-- Reload one tile's site: sequencer memories, then the persistent granules from their live sides (R54, R202, R312). The other bytes of
the slice, undefined across a replay (R297), keep what the discarded attempt left (DESIGN CHOICE, log 86). -/
def State.reloadSite (s : State) (p k : Nat) : State :=
  match (s.part p).ordo, s.job p with
  | some o, some j =>
    let tile := s.tileAt k
    let r : HandlerRec := (o.handlers.find? fun h => h.tile == tile).getD {}
    (s.loadSlice p k 0).modSite k fun x =>
      { x with mu := { x.mu with tags := [], persistent := persistMask o tile, dirty := 0 }, chans := sealedChans j.chanSealed tile,
               seq := { x.seq with compat := r.compat } }
  | _, _ => s

/-- At the start of the first attempt of a step, every tile's sequencer memories are loaded, data memory's persistent granules from their live
sides (R202). -/
def State.loadSeqs (s : State) (p : Nat) : State := (s.tileSites p).foldl (fun s k => s.loadSlice p k 190) s

/-- `SEAL_OUTCOME` (R53): the sealed record, the step index, the published digest, the mirror release; then the gate, where the sequencer
memories of the next attempt are loaded (R202). A job
that a reset stopped seals its prepared record and stays stopped (R511). A job that ran while a debug scope opened seals no more: it stays
stopped (R34). -/
def execSealOutcome (t p : Nat) (o : OutcomePkt) (s : State) : Out :=
  let s := s.adv t
  .next <| match s.job p with
  | none => s
  | some j =>
    let s := s.keepOutcome o
    if j.debugged then s
    else if j.concerns o ∧ o.outcome = .seal ∧ j.prepared.isSome ∧ (j.voteSent ∨ j.st = .stopped) then
      let masks := j.maskTable
      let s := (s.modJob p fun j => (j.seal s.now)).ledgerOut p
      let s := s.modJob p fun x => { x with st := if j.st = .stopped then .stopped else .atGate }
      let s := s.lastClean j.matched j.step
      let d := match s.job p with
        | some j => j.lastSealed.stateDigest
        | none => 0
      let s := s.event 0x0405 p [(64, j.step), (128, d.toNat)]
      let s := s.mirrorPend p masks j.step true
      ((s.loadSeqs p).vigilGate p).modPart p fun x => { x with gate := true }
    else s

/-- Place the third sites of a region before a replay (R302): in ascending tile; nothing where no site is left (R304). -/
def State.placeThird (s : State) (g : Nat) : State :=
  let pairs := (s.region g).pairs.mergeSort fun a b => decide (a.1 ≤ b.1)
  let s := s.modRegion g fun r => { r with pairs := [] }
  pairs.foldl (fun s x =>
    let used := pairs.flatMap fun y => [y.2.1, y.2.2.1]
    let free := match nearest x.2.1 (s.sitesIn g .spare) with
      | some q => some q
      | none => nearest x.2.1 ((s.sitesIn g .vigil).filter fun q => !used.contains q)
    match x.2.2.2, free with
    | none, some q =>
      let s := s.moveTo g x.1 q false .vigil
      let s := s.modSite (siteKey g x.2.1) fun y => { y with tile := x.1 }
      s.modRegion g fun r => { r with pairs := r.pairs ++ [(x.1, x.2.1, x.2.2.1, some q)] }
    | t3, _ => s.modRegion g fun r => { r with pairs := r.pairs ++ [(x.1, x.2.1, x.2.2.1, t3)] }) s |>.rerouteRegion g

/-- `REPLAY_OUTCOME` (R54): the attempt is discarded, the partition flushed (R166), third sites placed (R302); the member waits
for its repairs. A job that a reset stopped discards its record and starts only for an operator release (R511). A rewound job takes the operator's replay of
the held step as the next attempt of its own step (R28, R52, log 31). An operator release reaches a member in any state, one whose
attempt still runs included (R51, log 20), and a member that is past it already ignores it. A job that ran while a debug scope opened
stays stopped (R34). -/
def execReplayOutcome (t p : Nat) (o : OutcomePkt) (s : State) : Out :=
  let s := s.adv t
  .next <| match s.job p with
  | none => s
  | some j =>
    let s := s.keepOutcome o
    let operator := o.reason == 0x14
    let next := if operator then max 2 (o.attempt + 1) else 1
    if o.group = j.rootGroup ∧ (o.step = j.step ∨ (j.rewound ∧ operator)) ∧ o.outcome = .replay ∧
        (if operator then j.rewound ∨ j.attempt < next else o.attempt = j.attempt) then
      let s := s.discardAttempt p
      if j.debugged ∨ (j.st = .stopped ∧ ¬ operator) then s
      else
        let s := (s.stopPart p).flush p false
        let s := (s.regionsOf p).foldl (fun s g => s.placeThird g) s
        s.modJob p fun j =>
          { j with st := .replayWait, replay := true, released := false, faulted := false, holdSeen := false, queryFt := none, vote := none,
                   voteSent := false, rewound := false, attempt := next }
    else s

/-- Raise the anchor of a spanning chunk at the start of a replay (R39), in the working side of its entry. -/
def State.raiseAnchor (s : State) (p : Nat) (e : Nat × Int) : State :=
  match s.job p with
  | some j => s.setAnchor p e.1 (anchorRaise (Tbl.get 0 j.anchors e.1) e.2)
  | none => s

/-- Reload every tile of a partition (R54). -/
def State.reloadPart (s : State) (p : Nat) : State := (s.tileSites p).foldl (fun s k => s.reloadSite p k) s

/-- Whether the live sides of the tally pages from which the tiles of a partition reload stand on channels in service (R378): without them the job
has no readable sealed state. -/
def State.tallyReadable (s : State) (p : Nat) : Bool := match (s.part p).ordo, s.job p with
  | some o, some j => o.sliceMaps.all fun x => s.pageUp (j.sidePage x.page (j.liveSide x.page x.pgran))
  | _, _ => true

/-- `REPLAY_START` (R54, R315): every repair has completed: the tiles reload from the live sides, spanning chunks raise their
anchors (R39), and the next attempt stands at its release. A region that cannot hold its tiles, or whose fill stopped
(R316), never starts, nor does a job without readable sealed state (R378; DEDUCED, log 133). -/
def execReplayStart (t p : Nat) (s : State) : Out :=
  let s := s.adv t
  .next <| match s.job p with
  | none => s
  | some j =>
    if j.st = .replayWait ∧ ¬ j.fillStopped ∧ (s.part p).sweep = none ∧ ¬ s.tagsOpen p ∧
        s.tallyReadable p ∧ s.routed p ∧ (s.regionsOf p).all (fun g => (s.region g).repairs.isEmpty && s.holdsAll g) then
      let s := s.reloadPart p
      let s := (j.excess.foldl (fun (s : State) e => s.raiseAnchor p e) s).modJob p fun j => { j with st := .atGate, excess := [] }
      s.modPart p fun x => { x with halted := false }
    else s

/-- `HOLD_OUTCOME` (R51): the job stops, its working state and prepared record kept. A HOLD that finds the attempt still running
lets it go on to its late vote (R52, assumption 20). A record that a reset left behind is discarded (R511). -/
def execHoldOutcome (t p : Nat) (o : OutcomePkt) (s : State) : Out :=
  let s := s.adv t
  .next <| match s.job p with
  | none => s
  | some j =>
    let s := s.keepOutcome o
    if j.concerns o ∧ o.outcome = .hold then
      let s := s.event 0x0404 p [(8, o.group), (8, o.attempt), (8, o.reason), (16, o.firstMissing), (64, o.step)]
      if j.st = .stopped ∧ j.prepared.isSome ∧ ¬ j.faulted then (s.discardAttempt p).modJob p fun j => { j with st := .stopped }
      else if j.st = .running ∨ (j.st = .closed ∧ ¬ j.voteSent ∧ ¬ j.faulted) then s.modJob p fun j => { j with holdSeen := true }
      else s.modJob p fun j => { j with st := .hold, queryFt := none }
    else s

/-- `ABANDON_OUTCOME` (R51): prepared record and working state are discarded; the job stays stopped on its last sealed
generation. -/
def execAbandonOutcome (t p : Nat) (o : OutcomePkt) (s : State) : Out :=
  let s := s.adv t
  .next <| match s.job p with
  | none => s
  | some j =>
    let s := s.keepOutcome o
    if j.concerns o ∧ o.outcome = .abandon then
      (s.discardAttempt p).modJob p fun j => { j with st := .stopped, queryFt := none, holdSeen := false, vote := none }
    else s

/-- `WB_WRITE_BACK` (R23, R187): the DMA port carries the oldest queued granule of a site to its tally granule, if it is still
dirty and persistent writes are open. -/
def execWbWriteBack (t site : Nat) (s : State) : Out :=
  let s := s.adv t
  .next <| match (s.site site).mu.wbQueue with
  | [] => s
  | g :: rest =>
    let s := s.modSite site fun x => { x with mu := { x.mu with wbQueue := rest } }
    match s.partOfRegion (keyRegion site) with
    | none => s
    | some p =>
      if bitAt (s.site site).mu.dirty g ∧ (s.site site).st = .tile then s.writeBack p site g else s

/-- The reads by which Vigil sites are loaded from a target (R172, R297): its persistent granules and sequencer memories. -/
def State.vigilReads (s : State) (k : Nat) : State :=
  (s.bankRead k (fun e => bitAt (s.site k).mu.persistent (e / 256)) true).eccRange k 0xBA000 0x6000 true

/-- `VIGIL_LOAD` (R297): every Vigil site of a region is loaded with its target's persistent granules, sequencer memories,
window descriptors and active configuration; the rest of its data area is zero. -/
def execVigilLoad (t g : Nat) (s : State) : Out :=
  let s := s.adv t
  .next <| match s.partOfRegion g with
  | none => s
  | some p =>
    match s.job p with
    | none => s
    | some j =>
      if j.st = .atGate then
        let s := s.vigilAssign g p j.step
        let s := (s.region g).targets.foldl (fun s x =>
          let kP := siteKey g (Tbl.get {} (s.region g).tiles x.2 : TileEnt).site
          let s := s.vigilReads kP
          let src := s.site kP
          let m := (List.range 192).foldl (fun m i =>
            if bitAt src.mu.persistent i then memBlit m (4096 * i) 4096 (memGrab src.mu.slice (4096 * i) 4096) else m)
            (memBlit [] 0xBA000 0x6000 (memGrab src.mu.slice 0xBA000 0x6000))
          s.modSite (siteKey g x.1) fun y =>
            { y with mu := { y.mu with slice := m, errs := [], tags := src.mu.tags.filter fun t => bitAt src.mu.persistent (t.1 / 64), persistent := src.mu.persistent, dirty := 0, windows := src.mu.windows },
                     units := withSwitches src.units y.units, ej := src.ej.map fun e => (e.1, { e.2 with fifo := [], owed := 0 }),
                     inj := src.inj.map fun e => (e.1, { e.2 with outq := [] }), chans := src.chans, phaseAt := src.phaseAt,
                     anchorCache := src.anchorCache, fwdMsgs := [], fwdTry := [],
                     seq := { y.seq with compat := src.seq.compat } }) s
        s.modRegion g fun r => { r with loaded := r.targets.map (·.1) }
      else s

/-- Whether every Vigil site of a region with a target of the step, the shadows of mismatched pairs among them, is loaded (R297, R302). -/
def State.vigilLoaded (s : State) (g p step : Nat) : Bool :=
  (s.shadowPlan g p step).all fun x => (s.region g).loaded.contains x.1

/-- What a step release needs beside its prewarn (R164, R281, R284, R297, R455, R484); `perm` stands for the permission flag, `trig` for the trigger
that set it. -/
def State.releaseReady (s : State) (p : Nat) (j : Job) (perm : Bool) (trig : Nat) : Bool :=
  let x := s.part p
  j.st == .atGate && !x.underReset && x.sweep.isNone && !x.halted && !x.flushing && s.routed p &&
    (j.first || j.replay || !s.gated p || perm) &&
    ((j.first || j.replay) || x.slots.all fun sl => !(sl.opened.isSome) && !s.slotDue p perm trig sl) &&
    (s.tileSites p).all (fun k => (s.site k).phaseAt == some 0) &&
    (s.regionsOf p).all (fun g => s.vigilLoaded g p j.step && (s.region g).surgeOk && (s.region g).repairs.isEmpty &&
      (s.region g).logic == .on && !(s.region g).clocksOff) &&
    (List.range 24).all (fun m => match (s.mbx m).capture with
      | some _ => match (s.mbx m).running with
        | some d => d.part != p
        | none => true
      | none => true)

/-- The conditions of a step release (R164, R281, R282, R284, R297, R455, R484). -/
def State.releaseDue (s : State) (p : Nat) (j : Job) : Bool :=
  s.releaseReady p j (s.part p).perm (s.part p).permTrig && s.prewarned p && (match j.releaseHold with
      | some h => decide (h ≤ s.now)
      | none => true)

/-- What of the memory unit and the vector pipeline is new at each attempt: the tags of segments in the slice, which no persistent state
holds, are gone, and the first phase, whose switch may precede the last close, reads the step's own anchors (R121, R125; DEDUCED, log 131). -/
def State.freshValues (s : State) (p : Nat) : State :=
  s.modSites (s.sitesOf p) fun k x => { x with mu := { x.mu with tags := [] }, anchorCache := s.anchorsFor x (keyRegion k) }

/-- `STEP_RELEASE` (R164): the Calends releases the step once its gate conditions hold: signals, barrier counts and semaphore
flags are 0 (R236), Vigil sites take their targets (R296), history opens (R318), the permission flag clears (R281). The
`JOB_START` that waits for the first release completes. -/
def execStepRelease (t p : Nat) (s : State) : Out :=
  let s := s.adv t
  .next <| match s.job p with
  | none => s
  | some j =>
    if s.releaseDue p j then
      let s := s.modSites (s.sitesOf p) fun _ x => { x with signals := [], bars := [], sem := 0, sig := [] }
      let s := (s.freshValues p).clearBarriers p
      let s := (s.regionsOf p).foldl (fun s g => (s.vigilAssign g p j.step).modRegion g fun r => { r with loaded := [] }) s
      let s := (s.tileSites p).foldl (fun s k => s.modSite k fun x => { x with hist := histAdd (s.tileAt k) 1 j.step x.hist }) s
      let s := (s.regionsOf p).foldl (fun s g => (s.region g).targets.foldl (fun s x =>
        s.modSite (siteKey g x.1) fun y => { y with hist := histAdd (tileOf g x.2) 2 j.step y.hist }) s) s
      let e := match s.tileSites p with
        | k :: _ => (s.site k).epoch
        | [] => (s.part p).epoch
      let byFlag := s.gated p && !j.first && !j.replay
      let s := if byFlag then
          let ent := (s.part p).permEntry
          (s.watchMet p fun w => w.action == 1 && some w.entry == ent).modPart p fun x => { x with perm := false, permEntry := none }
        else s
      let s := s.modJob p fun j =>
        { j with st := .running, released := true, first := false, phase := 0, phaseDone := [], releaseFt := s.now,
                 phaseFt := [(0, s.now)], timers := true, stepTimer := true, relEpoch := e, faultSeen := j.loadUe, loadUe := false, shadowSeen := false, spanSeen := false,
                 idesFired := false, contributed := [], forcedClose := false, writesBlocked := false, faulted := false,
                 vote := none, voteSent := false, queryFt := none, holdSeen := false, releaseHold := none, startMb := none }
      let s := s.modPart p fun x =>
        { x with gate := false, idesLater := 0, watches := x.watches.map fun w =>
            if w.action == 6 && !w.armed && decide (w.trigger ≤ s.now) then { w with armed := true } else w }
      match j.startMb with
      | some mb => s.finish mb stOk (j.step % 65536)
      | none => s
    else s

end Sys2Proof.Machine
end

