-- ==== Sys2Proof/Machine/Heralds.lean ====
section
/-! DEFINITION. The Herald contexts: vote windows, the decision table, outcome packets, late votes, outcome queries, the release
of a HOLD, and member statistics (01 R44 to R52, R578; 09 R293, R294). -/

namespace Sys2Proof.Machine

/-- Whether a vote packet passes the test of R578. -/
def State.voteValid (s : State) (v : Vote) : Bool :=
  match s.herald v.group with
  | none => false
  | some h => h.members.contains v.device && decide (v.verdict ≤ 3) && v.reserved == 0 && v.flags.toNat / 8 == 0

/-- Discard a packet that fails the test and count it in `STRAY_VOTES` (R578). -/
def State.strayVote (s : State) : State :=
  let (c, o) := ctrAdd s.hub.strayVotes 1
  (s.modHub fun h => { h with strayVotes := c }).ovfIf o 0x01000000 0

/-- The on-time votes of a window, one per member, in rank order: by receipt FT, on a tie by device ID (R46, R294). -/
def Window.onTime (w : Window) : List (Vote × Nat) :=
  let vs := w.votes.filter fun x => decide (x.2 ≤ w.deadline)
  let first := vs.foldl (fun l x => if l.any fun y => y.1.device == x.1.device then l else l ++ [x]) []
  first.mergeSort fun a b => decide (a.2 < b.2 ∨ (a.2 = b.2 ∧ a.1.device ≤ b.1.device))

/-- Whether one member has two votes that differ (R46 row 1). -/
def votesConflict (vs : List Vote) : Bool := vs.any fun a => vs.any fun b => a.device == b.device && a != b

/-- Whether votes agree on `STEP` and `ORDO_ID` (R46 row 3). -/
def votesAgree (vs : List Vote) : Bool :=
  match vs with
  | [] => true
  | v :: rest => rest.all fun u => u.step == v.step && u.ordoId == v.ordoId

/-- Whether the weight digests are equal within every declared replica set (R46 rows 4 and 8). -/
def replicasEqual (sets : List (List Nat)) (vs : List Vote) : Bool :=
  sets.all fun r =>
    match vs.filter fun v => r.contains v.device with
    | [] => true
    | v :: rest => rest.all fun u => u.weightDigest == v.weightDigest

/-- The members without an on-time vote (R46). -/
def Herald.missing (h : Herald) (w : Window) : List Nat :=
  h.members.filter fun m => !(w.onTime.any fun x => x.1.device == m)

/-- The decision table of R46: outcome and reason. -/
def Herald.decision (h : Herald) (w : Window) : OutcomeKind × Nat :=
  let vs := w.onTime.map (·.1)
  let repl := replicasEqual h.replicaSets vs
  let unclean := vs.any fun v => v.verdict != 0
  if votesConflict (w.votes.map (·.1)) then (.hold, 0x12)
  else if h.missing w ≠ [] then (.hold, 0x10)
  else if ¬ votesAgree vs then (.hold, 0x13)
  else if w.attempt ≠ 0 ∧ (unclean ∨ ¬ repl) then (.hold, 0x11)
  else if vs.any fun v => v.verdict == 3 then (.replay, 0x03)
  else if vs.any fun v => v.verdict == 2 then (.replay, 0x02)
  else if vs.any fun v => v.verdict == 1 then (.replay, 0x01)
  else if ¬ repl then (.replay, 0x04)
  else (.seal, 0x00)

/-- Arrival of a vote in ns after the base `CLOSE_FT` (R47, R293). -/
def arrivalNs (ft base : Nat) : Int := ((ft : Int) - base) / 4

/-- The smallest of some device IDs, 0xFFFF with none (R47). -/
def lowestDev (ds : List Nat) : Nat := ds.foldl min 0xFFFF

/-- The outcome packet of a decided window (R47). -/
def Herald.packet (h : Herald) (dev now : Nat) (w : Window) : OutcomePkt :=
  let d := h.decision w
  let miss := h.missing w
  { step := w.step, herald := dev, group := h.group, outcome := d.1, attempt := w.attempt, reason := d.2,
    missing := miss.length, firstMissing := lowestDev miss,
    latest := match w.onTime.getLast? with
      | some x => wrapZ 32 (arrivalNs x.2 w.baseFt)
      | none => 0xFFFFFFFF,
    decideFt := now }

/-- Broadcast an outcome packet to every member (R47). -/
def State.broadcast (s : State) (ms : List Nat) (o : OutcomePkt) : State := s.injects (ms.map fun m => s.outcomePacket m o)

/-- The largest magnitude of `ARRIVAL_SUM`, a signed 48-bit sum that saturates both ways (R293). -/
abbrev arrMax : Int := 0x7FFFFFFFFFFF

/-- One statistics entry after a decision (R293); answers also the counters, by index, whose sticky bit is newly set. -/
def statUpdate (w : Window) (last : Nat) (x : MemStat) : MemStat × List Nat :=
  match w.onTime.zipIdx.find? fun y => y.1.1.device == x.device with
  | none =>
    let (m, o) := ctrAdd x.missing 1
    ({ x with lastRank := 0, lastArrival := -0x80000000, missing := m, streak := satAdd 255 x.streak 1 },
      if o then [1] else [])
  | some y =>
    let a := arrivalNs y.1.2 w.baseFt
    let isLast := y.2 + 1 == last
    let (on', o0) := ctrAdd x.onTime 1
    let (lp, o3) := if isLast then ctrAdd x.lastPlace 1 else (x.lastPlace, false)
    let sum := x.arrivalSum + a
    let out : Bool := decide (arrMax < sum ∨ sum < -arrMax - 1)
    let o4 : Bool := out && !x.arrivalOvf
    ({ x with lastRank := y.2 + 1, lastArrival := a, onTime := on', lastPlace := lp,
              arrivalSum := max (-arrMax - 1) (min arrMax sum), arrivalOvf := x.arrivalOvf || out,
              streak := if isLast then satAdd 255 x.streak 1 else 0, raised := isLast && x.raised },
      (if o0 then [0] else []) ++ (if o3 then [3] else []) ++ (if o4 then [4] else []))

/-- Update the member statistics of a decided window and raise the stragglers (R293, R294). -/
def State.heraldStats (s : State) (g : Nat) (w : Window) : State :=
  match s.herald g with
  | none => s
  | some h =>
    let last := w.onTime.length
    let upd := h.stats.map (statUpdate w last)
    let late := fun (x : MemStat) => decide (h.threshold ≠ 0 ∧ h.threshold ≤ x.streak) && !x.raised
    let s := s.setHerald g (some { h with stats := upd.map fun u => if late u.1 then { u.1 with raised := true } else u.1 })
    let s := (upd.zipIdx).foldl (fun s u =>
      u.1.2.foldl (fun s c => s.ovfEvent (0x16000000 + h.firstEntry + u.2) c) s) s
    (upd.filter fun u => late u.1).foldl (fun s u => s.event 0x0403 0xFF [(8, g), (8, u.1.streak), (16, u.1.device)]) s

/-- Decide a window: outcome, retention for four steps, broadcast, statistics (R46 to R48, R293). -/
def State.decideWindow (s : State) (g : Nat) (w : Window) : State :=
  match s.herald g with
  | none => s
  | some h =>
    let o := h.packet s.hub.devId s.now w
    let vs := w.votes.map (·.1)
    let keep := fun (st : Nat) => decide (w.step < st + 4)
    let h' := { h with
      windows := h.windows.filter fun x => !(x.step == w.step && x.attempt == w.attempt)
      outcomes := (o :: h.outcomes).filter fun x => keep x.step
      held := if o.outcome = .hold then o :: h.held else h.held
      heldVotes := if o.outcome = .hold then h.heldVotes ++ vs else h.heldVotes
      decidedVotes := (vs ++ h.decidedVotes).filter fun v => keep v.step }
    ((s.setHerald g (some h')).broadcast h.members o).heraldStats g w

/-- Whether a Herald has decided a step and attempt: the packet is retained, or the step is older than all retained (R48, R49). -/
def Herald.decided (h : Herald) (step attempt : Nat) : Bool :=
  h.outcomes.any fun o => (o.step == step && o.attempt == attempt) || decide (step + 4 ≤ o.step)

/-- A vote that arrives after its outcome is decided (R49, R50): a copy of a vote held counts nothing. -/
def State.lateVote (s : State) (v : Vote) : State :=
  match s.herald v.group with
  | none => s
  | some h =>
    if h.decidedVotes.contains v then s
    else
      let held : Bool := h.held.any fun o => o.step == v.step && o.attempt == v.attempt
      let i := h.stats.findIdx fun x => x.device == v.device
      let (c, o) := ctrAdd ((h.stats.getD i {}).lateVotes) 1
      (s.setHerald v.group (some { h with
        stats := h.stats.map fun x => if x.device = v.device then { x with lateVotes := c } else x
        heldVotes := if held then h.heldVotes ++ [v] else h.heldVotes
        decidedVotes := v :: h.decidedVotes })).ovfIf o (0x16000000 + h.firstEntry + i) 2

/-- A valid vote reaches its Herald (R45, R46, R49): it opens or joins the window of its step and attempt; a vote past the
deadline finds the outcome decided. -/
def State.acceptVote (s : State) (v : Vote) : State :=
  match s.herald v.group with
  | none => s
  | some h =>
    if h.decided v.step v.attempt then s.lateVote v
    else
      let w : Window := match h.windows.find? fun x => x.step == v.step && x.attempt == v.attempt with
        | some w => w
        | none => { step := v.step, attempt := v.attempt, baseFt := v.closeFt,
                    deadline := v.closeFt + h.deadlineUs * ftUs }
      let others := h.windows.filter fun x => !(x.step == v.step && x.attempt == v.attempt)
      if w.deadline < s.now then (s.decideWindow v.group w).lateVote v
      else if w.votes.any fun x => x.1 == v then s
      else
        let w := { w with votes := w.votes ++ [(v, s.now)] }
        let s := s.setHerald v.group (some { h with windows := others ++ [w] })
        if h.missing w = [] then s.decideWindow v.group w else s

/-- `VOTE_RECEIVE` (R45): a vote opens or joins its window; the Herald decides once every member has an on-time vote. -/
def execVoteReceive (t : Nat) (v : Vote) (s : State) : Out :=
  let s := s.adv t
  .next <| if s.voteValid v then s.acceptVote v else s.strayVote

/-- `VOTE_DEADLINE_EXPIRE` (R46): the deadline of an open window has passed: the Herald decides. -/
def execVoteDeadlineExpire (t g step attempt : Nat) (s : State) : Out :=
  let s := s.adv t
  .next <| match s.herald g with
  | none => s
  | some h =>
    match h.windows.find? fun x => x.step == step && x.attempt == attempt with
    | some w => if w.deadline ≤ s.now then s.decideWindow g w else s
    | none => s

/-- `HERALD_QUERY_RECEIVE` (R48, R50, R578): an undecided Herald takes the carried vote; a decided one answers with the retained
packet and counts the vote late only when it holds no identical one. A query whose vote fails the test of R578 counts as a stray vote
(DESIGN CHOICE, log 91). -/
def execHeraldQueryReceive (t : Nat) (v : Vote) (s : State) : Out :=
  let s := s.adv t
  .next <| if ¬ s.voteValid v then s.strayVote
  else
    match s.herald v.group with
    | none => s
    | some h =>
      if h.decided v.step v.attempt then
        let s := s.lateVote v
        match h.outcomes.find? fun o => o.step == v.step && o.attempt == v.attempt with
        | some o => s.inject (s.outcomePacket v.device o)
        | none => s
      else s.acceptVote v

/-- The HOLD in force for a step and attempt (R51). -/
def Herald.heldFor (h : Herald) (step attempt : Nat) : Option OutcomePkt := h.held.find? fun o => o.step == step && o.attempt == attempt

/-- Whether the HOLD of a step and attempt may be released with `SEAL` (R51). -/
def Herald.sealable (h : Herald) (step attempt : Nat) : Bool :=
  let vs := h.heldVotes.filter fun v => v.step == step && v.attempt == attempt
  (h.members.all fun m => vs.any fun v => v.device == m && v.verdict == 0) &&
    (vs.filter fun v => h.members.contains v.device).all (fun v => v.verdict == 0) && !votesConflict vs && votesAgree vs &&
    replicasEqual h.replicaSets vs

/-- Release a HOLD of a group (R51, R52): `action` 1 SEAL, 2 REPLAY, 3 ABANDON. Answers the command status. -/
def State.holdRelease (s : State) (g action attempt step : Nat) : State × Nat :=
  match s.herald g with
  | none => (s, stBadArgument)
  | some h =>
    match h.heldFor step attempt with
    | none => (s, stBadArgument)
    | some o =>
      if action = 0 ∨ 3 < action then (s, stBadArgument)
      else if (action = 1 ∧ ¬ h.sealable step attempt) ∨ (action = 2 ∧ attempt = 255) then (s, stNotPermitted)
      else
        let kind : OutcomeKind := if action = 1 then .seal else if action = 2 then .replay else .abandon
        let o' := { o with outcome := kind, reason := 0x14, decideFt := s.now, herald := s.hub.devId }
        let h' := { h with
          held := h.held.filter fun x => !(x.step == step && x.attempt == attempt)
          heldVotes := h.heldVotes.filter fun v => !(v.step == step && v.attempt == attempt)
          outcomes := o' :: h.outcomes.filter fun x => !(x.step == step && x.attempt == attempt) }
        ((s.setHerald g (some h')).broadcast h.members o', stOk)

/-- A fresh context of a group with its statistics entries from index `first` (R293). -/
def GroupDef.context (g : GroupDef) (first : Nat) : Herald :=
  { group := g.group, members := g.members, replicaSets := g.replicaSets, deadlineUs := g.deadlineUs, firstEntry := first,
    stats := (g.members.mergeSort fun a b => decide (a ≤ b)).map fun d => { device := d } }

/-- Add a Herald context after the last statistics entry in use (R293, R429, R431). -/
def State.addHerald (s : State) (g : GroupDef) : State :=
  let first := s.hub.statEntries
  (s.setHerald g.group (some (g.context first))).modHub fun h => { h with statEntries := first + g.members.length }

/-- A Herald context moves away or closes: the entries in use end with the last of those that stay (R293). -/
def State.dropHerald (s : State) (g : Nat) : State :=
  let s := s.setHerald g none
  let n := s.heralds.foldl (fun n e => match e.2 with
    | some h => max n (h.firstEntry + h.members.length)
    | none => n) 0
  s.modHub fun h => { h with statEntries := n }

/-- Whether the entries after the last one in use hold a context more (R293); where gaps below leave none, the model refuses the context as if the
members were too many (DESIGN CHOICE, log 152). -/
def State.heraldRoom (s : State) (g : GroupDef) : Bool := (s.herald g.group).isSome || decide (s.hub.statEntries + g.members.length ≤ 65536)

/-- The members of all groups of which the device would be Herald, beside those that `drop` names (R293). -/
def State.heraldMembers (s : State) (gs : List GroupDef) : Nat :=
  let old := s.heralds.foldl (fun n e => match e.2 with
    | some h => if gs.any fun g => g.group == e.1 then n else n + h.members.length
    | none => n) 0
  old + (gs.map fun g => g.members.length).sum

/-- Open the contexts of a job's groups at `JOB_START` (R293): entries consecutively from 0, in ascending group ID; the job's own
entries are clear. -/
def State.openHeralds (s : State) (gs : List GroupDef) : State :=
  let s := gs.foldl (fun s g => s.setHerald g.group (some (g.context 0))) s
  let (hs, n) := s.heralds.foldl (fun a e => match e.2 with
    | some h => (a.1 ++ [(e.1, some { h with firstEntry := a.2 })], a.2 + h.members.length)
    | none => a) ([], 0)
  { s with heralds := hs, hub := { s.hub with statEntries := n } }

/-- The groups of a partition's Ordo whose Herald the device is, by the Heralds that the Ordo names or those that took their place (R293, R431). -/
def State.ownGroups (s : State) (p : Nat) (moved : Tbl Nat) : List GroupDef :=
  match (s.part p).ordo with
  | some o => o.groups.filter fun g => Tbl.get g.herald moved g.group == s.hub.devId
  | none => []

/-- Close the contexts that a job opened, when it ends. -/
def State.closeHeralds (s : State) (p : Nat) : State :=
  match (s.part p).ordo with
  | some o => o.groups.foldl (fun s g => s.dropHerald g.group) s
  | none => s

end Sys2Proof.Machine
end

