-- ==== Sys2Proof/Machine/Operands.lean ====
section
/-! DEFINITION. Number formats, exact values, rounding, conversion, the keyed generator and Anchored-64
(03 R83 to R97, R109, R114 to R119). -/

namespace Sys2Proof.Machine

/-- A value: NaN, an infinity, or (−1)^neg × mant × 2^exp. -/
inductive Val where
  | nan
  | inf (neg : Bool)
  | fin (neg : Bool) (mant : Nat) (exp : Int)
  deriving DecidableEq, Repr

/-- A floating-point element layout (R84): `kind` 0 has infinities and NaNs as IEEE 754, 1 only the NaN code of E4M3, 2 neither. -/
structure FloatFmt where
  eb : Nat
  mb : Nat
  bias : Nat
  kind : Nat
  deriving DecidableEq, Repr

/-- The floating-point layout of a format code (R83, R84). -/
def floatFmt (code : Nat) : Option FloatFmt :=
  match code with
  | 0x0 => some ⟨8, 23, 127, 0⟩
  | 0x1 => some ⟨8, 7, 127, 0⟩
  | 0x2 => some ⟨5, 10, 15, 0⟩
  | 0x3 => some ⟨4, 3, 7, 1⟩
  | 0x4 => some ⟨5, 2, 15, 0⟩
  | 0x5 => some ⟨4, 3, 7, 1⟩
  | 0x6 => some ⟨5, 2, 15, 0⟩
  | 0x7 => some ⟨3, 2, 3, 2⟩
  | 0x8 => some ⟨2, 3, 1, 2⟩
  | 0x9 => some ⟨2, 1, 1, 2⟩
  | _ => none

/-- Whether a format code is a microscaling format (R83). -/
def isMx (code : Nat) : Bool := decide (5 ≤ code ∧ code ≤ 10)

/-- Bits of an element of a format (R83, R86). -/
def fmtBits (code : Nat) : Nat :=
  match code with
  | 0x0 => 32
  | 0x1 => 16
  | 0x2 => 16
  | 0x3 => 8
  | 0x4 => 8
  | 0x5 => 8
  | 0x6 => 8
  | 0x7 => 6
  | 0x8 => 6
  | 0x9 => 4
  | 0xA => 8
  | 0xB => 8
  | 0xC => 32
  | 0xD => 64
  | _ => 8

/-- The value of a floating-point code (R84). -/
def FloatFmt.decode (f : FloatFmt) (w : Nat) : Val :=
  let neg := bitOn w (f.eb + f.mb)
  let e := bitsN w f.mb f.eb
  let m := bitsN w 0 f.mb
  let ones := 2 ^ f.eb - 1
  if f.kind = 0 ∧ e = ones then (if m = 0 then .inf neg else .nan)
  else if f.kind = 1 ∧ e = ones ∧ m = 2 ^ f.mb - 1 then .nan
  else if e = 0 then .fin neg m (1 - (f.bias : Int) - f.mb)
  else .fin neg (m + 2 ^ f.mb) ((e : Int) - f.bias - f.mb)

/-- The value of an integer code of `n` bits scaled by 2^x. -/
def intVal (n : Nat) (w : Nat) (x : Int) : Val :=
  let z := bitsZ w 0 n
  .fin (decide (z < 0)) z.natAbs x

/-- The value of an element code of a format, an MX element without its scale (R84, R85). -/
def decodeElem (code w : Nat) : Val :=
  match floatFmt code with
  | some f => f.decode w
  | none => if code = 0xA then intVal 8 w (-6) else if code = 0xB then intVal 8 w 0 else intVal 32 w 0

/-- Scale a value by 2^x. -/
def Val.scale (v : Val) (x : Int) : Val :=
  match v with
  | .fin n m e => .fin n m (e + x)
  | v => v

/-- Negate a value. -/
def Val.neg : Val → Val
  | .nan => .nan
  | .inf n => .inf (!n)
  | .fin n m e => .fin (!n) m e

/-- The magnitude of a value. -/
def Val.abs : Val → Val
  | .nan => .nan
  | .inf _ => .inf false
  | .fin _ m e => .fin false m e

/-- Exact sum (R101, R108). -/
def Val.add : Val → Val → Val
  | .nan, _ => .nan
  | _, .nan => .nan
  | .inf a, .inf b => if a = b then .inf a else .nan
  | .inf a, .fin .. => .inf a
  | .fin .., .inf b => .inf b
  | .fin na ma ea, .fin nb mb eb =>
    let e := min ea eb
    let a : Int := ma * 2 ^ (ea - e).toNat
    let b : Int := mb * 2 ^ (eb - e).toNat
    let z := (if na then -a else a) + (if nb then -b else b)
    if z = 0 then .fin (na && nb) 0 e else .fin (decide (z < 0)) z.natAbs e

/-- Exact product (R101, R108). -/
def Val.mul : Val → Val → Val
  | .nan, _ => .nan
  | _, .nan => .nan
  | .inf a, .inf b => .inf (a != b)
  | .inf a, .fin n m _ => if m = 0 then .nan else .inf (a != n)
  | .fin n m _, .inf a => if m = 0 then .nan else .inf (a != n)
  | .fin na ma ea, .fin nb mb eb => .fin (na != nb) (ma * mb) (ea + eb)

/-- Whether a value is zero. -/
def Val.isZero : Val → Bool
  | .fin _ m _ => m == 0
  | _ => false

/-- Compare two values that are not NaN: −1, 0 or 1 (R108: −0 equals +0). -/
def Val.cmp (a b : Val) : Int :=
  match a.add b.neg with
  | .nan => 0
  | .inf n => if n then -1 else 1
  | .fin n m _ => if m = 0 then 0 else if n then -1 else 1

/-- Sign of a value. -/
def Val.isNeg : Val → Bool
  | .nan => false
  | .inf n => n
  | .fin n _ _ => n

/-- IEEE 754-2019 minimum (`mx` false) or maximum: NaN propagates, −0 below +0 (R108). -/
def Val.minmax (mx : Bool) (a b : Val) : Val :=
  match a, b with
  | .nan, _ => .nan
  | _, .nan => .nan
  | a, b =>
    let c := a.cmp b
    let aLow : Bool := decide (c < 0) || (c == 0 && a.isNeg)
    if aLow != mx then a else b

/-- Round mant × 2^exp to a multiple k of 2^q (R91, R92): `mode` 0 nearest even, 1 stochastic with the 16-bit draw, 2 toward zero. -/
def roundGrid (mode draw mant : Nat) (exp q : Int) : Nat :=
  if q ≤ exp then mant * 2 ^ (exp - q).toNat
  else
    let sh := (q - exp).toNat
    let lo := mant / 2 ^ sh
    let rem := mant % 2 ^ sh
    if mode = 0 then
      (if 2 ^ sh < 2 * rem ∨ (2 * rem = 2 ^ sh ∧ lo % 2 = 1) then lo + 1 else lo)
    else if mode = 1 then (if draw < rem * 65536 / 2 ^ sh then lo + 1 else lo)
    else lo

/-- floor(log2) of a nonzero finite value. -/
def floorLog (mant : Nat) (exp : Int) : Int := (Nat.log2 mant : Int) + exp

/-- The canonical NaN of a format (R87). -/
def FloatFmt.nanCode (f : FloatFmt) : Nat :=
  if f.kind = 1 then 2 ^ (f.eb + f.mb) - 1 else (2 ^ f.eb - 1) * 2 ^ f.mb + 2 ^ (f.mb - 1)

/-- The code of the largest finite magnitude (R84). -/
def FloatFmt.maxCode (f : FloatFmt) : Nat :=
  if f.kind = 0 then (2 ^ f.eb - 1) * 2 ^ f.mb - 1
  else if f.kind = 1 then 2 ^ (f.eb + f.mb) - 2
  else 2 ^ (f.eb + f.mb) - 1

/-- The code of an infinite input or an overflow (R89). -/
def FloatFmt.infCode (f : FloatFmt) (sat : Bool) : Nat :=
  if sat ∨ f.kind = 2 then f.maxCode else if f.kind = 1 then f.nanCode else (2 ^ f.eb - 1) * 2 ^ f.mb

/-- Conversion to a floating-point format (R89, R91, R92). -/
def FloatFmt.encode (f : FloatFmt) (mode draw : Nat) (sat : Bool) (v : Val) : Nat :=
  let sgn := 2 ^ (f.eb + f.mb)
  match v with
  | .nan => f.nanCode
  | .inf n => if f.kind = 1 ∧ ¬ sat then f.nanCode else f.infCode sat + (if n then sgn else 0)
  | .fin n m e =>
    let s := if n then sgn else 0
    if m = 0 then s
    else
      let q := max (floorLog m e - f.mb) (1 - (f.bias : Int) - f.mb)
      let k := roundGrid mode draw m e q
      let code := (((q + f.mb + f.bias) * 2 ^ f.mb + k) - 2 ^ f.mb).toNat
      if f.maxCode < code then
        if mode = 2 then f.maxCode + s
        else if f.kind = 1 ∧ ¬ sat then f.nanCode
        else f.infCode sat + s
      else code + s

/-- Conversion to an integer format of `n` bits (R89). -/
def encodeInt (n mode draw : Nat) (v : Val) : Nat :=
  let top : Int := 2 ^ (n - 1)
  match v with
  | .nan => 0
  | .inf neg => wrapZ n (if neg then -top else top - 1)
  | .fin neg m e =>
    let k : Int := roundGrid mode draw m e 0
    wrapZ n (max (-top) (min (top - 1) (if neg then -k else k)))

/-- Conversion of one value to a format without a block scale (R89). -/
def encodeElem (code mode draw : Nat) (sat : Bool) (v : Val) : Nat :=
  match floatFmt code with
  | some f => f.encode mode draw sat v
  | none => if code = 0xB then encodeInt 8 mode draw v else encodeInt 32 mode draw v

/-- emax of an MX element format (R90). -/
def mxEmax (code : Nat) : Int :=
  match code with
  | 5 => 8
  | 6 => 15
  | 7 => 4
  | 8 => 2
  | 9 => 2
  | _ => 0

/-- Convert a block of values to an MX format: element codes and scale byte (R90). -/
def mxConvert (code mode : Nat) (vs : List (Val × Nat)) : List Nat × Nat :=
  let logs := vs.filterMap fun x => match x.1 with
    | .fin _ m e => if m = 0 then none else some (floorLog m e)
    | _ => none
  let x : Int := match logs with
    | [] => -127
    | l :: rest => max (-127) (min 127 (rest.foldl max l - mxEmax code))
  let bad := vs.any fun v => match v.1 with
    | .nan => true
    | .inf _ => code != 6
    | .fin .. => false
  if bad then (vs.map fun _ => 0, 0xFF)
  else
    (vs.map fun v =>
      if code = 0xA then
        match v.1 with
        | .fin n m e =>
          let k : Int := min 127 (roundGrid mode v.2 m (e - x) (-6))
          wrapZ 8 (if n then -k else k)
        | _ => 0
      else match floatFmt code, v.1 with
        | some f, .inf n => f.infCode false + (if n then 2 ^ (f.eb + f.mb) else 0)
        | some f, w => f.encode mode v.2 true (w.scale (-x))
        | none, _ => 0, (x + 127).toNat)

/-- The exponent of an E8M0 scale byte, none for the NaN scale (R85). -/
def scaleExp (b : Nat) : Option Int := if b = 0xFF then none else some ((b : Int) - 127)

/-! ## Lanes of a beat -/

/-- Lane `i` of a beat of `w`-bit lanes. -/
def lane (w : Nat) (d : BitVec 512) (i : Nat) : Nat := bitsN d.toNat (w * i) w

/-- A beat from its lanes. -/
def ofLanes (w : Nat) (ls : List Nat) : BitVec 512 :=
  BitVec.ofNat 512 (ls.foldr (fun x a => x % 2 ^ w + 2 ^ w * a) 0)

/-- Pack element codes of `w` bits, the first lowest (R86), as bytes. -/
def packBytes (w n : Nat) (ls : List Nat) : List Byte :=
  leBytes n (ls.foldr (fun x a => x % 2 ^ w + 2 ^ w * a) 0)

/-- Element `i` of packed elements of `w` bits (R86). -/
def elemAt (w : Nat) (bs : List Byte) (i : Nat) : Nat := bitsN (ofLe bs) (w * i) w

/-! ## The keyed generator (R93 to R97) -/

/-- The counter and key of a call. -/
structure Phil where
  c0 : Nat := 0
  c1 : Nat := 0
  c2 : Nat := 0
  c3 : Nat := 0
  k0 : Nat := 0
  k1 : Nat := 0
  deriving DecidableEq, Repr

/-- One round of Philox4x32. -/
def Phil.round (p : Phil) : Phil :=
  let a := 0xD2511F53 * p.c0
  let b := 0xCD9E8D57 * p.c2
  { c0 := (b / 2 ^ 32) ^^^ p.c1 ^^^ p.k0, c1 := b % 2 ^ 32, c2 := (a / 2 ^ 32) ^^^ p.c3 ^^^ p.k1, c3 := a % 2 ^ 32,
    k0 := (p.k0 + 0x9E3779B9) % 2 ^ 32, k1 := (p.k1 + 0xBB67AE85) % 2 ^ 32 }

/-- Ten rounds of Philox4x32: the words x0 to x3. -/
def Phil.words (p : Phil) : List Nat :=
  let r := (List.range 10).foldl (fun p _ => p.round) p
  [r.c0, r.c1, r.c2, r.c3]

/-- The key of a stream (R93). -/
def streamKey (seed : BitVec 64) (skey : BitVec 32) : Nat × Nat :=
  (bitsN seed.toNat 0 32, bitsN seed.toNat 32 32 ^^^ skey.toNat)

/-- The 16-bit draw of element position `pos` (R93). -/
def elementDraw (seed : BitVec 64) (skey : BitVec 32) (tile stream step pos : Nat) : Nat :=
  let k := streamKey seed skey
  let x := Phil.words
    { c0 := bitsN pos 3 32, c1 := tile % 8192 + 8192 * (stream % 65536), c2 := bitsN step 0 32, c3 := bitsN step 32 32,
      k0 := k.1, k1 := k.2 }
  bitsN (x.getD (pos % 8 / 2) 0) (16 * (pos % 2)) 16

/-- Draw `d` of the ingest shuffle stream (R97): one call of 128 bits, word x0 lowest. -/
def ingestDraw (seed : BitVec 64) (skey : BitVec 32) (d : BitVec 64) : BitVec 128 :=
  let k := streamKey seed skey
  BitVec.ofNat 128 (packRaw ((Phil.words
    { c0 := bitsN d.toNat 0 32, c1 := bitsN d.toNat 32 32, c2 := 0xFFFFFFFF, c3 := 0xFFFFFFFF, k0 := k.1, k1 := k.2 }).map fun x => (32, x)))

/-! ## Anchored-64 (R114 to R119) -/

/-- The result of one conversion to A64: the integer, and whether it spanned or was not finite (R114, R115). -/
def toA64 (a : Int) (v : Val) : BitVec 64 × Bool × Bool :=
  match v with
  | .nan => (0, false, true)
  | .inf _ => (0, false, true)
  | .fin n m e =>
    let k := roundGrid 0 0 m (e + 40 - a) 0
    let span : Bool := decide (2 ^ 41 ≤ k)
    let z : Int := if span then 2 ^ 41 - 1 else k
    (BitVec.ofInt 64 (if n then -z else z), span, false)

/-- The value of an A64 integer (R114). -/
def a64Val (a : Int) (x : BitVec 64) : Val :=
  let z := x.toInt
  .fin (decide (z < 0)) z.natAbs (a - 40)

/-- `MAXEXP` of a segment (R116). -/
def segMaxExp (vs : List Val) : Int :=
  vs.foldl (fun b v => match v with
    | .fin _ m e => if m = 0 then b else max b (floorLog m e)
    | _ => b) (-512)

/-- Combine two tags of one chunk (R117). -/
def tagMerge (a b : A64Tag) : A64Tag :=
  { a with maxExp := max a.maxExp b.maxExp, count := satAdd 0x7FFFFF a.count b.count, span := a.span || b.span,
           nonfin := a.nonfin || b.nonfin }

/-- A tag as a word (R116). -/
def tagWord (t : A64Tag) : Nat :=
  t.chunk % 65536 + 2 ^ 16 * wrapZ 10 t.maxExp + 2 ^ 26 * wrapZ 10 t.anchor + 2 ^ 36 * min 0x7FFFFF t.count +
    2 ^ 59 * b1 t.span + 2 ^ 60 * b1 t.nonfin

/-- The tag that a word spells (R116). -/
def wordTag (w : Nat) : A64Tag :=
  { chunk := bitsN w 0 16, maxExp := bitsZ w 16 10, anchor := bitsZ w 26 10, count := bitsN w 36 23, span := bitOn w 59,
    nonfin := bitOn w 60 }

end Sys2Proof.Machine
end

