-- ==== Sys2Proof/Machine/Tile.lean ====
section
/-! DEFINITION. What the units of a tile share: configuration words, ports and internal streams, the removal and the emission of
elements, Eve tokens, phases and epochs, slice writes and signals (03 R105, R572; 04 R128 to R168; 05 R182, R187; 07 R231,
R233; 10 R298 to R300). -/

namespace Sys2Proof.Machine

/-! ## Configuration words -/


/-- The unit of a port binding word of a plane (R154). -/
abbrev portUnit (plane : Nat) : Nat := 0x050 + plane
/-- The configuration of a unit in an epoch, whichever of its words that is (R156, R160): units of a site switch one after another, and each reads the
configuration of its own phase. -/
def UnitSt.wordAt (y : UnitSt) (e : BitVec 16) : BitVec 512 :=
  if y.epoch = e then y.active else if y.epoch + 1 = e then y.shadow else if y.epoch = e + 1 then y.prev else 0

/-- A site as the units of an epoch see it: every active word is that of the epoch. -/
def Site.viewAt (x : Site) (e : BitVec 16) : Site := { x with units := x.units.map fun u => (u.1, { u.2 with active := u.2.wordAt e }) }

/-- The port binding word of a plane for an epoch (R129). -/
def Site.bindWord (x : Site) (plane : Nat) (e : BitVec 16) : Nat := ((x.unit (portUnit plane)).wordAt e).toNat
/-- Consumer code of ejection port `j` of a plane for an epoch (R129). -/
def Site.ejCode (x : Site) (e : BitVec 16) (plane j : Nat) : Nat := bitsN (x.bindWord plane e) (4 * j) 4
/-- Producer code of injection port `i` of a plane for an epoch (R129). -/
def Site.inCode (x : Site) (e : BitVec 16) (plane i : Nat) : Nat := bitsN (x.bindWord plane e) (32 + 4 * i) 4

/-- Ejection port `j` of a plane. -/
def Site.ejPort (x : Site) (plane j : Nat) : EjPort := Tbl.get {} x.ej (8 * plane + j)
/-- Injection port `i` of a plane. -/
def Site.inPort (x : Site) (plane i : Nat) : InPort := Tbl.get {} x.inj (4 * plane + i)
/-- Change an ejection port. -/
def Site.modEj (x : Site) (plane j : Nat) (f : EjPort → EjPort) : Site :=
  { x with ej := Tbl.set {} (8 * plane + j) (f (x.ejPort plane j)) x.ej }
/-- Change an injection port. -/
def Site.modIn (x : Site) (plane i : Nat) (f : InPort → InPort) : Site :=
  { x with inj := Tbl.set {} (4 * plane + i) (f (x.inPort plane i)) x.inj }

/-! ## Internal streams -/

/-- Stream codes inside a tile: patch operands A, B and stream C, vector streams 0 and 1, patch output to stage 1, patch output
to the memory unit, stage 6 output to the memory unit (R182, R572). -/
abbrev strA : Nat := 0
abbrev strB : Nat := 1
abbrev strC : Nat := 2
abbrev strV0 : Nat := 3
abbrev strV1 : Nat := 4
abbrev strPV : Nat := 5
abbrev strPW : Nat := 6
abbrev strV6 : Nat := 7

/-- Where a unit takes an input from: an ejection port, an internal stream, or the Eve marker behind another unit. -/
inductive InRef where
  | ej (plane j : Nat)
  | stream (c : Nat)
  | behind (u : Nat)
  deriving DecidableEq, Repr

/-- The plane of an input: that of an ejection port, else the vector plane. -/
def InRef.plane (r : InRef) : Nat :=
  match r with
  | .ej q _ => q
  | _ => 0

/-- Where a unit emits: an injection port or an internal stream. -/
inductive OutRef where
  | inj (plane i : Nat)
  | stream (c : Nat)
  deriving DecidableEq, Repr

/-- The contents of a stream. -/
def Site.stream (x : Site) (c : Nat) : List Elem := Tbl.get [] x.streams c
/-- Set the contents of a stream. -/
def Site.setStream (x : Site) (c : Nat) (l : List Elem) : Site := { x with streams := Tbl.set [] c l x.streams }

/-- Ejection ports bound to a consumer code for an epoch (R130), as inputs. -/
def Site.ejBound (x : Site) (e : BitVec 16) (code : Nat) (planes : List Nat) : List InRef :=
  planes.flatMap fun q => ((List.range 8).filter fun j => x.ejCode e q j == code).map fun j => .ej q j

/-- Injection ports bound to a producer code for an epoch (R130), as outputs. -/
def Site.inBound (x : Site) (e : BitVec 16) (code : Nat) (planes : List Nat) : List OutRef :=
  planes.flatMap fun q => ((List.range 4).filter fun i => x.inCode e q i == code).map fun i => .inj q i

/-- Whether a unit may take from an input: an ejection port that has switched to the unit's epoch (R129, R161). -/
def Site.ownsIn (x : Site) (u : Nat) (r : InRef) : Bool :=
  match r with
  | .ej q j => (x.ejPort q j).epoch == (x.unit u).epoch
  | _ => true

/-- Mode of an address generator (R177). -/
def Site.agMode (x : Site) (n : Nat) : Nat := x.cfg (0x020 + n) 0 3
/-- `PORT` of an address generator (R177). -/
def Site.agPort (x : Site) (n : Nat) : Nat := x.cfg (0x020 + n) 7 4

/-- The address generator whose read (`mode` 1) or write (2) program is bound to a port (R182). -/
def Site.agBound (x : Site) (mode port : Nat) : Option Nat :=
  (List.range 4).find? fun n => x.agMode n == mode && x.agPort n == port

/-- Operation of a vector stage 1 to 6 (R113). -/
def Site.stOp (x : Site) (n : Nat) : Nat := x.cfg (0x00F + n) 0 6

/-- How many operands an operation reads (R108). -/
def opArity (op : Nat) : Nat :=
  if op ∈ [0x04, 0x0A] then 3
  else if op ∈ [0x01, 0x02, 0x03, 0x05, 0x06, 0x09, 0x0B, 0x0C, 0x0D, 0x16] then 2 else 1

/-- The selectors that a stage uses (R107): those of the operands that its operation reads. That a selector of an operand that it does not read selects
no input is the model's reading of R572 (DESIGN CHOICE, log 147). -/
def Site.stSels (x : Site) (n : Nat) : List Nat :=
  let u := 0x00F + n
  if x.stOp n = 0x0A then [x.cfg u 6 4, x.cfg u 10 4, x.cfg u 14 4]
  else [x.cfg u 6 4, x.cfg u 10 4, x.cfg u 14 4].take (opArity (x.stOp n))

/-- Whether the patch feeds vector stage 1 (R572). -/
def Site.patchFeeds (x : Site) : Bool := x.cfg 0 0 2 != 0 && (x.cfg 0 12 2 == 0 || x.cfg 0 12 2 == 2)

/-- Whether the vector pipeline is active (R572). -/
def Site.pipeActive (x : Site) : Bool :=
  x.patchFeeds || (x.agBound 1 3).isSome || (x.agBound 1 4).isSome || (x.agBound 2 1).isSome || !(x.inBound (x.unit 0x015).epoch 1 [0]).isEmpty

/-- The stream behind stage 1's previous-stage input (R572). -/
def Site.prevStream (x : Site) : Nat := if x.patchFeeds then strPV else strV0

/-- The streams a stage selects: 0x1 and 0x2 name streams 0 and 1; at stage 1 selector 0x0 names the previous-stage input. -/
def Site.stStreams (x : Site) (n : Nat) : List Nat :=
  let sel := x.stSels n
  ((if n = 1 ∧ (sel.contains 0 ∨ x.patchFeeds) then [x.prevStream] else []) ++ (if sel.contains 1 then [strV0] else []) ++
    (if sel.contains 2 then [strV1] else [])).dedup

/-- The first stage that selects a vector stream, whose lanes its vectors fill (R571). -/
def Site.streamStage (x : Site) (c : Nat) : Nat := (((List.range 6).find? fun i => (x.stStreams (i + 1)).contains c).map (0x010 + ·)).getD 0x010

/-- The streamed inputs of the pipeline (R572). -/
def Site.pipeInputs (x : Site) : List Nat := ((List.range 6).flatMap fun i => x.stStreams (i + 1)).dedup

/-- The inputs of a unit, in a site whose active words are those of its epoch (R160). -/
def Site.inputsOf (x : Site) (u : Nat) : List InRef :=
  if u = 0 then
    if x.cfg 0 0 2 = 0 then []
    else [.stream strA, .stream strB] ++ (if x.cfg 0 10 2 = 1 then [.stream strC] else [])
  else if 0x010 ≤ u ∧ u ≤ 0x015 then
    if x.pipeActive then
      (if u = 0x010 then [] else [.behind (u - 1)]) ++ (x.stStreams (u - 0x00F)).map .stream
    else []
  else if 0x020 ≤ u ∧ u ≤ 0x023 then
    let p := x.agPort (u - 0x020)
    if x.agMode (u - 0x020) = 2 then
      if p = 0 then [.stream strPW] else if p = 1 then [.stream strV6] else x.ejBound (x.unit u).epoch (p - 1) [0, 1]
    else []
  else if 0x030 ≤ u ∧ u ≤ 0x037 then
    let m := x.cfg u 96 3
    if m = 2 then [.ej 2 (x.cfg u 116 3)] else if m = 3 then [.ej 1 (x.cfg u 116 3)]
    else if m = 4 then [.behind (0x030 + x.cfg u 99 3)] else []
  else if 0x040 ≤ u ∧ u ≤ 0x047 then
    let kind := x.cfg u 0 3
    if kind = 0 then []
    else
      let n := if kind = 1 ∨ kind = 2 then x.cfg u 3 2 + 1 else 1
      .ej (if x.cfg u 5 1 = 1 then 1 else 2) (x.cfg u 9 3) ::
        (List.range n).map fun i => .ej (x.cfg u 6 1) (x.cfg u (12 + 3 * i) 3)
  else if u = seqUnit then x.ejBound (x.unit u).epoch 7 [0, 1, 2]
  else []

/-- The outputs of a unit, in a site whose active words are those of its epoch (R160). -/
def Site.outputsOf (x : Site) (u : Nat) : List OutRef :=
  if u = 0 then
    let d := x.cfg 0 12 2
    if x.cfg 0 0 2 = 0 then []
    else (if d = 0 ∨ d = 2 then [.stream strPV] else []) ++ (if d = 1 ∨ d = 2 then [.stream strPW] else [])
  else if u = 0x015 then
    if x.pipeActive then (if (x.agBound 2 1).isSome then [.stream strV6] else []) ++ x.inBound (x.unit u).epoch 1 [0] else []
  else if 0x020 ≤ u ∧ u ≤ 0x023 then
    let p := x.agPort (u - 0x020)
    if x.agMode (u - 0x020) = 1 then (if p ≤ 4 then [.stream p] else x.inBound (x.unit u).epoch (p - 3) [0, 1]) else []
  else if 0x030 ≤ u ∧ u ≤ 0x037 then
    if x.cfg u 96 3 = 0 then []
    else (if x.inCode (x.unit u).epoch 2 (x.cfg u 119 2) = 7 then [.inj 2 (x.cfg u 119 2)] else []) ++
      (if x.cfg u 102 1 = 1 then [.inj 1 (x.cfg u 121 2)] else [])
  else if 0x040 ≤ u ∧ u ≤ 0x047 then
    let kind := x.cfg u 0 3
    if kind = 0 then []
    else ((List.range (if kind = 5 then x.cfg u 3 2 + 1 else 1)).map fun i => OutRef.inj (x.cfg u 6 1) (x.cfg u (24 + 2 * i) 2)).dedup
  else if u = seqUnit then x.inBound (x.unit u).epoch 8 [0, 1, 2]
  else []

/-- The inputs of a unit in its active configuration (R160). -/
def Site.inputs (x : Site) (u : Nat) : List InRef := (x.viewAt (x.unit u).epoch).inputsOf u

/-- The outputs of a unit in its active configuration (R160). -/
def Site.outputs (x : Site) (u : Nat) : List OutRef := (x.viewAt (x.unit u).epoch).outputsOf u

/-! ## Elements -/

/-- Elements that an element counts as: an Eve token on the control plane takes five (R135, R159). -/
def elemCost (plane : Nat) (e : Elem) : Nat := if plane = 2 ∧ e.eve then 5 else 1

/-- The bytes of an element for the signature (R300): 64 on the vector plane, 4 on the scalar plane, 1 per control token. -/
def elemBytes (plane : Nat) (e : Elem) : List Byte :=
  if plane = 0 then leBytes 64 e.data.toNat
  else if plane = 1 then leBytes 4 e.data.toNat
  else if e.eve then
    leBytes 1 0xF ++ leBytes 1 (bitsN e.data.toNat 12 4) ++ leBytes 1 (bitsN e.data.toNat 8 4) ++
      leBytes 1 (bitsN e.data.toNat 4 4) ++ leBytes 1 (bitsN e.data.toNat 0 4)
  else leBytes 1 (bitsN e.data.toNat 0 4)

/-- An Eve token of an epoch (R159). -/
def eveTok (e : BitVec 16) : Elem := { data := e.setWidth 512, eve := true }

/-- Whether an element is an Eve token of an epoch. -/
def isEve (x : Elem) (e : BitVec 16) : Bool := x.eve && x.data.toNat % 65536 == e.toNat

/-- Whether an output of a unit has room for an element of a cost: a credit, not already spoken for, of a port that has switched to the
unit's epoch (R135, R161); internal streams always have (their depth is timing), and a shadow injects nothing (R299). -/
def Site.room (x : Site) (u : Nat) (o : OutRef) (cost : Nat) : Bool :=
  match o with
  | .stream _ => true
  | .inj q i =>
    let p := x.inPort q i
    x.st == .vigil || (p.epoch == (x.unit u).epoch && decide ((p.outq.map (elemCost q)).sum + cost ≤ p.credit))

/-- Credits that an Eve token takes on an output (R135, R159). -/
def eveCost (o : OutRef) : Nat :=
  match o with
  | .inj 2 _ => 5
  | _ => 1

/-- The number of an output in `UnitSt.eveOut`. -/
def outNum (o : OutRef) : Nat :=
  match o with
  | .inj q i => 4 * q + i
  | .stream c => 16 + c

/-- Emit an element on an output; injections enter the signature (R300), and a shadow's go no further (R299). -/
def Site.emit (x : Site) (o : OutRef) (e : Elem) : Site :=
  match o with
  | .stream c => x.setStream c (x.stream c ++ [e])
  | .inj q i =>
    let x := x.sign (0x0100 + 4 * q + i) (elemBytes q e)
    let x := if e.eve then x.modIn q i fun p => { p with eveSent := true } else x
    if x.st = .vigil then x else x.modIn q i fun p => { p with outq := p.outq ++ [e] }

/-- Emit an element on several outputs. -/
def Site.emitAll (x : Site) (os : List OutRef) (e : Elem) : Site := os.foldl (fun x o => x.emit o e) x

/-- The head of an input; a marker behind another unit is an Eve token of that unit's epoch (R159). -/
def Site.headOf (x : Site) (r : InRef) (next : BitVec 16) : Option Elem :=
  match r with
  | .ej q j => (x.ejPort q j).fifo.head?
  | .stream c => (x.stream c).head?
  | .behind u => if (x.unit u).epoch = next then some (eveTok next) else none

/-! ## Slice writes -/

/-- The granules that a range of the slice touches. -/
def granules (a n : Nat) : List Nat :=
  if n = 0 then [] else (List.range ((a + n - 1) / 4096 - a / 4096 + 1)).map (· + a / 4096)

/-- Mark granules in a mask. -/
def maskSet (m : BitVec 192) (gs : List Nat) : BitVec 192 := gs.foldl (fun m g => m ||| (1#192 <<< g)) m

/-- Write bytes into a site's slice: a persistent granule becomes dirty (R22, R187); after the close the step's writes to
persistent state are blocked (R41). -/
def State.sliceWrite (s : State) (k a : Nat) (bs : List Byte) : State :=
  let blocked : Bool := match s.partOfRegion (keyRegion k) with
    | some p => match s.job p with
      | some j => j.writesBlocked
      | none => false
    | none => false
  (s.eccWrite k a bs.length).modSite k fun x =>
    let gs := (granules a bs.length).filter fun g => bitAt x.mu.persistent g
    if blocked ∧ ¬ gs.isEmpty then x
    else { x with mu := { x.mu with slice := memWriteN x.mu.slice a bs, dirty := maskSet x.mu.dirty gs,
                                    tags := x.mu.tags.filter fun t => decide (a + bs.length ≤ 64 * t.1 ∨ 64 * t.1 + 64 ≤ a) } }

/-- The tag of the A64 segment at an address of a site's slice, if it holds one (R116). -/
def Site.tagAt (x : Site) (a : Nat) : Option A64Tag := (x.mu.tags.find? fun t => t.1 == a / 64).map (·.2)

/-- Note the tag of a segment that has been stored at an address (R116). The spec says that a tag travels with its segment and not where it stands
beside one in a slice: the model keeps it with the memory unit until the segment's bytes are written again (DESIGN CHOICE, log 99). -/
def State.putTag (s : State) (k a : Nat) (tag : Option A64Tag) : State :=
  match tag with
  | some t => s.modSite k fun x => { x with mu := { x.mu with tags := Tbl.put (a / 64) t x.mu.tags } }
  | none => s

/-! ## Signals (R231 to R236) -/

/-- A change leaves a signal's range (R233). `src` is the source in the record. -/
def State.signalRange (s : State) (k sig src : Nat) : State :=
  (s.reportSite 0x0105 k src [(8, sig), (8, 0), (16, src)]).faultAsIdes (s.partField k) 0x0105 5 k

/-- Raise a signal of the tile on a site (R231, R233). -/
def State.raise (s : State) (k sig amount src : Nat) : State :=
  let v := Tbl.get (0 : BitVec 32) (s.site k).signals sig
  if 2 ^ 32 ≤ v.toNat + amount then s.signalRange k sig src
  else s.modSite k fun x => { x with signals := Tbl.set 0 sig (v + BitVec.ofNat 32 amount) x.signals }

/-! ## What a target forwards to its shadows (R298) -/

/-- The Vigil sites that shadow the tile of a site (R296, R302). -/
def State.shadows (s : State) (k : Nat) : List Nat :=
  if (s.site k).st = .tile then (s.shadowsOf (keyRegion k) (s.site k).tile).map (siteKey (keyRegion k)) else []

/-- The barrier counts of a tile. -/
def Site.bar (x : Site) (n : Nat) : BarCnt := Tbl.get {} x.bars n

/-- What the forward stream of a target carries (R298). -/
inductive FwdItem where
  | elem (plane port : Nat) (e : Elem) | msg (f : FwdMsg) | raise (sig amount src : Nat) | release (bar : Nat)
  | write (addr : Nat) (bytes : List Byte) | status (code : Nat)
  deriving DecidableEq, Repr

/-- What an item of the forward stream does at a shadow. -/
def State.fwdApply (s : State) (v : Nat) (i : FwdItem) : State :=
  match i with
  | .elem q j e => s.modSite v fun x => x.modEj q j fun p => { p with fifo := p.fifo ++ [e] }
  | .msg f => s.modSite v fun x => { x with fwdMsgs := x.fwdMsgs ++ [f] }
  | .raise n a c => s.raise v n a c
  | .release b => s.modSite v fun y => { y with bars := Tbl.set {} b { (y.bar b) with c := (y.bar b).c + 1 } y.bars }
  | .write a bs => s.sliceWrite v a bs
  | .status c => s.modSite v fun x => { x with fwdTry := x.fwdTry ++ [c] }

/-- The target on a site forwards what it has applied to each of its shadows, in the order in which it applies it (R298). The stream's time of
travel and its 64 KiB buffer change timing only, and the model gives the stream none (log 137). -/
def State.forward (s : State) (k : Nat) (i : FwdItem) : State := (s.shadows k).foldl (fun s v => s.fwdApply v i) s

/-! ## Inputs -/

/-- A consumer removes the head of an ejection port: its credit is owed (R135) and the element goes to the shadows (R298). -/
def State.takeEj (s : State) (k q j : Nat) : Option (Elem × State) :=
  match ((s.site k).ejPort q j).fifo with
  | [] => none
  | e :: rest =>
    let s1 := s.modSite k fun x => x.modEj q j fun p =>
      { p with fifo := rest, owed := p.owed + elemCost q e, eveTaken := p.eveTaken || isEve e (p.epoch + 1) }
    some (e, s1.forward k (.elem q j e))

/-- Remove the head of a stream. -/
def State.takeStream (s : State) (k c : Nat) : Option (Elem × State) :=
  match (s.site k).stream c with
  | [] => none
  | e :: rest => some (e, s.modSite k fun x => x.setStream c rest)

/-- Remove the head of an input. -/
def State.takeIn (s : State) (k : Nat) (r : InRef) : Option (Elem × State) :=
  match r with
  | .ej q j => s.takeEj k q j
  | .stream c => s.takeStream k c
  | .behind _ => none

/-- Remove `n` heads of an input that are no Eve tokens; none when there are fewer. -/
def State.takeN (s : State) (k : Nat) (r : InRef) : Nat → Option (List Elem × State)
  | 0 => some ([], s)
  | n + 1 =>
    match s.takeIn k r with
    | none => none
    | some (e, s1) =>
      if e.eve then none
      else match State.takeN s1 k r n with
        | none => none
        | some (es, s2) => some (e :: es, s2)

/-! ## Phases -/

/-- Whether the switch of a site works under its configuration: a `SPARE` site carries routes too (R134, R157). -/
def State.siteSwitches (s : State) (k u : Nat) : Bool :=
  let x := s.site k
  (s.region (keyRegion k)).logic == .on && !(s.region (keyRegion k)).clocksOff && x.st ∈ [SiteSt.tile, .vigil, .spare] &&
    !x.stopped.contains u && (s.partOfRegion (keyRegion k)).isSome

/-- Whether the units of a site work: it holds or shadows a tile, and its region's logic is on with its clocks running (R479, R487). -/
def State.siteWorks (s : State) (k u : Nat) : Bool :=
  let x := s.site k
  (s.region (keyRegion k)).logic == .on && !(s.region (keyRegion k)).clocksOff && (x.st == .tile || x.st == .vigil) && !x.stopped.contains u && (s.partOfRegion (keyRegion k)).isSome

/-- Whether a unit with no inputs may run: its phase belongs to the released step (R164), and the partition is not stopped. -/
def State.mayRun (s : State) (k u : Nat) : Bool :=
  match s.partOfRegion (keyRegion k) with
  | none => false
  | some p =>
    match s.job p with
    | none => false
    | some j => j.st == .running && !(s.part p).halted &&
        decide ((((s.site k).unit u).epoch - j.relEpoch).toNat < s.phaseCount p)

/-- The phase of the step in which a unit is, none at its reset configuration (R158, R164). -/
def State.unitPhase (s : State) (k u : Nat) : Option Nat :=
  let x := s.site k
  let n := s.phaseCount ((s.partOfRegion (keyRegion k)).getD 16)
  let ahead : Bool := (x.unit u).epoch != x.epoch
  match x.phaseAt with
  | none => if ahead then some 0 else none
  | some i => if ahead then some ((i + 1) % max 1 n) else some i

/-- The phase that follows a site's slowest unit (R157, R164). -/
def State.nextPhase (s : State) (k : Nat) : Nat :=
  match (s.site k).phaseAt with
  | none => 0
  | some i => (i + 1) % max 1 (s.phaseCount ((s.partOfRegion (keyRegion k)).getD 16))

/-- The loaded Ordo of a site's partition. -/
def State.siteOrdo (s : State) (k : Nat) : Option Ordo :=
  match s.partOfRegion (keyRegion k) with
  | some p => (s.part p).ordo
  | none => none

/-- Whether a switch output of a site is in use in its phase (R161). -/
def State.outInUse (s : State) (k u : Nat) : Bool :=
  match s.partOfRegion (keyRegion k), s.unitPhase k u with
  | some p, some ph => (s.part p).paths.any fun q => q.loaded && q.phase == ph && q.hops.any fun h => h.link == (k, u)
  | _, _ => false

/-! ## Channels that dispatch (R204, R214) -/

/-- The unit of a channel descriptor (R154). -/
abbrev chanUnit (i : Nat) : Nat := 0x060 + i

/-- Whether a channel's messages start its handler (R214). -/
def Site.dispatches (x : Site) (i : Nat) : Bool := x.cfg (chanUnit i) 0 1 == 1 && x.cfg (chanUnit i) 2 1 == 1

/-- The channel whose handler starts next (R204); a shadow's messages are those that its target forwarded (R229). -/
def Site.nextHandler (x : Site) : Option Nat :=
  (if x.st = .vigil then x.fwdMsgs.map fun f => f.msg.chan else x.seq.pending.map fun e => e.1).find? x.dispatches

/-! ## Caps and steps (R472, R473) -/

/-- VDD_LOGIC of a step in mV (R472). -/
def stepMv (n : Nat) : Nat := [800, 760, 720, 680, 640, 600, 550].getD n 550

/-- Failed logic cells of a region. -/
def Region.logicFailed (r : Region) : Nat := popCount 6 r.logicFail.toNat
/-- Failed array cells of a region. -/
def Region.arrayFailed (r : Region) : Nat := popCount 2 r.arrayFail.toNat
/-- The regulator cap (R481). -/
def Region.capReg (r : Region) : Nat := if 2 ≤ r.logicFailed then 2 else 0
/-- The bump cap (R473, R486). -/
def Region.capBump (r : Region) : Nat := if r.bump then 2 else 0
/-- The caps by source: operator, regulator, bump, thermal, budget (R473). -/
def Region.caps (r : Region) : List Nat := [r.capOp, r.capReg, r.capBump, r.capTherm, r.capBudget]
/-- The cap of a region (R473). -/
def Region.cap (r : Region) : Nat := r.caps.foldl max 0
/-- `CAP_SRC` (R493) as a five-bit number: the sources with a cap in force. -/
def Region.capSrc (r : Region) : Nat := r.caps.zipIdx.foldl (fun n x => n + 2 ^ x.2 * b1 (decide (0 < x.1))) 0

/-- The effective step (R473): the cap, or step 6 for a lender. -/
def Region.effective (r : Region) : Nat := if r.lent then 6 else r.cap

/-- A region takes its effective step (R473, R474). -/
def State.applyStep (s : State) (g : Nat) : State := s.modRegion g fun r => { r with dvfs := r.effective }

/-! ## Lending (R248, R476) -/

/-- A region becomes a lender (R248, R476): the headroom is its logic power less its power at step 6, a measured value. -/
def State.lentEnter (s : State) (g : Nat) : State :=
  let (x, s) := s.draw 32
  let r := s.region g
  let h := r.logicCur * stepMv r.dvfs / 1000 - x.toNat
  let s := s.modRegion g fun r => { r with lent := true, lentMw := h, dvfs := 6 }
  { s with power := { s.power with lent := s.power.lent + h } }

/-- The budget caps that lent headroom allowed are restored (R476). -/
def State.lentRestore (s : State) : State :=
  let s1 := s.power.lentCaps.foldl (fun s g =>
    (s.modRegion g fun r => { r with capBudget := min 6 (r.capBudget + 1) }).applyStep g) s
  { s1 with power := { s1.power with lentCaps := [] } }

/-- A wake event in a lender region ends the lending: borrowers give back first (R248, R476). -/
def State.lentExit (s : State) (g : Nat) : State :=
  let r := s.region g
  if r.lent then
    let s := s.lentRestore
    let s := { s with power := { s.power with lent := s.power.lent - r.lentMw } }
    (s.modRegion g fun r => { r with lent := false, lentMw := 0 }).applyStep g
  else s

/-- Whether a waiting context of a site waits long (R248). -/
def Bank.waitsLong (b : Bank) : Bool := match b.wait with
  | some w => w.long
  | none => true

/-- Whether a region satisfies the conditions of a lender (R248): every tile in Fast, every waiting context long, no handler pending. -/
def State.lentDue (s : State) (g : Nat) : Bool :=
  let r := s.region g
  !r.lent && r.logic == .on && r.placed &&
    ((List.range 128).all fun k =>
      let x := s.site (siteKey g (Tbl.get {} r.tiles k : TileEnt).site)
      x.st == .tile && x.seq.fast) &&
    (sitesOfRegion g).all fun k =>
      let x := s.site k
      !(x.st == .tile || x.st == .vigil) || (x.seq.main.waitsLong && x.seq.hand.waitsLong && x.nextHandler.isNone)

/-- Make a region a lender if it satisfies the conditions. -/
def State.lentTry (s : State) (g : Nat) : State := if s.lentDue g then s.lentEnter g else s

end Sys2Proof.Machine
end

