-- ==== Sys2Proof/Machine/Fabric.lean ====
section
/-! DEFINITION. The static fabric: routes and credits, ports, counters, steering units, shadow loads, unit switches and Eve tokens
(04 R126 to R168, 06 R203, R207). -/

namespace Sys2Proof.Machine

/-! ## Routes and ports -/

/-- The route that leaves an injection port of a tile in a phase (R132). -/
def State.routeFrom (s : State) (k phase q i : Nat) : Option Route :=
  match s.siteOrdo k with
  | none => none
  | some o => if (s.site k).st = .spare then none
    else o.routes.find? fun r => r.phase == phase && r.src == s.tileAt k && r.plane == q && r.port == i

/-- The route that ends at an ejection port of a tile in a phase (R132, R133). -/
def State.routeTo (s : State) (k phase q j : Nat) : Option Route :=
  match s.siteOrdo k with
  | none => none
  | some o => if (s.site k).st = .spare then none
    else o.routes.find? fun r => r.phase == phase && r.plane == q && r.dests.contains (s.tileAt k, j)

/-- Grant a route's credits to an injection port once it, every destination and every switch output on the path have switched to the route
(R135). -/
def State.tryGrant (s : State) (k q i : Nat) : State :=
  let p := (s.site k).inPort q i
  if p.route.isSome ∧ ¬ p.outs.isEmpty ∧ (p.dests.all fun d =>
      let e := (s.site d.1).ejPort q d.2
      e.granted && e.epoch == p.epoch) ∧ p.outs.all fun o => ((s.site o.1).unit o.2).epoch == p.epoch then
    let s := p.dests.foldl (fun s d => s.modSite d.1 fun x => x.modEj q d.2 fun e => { e with granted := false }) s
    s.modSite k fun x => x.modIn q i fun p => { p with credit := p.cap }
  else s

/-- The injection port of the route that ends at an ejection port. -/
def State.sourceOf (s : State) (r : Route) : Nat × Nat × Nat := (s.siteOfTile r.src, r.plane, r.port)

/-- The switch outputs of a route's loaded path, for a route of the partition of site `k` (R134). -/
def State.pathOuts (s : State) (k : Nat) (r : Route) : List (Nat × Nat) :=
  match s.partOfRegion (keyRegion k) with
  | none => []
  | some p => match (s.part p).paths.find? fun q => q.loaded && q.phase == r.phase && q.id == r.id with
    | some q => q.hops.map PhysHop.link
    | none => []

/-- `PORT_SWITCH` of an injection port (R161, R135): once the Eve token has left and every credit of the old route has returned, or
with no old route, the port takes the route of the next phase with a credit counter of 0. -/
def State.switchIn (s : State) (k q i : Nat) : State :=
  let x := s.site k
  let p := x.inPort q i
  let loaded := (x.unit (portUnit q)).valid
  let quiet : Bool := match p.route with
    | none => p.outq.isEmpty
    | some _ => p.eveSent && p.outq.isEmpty && (x.st == .vigil || p.credit == p.cap)
  if p.epoch = x.epoch ∧ loaded ∧ quiet ∧ s.siteSwitches k (portUnit q) ∧ (x.phaseAt = none ∨ p.route.isSome ∨ s.mayRun k (portUnit q)) then
    match s.routeFrom k (s.nextPhase k) q i with
    | none => s.modSite k fun x => x.modIn q i fun p => { ({} : InPort) with epoch := p.epoch + 1 }
    | some r =>
      let s := s.modSite k fun x => x.modIn q i fun p =>
        { credit := if x.st = .vigil then r.credits else 0, cap := r.credits, route := some r.id,
          dests := r.dests.map fun d => (s.siteOfTile d.1, d.2), outs := s.pathOuts k r, eveSent := false, outq := [], epoch := p.epoch + 1 }
      if x.st = .vigil then s else s.tryGrant k q i
  else s

/-- `PORT_SWITCH` of an ejection port (R161, R135): once its consumer has removed the Eve token, or with no old route, it grants the
credits of the route of the next phase. -/
def State.switchEj (s : State) (k q j : Nat) : State :=
  let x := s.site k
  let p := x.ejPort q j
  let bound : Bool := x.ejCode p.epoch q j != 0
  let loaded := (x.unit (portUnit q)).valid
  let consumed : Bool := !bound || p.eveTaken
  if p.epoch = x.epoch ∧ loaded ∧ consumed ∧ s.siteSwitches k (portUnit q) ∧ (x.phaseAt = none ∨ bound ∨ s.mayRun k (portUnit q)) then
    match s.routeTo k (s.nextPhase k) q j with
    | none => s.modSite k fun x => x.modEj q j fun p => { p with epoch := p.epoch + 1, depth := 0, granted := false, eveTaken := false }
    | some r =>
      let s := s.modSite k fun x => x.modEj q j fun p =>
        { p with epoch := p.epoch + 1, depth := r.credits, granted := x.st != .vigil, eveTaken := false }
      let src := s.sourceOf r
      s.tryGrant src.1 src.2.1 src.2.2
  else s

/-- `PORT_SWITCH` (R161, R135). -/
def execPortSwitch (t site plane port : Nat) (inject : Bool) (s : State) : Out :=
  let s := s.adv t
  .next <| if inject then s.switchIn site plane port else s.switchEj site plane port

/-- `CREDIT_RETURN` (R135, R136): once every branch of the route has returned a credit, the injection port's counter rises by
one; past the route's `CREDITS` it is a `CREDIT_OVERRUN`. -/
def execCreditReturn (t site plane port : Nat) (s : State) : Out :=
  let s := s.adv t
  .next <|
    let p := (s.site site).inPort plane port
    if p.route.isSome ∧ ¬ p.dests.isEmpty ∧ p.dests.all fun d => decide (1 ≤ ((s.site d.1).ejPort plane d.2).owed) then
      let s := p.dests.foldl (fun s d => s.modSite d.1 fun x => x.modEj plane d.2 fun q => { q with owed := q.owed - 1 }) s
      if p.cap < p.credit + 1 then s.configFault site (portUnit plane) 3 0x0203
      else s.modSite site fun x => x.modIn plane port fun p => { p with credit := p.credit + 1 }
    else s

/-! ## Counters (R139 to R142) -/

/-- The running state of a counter. -/
def Site.counter (x : Site) (n : Nat) : CounterSt := Tbl.get {} x.counters n

/-- Change a counter. -/
def Site.modCounter (x : Site) (n : Nat) (f : CounterSt → CounterSt) : Site :=
  { x with counters := Tbl.set {} n (f (x.counter n)) x.counters }

/-- Whether a value lies before `LIMIT` (R139). -/
def beforeLimit (stride limit v : Int) : Bool := if 0 < stride then decide (v < limit) else decide (limit < v)

/-- Whether a signed value fits 32 bits. -/
def fits32 (v : Int) : Bool := decide (-2 ^ 31 ≤ v ∧ v < 2 ^ 31)

/-- The counters chained to counter `n` (R140). -/
def Site.chainedTo (x : Site) (n : Nat) : List Nat :=
  (List.range 8).filter fun m => x.cfg (0x030 + m) 96 3 == 4 && x.cfg (0x030 + m) 99 3 == n && m != n

/-- Whether every other counter is in the epoch of counter `n`, so that its chain is that of the phase. -/
def Site.chainsReady (x : Site) (n : Nat) : Bool :=
  (List.range 8).all fun m =>
    (x.unit (0x030 + m)).epoch == (x.unit (0x030 + n)).epoch ||
      !(bitsN (x.unit (0x030 + m)).shadow.toNat 96 3 == 4 && bitsN (x.unit (0x030 + m)).shadow.toNat 99 3 == n) && !(x.chainedTo n).contains m

/-! ## Shadow loads (R153, R157, R158) -/

/-- The configuration block of a tile in a phase (R153). -/
def Ordo.block (o : Ordo) (tile phase : Nat) : Option CfgBlock := o.blocks.find? fun b => b.tile == tile && b.phase == phase

/-- The reserved bits of the words of the patch, counters, steering units and ports (R104, R129, R141, R145). The words of the other units have none, or
`ORDO_LOAD` rejects a nonzero one. -/
def reservedBits (u : Nat) : BitVec 512 :=
  let field (lo n : Nat) : BitVec 512 := BitVec.ofNat 512 ((2 ^ n - 1) * 2 ^ lo)
  if u = 0 then field 14 2 ||| field 58 6
  else if 0x030 ≤ u ∧ u ≤ 0x037 then field 103 1 ||| field 123 5 ||| field 160 32
  else if 0x040 ≤ u ∧ u ≤ 0x047 then field 32 32
  else if 0x050 ≤ u ∧ u ≤ 0x052 then field 48 16
  else 0

/-- The shadow word that a block gives a unit (R153): an unnamed unit takes `OP` 1. What it writes to reserved fields is ignored (R8). -/
def shadowWord (b : Option CfgBlock) (u : Nat) (active : BitVec 512) : BitVec 512 :=
  match b with
  | none => active
  | some b =>
    match b.recs.find? fun r => r.unit == u with
    | none => active
    | some r => if r.op = 0 then r.word &&& ~~~(reservedBits u) else if r.op = 2 then resetWord u else active

/-- Load the shadows of a site with the next phase (R134, R157, R158): when its loader fetches one. A `SPARE` site holds no tile and takes
the switch words alone. -/
def State.loadShadow (s : State) (k : Nat) : State :=
  let x := s.site k
  match s.partOfRegion (keyRegion k) with
  | none => s
  | some p =>
    match (s.part p).ordo with
    | none => s
    | some o =>
      if s.loadDue k then
        let e := x.epoch
        let ph := s.nextPhase k
        let b := if x.st = .spare then none else o.block (s.tileAt k) ph
        let s := s.modSite k fun x => switchUnits.foldl (fun x u =>
          let y := x.unit u
          let w := if 0x0C0 ≤ u ∧ u < 0x0F0 then s.switchWord p ph k u else shadowWord b u y.active
          x.setUnit u { y with shadow := w, valid := true }) x
        s.modPart p fun y => if y.epoch = e then { y with epoch := e + 1 } else y
      else s

/-- `SHADOW_LOAD` (R157, R158, R134): the configuration loader of a site writes the shadows of the phase of the next epoch. -/
def execShadowLoad (t site : Nat) (s : State) : Out :=
  let s := s.adv t
  .next (s.loadShadow site)

/-! ## Unit switches (R160, R164, R203, R207) -/

/-- The HANDLERS entry of a tile for a phase: `PC_OFF` and `SP` (R202, R203). -/
def Ordo.mainEntry (o : Ordo) (tile phase : Nat) : Option (Nat × Nat) :=
  match o.handlers.find? fun h => h.tile == tile with
  | none => none
  | some h =>
    match h.entries.find? fun e => e.1 == phase with
    | none => none
    | some e => if e.2.1 = 0xFFFF then none else some e.2

/-- Whether a tile has a main program in its current phase. -/
def State.hasMain (s : State) (k : Nat) : Bool :=
  match s.siteOrdo k, s.unitPhase k seqUnit with
  | some o, some ph => (s.site k).st != .spare && (o.mainEntry (s.tileAt k) ph).isSome
  | _, _ => false

/-- A channel slot. -/
def Site.chan (x : Site) (i : Nat) : ChanSt := Tbl.get {} x.chans i
/-- Change a channel slot. -/
def Site.modChan (x : Site) (i : Nat) (f : ChanSt → ChanSt) : Site := { x with chans := Tbl.set {} i (f (x.chan i)) x.chans }
/-- A combining queue. -/
def Site.combq (x : Site) (i : Nat) : CombQ := Tbl.get {} x.combqs i
/-- Change a combining queue. -/
def Site.modCombq (x : Site) (i : Nat) (f : CombQ → CombQ) : Site := { x with combqs := Tbl.set {} i (f (x.combq i)) x.combqs }

/-- Whether a channel slot is quiescent (R207). -/
def Site.quiescent (x : Site) (i : Nat) : Bool :=
  let c := x.chan i
  let u := chanUnit i
  c.present.isEmpty && c.cur.isNone && !(x.spill.any fun e => e.msg.chan == i && !e.done) && !(x.seq.pending.any fun e => e.1 == i) &&
    !(x.fwdMsgs.any fun f => f.msg.chan == i) && x.seq.ctx != i + 1 && !(x.seq.hand.live && x.seq.ctx == i + 1) &&
    (x.cfg u 0 2 != 3 || ((x.combq (x.cfg u 35 3)).armed && (x.combq (x.cfg u 35 3)).added == 0)) &&
    (x.cfg u 128 2 != 1 || c.txCredits == x.cfg u 176 11) && !c.txSpill && c.txContrib == 0

/-- Whether a unit has emitted every result of its phase (R160, R207). A channel descriptor is never over by itself: it switches with the
sequencer. -/
def State.resultsDone (s : State) (k u : Nat) : Bool :=
  let x := s.site k
  if u = 0 then x.cfg 0 0 2 == 0 || (x.patch.kg == 0 && x.patch.wsRow == 0 && x.patch.wsGrp == 0)
  else if 0x010 ≤ u ∧ u ≤ 0x015 then (Tbl.get {} x.stages (u - 0x00F) : StageSt).hold.isNone
  else if 0x020 ≤ u ∧ u ≤ 0x023 then x.agMode (u - 0x020) == 0 || (Tbl.get {} x.ags (u - 0x020) : AgSt).done
  else if 0x030 ≤ u ∧ u ≤ 0x037 then x.cfg u 96 3 == 0 || (x.counter (u - 0x030)).done
  else if 0x050 ≤ u ∧ u ≤ 0x052 then
    (List.range 8).all (fun j => (x.ejPort (u - 0x050) j).epoch == (x.unit u).epoch + 1) &&
      (List.range 4).all fun i => (x.inPort (u - 0x050) i).epoch == (x.unit u).epoch + 1
  else if 0x060 ≤ u ∧ u ≤ 0x07F then false
  else if 0x0C0 ≤ u ∧ u < 0x0F0 then !(s.outInUse k u)
  else if u = seqUnit then
    (x.seq.ephase || !(s.hasMain k) || x.phaseAt.isNone) &&
      ((List.range 32).all fun i => x.quiescent i ||
        ((x.unit (chanUnit i)).active == (x.unit (chanUnit i)).shadow && s.nextPhase k != 0))
  else true

/-- What a switch clears or starts in a unit (R104, R106, R121, R153, R203): that of the sequencer ends the wait of `X.EPHASE` (R247, R248). -/
def State.afterSwitch (s : State) (k u : Nat) (old : BitVec 512) : State :=
  if u = 0 then s.modSite k fun x => { x with patch := { x.patch with kg := 0, wsRow := 0, wsGrp := 0, bufA := [], sclA := [], bufB := [], sclB := [], intWrap := false, nanSeen := false } }
  else if 0x010 ≤ u ∧ u ≤ 0x015 then
    s.modSite k fun x => { x with stages := Tbl.drop (u - 0x00F) x.stages, anchorCache := s.anchorsFor x (keyRegion k) }
  else if 0x020 ≤ u ∧ u ≤ 0x023 then s.modSite k fun x => { x with ags := Tbl.drop (u - 0x020) x.ags }
  else if 0x030 ≤ u ∧ u ≤ 0x037 then s.modSite k fun x => { x with counters := Tbl.drop (u - 0x030) x.counters }
  else if 0x060 ≤ u ∧ u ≤ 0x07F then
    s.modSite k fun x =>
      if old ≠ (x.unit u).active then x.modChan (u - 0x060) fun c => { c with txCredits := x.cfg u 176 11 } else x
  else if u = seqUnit then
    match s.siteOrdo k, s.unitPhase k seqUnit with
    | some o, some ph =>
      let tile := s.tileAt k
      let s := s.lentExit (keyRegion k)
      s.modSite k fun x =>
        let q := { x.seq with ephase := false, phase := ph, eveHead := false, fast := x.seq.fast && x.seq.hand.live }
        match if x.st = .spare then none else o.mainEntry tile ph with
        | some (pc, sp) => { x with seq := { q with main := { pc := BitVec.ofNat 32 (0x1BA000 + pc), regs := [(2, BitVec.ofNat 32 sp)], live := true } } }
        | none => { x with seq := { q with main := {} } }
    | _, _ => s
  else s

/-- The phases of the released step that a site has completed (R164). -/
def State.phasesDone (s : State) (j : Job) (k : Nat) : Nat := ((s.site k).epoch - j.relEpoch).toNat

/-- When a site's slowest unit has switched, the tile has completed its phase (R164); when every tile of the partition has, the
partition has, and the deadline watches of the phase are met (R285). -/
def State.tileComplete (s : State) (k : Nat) (before : BitVec 16) : State :=
  if (s.site k).epoch = before then s
  else
    let ph := s.nextPhase k
    let s := s.modSite k fun x => { x with phaseAt := some ph }
    match s.partOfRegion (keyRegion k) with
    | none => s
    | some p =>
      match s.job p with
      | none => s
      | some j =>
        if j.st = .running then
          let n := s.phaseCount p
          let tiles := s.tileSites p
          let low := tiles.foldl (fun m k => min m (min n (s.phasesDone j k))) n
          let s := s.modJob p fun j =>
            { j with phase := low, phaseFt := j.phaseFt.filter fun e => decide (low ≤ e.1),
                     phaseDone := (tiles.filter fun k => decide (low < min n (s.phasesDone j k))).map fun k => s.tileAt k }
          s.watchMet p fun w => w.action == 6 && w.armed && decide (j.phase ≤ w.arg ∧ w.arg < low)
        else s

/-- The outputs that an element of an epoch takes from an input of a site on, through the active switch words (R134): an input that several
outputs select is a fork. An output that has already switched to the next epoch takes no element of this one (R161, DEDUCED, log 93). -/
def State.fabricWalk (s : State) (q : Nat) (e : BitVec 16) : Nat → Nat → Nat → List (Nat × Nat)
  | 0, _, _ => []
  | n + 1, k, inp =>
    ((List.range 12).filter fun o =>
      let u := 0x0C0 + 16 * q + o
      ((s.site k).unit u).epoch == e && (s.site k).cfg u 0 4 == inp).flatMap fun o =>
        (k, 0x0C0 + 16 * q + o) :: match siteNext k o with
          | some k' => State.fabricWalk s q e n k' (arriveCode o)
          | none => []

/-- A switch output switches as the Eve token of the next epoch passes it (R161). -/
def Site.switchOut (x : Site) (u : Nat) (e : BitVec 16) : Site :=
  let y := x.unit u
  if y.valid ∧ y.epoch + 1 = e then x.setUnit u { active := y.shadow, shadow := y.shadow, prev := y.active, epoch := e, valid := false } else x

/-- What a switch output that has switched lets through: the grants of the routes that take it in its phase (R135). -/
def State.outSwitched (s : State) (k u : Nat) : State :=
  match s.partOfRegion (keyRegion k), s.unitPhase k u with
  | some p, some ph =>
    match (s.part p).ordo with
    | none => s
    | some o => ((s.part p).paths.filter fun q => q.loaded && q.phase == ph && q.hops.any fun h => h.link == (k, u)).foldl (fun (s : State) q =>
        match o.routeOf q with
        | some r => s.tryGrant (s.siteOfTile r.src) r.plane r.port
        | none => s) s
  | _, _ => s

/-- The phase Ides timer of a phase starts as the first unit of the partition switches into it (R249). -/
def State.phaseBegins (s : State) (k : Nat) (e : BitVec 16) : State :=
  match s.partOfRegion (keyRegion k) with
  | none => s
  | some p => s.modJob p fun j =>
    let ph := (e - j.relEpoch).toNat
    if j.st = .running ∧ j.phase ≤ ph ∧ ph < s.phaseCount p ∧ j.phaseFt.all fun x => x.1 != ph then { j with phaseFt := Tbl.put ph s.now j.phaseFt } else j

/-- The switch outputs that an Eve token has passed, each of which switches (R161) and may be the first of its phase (R249); the tiles whose last unit that was complete their
phase (R164). -/
def State.evePassed (s : State) (outs : List (Nat × Nat)) (e : BitVec 16) : State :=
  outs.foldl (fun (s : State) o =>
    let before := (s.site o.1).epoch
    let y := (s.site o.1).unit o.2
    let s := s.modSite o.1 fun x => x.switchOut o.2 e
    ((if y.valid ∧ y.epoch + 1 = e then s.phaseBegins o.1 e else s).tileComplete o.1 before).outSwitched o.1 o.2) s

/-- `ROUTE_ELEMENT_SEND` (R127, R134, R135, R161): an injection port with credit sends its oldest element, which takes the way that the
switch words give and enters the FIFO of every ejection port on it; an Eve token switches the outputs it passes, each of which holds its
shadow (log 21). -/
def execRouteElementSend (t site plane port : Nat) (s : State) : Out :=
  let s := s.adv t
  .next <|
    let p := (s.site site).inPort plane port
    match p.outq with
    | e :: rest =>
      let c := elemCost plane e
      let outs := s.fabricWalk plane p.epoch 128 site (5 + port)
      let ep := BitVec.ofNat 16 (e.data.toNat % 65536)
      let ready : Bool := !e.eve || outs.all fun o => ((s.site o.1).unit o.2).valid
      if p.route.isSome ∧ c ≤ p.credit ∧ ready then
        let s := s.modSite site fun x => x.modIn plane port fun p => { p with outq := rest, credit := p.credit - c }
        let s := (outs.filter fun o => decide (4 ≤ o.2 % 16)).foldl (fun (s : State) o =>
          s.modSite o.1 fun x => x.modEj plane (o.2 % 16 - 4) fun q => { q with fifo := q.fifo ++ [e] }) s
        if e.eve then s.evePassed outs ep else s
      else s
    | [] => s

/-- The last unit that reads a stream among several readers removes its Eve token (R160): later stages still need it. -/
def Site.lastReader (x : Site) (u : Nat) (r : InRef) : Bool :=
  switchUnits.all fun v => v = u || !((x.inputs v).contains r) || (x.unit v).epoch != (x.unit u).epoch

/-- Whether a unit has come to the end of its phase (R160): Eve tokens of the next epoch head its inputs and its results are out; a unit
with no inputs belongs to the released step (R164), but a switch output that is not in use waits for its shadow alone (R161). -/
def State.phaseOver (s : State) (k u : Nat) : Bool :=
  let x := s.site k
  let y := x.unit u
  let ins := x.inputs u
  s.siteSwitches k u &&
    ins.all (fun r => match x.headOf r (y.epoch + 1) with
      | some e => x.ownsIn u r && isEve e (y.epoch + 1)
      | none => false) &&
    s.resultsDone k u && (!ins.isEmpty || x.phaseAt.isNone || s.mayRun k u || decide (0x0C0 ≤ u ∧ u < 0x0F0))

/-- Emit the Eve token of the next epoch on each output of a unit that has room and has not carried it yet (R160); the sequencer's leave
with `X.EPHASE`. -/
def State.emitEves (s : State) (k u : Nat) : State :=
  s.modSite k fun x => ((x.outputs u).dedup).foldl (fun (x : Site) o =>
    let y := x.unit u
    if y.eveOut.contains (outNum o) ∨ ¬ x.room u o (eveCost o) then x
    else
      let x := x.emit o (eveTok (y.epoch + 1))
      x.setUnit u { y with eveOut := outNum o :: y.eveOut }) x

/-- Whether a unit owes Eve tokens: its phase is over (R160), or it is a counter that has emitted its final value (R140). -/
def State.eveDue (s : State) (k u : Nat) : Bool :=
  s.phaseOver k u || (decide (0x030 ≤ u ∧ u ≤ 0x037) && s.siteWorks k u && (s.site k).cfg u 96 3 != 0 && ((s.site k).counter (u - 0x030)).done)

/-- The Eve tokens that a unit owes, at the end of its phase (R140, R160). -/
def State.eveOwed (s : State) (k u : Nat) : State :=
  if s.eveDue k u ∧ ¬ (u = seqUnit ∧ (s.site k).seq.ephase) then s.emitEves k u else s

/-- Whether a unit can switch (R160): its phase is over, its shadow is valid, and each output has carried the Eve token. -/
def State.canSwitch (s : State) (k u : Nat) : Bool :=
  let x := s.site k
  let y := x.unit u
  y.valid && y.epoch == x.epoch && s.phaseOver k u &&
    (u != seqUnit || (List.range 32).all fun i => (x.unit (chanUnit i)).valid && (x.unit (chanUnit i)).epoch == y.epoch) &&
    ((u == seqUnit && x.seq.ephase) || (x.outputs u).all fun o => y.eveOut.contains (outNum o))

/-- The channel descriptors of a tile change at its sequencer's switch (R207). -/
def State.chansSwitch (s : State) (k : Nat) (e : BitVec 16) : State :=
  (List.range 32).foldl (fun (s : State) i =>
    let y := (s.site k).unit (chanUnit i)
    if y.valid ∧ y.epoch + 1 = e then
      (s.modSite k fun x => x.setUnit (chanUnit i) { active := y.shadow, shadow := y.shadow, prev := y.active, epoch := e, valid := false }).afterSwitch
        k (chanUnit i) y.active
    else s) s

/-- A unit's switch (R160): the input Eve tokens removed, the shadow into the active configuration. -/
def State.unitSwitch (s : State) (k u : Nat) : State :=
  let x := s.site k
  let e := (x.unit u).epoch + 1
  let before := x.epoch
  let rm := (x.inputs u).filter fun r => x.lastReader u r
  let s := rm.foldl (fun s r => match s.takeIn k r with
    | some (_, s) => s
    | none => s) s
  let s := s.modSite k fun x =>
    let y := x.unit u
    x.setUnit u { active := y.shadow, shadow := y.shadow, prev := y.active, epoch := e, valid := false }
  let s := if u = seqUnit then s.chansSwitch k e else s
  let s := ((s.phaseBegins k e).afterSwitch k u (x.unit u).active).tileComplete k before
  if 0x0C0 ≤ u ∧ u < 0x0F0 then s.outSwitched k u else s

/-- `UNIT_SWITCH` (R160): a unit at the end of its phase emits the Eve tokens that it owes, and switches once its shadow is valid and each
output has carried one. -/
def execUnitSwitch (t site unit : Nat) (s : State) : Out :=
  let s := s.adv t
  .next <|
    if switchUnits.contains unit then
      let s := s.eveOwed site unit
      if s.canSwitch site unit then s.unitSwitch site unit else s
    else s

/-! ## Counters at work (R139, R140) -/

/-- What a counter's next emission is (R139, R140): the value and the one after it, whether it is the last of its pass and the final one, and the tag. -/
structure CounterOut where
  value : Int
  next : Int
  last : Bool
  final : Bool
  tag : Nat
  deriving DecidableEq, Repr

/-- The next emission of a counter. -/
def Site.counterOut (x : Site) (n : Nat) : CounterOut :=
  let u := 0x030 + n
  let c := x.counter n
  let start := bitsZ (x.unit u).active.toNat 0 32
  let stride := bitsZ (x.unit u).active.toNat 32 32
  let v := if c.started then c.cur else start
  let nxt := v + stride
  let last := !(fits32 nxt) || !(beforeLimit stride (bitsZ (x.unit u).active.toNat 64 32) nxt)
  let final := last && decide (c.passes + 1 = x.cfg u 128 32)
  { value := v, next := if last then start else nxt, last, final,
    tag := if final then x.cfg u 112 4 else if last then x.cfg u 108 4 else x.cfg u 104 4 }

/-- The port that takes a counter's token: none under tag 0xF (R139). -/
def Site.counterTok (x : Site) (n : Nat) : List OutRef :=
  if (x.counterOut n).tag = 0xF then [] else [OutRef.inj 2 (x.cfg (0x030 + n) 119 2)]

/-- The port that takes a counter's value, if it emits one (R139). -/
def Site.counterVal (x : Site) (n : Nat) : List OutRef :=
  if x.cfg (0x030 + n) 102 1 = 1 then [OutRef.inj 1 (x.cfg (0x030 + n) 121 2)] else []

/-- `COUNTER_ADVANCE` (R139, R140, R231): a counter emits one value under its mode: the token and the word leave together; the last
value of a pass raises signal 56 + n and advances the counters chained to it. After its final value a counter emits an Eve token on each
output. -/
def execCounterAdvance (t site n : Nat) (s : State) : Out :=
  let s := s.adv t
  .next <|
    let x := s.site site
    let u := 0x030 + n
    let mode := x.cfg u 96 3
    let c := x.counter n
    let r := x.counterOut n
    let ref := InRef.ej (if mode = 2 then 2 else 1) (x.cfg u 116 3)
    let input : Option State :=
      if mode = 1 then (if s.mayRun site u then some s else none)
      else if (mode = 2 ∨ mode = 3) ∧ x.ownsIn u ref then (match s.takeN site ref 1 with
        | some r => some r.2
        | none => none)
      else if mode = 4 ∧ 0 < c.pend then some (s.modSite site fun x => x.modCounter n fun c => { c with pend := c.pend - 1 })
      else none
    if n < 8 ∧ s.siteWorks site u ∧ ¬ c.done ∧ x.chainsReady n ∧ (x.counterTok n ++ x.counterVal n).all fun o => x.room u o 1 then
      match input with
      | none => s
      | some s =>
        let s := s.modSite site fun y =>
          ((y.emitAll (x.counterTok n) { data := BitVec.ofNat 512 r.tag }).emitAll (x.counterVal n)
              { data := BitVec.ofNat 512 (wrapZ 32 r.value) }).modCounter n fun c =>
            { c with cur := r.next, passes := if r.last then c.passes + 1 else c.passes, done := r.final, started := true }
        let s := if r.last then
            (s.modSite site fun x =>
              (x.chainedTo n).foldl (fun x m => x.modCounter m fun c => { c with pend := c.pend + 1 }) x).raise site (56 + n) 1 u
          else s
        if r.final then s.eveOwed site u else s
    else s

/-! ## Steering units (R143 to R146) -/

/-- `STEER_FIRE` (R143, R144): with a control head, the data heads it needs and room on the output it writes, a steering unit
removes them and emits at most one element; a selector above `NSEL` is a `STEER_RANGE`. -/
def execSteerFire (t site n : Nat) (s : State) : Out :=
  let s := s.adv t
  .next <|
    let x := s.site site
    let u := 0x040 + n
    let kind := x.cfg u 0 3
    let nsel := x.cfg u 3 2
    let dp := x.cfg u 6 1
    let ctrl : InRef := .ej (if x.cfg u 5 1 = 1 then 1 else 2) (x.cfg u 9 3)
    let din := fun i => InRef.ej dp (x.cfg u (12 + 3 * i) 3)
    let dout := fun i => OutRef.inj dp (x.cfg u (24 + 2 * i) 2)
    if n < 8 ∧ 1 ≤ kind ∧ kind ≤ 5 ∧ s.siteWorks site u ∧ x.ownsIn u ctrl then
      match s.takeN site ctrl 1 with
      | some ([c], s1) =>
        let tag := bitsN c.data.toNat 0 4
        let sel := tag % 4
        let pass := (tag + x.cfg u 8 1) % 2 == 1
        let last := tag % 2 == 1
        if kind ∈ [1, 2, 5] ∧ nsel < sel then s.configFault site u 4 0x0204
        else
          let needs := if kind = 1 then [din sel] else if kind = 2 then (List.range (nsel + 1)).map din else [din 0]
          let taken := needs.foldl (fun (a : Option (List Elem × State)) r => match a with
            | none => none
            | some (es, s) => match s.takeN site r 1 with
              | some (e, s) => some (es ++ e, s)
              | none => none) (some ([], s1))
          match if needs.all (x.ownsIn u) then taken else none with
          | none => s
          | some (es, s2) =>
            let e := if kind = 2 then es.getD sel {} else es.headD {}
            let outs := if kind = 3 ∧ ¬ pass then [] else if kind = 5 then [dout sel] else [dout 0]
            if outs.all fun o => x.room u o (elemCost dp e) then
              (if kind = 4 ∧ ¬ last then s1 else s2).modSite site fun x => x.emitAll outs e
            else s
      | _ => s
    else s

/-! ## What a K-group needs (R98, R163) -/

/-- Rows and columns of output cells and the K-group size of a `PATCH_CFG` (R98): output-stationary. -/
def patchGeom (fa : Nat) : Nat × Nat × Nat := if fa ≤ 2 then (16, 16, 1) else (16, 32, 32)

/-- K-groups of a stationary block of a pair of formats (R98): 16 × 16, 32 × 16 or 64 × 16 elements of B. -/
def wsGroups (fa fb : Nat) : Nat := if fa ≤ 2 then 16 else if fa = 9 ∧ fb = 9 then 2 else 1

/-- What one K-group takes and folds under the patch word (R98, R99): rows and columns of cells, elements of the group, K-groups of the block of B that
stays (the whole block in weight-stationary mode, of which the last of an output may be short; log 19), rows that stream over it. -/
structure PatchPlan where
  rows : Nat
  cols : Nat
  g : Nat
  blk : Nat
  stream : Nat
  cells : List Nat

/-- The plan of a site's patch word (R98). -/
def Site.patchPlan (x : Site) : PatchPlan :=
  let fa := x.cfg 0 2 4
  let left := x.cfg 0 16 16 - x.patch.kg
  let (rows, cols, g) := patchGeom fa
  if x.cfg 0 0 2 = 2 then
    let n := x.cfg 0 48 10
    { rows := 1, cols := 16, g, blk := min left (wsGroups fa (x.cfg 0 6 4)), stream := n,
      cells := (List.range n).flatMap fun r => (List.range 16).map fun c => 32 * r + c }
  else
    { rows, cols, g, blk := 1, stream := 1, cells := (List.range rows).flatMap fun r => (List.range cols).map fun c => 32 * r + c }

/-- The bytes that a K-group takes of its operands A and B (R98, R99). -/
def Site.patchNeed (x : Site) : Nat × Nat :=
  (x.patchPlan.rows * x.patchPlan.g * fmtBits (x.cfg 0 2 4) / 8, x.patchPlan.cols * x.patchPlan.g * fmtBits (x.cfg 0 6 4) / 8)

/-- Whether the next firing of the patch takes from a stream (R98, R163): what it holds of A, or of the block of B that stays, is less than it folds,
and stream C opens an output block. -/
def Site.patchWants (x : Site) (r : InRef) : Bool :=
  if r = .stream strA then decide (x.patch.bufA.length < x.patchNeed.1)
  else if r = .stream strB then decide (x.patch.bufB.length < x.patchNeed.2 * x.patchPlan.blk)
  else x.patch.kg == 0 && x.patch.wsRow == 0 && x.patch.wsGrp == 0

/-! ## Eve tokens at a unit's inputs (R162, R163) -/

/-- Whether the next firing of a unit needs an input (R163): a `SELECT` needs only the data queue its token names, the patch what it does
not hold already, and a sequencer needs none (R210). -/
def Site.needsNext (x : Site) (u : Nat) (r : InRef) : Bool :=
  if u = seqUnit then false
  else if u = 0 then x.patchWants r
  else if 0x040 ≤ u ∧ u ≤ 0x047 ∧ x.cfg u 0 3 = 1 then
    let ctrl : InRef := .ej (if x.cfg u 5 1 = 1 then 1 else 2) (x.cfg u 9 3)
    match x.headOf ctrl 0 with
    | some c => r == ctrl || (!c.eve && r == .ej (x.cfg u 6 1) (x.cfg u (12 + 3 * (bitsN c.data.toNat 0 2)) 3))
    | none => r == ctrl
  else true

/-- The elements of a list before the first Eve token. -/
def aheadOfEve (l : List Elem) : Nat := (l.takeWhile fun e => !e.eve).length

/-- Discard the elements ahead of the Eve token on an input, counting them (R163). -/
def State.drainIn (s : State) (k : Nat) (r : InRef) : State :=
  let n : Nat := match r with
    | .ej q j => aheadOfEve ((s.site k).ejPort q j).fifo
    | .stream c => aheadOfEve ((s.site k).stream c)
    | .behind _ => 0
  match s.takeN k r n with
  | some (_, s) => s.modSite k fun x => { x with drained := satAdd 255 x.drained n }
  | none => s

/-- The inputs that stand or fall together at a unit (R163): the stages of a pipeline in one epoch advance as one, with every streamed input
(R572). -/
def Site.jointInputs (x : Site) (u : Nat) : List InRef :=
  let v := x.viewAt (x.unit u).epoch
  if 0x010 ≤ u ∧ u ≤ 0x015 ∧ v.pipeActive ∧ (List.range 6).all (fun i => (x.unit (0x010 + i)).epoch == (x.unit u).epoch) then
    v.pipeInputs.map .stream
  else x.inputs u

/-- The heads of the inputs that a unit may take from, with their inputs (R162, R163). -/
def Site.headsOf (x : Site) (u : Nat) : List (InRef × Elem) :=
  ((x.jointInputs u).filter (x.ownsIn u)).filterMap fun r => (x.headOf r ((x.unit u).epoch + 1)).map fun e => (r, e)

/-- `EVE_TOKEN_HEAD` (R162, R163): an Eve token at the head of a unit's input is a duplicate of the current epoch, that of the next
epoch, or an `EPOCH_FAULT`; a stranded unit drains or is an `EPOCH_RESIDUE`. -/
def execEveTokenHead (t site unit : Nat) (s : State) : Out :=
  let s := s.adv t
  .next <|
    let x := s.site site
    let y := x.unit unit
    let heads := x.headsOf unit
    if ¬ switchUnits.contains unit ∨ ¬ s.siteWorks site unit then s
    else match heads.find? fun h => h.2.eve && !(isEve h.2 (y.epoch + 1)) with
    | some h =>
      if isEve h.2 y.epoch then
        match s.takeIn site h.1 with
        | some (_, s) => s.modSite site fun x => { x with dupEve := satAdd 255 x.dupEve 1 }
        | none => s
      else s.configFault site unit 1 0x0201
    | none =>
      let eves := heads.filter fun h => h.2.eve
      let data := heads.filter fun h => !h.2.eve
      if (eves.any fun h => x.needsNext unit h.1) ∧ ¬ data.isEmpty then
        if 0x040 ≤ unit ∧ unit ≤ 0x047 ∧ x.cfg unit 7 1 = 1 then
          let s := (data.foldl (fun s h => s.drainIn site h.1) s).eveOwed site unit
          if s.canSwitch site unit then s.unitSwitch site unit else s
        else s.configFault site unit 2 0x0202
      else s

end Sys2Proof.Machine
end

