-- ==== Sys2Proof/Machine/Special.lean ====
section
/-! DEFINITION. The special functions of vector stage 4 (03 R88, R108, R111, R112): their true values to 256 fractional bits, the accuracy
that R111 guarantees, and the results that R112 states. -/

namespace Sys2Proof.Machine

/-! ## True values in fixed point -/

/-- Fractional bits of a fixed-point number. -/
abbrev fxBits : Nat := 256
/-- One in fixed point. -/
abbrev fxOne : Int := 2 ^ fxBits

/-- Product of two fixed-point numbers, rounded down. -/
def fxMul (a b : Int) : Int := a * b / fxOne

/-- A finite value in fixed point, rounded toward zero. -/
def fxOf (neg : Bool) (mant : Nat) (exp : Int) : Int :=
  let a : Int := if 0 ≤ exp + fxBits then mant * 2 ^ (exp + fxBits).toNat else mant / 2 ^ (-(exp + fxBits)).toNat
  if neg then -a else a

/-- The value of a fixed-point number times 2^`k`. -/
def fxVal (a k : Int) : Val := .fin (decide (a < 0)) a.natAbs (k - fxBits)

/-- Sum of `n` terms from the `i`-th on: each term is `pow` over `den i`, and `pow` grows by the factor `z`. -/
def fxSeries (den : Nat → Int) (z : Int) : Nat → Nat → Int → Int
  | 0, _, _ => 0
  | n + 1, i, pow => pow / den i + fxSeries den z n (i + 1) (fxMul pow z)

/-- Inverse hyperbolic tangent of a number of magnitude at most 1/3. -/
def fxAtanh (z : Int) : Int := fxSeries (fun i => 2 * i + 1) (fxMul z z) 90 0 z
/-- Inverse tangent of 1/`n`. -/
def fxAtanInv (n : Int) : Int := fxSeries (fun i => 2 * i + 1) (-(fxOne / (n * n))) 120 0 (fxOne / n)
/-- The natural logarithm of 2. -/
def fxLn2 : Int := 2 * fxAtanh (fxOne / 3)
/-- The number π. -/
def fxPi : Int := 16 * fxAtanInv 5 - 4 * fxAtanInv 239

/-- e to the power of a number from 0 to 1. -/
def fxExpFrom (t : Int) : Nat → Nat → Int → Int
  | 0, _, _ => 0
  | n + 1, i, term => term + fxExpFrom t n (i + 1) (fxMul term t / (i + 1))
/-- e to the power of a number from 0 to 1. -/
def fxExp (t : Int) : Int := fxExpFrom t 80 0 fxOne

/-- e to the power of `y`: a fixed-point number from 1 to 2, and the power of two that it is scaled by. -/
def fxExpParts (y : Int) : Int × Int := (fxExp (y - y / fxLn2 * fxLn2), y / fxLn2)

/-- The square root of `n`, rounded down, from bit `k` - 1 of the root down. -/
def isqrtFrom (n : Nat) : Nat → Nat → Nat
  | 0, r => r
  | k + 1, r => isqrtFrom n k (if (r + 2 ^ k) * (r + 2 ^ k) ≤ n then r + 2 ^ k else r)

/-- A fixed-point number kept within ±1,000, beyond which the functions here have reached their limits in every format. -/
def fxClamp (y : Int) : Int := max (-1000 * fxOne) (min (1000 * fxOne) y)

/-- 1 / (1 + e^−y). -/
def fxSigmoid (y : Int) : Val :=
  let a : Int := (fxClamp y).natAbs
  let p := fxExpParts (-a)
  let d := fxOne + p.1 / 2 ^ (-p.2).toNat
  if 0 ≤ y then fxVal (fxOne * fxOne / d) 0 else fxVal (p.1 * fxOne / d) p.2

/-- The hyperbolic tangent of a number that is not negative. -/
def fxTanh (y : Int) : Int :=
  let p := fxExpParts (-2 * fxClamp y)
  let q := p.1 / 2 ^ (-p.2).toNat
  (fxOne - q) * fxOne / (fxOne + q)

/-- The distribution function of the standard normal distribution, by its series about 0. -/
def fxPhi (x : Int) : Int :=
  if 12 * fxOne ≤ x then fxOne
  else if x ≤ -12 * fxOne then 0
  else
    let z := fxMul x x
    let s := (List.range 400).foldl (fun (a : Int × Int) n => (a.1 + a.2 / (2 * n + 1), -(fxMul a.2 z / (2 * (n + 1))))) (0, x)
    let c : Int := isqrtFrom ((fxOne * fxOne * fxOne / (2 * fxPi)).toNat) 400 0
    fxOne / 2 + fxMul s.1 c

/-- The true value of a special function of a finite nonzero value (R108), to 256 fractional bits. The constants of the tanh-form GELU,
√(2/π) and 0.044715, are those in general use: the spec names the form only (PRESUMED, log 17). -/
def specialTrue (op : Nat) (neg : Bool) (m : Nat) (e : Int) : Val :=
  let x := fxOf neg m e
  let v : Val := .fin neg m e
  if op = 0x18 then fxVal (fxExp (fxMul (x - x / fxOne * fxOne) fxLn2)) (x / fxOne)
  else if op = 0x19 then
    let l := floorLog m e
    let z := fxOf false m (e - l)
    fxVal (l * fxOne + 2 * fxAtanh ((z - fxOne) * fxOne / (z + fxOne)) * fxOne / fxLn2) 0
  else if op = 0x1A then .fin neg (2 ^ (2 * fxBits) / m) (-e - 2 * fxBits)
  else if op = 0x1B then
    let odd := e % 2
    .fin false (isqrtFrom (2 ^ (4 * fxBits) / (m * 2 ^ odd.toNat)) 513 0) (-((e - odd) / 2) - 2 * fxBits)
  else if op = 0x1C then (if neg then (fxVal (fxTanh (-x)) 0).neg else fxVal (fxTanh x) 0)
  else if op = 0x1D then fxSigmoid x
  else if op = 0x1E then v.mul (fxSigmoid x)
  else if op = 0x1F then
    let y := fxClamp x
    let c : Int := isqrtFrom ((8 * fxOne * fxOne * fxOne / fxPi).toNat) 300 0
    v.mul (fxSigmoid (fxMul c (y + fxMul (fxMul y (fxMul y y)) (fxOne * 44715 / 1000000))))
  else v.mul (fxVal (fxPhi x) 0)

/-! ## Accuracy and results (R111, R112) -/

/-- The format of a special function's input and result in the FP32 unit. -/
abbrev fp32 : FloatFmt := ⟨8, 23, 127, 0⟩

/-- Whether two values differ by no more than a bound. -/
def Val.near (a b bound : Val) : Bool := decide ((a.add b.neg).abs.cmp bound ≤ 0)

/-- `k` units in the last place of a finite value of a format (R111). -/
def FloatFmt.ulps (f : FloatFmt) (k : Nat) (v : Val) : Val :=
  match v with
  | .fin _ m e => .fin false k (if m = 0 then 1 - (f.bias : Int) - f.mb else max (floorLog m e - f.mb) (1 - (f.bias : Int) - f.mb))
  | v => v

/-- The table of R111 for FP32: whether a result `y` is as near the exactly rounded true value `r` of operation `op` at `x` as guaranteed. -/
def specialNear (op : Nat) (x r y : Val) : Bool :=
  let abs := fun (n : Int) => y.near r (.fin false 1 n)
  let ulp := fun (k : Nat) => y.near r (fp32.ulps k r)
  let below := fun (a b : Val) => decide (a.cmp b < 0)
  if op = 0x19 then (if below x (.fin false 1 (-1)) || below (.fin false 2 0) x then ulp 1 else abs (-22))
  else if op = 0x1C then (if below x.abs (.fin false 1 0) then abs (-22) else ulp 2)
  else if op = 0x1D ∨ op = 0x1E then ulp 2
  else if op = 0x1F ∨ op = 0x20 then (if below x (.fin true 3 0) then abs (-30) else ulp 3)
  else ulp 1

/-- A code with a subnormal value replaced by zero of its sign (R88). -/
def FloatFmt.flush (f : FloatFmt) (c : Nat) : Nat :=
  if bitsN c f.mb f.eb = 0 then (if bitOn c (f.eb + f.mb) then 2 ^ (f.eb + f.mb) else 0) else c

/-- A value that is a code's, when it is finite. -/
def Val.isFin : Val → Bool
  | .fin .. => true
  | _ => false

/-- The result where R112 states none: the tables of the arithmetic-semantics version give it (`Config.special`, log 17), within the accuracy of
R111 of the exactly rounded true value; a subnormal result is zero (R112). -/
def specialOther (asv op x : Nat) (neg : Bool) (m : Nat) (e : Int) : Nat :=
  let r := fp32.encode 0 0 false (specialTrue op neg m e)
  let y := fp32.flush (Config.special asv op (BitVec.ofNat 32 x)).toNat
  let far : Bool := decide (op ∈ [0x1F, 0x20]) && decide ((Val.fin neg m e).cmp (.fin true 3 0) < 0)
  if bitsN r 23 8 = 0 ∧ op ≠ 0x19 ∧ op ≠ 0x1C ∧ ¬ far then fp32.flush r
  else if (fp32.decode y).isFin ∧ specialNear op (.fin neg m e) (fp32.decode r) (fp32.decode y) then y
  else fp32.flush r

/-- Special functions of stage 4 on an FP32 code (R112). -/
def specialFn (asv op x : Nat) : Nat :=
  let x := fp32.flush x
  let neg := bitOn x 31
  let s := if neg then 0x80000000 else 0
  match fp32.decode x with
  | .nan => 0x7FC00000
  | .inf n =>
    if op = 0x18 then (if n then 0 else 0x7F800000)
    else if op = 0x19 then (if n then 0x7FC00000 else 0x7F800000)
    else if op = 0x1A then s
    else if op = 0x1B then (if n then 0x7FC00000 else 0)
    else if op = 0x1C then 0x3F800000 + s
    else if op = 0x1D then (if n then 0 else 0x3F800000)
    else (if n then 0x80000000 else 0x7F800000)
  | .fin n m e =>
    if m = 0 then
      if op = 0x18 then 0x3F800000
      else if op = 0x19 then 0xFF800000
      else if op = 0x1A then 0x7F800000 + s
      else if op = 0x1B then 0x7F800000 + s
      else if op = 0x1C then s
      else if op = 0x1D then 0x3F000000
      else s
    else if op = 0x18 then
      if ¬ n ∧ (Val.fin n m e).cmp (.fin false 1 7) ≠ -1 then 0x7F800000
      else if n ∧ (Val.fin n m e).cmp (.fin true 126 0) = -1 then 0
      else specialOther asv op x n m e
    else if (op = 0x19 ∨ op = 0x1B) ∧ n then 0x7FC00000
    else specialOther asv op x n m e

/-- Whether R112 states the result of a special function of a finite value. -/
def specialStated (op : Nat) (n : Bool) (m : Nat) (e : Int) : Bool :=
  decide (m = 0 ∨ (op = 0x19 ∨ op = 0x1B) ∧ n) ||
    (op == 0x18 && (decide (¬ n ∧ (Val.fin n m e).cmp (.fin false 1 7) ≠ -1) || decide (n ∧ (Val.fin n m e).cmp (.fin true 126 0) = -1)))

/-- A special function on a 16-bit lane of a format (R88, R91, R111, R112): subnormal inputs and results of the format are zeros, and a finite result,
rounded under the mode of the stage, lies within 1 ulp of the format of the exactly rounded true value. An infinity that R112 states stays one whatever
`SAT` holds, as in a 32-bit lane (DESIGN CHOICE, log 145). -/
def specialLane (asv op : Nat) (f : FloatFmt) (mode draw : Nat) (sat : Bool) (a : Nat) : Nat :=
  let a := f.flush a
  let v := fp32.decode (specialFn asv op (fp32.encode 0 0 false (f.decode a)))
  let y := f.flush (f.encode mode draw (sat && v.isFin) v)
  match f.decode a with
  | .fin n m e =>
    if specialStated op n m e then y
    else
      let r := f.flush (f.encode mode draw sat (specialTrue op n m e))
      let r0 := f.flush (f.encode 0 0 sat (specialTrue op n m e))
      let ref := if (f.decode r0).isFin then r0 else r
      if ¬ (f.decode r).isFin ∨ bitsN r f.mb f.eb = 0 then r
      else if (f.decode y).isFin ∧ (f.decode y).near (f.decode ref) (f.ulps 1 (f.decode ref)) then y
      else r
  | _ => y

end Sys2Proof.Machine
end

