-- ==== Sys2Proof/Machine/Compute.lean ====
section
/-! DEFINITION. The matrix patch and the vector pipeline (03 R82 to R125, R572; 05 R571). -/

namespace Sys2Proof.Machine

/-! ## The matrix patch (R98 to R104) -/

/-- Bytes of a vector (R177 `VLEN`). -/
def vlenBytes (c : Nat) : Nat := if c = 0 then 16 else if c = 1 then 32 else if c = 2 then 64 else 256

/-- Sum of exact values, from +0 only when empty (R101). -/
def sumVals : List Val → Val
  | [] => .fin false 0 0
  | v :: vs => vs.foldl Val.add v

/-- The exact value T_g of one K-group for one cell (R99, R101): operand codes at each depth and the block scale bytes. -/
def groupVal (cfg fa fb : Nat) (as bs : List Nat) (sa sb : Nat) : Val :=
  let sum := sumVals ((as.zip bs).map fun x => (decodeElem fa x.1).mul (decodeElem fb x.2))
  if isMx fa then
    match scaleExp sa, scaleExp sb with
    | some xa, some xb => sum.scale (xa + xb)
    | _, _ => .nan
  else if fa = 3 ∨ fa = 4 then sum.scale (bitsZ cfg 32 8 + bitsZ cfg 40 8)
  else sum

/-- Fold one K-group into the accumulators of `rows` rows from `row0` on (R99, R100): the elements and scale bytes of the group stand in the order of
delivery, `g` consecutive elements for each row of A and each column of B (R86, R99). Answers also whether an INT32 accumulator wrapped
and whether a T_g was NaN. -/
def patchFold (w : BitVec 64) (rows cols g row0 : Nat) (da sa db sb : List Byte) (acc : Tbl (BitVec 32)) : Tbl (BitVec 32) × Bool × Bool :=
  let cfg := w.toNat
  let fa := bitsN cfg 2 4
  let fb := bitsN cfg 6 4
  let na := ofLe da
  let nb := ofLe db
  let ea := fun i => (List.range g).map fun k => bitsN na (fmtBits fa * (g * i + k)) (fmtBits fa)
  let eb := fun c => (List.range g).map fun k => bitsN nb (fmtBits fb * (g * c + k)) (fmtBits fb)
  (List.range rows).foldl (fun r i => (List.range cols).foldl (fun (r : Tbl (BitVec 32) × Bool × Bool) c =>
    let cell := 32 * (row0 + i) + c
    let old := Tbl.get (0 : BitVec 32) r.1 cell
    if fa = 0xB then
      let z := ((ea i).zip (eb c)).foldl (fun (z : BitVec 32 × Bool) x =>
        let n := z.1.toInt + bitsZ x.1 0 8 * bitsZ x.2 0 8
        (BitVec.ofInt 32 n, z.2 || !fits32 n)) (old, false)
      (Tbl.set 0 cell z.1 r.1, r.2.1 || z.2, r.2.2)
    else
      let tg := groupVal cfg fa fb (ea i) (eb c) (sa.getD i 0).toNat (sb.getD c 0).toNat
      let nan : Bool := match tg with
        | .nan => true
        | _ => false
      (Tbl.set 0 cell (BitVec.ofNat 32 (fp32.encode 0 0 false ((fp32.decode old.toNat).add tg))) r.1, r.2.1, r.2.2 || nan)) r)
    (acc, false, false)

/-- The initial accumulators of an output block (R104 `ACC_INIT`), from the bytes of stream C. -/
def patchInit (w : BitVec 64) (cells : List Nat) (c : List Byte) (acc : Tbl (BitVec 32)) : Tbl (BitVec 32) :=
  let init := bitsN w.toNat 10 2
  if init = 2 then acc
  else if init = 1 then ((pickMap cells.length (Config.patchInit w) cells).zipIdx).foldl (fun t i => Tbl.set 0 i.1 (BitVec.ofNat 32 (num c (4 * i.2) 4)) t) acc
  else cells.foldl (fun t i => Tbl.set 0 i 0 t) acc

/-- Beats of sixteen accumulators in emission order, each cell once (R99, assumption 19). -/
def patchBeats (w : BitVec 64) (cells : List Nat) (acc : Tbl (BitVec 32)) : List Elem :=
  let order := pickMap cells.length (Config.patchCell w) cells
  (List.range (cells.length / 16)).map fun b =>
    { data := ofLanes 32 ((List.range 16).map fun i => (Tbl.get (0 : BitVec 32) acc (order.getD (16 * b + i) 0)).toNat) }

/-- Bytes of the vectors of the read program that feeds a patch stream (R177, R182). -/
def Site.patchVlen (x : Site) (c : Nat) : Nat :=
  match x.agBound 1 c with
  | some n => vlenBytes (x.cfg (0x020 + n) 11 2)
  | none => 64

/-- Take as many vectors of a patch stream as `need` bytes ask for beside those that are held: the bytes and scale bytes then held. -/
def State.patchTake (s : State) (k c need : Nat) (buf scl : List Byte) : Option (List Byte × List Byte × State) :=
  let v := ((s.site k).viewAt ((s.site k).unit 0).epoch).patchVlen c
  (s.takeN k (.stream c) ((need - buf.length + v - 1) / v)).map fun r =>
    (buf ++ r.1.flatMap (fun e => leBytes v e.data.toNat), scl ++ r.1.flatMap (·.scales), r.2)

/-- The patch after a K-group: its place moves on, and what the group used of its operands is gone (R98, R104). Answers also whether the output
block is complete. -/
def PatchSt.after (y : PatchSt) (pl : PatchPlan) (kgCount na nsa nb nsb : Nat) : PatchSt × Bool :=
  let y := { y with bufA := y.bufA.drop na, sclA := y.sclA.drop nsa }
  if y.wsGrp + 1 < pl.blk then ({ y with wsGrp := y.wsGrp + 1 }, false)
  else if y.wsRow + 1 < pl.stream then ({ y with wsGrp := 0, wsRow := y.wsRow + 1 }, false)
  else
    let kg := y.kg + pl.blk
    let emit := decide (kgCount ≤ kg)
    ({ y with wsGrp := 0, wsRow := 0, kg := if emit then 0 else kg, bufB := y.bufB.drop (nb * pl.blk), sclB := y.sclB.drop (nsb * pl.blk) }, emit)

/-- `PATCH_KGROUP` (R98 to R104): the patch takes one K-group from its operand streams and folds its exact value into each accumulator with one
rounding; after `KG_COUNT` groups it emits. In weight-stationary mode a block of B stays while rows of A stream over it: a command folds one
K-group of the block for one row, and the block leaves with its last row. -/
def execPatchKgroup (t site : Nat) (s : State) : Out :=
  let s := s.adv t
  .next <|
    let x := s.site site
    let w : BitVec 64 := ((x.unit 0).active).setWidth 64
    let mode := x.cfg 0 0 2
    let fa := x.cfg 0 2 4
    let fb := x.cfg 0 6 4
    let pl := x.patchPlan
    let first := x.patch.kg == 0 && x.patch.wsRow == 0 && x.patch.wsGrp == 0
    let na := x.patchNeed.1
    let nb := x.patchNeed.2
    let nsa := if isMx fa then pl.rows else 0
    let nsb := if isMx fb then pl.cols else 0
    if (mode = 1 ∨ mode = 2) ∧ s.siteWorks site 0 then
      match s.patchTake site strA na x.patch.bufA x.patch.sclA with
      | none => s
      | some (bufA, sclA, s1) =>
        match s1.patchTake site strB (nb * pl.blk) x.patch.bufB x.patch.sclB with
        | none => s
        | some (bufB, sclB, s2) =>
          match if first ∧ x.cfg 0 10 2 = 1 then s2.patchTake site strC (4 * pl.cells.length) [] [] else some ([], [], s2) with
          | none => s
          | some (c, _, s3) =>
            let acc := if first then patchInit w pl.cells c x.patch.acc else x.patch.acc
            let (acc, wrap, nan) := patchFold w pl.rows pl.cols pl.g x.patch.wsRow (bufA.take na) (sclA.take nsa)
              ((bufB.drop (nb * x.patch.wsGrp)).take nb) ((sclB.drop (nsb * x.patch.wsGrp)).take nsb) acc
            let (y, emit) := ({ x.patch with acc, bufA, sclA, bufB, sclB, intWrap := x.patch.intWrap || wrap,
                                             nanSeen := x.patch.nanSeen || nan } : PatchSt).after pl (x.cfg 0 16 16) na nsa nb nsb
            s3.modSite site fun z =>
              let z := { z with patch := y }
              if emit then (patchBeats w pl.cells acc).foldl (fun z e => z.emitAll (z.outputs 0) e) z else z
    else s

/-! ## Vector stages (R105 to R113) -/

/-- What passes from stage to stage: lanes, whether they hold INT32 values, and vectors of A64 values with their tags. -/
structure BeatFlow where
  lanes : BitVec 512 := 0
  int : Bool := false
  a64 : List Elem := []
  deriving DecidableEq, Repr

/-- What a stage reads of its surroundings (R125): version, job seed and stream key, logical tile, step, anchor cache. -/
structure StageEnv where
  asv : Nat := 1
  seed : BitVec 64 := 0
  skey : BitVec 32 := 0
  tile : Nat := 0
  step : Nat := 0
  anchors : Tbl Int := []

/-- Width of a lane in bits (R105). -/
def laneW (cfg : Nat) : Nat := if bitOn cfg 30 then 16 else 32
/-- Number of lanes (R105). -/
def laneN (cfg : Nat) : Nat := if bitOn cfg 30 then 32 else 16
/-- The format code of a floating-point lane (R105). -/
def laneFmt (cfg : Nat) : Nat := if bitOn cfg 30 then (if bitOn cfg 31 then 2 else 1) else 0

/-- Value of a lane code. -/
def laneVal (cfg : Nat) (int : Bool) (c : Nat) : Val := if int then intVal (laneW cfg) c 0 else decodeElem (laneFmt cfg) c

/-- The operand that a selector names (R107): lane codes and whether they are integers. -/
def stOperand (cfg sel : Nat) (prev s0 s1 : BeatFlow) (st : StageSt) : List Nat × Bool :=
  let w := laneW cfg
  let n := laneN cfg
  let of := fun (d : BitVec 512) => (List.range n).map (lane w d)
  if sel = 0 then (of prev.lanes, prev.int)
  else if sel = 1 then (of s0.lanes, s0.int)
  else if sel = 2 then (of s1.lanes, s1.int)
  else if sel = 3 then (List.replicate n (bitsN cfg 64 w), false)
  else if sel ≤ 0xB then (of (Tbl.get 0 st.v (sel - 4)), st.ints.contains (sel - 4))
  else if sel = 0xC then (List.range n, true)
  else (List.replicate n 0, false)

/-- The relation that `CMP` tests (R108). -/
def cmpRel (rel : Nat) (a b : Val) : Bool :=
  let unord : Bool := match a, b with
    | .nan, _ => true
    | _, .nan => true
    | _, _ => false
  let c : Int := match a, b with
    | .inf x, .inf y => if x = y then 0 else if x then -1 else 1
    | a, b => a.cmp b
  if rel = 0 then !unord && c == 0
  else if rel = 1 then unord || c != 0
  else if rel = 2 then !unord && decide (c < 0)
  else if rel = 3 then !unord && decide (c ≤ 0)
  else if rel = 4 then !unord && decide (0 < c)
  else if rel = 5 then !unord && decide (0 ≤ c)
  else unord

/-- The result of a lane-wise operation other than a conversion (R108, R110): the lane code. Arithmetic on INT32 lanes is a free
value: the spec states it for the floating-point lane format only (assumption 22). `SAT` acts on the overflow of a finite result: R89 states what it
makes of an infinity for conversions only, and an exactly infinite result of another operation stays infinite here (DESIGN CHOICE, log 145). -/
def laneOp (env : StageEnv) (cfg op pos i : Nat) (ia ib ic : Bool) (a b c old : Nat) : Nat :=
  let w := laneW cfg
  let f := laneFmt cfg
  let mode := bitsN cfg 22 2
  let sat := bitOn cfg 28
  let draw := elementDraw env.seed env.skey env.tile (bitsN cfg 32 16) env.step (pos + i)
  let va := laneVal cfg false a
  let vb := laneVal cfg false b
  let rnd := fun (v : Val) => encodeElem f mode draw (sat && v.isFin) v
  let free := (Config.intLane env.asv (BitVec.ofNat 128 cfg) draw a b c old).toNat % 2 ^ w
  let arith := fun (ints : Bool) (v : Val) => if ints then free else rnd v
  if op = 0x00 then a
  else if op = 0x01 then arith (ia || ib) (va.add vb)
  else if op = 0x02 then arith (ia || ib) (va.add vb.neg)
  else if op = 0x03 then arith (ia || ib) (va.mul vb)
  else if op = 0x04 then arith (ia || ib || ic) ((va.mul vb).add (laneVal cfg false c))
  else if op = 0x05 then arith (ia || ib) (va.minmax false vb)
  else if op = 0x06 then arith (ia || ib) (va.minmax true vb)
  else if op = 0x07 then arith ia va.abs
  else if op = 0x08 then arith ia va.neg
  else if op = 0x09 then
    let int := ia || ib
    if cmpRel (bitsN cfg 64 3) (laneVal cfg int a) (laneVal cfg int b) then 2 ^ w - 1 else 0
  else if op = 0x0A then (if (laneVal cfg ic c).isZero then b else a)
  else if op = 0x0B then a &&& b
  else if op = 0x0C then a ||| b
  else if op = 0x0D then a ^^^ b
  else if op = 0x13 then arith ia ((laneVal cfg false old).add va)
  else if op = 0x16 then (if bitsN cfg 64 16 ≤ draw then arith (ia || ib) (va.mul vb) else 0)
  else if 0x18 ≤ op ∧ op ≤ 0x20 then
    if ia then free
    else match floatFmt f with
      | some g => if f = 0 then specialFn env.asv op a else specialLane env.asv op g mode draw sat a
      | none => a
  else a

/-- Combine a list pairwise, level by level (R109). -/
def treeFold (g : Val → Val → Val) : Nat → List Val → List Val
  | 0, l => l
  | n + 1, l => treeFold g n ((List.range (l.length / 2)).map fun i => g (l.getD (2 * i) .nan) (l.getD (2 * i + 1) .nan))

/-- A lane reduction (R91, R109): the lane codes of its result, rounded once to the lane format under the mode of the stage; `draw` is that of lane 0. -/
def reduceLanes (cfg op draw : Nat) (a : List Nat) : List Nat :=
  let n := laneN cfg
  let f32 : FloatFmt := ⟨8, 23, 127, 0⟩
  let mask := bitsN cfg 96 32
  let vals := (a.zipIdx).map fun x =>
    if bitOn mask x.2 then laneVal cfg false x.1 else if op = 0x11 then Val.fin true 0 0 else Val.inf true
  let add := fun (x y : Val) => f32.decode (f32.encode 0 0 false (x.add y))
  let r := (treeFold (if op = 0x11 then add else Val.minmax true) 5 vals).headD .nan
  let r := if n = 16 then (treeFold (if op = 0x11 then add else Val.minmax true) 4 vals).headD .nan else r
  let code := encodeElem (laneFmt cfg) (bitsN cfg 22 2) draw (bitOn cfg 28) r
  (List.range n).map fun i => if i = 0 ∨ bitOn cfg 29 then code else 0

/-- Lane `i` of a flow as 64 bits: its A64 value, or its lane code. -/
def BeatFlow.lane64 (f : BeatFlow) (w i : Nat) : Nat :=
  if f.a64.isEmpty then lane w f.lanes i else lane 64 (f.a64.getD (i / 8) {}).data (i % 8)

/-- Replace the masked-off lanes of A64 vectors by the previous-stage input (R110); a lane code stands zero-extended there (DESIGN CHOICE, log 98). -/
def keepA64 (cfg : Nat) (prev : BeatFlow) (vs : List Elem) : List Elem :=
  (vs.zipIdx).map fun e =>
    { e.1 with data := ofLanes 64 ((List.range 8).map fun i =>
        if bitOn (bitsN cfg 96 32) (8 * e.2 + i) then lane 64 e.1.data i else prev.lane64 (laneW cfg) (8 * e.2 + i)) }

/-- Convert lanes to A64 vectors of eight with their tags (R114 to R116): a masked-off lane contributes nothing. -/
def lanesToA64 (env : StageEnv) (cfg : Nat) (int : Bool) (a : List Nat) : List Elem :=
  let chunk := bitsN cfg 48 16
  let anc := Tbl.get 0 env.anchors chunk
  (List.range (laneN cfg / 8)).map fun v =>
    let ls := ((List.range 8).map fun i => 8 * v + i).filter fun i => bitOn (bitsN cfg 96 32) i
    let one := fun (i : Nat) => if int then (Config.intA64 anc (a.getD i 0), false, false) else toA64 anc (laneVal cfg false (a.getD i 0))
    { data := ofLanes 64 ((List.range 8).map fun i => (one (8 * v + i)).1.toNat),
      tag := some { chunk, maxExp := if int then -512 else segMaxExp (ls.map fun i => laneVal cfg false (a.getD i 0)), anchor := anc, count := 1,
                    span := ls.any fun i => (one i).2.1, nonfin := ls.any fun i => (one i).2.2 } }

/-- The values of A64 vectors (R119): a vector without a tag takes the anchor cache's anchor and no flag. -/
def a64Vals (env : StageEnv) (cfg : Nat) (vs : List Elem) : List Val :=
  vs.flatMap fun e =>
    let t : A64Tag := e.tag.getD { anchor := Tbl.get 0 env.anchors (bitsN cfg 48 16) }
    (List.range 8).map fun i => if t.nonfin then .nan else a64Val t.anchor (BitVec.ofNat 64 (lane 64 e.data i))

/-- Lane codes from codes of another format (R105, R571): as they are for stage 6, and for a later stage where the format is as wide as the lane;
a narrower one is widened, which is exact (DEDUCED, log 144). -/
def asLanes (cfg fmt : Nat) (final : Bool) (codes : List Nat) : List Nat × Bool :=
  let int := fmt == 0xB || fmt == 0xC
  (codes.map fun c =>
    if final ∨ (fmtBits fmt = laneW cfg ∧ ¬ int) then c
    else if int then wrapZ (laneW cfg) (bitsZ c 0 (fmtBits fmt))
    else encodeElem (laneFmt cfg) 0 0 false (decodeElem fmt c), int)

/-- One place of a block that is converted to a microscaling format: whether its lane is enabled, its value and draw, and the previous-stage input that a
masked-off lane passes. -/
structure MxIn where
  on : Bool
  val : Val
  draw : Nat
  prev : Nat

/-- Put the codes of the enabled lanes back among the masked-off ones. -/
def mxSpread (w : Nat) : List MxIn → List Nat → List Nat
  | [], _ => []
  | x :: xs, cs => if x.on then cs.headD 0 :: mxSpread w xs cs.tail else x.prev % 2 ^ w :: mxSpread w xs cs

/-- A block of 32 values in a microscaling format (R90): the enabled lanes make the block; a masked-off one passes the low bits of its previous-stage
input (R110; DESIGN CHOICE, log 98). -/
def mxBlock (fmt mode : Nat) (xs : List MxIn) : Elem :=
  let r := mxConvert fmt mode ((xs.filter (·.on)).map fun x => (x.val, x.draw))
  { data := BitVec.ofNat 512 (ofLe (packBytes (fmtBits fmt) 64 (mxSpread (fmtBits fmt) xs r.1))), scales := [BitVec.ofNat 8 r.2] }

/-- What a stage hands on: its state, the flow downstream, and what stage 6 emits. -/
abbrev StageOut := StageSt × BeatFlow × List Elem

/-- Write a result to V[`DST_REG`] when `DST_EN` is 1, and always for `ACC` (R106, R108). -/
def StageSt.writeReg (st : StageSt) (cfg : Nat) (d : BitVec 512) (int : Bool) : StageSt :=
  let dst := bitsN cfg 18 3
  if bitOn cfg 21 ∨ bitsN cfg 0 6 = 0x13 then
    { st with v := Tbl.set 0 dst d st.v, ints := if int then (dst :: st.ints).dedup else st.ints.filter (· != dst) }
  else st

/-- A result of lane codes (R106): lanes of 32 bits in 32-lane mode, which only stage 6 may give, are wider than a beat. -/
def stageDone (cfg : Nat) (final : Bool) (st : StageSt) (ls : List Nat) (int : Bool) : StageOut :=
  let op := bitsN cfg 0 6
  let wide : Bool := final && bitOn cfg 30 && (op == 0x10 || op == 0x15) && fmtBits (bitsN cfg 24 4) == 32
  let d := if wide then Config.narrow [ofLanes 32 (ls.take 16), ofLanes 32 (ls.drop 16)] else ofLanes (laneW cfg) ls
  (st.writeReg cfg d int, { lanes := d, int }, [{ data := d }])

/-- A result of A64 vectors (R106, R116): they pass downstream with their tags. -/
def stageDoneA64 (cfg : Nat) (st : StageSt) (vs : List Elem) : StageOut :=
  let d := Config.narrow (vs.map (·.data))
  (st.writeReg cfg d false, { lanes := d, a64 := vs }, vs)

/-- A result in a microscaling format at stage 6 (R90, R571). -/
def stageDoneMx (cfg : Nat) (st : StageSt) (e : Elem) : StageOut := (st.writeReg cfg (Config.narrow [e.data]) false, {}, [e])

/-- `CVT` and `FROM_A64` to a microscaling format (R90, R119): stage 6 makes one block of two beats in 16-lane mode and of one in 32-lane mode; `now` are the
places of this beat, `held` those of the first half, `keep` what the stage holds with only the first half there. `codes` are the
lanes of the beat, the previous-stage input where they are masked off. A stage before the last passes a free value on for each enabled lane
(R110; log 44). -/
def stageMx (cfg : Nat) (final : Bool) (st keep : StageSt) (mode : Nat) (held : Option (List MxIn)) (now : List MxIn) (codes : List Nat) : StageOut :=
  let fmt := bitsN cfg 24 4
  if ¬ final then
    let w := laneW cfg
    let pass := Config.mxPass (BitVec.ofNat 128 cfg) codes (now.map (·.draw))
    let d := ofLanes w ((codes.zipIdx).map fun x => if bitOn (bitsN cfg 96 32) x.2 then lane w pass x.2 else x.1)
    (st.writeReg cfg d false, { lanes := d }, [])
  else if bitOn cfg 30 then stageDoneMx cfg st (mxBlock fmt mode now)
  else match held with
    | none => (keep, {}, [])
    | some xs => stageDoneMx cfg { st with hold := none, holdA := [] } (mxBlock fmt mode (xs ++ now))

/-- One stage on one beat (R105 to R113): its new state, what it passes downstream, and the vectors that stage 6 emits. A masked-off lane passes its
previous-stage input, and that is what its lane of V[`DST_REG`] takes too (DESIGN CHOICE, log 98). `FROM_A64` of an operand that is no A64 vector gives
`Config.intLane`: no rule says what it gives (DESIGN CHOICE, log 146). -/
def stageBeat (env : StageEnv) (cfg : Nat) (final : Bool) (st : StageSt) (prev s0 s1 : BeatFlow) : StageOut :=
  let w := laneW cfg
  let n := laneN cfg
  let op := bitsN cfg 0 6
  let fmt := bitsN cfg 24 4
  let mode := bitsN cfg 22 2
  let mask := bitsN cfg 96 32
  let word := BitVec.ofNat 128 cfg
  let (a, ia) := stOperand cfg (bitsN cfg 6 4) prev s0 s1 st
  let (b, ib) := stOperand cfg (bitsN cfg 10 4) prev s0 s1 st
  let (c, ic) := stOperand cfg (bitsN cfg 14 4) prev s0 s1 st
  let old := (List.range n).map (lane w (Tbl.get 0 st.v (bitsN cfg 18 3)))
  let keep := fun (ls : List Nat) => (ls.zipIdx).map fun x => if bitOn mask x.2 then x.1 else lane w prev.lanes x.2
  let draw := fun (i : Nat) => elementDraw env.seed env.skey env.tile (bitsN cfg 32 16) env.step (st.pos + i)
  let st' := { st with pos := (st.pos + n) % 2 ^ 35 }
  let sel := bitsN cfg 6 4
  let src : List Elem := if sel = 0 then prev.a64 else if sel = 1 then s0.a64 else if sel = 2 then s1.a64 else []
  let mxIn := fun (ls : List Nat) (vs : List Val) (ds : Nat → Nat) =>
    (vs.zipIdx).map fun x => ({ on := bitOn mask x.2, val := x.1, draw := ds x.2, prev := ls.getD x.2 0 } : MxIn)
  if op = 0x14 then stageDoneA64 cfg st' (keepA64 cfg prev (lanesToA64 env cfg ia a))
  else if op = 0x00 ∧ ¬ src.isEmpty then stageDoneA64 cfg st' (keepA64 cfg prev src)
  else if op = 0x15 then
    if src.isEmpty then stageDone cfg final st' (keep (a.map fun x => (Config.intLane env.asv word 0 x 0 0 0).toNat % 2 ^ w)) false
    else if isMx fmt then
      let ls := keep a
      stageMx cfg final st' { st' with holdA := src, hold := some (ofLanes w ls) } 0
        (st.hold.map fun h => mxIn ((List.range 16).map (lane w h)) (a64Vals env cfg st.holdA) fun _ => 0)
        (mxIn ls (a64Vals env cfg src) fun _ => 0) ls
    else
      let r := asLanes cfg fmt final ((a64Vals env cfg src).map fun v => encodeElem fmt 0 0 (bitOn cfg 28) v)
      stageDone cfg final st' (keep r.1) r.2
  else if op = 0x10 ∧ isMx fmt then
    let ls := keep a
    stageMx cfg final st' { st' with hold := some (ofLanes w ls) } mode
      (st.hold.map fun h =>
        let hs := (List.range 16).map (lane w h)
        mxIn hs (hs.map (laneVal cfg ia)) fun i => elementDraw env.seed env.skey env.tile (bitsN cfg 32 16) env.step (st.pos + 2 ^ 35 - 16 + i))
      (mxIn ls (ls.map (laneVal cfg ia)) draw) ls
  else if op = 0x10 then
    let codes := (a.zipIdx).map fun x => encodeElem fmt mode (draw x.2) (bitOn cfg 28) (laneVal cfg ia x.1)
    let r := asLanes cfg fmt final codes
    stageDone cfg final st' (keep r.1) r.2
  else if op = 0x11 ∨ op = 0x12 then
    stageDone cfg final st' (if ia then (List.range n).map fun i => (Config.intReduce env.asv word a i).toNat % 2 ^ w else reduceLanes cfg op (draw 0) a) ia
  else
    let ls := (List.range n).map fun i =>
      laneOp env cfg op st.pos i ia ib ic (a.getD i 0) (b.getD i 0) (c.getD i 0) (old.getD i 0)
    stageDone cfg final st' (keep ls) (if op = 0x09 then false else if op = 0x0A then ia || ib else ia || (opArity op != 1 && ib))

/-! ## The pipeline (R572) -/

/-- How many vectors a beat takes from a streamed input (R571): A64 vectors hold eight elements. -/
def Site.vecsPerBeat (x : Site) (c : Nat) : Nat :=
  match x.agBound 1 c with
  | some n => if x.cfg (0x020 + n) 3 4 = 0xD then laneN (x.unit (x.streamStage c)).active.toNat / 8 else 1
  | none => 1

/-- Whether a streamed input carries integers (R105, R571). -/
def Site.streamInt (x : Site) (c : Nat) : Bool :=
  if c = strPV then x.cfg 0 2 4 == 0xB
  else match x.agBound 1 c with
    | some n => x.cfg (0x020 + n) 3 4 == 0xB || x.cfg (0x020 + n) 3 4 == 0xC
    | none => false

/-- Whether a streamed input carries A64 values (R571). -/
def Site.streamA64 (x : Site) (c : Nat) : Bool :=
  match x.agBound 1 c with
  | some n => x.cfg (0x020 + n) 3 4 == 0xD
  | none => false

/-- Take one beat from each streamed input. -/
def State.takeBeats (s : State) (k : Nat) : List Nat → Option (List (Nat × List Elem) × State)
  | [] => some ([], s)
  | c :: cs =>
    match s.takeN k (.stream c) (((s.site k).viewAt ((s.site k).unit 0x010).epoch).vecsPerBeat c) with
    | none => none
    | some (es, s1) => match State.takeBeats s1 k cs with
      | none => none
      | some (r, s2) => some ((c, es) :: r, s2)

/-- The flow that a taken beat makes. A stream of which no beat was taken flows as zeros: so stands the previous-stage input of stage 1 for a masked-off
lane when no operand of it selects that input and the patch does not feed it (DESIGN CHOICE, log 98). -/
def Site.beatFlow (x : Site) (got : List (Nat × List Elem)) (c : Nat) : BeatFlow :=
  match got.find? fun g => g.1 == c with
  | some g =>
    if x.streamA64 c then { lanes := Config.narrow (g.2.map (·.data)), a64 := g.2 } else { lanes := (g.2.headD {}).data, int := x.streamInt c }
  | none => {}

/-- The surroundings of stage `n` of a site. -/
def State.stageEnv (s : State) (k n : Nat) : StageEnv :=
  match s.partOfRegion (keyRegion k) with
  | none => {}
  | some p =>
    let sid := (s.site k).cfg (0x00F + n) 32 16
    match (s.part p).ordo, s.job p with
    | some o, some j =>
      { asv := o.asv, seed := o.seed, skey := Tbl.get 0 o.keys sid, tile := s.tileAt k, step := j.step,
        anchors := (s.site k).anchorCache }
    | _, _ => {}

/-- Pass a beat through the stages from `n` on: the site, and what the last stage emits. `v` is the site as the pipeline's epoch sees it. -/
def State.runStages (s : State) (k : Nat) (v : Site) (got : List (Nat × List Elem)) : Nat → Nat → Site → BeatFlow → Site × List Elem
  | 0, _, x, _ => (x, [])
  | m + 1, n, x, prev =>
    let cfg := (x.unit (0x00F + n)).active.toNat
    let st : StageSt := Tbl.get {} x.stages n
    let (st', out, es) := stageBeat (s.stageEnv k n) cfg (m == 0) st prev (v.beatFlow got strV0) (v.beatFlow got strV1)
    let x := { x with stages := Tbl.set {} n st' x.stages }
    if m = 0 then (x, es) else s.runStages k v got m (n + 1) x out

/-- `VECTOR_BEAT` (R572, R571, R92, R115): with a beat at every streamed input and room at every bound output for what the
beat emits, the pipeline passes one beat through its six stages and emits what stage 6 gives. -/
def execVectorBeat (t site : Nat) (s : State) : Out :=
  let s := s.adv t
  .next <|
    let x := (s.site site).viewAt ((s.site site).unit 0x010).epoch
    let stages := (List.range 6).map (0x010 + ·)
    let ins := x.pipeInputs
    let outs := (s.site site).outputs 0x015
    if x.pipeActive ∧ ¬ ins.isEmpty ∧ (stages.all fun u => (x.unit u).epoch == (x.unit 0x010).epoch && s.siteWorks site u) then
      match s.takeBeats site ins with
      | none => s
      | some (got, s1) =>
        let r := s.runStages site x got 6 1 (s1.site site) (x.beatFlow got x.prevStream)
        if outs.all fun o => x.room 0x015 o r.2.length then s1.modSite site fun _ => r.2.foldl (fun y e => y.emitAll outs e) r.1 else s
    else s

end Sys2Proof.Machine
end

