-- ==== Sys2Proof/Machine/MemUnit.lean ====
section
/-! DEFINITION. The memory unit: slice arbitration with its check bits, and the address generators (05 R169 to R188, R571). -/

namespace Sys2Proof.Machine

/-! ## Arbitration (R172, R175) -/

/-- The next of some pending requesters in round-robin order from `from'` among `n` (R175). -/
def rrNext (pend : List Nat) (from' n : Nat) : Option Nat :=
  ((List.range n).map fun i => (from' + i) % n).find? fun r => pend.contains r

/-- A grant of the slice arbiter (R175): the memory unit after it, and the access, a wide one or a narrow one. -/
def arbitrate (m : MuSt) : MuSt × Option SliceReq :=
  let pick := fun (rs : List SliceReq) (r : Option Nat) => r.bind fun w => rs.find? (·.who == w)
  let wide := pick m.wideReq (rrNext (m.wideReq.map (·.who)) m.rrWide 6)
  let narrow := pick m.narrowReq (rrNext (m.narrowReq.map (·.who)) m.rrNarrow 4)
  let takeN := fun (r : SliceReq) =>
    ({ m with narrowReq := m.narrowReq.filter (·.who != r.who), rrNarrow := (r.who + 1) % 4, narrowWait := 0 }, some r)
  let takeW := fun (r : SliceReq) (n : Nat) =>
    ({ m with wideReq := m.wideReq.filter (·.who != r.who), rrWide := (r.who + 1) % 6, narrowWait := n }, some r)
  match narrow, wide with
  | some r, none => takeN r
  | some r, some w => if 15 ≤ m.narrowWait then takeN r else takeW w (m.narrowWait + 1)
  | none, some w => takeW w 0
  | none, none => (m, none)

/-- Pending accesses with the newly pending ones: those of R173 and R174, of requesters that have none pending. -/
def joinReq (pend new : List SliceReq) : List SliceReq :=
  new.foldl (fun l r => if r.ok && l.all (·.who != r.who) then l ++ [r] else l) pend

/-- `SLICE_ACCESS_GRANT` (R172 to R175): the newly pending accesses join the others and the arbiter grants one, which corrects or reports what it finds in
the check bits of its entries. `hits` are the entries whose stored code has been disturbed since the last grant, each with the raw data that it
now reads as, none for a single wrong bit. -/
def execSliceAccessGrant (t site : Nat) (wreq nreq : List SliceReq) (hits : List (Nat × List Byte)) (s : State) : Out :=
  let s := s.adv t
  .next <|
    let s := s.disturbs site hits
    let m := (s.site site).mu
    let wide (r : SliceReq) : Bool := match r.form with
      | .narrow _ => false
      | _ => true
    let r := arbitrate { m with wideReq := joinReq m.wideReq (wreq.filter wide), narrowReq := joinReq m.narrowReq (nreq.filter fun r => !wide r) }
    let s := s.modSite site fun x => { x with mu := r.1 }
    match r.2 with
    | none => s
    | some q => s.grantEcc site q

/-! ## Address generators (R177 to R188) -/

/-- `COUNT` of level l. -/
def agCount (cfg l : Nat) : Nat := bitsN cfg (160 + 40 * l) 16
/-- `STRIDE` of level l. -/
def agStride (cfg l : Nat) : Int := bitsZ cfg (176 + 40 * l) 24
/-- Scale stride of level l. -/
def agSStride (cfg l : Nat) : Int := bitsZ cfg (416 + 16 * l) 16

/-- The loop indices as a list. -/
def AgList (i : AgIdx) : List Nat := [i.i0, i.i1, i.i2, i.i3, i.i4]

/-- The address of an iteration (R178). -/
def agAddr (cfg : Nat) (i : AgIdx) : Nat :=
  let sum : Int := (((AgList i).zipIdx).map fun x => (x.1 : Int) * agStride cfg x.2).sum
  let a : Int := bitsN cfg 32 20 + sum
  let base := bitsN cfg 64 20
  let size := bitsN cfg 84 20
  if size = 0 then a.toNat else base + ((a - base) % (size : Int)).toNat

/-- The scale address of an iteration (R178). -/
def agScaleAddr (cfg : Nat) (i : AgIdx) : Nat :=
  ((bitsN cfg 384 20 : Int) + (((AgList i).zipIdx).map fun x => (x.1 : Int) * agSStride cfg x.2).sum).toNat

/-- The next iteration, level 0 fastest; none after the last (R178). -/
def agNext (cfg : Nat) (i : AgIdx) : Option AgIdx :=
  if i.i0 + 1 < agCount cfg 0 then some { i with i0 := i.i0 + 1 }
  else if i.i1 + 1 < agCount cfg 1 then some { i with i0 := 0, i1 := i.i1 + 1 }
  else if i.i2 + 1 < agCount cfg 2 then some { i with i0 := 0, i1 := 0, i2 := i.i2 + 1 }
  else if i.i3 + 1 < agCount cfg 3 then some { i with i0 := 0, i1 := 0, i2 := 0, i3 := i.i3 + 1 }
  else if i.i4 + 1 < agCount cfg 4 then some { i0 := 0, i1 := 0, i2 := 0, i3 := 0, i4 := i.i4 + 1 }
  else none

/-- Whether an iteration is padded (R180). -/
def agPadded (cfg : Nat) (i : AgIdx) : Bool :=
  bitOn cfg 107 && decide (bitsN cfg 360 16 ≤ (AgList i).getD (bitsN cfg 104 3) 0)

/-- The byte addresses of a vector in element order (R179): linear, column or broadcast. -/
def agBytesAt (cfg a : Nat) : List Nat :=
  let n := vlenBytes (bitsN cfg 11 2)
  let e := max 1 (fmtBits (bitsN cfg 3 4) / 8)
  (List.range n).map fun b =>
    if bitOn cfg 13 then a + 64 * (b / e) + b % e
    else if bitOn cfg 14 then a + b % e
    else a + b

/-- The half-column of a slice address (R173): its D-block, its unit, and which sixteen rows. -/
def halfColOf (a : Nat) : Nat := a / 2048 * 8 + a % 64 / 16 * 2 + a % 2048 / 1024

/-- The 256 bytes of a half-column, row by row (R173). -/
def halfColData (m : List Host.Cell) (h : Nat) : List Byte :=
  (List.range 16).flatMap fun r => memReadN m (h / 8 * 2048 + h % 2 * 1024 + 64 * r + h % 8 / 2 * 16) 16

/-- The half-columns that a column vector touches (R179). -/
def halfCols (addrs : List Nat) : List Nat := (addrs.map halfColOf).dedup

/-- Widen the elements of a vector to the lanes of the pipeline (R571). -/
def widen (lcfg fmt : Nat) (bs : List Byte) : BitVec 512 :=
  if fmt = 0xD then BitVec.ofNat 512 (ofLe bs)
  else
    let w := laneW lcfg
    ofLanes w ((List.range (laneN lcfg)).map fun i =>
      let c := elemAt (fmtBits fmt) bs i
      if fmt = 0xB ∨ fmt = 0xC then wrapZ w (bitsZ c 0 (fmtBits fmt))
      else encodeElem (laneFmt lcfg) 0 0 false (decodeElem fmt c))

/-- The elements that a read vector becomes on an output (R130, R182, R571): scalar ports carry 32-bit words, and a segment of A64 values
travels with its tag (R116). -/
def readElems (lcfg cfg : Nat) (o : OutRef) (bs : List Byte) (scales : List Byte) (tag : Option A64Tag) : List Elem :=
  match o with
  | .stream c =>
    if c = strV0 ∨ c = strV1 then [{ data := widen lcfg (bitsN cfg 3 4) bs, tag }]
    else [{ data := BitVec.ofNat 512 (ofLe bs), scales }]
  | .inj q _ =>
    if q = 0 then [{ data := BitVec.ofNat 512 (ofLe bs), scales, tag }]
    else (List.range (bs.length / 4)).map fun i => { data := BitVec.ofNat 512 (num bs (4 * i) 4) }

/-- The bytes that a write vector stores (R571): the lanes of stage 6 in its output format, else the elements as they came. -/
def writeBytes (lcfg cfg : Nat) (q : Nat) (es : List Elem) : List Byte :=
  let n := vlenBytes (bitsN cfg 11 2)
  let fmt := bitsN cfg 3 4
  if q = 1 then leBytes n (ofLe (es.flatMap fun e => leBytes 4 e.data.toNat))
  else
    let d := (es.headD {}).data
    if bitsN cfg 7 4 = 1 ∧ ¬ isMx fmt ∧ fmt ≠ 0xD then
      packBytes (fmtBits fmt) n ((List.range (n * 8 / fmtBits fmt)).map fun i => lane (laneW lcfg) d i)
    else if bitsN cfg 7 4 = 1 ∧ isMx fmt then leBytes (min n (32 * fmtBits fmt / 8)) d.toNat
    else leBytes n d.toNat

/-- Write bytes one by one at given addresses, in order. -/
def State.scatter (s : State) (k : Nat) (addrs : List Nat) (bs : List Byte) (column : Bool) : State :=
  if column then (addrs.zip bs).foldl (fun s x => s.sliceWrite k x.1 [x.2]) s
  else match addrs with
    | [] => s
    | a :: _ => s.sliceWrite k a bs

/-- The end of a program (R187, R231): write-back of the dirty persistent granules it wrote, and signal 52 + n. -/
def State.agEnd (s : State) (k n : Nat) : State :=
  let x := s.site k
  let ag : AgSt := Tbl.get {} x.ags n
  let s := s.modSite k fun x => { x with ags := Tbl.set {} n { ag with running := false, done := true } x.ags }
  let s := if x.cfg (0x020 + n) 16 1 = 1 ∧ x.st = .tile then
      s.modSite k fun x =>
        let gs := (List.range 192).filter fun g => bitAt ag.wrote g && bitAt x.mu.dirty g
        { x with mu := { x.mu with wbQueue := (x.mu.wbQueue ++ gs).dedup } }
    else s
  s.raise k (52 + n) 1 (0x020 + n)

/-- Move to the next iteration, or end the program: `cols` are the half-columns that it has read from the slice, in order (R179). -/
def State.agStep (s : State) (k n cfg : Nat) (wrote : List Nat) (cols : List Nat) : State :=
  let x := s.site k
  let ag : AgSt := Tbl.get {} x.ags n
  let ag := { ag with running := true, wrote := maskSet ag.wrote (wrote.filter fun g => bitAt x.mu.persistent g),
                      tbuf := ((cols.reverse.map fun h => (h, halfColData x.mu.slice h)) ++ ag.tbuf).take 8 }
  match agNext cfg ag.idx with
  | some i => s.modSite k fun x => { x with ags := Tbl.set {} n { ag with idx := i } x.ags }
  | none => (s.modSite k fun x => { x with ags := Tbl.set {} n ag x.ags }).agEnd k n

/-- Store a vector and its scale bytes, with the tag of an A64 segment (R116) and the signature of the stream (R300). -/
def State.agStore (s : State) (k n cfg a sa : Nat) (bs scales : List Byte) (tag : Option A64Tag) : State :=
  let addrs := agBytesAt cfg a
  let s := (s.scatter k addrs bs (bitOn cfg 13)).putTag k a tag
  let s := if scales.isEmpty then s else s.sliceWrite k sa scales
  s.modSite k fun x =>
    let x := x.sign (0x0020 + n) (leBytes 4 a ++ bs)
    if scales.isEmpty then x else x.sign (0x0020 + n) (leBytes 4 sa ++ scales)

/-- The bytes that a read of an address generator returns (R179): those of half-columns that its transpose buffer holds come from there. -/
def Site.agBytes (x : Site) (n : Nat) (addrs : List Nat) : List Byte :=
  let ag : AgSt := Tbl.get {} x.ags n
  addrs.map fun a => match if bitOn (x.unit (0x020 + n)).active.toNat 13 then ag.tbuf.find? fun h => h.1 == halfColOf a else none with
    | some h => h.2.getD (16 * (a % 1024 / 64) + a % 16) 0
    | none => memRead x.mu.slice a

/-- The half-columns that a read of a column still takes from the slice (R179): those that the buffer does not hold. -/
def Site.agFetch (x : Site) (n : Nat) (addrs : List Nat) : List Nat :=
  let ag : AgSt := Tbl.get {} x.ags n
  (halfCols addrs).filter fun h => ag.tbuf.all fun b => b.1 != h

/-- The accesses of a read by an address generator (R172, R173, R179), with the scale bytes: the entries of a line that it reads, or the whole of each
half-column that it fetches. -/
def State.agAccess (s : State) (k n sa nsc : Nat) (addrs : List Nat) : State :=
  let x := s.site k
  if bitOn (x.unit (0x020 + n)).active.toNat 13 then
    let hs := x.agFetch n addrs
    s.bankRead k (fun e => (hs.any fun h => halfColOf (16 * e) == h) || inEntry sa nsc e) true
  else s.bankRead k (fun e => (addrs.any fun b => b / 16 == e) || inEntry sa nsc e) true

/-- What the next iteration of a read program puts on an output (R178 to R182): zeros and scales of one where it is padded. -/
def Site.agRead (x : Site) (n : Nat) (o : OutRef) : List Elem :=
  let cfg := (x.unit (0x020 + n)).active.toNat
  let i := (Tbl.get {} x.ags n : AgSt).idx
  let a := agAddr cfg i
  let pad := agPadded cfg i
  let nsc := bitsN cfg 376 6
  let v := x.viewAt (x.unit (0x020 + n)).epoch
  readElems (v.unit (v.streamStage (bitsN cfg 7 4))).active.toNat cfg o
    (if pad then List.replicate (vlenBytes (bitsN cfg 11 2)) 0 else x.agBytes n (agBytesAt cfg a))
    (if pad then List.replicate nsc 0x7F else memReadN x.mu.slice (agScaleAddr cfg i) nsc)
    (if bitsN cfg 3 4 = 0xD ∧ ¬ pad then x.tagAt a else none)

/-- `AG_ITERATION` (R178 to R187, R231): an address generator moves one vector. A read program emits it, a write program takes
one from its producer and stores, discards or (padded) drops it, a fill stores its pattern, a copy reads and stores; what a copy writes leaves its own
transpose buffer, since its vectors are copied in order (R183). A padded vector of a `DISCARD` program is dropped under R180 and adds nothing to the
discard count, which R186 leaves open (DESIGN CHOICE, log 150). A fill or copy program with an MX `FMT` and `SCALE_N` above 0 moves no scale bytes: no rule
gives it any (DESIGN CHOICE, log 151). -/
def execAgIteration (t site n : Nat) (s : State) : Out :=
  let s := s.adv t
  .next <|
    let x := s.site site
    let u := 0x020 + n
    let cfg := (x.unit u).active.toNat
    let lcfg := ((x.unit 0x015).wordAt (x.unit u).epoch).toNat
    let mode := bitsN cfg 0 3
    let fmt := bitsN cfg 3 4
    let ag : AgSt := Tbl.get {} x.ags n
    let a := agAddr cfg ag.idx
    let sa := agScaleAddr cfg ag.idx
    let pad := agPadded cfg ag.idx
    let vlen := vlenBytes (bitsN cfg 11 2)
    let nsc := bitsN cfg 376 6
    if 4 ≤ n ∨ mode = 0 ∨ 4 < mode ∨ ag.done ∨ ¬ s.siteWorks site u ∨ (mode ≠ 2 ∧ ¬ s.mayRun site u) then s
    else if mode = 1 then
      let outs := x.outputs u
      let addrs := agBytesAt cfg a
      if ¬ outs.isEmpty ∧ outs.all fun o => x.room u o (x.agRead n o).length then
        let s := if pad then s else s.agAccess site n sa nsc addrs
        let s := s.modSite site fun y => outs.foldl (fun y o => (x.agRead n o).foldl (fun y e => y.emit o e) y) y
        (s.agStep site n cfg [] (if bitOn cfg 13 && !pad then x.agFetch n addrs else [])).eveOwed site u
      else s
    else if mode = 2 then
      match (x.inputs u).filter (x.ownsIn u) with
      | [] => s
      | r :: _ =>
        let q := r.plane
        match s.takeN site r (if q = 1 then vlen / 4 else 1) with
        | none => s
        | some (es, s1) =>
          if pad then s1.agStep site n cfg [] []
          else if bitOn cfg 15 then
            let tn := bitsN cfg 24 8
            let c := ctrAdd (Tbl.get {} (s1.site site).mu.discards tn) 1
            let s2 := s1.modSite site fun x =>
              { x with mu := { x.mu with discard := true, discards := Tbl.set {} tn c.1 x.mu.discards } }
            (s2.ovfIf c.2 (0x0C000000 + s.tileAt site + 8192 * tn) 0).agStep site n cfg [] []
          else
            let bs := writeBytes lcfg cfg q es
            let sc := ((es.headD {}).scales ++ List.replicate nsc 0).take nsc
            (s1.agStore site n cfg a sa bs sc (if fmt = 0xD then (es.headD {}).tag else none)).agStep site n cfg
              (((agBytesAt cfg a).take bs.length).flatMap (granules · 1) ++ granules sa sc.length).dedup []
    else if pad then s.agStep site n cfg [] []
    else if mode = 3 then
      let bs := (List.range (vlen / 4)).flatMap fun _ => leBytes 4 (bitsN cfg 128 32)
      (s.agStore site n cfg a sa bs [] none).agStep site n cfg ((agBytesAt cfg a).flatMap (granules · 1)).dedup []
    else
      let addrs := agBytesAt cfg a
      let bs := x.agBytes n addrs
      let d := ((a : Int) + bitsZ cfg 128 32).toNat
      let to' := agBytesAt cfg d
      let s := (s.agAccess site n sa 0 addrs).agStore site n cfg d sa bs [] (if fmt = 0xD then x.tagAt a else none)
      (s.agStep site n cfg (to'.flatMap (granules · 1)).dedup (if bitOn cfg 13 then x.agFetch n addrs else [])).modSite site fun y =>
        { y with ags := Tbl.set {} n { (Tbl.get {} y.ags n : AgSt) with
            tbuf := (Tbl.get {} y.ags n : AgSt).tbuf.filter fun h => !(halfCols to').contains h.1 } y.ags }

end Sys2Proof.Machine
end

