-- ==== Sys2Proof/Machine/Repair.lean ====
section
/-! DEFINITION. Faults of sites, planned fences, repairs, full placements and in-service BIST (02 R65 to R76, 10 R306 to R317). -/

namespace Sys2Proof.Machine

/-- `SITE_FAULT_DETECT` (R309, R310): a check trips in a site, or a slice entry reads uncorrectable again after its rewrite: the
record, the close of the step with `FAULT`, and the fence. -/
def execSiteFaultDetect (t site cls check lane syndrome unit : Nat) (s : State) : Out :=
  let s := s.adv t
  .next <|
    if (s.site site).st ∈ [SiteSt.defect, .fenced, .dark] then s
    else
      let s := if cls = 0x0103 then s
        else s.reportSite 0x0101 site unit [(8, check), (8, lane), (16, 0), (32, syndrome)]
      s.fenceNow site (if cls = 0x0103 then 0x0103 else 0x0101) 0

/-- Whether a slot of the partition of a region is open (R284). -/
def State.slotOpen (s : State) (g : Nat) : Bool :=
  match s.partOfRegion g with
  | some p => (s.part p).slots.any fun sl => sl.opened.isSome
  | none => false

/-- The open slot's remaining length in FT units (R284). -/
def State.slotLeft (s : State) (p : Nat) : Nat :=
  match (s.part p).slots.find? fun sl => sl.opened.isSome with
  | some sl => (sl.opened.getD 0 + sl.lenUs * ftUs) - s.now
  | none => 0

/-- Note that an item of a kind has started in the open slot (R284). -/
def State.slotStart (s : State) (p kind : Nat) : State :=
  s.modPart p fun x => { x with slots := x.slots.map fun sl =>
    if sl.opened.isSome then { sl with running := (kind :: sl.running).dedup, started := (kind :: sl.started).dedup } else sl }

/-- Note that an item of a kind has ended; past the slot's length it is an overrun (R284, R286), whether or not the slot has closed by then. -/
def State.slotEnd (s : State) (p kind : Nat) : State :=
  let past : Bool := (s.part p).overItems.contains kind
  let late : Bool := (s.part p).slots.any fun sl =>
    sl.running.contains kind && sl.opened.isSome && decide (sl.opened.getD 0 + sl.lenUs * ftUs < s.now)
  let s := s.modPart p fun x => if past then { x with overItems := x.overItems.erase kind } else { x with slots := x.slots.map fun sl =>
    if sl.opened.isSome then { sl with running := sl.running.filter (· != kind) } else sl }
  if past ∨ late then s.almCount p 7 1 else s

/-- The routers on the way of a packet from one mesh router to another, first along rx, then along ry, both ends included (R354). -/
def meshPath (a b : Nat) : List Nat :=
  let line (x y : Nat) : List Nat := if x ≤ y then (List.range (y - x)).map (x + ·) else (List.range (x - y)).map (x - ·)
  ((line (a % 24) (b % 24)).map fun x => 24 * (a / 24) + x) ++ ((line (a / 24) (b / 24)).map fun y => 24 * y + b % 24) ++ [b]

/-- A slice-to-slice copy between two sites (R78, R173): the crossbar target ports of both have taken wide slots; between clusters the slice goes as
1,536 packets of 512 bytes, which the routers on the way count (R371; DESIGN CHOICE, log 46). -/
def State.copied (s : State) (a b : Nat) : State :=
  let took (x : Site) : Site := { x with mu := { x.mu with rrWide := 5 } }
  let s := (s.modSite a took).modSite b took
  if routerOf a = routerOf b then s else (meshPath (routerOf a) (routerOf b)).foldl (fun (s : State) r => s.rtrAdd r 0 1536) s

/-- Move the tile of a site to the nearest `SPARE` site of its region with all that the site holds (R70, R306, R309): false when no
`SPARE` site remains. -/
def State.vacate (s : State) (k : Nat) (st : SiteSt) : State × Bool :=
  let x := s.site k
  let g := keyRegion k
  if x.st = .tile then
    match nearest (keyIdx k) (s.sitesIn g .spare) with
    | some q => ((((s.eccRange k 0 786432 false).moveTo g x.tile q true st).copied k (siteKey g q)).rerouteRegion g, true)
    | none => (s, false)
  else (((s.modSite k fun y => { y with st, tile := 0 }).newGen g).unVigil g (keyIdx k), true)

/-- A planned fence (R309): the slot first moves the site's tile, then fences the site. -/
def State.plannedFence (s : State) (k : Nat) : State :=
  let x := s.site k
  if x.st ∈ [SiteSt.defect, .fenced, .dark, .test, .filling] then s
  else
    let p := s.partField k
    let s := (s.slotStart p 0).mapFlush p
    let (s, ok) := if x.st = .tile then s.vacate k .spare else (s, true)
    (if ok then s.fenceSite k x.plannedClass 1 else s).slotEnd p 0

/-! ## In-service BIST of a slot (R284, R306, R308) -/

/-- Take the next sites of a region from the rotation pointer: at most `n` more, over at most `fuel` sites (R306). -/
def State.bistTake (g : Nat) : Nat → Nat → State → State
  | 0, _, s => s
  | _, 0, s => s
  | fuel + 1, n + 1, s =>
    let p := (s.region g).bistPtr % 144
    let k := siteKey g p
    let x := s.site k
    let next := fun (s : State) => s.modRegion g fun r => { r with bistPtr := (p + 1) % 144 }
    if x.st ∈ [SiteSt.defect, .fenced, .dark, .filling, .test] then State.bistTake g fuel (n + 1) (next s)
    else match s.vacate k .test with
      | (s, true) => State.bistTake g fuel n (next s)
      | (s, false) => s

/-- Whether a planned fence of a site can be done (R309): a tile needs a `SPARE` site of its region to move to. -/
def State.fenceable (s : State) (k : Nat) : Bool :=
  let x := s.site k
  x.planned && x.st ∉ [SiteSt.defect, .fenced, .dark, .test, .filling] && (x.st != .tile || !(s.sitesIn (keyRegion k) .spare).isEmpty)

/-- Whether planned fences or full placements that can be done still come before the BIST of an open slot (R284). -/
def State.fencesFirst (s : State) (p : Nat) : Bool :=
  decide (20 * ftMs ≤ s.slotLeft p) &&
    ((s.sitesOf p).any s.fenceable || (s.regionsOf p).any fun g => decide (2 ≤ (s.region g).fences) && !(s.region g).exhausted)

/-- Whether BIST is still to start in the open slot of a partition (R284). -/
def State.bistDue (s : State) (p : Nat) : Bool :=
  bitAt (s.part p).work 0 && decide (300 * ftUs ≤ s.slotLeft p) &&
    (s.part p).slots.any fun sl => sl.opened.isSome && !sl.started.contains 3

/-- Start the BIST of an open slot: the partition is flushed, since its map changes (R166, R167), and the next sites of every region go under
test (R306). -/
def State.bistStart (s : State) (p : Nat) : State :=
  let s := (s.regionsOf p).foldl (fun s g => State.bistTake g 144 4 s) ((s.slotStart p 3).mapFlush p)
  if s.testing p then s else s.slotEnd p 3

/-! ## Placement swaps and routing changes of a slot (R284) -/

/-- Two tiles of a region exchange their sites with all that they hold, in one update of the region's tables (R69, R70). -/
def State.swapTiles (s : State) (g a b : Nat) : State :=
  let pa := (Tbl.get {} (s.region g).tiles a : TileEnt).site
  let pb := (Tbl.get {} (s.region g).tiles b : TileEnt).site
  let s0 := s
  let s := (s.eccRange (siteKey g pa) 0 786432 false).eccRange (siteKey g pb) 0 786432 false
  let xa := s.site (siteKey g pa)
  let xb := s.site (siteKey g pb)
  if a < 128 ∧ b < 128 ∧ pa ≠ pb ∧ xa.st = .tile ∧ xb.st = .tile then
    let s := (s.modSite (siteKey g pa) (moveTile xb)).modSite (siteKey g pb) (moveTile xa)
    let s := (s.copied (siteKey g pa) (siteKey g pb)).copied (siteKey g pb) (siteKey g pa)
    (((s.newGen g).placeAt g a pb false).placeAt g b pa false).rerouteRegion g
  else s0

/-- The placement swaps of an open slot (R284): which tiles of a region the Steward exchanges no rule says (`Config.placementSwap`, log 104). -/
def State.placeSwaps (s : State) (p : Nat) : State :=
  let s := (s.slotStart p 2).mapFlush p
  ((s.regionsOf p).foldl (fun (s : State) g =>
    let (a, b) := Config.placementSwap g s.free
    { (s.swapTiles g a b) with free := s.free + 1 }) s).slotEnd p 2

/-- Whether placement swaps are still to start in the open slot of a partition; the spec gives them no bound, and the model takes that of the
other changes of a map (DESIGN CHOICE, log 104). -/
def State.swapDue (s : State) (p : Nat) : Bool :=
  bitAt (s.part p).work 1 && decide (20 * ftMs ≤ s.slotLeft p) && !s.testing p &&
    (s.part p).slots.any fun sl => sl.opened.isSome && !sl.started.contains 2

/-- Whether a `ROUTE_SWAP` of a class waits for a slot (R359). -/
def State.routeWaits (s : State) (c : Nat) : Bool := match (s.rcfg c).swap with
  | some (_, none) => true
  | _ => false

/-- Whether the open slot of a partition admits a routing change of 150 µs, all other work having started (R284, R359). -/
def State.routeSlot (s : State) (p : Nat) : Bool :=
  (s.part p).exist && bitAt (s.part p).work 2 && ((s.part p).slots.any fun sl => sl.opened.isSome) && decide (150 * ftUs ≤ s.slotLeft p) &&
    !s.fencesFirst p && !s.swapDue p && !s.bistDue p

/-- Start a pending `ROUTE_SWAP` that an open slot admits: the class's injections are held (R359 step 2). -/
def State.swapTry (s : State) : State :=
  match (List.range 16).find? s.routeSlot, (List.range 4).find? s.routeWaits with
  | some p, some c => (s.modRcfg c fun x => { x with hold := true, swap := x.swap.map fun w => (w.1, some s.now) }).slotStart p 4
  | _, _ => s

/-- Start the work of an open slot that comes after its planned fences and full placements, in the order of R284: placement swaps, BIST, then a
routing change. -/
def State.slotWork (s : State) (p : Nat) : State :=
  if s.fencesFirst p then s
  else
    let s := if s.swapDue p then s.placeSwaps p else s
    (if s.bistDue p then s.bistStart p else s).swapTry

/-- `PLANNED_FENCE` (R309, R284): in an open intercalary slot with room for it, a site that awaits a planned fence is vacated and
fenced. -/
def execPlannedFence (t site : Nat) (s : State) : Out :=
  let s := s.adv t
  .next <|
    let p := s.partField site
    if s.fenceable site ∧ s.slotOpen (keyRegion site) ∧ 20 * ftMs ≤ s.slotLeft p then (s.plannedFence site).slotWork p else s

/-- Place a region in full and move what its tiles hold with them (R70, R76); a tile that its fill has not reached is filled at its new
site. -/
def State.placeMove (s : State) (g : Nat) : State :=
  let s0 := ((sitesOfRegion g).filter fun k => (s.site k).st == .tile).foldl (fun (s : State) k => s.eccRange k 0 786432 false) s
  match s0.fullPlace g with
  | (_, false) => s.unplaceable g
  | (s, true) =>
    if (s0.job (s.partField (siteKey g 0))).isNone then s
    else (List.range 128).foldl (fun s k =>
      let a := (Tbl.get {} (s0.region g).tiles k : TileEnt).site
      let b := (Tbl.get {} (s.region g).tiles k : TileEnt).site
      if a = b ∨ (s0.site (siteKey g a)).st ≠ .tile then s
      else (s.modSite (siteKey g b) (moveTile (s0.site (siteKey g a)))).copied (siteKey g a) (siteKey g b)) s

/-- `FULL_PLACEMENT` (R76, R284, R313): the active repair of a region, or work of an open slot after two fences, re-places every tile
of the region; it waits while a site is under test, and in a slot for its planned fences. -/
def execFullPlacement (t g : Nat) (s : State) : Out :=
  let s := s.adv t
  .next <|
    let p := s.partField (siteKey g 0)
    let repair : Bool := match (s.region g).repairs with
      | .full :: _ => true
      | _ => false
    let slot : Bool := s.slotOpen g && decide (2 ≤ (s.region g).fences ∧ 20 * ftMs ≤ s.slotLeft p) &&
      !(s.sitesOf p).any s.fenceable
    if ¬ (s.sitesIn g .test).isEmpty ∨ ¬ (repair ∨ slot) then s
    else
      let s := (if slot then s.slotStart p 1 else s).mapFlush p
      let s := (s.placeMove g).modRegion g fun r => { r with repairs := r.repairs.filter fun x => x != .full }
      if slot then (s.slotEnd p 1).slotWork p else s

/-! ## Repairs (R312 to R316) -/

/-- What a fill of a tile reads of the tally (R312): tally page index, logical page, DRAM address and length of each piece; its persistent slice
granules, then its channel slot state. -/
def State.fillReads (s : State) (p tile : Nat) : List (Nat × Nat × Nat × Nat) :=
  match (s.part p).ordo, s.job p with
  | some o, some j =>
    let piece (page gran off n : Nat) : Nat × Nat × Nat × Nat :=
      let side := j.liveSide page gran
      (page, j.sidePage page side, s.granAddr j page gran side + off, n)
    let ch := (pagesOf j.classes 5)[512 * tile / pageBytes]?
    ((o.sliceMaps.filter fun m => m.tile == tile).map fun m => piece m.page m.pgran 0 4096) ++
      (ch.toList.map fun c => piece c (512 * tile % pageBytes / 4096) (512 * tile % 4096) 512)
  | _, _ => []

/-- The first uncorrectable codeword that a fill of a tile would read: tally page index, logical page and side address (R316). -/
def State.fillBad (s : State) (p tile : Nat) : Option (Nat × Nat × Nat) :=
  (s.fillReads p tile).findSome? fun x => ((s.badIn x.2.2.1 x.2.2.2)[0]?).map fun c => (x.1, x.2.1, 64 * c)

/-- The first page on a channel out of service that a fill of a tile would read (R378). -/
def State.fillDown (s : State) (p tile : Nat) : Option Nat :=
  ((s.fillReads p tile).find? fun x => !s.pageUp x.2.1).map (·.2.1)

/-- The fill at the head of a region's queue stops, and the member starts no replay (R316). -/
def State.haltFill (s : State) (g p : Nat) : State :=
  (s.modJob p fun j => { j with fillStopped := true }).modRegion g fun r =>
    { r with repairs := match r.repairs with
        | .fill k q n _ :: rest => .fill k q n true :: rest
        | l => l }

/-- A fill that reads uncorrectable tally data stops (R316): the `DDR_UE` record with the tally page index, and all that an uncorrectable codeword
brings (R378, R395). -/
def State.stopFill (s : State) (g p page logical a : Nat) : State := (s.ddrUe a 0 logical p page).haltFill g p

/-- What the tally pages make of a fill of a tile: it stops at uncorrectable data (R316), and where a channel out of service refuses its read
(R378; DEDUCED, log 133); none where it goes on. -/
def State.fillStops (s : State) (g p tile : Nat) : Option State :=
  match s.fillDown p tile, s.fillBad p tile with
  | some l, _ => some ((s.downRefuse l false).haltFill g p)
  | none, some b => some (s.stopFill g p b.1 b.2.1 b.2.2)
  | none, none => none

/-- Give the fill at the head of a region's queue a spare when it waits for one (R311). -/
def State.chooseSpare (s : State) (g : Nat) : State :=
  match (s.region g).repairs with
  | .fill k q n f :: rest =>
    if q = 144 then
      let old := (s.region g).fillOrigin k
      match s.pickSpare g old with
      | some p =>
        let s := (((s.mapFlush (s.partField (siteKey g 0))).newGen g |>.placeAt g k p true).moveWindows (siteKey g old) (siteKey g p)).modRegion g fun r =>
          { r with repairs := .fill k p n f :: rest }
        s.rerouteRegion g
      | none => s
    else s
  | _ => s

/-- `REPAIR_START` (R311, R313, R316): the fill at the head of a region's queue takes its spare and reads its tally data; an
uncorrectable read stops it. -/
def execRepairStart (t g : Nat) (s : State) : Out :=
  let s := s.adv t
  .next <|
    let s := s.chooseSpare g
    match (s.region g).repairs with
    | .fill k q _ false :: _ =>
      if q = 144 then s
      else (s.fillStops g (s.partField (siteKey g 0)) (tileOf g k)).getD s
    | _ => s

/-- The contents that a fill writes into a site (R312): persistent granules from the live sides, sequencer memories, channel state
from sealed state; the rest of the slice is zero. -/
def State.fillSite (s : State) (p k tile : Nat) : State :=
  match (s.part p).ordo, s.job p with
  | some o, some j =>
    let m := (o.sliceMaps.filter fun x => x.tile == tile).foldl (fun m x =>
      memBlit m (4096 * x.sgran) 4096 (s.granSealed j x.page x.pgran)) (loadHandlers o tile [])
    let r : HandlerRec := (o.handlers.find? fun h => h.tile == tile).getD {}
    s.modSite k fun x =>
      { x with mu := { x.mu with slice := m, errs := [], tags := [], persistent := persistMask o tile, dirty := 0 }, chans := sealedChans j.chanSealed tile,
               seq := { x.seq with compat := r.compat },
               units := resetUnits (s.part p).epoch, phaseAt := none, stopped := [],
               ej := if (s.part p).epoch = 0 then [] else (List.range 24).map fun i => (i, { epoch := (s.part p).epoch }),
               inj := if (s.part p).epoch = 0 then [] else (List.range 12).map fun i => (i, { epoch := (s.part p).epoch }) }
  | _, _ => s.modSite k fun x => { x with mu := { x.mu with slice := [], errs := [], tags := [], dirty := 0 } }

/-- Whether a clean attempt of a partition awaits its outcome, which says what state a fill is to write (R53, R312). -/
def State.sealOpen (s : State) (p : Nat) : Bool := match s.job p with
  | some j => j.sealOpen
  | none => false

/-- `SPARE_FILL_COMPLETE` (R312, R313, R316): the fill at the head of a region's queue has written its site: the tile is on it, with
the held first phase to be loaded, and the next repair is active. The change of the Placement Map flushes the partition, whose held
first phase is loaded again under a new epoch (R166, R167); it waits for the outcome of a clean attempt. -/
def execSpareFillComplete (t g : Nat) (s : State) : Out :=
  let s := s.adv t
  .next <|
    match (s.region g).repairs with
    | .fill k q _ false :: rest =>
      let p := s.partField (siteKey g 0)
      if q = 144 ∨ s.sealOpen p ∨ s.tagsOpen p then s
      else match s.fillStops g p (tileOf g k) with
        | some s' => s'
        | none =>
          let s := s.mapFlush p
          let s := (s.fillSite p (siteKey g q) (tileOf g k)).endFill g k q
          (s.modRegion g fun r => { r with repairs := rest }).loadShadow (siteKey g q)
    | _ => s

/-! ## In-service BIST (R306, R307) -/

/-- The end of the tests of a site (R307): a pass clears `UNTESTED` and makes the site a good one again; a failure fences it with
one record, which names the failing entry by the slice address that R170 gives it. The last element of the memory test has written zero. -/
def State.bistResult (s : State) (k : Nat) (sig : BitVec 64) (memPass : Bool) (bank entry elem : Nat) : State :=
  if sig ≠ Tbl.get 0 s.fuses.golden k then
    (s.reportSite 0x0304 k 0xFFFF [(64, sig.toNat)]).fenceSite k 0x0304 0
  else if ¬ memPass then
    (s.reportSite 0x0305 k 0xFFFF [(32, sliceAddr bank entry), (8, bank), (8, elem)]).fenceSite k 0x0305 0
  else (s.modSite k fun x =>
    { x with st := .spare, untested := false, lastBist := s.now,
             mu := { x.mu with slice := [], errs := [], tags := [], dirty := 0, persistent := 0 } }).newGen (keyRegion k)

end Sys2Proof.Machine
end

