-- ==== Sys2Proof/Machine/Wire.lean ====
section
/-! DEFINITION. Packets, flits and time frames as bytes, and what a port sends (09 R269; 11 R343, R346 to R349, R351). -/

namespace Sys2Proof.Machine

/-! ## Packets (R351, R352) -/

/-- The code of a unit kind (R351). -/
def unitCode : UnitKind → Nat
  | .tile => 0
  | .dma => 1
  | .ddr => 2
  | .hub => 3
  | .combiner => 4
  | .tree => 5

/-- The unit kind of a code (R351). -/
def unitOf (n : Nat) : UnitKind :=
  if n = 0 then .tile else if n = 1 then .dma else if n = 2 then .ddr else if n = 3 then .hub else if n = 4 then .combiner else .tree

/-- The code of a packet kind (R352). -/
def pkindCode : PKind → Nat
  | .write => 1
  | .readReq => 2
  | .readData => 3
  | .completion => 4
  | .deposit => 5
  | .credit => 6
  | .contrib => 7
  | .signal => 8
  | .barrier => 9
  | .vote => 10
  | .outcome => 11
  | .heraldQuery => 12
  | .twinTime => 13
  | .steward => 14
  | .reserved => 0

/-- The 32 bytes of a packet's header, with `LEN` given (R351). -/
def headerBytes (p : Packet) (len : Nat) : List Byte :=
  leBytes 2 p.destDev ++ leBytes 2 (p.destIdx + 8192 * unitCode p.destKind) ++ leBytes 2 p.srcDev ++
    leBytes 2 (p.srcIdx + 8192 * unitCode p.srcKind) ++ leBytes 1 (pkindCode p.kind) ++
    leBytes 1 (p.cls + 4 * b1 p.epoch + 8 * b1 p.ce + 16 * b1 p.ece + 32 * b1 p.leg + 64 * b1 p.minimal + 128 * b1 p.combine) ++
    leBytes 1 p.hops ++ leBytes 1 p.srcPart ++ leBytes 2 len ++ leBytes 2 p.tag ++ leBytes 2 p.interDev ++ leBytes 2 p.interRtr ++
    leBytes 4 p.arg.toNat ++ leBytes 8 p.addr

/-- Bytes filled with zero to a length. -/
def padTo (n : Nat) (bs : List Byte) : List Byte := bs ++ List.replicate (n - bs.length) 0

/-- Units of 16 bytes of a packet: header and payload (R346, R351). -/
def pktUnits (p : Packet) : Nat := 2 + (p.payload.length + 15) / 16

/-- The bytes of a packet, in whole units; `LEN` counts the payload's own bytes (R351, log 102). -/
def packetBytes (p : Packet) : List Byte := padTo (16 * pktUnits p) (headerBytes p p.payload.length ++ p.payload)

/-! ## Flits (R343, R347 to R349) -/

/-- The 32 bytes of a time frame (R269). -/
def frameBytes (f : TimeFrame) : List Byte :=
  leBytes 8 f.txFt ++ leBytes 8 f.echoTx ++ leBytes 8 f.echoRx ++ leBytes 2 f.srcDev ++ leBytes 1 f.hops ++ leBytes 1 f.state ++
    leBytes 2 f.seq.toNat ++ leBytes 2 0

/-- The code of a control operation (R347). -/
def ctlCode : CtlOp → Nat
  | .init _ _ _ _ _ _ _ => 1
  | .keyNext _ => 2
  | .retrain => 3
  | .swapPlan _ => 4
  | .downNotice => 5
  | .minWidth _ => 6

/-- The bytes of a control flit's body: the operation in byte 0 and its arguments packed after it in the order in which R336 and R347 name them; the
credit pools of an `INIT` as 32 reserved and 4 shared ones (DESIGN CHOICE, log 109). -/
def ctlBytes (op : CtlOp) : List Byte :=
  leBytes 1 (ctlCode op) ++ match op with
    | .init dev port res shared slot keySel _ =>
      leBytes 2 dev ++ leBytes 1 port ++ res.flatMap (leBytes 1) ++ shared.flatMap (leBytes 2) ++ leBytes 8 slot ++ leBytes 1 (b1 keySel)
    | .keyNext slot => leBytes 8 slot
    | .retrain => []
    | .swapPlan lane => leBytes 1 lane
    | .downNotice => []
    | .minWidth w => leBytes 1 w

/-- `FKIND` of a flit (R343). -/
def fkind : FlitBody → Nat
  | .idle => 0
  | .data _ => 1
  | .nak => 2
  | .time _ => 3
  | .control _ => 4

/-- Whether a flit is protected by a tag (R349). -/
def tagged : FlitBody → Bool
  | .data _ => true
  | .time _ => true
  | .control _ => true
  | _ => false

/-- What a flit's body carries before its fill of zeros (R343, R347, R348). -/
def bodyBytes : FlitBody → List Byte
  | .data ps => ps.flatMap packetBytes
  | .time f => frameBytes f
  | .control op => ctlBytes op
  | _ => []

/-- A credit return field (R343); a count of zero returns none. -/
def creditBytes (c : Option (Nat × Nat × Bool × Nat)) : List Byte :=
  leBytes 2 (match c with
    | some (cls, vc, shared, n) => cls + 4 * vc + 32 * b1 shared + 64 * n
    | none => 0)

/-- Bytes 0x000 to 0x00B of a flit (R343): every packet of a flit starts in it. -/
def flitHead (f : Flit) : List Byte :=
  let units := match f.body with
    | .data ps => (ps.map pktUnits).sum
    | _ => 0
  leBytes 2 f.lseq.toNat ++ leBytes 2 f.ack.toNat ++ leBytes 1 (fkind f.body + 16 * b1 f.enc + 32 * b1 f.keySel) ++ leBytes 1 0 ++
    creditBytes f.credits[0]? ++ creditBytes f.credits[1]? ++ leBytes 1 (if units = 0 then 0xFF else 0) ++ leBytes 1 units

/-- One bit of the CRC-32C (R343); bit order, preset and final complement are those of the standard CRC (PRESUMED, log 109). -/
def crc32Bit (c : BitVec 32) : BitVec 32 := if c.toNat % 2 = 1 then (c >>> 1) ^^^ 0x82F63B78#32 else c >>> 1
/-- The CRC-32C of bytes, polynomial 0x1EDC_6F41 in reflected form. -/
def crc32c (bs : List Byte) : BitVec 32 :=
  ~~~ bs.foldl (fun c b => (List.range 8).foldl (fun c _ => crc32Bit c) (c ^^^ b.setWidth 32)) (BitVec.allOnes 32)

/-- The link key of a direction's slot: 0 transmit, 1 receive (R349, R535). -/
def State.linkKey (s : State) (i dir : Nat) (sel : Bool) : Key := Tbl.get {} s.sec.keys (1024 + 4 * i + 2 * dir + b1 sel)

/-- The transmit slot that comes next at an FT (R342, R349): a flit takes 680/7w units of FT at width w, idle flits fill the slots between. -/
def Port.slotNow (x : Port) (now : Nat) : Nat := max x.slotTx (x.slotZero + (now - x.slotFt) * (7 * x.lanes.length) / 680)

/-- The GCM nonce of a slot of a direction (R349): the key's salt, then the slot counter. -/
def nonceOf (k : Key) (slot : Nat) : BitVec 96 := BitVec.ofNat 96 (k.salt.toNat + 2 ^ 32 * slot)

/-- The 640 bytes of a flit that a port sends in its slot (R343, R349): under `ENC` a data or control flit is sealed over its head, and a time flit
carries a tag in clear. -/
def State.flitBytes (s : State) (i : Nat) (f : Flit) : List Byte :=
  let head := flitHead f
  let k := s.linkKey i 0 f.keySel
  let iv := nonceOf k ((s.port i).slotNow s.now)
  let plain := padTo (if f.enc then 608 else 624) (bodyBytes f.body)
  let body := if ¬ f.enc then plain
    else match f.body with
      | .time _ => plain ++ Config.gcmSeal k.key iv (head ++ plain) []
      | _ => Config.gcmSeal k.key iv head plain
  let frame := head ++ body
  frame ++ leBytes 4 (crc32c frame).toNat

/-! ## Codewords and lanes (R342) -/

/-- The 514 message symbols of a flit: 20 blocks of a header bit, 1 for a block of data alone, and 32 bytes, least significant bit first
(PRESUMED, log 159). -/
def msgSymbols (bytes : List Byte) : List (BitVec 10) :=
  let n := (List.range 20).foldl (fun n b => n + (1 + 2 * num bytes (32 * b) 32) * 2 ^ (257 * b)) 0
  (List.range 514).map fun i => BitVec.ofNat 10 (n / 2 ^ (10 * i))

/-- The codeword of a flit: its message symbols and their parity. -/
def codeword (bytes : List Byte) : List (BitVec 10) :=
  let m := msgSymbols bytes
  m ++ List.ofFn (Config.rsParity m)

/-- What each physical lane of a map carries of a codeword: symbol i on logical lane i mod w (R334, R342). -/
def stripe (lanes : List Nat) (word : List (BitVec 10)) : List (Nat × List (BitVec 10)) :=
  lanes.zipIdx.map fun l => (l.1, (word.zipIdx.filter fun x => x.2 % lanes.length == l.2).map (·.1))

/-- Send a flit in a port's next slot (R342, R343, R345, R346): `ACK` names the last data flit received in order, and the two oldest due credits go
home. -/
def State.sendWire (s : State) (i : Nat) (lseq : BitVec 16) (b : FlitBody) (shared : List Bool) : State :=
  let x := s.port i
  let f : Flit := { lseq, ack := x.rxSeq - 1, body := b, enc := x.enc && tagged b, keySel := x.keySelTx, credits := x.credDue.take 2, shared }
  let bytes := s.flitBytes i f
  (s.modPort i fun x => { x with slotTx := x.slotNow s.now + 1, credDue := x.credDue.drop 2 }).emit (.flit i f bytes (stripe x.lanes (codeword bytes)))

/-- Send a flit that is no data flit: its `LSEQ` is zero (R343). -/
def State.sendFlit (s : State) (i : Nat) (b : FlitBody) : State := s.sendWire i 0 b []

/-- The present width of a port comes into force: its flit time counts the slots from here (R342, R349). -/
def State.slotMark (s : State) (i : Nat) : State :=
  s.modPort i fun x => { x with slotZero := x.slotNow s.now, slotFt := s.now }

/-! ## Received flits (R343, R344, R349) -/

/-- The fields of a received flit's head (R343). -/
structure FlitHead where
  lseq : BitVec 16 := 0
  ack : BitVec 16 := 0
  kind : Nat := 0
  enc : Bool := false
  keySel : Bool := false
  credits : List (Nat × Nat × Bool × Nat) := []
  first : Nat := 0
  used : Nat := 0
  deriving DecidableEq, Repr

/-- A credit return field (R343). -/
def creditOf (w : Nat) : Nat × Nat × Bool × Nat := (bitsN w 0 2, bitsN w 2 3, bitOn w 5, bitsN w 6 10)

/-- The head of a flit's bytes (R343). -/
def flitHeadOf (b : List Byte) : FlitHead :=
  { lseq := BitVec.ofNat 16 (num b 0 2), ack := BitVec.ofNat 16 (num b 2 2), kind := num b 4 1 % 16, enc := bitOn (num b 4 1) 4,
    keySel := bitOn (num b 4 1) 5, credits := [creditOf (num b 6 2), creditOf (num b 8 2)].filter (fun c => 0 < c.2.2.2), first := num b 10 1,
    used := num b 11 1 }

/-- Whether the `CRC` of a flit's bytes matches (R343, R344). -/
def crcOk (b : List Byte) : Bool := b.length == 640 && num b 636 4 == (crc32c (b.take 636)).toNat

/-- The body of a received flit in plain, or none where its tag does not verify under the receive key of its slot (R344, R349). Idle and NAK flits carry no
tag. -/
def State.flitBody (s : State) (i slot : Nat) (h : FlitHead) (b : List Byte) : Option (List Byte) :=
  let k := s.linkKey i 1 h.keySel
  let body := slice b 12 624
  if ¬ h.enc ∨ h.kind = 0 ∨ h.kind = 2 then some body
  else if h.kind = 3 then
    if slice (Config.gcmSeal k.key (nonceOf k slot) (b.take 620) []) 0 16 = slice b 620 16 then some (body.take 608) else none
  else Config.gcmOpen k.key (nonceOf k slot) (b.take 12) body

/-- The packet kind of a code (R352). -/
def pkindOf (n : Nat) : PKind :=
  match n with
  | 1 => .write
  | 2 => .readReq
  | 3 => .readData
  | 4 => .completion
  | 5 => .deposit
  | 6 => .credit
  | 7 => .contrib
  | 8 => .signal
  | 9 => .barrier
  | 10 => .vote
  | 11 => .outcome
  | 12 => .heraldQuery
  | 13 => .twinTime
  | 14 => .steward
  | _ => .reserved

/-- The packet that whole units of bytes hold (R351). -/
def packetOf (b : List Byte) : Packet :=
  let f := num b 9 1
  { destDev := num b 0 2, destKind := unitOf (num b 2 2 / 8192), destIdx := num b 2 2 % 8192, srcDev := num b 4 2,
    srcKind := unitOf (num b 6 2 / 8192), srcIdx := num b 6 2 % 8192, kind := pkindOf (num b 8 1), cls := f % 4, epoch := bitOn f 2, ce := bitOn f 3,
    ece := bitOn f 4, leg := bitOn f 5, minimal := bitOn f 6, combine := bitOn f 7, hops := num b 10 1 % 16, srcPart := num b 11 1 % 16,
    tag := num b 14 2, interDev := num b 16 2, interRtr := num b 18 2, arg := BitVec.ofNat 32 (num b 20 4), addr := num b 24 8,
    payload := slice b 32 (num b 12 2) }

/-- The whole packets at the front of a stream of units, and the bytes of the one that goes on in the next data flit (R343). -/
def unitStream : Nat → List Byte → List Packet × List Byte
  | 0, b => ([], b)
  | fuel + 1, b =>
    let n := 16 * (2 + (num b 12 2 + 15) / 16)
    if b.length < 32 ∨ b.length < n then ([], b)
    else
      let (ps, rest) := unitStream fuel (b.drop n)
      (packetOf (b.take n) :: ps, rest)

/-- What a data flit adds to a port's stream of units (R343): where no packet goes on, from the first one that starts in it. -/
def streamOf (part : List Byte) (h : FlitHead) (body : List Byte) : List Byte :=
  let units := body.take (16 * h.used)
  if part = [] then (if h.first = 0xFF then [] else units.drop (16 * h.first)) else part ++ units

end Sys2Proof.Machine
end

