-- ==== Sys2Proof/Machine/Net.lean ====
section
/-! DEFINITION. What the packet network and its users share: versions of the routing tables, transaction tags, completions, the
refusals of a destination, error transfers, and the loss of a port (05 R191, 06 R230, 07 R234, R235, 11 R335 to R372, R577). -/

namespace Sys2Proof.Machine

/-! ## Routing tables (R355, R358) -/

/-- The port die of a Lantern port (00 R10): PN 0, PS 1. -/
def portDie (i : Nat) : Nat := if i < 12 then 0 else 1
/-- The port die that serves a tile (R365). -/
def tileDie (t : Nat) : Nat := if tileBlock t / 8 < 4 then 0 else 1

/-- The `UP` ports of a device's entry in a version (R355). -/
def State.upPorts (s : State) (ver : Bool) (dev : Nat) : List Nat :=
  let e : RouteEnt := Tbl.get {} s.routing.table (65536 * b1 ver + dev)
  (e.ports.take e.nports).filter fun i => (s.port i).st == .up

/-- The port that a packet of a class leaves by (R355): the first `UP` one, or a free choice among them. -/
def State.pickPort (s : State) (cls : Nat) (ver : Bool) (dev : Nat) : Option Nat × State :=
  match s.upPorts ver dev with
  | [] => (none, s)
  | i :: rest =>
    if (s.rcfg cls).randomLantern then
      let (x, s) := s.draw 16
      (some ((i :: rest).getD (x.toNat % (rest.length + 1)) i), s)
    else (some i, s)

/-- The port die through which a class leaves for a device, 0 with no port `UP`. -/
def State.exitDie (s : State) (cls dev : Nat) : Nat :=
  match s.upPorts (s.rcfg cls).ver dev with
  | i :: _ => portDie i
  | [] => 0

/-- Packets that a port is to send or has sent and not yet seen acknowledged: in its egress queues and its retry buffer (R358). -/
def Port.sends (x : Port) : List Packet := (x.egress.flatMap fun q => q.2) ++ x.retry.flatMap (·.pkts)

/-- Packets that a port holds: those, and those of its receive buffer (R358). -/
def Port.holds (x : Port) : List Packet := x.sends ++ x.rxHeld.map (·.pkt)

/-- Packets that the device holds of a version: in its mesh, its ports and its combining units (R358). One that waits in a receive buffer or in the mesh
counts for the version that routes it. -/
def State.heldPkts (s : State) (ver : Bool) : Nat :=
  s.routing.mesh.countP (fun h => h.ver == ver) +
    (s.ports.map fun e => (e.2.sends.countP fun p => p.epoch == ver) + e.2.rxHeld.countP fun r => r.ver == ver).sum +
    (s.routers.map fun e => e.2.cus.countP fun c => match c.2 with
      | some g => g.sentTag.isNone && g.pkt.epoch == ver
      | none => false).sum

/-- Whether a version is free (R358). -/
def State.verFree (s : State) (ver : Bool) : Bool :=
  (List.range 4).all (fun c => (s.rcfg c).ver != ver) && s.heldPkts ver == 0

/-- Raise `ROUTE_EPOCH_RETIRED` for the awaited versions that have become free (R360). -/
def State.retire (s : State) : State :=
  let done := s.routing.retiring.filter fun v => s.verFree (v == 1)
  let s := { s with routing := { s.routing with retiring := s.routing.retiring.filter fun v => !done.contains v } }
  done.foldl (fun s v => s.event 0x0602 0xFF [(8, v)]) s

/-! ## Transaction tags (R367) -/

/-- The transaction that holds a tag. -/
def State.txn (s : State) (die tag : Nat) : Option Txn := Tbl.get none s.dma.tags (4096 * die + tag)
/-- Set the transaction of a tag. -/
def State.setTxn (s : State) (die tag : Nat) (x : Option Txn) : State :=
  { s with dma := { s.dma with tags := Tbl.set none (4096 * die + tag) x s.dma.tags } }

/-- The lowest free tag of a port die's pool. -/
def State.freeTag (s : State) (die : Nat) : Option Nat := (List.range 4096).find? fun n => (s.txn die n).isNone

/-- Send a request under a fresh tag of a pool: none when no tag is free (R367). -/
def State.request (s : State) (die : Nat) (x : Txn) : Option State :=
  match s.freeTag die with
  | none => none
  | some n =>
    let p := { x.pkt with tag := n, srcDev := s.hub.devId, epoch := (s.rcfg x.pkt.cls).ver }
    some ((s.setTxn die n (some { x with pkt := p, since := s.now })).inject p)

/-- Send several requests under tags of one pool, all or none. -/
def State.requests (s : State) (die : Nat) (xs : List Txn) : Option State :=
  xs.foldl (fun o x => match o with
    | some s => s.request die x
    | none => none) (some s)

/-! ## Completions (R352, R353) -/

/-- Whether packets of a kind receive a completion (R352). -/
def hasCompletion : PKind → Bool
  | .write => true
  | .readReq => true
  | .deposit => true
  | .contrib => true
  | .signal => true
  | .steward => true
  | _ => false

/-- The code of a completion status (R353). -/
def pstatusCode : PStatus → Nat
  | .ok => 0
  | .windowRefused => 1
  | .tileMoving => 2
  | .partitionDown => 3
  | .pageRefused => 4
  | .noRoute => 5
  | .hopLimit => 6
  | .timeout => 7
  | .badDescriptor => 8
  | .noKey => 9

/-- A packet is discarded where the spec has it counted and names no counter for it (R352, R355, R577; log 155). -/
def State.discard (s : State) : State :=
  { s with routing := { s.routing with dropped := (ctrAdd s.routing.dropped 1).1 } }

/-- Send the completion of a request to its source (R352, R353); `CE` comes back as `ECE` (R361). -/
def State.reply (s : State) (p : Packet) (st : PStatus) (ue : Bool := false) : State :=
  if hasCompletion p.kind then
    s.inject
      { destDev := p.srcDev, destKind := p.srcKind, destIdx := p.srcIdx, srcDev := s.hub.devId, srcKind := p.destKind,
        srcIdx := p.destIdx, kind := .completion, cls := 1, ece := p.ce, srcPart := p.srcPart, tag := p.tag,
        arg := BitVec.ofNat 32 (pstatusCode st + 256 * b1 ue) }
  else s

/-- Send read data back to the source of a request (R352); `ue` is bit 0 of `ARG` (R393). -/
def State.replyData (s : State) (p : Packet) (bs : List Byte) (ue : Bool := false) : State :=
  s.inject
    { destDev := p.srcDev, destKind := p.srcKind, destIdx := p.srcIdx, srcDev := s.hub.devId, srcKind := p.destKind,
      srcIdx := p.destIdx, kind := .readData, cls := 3, ece := p.ce, srcPart := p.srcPart, tag := p.tag,
      arg := BitVec.ofNat 32 (b1 ue), addr := p.addr, payload := bs }

/-- A packet addressed into a cluster whose `DOWN` bit is set is refused or dropped, and counted (R368). -/
def State.refuseDown (s : State) (r : Nat) (p : Packet) : State :=
  if hasCompletion p.kind then (s.rtrCount r 3).reply p .partitionDown else s.rtrCount r 4

/-- The site that a packet for a tile reaches, when its router and the tile's place let it in (R80, R191, R230, R368). -/
def State.arrive (s : State) (p : Packet) (f : Nat → State → State) : State :=
  let k := s.siteOfTile p.destIdx
  let r := routerOf k
  if (s.router r).down then s.refuseDown r p
  else if (s.tileEnt p.destIdx).moving ∨ (s.site k).st ≠ .tile then s.reply p .tileMoving
  else f k s

/-! ## Error transfers (R235) -/

/-- The sites of a router's cluster, ascending (R80). -/
def rtrSites (r : Nat) : List Nat :=
  (List.range 16).map fun i => siteKey (routerRegion r) (16 * (3 * (r / 24 % 3) + r % 24 % 3) + i)

/-- The leaf sites of a multicast tree on this device in a version, as the entries of its routers name them (R364). -/
def State.treeSites (s : State) (ver : Bool) (tree : Nat) : List Nat :=
  s.routing.trees.flatMap fun e =>
    let r := e.1 / 256 % 1024
    if e.1 % 256 = tree ∧ e.1 / 262144 = b1 ver ∧ r < 576 then (rtrSites r).filter fun k => bitAt e.2.sites (k % 16) else []

/-- Whether the tile that a request asked for is between sites because its site was fenced (R235), or a leaf's of a multicast. A tile of another device counts as one,
for nothing tells the device why it moves (DESIGN CHOICE, log 94). -/
def State.fencedTile (s : State) (p : Packet) : Bool :=
  let tile := p.destIdx
  if p.destKind = .tree then p.destDev != s.hub.devId || (s.treeSites p.epoch p.destIdx).any fun k => (s.site k).st == .fenced
  else p.destDev != s.hub.devId || (s.site (s.siteOfTile tile)).st == .fenced || (s.region (tileBlock tile)).repairs.any fun r => match r with
    | .fill k _ _ _ => k == tileLocal tile
    | .full => false

/-- A transfer or request of a site completes with an error (R235): the record, and the close with `FAULT` for a fenced site or the
fault of the job. -/
def State.dmaError (s : State) (p k : Nat) (st : PStatus) (fenced : Bool) : State :=
  let s := s.reportSite 0x0609 k 0xFFFF [(8, pstatusCode st)]
  if st = .tileMoving ∧ fenced then s.forceClose p else s.faultAsIdes p 0x0609 6 k

/-! ## The mesh (R354, R357) -/

/-- A router or a port die hands a packet on: it waits in a queue of the mesh until it is routed at the next router or port die. -/
def State.sendHop (s : State) (h : Hop) : State :=
  ({ s with routing := { s.routing with mesh := s.routing.mesh ++ [h] } } : State).emit (.hop h.pkt h.out)

/-! ## Ports (R335, R338, R346, R350, R577) -/

/-- The unit of a Lantern record (R323): lane 15 stands for the whole port. -/
def lanternUnit (port lane : Nat) : Nat := port + 32 * lane

/-- Whether the credits of a port cover a packet, and how (R346): none, reserved (false) or shared (true). -/
def Port.creditFor (x : Port) (p : Packet) : Option Bool :=
  let n := pktUnits p
  if Tbl.get 0 x.usedRes (8 * p.cls + p.hops) + n ≤ 64 then some false
  else if Tbl.get 0 x.usedShared p.cls + n ≤ 7680 then some true
  else none

/-- Whether a port may send data: UP, no swap in progress, room in the retry buffer (R340, R345). -/
def Port.canSend (x : Port) : Bool := x.st == .up && x.swap.isNone && decide (x.retry.length < 1024)

/-- Deficit round robin of MSG (2) and DMA (3) (R350): the class that sends next, and the deficits after. `n2` and `n3` are the units of the packets at
the front, 0 for a class that has none to send. The class whose turn it is sends while its deficit covers the packet; then the turn passes, and a
class takes 34 units, the longest packet, times its weight with its turn (DESIGN CHOICE, log 158). -/
def drrPick (w2 w3 : Nat) (d : Tbl Nat) (n2 n3 : Nat) : Nat × Tbl Nat :=
  let turn := if Tbl.get 0 d 0 = 2 then 2 else 3
  let n (c : Nat) := if c = 2 then n2 else n3
  let w (c : Nat) := if c = 2 then w2 else w3
  if n turn ≠ 0 ∧ n turn ≤ Tbl.get 0 d turn then (turn, Tbl.set 0 turn (Tbl.get 0 d turn - n turn) d)
  else
    let c := if n (5 - turn) = 0 then turn else 5 - turn
    (c, Tbl.set 0 0 c (Tbl.set 0 c (Tbl.get 0 d c + 34 * w c - n c) d))

/-- The class that a port sends next (R350), and its deficits after: COMMIT, CTRL, then MSG and DMA by deficit. A class that becomes empty keeps no
deficit. -/
def State.nextClass (s : State) (i : Nat) : Option (Nat × Tbl Nat) :=
  let x := s.port i
  let front := fun (c : Nat) => match Tbl.get [] x.egress c with
    | p :: _ => if (x.creditFor p).isSome then pktUnits p else 0
    | [] => 0
  if front 0 ≠ 0 then some (0, x.deficit)
  else if front 1 ≠ 0 then some (1, x.deficit)
  else if front 2 = 0 ∧ front 3 = 0 then none
  else
    let (c, d) := drrPick (s.rcfg 2).weight (s.rcfg 3).weight x.deficit (front 2) (front 3)
    some (c, if (Tbl.get [] x.egress c).length ≤ 1 then Tbl.set 0 c 0 d else d)

/-- Whether an egress queue of MSG or DMA, out of 8,192 units, holds more units than its threshold (R361). -/
def State.congested (s : State) (i c : Nat) : Bool :=
  decide (2 ≤ c) && decide (8192 * (s.rcfg c).markPct < 100 * ((Tbl.get [] (s.port i).egress c).map pktUnits).sum)

/-- Send one packet of a port in a data flit (R343, R345, R346, R361); none when nothing can leave. Each packet starts a flit of its own and ends in it,
as R343 allows (DESIGN CHOICE, log 160). -/
def State.pumpOne (s : State) (i : Nat) : Option State :=
  let x := s.port i
  if ¬ x.canSend then none
  else match s.nextClass i with
  | none => none
  | some (c, d) =>
    match Tbl.get [] x.egress c with
    | [] => none
    | p :: rest =>
      let p := { p with ce := p.ce || s.congested i c }
      let sh := (x.creditFor p).getD true
      let n := pktUnits p
      let (f, o) := ctrAdd x.ctr.flitsTx 1
      let key := 8 * c + p.hops
      some (((s.modPort i fun x =>
        { x with
          egress := Tbl.set [] c rest x.egress
          retry := x.retry ++ [{ seq := x.txSeq, pkts := [p], shared := [sh], ft := s.now }], txSeq := x.txSeq + 1, ctr := { x.ctr with flitsTx := f }
          usedRes := if sh then x.usedRes else Tbl.set 0 key (Tbl.get 0 x.usedRes key + n) x.usedRes
          usedShared := if sh then Tbl.set 0 c (Tbl.get 0 x.usedShared c + n) x.usedShared else x.usedShared
          deficit := d }).sendWire i x.txSeq (.data [p]) [sh]).ovfIf o (0x18000000 + i) 0)

/-- Send what a port can send. -/
def State.pumpN (i : Nat) : Nat → State → State
  | 0, s => s
  | n + 1, s => match s.pumpOne i with
    | some s => State.pumpN i n s
    | none => s

/-- Send what a port can send. -/
def State.pump (s : State) (i : Nat) : State := State.pumpN i ((s.port i).egress.map fun q => q.2.length).sum s

/-- Queue a packet at a port. The tag of a `WRITE` or `READ_REQ` of an own DMA complex notes the port it leaves by (R577). -/
def State.enqueue (s : State) (i : Nat) (p : Packet) : State :=
  let mine : Bool := p.srcDev == s.hub.devId && p.srcKind == .dma && (p.kind == .write || p.kind == .readReq)
  let s := match (if mine then s.txn p.srcIdx p.tag else none) with
    | some y => s.setTxn p.srcIdx p.tag (some { y with port := some i })
    | none => s
  (s.modPort i fun x => { x with egress := Tbl.set [] p.cls (Tbl.get [] x.egress p.cls ++ [p]) x.egress }).pump i

/-- A port die completes a packet for which no port is UP with `NO_ROUTE`, or discards and counts it (R355, R577). -/
def State.noRoute (s : State) (p : Packet) : State := if hasCompletion p.kind then s.reply p .noRoute else s.discard

/-- A port die sends a packet out of the device under a version (R354, R355, R357): by the port chosen for it while that is one of its entry's UP ports,
else by a fresh choice. A port of the other die is reached across the mesh, in column 0 (DESIGN CHOICE, log 112). -/
def State.exitVia (s : State) (d : Nat) (ver : Bool) (port : Option Nat) (p : Packet) : State :=
  let r := 552 * d
  if 8 ≤ p.hops then (s.rtrCount r 6).reply p .hopLimit
  else
    let dev := if p.leg then p.destDev else p.interDev
    let (i, s) := match port.filter (s.upPorts ver dev).contains with
      | some i => (some i, s)
      | none => s.pickPort p.cls ver dev
    match i with
    | none => s.noRoute p
    | some i => if portDie i = d then s.enqueue i p else s.sendHop { src := 576 + d, out := .router r, pkt := p, ver, port := some i }

/-! ## Writes of a mirror (R409, R577) -/

/-- The binding ports of a partition's twin that are UP (R409). -/
def State.twinPorts (s : State) (p : Nat) : List Nat :=
  [(s.part p).twin.portA, (s.part p).twin.portB].filter fun i => decide (i < 24) && (s.port i).st == .up

/-- Send waiting writes of a partition's mirror while tags are free (R367): DMA class, `MINIMAL`, on the binding ports alone, striped over both when two
are UP (R409). The mirror writes directly,
and the transfers of the Steward and of the Calends are whole acts: none holds a descriptor (log 156). -/
def State.mirrorPump (p : Nat) : Nat → State → State
  | 0, s => s
  | fuel + 1, s =>
    let x := (s.part p).twin
    match x.todo, s.twinPorts p with
    | q :: rest, i :: more =>
      let i := (i :: more).getD (x.todo.length % (more.length + 1)) i
      match (if (s.rcfg 3).hold then none else s.freeTag (portDie i)) with
      | none => s
      | some n =>
        let q := { q with tag := n, srcDev := s.hub.devId, srcKind := .dma, srcIdx := portDie i, epoch := (s.rcfg 3).ver, leg := true }
        let y : Txn := { part := p, pkt := q, since := s.now, off := x.mirrors }
        State.mirrorPump p fuel (((s.modTwin p fun x => { x with todo := rest }).setTxn (portDie i) n (some y)).enqueue i q)
    | _, _ => s

/-- Let the mirrors of every partition go on. -/
def State.mirrorGo (s : State) : State := (List.range 16).foldl (fun s p => State.mirrorPump p 8193 s) s

/-- Whether every write of a partition's mirror has been acknowledged (R409). -/
def State.mirrorAcked (s : State) (p : Nat) : Bool :=
  let x := (s.part p).twin
  x.todo.isEmpty && !x.failed && s.dma.tags.all fun t => match t.2 with
    | some y => !(y.isMirror && y.part == p && y.off == x.mirrors)
    | none => true

/-- A write of a mirror completes: an error ends the mirror, which the deadline then decides; a `TIMEOUT` is recorded (R367). No job is faulted for it
(R411; DEDUCED, log 113). -/
def State.mirrorWritten (s : State) (x : Txn) (st : PStatus) : State :=
  if st = .ok then s
  else
    let s := if st = .timeout then s.report 0x0609 9 x.part x.part [(8, pstatusCode st)] else s
    s.modTwin x.part fun w => if w.mirrors = x.off then { w with failed := true } else w

/-- A write of a mirror goes by the other binding port, where that is UP (R577). -/
def State.mirrorAgain (s : State) (key : Nat) (y : Txn) : State :=
  match s.twinPorts y.part with
  | i :: _ => s.enqueue i y.pkt
  | [] => s.setTxn (key / 4096) (key % 4096) (some { y with port := none })

/-- What becomes of the packets of a port that is UP no more (R577): queued ones are routed again by their entry (a copy of a multicast has no other
port), under the version that their `EPOCH` names, which they themselves keep from being free (R358). This device's own `WRITE` and `READ_REQ` whose
tags are held, queued or sent, go once more by another port, a mirror write by the other binding port. -/
def State.portLoss (s : State) (i : Nat) : State :=
  let x := s.port i
  let queued := x.egress.flatMap fun q => q.2
  let s := s.modPort i fun x => { x with egress := [], retry := [], deficit := [] }
  let own := s.dma.tags.filter fun t => match t.2 with
    | some y => y.port == some i && (y.pkt.kind == .write || y.pkt.kind == .readReq)
    | none => false
  let mine := fun (p : Packet) (t : Nat × Option Txn) =>
    p.srcDev == s.hub.devId && p.srcKind == .dma && 4096 * p.srcIdx + p.tag == t.1 && (p.kind == .write || p.kind == .readReq)
  let s := queued.foldl (fun s p =>
    if p.destKind = .tree then s.noRoute p
    else if own.any (mine p) then s else s.exitVia (portDie i) p.epoch none p) s
  (own.foldl (fun s t => match t.2 with
    | none => s
    | some y =>
      if y.isMirror then s.mirrorAgain t.1 y
      else (s.setTxn (t.1 / 4096) (t.1 % 4096) (some { y with port := none })).exitVia (portDie i) y.pkt.epoch none { y.pkt with leg := true }) s).retire

/-- A port goes DOWN with a cause (R335, R338, R577): the record, the event, and the loss of what it carried. A `PORT_RETRAIN` or
`PORT_CONFIG` that waits for it completes. -/
def State.portDown (s : State) (i cause : Nat) : State :=
  let x := s.port i
  if x.st ∈ [PortSt.off, .down] then s
  else
    let s := s.modPort i fun x =>
      { x with st := .down, downCause := cause, swap := none, swapInit := false, swapAck := none, swapNext := [], ctlPend := [], waiter := [], rxPart := [] }
    let s := s.report 0x0504 3 0xFF (lanternUnit i 15) [(8, cause), (8, x.lanes.length), (8, x.minWidth), (16, x.partnerDev)]
    let s := (s.event 0x0601 0xFF [(8, i), (8, cause)]).portLoss i
    x.waiter.foldl (fun (s : State) mb => s.finish mb stOk) s

/-- A port begins to train (R336): its link state starts anew, and what it has not sent through is lost or routed again (R577). What its receive buffer
holds stays, and is taken off the credits of the new link (R346). -/
def State.trainStart (s : State) (i : Nat) : State :=
  let up : Bool := (s.port i).st == .up
  let s := s.modPort i fun x =>
    { x with st := .training, trainStep := 1, locked := 0, failed := 0, lsOk := false, lanes := [], sub := 0xF, swap := none, swapInit := false,
             swapAck := none, swapNext := [], txSeq := 0, rxSeq := 0, resends := 0, nakSent := false, rxPart := [], usedRes := [], usedShared := [],
             credDue := [], ctlPend := [], downCause := 0, slotTx := x.slotNow s.now, slotZero := x.slotNow s.now, slotFt := s.now }
  if up then s.portLoss i else s

/-! ## Completion of a tag (R234, R235, R353, R367) -/

/-- The worse of two statuses of a transfer: the first error stands. -/
def worse (a b : PStatus) : PStatus := if a = .ok then b else a

/-- Note the status of a request of a transfer, and what it says of a fenced site (R235). -/
def Xfer.note (y : Xfer) (s : State) (p : Packet) (st : PStatus) : Xfer :=
  { y with status := worse y.status st, fenced := if y.status = .ok then s.fencedTile p else y.fenced }

/-- A transfer ends (R234, R235): its completion signal goes out, or its error is recorded. -/
def State.xferEnd (s : State) (die n : Nat) (x : Xfer) : State :=
  let s := { s with dma := { s.dma with xfers := Tbl.set none n none s.dma.xfers } }
  if x.status ≠ .ok then
    s.dmaError x.part (s.siteOfTile x.tile) x.status x.fenced
  else if x.desc.sigValid then
    let p : Packet :=
      { destDev := s.hub.devId, destKind := .tile, destIdx := x.desc.sigTile, srcKind := .dma, srcIdx := die, kind := .signal,
        cls := 1, srcPart := x.part, arg := BitVec.ofNat 32 x.desc.sigNum, payload := leBytes 16 1 }
    (s.request die { part := x.part, site := s.siteOfTile x.tile, pkt := p }).getD s
  else s

/-- Free a tag with the final status of its request. One that a flush has abandoned serves nothing any more: its own status is recorded where it
is `TIMEOUT` (R367), and the flush that waits for it goes on (R166). -/
def State.finishTag (s : State) (die tag : Nat) (st : PStatus) : State :=
  match s.txn die tag with
  | none => s
  | some x =>
    let s := s.setTxn die tag none
    if x.dead then
      let s := if st = .timeout then s.dmaError x.part x.site st false else s
      s.flushEnd x.part
    else match x.xfer with
    | some n =>
      match Tbl.get none s.dma.xfers n with
      | none => s
      | some (y : Xfer) =>
        let y := { y.note s x.pkt st with left := y.left - 1 }
        if y.left = 0 ∧ ((y.todo = 0 ∧ y.buf.isEmpty) ∨ y.status ≠ .ok) then s.xferEnd die n y
        else { s with dma := { s.dma with xfers := Tbl.set none n (some y) s.dma.xfers } }
    | none =>
      if x.isMirror then s.mirrorWritten x st
      else
      let s := if x.pkt.kind = .deposit ∨ x.pkt.kind = .contrib then
          s.modSite x.site fun a =>
            let a := { a with seq := { a.seq with unacked := a.seq.unacked - 1 } }
            { a with chans := Tbl.set {} x.slot (
                let c : ChanSt := Tbl.get {} a.chans x.slot
                if x.pkt.kind = .deposit then { c with txUnacked := c.txUnacked - 1 } else { c with txContrib := c.txContrib - 1 }) a.chans }
        else s
      if st = .ok then s else s.dmaError x.part x.site st (s.fencedTile x.pkt)

end Sys2Proof.Machine
end

