-- ==== Sys2Proof/Machine/Alarms.lean ====
section
/-! DEFINITION. The alarm block: policies, the actions of its levels, and what clears secrets (17 R529, R539 to R543). -/

namespace Sys2Proof.Machine

/-- Default policy of an alarm class (R539). -/
def alarmDefault (c : Nat) : Alarm :=
  { policy := if c = 0 ∨ c = 1 ∨ c = 4 then 1 else if c = 3 then 2 else 0 }

/-- An alarm class. -/
def State.alarmOf (s : State) (c : Nat) : Alarm := Tbl.get (alarmDefault c) s.sec.alarms c

/-- Change an alarm class. -/
def State.modAlarm (s : State) (c : Nat) (f : Alarm → Alarm) : State :=
  { s with sec := { s.sec with alarms := Tbl.set (alarmDefault c) c (f (s.alarmOf c)) s.sec.alarms } }

/-- The hub block of an alarm class (R529). -/
def alarmBlock (c : Nat) : Nat :=
  match c with
  | 0 => 0x04
  | 1 => 0x05
  | 2 => 0x08
  | 3 => 0x06
  | 4 => 0x02
  | _ => 0x07

/-- The error class of an alarm class (R539). -/
def alarmRecord (c : Nat) : Nat := if c = 4 then 0x0803 else if c = 5 then 0x0804 else 0x0801

/-- Stop the clocks of every region, arrays held (R479, R540). -/
def State.stopClocks (s : State) : State :=
  (List.range 64).foldl (fun s g => s.modRegion g fun r => { r with clocksOff := true }) s

/-- Fault every bound job without a Harvest (R479, R540). -/
def State.faultAll (s : State) (cls : Nat) : State := (List.range 16).foldl (fun s p => s.faultJob p cls) s

/-- Set `HALTED` (R437, R462, R562). -/
def State.setHalted (s : State) (v : Bool) : State :=
  let s := s.hubStatus fun h => { h with halted := v }
  { s with pins := { s.pins with haltN := !v } }

/-- Level 1 (R540): clocks stopped, every job faulted, every `DOWN` bit set, `HALTED`. -/
def State.halt (s : State) (cls : Nat) : State :=
  let s := (s.stopClocks).faultAll cls
  ((List.range 576).foldl (fun s r => s.modRouter r fun x => { x with down := true }) s).setHalted true

/-- Clear every session, management session and debug unlock (R534, R540, R547). -/
def State.endSessions (s : State) : State :=
  let s := (List.range 24).foldl (fun s i => s.modMb i fun m =>
    { m with session := none, challenge := none, role := if 16 ≤ i then 0 else m.role }) s
  { s with sec := { s.sec with debug := 0, challenge := none, tap := 0 } }

/-- Level 2 without the halt (R540, R543): keys of kinds 1 to 3 and sessions cleared, encrypted ports DOWN, `KEYS_ERASED`. -/
def State.eraseSession (s : State) (level : Nat) : State :=
  let s := { s with sec := { s.sec with keys := s.sec.keys.filter fun e => decide (4096 ≤ e.1) } }.endSessions
  let s := (List.range 24).foldl (fun s i => if (s.port i).enc then s.portDown i 3 else s) s
  s.event 0x0C02 0xFF [(8, level)]

/-- Level 3 (R540): the identity is destroyed for the life of the device. -/
def State.eraseAll (s : State) : State :=
  let s := { s with fuses := { s.fuses with idDestroyed := true } }
  s.event 0x0C04 0xFF []

/-- An alarm class alarms (R539, R540, R542): its record and event, then the actions of its policy's level. `det` is the detector
index and `val` the measured value. -/
def State.alarm (s : State) (c det val : Nat) : State :=
  let a := s.alarmOf c
  let s := s.modAlarm c fun a => { a with raised := true }
  let s := s.report (alarmRecord c) 8 0xFF (alarmBlock c) [(8, c), (8, a.policy), (8, b1 a.locked), (8, det), (16, val)]
  let s := s.event 0x0C01 0xFF [(8, c), (8, a.policy), (8, alarmBlock c)]
  let s := if 1 ≤ a.policy then s.halt (alarmRecord c) else s
  let s := if 2 ≤ a.policy then s.eraseSession a.policy else s
  if 3 ≤ a.policy then s.eraseAll else s

/-- `ALARM_RAISE` (R539, R540): the source of a class alarms, at a detector and with a measured value. Temperature, mesh and fuses go on asserting
until a later sensor read, sample or recheck finds otherwise. -/
def execAlarmRaise (t : Nat) (src : AlarmSrc) (s : State) : Out :=
  let s := s.adv t
  .next <| if src.cls ≤ 5 then (s.modAlarm src.cls fun a => { a with asserts := decide (2 ≤ src.cls ∧ src.cls ≤ 4) }).alarm src.cls src.det src.val else s

/-- `TAMPER_SAMPLE` (R539): every 10 µs the mesh is sampled; an open or short mesh alarms as it begins to assert. -/
def execTamperSample (t : Nat) (ok : Bool) (s : State) : Out :=
  let s := s.adv t
  .next <|
    let was := (s.alarmOf 3).asserts
    let s := s.modAlarm 3 fun a => { a with asserts := !ok }
    if ok ∨ was then s else s.alarm 3 0 0

/-- `FUSE_RECHECK` (R539): every second the fuse shadow registers are checked again; a failure alarms as it begins to assert. -/
def execFuseRecheck (t : Nat) (ok : Bool) (s : State) : Out :=
  let s := s.adv t
  .next <|
    let was := (s.alarmOf 4).asserts
    let s := s.modAlarm 4 fun a => { a with asserts := !ok }
    if ok ∨ was then s else s.alarm 4 0 0

end Sys2Proof.Machine
end

