-- ==== Sys2Proof/Machine/Power.lean ====
section
/-! DEFINITION. Power delivery: caps and steps, lending, regulator cells, heat, droop, bumps, and staged power-up (15). -/

namespace Sys2Proof.Machine

/-! ## Budget (R475) -/

/-- The mean of a list. -/
def meanOf (l : List Nat) : Nat := l.sum / max 1 l.length

/-- A sample of the input power joins the averages, and the cell currents of every region are noted (R475). -/
def State.powerNote (s : State) (mw : Nat) (cells : List Nat) : State :=
  let xs := (mw :: s.power.samples).take 100000
  let s := { s with power := { s.power with samples := xs, avg1s := meanOf xs, avg10ms := meanOf ((mw :: s.power.samples).take 1000) } }
  (List.range 64).foldl (fun s g =>
    let c := (cells.drop (8 * g)).take 8
    s.modRegion g fun r => { r with cellCur := (c.zipIdx).foldl (fun t x => Tbl.set 0 x.2 x.1 t) [], logicCur := (c.take 6).sum }) s

/-- The fast action of R475: every budget cap is at least step 2. -/
def State.fastCap (s : State) : State :=
  (List.range 64).foldl (fun s g => (s.modRegion g fun r => { r with capBudget := max 2 r.capBudget }).applyStep g) s

/-- `POWER_SAMPLE` (R475): every 10 µs the input power joins the two averages; as the 10 ms average reaches 3,000 W every budget cap
is at least step 2. `cells` are the cell currents in mA, eight to a region. -/
def execPowerSample (t mw : Nat) (cells : List Nat) (s : State) : Out :=
  let s := s.adv t
  .next <|
    let a10 := meanOf ((mw :: s.power.samples).take 1000)
    let was := s.power.avg10ms
    let s := s.powerNote mw cells
    if was < 3000000 ∧ 3000000 ≤ a10 then s.fastCap.event 0x0B07 0xFF [(16, a10 / 1000)] else s

/-- The region with the largest value among some, the lowest at equal value (R475). -/
def pickMax (gs : List Nat) (f : Nat → Nat) : Option Nat :=
  gs.foldl (fun b g => match b with
    | none => some g
    | some h => if f h < f g then some g else some h) none

/-- `BUDGET_CAP_RAISE` (R475 item 1): once every 1 ms while the 1 s average exceeds 98 % of `BUDGET`. -/
def execBudgetCapRaise (t : Nat) (s : State) : Out :=
  let s := s.adv t
  .next <|
    let gs := (List.range 64).filter fun g => decide ((s.region g).capBudget < 6) && (s.region g).logic == .on
    if s.power.budget * 980 < s.power.avg1s ∧ s.power.lastRaise + ftMs ≤ s.now then
      match pickMax gs fun g => (s.region g).logicCur with
      | some g =>
        let s := { s with power := { s.power with lastRaise := s.now } }
        (s.modRegion g fun r => { r with capBudget := r.capBudget + 1 }).applyStep g
      | none => s
    else s

/-- `BUDGET_CAP_LOWER` (R475 item 2, R476): once every 10 ms while the 1 s average, less the lent headroom, is below 95 %. -/
def execBudgetCapLower (t : Nat) (s : State) : Out :=
  let s := s.adv t
  .next <|
    let own := decide (s.power.avg1s < s.power.budget * 950)
    let lent := decide (s.power.avg1s < s.power.budget * 950 + s.power.lent)
    let gs := (List.range 64).filter fun g => decide (0 < (s.region g).capBudget) && (own || !(s.region g).lent)
    if (own ∨ lent) ∧ s.power.lastLower + 10 * ftMs ≤ s.now then
      match pickMax gs fun g => (s.region g).capBudget with
      | some g =>
        let s := { s with power := { s.power with lastLower := s.now, lentCaps := if own then s.power.lentCaps else g :: s.power.lentCaps } }
        (s.modRegion g fun r => { r with capBudget := r.capBudget - 1 }).applyStep g
      | none => s
    else s

/-- `PMBUS_POLL` (R469, R563): every 1 ms the telemetry of each listed module; a fault changes no action, and an address that does
not answer is noted. -/
def execPmbusPoll (t : Nat) (telem : List (Nat × PmbusTel)) (s : State) : Out :=
  let s := s.adv t
  .next (telem.foldl (fun s x =>
    let old : PmbusRec := Tbl.get {} s.power.pmbus x.1
    let new : PmbusRec := if x.2.answered then
        { vout := x.2.vout, iout := x.2.iout, temp := x.2.temp, status := x.2.status, absent := false }
      else { old with absent := true }
    if x.1 < s.hub.config.pmbus.length then { s with power := { s.power with pmbus := Tbl.set {} x.1 new s.power.pmbus } } else s) s)

/-! ## Heat (R477 to R479) -/

/-- Whether a sensor reads at or above a temperature in °C. -/
def State.hot (s : State) (n c : Nat) : Bool := match s.sensor n with
  | some x => decide ((8 * c : Int) ≤ x)
  | none => false

/-- Whether a hub sensor reads below −40 °C (R539). -/
def State.hubCold (s : State) : Bool := (List.range 16).any fun i => match s.sensor (240 + i) with
  | some x => decide (x < -320)
  | none => false

/-- `THERMAL_SENSOR_READ` (R477 to R479, R539): a sensor reads; the times at which it became hot and its region cool are kept, a hot
port die halves its DMA complex, and a hub sensor below −40 °C alarms. -/
def execThermalSensorRead (t sensor : Nat) (reading : Int) (s : State) : Out :=
  let s := s.adv t
  .next <|
    let s0 := s
    let g := sensor / 3
    if sensor < 192 ∧ sensor % 3 < 2 ∧ (s.region g).logic ≠ .on ∨ 256 ≤ sensor then s
    else
      let s := if sensor < 192 then s.modRegion g fun r => { r with sensors := Tbl.set none (sensor % 3) (some reading) r.sensors }
        else { s with power := { s.power with sensors := Tbl.set none sensor (some reading) s.power.sensors } }
      let h : Option Nat := Tbl.get none s0.power.hotSince sensor
      let h' := if 840 ≤ reading then (if h.isSome then h else some s.now) else none
      let s := { s with power := { s.power with hotSince := Tbl.set none sensor h' s.power.hotSince } }
      let s := s.modAlarm 2 fun a => { a with asserts := s.hubCold || s.hub.tripped && (List.range 256).any (s.hot · 95) }
      if sensor < 192 then
        let cool := (List.range 3).all fun i => match s.sensor (3 * g + i) with
          | some x => decide (x < 8 * s.power.throttle - 24)
          | none => true
        s.modRegion g fun r => { r with coolSince := if cool then (if r.coolSince.isSome then r.coolSince else some s.now) else none }
      else if sensor < 240 then
        let d := (sensor - 192) / 24
        let hot := (List.range 24).any fun i => s.hot (192 + 24 * d + i) s.power.throttle
        { s with dma := { s.dma with halved := if hot then (d :: s.dma.halved).dedup else s.dma.halved.filter (· != d) } }
      else if s.hubCold && !s0.hubCold then s.alarm 2 sensor (wrapZ 16 reading)
      else s

/-- `THERMAL_CAP_RAISE` (R478): a region with a sensor at `THROTTLE_C` raises its thermal cap one step, at most once in 1 ms; the
first raise of an episode is recorded. -/
def execThermalCapRaise (t g : Nat) (s : State) : Out :=
  let s := s.adv t
  .next <|
    let r := s.region g
    let due : Bool := match r.thermRaise with
      | none => true
      | some f => decide (f + ftMs ≤ s.now)
    match (List.range 3).find? fun i => s.hot (3 * g + i) s.power.throttle with
    | none => s
    | some i =>
      if g < 64 ∧ due ∧ r.capTherm < 6 then
        let s := (s.modRegion g fun r => { r with capTherm := r.capTherm + 1, thermRaise := some s.now }).applyStep g
        if r.capTherm = 0 then
          (s.report 0x0706 5 (s.partField (siteKey g 0)) g [(8, 3 * g + i), (16, wrapZ 16 ((s.sensor (3 * g + i)).getD 0)), (8, 1)]).event
            0x0B05 0xFF [(8, g), (8, 3 * g + i), (8, 1)]
        else s
      else s

/-- `THERMAL_CAP_LOWER` (R478): 10 ms below `THROTTLE_C` − 3 °C lower the thermal cap one step, and so each further 10 ms. -/
def execThermalCapLower (t g : Nat) (s : State) : Out :=
  let s := s.adv t
  .next <|
    match (s.region g).coolSince with
    | none => s
    | some c =>
      if c + 10 * ftMs ≤ s.now ∧ 0 < (s.region g).capTherm then
        (s.modRegion g fun r => { r with capTherm := r.capTherm - 1, coolSince := some (c + 10 * ftMs) }).applyStep g
      else s

/-- `THERMAL_TRIP` (R479): a sensor at or above 105 °C for 100 µs stops the clocks of every region, faults every job without a
Harvest, and alarms class 2. -/
def execThermalTrip (t sensor : Nat) (s : State) : Out :=
  let s := s.adv t
  .next <|
    let since : Option Nat := Tbl.get none s.power.hotSince sensor
    match since with
    | none => s
    | some h =>
      if h + 100 * ftUs ≤ s.now ∧ ¬ s.hub.tripped then
        let temp := wrapZ 16 ((s.sensor sensor).getD 0)
        let s := (s.stopClocks).faultAll 0x0707
        let s := (s.report 0x0707 0 0xFF 0 [(8, sensor), (16, temp)]).event 0x0B06 0xFF [(8, sensor), (16, temp)]
        let s := s.modHub fun h => { h with tripped := true }
        let s := { s with pins := { s.pins with thermtripN := false } }
        (s.modAlarm 2 fun a => { a with asserts := true }).alarm 2 sensor temp
      else s

/-! ## Regulator cells (R480 to R482) -/

/-- A ledger entry awaits its write to flash (R503). -/
def State.ledgerAdd (s : State) (kind cls id : Nat) : State :=
  { s with flash := { s.flash with ledgerPend := s.flash.ledgerPend ++ [({ kind, cls, id, ft := s.now } : LedgerEnt)] } }

/-- A region goes dark (R482): its slices are lost, its sites are `DARK`, the step closes with `FAULT`. -/
def State.darken (s : State) (g cause : Nat) : State :=
  if (s.region g).logic = .dark then s
  else
    let p := s.partField (siteKey g 0)
    let r := s.region g
    let s := (s.lentExit g).modRegion g fun r =>
      { r with logic := .dark, array := .off, repairs := [], targets := [], loaded := [], pairs := [], margin := 0,
               sensors := Tbl.drop 0 (Tbl.drop 1 r.sensors) }
    let s := s.modSites (sitesOfRegion g) fun _ x => { x with st := .dark, mu := { x.mu with slice := [], errs := [], tags := [], dirty := 0 } }
    let s := (s.newGen g).forceClose p
    let s := s.spareEvents g
    (s.report 0x0703 5 p g [(8, cause), (8, r.logicFailed), (8, r.arrayFailed)]).event 0x0B03 p [(8, g), (8, cause)]

/-- A cell of a region is disconnected, with its `IVR_FAIL` record (R480, R494): cause 4 is a cell that the ledger lists at start (R503). -/
def State.cellOff (s : State) (g cell cause : Nat) : State :=
  let s := s.modRegion g fun r =>
    if cell < 6 then { r with logicFail := r.logicFail ||| (1#6 <<< cell) }
    else { r with arrayFail := r.arrayFail ||| (1#2 <<< (cell - 6)) }
  let r := s.region g
  s.report 0x0701 5 (s.partField (siteKey g 0)) (g + 64 * cell + 512) [(8, cell), (8, cause), (8, r.logicFailed), (8, r.arrayFailed)]

/-- What the count of failed cells of a region causes (R481, R482); `before` is the count of failed logic cells before. -/
def State.cellEffect (s : State) (g before : Nat) : State :=
  let r := s.region g
  let n := r.logicFailed
  if 3 ≤ n then s.darken g 1
  else if 2 ≤ r.arrayFailed then s.darken g 2
  else if n = 2 ∧ before < 2 then
    let s := s.applyStep g
    let r := s.region g
    (s.report 0x0702 5 (s.partField (siteKey g 0)) g [(8, r.capSrc), (8, r.cap), (8, r.dvfs)]).event 0x0B02 0xFF
      [(8, g), (8, r.cap), (8, r.capSrc)]
  else s

/-- Whether a region has reached a state of `REGION_POWER`. -/
def Region.reached (r : Region) (st : Nat) : Bool :=
  if st = 2 then r.logic == .on else if st = 1 then r.logic == .off && r.array == .retention else r.logic == .off && r.array == .off

/-- `REGION_BOUND` (R492). -/
abbrev stRegionBound : Nat := 0x0B01
/-- `REGION_DARK` (R492). -/
abbrev stRegionDark : Nat := 0x0B02

/-- Complete every `REGION_POWER` whose regions have all reached their state (R491), or gone dark on the way (R490). -/
def State.powerWaiters (s : State) : State :=
  (List.range 24).foldl (fun s mb => match (s.mbx mb).running with
    | some d =>
      let rs := bitsN d.args 0 64
      let st := bitsN d.args 64 8
      let dark : Nat → Bool := fun g => (s.region g).logic == .dark
      if d.opcode = 0x0B05 ∧ (List.range 64).all fun g => !(bitOn rs g) || (s.region g).reached st || dark g then
        s.finish mb (if (List.range 64).any fun g => bitOn rs g && dark g then stRegionDark else stOk)
      else s
    | none => s) s

/-- `IVR_CELL_FAIL` (R470, R480 to R482): a cell fails and is disconnected: 0 to 5 logic, 6 and 7 array; 8 and 9 are the network
regulators of the region's base die. -/
def execIvrCellFail (t g cell cause : Nat) (s : State) : Out :=
  let s := s.adv t
  .next <|
    if 64 ≤ g ∨ 10 ≤ cell then s
    else if 8 ≤ cell then
      let st := g / 8
      let n := 2 * st + (cell - 8)
      if s.power.netFail.contains n then s
      else
        let s := { s with power := { s.power with netFail := n :: s.power.netFail } }
        let s := (s.report 0x0701 5 0xFF (8 * st) [(8, 0xFF), (8, cause), (8, 0), (8, 0)]).event 0x0B01 0xFF [(8, 8 * st), (8, 0xFF), (8, 0)]
        let other := 2 * st + (9 - cell)
        if s.power.netFail.contains other then
          ((List.range 8).foldl (fun s r => s.darken (8 * st + r) 3) s).powerWaiters
        else s
    else
      let r := s.region g
      let known := if cell < 6 then bitAt r.logicFail cell else bitAt r.arrayFail (cell - 6)
      if known ∨ r.logic = .dark then s
      else
        let s := s.cellOff g cell cause
        let s := (s.event 0x0B01 0xFF [(8, g), (8, cell), (8, (s.region g).logicFailed)]).ledgerAdd 2 0x0701 (g + 256 * cell)
        (s.cellEffect g r.logicFailed).powerWaiters

/-! ## Transients (R484, R485) -/

/-- `SURGE_RECHARGED` (R484): the surge cells of a region are charged again. -/
def execSurgeRecharged (t g : Nat) (s : State) : Out :=
  let s := s.adv t
  .next (s.modRegion g fun r => { r with surgeOk := true })

/-- Write a `DROOP` record (R485, R494). -/
def State.droop (s : State) (g kind mv ns : Nat) : State :=
  let s := s.modRegion g fun r => { r with surgeOk := false, margin := 0 }
  s.report 0x0705 5 (s.partField (siteKey g 0)) g [(8, kind), (8, (s.region g).dvfs), (16, mv), (16, min 65535 ns)]

/-- `DROOP_DETECT` (R484, R485): the surge cells discharge; below the stretch threshold the clock stretches and a record of kind 0 is
written; above it the margin is noted. -/
def execDroopDetect (t g mv ns : Nat) (s : State) : Out :=
  let s := s.adv t
  .next <|
    let th := stepMv (s.region g).dvfs - 30
    if (s.region g).logic ≠ .on then s
    else if mv < th then s.droop g 0 mv ns
    else s.modRegion g fun r => { r with surgeOk := false, margin := min 255 (mv - th) }

/-- `DROOP_HARD_FLOOR` (R485): below the hard floor for 20 ns or more, the partition's step has verdict `FAULT`. -/
def execDroopHardFloor (t g mv ns : Nat) (s : State) : Out :=
  let s := s.adv t
  .next <|
    if (s.region g).logic = .on ∧ mv < stepMv (s.region g).dvfs - 90 ∧ 20 ≤ ns then
      (s.droop g 1 mv ns).modJob (s.partField (siteKey g 0)) fun j => if j.st = .running then { j with faultSeen := true } else j
    else s

/-! ## Bumps (R486) -/

/-- `BUMP_SAMPLE` (R486): the measured drop in mV against the current in mA times the fused resistance; sixteen samples in excess by
more than 30 mV cap the region at step 2. -/
def execBumpSample (t g current measured : Nat) (s : State) : Out :=
  let s := s.adv t
  .next <|
    let expected := current * Tbl.get 0 s.fuses.bumpRes g / 1000000
    if expected + 30 < measured then
      let n := min 16 ((s.region g).bumpRun + 1)
      let s := s.modRegion g fun r => { r with bumpRun := n }
      if n = 16 ∧ ¬ (s.region g).bump then
        let s := s.report 0x0704 5 (s.partField (siteKey g 0)) g [(16, measured), (16, expected)]
        let s := (s.event 0x0B04 0xFF [(8, g), (16, measured - expected)]).ledgerAdd 3 0x0704 g
        (s.modRegion g fun r => { r with bump := true }).applyStep g
      else s
    else s.modRegion g fun r => { r with bumpRun := 0 }

/-! ## Power states (R487 to R489) -/

/-- Power a region down to retention or off (R487, R488). -/
def State.powerDown (s : State) (g : Nat) (retain : Bool) : State :=
  if (s.region g).logic = .dark then s
  else
    let s := s.modRegion g fun r =>
      { r with logic := .off, array := if retain then .retention else .off, lost := r.lost || !(retain && r.array != .off),
               margin := 0, sensors := Tbl.drop 0 (Tbl.drop 1 r.sensors), puGroups := 0 }
    if retain ∧ ¬ (s.region g).lost then s
    else s.modSites (sitesOfRegion g) fun _ x => { x with mu := { x.mu with slice := [], errs := [], tags := [] } }

/-- When the next switch group of a region may close (R489). -/
def Region.puDue (r : Region) : Nat := r.puLast + (if 200 * ftUs ≤ r.puPaused then 16000 else 2000)

/-- The last switch group of a region has closed (R489): its clock starts, and a `POWER_STAGE` takes effect. -/
def State.regionOn (s : State) (g : Nat) : State :=
  let lost := (s.region g).lost
  let s := (s.modRegion g fun r => { r with logic := .on, lost := false }).applyStep g
  let s := if lost then s.modSites (sitesOfRegion g) fun _ => sweptSite else s
  ((List.range 16).foldl (fun (s : State) p => s.watchMet p fun w => w.action == 5 && w.target == g) s).powerWaiters

/-- `POWER_GROUP_CLOSE` (R489): the next switch group of a region closes, or is held while a margin is low; the pauses count up to
200 µs, after which groups follow 4 µs apart. After the last group the clock starts, and a `POWER_STAGE` takes effect. -/
def execPowerGroupClose (t g : Nat) (marginOk : Bool) (s : State) : Out :=
  let s := s.adv t
  .next <|
    let r := s.region g
    let past := decide (200 * ftUs ≤ r.puPaused)
    let due := r.puDue
    if r.logic ≠ .poweringUp ∨ s.now < due then s
    else if ¬ past ∧ ¬ marginOk then s.modRegion g fun r => { r with puPaused := r.puPaused + (s.now - due), puLast := s.now - 2000 }
    else
      let s := s.modRegion g fun r => { r with puGroups := r.puGroups + 1, puLast := s.now }
      if 16 ≤ (s.region g).puGroups then s.regionOn g else s

end Sys2Proof.Machine
end

