-- ==== Sys2Proof/Machine/Rv.lean ====
section
/-! DEFINITION. The instruction set of the sequencer apart from its state: RV32IMC expansion, the integer computations of RV32IM,
and the encodings of Xmln (06 R199, R208, R209). -/

namespace Sys2Proof.Machine

/-! ## Building 32-bit words from fields -/

/-- I format. -/
def encI (imm rs1 f3 rd op : Nat) : Nat := imm % 4096 * 1048576 + rs1 * 32768 + f3 * 4096 + rd * 128 + op
/-- R format. -/
def encR (f7 rs2 rs1 f3 rd op : Nat) : Nat := f7 * 33554432 + rs2 * 1048576 + rs1 * 32768 + f3 * 4096 + rd * 128 + op
/-- S format. -/
def encS (imm rs2 rs1 f3 op : Nat) : Nat := encR (bitsN imm 5 7) rs2 rs1 f3 (bitsN imm 0 5) op
/-- B format: `imm` is the byte offset modulo 2^13. -/
def encB (imm rs2 rs1 f3 : Nat) : Nat :=
  encR (bitsN imm 5 6 + 64 * bitsN imm 12 1) rs2 rs1 f3 (2 * bitsN imm 1 4 + bitsN imm 11 1) 0x63
/-- J format: `imm` is the byte offset modulo 2^21. -/
def encJ (imm rd : Nat) : Nat :=
  (bitsN imm 12 8 + 256 * bitsN imm 11 1 + 512 * bitsN imm 1 10 + 524288 * bitsN imm 20 1) * 4096 + rd * 128 + 0x6F

/-- Sign-extend the low `n` bits of a number to `m` bits. -/
def sext (n m v : Nat) : Nat := wrapZ m (bitsZ v 0 n)

/-! ## Compressed instructions (RV32C without floating point) -/

/-- Quadrant 0. -/
def rvc0 (h : Nat) : Option Nat :=
  let rdp := 8 + bitsN h 2 3
  let rs1p := 8 + bitsN h 7 3
  let w := 8 * bitsN h 10 3 + 4 * bitsN h 6 1 + 64 * bitsN h 5 1
  match bitsN h 13 3 with
  | 0 =>
    let imm := 16 * bitsN h 11 2 + 64 * bitsN h 7 4 + 4 * bitsN h 6 1 + 8 * bitsN h 5 1
    if imm = 0 then none else some (encI imm 2 0 rdp 0x13)
  | 2 => some (encI w rs1p 2 rdp 0x03)
  | 6 => some (encS w rdp rs1p 2 0x23)
  | _ => none

/-- The jump offset of C.J and C.JAL, modulo 2^21. -/
def rvcJ (h : Nat) : Nat :=
  sext 12 21 (2048 * bitsN h 12 1 + 16 * bitsN h 11 1 + 256 * bitsN h 9 2 + 1024 * bitsN h 8 1 + 64 * bitsN h 7 1 +
    128 * bitsN h 6 1 + 2 * bitsN h 3 3 + 32 * bitsN h 2 1)

/-- The branch offset of C.BEQZ and C.BNEZ, modulo 2^13. -/
def rvcB (h : Nat) : Nat :=
  sext 9 13 (256 * bitsN h 12 1 + 8 * bitsN h 10 2 + 64 * bitsN h 5 2 + 2 * bitsN h 3 2 + 32 * bitsN h 2 1)

/-- Quadrant 1. -/
def rvc1 (h : Nat) : Option Nat :=
  let rd := bitsN h 7 5
  let rdp := 8 + bitsN h 7 3
  let rs2p := 8 + bitsN h 2 3
  let imm6 := 32 * bitsN h 12 1 + bitsN h 2 5
  let imm := sext 6 12 imm6
  match bitsN h 13 3 with
  | 0 => some (encI imm rd 0 rd 0x13)
  | 1 => some (encJ (rvcJ h) 1)
  | 2 => some (encI imm 0 0 rd 0x13)
  | 3 =>
    if imm6 = 0 then none
    else if rd = 2 then
      let n := 512 * bitsN h 12 1 + 16 * bitsN h 6 1 + 64 * bitsN h 5 1 + 128 * bitsN h 3 2 + 32 * bitsN h 2 1
      some (encI (sext 10 12 n) 2 0 2 0x13)
    else some (sext 6 20 imm6 * 4096 + rd * 128 + 0x37)
  | 4 =>
    match bitsN h 10 2 with
    | 0 => if bitOn h 12 then none else some (encR 0 (bitsN h 2 5) rdp 5 rdp 0x13)
    | 1 => if bitOn h 12 then none else some (encR 32 (bitsN h 2 5) rdp 5 rdp 0x13)
    | 2 => some (encI imm rdp 7 rdp 0x13)
    | _ =>
      if bitOn h 12 then none
      else match bitsN h 5 2 with
        | 0 => some (encR 32 rs2p rdp 0 rdp 0x33)
        | 1 => some (encR 0 rs2p rdp 4 rdp 0x33)
        | 2 => some (encR 0 rs2p rdp 6 rdp 0x33)
        | _ => some (encR 0 rs2p rdp 7 rdp 0x33)
  | 5 => some (encJ (rvcJ h) 0)
  | 6 => some (encB (rvcB h) 0 rdp 0)
  | _ => some (encB (rvcB h) 0 rdp 1)

/-- Quadrant 2. -/
def rvc2 (h : Nat) : Option Nat :=
  let rd := bitsN h 7 5
  let rs2 := bitsN h 2 5
  match bitsN h 13 3 with
  | 0 => if bitOn h 12 then none else some (encR 0 rs2 rd 1 rd 0x13)
  | 2 =>
    if rd = 0 then none
    else some (encI (32 * bitsN h 12 1 + 4 * bitsN h 4 3 + 64 * bitsN h 2 2) 2 2 rd 0x03)
  | 4 =>
    if bitOn h 12 then
      if rs2 ≠ 0 then some (encR 0 rs2 rd 0 rd 0x33)
      else if rd = 0 then some 0x00100073
      else some (encI 0 rd 0 1 0x67)
    else if rs2 ≠ 0 then some (encR 0 rs2 0 0 rd 0x33)
    else if rd = 0 then none
    else some (encI 0 rd 0 0 0x67)
  | 6 => some (encS (4 * bitsN h 9 4 + 64 * bitsN h 7 2) rs2 2 2 0x23)
  | _ => none

/-- The 32-bit instruction that a 16-bit one stands for; none for an illegal one. -/
def rvc (h : Nat) : Option Nat :=
  match h % 4 with
  | 0 => rvc0 h
  | 1 => rvc1 h
  | 2 => rvc2 h
  | _ => none

/-! ## Immediates of 32-bit words -/

/-- I immediate. -/
def immI (w : Nat) : BitVec 32 := BitVec.ofInt 32 (bitsZ w 20 12)
/-- S immediate. -/
def immS (w : Nat) : BitVec 32 := BitVec.ofInt 32 (bitsZ (bitsN w 7 5 + 32 * bitsN w 25 7) 0 12)
/-- B immediate. -/
def immB (w : Nat) : BitVec 32 :=
  BitVec.ofInt 32 (bitsZ (2 * bitsN w 8 4 + 32 * bitsN w 25 6 + 2048 * bitsN w 7 1 + 4096 * bitsN w 31 1) 0 13)
/-- U immediate. -/
def immU (w : Nat) : BitVec 32 := BitVec.ofNat 32 (w / 4096 * 4096)
/-- J immediate. -/
def immJ (w : Nat) : BitVec 32 :=
  BitVec.ofInt 32 (bitsZ (2 * bitsN w 21 10 + 2048 * bitsN w 20 1 + 4096 * bitsN w 12 8 + 1048576 * bitsN w 31 1) 0 21)

/-! ## Computations -/

/-- RV32I computations by `funct3`; `alt` selects SUB and SRA. -/
def aluI (f3 : Nat) (alt : Bool) (a b : BitVec 32) : BitVec 32 :=
  match f3 with
  | 0 => if alt then a - b else a + b
  | 1 => a <<< (b.toNat % 32)
  | 2 => if a.slt b then 1 else 0
  | 3 => if a.ult b then 1 else 0
  | 4 => a ^^^ b
  | 5 => if alt then a.sshiftRight (b.toNat % 32) else a >>> (b.toNat % 32)
  | 6 => a ||| b
  | _ => a &&& b

/-- RV32M computations by `funct3`. -/
def aluM (f3 : Nat) (a b : BitVec 32) : BitVec 32 :=
  match f3 with
  | 0 => a * b
  | 1 => BitVec.ofInt 32 (a.toInt * b.toInt / 2 ^ 32)
  | 2 => BitVec.ofInt 32 (a.toInt * (b.toNat : Int) / 2 ^ 32)
  | 3 => BitVec.ofNat 32 (a.toNat * b.toNat / 2 ^ 32)
  | 4 => if b = 0 then BitVec.allOnes 32 else BitVec.ofInt 32 (a.toInt.tdiv b.toInt)
  | 5 => if b = 0 then BitVec.allOnes 32 else BitVec.ofNat 32 (a.toNat / b.toNat)
  | 6 => if b = 0 then a else BitVec.ofInt 32 (a.toInt.tmod b.toInt)
  | _ => if b = 0 then a else BitVec.ofNat 32 (a.toNat % b.toNat)

/-- Branch conditions by `funct3`; none for an illegal one. -/
def branchTaken (f3 : Nat) (a b : BitVec 32) : Option Bool :=
  match f3 with
  | 0 => some (a == b)
  | 1 => some (a != b)
  | 4 => some (a.slt b)
  | 5 => some (!a.slt b)
  | 6 => some (a.ult b)
  | 7 => some (!a.ult b)
  | _ => none

/-! ## Xmln (R208, R209) -/

/-- The Xmln instructions. -/
inductive XOp where
  | send | trysend | done | recv | release | putw | getw | putt | gett | putv | getv | ephase | sigraise | sigwait | sigwaitl
  | sigsub | sigread | barrive | barwait | fence | semset | semclr | semwait
  deriving DecidableEq, Repr

/-- The instruction of a `funct3` and `funct7`, with the operand fields it uses: `rd`, `rs1`, `rs2` (R209). -/
def xTable (f3 f7 : Nat) : Option (XOp × Bool × Bool × Bool) :=
  match f3, f7 with
  | 0, 0 => some (.send, true, true, true)
  | 0, 1 => some (.trysend, true, true, true)
  | 0, 2 => some (.done, false, false, false)
  | 0, 3 => some (.recv, true, true, false)
  | 0, 4 => some (.release, false, true, false)
  | 1, 0 => some (.putw, false, true, true)
  | 1, 1 => some (.getw, true, true, false)
  | 1, 2 => some (.putt, false, true, true)
  | 1, 3 => some (.gett, true, true, false)
  | 1, 4 => some (.putv, false, true, true)
  | 1, 5 => some (.getv, false, true, true)
  | 1, 6 => some (.ephase, false, false, false)
  | 2, 0 => some (.sigraise, false, true, true)
  | 2, 1 => some (.sigwait, false, true, true)
  | 2, 2 => some (.sigwaitl, false, true, true)
  | 2, 3 => some (.sigsub, false, true, true)
  | 2, 4 => some (.sigread, true, true, false)
  | 3, 0 => some (.barrive, false, true, false)
  | 3, 1 => some (.barwait, false, true, false)
  | 3, 2 => some (.fence, false, false, false)
  | 6, 0 => some (.semset, false, true, false)
  | 6, 1 => some (.semclr, false, true, false)
  | 6, 2 => some (.semwait, false, true, false)
  | _, _ => none

/-- The Xmln instruction that a word spells; an operand field that it does not use must be zero (R208). -/
def xDecode (w : Nat) : Option XOp :=
  if w % 128 ≠ 0x0B then none
  else match xTable (bitsN w 12 3) (bitsN w 25 7) with
    | none => none
    | some (o, rd, rs1, rs2) =>
      if (rd ∨ bitsN w 7 5 = 0) ∧ (rs1 ∨ bitsN w 15 5 = 0) ∧ (rs2 ∨ bitsN w 20 5 = 0) then some o else none

end Sys2Proof.Machine
end

