-- ==== Sys2Proof/Machine/Sequencer.lean ====
section
/-! DEFINITION. The sequencer of a site: its register banks, memory map, CSRs, exceptions and the RV32IMC instructions (06 R199 to
R213). -/

namespace Sys2Proof.Machine

/-! ## Banks and contexts (R203) -/

/-- A register of a bank. -/
def Bank.reg (b : Bank) (r : Nat) : BitVec 32 := if r = 0 then 0 else Tbl.get 0 b.regs r
/-- Write a register of a bank; x0 stays zero. -/
def Bank.setReg (b : Bank) (r : Nat) (v : BitVec 32) : Bank := if r = 0 then b else { b with regs := Tbl.set 0 r v b.regs }
/-- The bank that runs: a handler's before the main context's. -/
def SeqSt.bank (q : SeqSt) : Bank := if q.hand.live then q.hand else q.main
/-- The context that runs. -/
def SeqSt.context (q : SeqSt) : Nat := if q.hand.live then q.ctx else 0
/-- Change the bank that runs. -/
def SeqSt.modBank (q : SeqSt) (f : Bank → Bank) : SeqSt :=
  if q.hand.live then { q with hand := f q.hand } else { q with main := f q.main }
/-- Change a sequencer. -/
def State.modSeq (s : State) (k : Nat) (f : SeqSt → SeqSt) : State := s.modSite k fun x => { x with seq := f x.seq }

/-- Whether a sequencer has a program to run and may run it (R164, R165, R201, R203): a pending handler comes before the main context. -/
def State.seqRuns (s : State) (k : Nat) : Bool :=
  s.siteWorks k seqUnit && s.mayRun k seqUnit && !(s.site k).seq.halted && (s.site k).seq.bank.live &&
    ((s.site k).seq.hand.live || (s.site k).nextHandler.isNone)

/-! ## Memory map and access (R200, R205) -/

/-- Instruction memory in sequencer addresses (R200). -/
def inImem (a n : Nat) : Bool := decide (0x1BA000 ≤ a ∧ a + n ≤ 0x1BE000)

/-- The handler data range of a channel in sequencer addresses (R214). -/
def Site.inHandlerData (x : Site) (i a n : Nat) : Bool :=
  let lo := 0x100000 + x.cfg (chanUnit i) 64 20
  decide (lo ≤ a ∧ a + n ≤ lo + x.cfg (chanUnit i) 84 20)

/-- The current message of a channel in sequencer addresses: its payload, and its header where it has one (R204, R205). -/
def Site.inMessage (x : Site) (i a n : Nat) : Bool :=
  let c := x.chan i
  match c.cur with
  | none => false
  | some m =>
    let hi := 0x100000 + c.curAddr + m.payload.length
    let lo := 0x100000 + c.curAddr - (if m.kind = 3 then 0 else 16)
    decide (lo ≤ a ∧ a + n ≤ hi)

/-- Whether the running context may load from a range (R200, R205). -/
def Site.mayLoad (x : Site) (a n : Nat) : Bool :=
  match x.seq.context with
  | 0 => decide (0x100000 ≤ a ∧ a + n ≤ 0x1C0000)
  | i + 1 => inImem a n || x.inHandlerData i a n || x.inMessage i a n

/-- Whether the running context may store to a range (R200, R205). -/
def Site.mayStore (x : Site) (a n : Nat) : Bool :=
  match x.seq.context with
  | 0 => decide (0x100000 ≤ a ∧ a + n ≤ 0x1BA000) || decide (0x1BE000 ≤ a ∧ a + n ≤ 0x1C0000)
  | i + 1 => x.inHandlerData i a n

/-- Bytes at a sequencer address. -/
def Site.seqBytes (x : Site) (a n : Nat) : List Byte := memReadN x.mu.slice (a - 0x100000) n

/-- A store of the running context (R200, R300). -/
def State.seqStore (s : State) (k a : Nat) (bs : List Byte) : State :=
  let c := (s.site k).seq.context
  (s.sliceWrite k (a - 0x100000) bs).modSite k fun x => x.sign (0x0200 + c) (leBytes 4 a ++ leBytes 1 bs.length ++ bs)

/-! ## Fetch, exceptions, retirement -/

/-- What a fetch answers: an access fault, an illegal 16-bit parcel, or a 32-bit word (an expanded one included) with the bytes it
took. -/
inductive Fetched where
  | fault
  | bad (h : Nat)
  | word (w len : Nat)
  deriving DecidableEq, Repr

/-- Fetch at a program counter (R199, R200). -/
def Site.fetchAt (x : Site) (pc : Nat) : Fetched :=
  if inImem pc 2 then
    let h := ofLe (x.seqBytes pc 2)
    if h % 4 = 3 then if inImem pc 4 then .word (ofLe (x.seqBytes pc 4)) 4 else .fault
    else match rvc h with
      | some w => .word w 2
      | none => .bad h
  else .fault

/-- Fetch at the program counter of the running context. -/
def Site.fetch (x : Site) : Fetched := x.fetchAt x.seq.bank.pc.toNat

/-- The bytes that a fetch takes. -/
def Fetched.len : Fetched → Nat
  | .fault => 0
  | .bad _ => 2
  | .word _ n => n

/-- Whether the fetch of the running context returns uncorrectable data (R172, R201). -/
def Site.fetchUe (x : Site) : Bool := x.rangeUe (x.seq.bank.pc.toNat - 0x100000) x.fetch.len

/-- A read by the sequencer of a range of its slice (R172, R200). -/
def State.seqRead (s : State) (k a n : Nat) : State := s.eccRange k (a - 0x100000) n true

/-- The read of the running context's instruction. -/
def State.fetched (s : State) (k : Nat) : State := s.seqRead k (s.site k).seq.bank.pc.toNat (s.site k).fetch.len

/-- An exception (R201): the sequencer halts with its cause latched, a `SEQ_TRAP` is recorded, and the job is faulted as on a phase
Ides expiry. When uncorrectable data brought it about (`ue`), the step closes with `FAULT` instead. -/
def State.seqTrap (s : State) (k cause : Nat) (v : BitVec 32) (ue : Bool) : State :=
  let c := (s.site k).seq.context
  let s := s.modSeq k fun q =>
    { q with halted := true, mcause := BitVec.ofNat 32 cause, mepc := q.bank.pc, mtval := Config.seqTval cause v }
  let s := s.reportSite 0x0104 k (0x100 + c) []
  if ue then s.forceClose (s.partField k) else s.faultAsIdes (s.partField k) 0x0104 4 k

/-- An instruction of the running context retires: its result, the next program counter, no wait. -/
def State.seqRetire (s : State) (k rd : Nat) (v pc : BitVec 32) : State :=
  s.modSeq k fun q =>
    if q.bank.live && !q.halted then
      { (q.modBank fun b => { (b.setReg rd v) with pc, wait := none }) with minstret := q.minstret + 1, fast := false }
    else q

/-! ## CSRs (R199, R213) -/

/-- `XM_ID` (R213). -/
def State.xmId (s : State) (k : Nat) : BitVec 32 := BitVec.ofNat 32 (s.tileAt k + 65536 * s.hub.devId)

/-- `XM_PEND` (R213); a shadow's undispatched messages are those that its target forwarded (R229). -/
def Site.pend (x : Site) : BitVec 32 :=
  let cs := if x.st = .vigil then x.fwdMsgs.map fun f => f.msg.chan else x.seq.pending.map fun e => e.1
  BitVec.ofNat 32 (((List.range 32).filter fun i => cs.contains i).foldl (fun n i => n + 2 ^ i) 0)

/-- Step index of the site's job. -/
def State.siteStep (s : State) (k : Nat) : Nat :=
  match s.job (s.partField k) with
  | some j => j.step
  | none => 0

/-- Read a CSR: none for one that does not exist. Cycles since `mcycle` was written are a free value (R212, assumption 23). -/
def State.csrRead (s : State) (k n : Nat) : Option (BitVec 32 × State) :=
  let q := (s.site k).seq
  let val := fun (v : BitVec 32) => some (v, s)
  let cyc := fun (hi : Bool) =>
    let (x, s) := s.draw 64
    let c := (q.mcycle + x).toNat
    some (BitVec.ofNat 32 (if hi then c / 2 ^ 32 else c), s)
  if n = 0x300 then val (q.mstatus ||| 0x1800)
  else if n = 0x301 then val 0x40801104
  else if n ∈ [0x304, 0x305, 0x310, 0x320, 0x344] then val 0
  else if (0x323 ≤ n ∧ n ≤ 0x33F) ∨ (0xB03 ≤ n ∧ n ≤ 0xB1F) ∨ (0xB83 ≤ n ∧ n ≤ 0xB9F) then val 0
  else if n = 0x340 then val q.mscratch
  else if n = 0x341 then val q.mepc
  else if n = 0x342 then val q.mcause
  else if n = 0x343 then val q.mtval
  else if n = 0xB00 then cyc false
  else if n = 0xB80 then cyc true
  else if n = 0xB02 then val (q.minstret.setWidth 32)
  else if n = 0xB82 then val ((q.minstret >>> 32).setWidth 32)
  else if n ∈ [0xF11, 0xF12, 0xF13, 0xF15] then val (Config.seqIdCsr n)
  else if n = 0xF14 ∨ n = 0xFC0 then val (s.xmId k)
  else if n = 0xFC1 then val (BitVec.ofNat 32 (((s.site k).unit seqUnit).epoch.toNat + 65536 * q.phase))
  else if n = 0xFC2 then val (BitVec.ofNat 32 (s.siteStep k))
  else if n = 0xFC3 then val (BitVec.ofNat 32 (s.siteStep k / 2 ^ 32))
  else if n = 0xFC4 then val (BitVec.ofNat 32 q.context)
  else if n = 0xFC5 then val q.mseq
  else if n = 0xFC6 then val q.rlen
  else if n = 0xFC7 then val (BitVec.ofNat 32 (b1 q.eveHead + 2 * b1 q.compat + 256 * q.lastSend))
  else if n = 0xFC8 then val (s.site k).pend
  else if n = 0xFC9 then some (BitVec.ofNat 32 s.now, s.modSeq k fun q => { q with ftSample := s.now })
  else if n = 0xFCA then val (BitVec.ofNat 32 (q.ftSample / 2 ^ 32))
  else if n = 0x7C0 then val q.utag
  else none

/-- Replace the low or the high word of a 64-bit counter. -/
def putHalf (c : BitVec 64) (hi : Bool) (v : BitVec 32) : BitVec 64 :=
  if hi then BitVec.ofNat 64 (c.toNat % 2 ^ 32 + 2 ^ 32 * v.toNat) else BitVec.ofNat 64 (c.toNat / 2 ^ 32 * 2 ^ 32 + v.toNat)

/-- Write a CSR that may be written; a field that the sequencer hard-wires keeps its value (R199, R201, R213). -/
def SeqSt.csrWrite (q : SeqSt) (n : Nat) (v : BitVec 32) : SeqSt :=
  if n = 0x300 then { q with mstatus := v &&& 0x88 }
  else if n = 0x340 then { q with mscratch := v }
  else if n = 0x341 then { q with mepc := v &&& 0xFFFFFFFE }
  else if n = 0x342 then { q with mcause := v }
  else if n = 0x343 then { q with mtval := v }
  else if n = 0xB00 then { q with mcycle := putHalf q.mcycle false v }
  else if n = 0xB80 then { q with mcycle := putHalf q.mcycle true v }
  else if n = 0xB02 then { q with minstret := putHalf q.minstret false v }
  else if n = 0xB82 then { q with minstret := putHalf q.minstret true v }
  else if n = 0x7C0 then { q with utag := v &&& 0xFFFF }
  else q

/-- A Zicsr instruction: `f3` is its code, `r` its rs1 field, `a` the value of that register. A write to a read-only CSR, and a CSR
that does not exist, are illegal (R213). -/
def State.seqCsr (s : State) (k w len : Nat) (ue : Bool) : State :=
  let b := (s.site k).seq.bank
  let n := bitsN w 20 12
  let f3 := bitsN w 12 3
  let r := bitsN w 15 5
  let a : BitVec 32 := if 4 ≤ f3 then BitVec.ofNat 32 r else b.reg r
  let writes : Bool := f3 % 4 == 1 || r != 0
  if writes ∧ 0xC00 ≤ n then s.seqTrap k 2 (BitVec.ofNat 32 w) ue
  else match s.csrRead k n with
    | none => s.seqTrap k 2 (BitVec.ofNat 32 w) ue
    | some (v, s1) =>
      let s := if f3 % 4 = 1 ∧ bitsN w 7 5 = 0 then s else s1
      let new := if f3 % 4 = 1 then a else if f3 % 4 = 2 then v ||| a else v &&& ~~~a
      let s := s.seqRetire k (bitsN w 7 5) v (b.pc + BitVec.ofNat 32 len)
      if writes then s.modSeq k fun q => q.csrWrite n new else s

/-! ## RV32IMC -/

/-- A load by `funct3` (R199, R200, R205). -/
def State.seqLoad (s : State) (k w len : Nat) (ue : Bool) : State :=
  let x := s.site k
  let b := x.seq.bank
  let f3 := bitsN w 12 3
  let a := (b.reg (bitsN w 15 5) + immI w)
  let n := 2 ^ (f3 % 4)
  if f3 ∈ [0, 1, 2, 4, 5] then
    if a.toNat % n ≠ 0 then s.seqTrap k 4 a ue
    else if x.mayLoad a.toNat n then
      let v := ofLe (x.seqBytes a.toNat n)
      (s.seqRead k a.toNat n).seqRetire k (bitsN w 7 5) (BitVec.ofNat 32 (if f3 < 4 then sext (8 * n) 32 v else v)) (b.pc + BitVec.ofNat 32 len)
    else s.seqTrap k 5 a ue
  else s.seqTrap k 2 (BitVec.ofNat 32 w) ue

/-- A store by `funct3` (R199, R200, R205). -/
def State.seqStoreOp (s : State) (k w len : Nat) (ue : Bool) : State :=
  let x := s.site k
  let b := x.seq.bank
  let f3 := bitsN w 12 3
  let a := (b.reg (bitsN w 15 5) + immS w)
  let n := 2 ^ f3
  if f3 ≤ 2 then
    if a.toNat % n ≠ 0 then s.seqTrap k 6 a ue
    else if x.mayStore a.toNat n then
      (s.seqStore k a.toNat (leBytes n (b.reg (bitsN w 20 5)).toNat)).seqRetire k 0 0 (b.pc + BitVec.ofNat 32 len)
    else s.seqTrap k 7 a ue
  else s.seqTrap k 2 (BitVec.ofNat 32 w) ue

/-- `ECALL`, `EBREAK`, `MRET`, `WFI` and the CSR instructions. `EBREAK` under a granted debug unlock halts with no exception
(R201, R544). -/
def State.seqSystem (s : State) (k w len : Nat) (ue : Bool) : State :=
  let q := (s.site k).seq
  let f3 := bitsN w 12 3
  if f3 = 0 then
    if w = 0x73 then s.seqTrap k 11 0 ue
    else if w = 0x100073 then
      if bitAt s.sec.debug 1 then s.modSeq k fun q => { q with halted := true } else s.seqTrap k 3 q.bank.pc ue
    else if w = 0x30200073 then
      (s.seqRetire k 0 0 q.mepc).modSeq k fun q => { q with mstatus := BitVec.ofNat 32 (8 * bitsN q.mstatus.toNat 7 1 + 128) }
    else if w = 0x10500073 then s.seqRetire k 0 0 (q.bank.pc + BitVec.ofNat 32 len)
    else s.seqTrap k 2 (BitVec.ofNat 32 w) ue
  else if f3 = 4 then s.seqTrap k 2 (BitVec.ofNat 32 w) ue
  else s.seqCsr k w len ue

/-- Execute one 32-bit word that is not an Xmln instruction. -/
def State.seqWord (s : State) (k w len : Nat) (ue : Bool) : State :=
  let b := (s.site k).seq.bank
  let pc := b.pc
  let rd := bitsN w 7 5
  let a := b.reg (bitsN w 15 5)
  let c := b.reg (bitsN w 20 5)
  let f3 := bitsN w 12 3
  let f7 := bitsN w 25 7
  let nxt := pc + BitVec.ofNat 32 len
  let ill := s.seqTrap k 2 (BitVec.ofNat 32 w) ue
  let op := w % 128
  if op = 0x37 then s.seqRetire k rd (immU w) nxt
  else if op = 0x17 then s.seqRetire k rd (pc + immU w) nxt
  else if op = 0x6F then s.seqRetire k rd nxt (pc + immJ w)
  else if op = 0x67 then if f3 = 0 then s.seqRetire k rd nxt ((a + immI w) &&& 0xFFFFFFFE) else ill
  else if op = 0x63 then
    match branchTaken f3 a c with
    | some t => s.seqRetire k 0 0 (if t then pc + immB w else nxt)
    | none => ill
  else if op = 0x03 then s.seqLoad k w len ue
  else if op = 0x23 then s.seqStoreOp k w len ue
  else if op = 0x13 then
    if (f3 = 1 ∧ f7 ≠ 0) ∨ (f3 = 5 ∧ f7 ≠ 0 ∧ f7 ≠ 32) then ill
    else s.seqRetire k rd (aluI f3 (f3 == 5 && f7 == 32) a (immI w)) nxt
  else if op = 0x33 then
    if f7 = 1 then s.seqRetire k rd (aluM f3 a c) nxt
    else if f7 = 0 ∨ (f7 = 32 ∧ (f3 = 0 ∨ f3 = 5)) then s.seqRetire k rd (aluI f3 (f7 == 32) a c) nxt
    else ill
  else if op = 0x0F then if f3 = 0 then s.seqRetire k 0 0 nxt else ill
  else if op = 0x73 then s.seqSystem k w len ue
  else ill

/-- One instruction of the running context that is no Xmln instruction. -/
def State.seqStep (s : State) (k : Nat) : State :=
  let x := s.site k
  if ¬ s.seqRuns k ∨ x.seq.bank.wait.isSome then s
  else match x.fetch with
    | .fault => s.seqTrap k 1 x.seq.bank.pc false
    | .bad h => (s.fetched k).seqTrap k 2 (BitVec.ofNat 32 h) x.fetchUe
    | .word w len => if (xDecode w).isSome then s else (s.fetched k).seqWord k w len x.fetchUe

/-- A disturbance of the stored code of the entry under the program counter, which the fetch is the first access to meet (R172): `some []` is
one that the read corrects, other bytes are what the entry then reads as. -/
def State.fetchUpset (s : State) (k : Nat) (upset : Option (List Byte)) : State :=
  match upset with
  | some raw => if inImem (s.site k).seq.bank.pc.toNat 2 then s.disturb k (((s.site k).seq.bank.pc.toNat - 0x100000) / 16) raw else s
  | none => s

/-- `SEQ_INSTRUCTION` (R199): one RV32IMC or Zicsr instruction. -/
def execSeqInstruction (t site : Nat) (upset : Option (List Byte)) (s : State) : Out :=
  let s := s.adv t
  .next ((s.fetchUpset site upset).seqStep site)

end Sys2Proof.Machine
end

