-- ==== Sys2Proof/Machine/Channels.lean ====
section
/-! DEFINITION. Message channels and combining queues of a tile: rings, deposits, dispatch, completion, spills and rounds (06 R214 to
R230; 10 R298). -/

namespace Sys2Proof.Machine

/-! ## Message headers and rings (R217, R219) -/

/-- A message header (R217): the channel stands in one that went through the spill ring; the signature leaves `SRC_DEV` out (R300). -/
def hdrBytes (m : Msg) (withDev : Bool) : List Byte :=
  leBytes 1 m.kind ++ leBytes 1 (if m.spilled then 1 + 2 * m.chan else 0) ++ leBytes 2 m.lines ++ leBytes 2 m.payload.length ++
    leBytes 2 m.srcTile ++ leBytes 4 m.seq.toNat ++ (if withDev then leBytes 2 m.srcDev else []) ++ leBytes 2 m.utag.toNat

/-- The message at the start of a byte string. -/
def msgOf (bs : List Byte) : Msg :=
  { kind := num bs 0 1, spilled := bitOn (num bs 1 1) 0, chan := bitsN (num bs 1 1) 1 5, lines := num bs 2 2, srcTile := num bs 6 2,
    seq := BitVec.ofNat 32 (num bs 8 4), srcDev := num bs 12 2, utag := BitVec.ofNat 16 (num bs 14 2), payload := slice bs 16 (num bs 4 2) }

/-- `RING_LINES` of a slot (R214). -/
def Site.ringLines (x : Site) (i : Nat) : Nat := x.cfg (chanUnit i) 24 11
/-- `RING_BASE` of a slot (R214). -/
def Site.ringBase (x : Site) (i : Nat) : Nat := x.cfg (chanUnit i) 4 20
/-- Bytes of a slot's ring from a line on. -/
def Site.ringBytes (x : Site) (i line n : Nat) : List Byte := memReadN x.mu.slice (x.ringBase i + 64 * line) n

/-- The complete messages of a ring in ring order from a line on, up to the first that is not complete: (lines of the pad before
it, first line, lines) (R219). `rem` are the ring lines not yet walked. -/
def Site.ringFrom (x : Site) (i : Nat) : Nat → Nat → Nat → List (Nat × Nat × Nat)
  | 0, _, _ => []
  | fuel + 1, rem, l =>
    let c := x.chan i
    let size := x.ringLines i
    let h := x.ringBytes i l 16
    let pad := if num h 0 1 = 2 then num h 2 2 else 0
    let l' := (l + pad) % max 1 size
    let h' := x.ringBytes i l' 16
    let n := num h' 2 2
    let ok : Bool := decide (l ∈ c.present) && decide (num h' 0 1 ≠ 2) && decide (0 < n) && decide (pad + n ≤ rem) &&
      (List.range n).all fun j => decide (l' + j ∈ c.present)
    if ok then (pad, l', n) :: Site.ringFrom x i fuel (rem - (pad + n)) ((l' + n) % max 1 size) else []

/-- The undispatched complete messages of a ring (R219). -/
def Site.ringUndispatched (x : Site) (i : Nat) : List (Nat × Nat × Nat) :=
  let c := x.chan i
  let size := x.ringLines i
  x.ringFrom i size (size - c.curLines) ((c.rxRptr + c.curLines + c.moved) % max 1 size)

/-- A message becomes pending behind those that completed before it; of two that complete at one FT count the lower channel comes first
(R204; that two events of one FT count are of one cycle is DEDUCED, log 101). -/
def SeqSt.addPending (q : SeqSt) (i : Nat) (seq : BitVec 32) (now : Nat) : SeqSt :=
  let later := (q.pending.reverse.takeWhile fun e => e.2.2 == now && decide (i < e.1)).length
  let n := q.pending.length - later
  { q with pending := q.pending.take n ++ (i, seq, now) :: q.pending.drop n }

/-- Note the messages that have become complete (R204). -/
def Site.notePending (x : Site) (i now : Nat) : Site :=
  (x.ringUndispatched i).foldl (fun x r =>
    let q := BitVec.ofNat 32 (num (x.ringBytes i r.2.1 16) 8 4)
    if x.seq.pending.any fun e => e.1 == i && e.2.1 == q then x else { x with seq := x.seq.addPending i q now }) x

/-- `DEPOSIT_RECEIVE` (R219, R230): lines land in the ring, and messages that they complete become pending. -/
def execDepositReceive (t : Nat) (pkt : Packet) (s : State) : Out :=
  let s := s.adv t
  .next <| s.arrive pkt fun k s =>
    let i := pkt.arg.toNat % 32
    let x := s.site k
    let n := (pkt.payload.length + 63) / 64
    if pkt.kind = .deposit ∧ x.cfg (chanUnit i) 0 2 = 1 ∧ pkt.addr + n ≤ x.ringLines i then
      let s := s.sliceWrite k (x.ringBase i + 64 * pkt.addr) pkt.payload
      let s := s.modSite k fun x =>
        (x.modChan i fun c => { c with present := ((List.range n).map (pkt.addr + ·) ++ c.present).dedup, marked := c.marked || pkt.ce }).notePending i s.now
      s.reply pkt .ok
    else s

/-! ## Taking a message (R204, R222, R226, R229) -/

/-- A message as it is handed to a handler or to `X.RECV`: the message, its payload's slice address, the lines to free when it
completes, and the words for `a3` and `a4`. -/
structure Taken where
  msg : Msg := {}
  addr : Nat := 0
  lines : Nat := 0
  a3 : Nat := 0
  a4 : Nat := 0
  deriving DecidableEq, Repr

/-- The CHANNELS record of a site's tile (R215). -/
def State.chanRec (s : State) (k : Nat) : ChanRec :=
  match s.siteOrdo k with
  | some o => (o.chanRecs.find? fun r => r.tile == s.tileAt k).getD {}
  | none => {}

/-- The next message of a channel on a tile's own site, none when none is pending: a combining delivery, the oldest spilled message
through the staging buffer, or the ring's. -/
def State.nextTaken (s : State) (k i : Nat) : Option (Taken × State) :=
  let x := s.site k
  let c := x.chan i
  if c.cur.isSome ∨ ¬ x.seq.pending.any fun e => e.1 == i then none
  else if x.cfg (chanUnit i) 1 1 = 1 then
    if c.delivered then
      let w := tagWord ((x.combq (x.cfg (chanUnit i) 35 3)).tag.getD {})
      let m : Msg := { kind := 3, chan := i, lines := x.ringLines i, payload := x.ringBytes i 0 (64 * x.ringLines i) }
      some ({ msg := m, addr := x.ringBase i, a3 := w % 2 ^ 32, a4 := w / 2 ^ 32 }, s)
    else none
  else match x.spill.findIdx? fun e => e.msg.chan == i && !e.done && !e.staged with
    | some j =>
      let e := x.spill.getD j { msg := {} }
      let m := { e.msg with spilled := true }
      let base := (s.chanRec k).stageBase % 0x100000
      let s := (s.sliceWrite k base (hdrBytes m true ++ m.payload)).modSite k fun x =>
        { x with spill := x.spill.set j { e with staged := true } }
      some ({ msg := m, addr := base + 16, a3 := m.seq.toNat, a4 := m.utag.toNat }, s)
    | none =>
      match x.ringUndispatched i with
      | [] => none
      | (pad, l, n) :: _ =>
        let m := { msgOf (x.ringBytes i l (64 * n)) with chan := i }
        some ({ msg := m, addr := x.ringBase i + 64 * l + 16, lines := pad + n, a3 := m.seq.toNat, a4 := m.utag.toNat }, s)

/-- Hand a message of a channel to the sequencer of a site (R204, R209, R213); the target's MU forwards it to the shadows (R229). -/
def State.hand (s : State) (k i : Nat) (r : Taken) : State :=
  s.modSite k fun x =>
    let x := x.modChan i fun c =>
      { c with cur := some r.msg, curLines := r.lines, curAddr := r.addr, rxSeq := if r.msg.kind = 3 then c.rxSeq else r.msg.seq + 1 }
    { x with seq := { x.seq with mseq := r.msg.seq } }

/-- Take the next message of a channel: none when none is pending. A shadow takes what its target forwarded (R229), which the target's memory unit has
read from its slice (R172). -/
def State.takeMsg (s : State) (k i : Nat) : Option (Taken × State) :=
  let x := s.site k
  if x.st = .vigil then
    if (x.chan i).cur.isSome then none
    else match x.fwdMsgs.findIdx? fun f => f.msg.chan == i with
      | none => none
      | some j =>
        let f := x.fwdMsgs.getD j {}
        let s := s.sliceWrite k (if f.msg.kind = 3 then f.addr else f.addr - 16) f.bytes
        let s := s.modSite k fun x => { x with fwdMsgs := x.fwdMsgs.eraseIdx j }
        let r : Taken := { msg := f.msg, addr := f.addr, a3 := f.a3, a4 := f.a4 }
        some (r, s.hand k i r)
  else match s.nextTaken k i with
    | none => none
    | some (r, s) =>
      let s := (s.modSeq k fun q => { q with pending := q.pending.eraseP fun e => e.1 == i }).hand k i r
      let f : FwdMsg :=
        { msg := r.msg, addr := r.addr, a3 := r.a3, a4 := r.a4
          bytes := (if r.msg.kind = 3 then [] else hdrBytes r.msg true) ++ r.msg.payload }
      let s := if (s.shadows k).isEmpty then s else s.eccRange k (r.addr + r.msg.payload.length - f.bytes.length) f.bytes.length true
      some (r, s.forward k (.msg f))

/-- Raise a channel's `SIGNAL`, if it names one (R214). -/
def State.chanSignal (s : State) (k i : Nat) : State :=
  let n := (s.site k).cfg (chanUnit i) 56 8
  if n < 64 then s.raise k n 1 (chanUnit i) else s

/-- The signal of a delivery that the target's MU makes, which its shadows have from the forward stream (R214, R222, R229, R298). -/
def State.deliverSignal (s : State) (k i : Nat) : State :=
  let n := (s.site k).cfg (chanUnit i) 56 8
  if n < 64 then (s.chanSignal k i).forward k (.raise n 1 (chanUnit i)) else s

/-! ## Combining queues (R221 to R223) -/

/-- Add A64 elements into a slice (R117). -/
def addA64 (m : List Host.Cell) (a : Nat) : List Byte → Nat → List Host.Cell
  | _, 0 => m
  | bs, n + 1 =>
    let v := ofLe (memReadN m a 8) + ofLe (bs.take 8)
    addA64 (memWriteN m a (leBytes 8 v)) (a + 8) (bs.drop 8) n

/-- The record of a final tag (R122): the working side of its chunk's anchor entry, and the span flag of the step (R37). -/
def State.recordTag (s : State) (p : Nat) (t : A64Tag) : State :=
  match s.job p with
  | none => s
  | some j => (s.setAnchor p t.chunk (anchorRecord (Tbl.get 0 j.anchors t.chunk) t.maxExp t.span)).modJob p fun j =>
      { j with spanSeen := j.spanSeen || t.span }

/-- A round is complete (R222, R122): the merged tag with `COUNT` set, the signal, the delivery, and the record of the final tag in
the working side of the chunk's anchor entry. A `COUNT` above 2^22 is a fault (R118). -/
def State.cqDeliver (s : State) (k i : Nat) : State :=
  let x := s.site k
  let u := chanUnit i
  let n := x.cfg u 104 23
  let t := { ((x.combq (x.cfg u 35 3)).tag.getD {}) with count := n }
  if 4194304 < n then s.configFault k u 5 0x0205
  else
    let s := s.modSite k fun x =>
      let x := x.modCombq (x.cfg u 35 3) fun q => { q with tag := some t, armed := false }
      let x := x.modChan i fun c => { c with delivered := true }
      { x with seq := x.seq.addPending i 0 s.now }
    let s := (List.range (x.ringLines i)).foldl (fun s l => s.putTag k (x.ringBase i + 64 * l) (some t)) s
    let s := s.recordTag (s.partField k) t
    s.deliverSignal k i

/-- A contribution reaches its queue (R222, R223): one that would take the round past its count waits, and all behind it; another
chunk or anchor is a fault (R118); else its elements are added and its tag merged. The first of a round opens it on a zero
accumulator. -/
def State.cqArrive (s : State) (k : Nat) (p : Packet) : State :=
  let i := p.arg.toNat % 32
  let u := chanUnit i
  let x := s.site k
  let qi := x.cfg u 35 3
  let q := x.combq qi
  let need := x.cfg u 104 23 * 8 * x.ringLines i
  let e := (p.payload.length - 16) / 8
  let t := wordTag (num p.payload 0 8)
  let off := num p.payload 8 4
  if ¬ q.waiting.isEmpty ∨ ¬ q.armed ∨ need < q.added + e * t.count then
    s.modSite k fun x => x.modCombq qi fun q => { q with waiting := q.waiting ++ [p] }
  else if (match q.tag with
      | some t' => t'.chunk != t.chunk || t'.anchor != t.anchor
      | none => false) then s.configFault k u 5 0x0205
  else
    let s := if q.tag.isNone then s.sliceWrite k (x.ringBase i) (List.replicate (64 * x.ringLines i) 0) else s
    let s := s.eccRange k (x.ringBase i + off) (8 * e) true
    let old := memReadN (s.site k).mu.slice (x.ringBase i + off) (8 * e)
    let new := addA64 ((old.zipIdx).foldl (fun m b => memWrite m b.2 b.1) []) 0 (p.payload.drop 16) e
    let s := s.sliceWrite k (x.ringBase i + off) (memReadN new 0 (8 * e))
    let t := match q.tag with
      | some t' => tagMerge t' t
      | none => t
    let s := (s.modSite k fun x => x.modCombq qi fun q => { q with tag := some t, added := q.added + e * (wordTag (num p.payload 0 8)).count }).reply
      p .ok
    if ((s.site k).combq qi).added = need then s.cqDeliver k i else s

/-- A combining queue rearms (R223): zero accumulator, no tag, and the waiting contributions come again in order. -/
def State.cqRearm (s : State) (k i : Nat) : State :=
  let x := s.site k
  let qi := x.cfg (chanUnit i) 35 3
  let ws := (x.combq qi).waiting
  let s := s.sliceWrite k (x.ringBase i) (List.replicate (64 * x.ringLines i) 0)
  let s := s.modSite k fun x => (x.modCombq qi fun _ => {}).modChan i fun c => { c with delivered := false }
  ws.foldl (fun s p => s.cqArrive k p) s

/-- `CONTRIBUTION_RECEIVE` (R222, R223, R230). -/
def execContributionReceive (t : Nat) (pkt : Packet) (s : State) : Out :=
  let s := s.adv t
  .next <| s.arrive pkt fun k s =>
    if pkt.kind = .contrib ∧ (s.site k).cfg (chanUnit (pkt.arg.toNat % 32)) 0 2 = 3 then s.cqArrive k pkt else s

/-! ## Completion of a message (R219, R223, R226, R227) -/

/-- The lines that a held ring message and its pad occupy. -/
def heldLines (size rptr n : Nat) : List Nat := (List.range n).map fun j => (rptr + j) % max 1 size

/-- The credit packet that returns lines to a sender (R219, R225); `ECE` answers a marked deposit since the last one (R361). -/
def State.creditBack (s : State) (k i n : Nat) (m : Msg) : State :=
  s.inject
    { destDev := m.srcDev, destKind := .tile, destIdx := m.srcTile, srcDev := s.hub.devId, srcKind := .tile, srcIdx := s.tileAt k,
      kind := .credit, cls := 1, ece := ((s.site k).chan i).marked, srcPart := s.partField k % 16, arg := BitVec.ofNat 32 i, addr := n } |>.modSite k
    fun x => x.modChan i fun c => { c with marked := false }

/-- `X.DONE` or `X.RELEASE` completes the message held on a channel. -/
def State.completeMsg (s : State) (k i : Nat) : State :=
  let x := s.site k
  let c := x.chan i
  match c.cur with
  | none => s
  | some m =>
    let s := s.modSite k fun x => x.modChan i fun c => { c with cur := none, curLines := 0, curAddr := 0 }
    if m.kind = 3 then if x.st = .vigil then s else s.cqRearm k i
    else if x.st = .vigil then s.chanSignal k i
    else if m.spilled then
      let s := s.modSite k fun x =>
        { x with spill := ((x.spill.map fun e =>
            if e.msg.chan = i ∧ e.staged then { e with done := true } else e).dropWhile fun e => e.done) }
      s.chanSignal k i
    else
      let size := x.ringLines i
      let gone := heldLines size c.rxRptr c.curLines
      let s := s.modSite k fun x => x.modChan i fun c' =>
        { c' with present := c'.present.filter fun l => !gone.contains l
                  rxRptr := (c.rxRptr + c.curLines + c.moved) % max 1 size, moved := 0 }
      (s.creditBack k i c.curLines m).chanSignal k i

/-! ## Dispatch (R203, R204) -/

/-- `HANDLER_DISPATCH` (R203, R204, R226, R229): the oldest pending message of a channel that dispatches starts its handler, when no
handler runs. -/
def execHandlerDispatch (t site : Nat) (s : State) : Out :=
  let s := s.adv t
  .next <|
    let x := s.site site
    let q := x.seq
    if s.siteWorks site seqUnit ∧ s.mayRun site seqUnit ∧ ¬ q.halted ∧ ¬ q.hand.live then
      match x.nextHandler with
      | none => s
      | some i =>
        match s.takeMsg site i with
        | none => s
        | some (r, s) =>
          let sp := 0x100000 + x.cfg (chanUnit i) 64 20 + x.cfg (chanUnit i) 84 20
          let rs : Tbl (BitVec 32) := [(2, sp), (10, 0x100000 + r.addr), (11, r.msg.payload.length), (12, i), (13, r.a3), (14, r.a4)].foldl
            (fun t e => Tbl.set 0 e.1 (BitVec.ofNat 32 e.2) t) []
          let pc := BitVec.ofNat 32 (0x1BA000 + x.cfg (chanUnit i) 40 14)
          (s.modSeq site fun q => { q with ctx := i + 1, hand := { regs := rs, pc, live := true }, fast := false }).lentExit (keyRegion site)
    else s

/-! ## Credits and spills (R219, R225, R227) -/

/-- `CHANNEL_CREDIT_RECEIVE` (R219): a return past `TX_LINES` is a `CREDIT_OVERRUN`. -/
def execChannelCreditReceive (t site slot lines : Nat) (s : State) : Out :=
  let s := s.adv t
  .next <|
    let x := s.site site
    let c := x.chan slot
    if (s.router (routerOf site)).down then s.rtrCount (routerOf site) 4
    else if slot < 32 ∧ x.st = .tile ∧ x.cfg (chanUnit slot) 128 2 = 1 then
      if x.cfg (chanUnit slot) 176 11 < c.txCredits + lines then s.configFault site (chanUnit slot) 3 0x0203
      else s.modSite site fun x => x.modChan slot fun c => { c with txCredits := c.txCredits + lines }
    else s

/-- The message that a send of a payload on a port makes (R217). -/
def State.sendMsg (s : State) (k slot : Nat) (payload : List Byte) : Msg :=
  let x := s.site k
  { kind := if x.cfg (chanUnit slot) 129 1 = 1 then 3 else 1, lines := (16 + payload.length + 63) / 64, srcTile := s.tileAt k,
    seq := (x.chan slot).txSeq, srcDev := s.hub.devId, utag := x.seq.utag.setWidth 16, payload }

/-- A packet of a send port (R218, R351): its payload is the bytes that `LEN` counts; the whole 16-byte units that carry them are not part of
the model's packet (DEDUCED, log 102). -/
def State.portPacket (s : State) (k slot : Nat) (kind : PKind) (addr : Nat) (bs : List Byte) : Txn :=
  let x := s.site k
  let u := chanUnit slot
  { part := s.partField k, site := k, slot,
    pkt :=
      { destDev := x.cfg u 136 16, destKind := .tile, destIdx := x.cfg u 152 13, srcKind := .tile, srcIdx := s.tileAt k, kind, cls := 2,
        srcPart := s.partField k % 16, arg := BitVec.ofNat 32 (x.cfg u 168 5), addr, payload := bs } }

/-- The pool that a send port's packets take their tags from (R367). -/
def State.portPool (s : State) (k slot : Nat) : Nat :=
  let dev := (s.site k).cfg (chanUnit slot) 136 16
  if dev = s.hub.devId then tileDie (s.tileAt k) else s.exitDie 2 dev

/-- The lines of the pad before a message of `n` lines (R218). -/
def ChanSt.padLines (c : ChanSt) (tl n : Nat) : Nat := if c.txWptr + n ≤ tl then 0 else tl - c.txWptr

/-- The context that waits in a send on a port: its bank, the wait and the word of the send (R203, R225). -/
def Site.stalled (x : Site) (slot : Nat) : Option (Bank × Wait × Nat) :=
  [x.seq.hand, x.seq.main].findSome? fun b => match b.live, b.wait, x.fetchAt b.pc.toNat with
    | true, some w, .word ins _ => if w.kind = .send ∧ w.arg = slot then some (b, w, ins) else none
    | _, _, _ => none

/-- The pieces of at most 512 bytes of a message's lines, with their ring lines (R351). -/
def depositChunks (line : Nat) (bs : List Byte) : Nat → List (Nat × List Byte)
  | 0 => []
  | n + 1 => (line, bs.take 512) :: (if 512 < bs.length then depositChunks (line + 8) (bs.drop 512) n else [])

/-- `SEND_STALL_EXPIRE` (R225 item 1): a send that has waited `STALL_US` for credits that are still short, with every earlier line
acknowledged, goes out as a spill deposit, in packets of at most 512 bytes with their line of the message in `ADDR` (R351; DEDUCED, log 51). The main context's send stalls under a running handler too. -/
def execSendStallExpire (t site slot : Nat) (s : State) : Out :=
  let s := s.adv t
  .next <|
    let x := s.site site
    let c := x.chan slot
    let u := chanUnit slot
    let us := if x.cfg u 192 16 = 0 then 100 else x.cfg u 192 16
    let tl := x.cfg u 176 11
    match x.stalled slot with
    | some (b, w, ins) =>
      let r1 := (b.reg (bitsN ins 15 5)).toNat
      let m := s.sendMsg site slot (x.seqBytes (b.reg (bitsN ins 20 5)).toNat (bitsN r1 16 16))
      if s.siteWorks site seqUnit ∧ s.mayRun site seqUnit ∧ ¬ x.seq.halted ∧ c.txWait ∧ ¬ c.txSpill ∧ c.txUnacked = 0 ∧ tl ≠ 0 ∧
          c.txCredits < c.padLines tl m.lines + m.lines ∧ w.since + us * ftUs ≤ s.now then
        let chunks := depositChunks 0 (hdrBytes m true ++ m.payload) (m.payload.length / 512 + 2)
        match s.requests (s.portPool site slot) (chunks.map fun e => s.portPacket site slot .deposit e.1 e.2) with
        | none => s
        | some s => s.modSite site fun x =>
            let x := x.modChan slot fun c => { c with txSpill := true, txUnacked := c.txUnacked + chunks.length }
            { x with seq := { x.seq with unacked := x.seq.unacked + chunks.length } }
      else s
    | none => s

/-- A spill deposit whose packets have all come, as one string of bytes (R225, R351). -/
def spillWhole (t : Tbl (List Byte)) : Option (List Byte) :=
  let bs := t.flatMap (·.2)
  match t with
  | (0, h) :: _ => if bs.length = 16 + num h 4 2 then some bs else none
  | _ => none

/-- `SPILL_DEPOSIT_RECEIVE` (R225 items 2 and 3, R227, R351): with the last packet of a spill deposit, the channel's undispatched messages and the stalled one move to the end of the
spill ring and the moved lines go back as credits; an append that does not fit is a `DEADLOCK_FATAL`. -/
def execSpillDepositReceive (t : Nat) (pkt : Packet) (s : State) : Out :=
  let s := s.adv t
  .next <| s.arrive pkt fun k s =>
    let i := pkt.arg.toNat % 32
    let x := s.site k
    let size := x.ringLines i
    let recs := x.ringUndispatched i
    let moved := (recs.map fun r => r.1 + r.2.2).sum
    let parts := Tbl.put pkt.addr pkt.payload (x.chan i).spillIn
    let last := msgOf ((spillWhole parts).getD [])
    let ents : List SpillEnt := (recs.map fun r =>
        { msg := { msgOf (x.ringBytes i r.2.1 (64 * r.2.2)) with chan := i, spilled := false }, pads := r.1, bytes := 64 * (r.1 + r.2.2) }) ++
      [{ msg := { last with chan := i, spilled := false }, bytes := 64 * last.lines }]
    let log2 := (s.chanRec k).spillLog2
    let cap := 2 ^ (if log2 = 0 then 20 else log2)
    if pkt.kind ≠ .deposit ∨ x.cfg (chanUnit i) 0 2 ≠ 1 then s
    else if (spillWhole parts).isNone then
      (s.modSite k fun x => x.modChan i fun c => { c with spillIn := parts, marked := c.marked || pkt.ce }).reply pkt .ok
    else if cap < (x.spill.map fun e => e.bytes).sum + (ents.map fun e => e.bytes).sum then
      let p := s.partField k
      let s := (s.event 0x0202 p [(16, s.tileAt k), (8, i)]).report 0x0108 2 p (s.tileAt k + 8192 * i) []
      s.hang p 0x0108 7 (siteId k)
    else
      let c := x.chan i
      let gone := heldLines size ((c.rxRptr + c.curLines + c.moved) % max 1 size) moved
      let s := s.modSite k fun x =>
        let x := x.modChan i fun c =>
          { c with spillIn := [], marked := c.marked || pkt.ce, present := c.present.filter fun l => !gone.contains l
                   rxRptr := if c.curLines = 0 then (c.rxRptr + moved) % max 1 size else c.rxRptr
                   moved := if c.curLines = 0 then 0 else c.moved + moved }
        { x with spill := x.spill ++ ents, seq := x.seq.addPending i last.seq s.now }
      (s.creditBack k i moved last).reply pkt .ok

end Sys2Proof.Machine
end

