-- ==== Sys2Proof/Machine/Links.lean ====
section
/-! DEFINITION. The Lantern ports: training, lane failures, the link layer, control flits and keys (11 R333 to R349; 17 R537). -/

namespace Sys2Proof.Machine

/-! ## Lane maps (R334) -/

/-- The good lanes of L0 to L7. -/
def goodLanes (failed : BitVec 9) : List Nat := (List.range 8).filter fun i => !bitAt failed i

/-- The lowest failed lane of L0 to L7. -/
def lowestFailed (failed : BitVec 9) : Option Nat := (List.range 8).find? fun i => bitAt failed i

/-- The lane map of R334: LS (8) takes the place of the lowest failed lane when it is good. -/
def laneMap (failed : BitVec 9) : List Nat :=
  (List.range 8).filterMap fun i =>
    if ¬ bitAt failed i then some i
    else if lowestFailed failed = some i ∧ ¬ bitAt failed 8 then some 8 else none

/-- `SUB` of a lane map (R369). -/
def laneSub (failed : BitVec 9) : Nat :=
  match lowestFailed failed with
  | some i => if bitAt failed 8 then 0xF else i
  | none => 0xF

/-- Set a bit of the failed-lane mask. -/
def failLane (f : BitVec 9) (i : Nat) : BitVec 9 := f ||| (1#9 <<< i)

/-! ## Sending -/

/-- Whether a port awaits the acknowledgement of an operation. -/
def Port.awaits (x : Port) (code : Nat) : Bool := x.ctlPend.any fun e => ctlCode e.1 == code

/-- Send a control flit and keep it until its acknowledgement (R347). -/
def State.sendCtl (s : State) (i : Nat) (op : CtlOp) : State :=
  (s.modPort i fun x => { x with ctlPend := (x.ctlPend.filter fun e => ctlCode e.1 != ctlCode op) ++ [(op, s.now, s.now)] }).sendFlit i (.control op)

/-- A control flit of an operation arrives: it acknowledges the one awaited, else it is answered (R347). -/
def State.ctlAnswer (s : State) (i : Nat) (op : CtlOp) : State :=
  if (s.port i).awaits (ctlCode op) then s.modPort i fun x => { x with ctlPend := x.ctlPend.filter fun e => ctlCode e.1 != ctlCode op }
  else s.sendFlit i (.control op)

/-- Units that a port's receive buffer holds of a class: under reserved credits of a VC, or under shared ones (R346). -/
def Port.rxUnits (x : Port) (cls : Nat) (vc : Option Nat) : Nat :=
  ((x.rxHeld.filter fun r => r.pkt.cls == cls && r.shared == vc.isNone && (vc == none || vc == some (r.pkt.hops - 1))).map fun r => pktUnits r.pkt).sum

/-- The `INIT` flit of a port (R336): the credit pools that it grants are what its receive buffer has free (DESIGN CHOICE, log 110). -/
def State.initOp (s : State) (i : Nat) : CtlOp :=
  let x := s.port i
  .init s.hub.devId i ((List.range 32).map fun n => 64 - x.rxUnits (n / 8) (some (n % 8))) ((List.range 4).map fun c => 7680 - x.rxUnits c none)
    (x.slotNow s.now) x.keySelTx (x.rxSeq - 1)

/-! ## Retry (R345) -/

/-- Serial-number comparison of `LSEQ` values (R331): `a` is at or before `b`. -/
def seqLe (a b : BitVec 16) : Bool := decide ((b - a).toNat < 32768)

/-- Take an acknowledgement: flits up to it leave the retry buffer, and what waits may go. -/
def State.takeAck (s : State) (i : Nat) (ack : BitVec 16) : State :=
  let x := s.port i
  let rest := x.retry.filter fun r => !seqLe r.seq ack
  if rest.length = x.retry.length then s
  else ((s.modPort i fun x => { x with retry := rest, resends := 0, retrained := false }).retire).pump i

/-- Send the unacknowledged flits again, in order; each is a data flit sent (R371). -/
def State.resendAll (s : State) (i : Nat) : State :=
  let s1 := (s.port i).retry.foldl (fun s r =>
    let (c, o) := ctrAdd (s.port i).ctr.flitsTx 1
    ((s.modPort i fun x => { x with ctr := { x.ctr with flitsTx := c } }).sendWire i r.seq (.data r.pkts) r.shared).ovfIf o (0x18000000 + i) 0) s
  s1.modPort i fun x => { x with retry := x.retry.map fun r => { r with ft := s.now } }

/-- A go-back-N resend (R345). A flit resent 16 times without progress takes the port through a retrain instead; where the last retrain came of
that too and nothing has been acknowledged since, the port goes DOWN with cause 2 (R369; DEDUCED, log 161). -/
def State.goBack (s : State) (i : Nat) : State :=
  let x := s.port i
  match x.retry with
  | [] => s
  | r :: _ =>
    if 16 ≤ x.resends then
      let s := s.report 0x0508 3 0xFF (lanternUnit i 15) [(8, 1), (16, r.seq.toNat)]
      if x.retrained then s.portDown i 2 else (s.trainStart i).modPort i fun x => { x with retrained := true }
    else
      let (c, o) := ctrAdd x.ctr.retries 1
      ((s.modPort i fun x => { x with ctr := { x.ctr with retries := c }, resends := x.resends + 1 }).ovfIf o (0x18000000 + i) 5).resendAll i

/-- `NAK_RECEIVE` (R345): the flits after `ACK` are sent again. -/
def execNakReceive (t port : Nat) (ack : BitVec 16) (s : State) : Out :=
  let s := s.adv t
  .next <| if (s.port port).st = .up ∧ (s.port port).swap = none then (s.takeAck port ack).goBack port else s

/-- `RETRY_ACK_TIMEOUT` (R345): the oldest unacknowledged flit is 2 µs old. -/
def execRetryAckTimeout (t port : Nat) (s : State) : Out :=
  let s := s.adv t
  .next <|
    let x := s.port port
    match x.retry with
    | r :: _ => if x.st = .up ∧ x.swap = none ∧ r.ft + 2 * ftUs ≤ s.now then s.goBack port else s
    | [] => s

/-! ## Training (R336 to R338) -/

/-- The lanes that have neither locked nor failed. -/
def Port.unlocked (x : Port) : List Nat := (List.range 9).filter fun i => !bitAt x.locked i && !bitAt x.failed i

/-- Enter the BER gate once every lane has locked or failed. -/
def State.tryGate (s : State) (i : Nat) : State :=
  let x := s.port i
  if x.st = .training ∧ x.unlocked.isEmpty then s.modPort i fun x => { x with st := .gate, trainStep := 3 } else s

/-- The width that both ends' minimums ask for (R335). -/
def Port.needWidth (x : Port) : Nat := max x.minWidth x.peerMin

/-- Steps 4 to 6 of R336, once the partner's map and minimum width have come: the lane map in force uses the lanes good at both ends; below the larger
minimum the port goes DOWN, else it sends `INIT`. -/
def State.mapForm (s : State) (i : Nat) (lanes : BitVec 9) (mw : Nat) : State :=
  let x := s.port i
  let f := x.failed ||| ~~~lanes
  let s := s.modPort i fun x =>
    { x with failed := f, lanes := laneMap f, sub := laneSub f, lsOk := !bitAt f 8, peerMin := mw, trainStep := 6 }
  if (laneMap f).length < (s.port i).needWidth then s.portDown i 1
  else
    let s := s.slotMark i
    s.sendCtl i (s.initOp i)

/-- `PORT_TRAIN` (R336, R338): a port starts to train, or goes on: with the lanes that have locked in steps 1 and 2, and in step 4 with the map of good
lanes and the `MIN_WIDTH` of the partner. A port that the configuration block disables stays OFF. -/
def execPortTrain (t port : Nat) (mask : TrainMap) (s : State) : Out :=
  let s := s.adv t
  .next <|
    let x := s.port port
    if 24 ≤ port ∨ ¬ x.enabled ∨ s.hub.inReset then s
    else if x.st = .gate then
      match mask.peer with
      | some (lanes, mw) => if 4 ≤ x.trainStep then s.mapForm port lanes mw else s
      | none => s
    else
      let s := if x.st = .training then s else s.trainStart port
      (s.modPort port fun x => { x with locked := x.locked ||| (mask.mask &&& ~~~x.failed), trainStep := 2 }).tryGate port

/-- `LANE_LOCK_TIMEOUT` (R336): a lane that has not locked within 100 ms is failed. -/
def execLaneLockTimeout (t port lane : Nat) (s : State) : Out :=
  let s := s.adv t
  .next <|
    let x := s.port port
    if x.st = .training ∧ lane < 9 ∧ ¬ bitAt x.locked lane then
      (s.modPort port fun x => { x with failed := failLane x.failed lane }).tryGate port
    else s

/-- `BER_GATE_END` (R337): `errors` are the nine measured ratios × 10^9; a lane above 2 × 10^-5 is failed and recorded. The port then
tells its partner its good lanes and its `MIN_WIDTH` (R336 step 4). -/
def execBerGateEnd (t port : Nat) (errors : List Nat) (s : State) : Out :=
  let s := s.adv t
  .next <|
    let x := s.port port
    if x.st = .gate ∧ x.trainStep = 3 then
      let bad := (List.range 9).filter fun i => bitAt x.locked i && decide (20000 < errors.getD i 0)
      let s := bad.foldl (fun s i => (s.modPort port fun x => { x with failed := failLane x.failed i }).report 0x0505 3 0xFF
        (lanternUnit port i) [(8, i), (24, 0), (32, errors.getD i 0)]) s
      let s := s.modPort port fun x => { x with trainStep := 4, lsOk := !bitAt x.failed 8 }
      s.emit (.linkMap port (~~~(s.port port).failed) (s.port port).minWidth)
    else s

/-- `TRAINING_ABANDON` (R337, R369): no answer of the partner for 2 s. -/
def execTrainingAbandon (t port : Nat) (s : State) : Out :=
  let s := s.adv t
  .next <|
    let x := s.port port
    if x.st = .training ∨ x.st = .gate then s.portDown port 6 else s

/-- A port enters UP (R336), and a `PORT_RETRAIN` that waits for it completes. Its training gave the port's asymmetry correction α, a measured value
(R270, log 105). -/
def State.portUp (s : State) (i : Nat) : State :=
  let x := s.port i
  let (a, s) := s.draw 32
  let s := { s with time := { s.time with ports := Tbl.set {} i { (Tbl.get {} s.time.ports i : PortTime) with alpha := bitsZ a.toNat 0 32 } s.time.ports } }
  let s := s.modPort i fun x => { x with st := .up, trainStep := 7, resends := 0, waiter := [] }
  (x.waiter.foldl (fun (s : State) mb => s.finish mb stOk) s).mirrorGo

/-! ## Lane failure in service (R339 to R341) -/

/-- Whether the loss of a mapped lane is met by LS (R340) and not by narrowing (R341). -/
def Port.canSwap (x : Port) (lane : Nat) : Bool := x.lsOk && x.sub == 0xF && lane != 8

/-- Both ends stop data and exchange swap ordered sets; below the minimum width the port goes DOWN without the lane (R340, R341). `since` is the FT of
the detection (R372). -/
def State.swapBegin (s : State) (i lane since : Nat) (planned : Bool) : State :=
  let x := s.port i
  let s := s.emit (.swapSet i lane)
  if ¬ x.canSwap lane ∧ x.lanes.length - 1 < x.needWidth then
    (s.modPort i fun x => { x with lanes := x.lanes.filter fun l => l != lane, failed := failLane x.failed lane, lsOk := x.lsOk && lane != 8 }).portDown i 1
  else s.modPort i fun x => { x with swap := some (lane, since, planned), swapInit := false, swapAck := none }

/-- The end of a swap or narrowing, once both ends have sent `INIT` (R340, R341): below the larger minimum width the port goes DOWN (R335); another lane
that has failed meanwhile begins the next one; else data resumes from the first flit that the partner has not acknowledged. -/
def State.swapEnd (s : State) (i : Nat) : State :=
  let x := s.port i
  match x.swap, x.swapAck with
  | some (lane, since, planned), some ack =>
    if ¬ x.swapInit then s
    else
      let us := (s.now - since) / ftUs
      let s := if x.sub = lane then s.report 0x0502 3 0xFF (lanternUnit i lane) [(8, lane), (8, b1 planned), (16, 0), (32, us)]
        else s.report 0x0503 3 0xFF (lanternUnit i lane) [(8, lane), (8, x.lanes.length), (16, 0), (32, us)]
      let s := s.modPort i fun x => { x with swap := none, swapInit := false, swapAck := none, swapNext := x.swapNext.drop 1 }
      if x.lanes.length < x.needWidth then s.portDown i 1
      else match x.swapNext with
        | l :: _ => s.swapBegin i l s.now false
        | [] => ((s.takeAck i ack).resendAll i).pump i
  | _, _ => s

/-- `INIT_FLIT_RECEIVE` (R336, R340, R346, R349): in training step 6 the port takes the partner's values and goes UP; in service it carries the last
`ACK` of a swap. -/
def execInitFlitReceive (t port : Nat) (op : CtlOp) (s : State) : Out :=
  let s := s.adv t
  .next <|
    match op with
    | .init dev pport res shared slot keySel ack =>
      let x := s.port port
      if x.st = .gate ∧ x.trainStep = 6 then
        let s := s.ctlAnswer port op
        (s.modPort port fun x =>
          { x with partnerDev := dev, partnerPort := pport, slotRx := max x.slotRx slot, keySelRx := keySel
                   usedRes := (List.range 32).foldl (fun t n => Tbl.set 0 n (64 - res.getD n 64) t) []
                   usedShared := (List.range 4).foldl (fun t c => Tbl.set 0 c (7680 - shared.getD c 7680) t) [] }).portUp port
      else if x.st = .up then
        let s := s.modPort port fun x => { x with slotRx := max x.slotRx slot }
        let s := if x.awaits 1 then s.modPort port fun x => { x with ctlPend := x.ctlPend.filter fun e => ctlCode e.1 != 1 }
          else if x.swap.isSome then s else s.sendFlit port (.control (s.initOp port))
        if x.swap.isSome then (s.modPort port fun x => { x with swapAck := some ack }).swapEnd port else s.takeAck port ack
      else s
    | _ => s

/-- `RETRAIN_REQUEST_RECEIVE` (R347). -/
def execRetrainRequestReceive (t port : Nat) (s : State) : Out :=
  let s := s.adv t
  .next <|
    let x := s.port port
    if x.st = .up ∨ x.st = .down then (s.ctlAnswer port .retrain).trainStart port
    else if x.awaits 3 then s.modPort port fun x => { x with ctlPend := x.ctlPend.filter fun e => ctlCode e.1 != 3 }
    else s

/-! ## Swaps and narrowing (R339 to R341, R347) -/

/-- A mapped lane is to be swapped or removed: at once, or after the swap that runs (R339). -/
def State.swapAlso (s : State) (i lane since : Nat) (planned : Bool) : State :=
  match (s.port i).swap with
  | none => s.swapBegin i lane since planned
  | some (l, _, _) =>
    if l = lane ∨ (s.port i).swapNext.contains lane then s
    else (s.emit (.swapSet i lane)).modPort i fun x => { x with swapNext := x.swapNext ++ [lane] }

/-- `LANE_FAIL` (R339): the record, with the measured error ratio × 10^9; an unused LS only loses `LS_OK`; a slow degradation with LS good is a
planned swap (R347). A lane may fail while another is swapped. -/
def execLaneFail (t port lane : Nat) (cause : LaneFault) (s : State) : Out :=
  let s := s.adv t
  .next <|
    let x := s.port port
    if x.st = .up ∧ (lane ∈ x.lanes ∨ (lane = 8 ∧ x.lsOk)) then
      let s := s.report 0x0501 3 0xFF (lanternUnit port lane) [(8, cause.cause), (8, lane), (16, 0), (32, cause.ratio)]
      if lane ∉ x.lanes then s.modPort port fun x => { x with lsOk := false, failed := failLane x.failed 8 }
      else if cause.cause = 3 ∧ x.canSwap lane ∧ x.swap = none then s.sendCtl port (.swapPlan lane)
      else s.swapAlso port lane s.now false
    else s

/-- FT at which an own planned swap was detected: that of its first `SWAP_PLAN`, now for a partner's (R372). -/
def Port.planFt (x : Port) (now : Nat) : Nat := ((x.ctlPend.find? fun e => ctlCode e.1 == 4).map fun e => e.2.1).getD now

/-- `SWAP_ORDERED_SET_RECEIVE` (R340, R341): the partner's set is answered; the answer to an own set needs none. -/
def execSwapOrderedSetReceive (t port lane : Nat) (s : State) : Out :=
  let s := s.adv t
  .next <|
    let x := s.port port
    if x.st = .up ∧ lane ∈ x.lanes then s.swapAlso port lane (x.planFt s.now) (x.awaits 4) else s

/-- `SWAP_PLAN_RECEIVE` (R339, R347): both ends swap. -/
def execSwapPlanReceive (t port lane : Nat) (s : State) : Out :=
  let s := s.adv t
  .next <|
    let x := s.port port
    if x.st = .up ∧ x.swap = none ∧ lane ∈ x.lanes then (s.ctlAnswer port (.swapPlan lane)).swapBegin port lane (x.planFt s.now) true else s

/-- `LANE_SWAP_RESUME` (R340, R341, R369): LS is locked and deskewed, or the lane removed: the lane map changes and `INIT` goes to the partner. Data
resumes once the partner's has come too. -/
def execLaneSwapResume (t port : Nat) (s : State) : Out :=
  let s := s.adv t
  .next <|
    let x := s.port port
    match x.swap with
    | none => s
    | some (lane, _, _) =>
      if x.swapInit then s
      else
        let sw := x.canSwap lane
        let s := s.slotMark port
        let s := s.modPort port fun x =>
          { x with sub := if sw then lane else if lane = 8 then 0xF else x.sub, swapInit := true, ctlPend := x.ctlPend.filter fun e => ctlCode e.1 != 4
                   lanes := if sw then x.lanes.map fun l => if l = lane then 8 else l else x.lanes.filter fun l => l != lane
                   failed := failLane x.failed lane, lsOk := x.lsOk && lane != 8 }
        (s.sendCtl port (s.initOp port)).swapEnd port

/-! ## Flits (R343 to R346, R348, R349) -/

/-- A tag failure (R349): counted and recorded, with direction 1 where the partner used another key slot than the one agreed (R372; DEDUCED, log 162);
sixty-four within a second take the port DOWN. -/
def State.authFail (s : State) (i : Nat) (keySel : Bool) : State :=
  let x := s.port i
  let recent := (s.now :: x.authFails).filter fun f => decide (s.now < f + ftSec)
  let (c, o) := ctrAdd x.ctr.authFail 1
  let s := (s.modPort i fun x => { x with authFails := recent, ctr := { x.ctr with authFail := c } }).ovfIf o (0x18000000 + i) 6
  let s := s.report 0x0509 3 0xFF (lanternUnit i 15) [(8, b1 (keySel != x.keySelRx)), (8, b1 keySel), (48, 0), (64, x.slotRx)]
  if 64 ≤ recent.length then s.portDown i 3 else s

/-- A flit is lost (R345, R348): a time flit is only counted; else one NAK goes out. -/
def State.flitLost (s : State) (i : Nat) (time : Bool) : State :=
  let x := s.port i
  if time then
    let (c, o) := ctrAdd x.ctr.timeDrop 1
    (s.modPort i fun x => { x with ctr := { x.ctr with timeDrop := c } }).ovfIf o (0x18000000 + i) 7
  else if x.nakSent ∨ x.st ≠ .up then s
  else (s.modPort i fun x => { x with nakSent := true }).sendFlit i .nak

/-- Credits that a flit returns (R346): past a pool's size they are a protocol fault. -/
def State.creditsBack (s : State) (i : Nat) (f : FlitHead) : State :=
  f.credits.foldl (fun s c =>
    let (cls, vc, shared, n) := c
    let x := s.port i
    let used := if shared then Tbl.get 0 x.usedShared cls else Tbl.get 0 x.usedRes (8 * cls + vc)
    if x.st ≠ .up then s
    else if used < n then (s.report 0x0508 3 0xFF (lanternUnit i 15) [(8, 2), (16, f.lseq.toNat)]).trainStart i
    else (s.modPort i fun x =>
      if shared then { x with usedShared := Tbl.set 0 cls (used - n) x.usedShared }
      else { x with usedRes := Tbl.set 0 (8 * cls + vc) (used - n) x.usedRes }).pump i) s

/-- The counters that a received codeword moves: symbol errors per lane, codewords corrected (R371). -/
def State.countSymbols (s : State) (i : Nat) (f : RxFlit) : State :=
  let s := f.symErr.foldl (fun s l =>
    let (c, o) := ctrAdd (Tbl.get {} (s.port i).ctr.symErr l) 1
    (s.modPort i fun x => { x with ctr := { x.ctr with symErr := Tbl.set {} l c x.ctr.symErr } }).ovfIf o (0x18000000 + i) (8 + l)) s
  if f.corrected then
    let (c, o) := ctrAdd (s.port i).ctr.fecCorr 1
    (s.modPort i fun x => { x with ctr := { x.ctr with fecCorr := c } }).ovfIf o (0x18000000 + i) 2
  else s

/-- A packet enters the receive buffer, one link further on (R346, R357), under the kind of credits it travelled on (DESIGN CHOICE, log 110). One that
names a free version is routed by the other, and counted (R358). -/
def State.rxTake (s : State) (i : Nat) (p : Packet) (shared : Bool) : State :=
  let stale := s.verFree p.epoch
  let s := if stale then s.rtrCount (552 * portDie i) 5 else s
  s.modPort i fun x => { x with rxHeld := x.rxHeld ++ [{ pkt := { p with hops := p.hops + 1 }, shared, ver := p.epoch != stale }] }

/-- A data flit out of order whose `LSEQ` is not one that the partner may send again is outside the window (R345, R372; DEDUCED, log 110): the 1,024
flits of a retry buffer end at the one before the next in order, or follow it. -/
def outsideWindow (next lseq : BitVec 16) : Bool := decide (1024 < (lseq - next).toNat) && decide (1024 < (next - lseq).toNat)

/-- What a port does with a delivered flit (R343, R345, R346): its acknowledgement and credits, and, for the data flit next in order, the packets that
it completes, which enter the receive buffer and go on as `PACKET_ROUTE`. An idle flit carries the acknowledgement back. -/
def State.flitGood (s : State) (i : Nat) (h : FlitHead) (body : List Byte) (shared : List Bool) : State :=
  let s := (s.takeAck i h.ack).creditsBack i h
  let x := s.port i
  if h.kind = 2 then (if x.st = .up ∧ x.swap = none then s.goBack i else s)
  else if h.kind = 1 then
    if x.st ≠ .up then s
    else if h.lseq = x.rxSeq then
      let (c, o) := ctrAdd x.ctr.flitsRx 1
      let (ps, rest) := unitStream 20 (streamOf x.rxPart h body)
      let s := (s.modPort i fun x =>
        { x with rxSeq := x.rxSeq + 1, nakSent := false, rxPart := rest, ctr := { x.ctr with flitsRx := c } }).ovfIf o (0x18000000 + i) 1
      (ps.zipIdx.foldl (fun s p => s.rxTake i p.1 (shared.getD p.2 false)) s).sendFlit i .idle
    else
      let s := if outsideWindow x.rxSeq h.lseq then s.report 0x0508 3 0xFF (lanternUnit i 15) [(8, 3), (16, h.lseq.toNat)] else s
      s.flitLost i false
  else s

/-- `FLIT_RECEIVE` (R342 to R344, R349): the flit's slot is counted, with the idle ones before it; a codeword that FEC cannot correct, a `CRC` that does
not match and a tag that does not verify each lose the flit. -/
def execFlitReceive (t port : Nat) (f : RxFlit) (s : State) : Out :=
  let s := s.adv t
  .next <|
    let x := s.port port
    if x.st ∈ [PortSt.off, .down] then s
    else
      let slot := x.slotRx + f.idle
      let s := (s.modPort port fun x => { x with slotRx := slot + 1 }).countSymbols port f
      if ¬ f.fecOk then
        let (c, o) := ctrAdd x.ctr.fecUncorr 1
        let s := (s.modPort port fun x => { x with ctr := { x.ctr with fecUncorr := c } }).ovfIf o (0x18000000 + port) 3
        (s.report 0x0506 3 0xFF (lanternUnit port 15) [(64, c.v)]).flitLost port f.timeSlot
      else if ¬ crcOk f.bytes then
        let (c, o) := ctrAdd x.ctr.crcFail 1
        let s := (s.modPort port fun x => { x with ctr := { x.ctr with crcFail := c } }).ovfIf o (0x18000000 + port) 4
        (s.report 0x0507 3 0xFF (lanternUnit port 15) [(64, c.v)]).flitLost port f.timeSlot
      else
        let h := flitHeadOf f.bytes
        match s.flitBody port slot h f.bytes with
        | none => (s.authFail port h.keySel).flitLost port f.timeSlot
        | some body => s.flitGood port h body f.shared

/-! ## Control flits (R338, R347, R537) -/

/-- `KEY_NEXT_RECEIVE` (R347, R537): the direction's `KEY_SEL` will change at the named slot count. -/
def execKeyNextReceive (t port slot : Nat) (s : State) : Out :=
  let s := s.adv t
  .next <|
    let x := s.port port
    if x.st ≠ .up then s
    else if x.keyNextTx = some slot ∧ x.awaits 2 then s.ctlAnswer port (.keyNext slot)
    else (s.modPort port fun x => { x with keyNextRx := some slot }).sendFlit port (.control (.keyNext slot))

/-- `KEY_SEL_CHANGE` (R347, R537): at the announced slot count the direction takes its other key slot. -/
def execKeySelChange (t port : Nat) (rx : Bool) (s : State) : Out :=
  let s := s.adv t
  .next <|
    let x := s.port port
    if rx then
      match x.keyNextRx with
      | some n => s.modPort port fun x => { x with keySelRx := !x.keySelRx, keyNextRx := none, slotRx := max x.slotRx n }
      | none => s
    else
      match x.keyNextTx with
      | some n => s.modPort port fun x => { x with keySelTx := !x.keySelTx, keyNextTx := none, slotTx := max x.slotTx n }
      | none => s

/-- `DOWN_NOTICE_RECEIVE` (R338): the acknowledgement of an own notice, or the partner's notice; the port goes DOWN with cause 5. -/
def execDownNoticeReceive (t port : Nat) (s : State) : Out :=
  let s := s.adv t
  .next <|
    if (s.port port).st = .up then (s.ctlAnswer port .downNotice).portDown port 5 else s

/-- `MIN_WIDTH_RECEIVE` (R335, R347): also of a port that has told its own value in training and is not UP yet. -/
def execMinWidthReceive (t port w : Nat) (s : State) : Out :=
  let s := s.adv t
  .next <|
    let x := s.port port
    if (x.st = .up ∨ (x.st = .gate ∧ 6 ≤ x.trainStep)) ∧ 4 ≤ w ∧ w ≤ 8 then
      let s := if x.awaits 6 then s.ctlAnswer port (.minWidth w) else s.sendFlit port (.control (.minWidth x.minWidth))
      let s := s.modPort port fun x => { x with peerMin := w }
      if (s.port port).lanes.length < (s.port port).needWidth then s.portDown port 1 else s
    else s

/-- `CONTROL_FLIT_RESEND` (R338, R347): every 1 µs until acknowledged; a forced port goes DOWN 10 µs after its notice. -/
def execControlFlitResend (t port : Nat) (s : State) : Out :=
  let s := s.adv t
  .next <|
    let x := s.port port
    let late := x.ctlPend.any fun e => ctlCode e.1 == 5 && decide (e.2.1 + 10 * ftUs ≤ s.now)
    if x.st ∈ [PortSt.off, .down] then s
    else if late then s.portDown port 5
    else
      let due := fun (e : CtlOp × Nat × Nat) => decide (e.2.2 + ftUs ≤ s.now)
      (x.ctlPend.filter due).foldl (fun s e => s.sendFlit port (.control e.1))
        (s.modPort port fun x => { x with ctlPend := x.ctlPend.map fun e => if due e then (e.1, e.2.1, s.now) else e })

end Sys2Proof.Machine
end

