-- ==== Sys2Proof/Machine/Routing.lean ====
section
/-! DEFINITION. Routers and port dies: versions, intermediates, multicast, in-network combining, and the drained change of a class
(11 R354 to R364, R368). -/

namespace Sys2Proof.Machine

/-- The router whose counters stand for a port die's, the bridge router of column 0. -/
def dieRouter (d : Nat) : Nat := 552 * d

/-- The key of a tree entry: router 0 to 575, or port die 576 + d (R364). -/
def treeKey (ver : Bool) (node tree : Nat) : Nat := (1024 * b1 ver + node) * 256 + tree

/-- The version that routes a packet, and whether the one it names is free (R358). -/
def State.routeVer (s : State) (p : Packet) : Bool × Bool := if s.verFree p.epoch then (!p.epoch, true) else (p.epoch, false)

/-- The choice of an intermediate device (R356): at the source, under `RANDOM_LANTERN` and an intermediate set; at the intermediate the
second leg begins. -/
def State.chooseLeg (s : State) (ver : Bool) (p : Packet) : Packet × State :=
  let own := s.hub.devId
  if p.hops = 0 ∧ p.srcDev = own then
    let e : RouteEnt := Tbl.get {} s.routing.table (65536 * b1 ver + p.destDev)
    let set := Tbl.get [] s.routing.isets (256 * b1 ver + e.iset)
    if (s.rcfg p.cls).randomLantern ∧ e.iset ≠ 0 ∧ ¬ p.minimal ∧ ¬ set.isEmpty then
      let (x, s) := s.draw 16
      let d := set.getD (x.toNat % set.length) own
      if d = own ∨ d = p.destDev then ({ p with leg := true }, s) else ({ p with leg := false, interDev := d }, s)
    else ({ p with leg := true }, s)
  else if ¬ p.leg ∧ p.interDev = own then ({ p with leg := true }, s)
  else (p, s)

/-! ## The mesh (R80, R354, R364) -/

/-- Column of a router. -/
def rtrX (r : Nat) : Nat := r % 24
/-- Row of a router. -/
def rtrY (r : Nat) : Nat := r / 24

/-- What lies beyond a mesh output 0 north, 1 east, 2 south or 3 west of a router: rows run down from PN to PS (R80; 02's table of links). -/
def meshNext (r out : Nat) : Option MeshOut :=
  if out = 0 then some (if rtrY r = 0 then .die 0 else .router (r - 24))
  else if out = 1 then (if rtrX r = 23 then none else some (.router (r + 1)))
  else if out = 2 then some (if rtrY r = 23 then .die 1 else .router (r + 24))
  else if out = 3 then (if rtrX r = 0 then none else some (.router (r - 1)))
  else none

/-- The next router towards another, first along rx, then along ry (R354). -/
def meshStep (r r' : Nat) : MeshOut :=
  if rtrX r < rtrX r' then .router (r + 1)
  else if rtrX r' < rtrX r then .router (r - 1)
  else if rtrY r < rtrY r' then .router (r + 24)
  else .router (r - 24)

/-- Along a column to a port die (R354). -/
def toDie (r d : Nat) : MeshOut := (meshNext r (if d = 0 then 0 else 2)).getD (.die d)

/-- Rows of the HB attachment routers, at rx 0 (02's table of links). -/
def hbRows : List Nat := [4, 5, 6, 7, 16, 17, 18, 19]

/-- The HB attachment router nearest to a router, the lower row among equals (R354). -/
def hbRouter (r : Nat) : Nat :=
  24 * (hbRows.foldl (fun (b : Nat) y =>
    if (max y (rtrY r) - min y (rtrY r)) < (max b (rtrY r) - min b (rtrY r)) then y else b) 4)

/-- Whether a packet is on its way to a random intermediate router (R356): between two tiles of this device, under `RANDOM_MESH`. -/
def State.meshLeg (s : State) (p : Packet) : Bool :=
  !p.leg && !p.minimal && p.srcKind == .tile && p.destKind == .tile && p.srcDev == s.hub.devId && p.destDev == s.hub.devId &&
    (s.rcfg p.cls).randomMesh

/-- The router of a packet's intermediate: bits 4:0 rx, 9:5 ry (R351). -/
def interOf (p : Packet) : Nat := p.interRtr % 32 + 24 * (p.interRtr / 32 % 32)

/-- The choice of an intermediate router at the source router, and the end of the first leg (R356). -/
def State.chooseRtr (s : State) (r : Nat) (p : Packet) : Packet × State :=
  if ¬ s.meshLeg p then (p, s)
  else if routerOf (s.siteOfTile p.srcIdx) = r then
    let (x, s) := s.draw 16
    let n := x.toNat % 576
    if n = r ∨ n = routerOf (s.siteOfTile p.destIdx) then ({ p with leg := true }, s) else ({ p with interRtr := rtrX n + 32 * rtrY n }, s)
  else if interOf p = r then ({ p with leg := true }, s)
  else (p, s)

/-- Where a router sends a packet of this device's (R354): its own cluster, a combining unit, the hub, a port die or the next router. -/
def State.meshOut (s : State) (r : Nat) (p : Packet) : MeshOut :=
  if s.meshLeg p then meshStep r (interOf p)
  else match p.destKind with
    | .tile => let r' := routerOf (s.siteOfTile p.destIdx)
      if r = r' then .site (s.siteOfTile p.destIdx) else meshStep r r'
    | .combiner => if r = p.destIdx / 4 then .combiner (p.destIdx % 4) else meshStep r (p.destIdx / 4)
    | .hub => if r = hbRouter r then .hub else meshStep r (hbRouter r)
    | .dma => toDie r p.destIdx
    | .ddr => toDie r p.destIdx
    | .tree => .hub

/-- Hand a packet on: over the mesh to a router or a port die, or to a unit at this place. -/
def State.handOn (s : State) (src : Nat) (ver : Bool) (port : Option Nat) (p : Packet) (out : MeshOut) : State :=
  match out with
  | .router _ => s.sendHop { src, out, pkt := p, ver, port }
  | .die _ => s.sendHop { src, out, pkt := p, ver, port }
  | _ => s.emit (.hop p out)

/-- The router where a packet from Lantern enters the mesh: in its destination router's column (R354); one for a unit beyond the mesh in column 0
(DESIGN CHOICE, log 112). -/
def State.entryRtr (s : State) (d : Nat) (p : Packet) : Nat :=
  552 * d + match p.destKind with
    | .tile => rtrX (routerOf (s.siteOfTile p.destIdx))
    | .combiner => rtrX (p.destIdx / 4)
    | _ => 0

/-- The port of a die and the entry of its receive buffer that hold a packet (R346). -/
def State.rxFind (s : State) (d : Nat) (p : Packet) : Option (Nat × RxPkt) :=
  (List.range 12).findSome? fun i => ((s.port (12 * d + i)).rxHeld.find? fun r => r.pkt == p).map fun r => (12 * d + i, r)

/-- A packet that a port die routes leaves the receive buffer it arrived in, and its units go home as credits of their kind (R346). -/
def State.rxDone (s : State) (i : Nat) (r : RxPkt) : State :=
  let s := s.modPort i fun x =>
    { x with rxHeld := x.rxHeld.erase r, credDue := x.credDue ++ [(r.pkt.cls, r.pkt.hops - 1, r.shared, pktUnits r.pkt)] }
  if (s.port i).st = .up then s.sendFlit i .idle else s

/-- A port die routes a packet under a version (R354 to R358, R364); `port` is the one chosen for it before, if any. -/
def State.dieRoute (s : State) (d : Nat) (ver : Bool) (port : Option Nat) (p : Packet) : State :=
  if p.destKind = .tree then
    let e : TreeEnt := Tbl.get {} s.routing.trees (treeKey ver (576 + d) p.destIdx)
    let s := if e.hub then s.handOn (576 + d) ver none p (.router (dieRouter d)) else s
    ((List.range 24).filter fun i => bitAt e.outs i).foldl (fun s i =>
      if 8 ≤ p.hops then (s.rtrCount (dieRouter d) 6).reply p .hopLimit
      else if (s.port i).st = .up then s.enqueue i p else s.noRoute p) s
  else if p.destDev = s.hub.devId then
    if p.destKind ∈ [UnitKind.dma, .ddr] ∧ p.destIdx = d then s.emit (.hop p (.die d))
    else s.handOn (576 + d) ver none p (.router (s.entryRtr d p))
  else
    let (p, s) := if port.isSome then (p, s) else s.chooseLeg ver p
    s.exitVia d ver port p

/-! ## Combining units (R362, R363) -/

/-- A combining unit of a router. -/
def State.cu (s : State) (r n : Nat) : Option CuSeg := Tbl.get none (s.router r).cus n
/-- Set a combining unit. -/
def State.setCu (s : State) (r n : Nat) (g : Option CuSeg) : State := s.modRouter r fun x => { x with cus := Tbl.set none n g x.cus }

/-- Whether a held segment takes a packet (R362). -/
def CuSeg.takes (g : CuSeg) (p : Packet) : Bool :=
  let t := wordTag (num p.payload 0 8)
  g.sentTag.isNone && g.pkt.destDev == p.destDev && g.pkt.destKind == p.destKind && g.pkt.destIdx == p.destIdx && g.pkt.arg == p.arg &&
    g.pkt.addr == p.addr && g.pkt.payload.length == p.payload.length && g.pkt.epoch == p.epoch && g.tag.chunk == t.chunk &&
    g.tag.anchor == t.anchor

/-- A source as a combining unit keeps it (R363). -/
def srcOf (p : Packet) : Nat × Nat × Nat := (p.srcDev, 8192 * unitCode p.srcKind + p.srcIdx, p.tag)

/-- Sum the A64 elements of two payloads of one length, keeping the first's 16 leading bytes (R117, R221). -/
def sumPayload (a b : List Byte) : List Byte :=
  let m := ((a.drop 16).zipIdx).foldl (fun m x => memWrite m x.2 x.1) []
  let n := (a.length - 16) / 8
  a.take 16 ++ memReadN (addA64 m 0 (b.drop 16) n) 0 (8 * n)

/-- Merge a packet into a segment (R117, R362). -/
def CuSeg.merge (g : CuSeg) (p : Packet) : CuSeg :=
  let t := tagMerge g.tag (wordTag (num p.payload 0 8))
  { g with tag := t, merges := g.merges + 1, srcs := g.srcs ++ [srcOf p]
           pkt := { g.pkt with payload := leBytes 8 (tagWord t) ++ (sumPayload g.pkt.payload p.payload).drop 8 } }

/-- The port die that serves a router's stack (R365). -/
def rtrDie (r : Nat) : Nat := if r / 24 < 12 then 0 else 1

/-- A combining unit forwards its segment as one packet whose source is the unit, under a tag of its own (R362, R363, R367); with no tag
free it waits. -/
def State.cuForward (s : State) (r n : Nat) : State :=
  match s.cu r n with
  | none => s
  | some g =>
    if g.sentTag.isSome then s
    else match s.freeTag (rtrDie r) with
      | none => s
      | some tag =>
        let p := { g.pkt with srcDev := s.hub.devId, srcKind := .combiner, srcIdx := 4 * r + n, tag }
        let s := s.setTxn (rtrDie r) tag (some { part := p.srcPart, pkt := p, since := s.now })
        ((s.setCu r n (some { g with sentTag := some tag })).launch p).retire

/-- A `CONTRIB` with `COMBINE` 1 at a router (R362): merged or captured, or (false) to be passed on. A packet of a combining unit of this router has
passed it already. -/
def State.cuArrive (s : State) (r : Nat) (p : Packet) : State × Bool :=
  if p.srcKind = .combiner ∧ p.srcDev = s.hub.devId ∧ p.srcIdx / 4 = r then (s, false)
  else
  match (List.range 4).find? fun n => match s.cu r n with
    | some g => g.takes p
    | none => false with
  | some n =>
    match s.cu r n with
    | none => (s, false)
    | some g =>
      let g := g.merge p
      let s := (s.setCu r n (some g)).rtrCount r 2
      (if 16 ≤ g.merges then s.cuForward r n else s, true)
  | none =>
    match (if s.routing.cmbWait = 0 then none else (List.range 4).find? fun n => (s.cu r n).isNone) with
    | some n => (s.setCu r n (some { pkt := p, tag := wordTag (num p.payload 0 8), srcs := [srcOf p], since := s.now }), true)
    | none => (s, false)

/-- `COMBINE_FORWARD` (R362): `CMB_WAIT` router cycles, of 10/3 units of FT at 1.2 GHz, have passed since the capture, or 16 packets are merged. -/
def execCombineForward (t router cu : Nat) (s : State) : Out :=
  let s := s.adv t
  .next <| match s.cu router cu with
    | some g => if 10 * s.routing.cmbWait ≤ 3 * (s.now - g.since) ∨ 16 ≤ g.merges then s.cuForward router cu else s
    | none => s

/-- The completion of a combining unit's packet goes to every recorded source, and the unit is free (R363). -/
def State.cuDone (s : State) (unit : Nat) (st : PStatus) : State :=
  let r := unit / 4
  let n := unit % 4
  match s.cu r n with
  | none => s
  | some g =>
    let s := s.setCu r n none
    g.srcs.foldl (fun s x => s.reply
      { g.pkt with srcDev := x.1, srcKind := unitOf (x.2.1 / 8192), srcIdx := x.2.1 % 8192, tag := x.2.2 } st) s

/-! ## Routers (R354, R364, R368) -/

/-- A router hands a packet on (R354), counted. The router where a packet for another device first comes chooses its intermediate and its port, and so the
port die it goes to: that of the port, PN with none `UP` (DESIGN CHOICE, log 112). -/
def State.rtrPass (s : State) (r : Nat) (ver : Bool) (port : Option Nat) (p : Packet) : State :=
  let (p, s) := s.chooseRtr r p
  let s := s.rtrCount r 0
  if p.destDev = s.hub.devId then s.handOn r ver none p (s.meshOut r p)
  else
    let (p, port, s) : Packet × Option Nat × State :=
      if port.isSome then (p, port, s)
      else
        let (p, s) := s.chooseLeg ver p
        let (i, s) := s.pickPort p.cls ver (if p.leg then p.destDev else p.interDev)
        (p, i, s)
    s.handOn r ver port p (toDie r ((port.map portDie).getD 0))

/-- A copy of a multicast for a leaf site: it is handed on as a packet for the tile of that site, and answered with `TILE_MOVING` where the site holds
none (R191, R364). -/
def State.toLeaf (s : State) (p : Packet) (k : Nat) : State :=
  if (s.site k).st = .tile then s.emit (.hop { p with destKind := .tile, destIdx := s.tileAt k } (.site k)) else s.reply p .tileMoving

/-- A router handles a packet under a version: combining, the refusals of its `DOWN` bit, copies of a multicast, or the way on. -/
def State.rtrRoute (s : State) (r : Nat) (ver : Bool) (port : Option Nat) (p : Packet) : State :=
  let here : Bool := p.destDev == s.hub.devId && p.destKind == .tile && routerOf (s.siteOfTile p.destIdx) == r
  if p.destKind = .tree then
    let e : TreeEnt := Tbl.get {} s.routing.trees (treeKey ver r p.destIdx)
    let sites := (rtrSites r).filter fun k => bitAt e.sites (k % 16)
    let outs := ((List.range 4).filter fun i => bitAt e.outs i).filterMap (meshNext r)
    let s := outs.foldl (fun (s : State) o => s.handOn r ver none p o) (s.rtrCount r 0)
    let s := if e.hub then s.emit (.hop p .hub) else s
    if (s.router r).down then sites.foldl (fun s _ => s.refuseDown r p) s else sites.foldl (fun s k => s.toLeaf p k) s
  else if p.kind = .contrib ∧ p.combine then
    match s.cuArrive r p with
    | (s, true) => s
    | (s, false) => if here ∧ (s.router r).down then s.refuseDown r p else s.rtrPass r ver port p
  else if here ∧ (s.router r).down then s.refuseDown r p
  else s.rtrPass r ver port p

/-! ## The queues of the mesh (R350, R357, R358, R361) -/

/-- Whether a packet of the mesh may be the one that arrives at a place: its mark aside, which it takes as it leaves (R361). -/
def Hop.arrives (h : Hop) (here : MeshOut) (p : Packet) : Bool :=
  (h.src == 1023 || h.out == here) && ({ h.pkt with ce := p.ce } : Packet) == p

/-- The packets of one output queue. -/
def State.meshQueue (s : State) (h : Hop) : List Hop := s.routing.mesh.filter fun x => x.src == h.src && x.out == h.out

/-- The key of an output of a router. -/
def outKey : MeshOut → Nat
  | .router r => r
  | .die d => 576 + d
  | _ => 1023

/-- Whether a packet is the next to leave its queue (R350, R357): the oldest of its class, `HOPS` and `LEG`, whose buffers are separate, and of the class
that the router's arbitration names, with the deficits after. -/
def State.meshTurn (s : State) (h : Hop) : Option (Tbl Nat) :=
  let q := s.meshQueue h
  let d := Tbl.get [] (s.router h.src).deficit (outKey h.out)
  let n (c : Nat) := if c = h.pkt.cls then pktUnits h.pkt else ((q.find? fun x => x.pkt.cls == c).map fun x => pktUnits x.pkt).getD 0
  if h.src = 1023 then some d
  else if (q.find? fun x => x.pkt.cls == h.pkt.cls && x.pkt.hops == h.pkt.hops && x.pkt.leg == h.pkt.leg) ≠ some h then none
  else if 576 ≤ h.src ∨ h.pkt.cls = 0 then some d
  else if n 0 ≠ 0 then none
  else if h.pkt.cls = 1 then some d
  else if n 1 ≠ 0 then none
  else
    let (c, d) := drrPick (s.rcfg 2).weight (s.rcfg 3).weight d (n 2) (n 3)
    if c = h.pkt.cls then some (if (q.countP fun x => x.pkt.cls == c) ≤ 1 then Tbl.set 0 c 0 d else d) else none

/-- Whether the queue of a MSG or DMA packet holds more units of its class than the threshold as it leaves (R361). -/
def State.meshMark (s : State) (h : Hop) : Bool :=
  decide (h.src < 576 ∧ 2 ≤ h.pkt.cls) &&
    decide (Config.rtrQueueUnits * (s.rcfg h.pkt.cls).markPct <
      100 * (((s.meshQueue h).filter fun x => x.pkt.cls == h.pkt.cls).map fun x => pktUnits x.pkt).sum)

/-- A packet leaves its queue of the mesh: marked where the queue is long, and counted by its router (R361, R371). -/
def State.meshLeave (s : State) (h : Hop) (d : Tbl Nat) : Packet × State :=
  let mark := s.meshMark h
  let s : State := { s with routing := { s.routing with mesh := s.routing.mesh.erase h } }
  let s := if h.src < 576 then s.modRouter h.src fun x => { x with deficit := Tbl.set [] (outKey h.out) d x.deficit } else s
  ({ h.pkt with ce := h.pkt.ce || mark }, if mark then s.rtrCount h.src 1 else s)

/-- A packet as it comes to a router or a port die: out of the mesh, out of a receive buffer, or one that the model has not seen before; with the version
that routes it (R358) and the port chosen for it. None while its queue has another packet to send first. -/
def State.routeIn (s : State) (here : MeshOut) (p : Packet) : Option (Packet × Bool × Option Nat × State) :=
  match s.routing.mesh.filter fun h => h.arrives here p with
  | [] =>
    match (match here with
        | .die d => s.rxFind d p
        | _ => none) with
    | some (i, r) => some (p, r.ver, none, s.rxDone i r)
    | none =>
      let (ver, stale) := s.routeVer p
      some (p, ver, none, if stale then s.rtrCount (match here with
        | .router r => r
        | .die d => dieRouter d
        | _ => 0) 5 else s)
  | hs => hs.findSome? fun h => (s.meshTurn h).map fun d =>
    let (p, s) := s.meshLeave h d
    (p, h.ver, h.port, s)

/-- A Steward packet of a member's `REPLAY_FORCE` reaches the root Herald's device (R52): it acts there as `HOLD_RELEASE` and the status goes
back in bits 15:8 of the completion's `ARG` (DESIGN CHOICE, log 36). -/
def State.stewardTake (s : State) (p : Packet) : State :=
  let (s, st) := s.holdRelease (num p.payload 0 1) (num p.payload 1 1) (num p.payload 2 1) (num p.payload 8 8)
  s.inject
    { destDev := p.srcDev, destKind := p.srcKind, destIdx := p.srcIdx, srcDev := s.hub.devId, srcKind := .hub, kind := .completion, cls := 1,
      ece := p.ce, srcPart := p.srcPart, tag := p.tag, arg := BitVec.ofNat 32 (256 * st) }

/-- `PACKET_ROUTE` (R354): a router, or with `die` a port die, routes an arriving packet. A reserved kind is dropped and counted (R352); a Steward
packet for this device's hub is taken there. A version that the packet was the last of retires once it is routed (R360). -/
def execPacketRoute (t router : Nat) (die : Option Nat) (pkt : Packet) (s : State) : Out :=
  let s := s.adv t
  .next <|
    let here : MeshOut := match die with
      | some d => .die d
      | none => .router router
    match s.routeIn here pkt with
    | none => s
    | some (p, ver, port, s) =>
      (if p.kind = .reserved then s.discard
      else if p.kind = PKind.steward ∧ p.destKind = .hub ∧ p.destDev = s.hub.devId then s.stewardTake p
      else match die with
        | some d => s.dieRoute d ver port p
        | none => s.rtrRoute router ver port p).retire

/-! ## The drained change of a class (R284, R359) -/

/-- Whether the device holds no packet of a class and no data flit awaits its acknowledgement (R359 step 3). -/
def State.drained (s : State) (c : Nat) : Bool :=
  (s.routing.mesh.all fun h => h.pkt.cls != c) && (s.ports.all fun e => (e.2.holds.all fun p => p.cls != c) && e.2.retry.isEmpty) &&
    (c != 2 || s.routers.all fun e => e.2.cus.all fun u => match u.2 with
      | some g => g.sentTag.isSome
      | none => true)

/-- The requests on hold of a class leave under its injection version (R358, R359). -/
def State.retagHeld (s : State) (c : Nat) : State :=
  { s with dma := { s.dma with tags := s.dma.tags.map fun t => (t.1, t.2.map fun y =>
      if y.pkt.cls = c ∧ s.routing.held.contains y.pkt then
        { y with pkt := { y.pkt with epoch := (s.rcfg c).ver } }
      else y) } }

end Sys2Proof.Machine
end

