-- ==== Sys2Proof/Machine/Xmln.lean ====
section
/-! DEFINITION. The Xmln instructions: what each does, when it waits and when it is illegal, and the events of waiting (06 R208 to
R212, R218, R221, R366; 07 R231 to R248). -/

namespace Sys2Proof.Machine

/-! ## The form of an instruction -/

/-- The operands of an Xmln instruction: `rd`, the values of `rs1` and `rs2`, the executing context. -/
structure XArgs where
  rd : Nat := 0
  a : BitVec 32 := 0
  b : BitVec 32 := 0
  ctx : Nat := 0
  deriving DecidableEq, Repr

/-- What an attempt of an instruction comes to: an exception with its cause and value, an illegal instruction, a resource other than a
waited event is not there yet, the wait of R247, the end of the handler, or retirement with the value for `rd`. -/
inductive XRes where
  | trap (cause : Nat) (v : BitVec 32)
  | illegal
  | stay
  | block (kind : WaitKind) (arg : Nat)
  | ended (s : State)
  | done (v : BitVec 32) (s : State)

/-- The operands that a word names. -/
def Site.xArgs (x : Site) (w : Nat) : XArgs :=
  let b := x.seq.bank
  { rd := bitsN w 7 5, a := b.reg (bitsN w 15 5), b := b.reg (bitsN w 20 5), ctx := x.seq.context }

/-- A context begins to wait (R203, R247); a send's port shows it (R220). -/
def State.beginWait (s : State) (k : Nat) (kind : WaitKind) (arg : Nat) (v : BitVec 32) (rd : Nat) : State :=
  let s := s.modSeq k fun q =>
    q.modBank fun b => { b with wait := some { kind, arg, val := v, rd, since := s.now, long := kind == .sigwaitl } }
  let s := if kind = .send then s.modSite k fun x => x.modChan arg fun c => { c with txWait := true, txSince := s.now } else s
  if kind = .sigwaitl then s.lentTry (keyRegion k) else s

/-- Carry an attempt out; `ue` says that the fetch of the instruction returned uncorrectable data (R201). -/
def State.xApply (s : State) (k w : Nat) (ue : Bool) (r : XRes) : State :=
  let x := s.site k
  let b := x.seq.bank
  let nxt := b.pc + 4
  match r with
  | .trap c v => s.seqTrap k c v ue
  | .illegal => s.seqTrap k 2 (BitVec.ofNat 32 w) ue
  | .stay => s
  | .block kind arg => if b.wait.isSome then s else s.beginWait k kind arg (x.xArgs w).b (bitsN w 7 5)
  | .ended s => s.modSeq k fun q => { q with minstret := q.minstret + 1, fast := false }
  | .done v s => s.seqRetire k (bitsN w 7 5) v nxt

/-- The instruction at the program counter of a site is tried, when it is `op` and its context runs and does not wait. -/
def State.xRow (s : State) (k : Nat) (op : XOp) (f : State → Nat → XArgs → XRes) : State :=
  let x := s.site k
  if ¬ s.seqRuns k ∨ x.seq.bank.wait.isSome then s
  else match x.fetch with
    | .word w _ =>
      if xDecode w = some op then
        let s := s.fetched k
        s.xApply k w x.fetchUe (f s k (x.xArgs w))
      else s
    | _ => s

/-! ## Sends (R211, R218, R221, R366) -/

/-- The statuses of the checks that a send fails (R211). -/
def State.sendFails (s : State) (k slot : Nat) (x : XArgs) : List Nat :=
  let y := s.site k
  let u := chanUnit slot
  let len := bitsN x.a.toNat 16 16
  let en := y.cfg u 128 1 == 1
  let tl := y.cfg u 176 11
  let bad := x.b.toNat % 16 != 0 || !y.mayLoad x.b.toNat len
  let p := y.seqBytes x.b.toNat len
  let long : Bool :=
    if y.cfg u 129 1 = 1 then !bad && decide (8 * tl < num p 8 4 / 8 + (len - 16) / 8)
    else if tl = 0 then len != 64
    else decide (tl / 2 < (16 + len + 63) / 64)
  (if en && long then [1] else []) ++ (if y.cfg u 130 6 != x.ctx then [2] else []) ++ (if en then [] else [3]) ++ (if bad then [5] else [])

/-- The status that a send returns at once, if a check fails (R211); which of several the spec does not say, but it is a function of the send alone
(R31, R32, R299; log 50). -/
def State.sendChecks (s : State) (k slot : Nat) (x : XArgs) : Option Nat :=
  match s.sendFails k slot x with
  | [] => none
  | c :: rest => some ((c :: rest).getD (Config.sendPick (c :: rest) % (c :: rest).length) c)

/-- The payload that a send names, and the state after its read (R209, R172). -/
def State.payload (s : State) (k : Nat) (x : XArgs) : List Byte × State :=
  let n := bitsN x.a.toNat 16 16
  ((s.site k).seqBytes x.b.toNat n, s.seqRead k x.b.toNat n)

/-- A send returns a status: in `rd` and in `XM_STATUS` (R211, R213). -/
def State.sendReturn (s : State) (k code : Nat) : XRes :=
  .done (BitVec.ofNat 32 code) (s.modSeq k fun q => { q with lastSend := code })

/-- A message has left: the signature of the port, its next sequence number, no wait for credits (R218, R300). -/
def State.sendLeft (s : State) (k slot : Nat) (m : Msg) : State :=
  s.modSite k fun x =>
    (x.sign (0x0300 + slot) (hdrBytes m false ++ m.payload)).modChan slot fun c => { c with txSeq := c.txSeq + 1, txWait := false }

/-- A descriptor from 64 payload bytes (R365). -/
def dmaDesc (bs : List Byte) : DmaDesc :=
  let f := num bs 1 1
  { op := num bs 0 1, sigValid := bitOn f 0, minimal := bitOn f 1, combine := bitOn f 2, srcKind := num bs 2 1, dstKind := num bs 3 1,
    length := num bs 4 4, srcDev := num bs 8 2, srcTile := num bs 0x0A 2, srcWin := num bs 0x0C 1, dstWin := num bs 0x0D 1,
    dstDev := num bs 0x0E 2, dstTile := num bs 0x10 2, sigTile := num bs 0x12 2, sigNum := num bs 0x14 1, tclass := num bs 0x15 1,
    leaves := num bs 0x16 2, srcAddr := num bs 0x18 8, dstAddr := num bs 0x20 8,
    reservedZero := f / 8 == 0 && (slice bs 0x28 24).all (· == 0) }

/-- The pieces of a contribution, of at most 62 elements each, with the tag of the whole (R221, R351): (accumulator offset, bytes). -/
def contribChunks (tag : List Byte) (off : Nat) (es : List Byte) : Nat → List (Nat × List Byte)
  | 0 => []
  | n + 1 =>
    let here := es.take 496
    let rest := es.drop 496
    (off, tag ++ leBytes 4 off ++ leBytes 4 0 ++ here) :: (if rest.isEmpty then [] else contribChunks tag (off + 496) rest n)

/-- Count packets of a port that await their acknowledgement (R207, R225, R238). -/
def State.sent' (s : State) (k slot n : Nat) (contrib : Bool) : State :=
  s.modSite k fun x =>
    let x := x.modChan slot fun c => if contrib then { c with txContrib := c.txContrib + n } else { c with txUnacked := c.txUnacked + n }
    { x with seq := { x.seq with unacked := x.seq.unacked + n } }

/-- A send whose checks have passed on a tile's own site: the state with the message gone, or what it lacks: `true` credits or room in
the DMA queue, `false` a tag or a released class (R218, R359, R366, R367). -/
def State.sendTry (s : State) (k slot : Nat) (payload : List Byte) : State ⊕ Bool :=
  let x := s.site k
  let u := chanUnit slot
  let c := x.chan slot
  let tl := x.cfg u 176 11
  let m := s.sendMsg k slot payload
  if x.cfg u 129 1 = 1 then
    let n := (payload.length - 16) / 8
    let chunks := contribChunks (slice payload 0 8) (num payload 8 4) ((payload.drop 16).take (8 * n)) (payload.length / 496 + 1)
    if (s.rcfg 2).hold then .inr false
    else match s.requests (s.portPool k slot) (chunks.map fun e => s.portPacket k slot .contrib e.1 e.2) with
      | none => .inr false
      | some s =>
        let chunk := num payload 0 2
        .inl (((s.sent' k slot chunks.length true).sendLeft k slot m).modJob (s.partField k) fun j =>
          { j with contributed := j.noteContrib chunk k u })
  else if tl = 0 then
    let q := Tbl.get [] s.dma.queues (s.tileAt k)
    if 16 ≤ q.length then .inr true
    else
      let s := { s with dma := { s.dma with queues := Tbl.set [] (s.tileAt k) (q ++ [dmaDesc payload]) s.dma.queues } }
      .inl (s.modSite k fun x => (x.sign 0x0400 payload).modChan slot fun c => { c with txWait := false })
  else
    let n := m.lines
    let p := c.padLines tl n
    let line := if p = 0 then c.txWptr else 0
    let pad : Msg := { kind := 2, lines := p, srcTile := m.srcTile, seq := m.seq, srcDev := m.srcDev }
    let chunks := (if p = 0 then [] else [(c.txWptr, hdrBytes pad true)]) ++
      depositChunks line (hdrBytes m true ++ payload) (payload.length / 512 + 2)
    if c.txCredits < p + n then .inr true
    else if (s.rcfg 2).hold then .inr false
    else match s.requests (s.portPool k slot) (chunks.map fun e => s.portPacket k slot .deposit e.1 e.2) with
      | none => .inr false
      | some s =>
        .inl (((s.sent' k slot chunks.length false).sendLeft k slot m).modSite k fun x => x.modChan slot fun c =>
          { c with txCredits := c.txCredits - (p + n), txWptr := (line + n) % max 1 tl })

/-- `X.SEND` (R211, R218, R225, R299). -/
def xSend (s : State) (k : Nat) (x : XArgs) : XRes :=
  let slot := bitsN x.a.toNat 0 5
  let c := (s.site k).chan slot
  match s.sendChecks k slot x with
  | some code => s.sendReturn k code
  | none =>
    let (payload, s) := s.payload k x
    if c.txSpill then
      if c.txUnacked = 0 then
        let s := (s.sendLeft k slot (s.sendMsg k slot payload)).modSite k fun y => y.modChan slot fun c =>
          { c with txSpill := false, txSpills := satAdd 255 c.txSpills 1 }
        (s.report 0x0107 2 (s.partField k) (s.tileAt k + 8192 * slot) []).sendReturn k 0
      else .block .send slot
    else if (s.site k).st = .vigil then
      let dma := (s.site k).cfg (chanUnit slot) 129 1 = 0 ∧ (s.site k).cfg (chanUnit slot) 176 11 = 0
      let s := if dma then s.modSite k fun y => y.sign 0x0400 payload else s.sendLeft k slot (s.sendMsg k slot payload)
      s.sendReturn k 0
    else
      match s.sendTry k slot payload with
        | .inl s => s.sendReturn k 0
        | .inr true => .block .send slot
        | .inr false => .stay

/-- The status that a shadow's `X.TRYSEND` whose checks passed returns, and those forwarded after it (R299): the statuses of sends whose checks failed,
which the shadow finds for itself, pass by. -/
def fwdStatus (l : List Nat) : List Nat := l.dropWhile fun c => c != 0 && c != 4

/-- `X.TRYSEND` (R211, R298, R299): a target forwards the status it returns; its shadow returns that of the matching send. -/
def xTrysend (s : State) (k : Nat) (x : XArgs) : XRes :=
  let slot := bitsN x.a.toNat 0 5
  match s.sendChecks k slot x with
  | some code => (s.forward k (.status code)).sendReturn k code
  | none =>
    let (payload, s) := s.payload k x
    if (s.site k).st = .vigil then
      match fwdStatus (s.site k).fwdTry with
      | [] => .stay
      | code :: rest =>
        let s := s.modSite k fun y => { y with fwdTry := rest }
        let dma := (s.site k).cfg (chanUnit slot) 129 1 = 0 ∧ (s.site k).cfg (chanUnit slot) 176 11 = 0
        let s := if code ≠ 0 then s else if dma then s.modSite k fun y => y.sign 0x0400 payload
          else s.sendLeft k slot (s.sendMsg k slot payload)
        s.sendReturn k code
    else match s.sendTry k slot payload with
      | .inl s => (s.forward k (.status 0)).sendReturn k 0
      | .inr true => (s.forward k (.status 4)).sendReturn k 4
      | .inr false => .stay

/-- `X_SEND`. -/
def execXSend (t site : Nat) (s : State) : Out :=
  let s := s.adv t
  .next (s.xRow site .send xSend)

/-- `X_TRYSEND`. -/
def execXTrysend (t site : Nat) (s : State) : Out :=
  let s := s.adv t
  .next (s.xRow site .trysend xTrysend)

/-! ## Receiving (R209, R219, R223) -/

/-- `X.DONE`: handlers only. -/
def xDone (s : State) (k : Nat) (x : XArgs) : XRes :=
  match x.ctx with
  | 0 => .illegal
  | i + 1 => .ended ((s.completeMsg k i).modSeq k fun q => { q with hand := {}, ctx := 0 })

/-- `X.RECV`: main only; a polled channel's next message, its payload address in `rd` and its length in `XM_RLEN`. -/
def xRecv (s : State) (k : Nat) (x : XArgs) : XRes :=
  let i := bitsN x.a.toNat 0 5
  if x.ctx ≠ 0 then .illegal
  else if (s.site k).cfg (chanUnit i) 2 1 = 1 then .block .recv i
  else match s.takeMsg k i with
    | none => .block .recv i
    | some (r, s) =>
      .done (BitVec.ofNat 32 (0x100000 + r.addr)) (s.modSeq k fun q => { q with rlen := BitVec.ofNat 32 r.msg.payload.length })

/-- `X.RELEASE`: main only. -/
def xRelease (s : State) (k : Nat) (x : XArgs) : XRes :=
  if x.ctx ≠ 0 then .illegal else .done 0 (s.completeMsg k (bitsN x.a.toNat 0 5))

/-- `X_DONE`. -/
def execXDone (t site : Nat) (s : State) : Out :=
  let s := s.adv t
  .next (s.xRow site .done xDone)

/-- `X_RECV`. -/
def execXRecv (t site : Nat) (s : State) : Out :=
  let s := s.adv t
  .next (s.xRow site .recv xRecv)

/-- `X_RELEASE`. -/
def execXRelease (t site : Nat) (s : State) : Out :=
  let s := s.adv t
  .next (s.xRow site .release xRelease)

/-! ## Fabric ports (R128, R130, R209, R210) -/

/-- Put an element on an injection port bound to the sequencer: not while the port has no credit for it. -/
def State.xPut (s : State) (k q i : Nat) (e : Elem) : XRes :=
  let x := s.site k
  if x.inCode (x.unit seqUnit).epoch q i = 8 ∧ x.room seqUnit (.inj q i) (elemCost q e) then .done 0 (s.modSite k fun x => x.emit (.inj q i) e) else .stay

/-- Get an element from an ejection port bound to the sequencer: `f` uses a data element; an Eve token stays at the head (R210). -/
def State.xGet (s : State) (k q j : Nat) (f : Elem → State → XRes) : XRes :=
  let x := s.site k
  if x.ejCode (x.unit seqUnit).epoch q j ≠ 7 ∨ ¬ x.ownsIn seqUnit (.ej q j) then .block .getw j
  else match s.takeEj k q j with
    | none => .block .getw j
    | some (e, s1) => if e.eve then .done 0 (s.modSeq k fun q => { q with eveHead := true }) else f e s1

/-- `X.PUTW`. -/
def xPutw (s : State) (k : Nat) (x : XArgs) : XRes := s.xPut k 1 (bitsN x.a.toNat 0 2) { data := x.b.setWidth 512 }

/-- `X.GETW`. -/
def xGetw (s : State) (k : Nat) (x : XArgs) : XRes := s.xGet k 1 (bitsN x.a.toNat 0 3) fun e s => .done (e.data.setWidth 32) s

/-- `X.PUTT`: tag 0xF is illegal. -/
def xPutt (s : State) (k : Nat) (x : XArgs) : XRes :=
  if bitsN x.b.toNat 0 4 = 0xF then .illegal else s.xPut k 2 (bitsN x.a.toNat 0 2) { data := BitVec.ofNat 512 (bitsN x.b.toNat 0 4) }

/-- `X.GETT`. -/
def xGett (s : State) (k : Nat) (x : XArgs) : XRes :=
  s.xGet k 2 (bitsN x.a.toNat 0 3) fun e s => .done (BitVec.ofNat 32 (bitsN e.data.toNat 0 4)) s

/-- `X.PUTV`: the 64 bytes at `rs2`. -/
def xPutv (s : State) (k : Nat) (x : XArgs) : XRes :=
  if x.b.toNat % 64 ≠ 0 then .trap 4 x.b
  else if (s.site k).mayLoad x.b.toNat 64 then
    (s.seqRead k x.b.toNat 64).xPut k 0 (bitsN x.a.toNat 0 2) { data := BitVec.ofNat 512 (ofLe ((s.site k).seqBytes x.b.toNat 64)) }
  else .trap 5 x.b

/-- `X.GETV`: 64 bytes to `rs2`. -/
def xGetv (s : State) (k : Nat) (x : XArgs) : XRes :=
  if x.b.toNat % 64 ≠ 0 then .trap 6 x.b
  else if (s.site k).mayStore x.b.toNat 64 then
    s.xGet k 0 (bitsN x.a.toNat 0 3) fun e s => .done 0 (s.seqStore k x.b.toNat (leBytes 64 e.data.toNat))
  else .trap 7 x.b

/-- `X.EPHASE`: main only; the Eve tokens of the next epoch leave once every bound port has room, then the context waits for the
switch. -/
def xEphase (s : State) (k : Nat) (x : XArgs) : XRes :=
  let y := s.site k
  if x.ctx ≠ 0 then .illegal
  else if y.seq.ephase then .block .ephase 0
  else if (y.outputs seqUnit).all fun o => y.room seqUnit o (eveCost o) then
    let s := s.modSite k fun y =>
      let y := y.emitAll (y.outputs seqUnit) (eveTok ((y.unit seqUnit).epoch + 1))
      { y with seq := { y.seq with ephase := true } }
    .ended (s.beginWait k .ephase 0 0 0)
  else .stay

/-- `X_PUTW`. -/
def execXPutw (t site : Nat) (s : State) : Out :=
  let s := s.adv t
  .next (s.xRow site .putw xPutw)

/-- `X_GETW`. -/
def execXGetw (t site : Nat) (s : State) : Out :=
  let s := s.adv t
  .next (s.xRow site .getw xGetw)

/-- `X_PUTT`. -/
def execXPutt (t site : Nat) (s : State) : Out :=
  let s := s.adv t
  .next (s.xRow site .putt xPutt)

/-- `X_GETT`. -/
def execXGett (t site : Nat) (s : State) : Out :=
  let s := s.adv t
  .next (s.xRow site .gett xGett)

/-- `X_PUTV`. -/
def execXPutv (t site : Nat) (s : State) : Out :=
  let s := s.adv t
  .next (s.xRow site .putv xPutv)

/-- `X_GETV`. -/
def execXGetv (t site : Nat) (s : State) : Out :=
  let s := s.adv t
  .next (s.xRow site .getv xGetv)

/-- `X_EPHASE`. -/
def execXEphase (t site : Nat) (s : State) : Out :=
  let s := s.adv t
  .next (s.xRow site .ephase xEphase)

/-! ## Signals (R231 to R233) -/

/-- A signal of a site. -/
def Site.signal (x : Site) (n : Nat) : BitVec 32 := Tbl.get 0 x.signals n

/-- `X.SIGRAISE`. -/
def xSigraise (s : State) (k : Nat) (x : XArgs) : XRes := .done 0 (s.raise k (bitsN x.a.toNat 0 6) x.b.toNat (0x100 + x.ctx))

/-- `X.SIGWAIT`. -/
def xSigwait (s : State) (k : Nat) (x : XArgs) : XRes :=
  let n := bitsN x.a.toNat 0 6
  if x.b ≤ (s.site k).signal n then .done 0 s else .block .sigwait n

/-- `X.SIGWAITL`. -/
def xSigwaitl (s : State) (k : Nat) (x : XArgs) : XRes :=
  let n := bitsN x.a.toNat 0 6
  if x.b ≤ (s.site k).signal n then .done 0 s else .block .sigwaitl n

/-- `X.SIGSUB`. -/
def xSigsub (s : State) (k : Nat) (x : XArgs) : XRes :=
  let n := bitsN x.a.toNat 0 6
  let v := (s.site k).signal n
  if v < x.b then .done 0 (s.signalRange k n (0x100 + x.ctx))
  else .done 0 (s.modSite k fun y => { y with signals := Tbl.set 0 n (v - x.b) y.signals })

/-- `X.SIGREAD`. -/
def xSigread (s : State) (k : Nat) (x : XArgs) : XRes := .done ((s.site k).signal (bitsN x.a.toNat 0 6)) s

/-- `X_SIGRAISE`. -/
def execXSigraise (t site : Nat) (s : State) : Out :=
  let s := s.adv t
  .next (s.xRow site .sigraise xSigraise)

/-- `X_SIGWAIT`. -/
def execXSigwait (t site : Nat) (s : State) : Out :=
  let s := s.adv t
  .next (s.xRow site .sigwait xSigwait)

/-- `X_SIGWAITL`. -/
def execXSigwaitl (t site : Nat) (s : State) : Out :=
  let s := s.adv t
  .next (s.xRow site .sigwaitl xSigwaitl)

/-- `X_SIGSUB`. -/
def execXSigsub (t site : Nat) (s : State) : Out :=
  let s := s.adv t
  .next (s.xRow site .sigsub xSigsub)

/-- `X_SIGREAD`. -/
def execXSigread (t site : Nat) (s : State) : Out :=
  let s := s.adv t
  .next (s.xRow site .sigread xSigread)

/-! ## Barriers and fences (R238, R241, R243) -/

/-- The descriptor of a barrier of which a site's tile is a member (R240, R241). -/
def State.barrier (s : State) (k n : Nat) : Option BarDef :=
  match s.siteOrdo k with
  | some o => o.barriers.find? fun b => b.id == n && b.members.contains (s.tileAt k)
  | none => none

/-- `X.BARRIVE`: the arrival goes up the tree, but not a shadow's (R243). -/
def xBarrive (s : State) (k : Nat) (x : XArgs) : XRes :=
  let n := bitsN x.a.toNat 0 6
  let y := s.site k
  match s.barrier k n with
  | none => .illegal
  | some d =>
    let c := y.bar n
    if c.a ≠ c.c then .block .barrive n
    else
      let s := s.modSite k fun y =>
        { (y.sign 0x0500 (leBytes 2 d.root ++ leBytes 1 n ++ leBytes 4 1)) with bars := Tbl.set {} n { c with a := c.a + 1 } y.bars }
      .done 0 (if y.st = .vigil then s else s.inject
        { destDev := s.hub.devId, destKind := .tile, destIdx := d.root, srcDev := s.hub.devId, srcKind := .tile, srcIdx := s.tileAt k,
          kind := .barrier, cls := 0, srcPart := s.partField k % 16, arg := BitVec.ofNat 32 n })

/-- `X.BARWAIT`. -/
def xBarwait (s : State) (k : Nat) (x : XArgs) : XRes :=
  let n := bitsN x.a.toNat 0 6
  match s.barrier k n with
  | none => .illegal
  | some _ => if ((s.site k).bar n).c = ((s.site k).bar n).a then .done 0 s else .block .barwait n

/-- `X.FENCE`: stores are written as they are made; sends and elements put wait for their acknowledgement. -/
def xFence (s : State) (k : Nat) (_x : XArgs) : XRes :=
  let y := s.site k
  let clear := y.seq.unacked == 0 && (y.outputs seqUnit).all fun o => match o with
    | .inj q i => (y.inPort q i).outq.isEmpty
    | .stream _ => true
  if clear then .done 0 s else .block .fence 0

/-- `X_BARRIVE`. -/
def execXBarrive (t site : Nat) (s : State) : Out :=
  let s := s.adv t
  .next (s.xRow site .barrive xBarrive)

/-- `X_BARWAIT`. -/
def execXBarwait (t site : Nat) (s : State) : Out :=
  let s := s.adv t
  .next (s.xRow site .barwait xBarwait)

/-- `X_FENCE`. -/
def execXFence (t site : Nat) (s : State) : Out :=
  let s := s.adv t
  .next (s.xRow site .fence xFence)

/-! ## Semaphores (R246) -/

/-- Set or clear a semaphore flag. -/
def Site.setSem (x : Site) (n : Nat) (v : Bool) : Site :=
  { x with sem := if v then x.sem ||| (1#16 <<< n) else x.sem &&& ~~~(1#16 <<< n) }

/-- `X.SEMSET`: illegal unless `COMPAT` is 1. -/
def xSemset (s : State) (k : Nat) (x : XArgs) : XRes :=
  if (s.site k).seq.compat then .done 0 (s.modSite k fun y => y.setSem (bitsN x.a.toNat 0 4) true) else .illegal

/-- `X.SEMCLR`. -/
def xSemclr (s : State) (k : Nat) (x : XArgs) : XRes :=
  if (s.site k).seq.compat then .done 0 (s.modSite k fun y => y.setSem (bitsN x.a.toNat 0 4) false) else .illegal

/-- `X.SEMWAIT`: waits for the flag, then clears it. -/
def xSemwait (s : State) (k : Nat) (x : XArgs) : XRes :=
  let n := bitsN x.a.toNat 0 4
  if (s.site k).seq.compat then
    if bitAt (s.site k).sem n then .done 0 (s.modSite k fun y => y.setSem n false) else .block .semwait n
  else .illegal

/-- `X_SEMSET`. -/
def execXSemset (t site : Nat) (s : State) : Out :=
  let s := s.adv t
  .next (s.xRow site .semset xSemset)

/-- `X_SEMCLR`. -/
def execXSemclr (t site : Nat) (s : State) : Out :=
  let s := s.adv t
  .next (s.xRow site .semclr xSemclr)

/-- `X_SEMWAIT`. -/
def execXSemwait (t site : Nat) (s : State) : Out :=
  let s := s.adv t
  .next (s.xRow site .semwait xSemwait)

/-! ## Waiting (R247, R248) -/

/-- An attempt of an Xmln instruction. -/
def xTry : XOp → State → Nat → XArgs → XRes
  | .send => xSend
  | .trysend => xTrysend
  | .done => xDone
  | .recv => xRecv
  | .release => xRelease
  | .putw => xPutw
  | .getw => xGetw
  | .putt => xPutt
  | .gett => xGett
  | .putv => xPutv
  | .getv => xGetv
  | .ephase => xEphase
  | .sigraise => xSigraise
  | .sigwait => xSigwait
  | .sigwaitl => xSigwaitl
  | .sigsub => xSigsub
  | .sigread => xSigread
  | .barrive => xBarrive
  | .barwait => xBarwait
  | .fence => xFence
  | .semset => xSemset
  | .semclr => xSemclr
  | .semwait => xSemwait

/-- Whether an attempt ends a wait. -/
def XRes.goesOn : XRes → Bool
  | .stay => false
  | .block _ _ => false
  | _ => true

/-- `SEQ_WAIT_WAKE` (R203, R247, R248): the event that the running context waits for has arrived: its instruction completes, and a
lender region wakes. -/
def execSeqWaitWake (t site : Nat) (s : State) : Out :=
  let s := s.adv t
  .next <|
    let x := s.site site
    if ¬ s.seqRuns site ∨ x.seq.bank.wait.isNone then s
    else match x.fetch with
      | .word w _ =>
        match xDecode w with
        | some op =>
          let r := xTry op s site (x.xArgs w)
          if r.goesOn then (s.xApply site w false r).lentExit (keyRegion site) else s
        | none => s
      | _ => s

/-- `FAST_ENTER` (R247, R248): a context that has waited 8 cycles gates its clock; the region may become a lender. -/
def execFastEnter (t site : Nat) (s : State) : Out :=
  let s := s.adv t
  .next <|
    if s.siteWorks site seqUnit ∧ (s.site site).seq.bank.wait.isSome then
      (s.modSeq site fun q => { q with fast := true }).lentTry (keyRegion site)
    else s

/-- Make a bank's wait long (R248). -/
def Bank.goLong (b : Bank) (due : Nat → Bool) : Bank :=
  match b.wait with
  | some w => { b with wait := some { w with long := w.long || due w.since } }
  | none => b

/-- `LONG_WAIT_THRESHOLD` (R248): waits that have passed the partition's threshold are long; the region may become a lender. -/
def execLongWaitThreshold (t site : Nat) (s : State) : Out :=
  let s := s.adv t
  .next <|
    let due := fun (since : Nat) => decide (since + (s.part (s.partField site)).longWaitUs * ftUs < s.now)
    (s.modSeq site fun q => { q with main := q.main.goLong due, hand := q.hand.goLong due }).lentTry (keyRegion site)

end Sys2Proof.Machine
end

