-- ==== Sys2Proof/Machine/Dma.lean ====
section
/-! DEFINITION. The DMA complexes: descriptors, transfers, completions, timeouts, flow rates, and accesses to windows of a tile
(05 R189 to R191; 07 R234, R235; 11 R361, R365 to R367; 17 R538). -/

namespace Sys2Proof.Machine

/-! ## Authentication units (R538) -/

/-- A packet header for authentication: `HOPS` and `PFLAGS` bits 4:3 zero, and `LEN` with the unit counted (R351, R538). -/
def authHeader (p : Packet) : List Byte := headerBytes { p with hops := 0, ce := false, ece := false } (p.payload.length + 16)

/-- The first 64 bits of AES-256-GMAC over a packet whose payload has no unit yet (R538; DEDUCED, log 168). -/
def authTag (key : BitVec 256) (ctr : Nat) (p : Packet) : List Byte :=
  slice (Config.gcmSeal key (BitVec.ofNat 96 (p.srcDev + 2 ^ 32 * ctr)) (authHeader p ++ p.payload) []) 0 8

/-- The outbound entry that matches a request's destination (R535, R538). -/
def State.outKey (s : State) (p : Packet) : Option Nat :=
  ((List.range 64).map (3 * 1024 + ·)).find? fun i =>
    let e : Key := Tbl.get {} s.sec.keys i
    e.valid && e.destDev == p.destDev && e.destPage == (p.destKind == .ddr) && (e.destPage || e.destIdx == p.destIdx) &&
      e.win == p.arg.toNat % 256

/-- Append the authentication unit under an outbound entry, whose counter rises by one (R538). -/
def State.sealPacket (s : State) (i : Nat) (p : Packet) : Packet × State :=
  let e : Key := Tbl.get {} s.sec.keys i
  let unit := leBytes 8 e.ctr ++ authTag e.key e.ctr p
  ({ p with payload := p.payload ++ unit }, { s with sec := { s.sec with keys := Tbl.set {} i { e with ctr := e.ctr + 1 } s.sec.keys } })

/-- Whether a request goes to a window of another device, and so carries a unit. -/
def State.isRemote (s : State) (p : Packet) : Bool :=
  p.destDev != s.hub.devId && p.destKind != .tree && (p.kind == .write || p.kind == .readReq)

/-- Send a request of the DMA complex under a given tag, sealed when it is remote. -/
def State.dmaSend (s : State) (die tag : Nat) (x : Txn) : State :=
  let p := { x.pkt with tag, srcDev := s.hub.devId, srcKind := .dma, srcIdx := die, epoch := (s.rcfg x.pkt.cls).ver }
  let (p, s) := if s.isRemote p then match s.outKey p with
      | some i => s.sealPacket i p
      | none => (p, s)
    else (p, s)
  (s.setTxn die tag (some { x with pkt := p, since := s.now, port := none, movedAt := none })).inject p

/-! ## Transfers (R365) -/

/-- A transfer. -/
def State.xfer (s : State) (n : Nat) : Option Xfer := Tbl.get none s.dma.xfers n
/-- Set a transfer. -/
def State.setXfer (s : State) (n : Nat) (x : Option Xfer) : State := { s with dma := { s.dma with xfers := Tbl.set none n x s.dma.xfers } }

/-- `ARG` of a window or page request: the window in bits 7:0, and for a read the bytes asked for above it. -/
def winArg (win len : Nat) : BitVec 32 := BitVec.ofNat 32 (win % 256 + 256 * len)

/-- The request that reads `len` bytes of a transfer's source at an offset (R365). -/
def State.readPkt (s : State) (x : Xfer) (off len : Nat) : Packet :=
  let d := x.desc
  let p : Packet := { kind := .readReq, cls := d.tclass, srcPart := x.part % 16, minimal := d.minimal, arg := winArg d.srcWin len }
  if d.srcKind = 1 then { p with destDev := s.hub.devId, destKind := .ddr, destIdx := d.srcAddr / 2 ^ 41 % 2, addr := d.srcAddr + off }
  else { p with destDev := if d.srcKind = 2 then d.srcDev else s.hub.devId, destKind := .tile, destIdx := d.srcTile, addr := d.srcAddr + off }

/-- The write of bytes of a transfer to its destination at an offset (R364, R365). -/
def State.writePkt (s : State) (x : Xfer) (off : Nat) (bs : List Byte) : Packet :=
  let d := x.desc
  let p : Packet :=
    { kind := .write, cls := d.tclass, srcPart := x.part % 16, minimal := d.minimal, arg := winArg d.dstWin 0, payload := bs, addr := d.dstAddr + off }
  if d.dstKind = 1 then { p with destDev := s.hub.devId, destKind := .ddr, destIdx := d.dstAddr / 2 ^ 41 % 2 }
  else if d.dstKind = 3 then { p with destDev := d.dstDev, destKind := .tree, destIdx := d.dstTile, arg := winArg d.dstWin d.leaves }
  else { p with destDev := if d.dstKind = 2 then d.dstDev else s.hub.devId, destKind := .tile, destIdx := d.dstTile }

/-- The `CONTRIB` packet of a piece of a block (R221, R365). -/
def contribPkt (x : Xfer) (off : Nat) (bs : List Byte) : Packet :=
  let d := x.desc
  { kind := .contrib, cls := d.tclass, srcPart := x.part % 16, minimal := d.minimal, combine := d.combine, destDev := d.dstDev, destKind := .tile,
    destIdx := d.dstTile, arg := BitVec.ofNat 32 (d.dstWin % 32), addr := off, payload := bs }

/-- Bytes of the chunk at an offset: at most 512 that do not cross a 512-byte boundary of the destination, with room for a unit to a
remote one, and of one source page. -/
def chunkLen (x : Xfer) (off : Nat) : Nat :=
  let d := x.desc
  let room := if d.op = 2 then 512 else 512 - (d.dstAddr + off) % 512
  let page := if d.srcKind = 1 then 262144 - (d.srcAddr + off) % 262144 else 512
  min x.todo (min (min room page) (if d.dstKind = 2 ∨ d.srcKind = 2 then 496 else 512))

/-- Ask for the next pieces of a transfer while tags are free (R365, R367). -/
def State.xferPump (die n : Nat) : Nat → State → State
  | 0, s => s
  | fuel + 1, s =>
    match s.xfer n, s.freeTag die with
    | some x, some tag =>
      if x.status ≠ .ok ∨ (s.rcfg x.desc.tclass).hold then s
      else if 0 < x.todo then
        let off := x.desc.length - x.todo
        let len := chunkLen x off
        let y : Txn := { part := x.part, site := s.siteOfTile x.tile, pkt := s.readPkt x off len, xfer := some n, off }
        State.xferPump die n fuel ((s.setXfer n (some { x with todo := x.todo - len, left := x.left + 1 })).dmaSend die tag y)
      else match x.buf with
        | (off, bs) :: rest =>
          if x.sending then
            let y : Txn := { part := x.part, site := s.siteOfTile x.tile, pkt := contribPkt x off bs, xfer := some n, off }
            State.xferPump die n fuel
              ((s.setXfer n (some { x with buf := rest, left := x.left + 1 })).dmaSend die tag y)
          else s
        | [] => s
    | _, _ => s

/-- Let every transfer of a port die go on. -/
def State.dmaPump (s : State) (die : Nat) : State :=
  s.dma.xfers.foldl (fun s e => match e.2 with
    | some x => if tileDie x.tile = die then State.xferPump die e.1 4097 s else s
    | none => s) s

/-- Whether a descriptor keeps the rules of R365. -/
def State.descOk (s : State) (part : Nat) (d : DmaDesc) : Bool :=
  d.reservedZero && decide (d.srcKind ≤ 2) && decide (16 ≤ d.length ∧ d.length % 16 = 0) &&
    (d.srcKind == 1 || decide (d.srcWin < 8 ∧ d.srcTile < 8192)) && (d.tclass == 2 || d.tclass == 3) &&
    (if d.op = 1 then decide (d.dstKind ≤ 2) && (d.dstKind == 1 || decide (d.dstWin < 8 ∧ d.dstTile < 8192))
      else if d.op = 2 then d.dstKind == 4 && decide (d.dstWin < 32 ∧ d.dstTile < 8192)
      else d.op == 3 && d.dstKind == 3 && decide (d.dstWin < 8 ∧ d.dstTile < 256)) &&
    (!d.sigValid || decide (d.sigNum < 64 ∧ d.sigTile < 8192) && bitAt (s.part part).regions (tileBlock d.sigTile))

/-- Whether a remote side of a transfer has no outbound key (R366, R538). -/
def State.keysMissing (s : State) (x : Xfer) : Bool :=
  ((if x.desc.srcKind = 2 then [s.readPkt x 0 16] else []) ++ (if x.desc.dstKind = 2 then [s.writePkt x 0 []] else [])).any fun p =>
    s.isRemote p && (s.outKey p).isNone

/-- `DMA_DESCRIPTOR_START` (R365, R366, R538): the oldest descriptor of a tile's queue starts, or completes with `BAD_DESCRIPTOR` or
`NO_KEY` and moves nothing. -/
def execDmaDescriptorStart (t die tile : Nat) (s : State) : Out :=
  let s := s.adv t
  .next <|
    match Tbl.get [] s.dma.queues tile with
    | [] => s
    | d :: rest =>
      let k := s.siteOfTile tile
      let part := s.partField k
      if tileDie tile ≠ die ∨ (s.rcfg d.tclass).hold then s
      else
        let s := { s with dma := { s.dma with queues := Tbl.set [] tile rest s.dma.queues } }
        let x : Xfer := { desc := d, part, tile, todo := d.length }
        if ¬ s.descOk part d then s.dmaError part k .badDescriptor false
        else if s.keysMissing x then s.dmaError part k .noKey false
        else
          let n := s.dma.nextXfer
          State.xferPump die n 4097 (({ s with dma := { s.dma with nextXfer := n + 1 } }).setXfer n (some x))

/-! ## Completions (R353, R361, R363, R393) -/

/-- The rate of a port in MB/s towards a device (R342, R361). -/
def State.portRate (s : State) (dev : Nat) : Nat :=
  match s.upPorts (s.rcfg 3).ver dev with
  | i :: _ => 205600 * (s.port i).lanes.length / 8
  | [] => 205600

/-- An `ECE` completion cuts the rate of its flow, at most once in 10 µs (R361). -/
def State.flowCut (s : State) (q dev : Nat) : State :=
  let key := 65536 * q + dev
  let f : Flow := Tbl.get {} s.dma.flows key
  let rate := if f.rate = 0 then s.portRate dev else f.rate
  let f := if f.lastDec + 10 * ftUs ≤ s.now then { f with rate := max 1000 (rate * 3 / 4), lastDec := s.now, lastUp := s.now }
    else { f with rate, lastUp := s.now }
  { s with dma := { s.dma with flows := Tbl.set {} key f s.dma.flows } }

/-- Read data comes back for a chunk: it goes to its destination under the same tag, or joins a contribution's block (R365). -/
def State.chunkRead (s : State) (die tag n : Nat) (x : Txn) (y : Xfer) (data : List Byte) : State :=
  if y.desc.op = 2 then
    let s := s.setTxn die tag none
    let buf := Tbl.put x.off data y.buf
    if y.left = 1 ∧ y.todo = 0 then
      let block := buf.flatMap fun e => e.2
      let w := wordTag (num block 0 8)
      let es := (block.drop 16).take (y.desc.length - 16)
      let chunks := contribChunks (leBytes 8 (tagWord { w with count := 1 })) (num block 8 4) es (y.desc.length / 496 + 1)
      let s := s.modJob y.part fun j => { j with contributed := j.noteContrib w.chunk (s.siteOfTile y.tile) 0x180 }
      s.setXfer n (some { y with left := 0, buf := chunks, sending := true })
    else s.setXfer n (some { y with left := y.left - 1, buf })
  else s.dmaSend die tag { x with pkt := s.writePkt y x.off data, slot := if y.desc.dstKind = 3 then y.desc.leaves else 0, retries := 0 }

/-- Whether the router of a request's tile discards its completion (R368). -/
def State.turnedAway (s : State) (p : Packet) : Bool := p.srcKind == .tile && (s.router (routerOf (s.siteOfTile p.srcIdx))).down

/-- `COMPLETION_RECEIVE` (R353, R191, R234, R235, R361, R363, R393): `ue` is bit 0 of a `READ_DATA`'s `ARG`. The port die frees the tag of
a completion that the router of its tile then discards (R368; DEDUCED, log 157). A multicast is retried as a whole, once
every leaf has answered (DESIGN CHOICE, log 153). -/
def execCompletionReceive (t die tag : Nat) (status : PStatus) (ece ue : Bool) (data : List Byte) (s : State) : Out :=
  let s := s.adv t
  .next <|
    match s.txn die tag with
    | none => s
    | some x =>
      let refused := s.turnedAway x.pkt
      let s := if refused then s.rtrCount (routerOf (s.siteOfTile x.pkt.srcIdx)) 4 else s
      if x.dead then ((s.finishTag die tag status).dmaPump die).mirrorGo
      else if refused then (s.setTxn die tag none).dmaPump die
      else
      let y : Option Xfer := x.xfer.bind s.xfer
      let s := match y with
        | some y => if ece then s.flowCut y.tile x.pkt.destDev else s
        | none => s
      let s := if ue then s.modJob x.part fun j => if j.st = .running then { j with faultSeen := true } else j else s
      if x.pkt.srcKind = .combiner then (s.setTxn die tag none).cuDone x.pkt.srcIdx status
      else if x.slot ≤ 1 ∧ (status = .tileMoving ∨ x.moved) ∧ x.retries < 2000 then
        s.setTxn die tag (some { x with movedAt := some s.now, moved := false, slot := (y.map (·.desc.leaves)).getD x.slot })
      else
        let s : State := match x.xfer, y with
          | some n, some y =>
            if x.pkt.kind = PKind.readReq ∧ status = PStatus.ok then s.chunkRead die tag n x y data
            else if 1 < x.slot then
              let again : Bool := status == .tileMoving && decide (x.retries < 2000)
              (s.setTxn die tag (some { x with slot := x.slot - 1, moved := x.moved || again })).setXfer n
                (some (if again then y else y.note s x.pkt status))
            else s.finishTag die tag status
          | _, _ => s.finishTag die tag status
        (s.dmaPump die).mirrorGo

/-- The tag of a combining unit times out (R367, R235): the record, and the fault of the job of a tile of this device whose packet it merged. -/
def State.cuTimeout (s : State) (p : Packet) : State :=
  let own := ((s.cu (p.srcIdx / 4) (p.srcIdx % 4)).map (·.srcs)).getD [] |>.find? fun x => x.1 == s.hub.devId && x.2.1 / 8192 == 0
  match own with
  | some x => s.dmaError p.srcPart (s.siteOfTile (x.2.1 % 8192)) .timeout false
  | none => s.report 0x0609 7 0xFF (rtrX (p.srcIdx / 4) + 32 * rtrY (p.srcIdx / 4) + 1024 * (p.srcIdx % 4) + 4096) [(8, pstatusCode .timeout)]

/-- `TRANSACTION_TIMEOUT` (R367): a tag held for longer than the completion timeout completes with `TIMEOUT`. -/
def execTransactionTimeout (t die tag : Nat) (s : State) : Out :=
  let s := s.adv t
  .next <|
    match s.txn die tag with
    | none => s
    | some x =>
      if x.movedAt = none ∧ x.since + s.routing.timeoutUs * ftUs < s.now then
        if x.pkt.srcKind = .combiner then ((s.cuTimeout x.pkt).setTxn die tag none).cuDone x.pkt.srcIdx .timeout
        else ((s.finishTag die tag .timeout).dmaPump die).mirrorGo
      else s

/-- `TILE_MOVING_RETRY` (R191, R230): 10 µs after a `TILE_MOVING` completion the request goes again under its tag. -/
def execTileMovingRetry (t die tag : Nat) (s : State) : Out :=
  let s := s.adv t
  .next <|
    match s.txn die tag with
    | none => s
    | some x =>
      match x.movedAt with
      | none => s
      | some m =>
        if m + 10 * ftUs ≤ s.now then
          (s.setTxn die tag (some { x with movedAt := none, retries := x.retries + 1, since := s.now })).inject x.pkt
        else s

/-- `DMA_RATE_INCREASE` (R361): 20 µs without an `ECE` raise a flow's rate by 2 GB/s, up to the port rate. -/
def execDmaRateIncrease (t q dest : Nat) (s : State) : Out :=
  let s := s.adv t
  .next <|
    let key := 65536 * q + dest
    let f : Flow := Tbl.get {} s.dma.flows key
    if f.rate ≠ 0 ∧ f.rate < s.portRate dest ∧ f.lastUp + 20 * ftUs ≤ s.now then
      { s with dma := { s.dma with flows := Tbl.set {} key { f with rate := min (s.portRate dest) (f.rate + 2000), lastUp := s.now } s.dma.flows } }
    else s

/-! ## The end of a drained change (R359) -/

/-- `ROUTE_DRAIN_COMPLETE` (R359 steps 3 and 4): drained, or 100 µs on, the class injects under the new version and is released; the
command completes. -/
def execRouteDrainComplete (t cls : Nat) (s : State) : Out :=
  let s := s.adv t
  .next <|
    match (s.rcfg cls).swap with
    | some (mb, some start) =>
      if s.drained cls ∨ start + 100 * ftUs ≤ s.now then
        let s := ((s.modRcfg cls fun x => { x with ver := !x.ver, hold := false, swap := none }).retagHeld cls).injectHeld cls
        let s := (List.range 16).foldl (fun s p => if (s.part p).slots.any fun sl => sl.running.contains 4 then s.slotEnd p 4 else s) s
        (((s.finish mb stOk).dmaPump 0).dmaPump 1).mirrorGo
      else s
    | _ => s

/-! ## Windows of a tile (R189, R190, R538) -/

/-- Whether a counter is acceptable to an inbound window key (R538): above the highest accepted, or within the 64 below and unseen. -/
def Key.fresh (e : Key) (c : Nat) : Bool := decide (e.ctr < c) || (decide (e.ctr ≤ c + 64) && !e.seen.contains c && c != e.ctr)

/-- Note a counter as accepted. -/
def Key.accept (e : Key) (c : Nat) : Key :=
  if e.ctr < c then { e with ctr := c, seen := (e.ctr :: e.seen).filter fun x => decide (c ≤ x + 64) } else { e with seen := c :: e.seen }

/-- Whether a packet authenticates under an inbound window key (R538): its source is permitted, the tag of its unit verifies over the header and the
payload before the unit, and its counter is fresh. -/
def State.authOk (s : State) (slot : Nat) (p : Packet) : Bool :=
  let e : Key := Tbl.get {} s.sec.keys (2 * 1024 + slot)
  let n := p.payload.length - 16
  let c := num p.payload n 8
  e.valid && (e.srcDev == 0xFFFF || e.srcDev == p.srcDev) && decide (16 ≤ p.payload.length) &&
    slice p.payload (n + 8) 8 == authTag e.key c { p with payload := p.payload.take n } && e.fresh c

/-- Note the counter of an accepted packet. -/
def State.authNote (s : State) (slot : Nat) (p : Packet) : State :=
  let e : Key := Tbl.get {} s.sec.keys (2 * 1024 + slot)
  { s with sec := { s.sec with keys := Tbl.set {} (2 * 1024 + slot) (e.accept (num p.payload (p.payload.length - 16) 8)) s.sec.keys } }

/-- The data bytes of a request: without the authentication unit of a remote one. -/
def reqData (remote : Bool) (p : Packet) : List Byte := if remote then p.payload.take (p.payload.length - 16) else p.payload

/-- The bytes that a request touches: the data of a write, the length that a read asks for. -/
def reqLen (remote : Bool) (p : Packet) : Nat := if p.kind = .readReq then p.arg.toNat / 256 else (reqData remote p).length

/-- Whether a window serves the source of an access (R190): the window's own partition on this device, and for a remote window another device whose
access authenticates. That an access of the own device to a remote window carries no authentication is DEDUCED (R538, log 106). -/
def State.sourceOk (s : State) (w : WinDesc) (pkt : Packet) : Bool :=
  if pkt.srcDev = s.hub.devId then pkt.srcPart == w.owner else w.remote && s.authOk w.key pkt

/-- `WINDOW_ACCESS` (R190, R191, R298): the MU accepts a DMA access to a window, or refuses it without touching the slice. An accepted
write reaches the shadows too. `hits` are entries whose stored code has been disturbed, which the accepted access is the first to meet (R172). -/
def execWindowAccess (t : Nat) (pkt : Packet) (hits : List (Nat × List Byte)) (s : State) : Out :=
  let s := s.adv t
  .next <| s.arrive pkt fun k s =>
    let w : WinDesc := Tbl.get {} (s.site k).mu.windows (pkt.arg.toNat % 256)
    let remote : Bool := pkt.srcDev != s.hub.devId
    let n := reqLen remote pkt
    let right : Bool := if pkt.kind = .readReq then w.rights % 2 == 1 else w.rights / 2 % 2 == 1
    if pkt.kind ≠ .write ∧ pkt.kind ≠ .readReq then s
    else if pkt.arg.toNat % 256 < 8 ∧ w.isOpen ∧ pkt.addr + n ≤ w.size ∧ right ∧ s.sourceOk w pkt then
      let s := s.disturbs k hits
      let s := if remote then s.authNote w.key pkt else s
      if pkt.kind = .readReq then (s.eccRange k (w.base + pkt.addr) n true).replyData pkt (memReadN (s.site k).mu.slice (w.base + pkt.addr) n)
      else ((s.sliceWrite k (w.base + pkt.addr) (reqData remote pkt)).forward k (.write (w.base + pkt.addr) (reqData remote pkt))).reply pkt .ok
    else
      let s := s.modSite k fun x => { x with mu := { x.mu with winFaults := satAdd 255 x.mu.winFaults 1 } }
      (s.reportSite 0x0106 k 0x180 []).reply pkt .windowRefused

end Sys2Proof.Machine
end

