-- ==== Sys2Proof/Machine/Ddr.lean ====
section
/-! DEFINITION. External memory: the Page Map check of an access, ECC, scrubbing, retirement and migration of pages, training, and
the CXL.mem window (12 R373 to R402, 01 R35). -/

namespace Sys2Proof.Machine

/-! ## Accesses to mapped pages (R22, R380, R393, R395) -/

/-- The partition and tally page index of a logical page, while its job is bound. -/
def State.tallyOf (s : State) (l : Nat) : Option (Nat × Nat) :=
  let e := s.pageEnt l
  if e.kind = .tallyA ∨ e.kind = .tallyB then
    match s.job e.owner with
    | some j => ((List.range j.classes.length).find? fun i => Tbl.get 0 j.sideA i == l || Tbl.get 0 j.sideB i == l).map fun i => (e.owner, i)
    | none => none
  else none

/-- The tally page that an access of the step reaches under R22: the units of the owning partition name a side and reach the granule; every other
reader and writer reaches the side itself (R21, R24, R386). -/
def State.stepTally (s : State) (l : Nat) (own : Bool) : Option (Nat × Nat) := if own then s.tallyOf l else none

/-- The physical address that a read of a byte of a page reaches (R22, R24, R383). -/
def State.readAddr (s : State) (l o : Nat) (own : Bool) : Nat :=
  match s.stepTally l own with
  | some (p, i) => match s.job p with
    | some j => s.granAddr j i (o / 4096) (j.workSide i (o / 4096)) + o % 4096
    | none => s.pageBase l + o
  | none => s.pageBase l + o

/-- Read bytes of a page: the data as read, and whether any of it is uncorrectable. `ecc` is what the codeword numbered `word` meets; `own` marks a unit
of the owning partition. -/
def State.pageRead (s : State) (l off n ecc src part : Nat) (own : Bool) (word : Nat := 0) : State × List Byte × Bool :=
  (pieces off n).zipIdx.foldl (fun a x =>
    let ad := a.1.readAddr l x.1.1 own
    let (s, ue) := a.1.eccRead ad (if x.2 = word then ecc else 0) src l part
    (s, a.2.1 ++ memReadN s.mem.dram ad x.1.2, a.2.2 || ue)) (s, [], false)

/-- Write a piece of one codeword: a partial write reads it first and is not performed on an uncorrectable one; a full write clears
its error (R380). A block that a migration has copied is written on both pages (R395). Tally pages take R22. -/
def State.pieceWrite (s : State) (l o : Nat) (bs : List Byte) (ecc src part : Nat) (own : Bool) : State × Bool :=
  let full := bs.length == 64
  let a0 := s.readAddr l o own
  let ch := ppnChan (a0 / pageBytes)
  let (s, ue) := if full then (s, false) else (s.mcCount ch 3).eccRead a0 ecc src l part
  if ue then (s, true)
  else match s.stepTally l own with
    | some (p, i) => (s.granWrite p i (o / 4096) (o % 4096) bs, false)
    | none => (s.dramWrite a0 bs, false)

/-- Write bytes of a page; the answer says whether a partial write met uncorrectable data (R380, R393). -/
def State.pageWrite (s : State) (l off : Nat) (bs : List Byte) (ecc src part : Nat) (own : Bool) (word : Nat := 0) : State × Bool :=
  (pieces off bs.length).zipIdx.foldl (fun a x =>
    let (s, ue) := a.1.pieceWrite l x.1.1 (slice bs (x.1.1 - off) x.1.2) (if x.2 = word then ecc else 0) src part own
    (s, a.2 || ue)) (s, false)

/-! ## Who may access what (R383, R386) -/

/-- The page window that a remote access names in `ARG`, on the port die of its page (R386). -/
def State.winOf (s : State) (l arg : Nat) : PageWin := Tbl.get {} s.mem.wins (256 * pageDie l + arg % 256)

/-- The length of a partition's mirror region (R407). -/
def Twin.region (x : Twin) (l : Nat) : Bool := match x.base with
  | some b => decide (b ≤ l ∧ l < b + x.reserve)
  | none => false

/-- The cause of R402 for which the kind, the owner or the window refuses an access, 0 for none (R35, R386, R410, R423). `auth` says
whether a remote packet authenticates under a key slot, `port` the Lantern port it came by. -/
def State.pageCause (s : State) (x : PageAcc) (arg : Nat) (port : Option Nat) (auth : Nat → Bool) : Nat :=
  let l := x.page
  let e := s.pageEnt l
  let w := (s.part e.owner).twin
  let bound := (s.job e.owner).isSome
  if x.src = 3 then 0
  else if e.kind = .system then 2
  else if x.src = 0 then
    if e.owner ≠ x.part then 3
    else if e.kind = .log ∨ (e.kind = .mirror ∧ x.write) then 2 else 0
  else if x.src = 2 then
    if x.part < 16 ∧ e.owner ≠ x.part then 3
    else if (e.kind = .tallyA ∨ e.kind = .tallyB ∨ e.kind = .log) ∧ x.write ∧ bound then 4
    else if e.kind = .mirror ∧ x.write then 2 else 0
  else if e.kind = .window then
    let v := s.winOf l arg
    if v.isOpen ∧ v.owner = e.owner ∧ v.first ≤ l ∧ l < v.first + v.count ∧ bitOn v.rights (b1 x.write) ∧ auth v.key then 0 else 3
  else if e.kind = .mirror then
    if x.write then
      if w.st ∈ [TwinSt.syncing, .bound] ∧ w.peerDev = x.dev ∧ w.region l ∧ (port = some w.portA ∨ port = some w.portB) then 0 else 2
    else match w.spare with
      | some (dev, key) => if w.exported ∧ dev = x.dev ∧ auth key then 0 else 3
      | none => 2
  else if (e.kind = .tallyA ∨ e.kind = .tallyB ∨ e.kind = .log) ∧ x.write ∧ bound then 4
  else 2

/-- Whether a device reset still checks the kept pages of some channel: until the last of them no page is accessible (R390). -/
def State.keptWait (s : State) : Bool :=
  s.hub.reset.isSome && (List.range 16).any fun c => (s.chan c).st == .training || (s.chan c).st == .selfRefresh

/-- Why an access is refused, 0 for none: address, mapping and channel before kind and owner (R378, R383, R386, R387, R390). -/
def State.accCause (s : State) (x : PageAcc) (arg : Nat) (port : Option Nat) (auth : Nat → Bool) : Nat :=
  let e := s.pageEnt x.page
  if x.addr / 2 ^ 42 ≠ 0 ∨ pageBytes < x.addr % pageBytes + x.len ∨ x.page ∈ s.mem.mapBad ∨ e.kind = .unmapped then 1
  else if (s.chan (ppnChan e.ppn)).st ≠ .up ∨ s.keptWait then 5
  else s.pageCause x arg port auth

/-- What the SRAM of a Page Map entry meets on an access (R387): `e` 1 corrected in place, 2 uncorrectable. -/
def State.mapEcc (s : State) (l e : Nat) : State :=
  if e = 1 then
    let (v, s) := s.draw 8
    s.report 0x0605 4 0xFF (mapUnit l) [(8, v.toNat), (8, 0)]
  else if e = 2 ∧ l ∉ s.mem.mapBad then
    let (v, s) := s.draw 8
    ({ s with mem := { s.mem with mapBad := l :: s.mem.mapBad } }).report 0x0606 4 0xFF (mapUnit l) [(8, v.toNat), (8, 1)]
  else s

/-- The attempt of a partition has consumed uncorrectable data (R37, R393). -/
def State.consumedUe (s : State) (part : Nat) : State :=
  if part < 16 then s.modJob part fun j => if j.st = .running then { j with faultSeen := true } else j else s

/-- Whether a page is one of a tally whose step the Calends has closed: the step writes it no more (R41). -/
def State.closedTally (s : State) (l : Nat) : Bool :=
  match s.tallyOf l with
  | some (p, _) => match s.job p with
    | some j => j.writesBlocked
    | none => false
  | none => false

/-- Whether a request carries an authentication unit: one of another device to a window, or a read of a mirror region (R386, R423, R538). -/
def State.pageUnit (s : State) (pkt : Packet) : Bool :=
  let e := s.pageEnt (bitsN pkt.addr 18 24)
  pkt.srcDev != s.hub.devId && (e.kind == .window || (e.kind == .mirror && pkt.kind == .readReq))

/-- The key slot under which a request's unit is tested (R386, R423). -/
def State.pageKey (s : State) (pkt : Packet) : Nat :=
  let l := bitsN pkt.addr 18 24
  let e := s.pageEnt l
  if e.kind = .window then (s.winOf l pkt.arg.toNat).key else ((s.part e.owner).twin.spare.getD (0, 0)).2

/-- The access that a packet asks of a page (R386, R402). -/
def State.pageAcc (s : State) (pkt : Packet) : PageAcc :=
  { addr := pkt.addr, len := reqLen (s.pageUnit pkt) pkt, write := pkt.kind == .write, dev := pkt.srcDev, part := pkt.srcPart
    src := if pkt.srcDev ≠ s.hub.devId then 1 else if pkt.srcKind = .hub then 3 else 0 }

/-- Why a packet's access is refused, 0 for none. -/
def State.pageCheck (s : State) (pkt : Packet) (inPort : Option Nat) : Nat :=
  s.accCause (s.pageAcc pkt) pkt.arg.toNat inPort fun k => s.authOk k pkt

/-- A unit that has passed its test is noted (R538). -/
def State.pageNote (s : State) (pkt : Packet) : State := if s.pageUnit pkt then s.authNote (s.pageKey pkt) pkt else s

/-- `PAGE_ACCESS` (R386 and its sub-effects): a port die translates a packet to a device address, refuses it or performs it. A write of
a tile to a tally page after the close of its step is dropped (R41), and answered as performed (DESIGN CHOICE, log 89). A partial write that
uncorrectable data has dropped is consumed by its source (R380, R393): the completion carries the signal beside its status (log 135). `ecc` is
what the codeword numbered `word` of the access meets, `mapEcc` what the entry of the Page Map meets. -/
def execPageAccess (t : Nat) (pkt : Packet) (ecc mapEcc word : Nat) (inPort : Option Nat) (s : State) : Out :=
  let s := s.adv t
  .next <|
    if pkt.kind ≠ .write ∧ pkt.kind ≠ .readReq then s
    else
      let l := bitsN pkt.addr 18 24
      let s := s.mapEcc l mapEcc
      let x := s.pageAcc pkt
      let unit := s.pageUnit pkt
      let c := s.pageCheck pkt inPort
      if c ≠ 0 then (s.pageRefuse x c).reply pkt .pageRefused
      else
        let s := s.pageNote pkt
        if x.src = 0 ∧ x.write ∧ s.closedTally l then s.reply pkt .ok
        else if x.write then
          let (s, ue) := s.pageWrite l (x.addr % pageBytes) (reqData unit pkt) ecc 3 x.part (x.src == 0) word
          (if ue ∧ pkt.srcDev = s.hub.devId then s.consumedUe x.part else s).reply pkt .ok ue
        else
          let (s, bs, ue) := s.pageRead l (x.addr % pageBytes) x.len ecc 0 x.part (x.src == 0) word
          s.replyData pkt bs ue

/-- `PAGEMAP_REBUILD` (R387): the Steward rewrites an entry from the journal, and accesses to its page are translated again; an entry whose copy
cannot be read stays refused (log 132). -/
def execPagemapRebuild (t page : Nat) (s : State) : Out :=
  let s := s.adv t
  .next <|
    if page ∈ s.mem.mapBad ∧ s.journalReads page then
      { s with mem := { s.mem with mapBad := s.mem.mapBad.filter (· != page),
                                   map := Tbl.set {} page (Tbl.get {} s.mem.journal page) s.mem.map } }
    else s

/-! ## Scrubbing, migration and zeroing -/

/-- The scrub has read the last codeword of a page: a stopped migration of a page now free of errors starts again (R396). -/
def State.scrubPage (s : State) (l ppn : Nat) : State :=
  if l ∈ s.mem.migStopped ∧ ¬ s.dramBad (pageBytes * ppn) pageBytes then
    ({ s with mem := { s.mem with migStopped := s.mem.migStopped.filter (· != l), migWait := s.mem.migWait ++ [(l, 2)] } }).migStart (pageDie l)
  else s

/-- The scrubber reads a codeword (R379, R381). -/
def State.scrubWord (s : State) (addr ecc l : Nat) : State :=
  let s := if ecc = 2 then s.markBad addr else s
  if s.mem.bad.contains (addr / 64) then s.ddrUe addr 1 l 0xFF
  else if ecc = 3 then (s.miscorrect addr).ddrCe addr 1
  else if ecc = 1 then s.ddrCe addr 1 else s

/-- `SCRUB_READ` (R381, R379, R395, R396): the scrubber reads the codeword of a physical address in an idle slot. -/
def execScrubRead (t addr ecc : Nat) (s : State) : Out :=
  let s := s.adv t
  .next <|
    let ppn := addr / pageBytes
    let ch := ppnChan ppn
    if (s.chan ch).st ≠ .up ∨ (s.chan ch).capacity * 4096 ≤ ppn % 1048576 then s
    else
      let hit := s.mem.map.find? fun e => e.2.kind != .unmapped && e.2.ppn == ppn
      let l := (hit.map (·.1)).getD 0xFFFFFF
      let s := s.scrubWord addr ecc l
      let s := if addr % pageBytes / 64 = 4095 ∧ hit.isSome then s.scrubPage l ppn else s
      if addr / 64 % (4096 * 1048576) = (s.chan ch).capacity * 4096 * 4096 - 1 then s.mcCount ch 2 else s

/-- The end of a migration (R395): the entry names the new page in one update, and the old page is retired. -/
def State.migEnd (s : State) (die : Nat) (m : Migration) : State :=
  let s := s.setPage m.page { s.pageEnt m.page with ppn := m.newPpn, retired := false }
  let s := ({ s with mem := { s.mem with mig := Tbl.set none die none s.mem.mig } }).retirePpn m.oldPpn
  (s.report 0x0604 4 (s.pageEnt m.page).owner (ddrUnit m.oldPpn) [(8, m.cause), (8, 0), (16, 0), (24, m.newPpn), (8, 0), (24, m.page)]).migStart die

/-- A migration that reads an uncorrectable codeword stops (R396). -/
def State.migStop (s : State) (die : Nat) (m : Migration) : State :=
  let s := { s with mem := { s.mem with mig := Tbl.set none die none s.mem.mig, migStopped := m.page :: s.mem.migStopped,
                                        used := s.mem.used.filter (· != m.newPpn), zeroing := s.mem.zeroing ++ [m.newPpn] } }
  (s.report 0x0604 4 (s.pageEnt m.page).owner (ddrUnit m.oldPpn) [(8, m.cause), (8, 1), (16, 0), (24, m.newPpn), (8, 0), (24, m.page)]).migStart die

/-- The codewords of the block that a migration reads: `err` names one and what it meets (R379). -/
def State.migEcc (s : State) (a : Nat) (err : Option (Nat × Nat)) : State := match err with
  | none => s
  | some (c, e) =>
    let w := a + 64 * (c % 64)
    if e = 2 then s.markBad w
    else if s.mem.bad.contains (w / 64) ∨ e = 0 then s
    else (if e = 3 then s.miscorrect w else s).ddrCe w 2

/-- `PAGE_MIGRATION_COPY` (R379, R395, R396): the port die copies the next 4 KiB block; `err` is the codeword of the block that needs correction
(1), reads uncorrectable (2) or is miscorrected (3), if one does. A page of a channel that has gone out of service is not copied: the access
is refused (R378), and the migration stops (DEDUCED, log 133). -/
def execPageMigrationCopy (t die : Nat) (err : Option (Nat × Nat)) (s : State) : Out :=
  let s := s.adv t
  .next <|
    match Tbl.get none s.mem.mig die with
    | none => s
    | some (m : Migration) =>
      let a := pageBytes * m.oldPpn + 4096 * m.done
      if (s.chan (ppnChan m.oldPpn)).st ≠ .up ∨ (s.chan (ppnChan m.newPpn)).st ≠ .up then (s.downRefuse m.page false).migStop die m
      else
      let s := s.migEcc a err
      match s.mem.bad.find? fun c => decide (a ≤ 64 * c ∧ 64 * c < a + 4096) with
      | some c => (s.ddrUe (64 * c) 2 m.page (s.pageEnt m.page).owner).migStop die m
      | none =>
        let s := s.dramCopy (pageBytes * m.newPpn + 4096 * m.done) a 4096
        let m := { m with done := m.done + 1 }
        if m.done = 64 then s.migEnd die m else { s with mem := { s.mem with mig := Tbl.set none die (some m) s.mem.mig } }

/-- A page that has been zero-filled returns to the free pool (R388). -/
def State.zeroed (s : State) (ppn : Nat) : State :=
  if ppn ∈ s.mem.zeroing then
    let s := s.dramBlit (pageBytes * ppn) pageBytes []
    ({ s with mem := { s.mem with zeroing := s.mem.zeroing.filter (· != ppn) } }).migStart (pageDie ppn)
  else s

/-- Zero every page that awaits it. -/
def State.zeroAll (s : State) : State := s.mem.zeroing.foldl State.zeroed s

/-! ## Training and loss of channels (R374 to R378, R391, R397) -/

/-- A kept page is lost (R391): unmapped, recorded, listed until cold boot. A tally page's loss leaves its job's last generation
incomplete. -/
def State.keptLose (s : State) (l cause : Nat) : State :=
  let e := s.pageEnt l
  let code := match e.kind with
    | .unmapped => 0
    | .plain => 1
    | .tallyA => 2
    | .tallyB => 3
    | .mirror => 4
    | .log => 5
    | .window => 6
    | .system => 7
  let s := match s.tallyOf l with
    | some (p, i) => s.modJob p fun j => { j with lostPages := if j.lostPages.contains i then j.lostPages else i :: j.lostPages }
    | none => s
  let s := s.unmapPages [l]
  let s := { s with mem := { s.mem with keptLost := s.mem.keptLost ++ [(l, cause)] } }
  (s.report 0x0607 4 e.owner (ddrUnit e.ppn) [(8, cause), (24, 0), (24, l), (8, code)]).event 0x0703 e.owner [(8, cause), (32, l)]

/-- The mapped pages whose physical page lies on a channel, kept ones only. -/
def State.keptOn (s : State) (ch : Nat) : List Nat :=
  (s.mem.map.filter fun e => e.2.kept && e.2.kind != .unmapped && ppnChan e.2.ppn == ch).map (·.1)

/-- The digest of a kept page under its logical page number (R390, R414). -/
def State.keptDigest (s : State) (l : Nat) : BitVec 128 := s.gransDigest l fun g => s.pageBase l + 4096 * g

/-- Steps 2 and 3 of R390: digests of every kept page, and every `UP` channel into self-refresh. -/
def State.keepBegin (s : State) : State :=
  let ks := s.mem.map.filter fun e => e.2.kept && e.2.kind != .unmapped
  let s := { s with mem := { s.mem with keptDig := ks.foldl (fun t e => Tbl.set 0 e.1 (s.keptDigest e.1) t) [] } }
  (List.range 16).foldl (fun s ch => if (s.chan ch).st = .up then s.modChan ch fun x => { x with st := .selfRefresh } else s) s

/-- Step 5 of R390 for one channel: kept pages whose digest differs or that read uncorrectable are lost (R391); each uncorrectable codeword of a
page is recorded as one that a read meets (R379, R393). -/
def State.keepCheck (s : State) (ch : Nat) : State :=
  (s.keptOn ch).foldl (fun s l =>
    if s.dramBad (s.pageBase l) pageBytes then (s.dieRead (s.pageBase l) pageBytes 0 l 0xFF).keptLose l 3
    else if s.keptDigest l ≠ Tbl.get 0 s.mem.keptDig l then s.keptLose l 1
    else s) s

/-- Mappings that are not kept are removed and their pages zeroed (R389). -/
def State.keepOnly (s : State) : State :=
  s.unmapPages ((s.mem.map.filter fun e => !e.2.kept && e.2.kind != .unmapped).map (·.1))

/-- The retired pages of a channel's module as the ledger holds them, and those that the power cycle has retired beyond the ledger's capacity;
entries of another module of the channel are dropped (R397). -/
def State.ledgerMerge (s : State) (ch serial : Nat) : State :=
  let l : List (Nat × Nat × Nat) := s.flash.memLedger.filter fun e => e.2.1 != ch || e.1 == serial
  let pages : List Nat := (l.filter fun e => e.2.1 == ch).map fun e => 1048576 * ch + e.2.2
  ({ s with flash := { s.flash with memLedger := l } }).modChan ch fun x =>
    { x with serial, retired := pages ++ if x.serial = serial then x.retired.filter fun p => !pages.contains p else [] }

/-- The common data rate (R374): the highest that the SPD of every present module declares and `DDR_RATE_MAX` permits. -/
def State.ddrRate (s : State) : Nat :=
  (List.range 16).foldl (fun n c => if (s.chan c).spd = 0 then n else min n (s.chan c).spd) (min 3 s.hub.config.ddrRateMax)

/-- Every channel that is `UP` runs at the common rate (R374), as far as the modules whose SPD has been read declare it (DEDUCED, log 136). -/
def State.rateAll (s : State) : State :=
  let r := s.ddrRate
  (List.range 16).foldl (fun (s : State) c => if (s.chan c).st = .up then s.modChan c fun x => { x with rate := r } else s) s

/-- Whether a module is one of R373: its capacity in GiB and its rate. -/
def ddrSupported (rate capacity : Nat) : Bool := [64, 128, 256].contains capacity && decide (1 ≤ rate ∧ rate ≤ 3)

/-- A channel's module is omitted with a cause, and the kept pages on it are lost (R376, R377, R391). -/
def State.ddrOmit (s : State) (ch cause rate capacity : Nat) : State :=
  let s := s.modChan ch fun x => { x with st := .omitted, rate := 0, capacity, cause, spd := if cause = 1 then 0 else rate }
  let s := s.report 0x0603 4 0xFF (chanUnit4 ch) [(8, cause), (8, if cause ≤ 3 then cause else 0), (8, rate)]
  (s.keptOn ch).foldl (fun s l => s.keptLose l 2) (s.event 0x0701 0xFF [(8, ch), (8, cause)])

/-- How the training of a channel ends (R376): 0 `UP`; 1 to 4 the cause of an omission in the order of its steps: a module outside R373, two
failed trainings, the write-read test (more than 64 codewords corrected, or any uncorrectable), a channel that configuration disables. -/
def ddrCause (disabled : Bool) (spd : DdrSpd) (fails : Nat) (test : DdrTest) : Nat :=
  if disabled then 4
  else if ¬ ddrSupported spd.rate spd.capacity then 1
  else if 2 ≤ fails then 2
  else if 64 < test.corrected ∨ 0 < test.uncorrectable then 3
  else 0

/-- `DDR_TRAINING_COMPLETE` (R373 to R377, R390, R391, R397): training of a channel ends `EMPTY`, `UP`, or `OMITTED` with a cause. -/
def execDdrTrainingComplete (t ch : Nat) (present disabled : Bool) (spd : DdrSpd) (fails : Nat) (test : DdrTest) (s : State) : Out :=
  let s := s.adv t
  .next <|
    if (s.chan ch).st ≠ .training then s
    else if ¬ present then
      (s.keptOn ch).foldl (fun s l => s.keptLose l 2)
        (s.modChan ch fun x => { x with st := .empty, rate := 0, capacity := 0, cause := 0, spd := 0 })
    else if ddrCause disabled spd fails test = 0 then
      let s := (s.modChan ch fun x => { x with st := .up, capacity := spd.capacity, cause := 0, spd := spd.rate }).rateAll
      (s.ledgerMerge ch spd.serial).keepCheck ch
    else (s.ddrOmit ch (ddrCause disabled spd fails test) spd.rate spd.capacity).rateAll

/-- `DDR_PHY_LOCK_LOSS` (R378): a channel's PHY loses lock. -/
def execDdrPhyLockLoss (t ch : Nat) (s : State) : Out := .next ((s.adv t).chanOffline ch 5)

/-! ## The CXL.mem window (R394, R398) -/

/-- The device address of a host physical address inside the HDM range (R398). -/
def State.hdmAddr (s : State) (hpa : Nat) : Option Nat :=
  if s.mem.hdmOn ∧ s.mem.hdmBase ≤ hpa ∧ hpa < s.mem.hdmBase + s.hub.config.hdmSize then
    some (pageBytes * s.hub.config.hdmPageBase + (hpa - s.mem.hdmBase))
  else none

/-- `CXL_MEM_READ` (R387, R394, R398): data, with poison when it is uncorrectable or the page is refused. -/
def execCxlMemRead (t hpa len : Nat) (ecc : CxlEcc) (s : State) : Out :=
  let s := s.adv t
  .next <|
    match s.hdmAddr hpa with
    | none => s
    | some a =>
      let x : PageAcc := { addr := a, len, src := 2, dev := s.hub.devId, part := 0xFF }
      let s := s.mapEcc x.page ecc.map
      let c := s.accCause x 0 none fun _ => false
      if c ≠ 0 then
        let (v, s) := (s.pageRefuse x c).draw (8 * len)
        s.emit (.hostRead hpa (leBytes len v.toNat) true)
      else
        let (s, bs, ue) := s.pageRead x.page (a % pageBytes) len ecc.data 4 0xFF false
        s.emit (.hostRead hpa bs ue)

/-- `CXL_MEM_WRITE` (R35, R380, R387, R394, R398): a refused write is dropped, and the host gets the event `PAGE_REFUSED`; the data
carries what the access meets. -/
def execCxlMemWrite (t hpa : Nat) (data : CxlData) (s : State) : Out :=
  let s := s.adv t
  .next <|
    match s.hdmAddr hpa with
    | none => s
    | some a =>
      let x : PageAcc := { addr := a, len := data.bytes.length, write := true, src := 2, dev := s.hub.devId, part := 0xFF }
      let s := s.mapEcc x.page data.ecc.map
      let c := s.accCause x 0 none fun _ => false
      if c ≠ 0 then (s.pageRefuse x c).event 0x0705 0xFF [(8, c), (64, hpa)]
      else (s.pageWrite x.page (a % pageBytes) data.bytes data.ecc.data 3 0xFF false).1

end Sys2Proof.Machine
end

