-- ==== Sys2Proof/Machine/Sync.lean ====
section
/-! DEFINITION. Signals from outside a tile, barrier trees and Ides timers (07 R231 to R250). -/

namespace Sys2Proof.Machine

/-! ## Signals (R232, R233, R236, R243) -/

/-- `SIGNAL_RAISE_RECEIVE` (R232, R236): the MU applies a raise that reaches a tile, forwards it to the shadows, and acknowledges it;
one for a moving tile is turned away to be retried, one for a partition under flush is refused. -/
def execSignalRaiseReceive (t : Nat) (pkt : Packet) (amount : Nat) (s : State) : Out :=
  let s := s.adv t
  .next <| s.arrive pkt fun k s =>
    let n := pkt.arg.toNat % 64
    ((s.raise k n amount 0x180).forward k (.raise n amount 0x180)).reply pkt .ok

/-! ## Barriers (R241, R242) -/

/-- The barrier of a number in a partition's Ordo (R240). -/
def State.barDef (s : State) (p n : Nat) : Option BarDef :=
  match (s.part p).ordo with
  | some o => o.barriers.find? fun b => b.id == n
  | none => none

/-- The router of a tile's site. -/
def State.tileRouter (s : State) (t : Nat) : Nat := routerOf (s.siteOfTile t)

/-- The devices of the group of a barrier of group scope, and the group's Herald device (R242). -/
def State.barGroup (s : State) (p : Nat) (d : BarDef) : Option (Nat × List Nat) :=
  match s.job p, (s.part p).ordo with
  | some j, some o =>
    match o.groups.find? fun g => g.group == d.group with
    | some g => some (j.heraldOf g, g.members)
    | none => none
  | _, _ => none

/-- How many arrivals a router collects in a generation: its cluster's members; at the root also one from every other router of the
tree, and on the Herald's device of a group one from every other device. -/
def State.barTarget (s : State) (p : Nat) (d : BarDef) (r : Nat) : Nat :=
  let own := (d.members.filter fun t => s.tileRouter t == r).length
  if r = s.tileRouter d.root then
    let others := ((d.members.map s.tileRouter).dedup.filter fun x => x != r).length
    let far := if d.scope = 1 then
        match s.barGroup p d with
        | some (h, ms) => if h = s.hub.devId then (ms.filter fun m => m != s.hub.devId).length else 0
        | none => 0
      else 0
    own + others + far
  else own

/-- The releases of a generation leave the root for every member of this device. -/
def State.barRelease (s : State) (d : BarDef) : State :=
  s.injects (d.members.map fun t =>
    { destDev := s.hub.devId, destKind := .tile, destIdx := t, srcDev := s.hub.devId, srcKind := .combiner, srcIdx := 4 * s.tileRouter d.root,
      kind := .barrier, cls := 0, arg := BitVec.ofNat 32 d.id })

/-- The leg of a generation of group scope between devices: an arrival to the group's Herald device or a release from it (R242). It goes hub to hub with
the barrier, the group and, for a release, bit 16 in `ARG` (DESIGN CHOICE, log 111). -/
def State.barLeg (s : State) (p : Nat) (d : BarDef) (dev : Nat) (release : Bool) : Packet :=
  s.commitPacket dev p .barrier [] |> fun x => { x with arg := BitVec.ofNat 32 (d.id + 256 * d.group + 65536 * b1 release) }

/-- `BARRIER_ARRIVAL_RECEIVE` (R241, R242): a router of a barrier's tree collects an arrival; with its last one it sends one up, and
the root, or the root of the group's Herald device, releases. -/
def execBarrierArrivalReceive (t router p bar : Nat) (s : State) : Out :=
  let s := s.adv t
  .next <|
    match s.barDef p bar with
    | none => s
    | some d =>
      let need := s.barTarget p d router
      let key := 64 * p + bar
      let n := Tbl.get 0 (s.router router).barArr key + 1
      if need = 0 then s
      else if (s.router router).down then s.rtrCount router 4
      else if n < need then s.modRouter router fun x => { x with barArr := Tbl.set 0 key n x.barArr }
      else
        let s := s.modRouter router fun x => { x with barArr := Tbl.set 0 key 0 x.barArr }
        if router ≠ s.tileRouter d.root then s.inject
          { destDev := s.hub.devId, destKind := .tile, destIdx := d.root, srcDev := s.hub.devId, srcKind := .combiner, srcIdx := 4 * router,
            kind := .barrier, cls := 0, srcPart := p, arg := BitVec.ofNat 32 bar }
        else if d.scope = 1 then
          match s.barGroup p d with
          | none => s
          | some (h, ms) =>
            if h = s.hub.devId then
              (s.injects ((ms.filter fun m => m != h).map fun m => s.barLeg p d m true)).barRelease d
            else s.inject (s.barLeg p d h false)
        else s.barRelease d

/-- `BARRIER_RELEASE_RECEIVE` (R241, R243): a release reaches a member that has arrived: its completion count rises, and that of its
shadows. -/
def execBarrierReleaseReceive (t tile bar : Nat) (s : State) : Out :=
  let s := s.adv t
  .next <|
    let k := s.siteOfTile tile
    match s.barrier k bar with
    | none => s
    | some _ =>
      let c := (s.site k).bar bar
      if (s.router (routerOf k)).down then s.rtrCount (routerOf k) 4
      else if (s.site k).st = .tile ∧ c.a ≠ c.c then
        (s.fwdApply k (.release bar)).forward k (.release bar)
      else s

/-! ## Ides timers (R249, R250) -/

/-- An Ides timer of an attempt expires (R250): the first one records, raises `IDES_EXPIRED`, and the job is faulted and harvested; a
later one is only recorded and counted. -/
def State.idesExpire (s : State) (p cls cause k : Nat) (site : Bool) (rec : State → State) : State :=
  match s.job p with
  | none => s
  | some j =>
    let s := rec s
    let id := if site then siteId k else 0xFFFF
    if j.idesFired ∨ j.faulted then s.modPart p fun x => { x with idesLater := x.idesLater + 1 }
    else ((s.event 0x0201 p [(16, cls), (16, id)]).modJob p fun j => { j with idesFired := true }).hang p cls cause id

/-- Whether the timers of a partition's attempt run: from the step release to the close (R249), a fault in between or not (R250). -/
def State.idesRuns (s : State) (p : Nat) : Bool :=
  match s.job p with
  | some j => j.timers
  | none => false

/-- Whether a wait's Ides timer has expired (R249): a send's credit wait and `X.EPHASE` have none. -/
def Wait.expired (w : Wait) (i : Ides) (now : Nat) : Bool :=
  w.kind != .send && w.kind != .ephase && !w.timedOut &&
    decide (w.since + (if w.kind = .sigwaitl then i.longUs else i.waitUs) * ftUs ≤ now)

/-- The contexts of a sequencer that wait: (handler or main, context, bank, wait). -/
def SeqSt.waits (q : SeqSt) : List (Bool × Nat × Bank × Wait) :=
  [(true, q.ctx, q.hand), (false, 0, q.main)].filterMap fun b => b.2.2.wait.map fun w => (b.1, b.2.1, b.2.2, w)

/-- Whether the event that a context waits for is there: its instruction would complete (R249). -/
def State.eventHolds (s : State) (k c : Nat) (b : Bank) : Bool :=
  match (s.site k).fetchAt b.pc.toNat with
  | .word w _ => match xDecode w with
    | some op => (xTry op s k { rd := bitsN w 7 5, a := b.reg (bitsN w 15 5), b := b.reg (bitsN w 20 5), ctx := c }).goesOn
    | none => false
  | _ => false

/-- A wait's Ides timer has expired: it does not expire again. -/
def SeqSt.timeUp (q : SeqSt) (handler : Bool) : SeqSt :=
  let up := fun (b : Bank) => { b with wait := b.wait.map fun w => { w with timedOut := true } }
  if handler then { q with hand := up q.hand } else { q with main := up q.main }

/-- `IDES_WAIT_EXPIRE` (R249, R250): the record names the site, the context, the instruction and what it waits on. A timer does not expire once
the event that ends the wait is there. -/
def execIdesWaitExpire (t site : Nat) (s : State) : Out :=
  let s := s.adv t
  .next <|
    let p := s.partField site
    match (s.site site).seq.waits.find? fun w => w.2.2.2.expired (s.part p).ides s.now && !s.eventHolds site w.2.1 w.2.2.1 with
    | none => s
    | some (h, c, _, w) =>
      if s.siteWorks site seqUnit ∧ s.idesRuns p then
        (s.modSeq site fun q => q.timeUp h).idesExpire p 0x0401 1 site true fun s =>
          s.reportSite 0x0401 site (0x100 + c) [(8, waitCode w.kind), (8, w.arg)]
      else s

/-- The phase Ides limit of a partition's current phase in µs (R152, R249). -/
def State.phaseUs (s : State) (p ph : Nat) : Nat :=
  match (s.part p).ordo with
  | some o => match o.phases[ph]? with
    | some e => if e.idesUs = 0 then (s.part p).ides.phaseUs else e.idesUs
    | none => (s.part p).ides.phaseUs
  | none => (s.part p).ides.phaseUs

/-- `IDES_PHASE_EXPIRE` (R249, R250): the timer of a phase that not every tile has completed. -/
def execIdesPhaseExpire (t p : Nat) (s : State) : Out :=
  let s := s.adv t
  .next <|
    match s.job p with
    | none => s
    | some j =>
      match if s.idesRuns p then j.phaseFt.find? fun e => decide (e.2 + s.phaseUs p e.1 * ftUs ≤ s.now) else none with
      | none => s
      | some (ph, _) =>
        (s.modJob p fun j => { j with phaseFt := Tbl.drop ph j.phaseFt }).idesExpire p 0x0402 2 0 false fun s => s.report 0x0402 9 p p []

/-- `IDES_STEP_EXPIRE` (R249, R250): not once every phase is complete, when the close is due. -/
def execIdesStepExpire (t p : Nat) (s : State) : Out :=
  let s := s.adv t
  .next <|
    match s.job p with
    | none => s
    | some j =>
      if s.idesRuns p ∧ j.stepTimer ∧ j.phase < s.phaseCount p ∧ j.releaseFt + (s.part p).ides.stepUs * ftUs ≤ s.now then
        (s.modJob p fun j => { j with stepTimer := false }).idesExpire p 0x0403 3 0 false fun s => s.report 0x0403 9 p p []
      else s

end Sys2Proof.Machine
end

