-- ==== Sys2Proof/Machine/TimeBlock.lean ====
section
/-! DEFINITION. Fleet Time: PTP, Lantern time transfer, SYNC between twins, source selection and the servo (09 R264 to R276). -/

namespace Sys2Proof.Machine

/-- Change the FT block. -/
def State.modTime (s : State) (f : TimeSt → TimeSt) : State := { s with time := f s.time }
/-- What a Lantern port knows of its neighbour's time. -/
def State.portTime (s : State) (i : Nat) : PortTime := Tbl.get {} s.time.ports i
/-- Change it. -/
def State.modPortTime (s : State) (i : Nat) (f : PortTime → PortTime) : State :=
  s.modTime fun x => { x with ports := Tbl.set {} i (f (s.portTime i)) x.ports }

/-! ## PTP (R267, R268) -/

/-- The data set of a grandmaster, most significant first, as the best master clock algorithm compares it (R267). -/
def ptpRank (m : PtpMaster) : List Nat := [m.priority1, m.clockClass, m.accuracy, m.variance, m.priority2, m.identity.toNat]
/-- What the algorithm compares of two paths to one grandmaster: steps removed, the sender's identity, the receiving port (R267). -/
def ptpPath (m : PtpMaster) : List Nat := [m.steps, m.sender.toNat, m.port]

/-- Lexicographic comparison. -/
def rankLt : List Nat → List Nat → Bool
  | a :: as, b :: bs => decide (a < b) || (a == b && rankLt as bs)
  | _, _ => false

/-- Whether a master is better than another (R267; IEEE 1588's data set comparison): by grandmaster, and of one grandmaster by path. -/
def ptpBetter (a b : PtpMaster) : Bool :=
  if a.identity = b.identity then rankLt (ptpPath a) (ptpPath b) else rankLt (ptpRank a) (ptpRank b)

/-- The best master of a list (R268). -/
def bestMaster : List PtpMaster → Option PtpMaster
  | [] => none
  | m :: ms => match bestMaster ms with
    | some b => if ptpBetter b m then some b else some m
    | none => some m

/-- Select the master over the Announce messages of both ports together (R267, R268). -/
def State.selectMaster (s : State) : State :=
  s.modTime fun x =>
    let m := bestMaster x.masters
    if m = x.master then x else { x with master := m, ptpRx := none, ptpPair := none, ptpReq := none, ptpDelay := 0 }

/-- The FT of a time of the PTP timescale in quarter-nanoseconds (R265). -/
def TimeSt.ftOf (x : TimeSt) (ptp : Nat) : Int := (ptp : Int) - ftSec * (x.epoch : Int)

/-- The offset from the selected master: own FT less the master's, path delay taken off (R265, R267). -/
def TimeSt.ptpOffset (x : TimeSt) : Option Int := x.ptpPair.map fun e => (e.1 : Int) - x.ftOf e.2 - x.ptpDelay

/-- Whether the device takes a PTP message: its version, transport and domain are those of R267. -/
def TimeSt.takes (x : TimeSt) (m : PtpMsg) : Bool :=
  m.version == 2 && decide (m.minor ≤ 1) && m.transport != .other && m.domain == x.domain && decide (m.port < 2)

/-- Whether a message comes from the selected master. -/
def TimeSt.fromMaster (x : TimeSt) (m : PtpMsg) : Bool := match x.master with
  | some y => y.port == m.port && y.sender == m.identity
  | none => false

/-- What a message of the selected master does to the measurement of its time (R267): a one-step Sync, or a two-step one with its Follow_Up, gives a pair
of times; the answers of the two delay mechanisms give the path delay, half of the round trip. -/
def TimeSt.exchange (x : TimeSt) (now : Nat) (b : PtpBody) : TimeSt :=
  match b with
  | .sync li origin =>
    if -7 ≤ li ∧ li ≤ 1 then
      match origin with
      | some o => { x with ptpRx := some now, ptpPair := some (now, o) }
      | none => { x with ptpRx := some now }
    else x
  | .followUp o => match x.ptpRx with
    | some r => { x with ptpPair := some (r, o) }
    | none => x
  | .delayResp sent received => match x.ptpPair with
    | some (r, o) => if x.ptpReq = some sent then { x with ptpReq := none, ptpDelay := (((r : Int) - sent) + ((received : Int) - o)) / 2 } else x
    | none => x
  | .pdelayResp sent turn => if x.ptpReq = some sent then { x with ptpReq := none, ptpDelay := (((now : Int) - sent) - turn) / 2 } else x
  | _ => x

/-- Whether a message completes a pair of times of a Sync. -/
def syncComplete : PtpBody → Bool
  | .sync li (some _) => decide (-7 ≤ li ∧ li ≤ 1)
  | .followUp _ => true
  | _ => false

/-- After each Sync of the selected master the device asks for the path delay: its neighbour on a port where the peer-to-peer mechanism has been heard,
else the master (R267; when a request leaves is a DESIGN CHOICE, log 154). -/
def State.delayAsk (s : State) (port : Nat) : State :=
  (s.modTime fun x => { x with ptpReq := some s.now }).emit
    (if s.time.ptpPeer.contains port then .ptpPdelayReq port else .ptpDelayReq port)

/-- `PTP_MESSAGE_RECEIVE` (R265, R267, R268): a message on a management port: an Announce names a master, and the messages of the selected one give its
offset; a neighbour's delay request is answered, on whichever port; all others are ignored. -/
def execPtpMessageReceive (t : Nat) (m : PtpMsg) (body : PtpBody) (s : State) : Out :=
  let s := s.adv t
  .next <|
    if s.time.takes m then
      match body with
      | .announce a =>
        let a := { a with port := m.port, sender := m.identity }
        (s.modTime fun x => { x with masters := a :: x.masters.filter fun y => y.port != a.port || y.sender != a.sender }).selectMaster
      | .pdelayReq => (s.modTime fun x => { x with ptpPeer := (m.port :: x.ptpPeer).dedup }).emit (.ptpPdelayResp m.port 0)
      | .pdelayResp sent turn =>
        if s.time.master.any fun y => y.port == m.port then s.modTime fun x => x.exchange s.now (.pdelayResp sent turn) else s
      | b =>
        if s.time.fromMaster m then
          let s := s.modTime fun x => x.exchange s.now b
          if syncComplete b ∧ s.time.ptpRx.isSome then s.delayAsk m.port else s
        else s
    else s

/-- `PTP_MASTER_LOSS` (R268): the masters of a port are gone; the other port's best master is selected, if one exists. -/
def execPtpMasterLoss (t port : Nat) (s : State) : Out :=
  let s := s.adv t
  .next (s.modTime fun x => { x with masters := x.masters.filter fun y => y.port != port }).selectMaster

/-! ## Time frames (R269, R270) -/

/-- `TIME_FRAME_SEND` (R269): a trained port sends its time frame. -/
def execTimeFrameSend (t port : Nat) (s : State) : Out :=
  let s := s.adv t
  .next <|
    if (s.port port).st = .up then
      let x := s.portTime port
      let f : TimeFrame :=
        { txFt := s.now, echoTx := x.echoTx, echoRx := x.echoRx, srcDev := s.hub.devId, hops := if s.time.source = 0 then 255 else s.time.hops,
          state := s.time.state, seq := x.seq }
      (s.modPortTime port fun x => { x with sent := (s.now :: x.sent).take 16, seq := x.seq + 1 }).sendFlit port (.time f)
    else s

/-- `TIME_FRAME_RECEIVE` (R269, R270): the frame is echoed by the next one sent; a valid one gives the port's delay and offset. -/
def execTimeFrameReceive (t port : Nat) (f : TimeFrame) (s : State) : Out :=
  let s := s.adv t
  .next <|
    if (s.port port).st = .up then
      let x := s.portTime port
      let td : Int := s.now
      let ta : Int := f.echoTx
      let tb : Int := f.echoRx
      let tc : Int := f.txFt
      let delay := ((td - ta) - (tc - tb)) / 2
      let offset := ((ta - tb) + (td - tc)) / 2 - x.alpha
      let s := s.modPortTime port fun x => { x with echoTx := f.txFt, echoRx := s.now }
      if f.echoTx = 0 ∨ ¬ x.sent.contains f.echoTx ∨ delay < 0 ∨ 40000 < delay then s
      else s.modPortTime port fun x => { x with last := some f, lastRx := s.now, delay, offset }
    else s

/-! ## SYNC (R274) -/

/-- The bound twin with which SYNC is shared: peer device and port (R274). -/
def State.syncTwin (s : State) : Option (Nat × Nat) :=
  (List.range 16).findSome? fun p =>
    let x := (s.part p).twin
    if x.st = .bound then some (x.peerDev, if x.portA = 0x1F then x.portB else x.portA) else none

/-- Whether the device is the SYNC follower (R274). -/
def State.syncFollows (s : State) : Bool := s.time.syncEn && match s.syncTwin with
  | some (d, _) => decide (d < s.hub.devId)
  | none => false

/-- Whether two captures lie within 1 ms (R274). -/
def near (a b : Nat) : Bool := decide (dist a b ≤ ftMs)

/-- Pair the follower's captures with the leader's: own minus leader's (R274); captures without a partner within 1 ms are discarded. -/
def State.syncPairUp (s : State) : State :=
  let x := s.time
  let keep := fun (l : List Nat) => l.filter fun c => decide (s.now ≤ c + ftMs)
  match x.captures.findSome? fun a => (x.partner.find? (near a ·)).map fun b => (a, b) with
  | some (a, b) =>
    s.modTime fun x => { x with captures := keep (x.captures.erase a), partner := keep (x.partner.erase b),
                                syncOffset := some ((a : Int) - b), syncPair := s.now }
  | none => s.modTime fun x => { x with captures := keep x.captures, partner := keep x.partner }

/-- Send a capture of an edge to the twin by a Lantern port (R274). -/
def State.twinTimeSend (s : State) (d i : Nat) : State :=
  let p := { s.commitPacket d 0 .twinTime (leBytes 16 s.now) with epoch := (s.rcfg 0).ver, leg := true }
  if (s.rcfg 0).hold then s.inject p else if i < 24 then s.enqueue i p else s

/-- `SYNC_EDGE` (R274): with SYNC enabled, FT is captured and sent to the twin; edges closer than 1 ms are ignored. -/
def execSyncEdge (t : Nat) (s : State) : Out :=
  let s := s.adv t
  .next <|
    let soon : Bool := match s.time.syncEdge with
      | some e => decide (s.now < e + ftMs)
      | none => false
    if ¬ s.time.syncEn ∨ soon then s
    else match s.syncTwin with
      | none => s
      | some (d, i) =>
        ((s.modTime fun x => { x with syncEdge := some s.now, captures := s.now :: x.captures }).twinTimeSend d i).syncPairUp

/-- `TWIN_TIME_RECEIVE` (R274): the twin's capture of an edge. -/
def execTwinTimeReceive (t capture : Nat) (s : State) : Out :=
  let s := s.adv t
  .next <| if s.time.syncEn then (s.modTime fun x => { x with partner := capture :: x.partner }).syncPairUp else s

/-- `SYNC_FOLLOWER_TIMEOUT` (R274): a follower without a usable pair for 2 s leaves SYNC. -/
def execSyncFollowerTimeout (t : Nat) (s : State) : Out :=
  let s := s.adv t
  .next <|
    if s.time.syncOffset.isSome ∧ s.time.syncPair + 2 * ftSec ≤ s.now then s.modTime fun x => { x with syncOffset := none } else s

/-! ## Source and servo (R271 to R273) -/

/-- FT plus a difference. -/
def ftPlus (a : Nat) (d : Int) : Nat := ((a : Int) + d).toNat

/-- FT steps (R272): the own times that wait for a partner's, and the offsets measured in the old FT, step with it. -/
def TimeSt.stepBy (x : TimeSt) (d : Int) : TimeSt :=
  { x with ft := ftPlus x.ft d, stepped := true, lastUpd := ftPlus x.lastUpd d, ptpRx := x.ptpRx.map (ftPlus · d),
           ptpPair := x.ptpPair.map (fun e => (ftPlus e.1 d, e.2)), ptpReq := x.ptpReq.map (ftPlus · d), holdSince := ftPlus x.holdSince d,
           syncEdge := x.syncEdge.map (ftPlus · d), syncPair := ftPlus x.syncPair d, captures := x.captures.map (ftPlus · d),
           syncOffset := x.syncOffset.map (· + d), ports := x.ports.map fun e => (e.1, { e.2 with offset := e.2.offset + d }) }

/-- A time source: code, Lantern port, device, advertised hops, offset. -/
structure TimeSource where
  code : Nat := 0
  port : Nat := 0
  dev : Nat := 0
  hops : Nat := 255
  offset : Option Int := none
  deriving DecidableEq, Repr

/-- A Lantern neighbour as a source, if its last valid frame allows it (R271): `own` is the device's hop count. -/
def State.lanternSource (s : State) (own i : Nat) : Option TimeSource :=
  match (s.portTime i).last with
  | some f =>
    if (s.port i).st = .up ∧ f.hops < 15 ∧ f.state = 2 ∧ f.hops < own then
      some { code := 3, port := i, dev := f.srcDev, hops := f.hops + 1, offset := some (s.portTime i).offset }
    else none
  | none => none

/-- The Lantern source of lowest hops, then device, then port (R271). -/
def State.bestLantern (s : State) (own : Nat) : Option TimeSource :=
  ((List.range 24).filterMap (s.lanternSource own ·)).foldl (fun (o : Option TimeSource) x => match o with
    | some b => if rankLt [x.hops, x.dev, x.port] [b.hops, b.dev, b.port] then some x else some b
    | none => some x) none

/-- The twin as a source, when R274 makes the device a follower that has a usable pair (R271). -/
def State.twinSource (s : State) : Option TimeSource :=
  match s.syncTwin, s.time.syncOffset with
  | some (d, port), some o =>
    if s.syncFollows then some { code := 4, dev := d, hops := ((s.portTime port).last.map (·.hops)).getD 255, offset := some o } else none
  | _, _ => none

/-- The source that R271 selects. -/
def State.timeSource (s : State) : TimeSource :=
  match s.time.master with
  | some m => { code := 1 + m.port, hops := 0, offset := s.time.ptpOffset }
  | none => match s.twinSource with
    | some x => x
    | none => (s.bestLantern s.time.hops).getD {}

/-- Whether the source in force is still there (R273). -/
def State.sourceLives (s : State) : Bool :=
  let x := s.time
  if x.source = 1 ∨ x.source = 2 then x.masters.any fun m => m.port + 1 == x.source
  else if x.source = 3 then (s.lanternSource x.hops x.srcPort).isSome
  else x.source == 4 && s.twinSource.isSome

/-- Arguments of `FT_LOCKED` and `FT_HOLDOVER` (R461). -/
def TimeSt.eventArg (x : TimeSt) : List (Nat × Nat) := [(8, x.source), (8, x.srcPort), (16, x.srcDev)]

/-- Take a source (R271, R276). -/
def TimeSt.take (x : TimeSt) (y : TimeSource) : TimeSt :=
  { x with source := y.code, srcPort := y.port, srcDev := y.dev, hops := y.hops }

/-- Lose every source (R269, R276). -/
def TimeSt.noSource (x : TimeSt) : TimeSt := { x with source := 0, srcPort := 0, srcDev := 0, hops := 255 }

/-- Whether a source differs from the one in force. -/
def TimeSt.differs (x : TimeSt) (y : TimeSource) : Bool := x.source != y.code || x.srcPort != y.port || x.srcDev != y.dev

/-- The rate in force and what is left of a manual slew, as the servo runs on its last filtered offset (R272): the rate within ±200 ppm. -/
def TimeSt.slewOut (x : TimeSt) (now : Nat) : TimeSt :=
  let can : Int := ((now - x.lastUpd) * 200 / 1000000 : Nat)
  { x with rate := max (-200000) (min 200000 (Config.servoRate x.offset x.rate x.slew)), lastUpd := now
           slew := if 0 ≤ x.slew then max 0 (x.slew - can) else min 0 (x.slew + can) }

/-- Without a measured offset FT runs at the last rate the servo set (R273), and slews out a manual correction alone (R272). -/
def TimeSt.coast (x : TimeSt) (now : Nat) : TimeSt :=
  if x.slew = 0 then { x with rate := x.lastRate, lastUpd := now } else x.slewOut now

/-- One update from the source in force with a measured offset (R272, R273): the filtered offset and the rate are the servo's own
(`Config.servoFilter`, `Config.servoRate`), the rate within ±200 ppm; 64 updates within ±40 units lock, 16 beyond ±200 unlock. -/
def State.servo (s : State) (off : Int) : State :=
  let x := s.time
  let filt := Config.servoFilter x.offset off
  let good := if -40 ≤ off ∧ off ≤ 40 then x.good + 1 else 0
  let bad := if off < -200 ∨ 200 < off then x.bad + 1 else 0
  let lock : Bool := x.state == 1 && decide (64 ≤ good)
  let unlock : Bool := x.state == 2 && decide (16 ≤ bad)
  let big : Bool := decide (filt < -400000 ∨ 400000 < filt)
  let tell : Bool := big && !x.stepTold && s.hub.ready
  let s1 := s.modTime fun x =>
    { ({ x with offset := filt }).slewOut s.now with
             lastRate := (({ x with offset := filt }).slewOut s.now).rate, stepTold := big && (x.stepTold || tell), good := if unlock then 0 else good, bad := if lock then 0 else bad,
             state := if lock then 2 else if unlock then 1 else x.state, stepNeeded := big }
  let s1 := if lock then s1.event 0x0302 0xFF s1.time.eventArg else s1
  if tell then s1.event 0x0304 0xFF [(64, wrapZ 64 filt)] else s1

/-- The selected source takes effect (R271, R273): the first after FREE or HOLDOVER begins ACQUIRING, another source restarts the counts. -/
def TimeSt.select (y : TimeSt) (src : TimeSource) : TimeSt :=
  if y.state = 0 ∨ y.state = 3 then { y.take src with state := 1, good := 0, bad := 0 }
  else if y.differs src then { y.take src with good := 0, bad := 0 } else y.take src

/-- `SERVO_UPDATE` (R271, R272, R273): a lost LOCKED source leads to HOLDOVER, a selected one takes effect, and the servo follows it;
without a source or an offset it slews out a manual correction alone. -/
def execServoUpdate (t : Nat) (s : State) : Out :=
  let s := s.adv t
  .next <|
    let x := s.time
    let src := s.timeSource
    if x.state = 2 ∧ ¬ s.sourceLives then
      let arg := x.eventArg
      (s.modTime fun x => { x.noSource with state := 3, holdSince := s.now, good := 0, bad := 0, lastUpd := s.now }).event 0x0303 0xFF arg
    else if src.code = 0 then
      s.modTime fun x => { (if x.state = 1 then { x.noSource with state := 0 } else x).coast s.now with good := 0, bad := 0 }
    else
      let s := s.modTime fun y => y.select src
      match src.offset with
      | some o => s.servo o
      | none => s.modTime fun x => x.coast s.now

/-- `HOLDOVER_EXPIRE` (R273): 600 s in HOLDOVER lead to FREE. -/
def execHoldoverExpire (t : Nat) (s : State) : Out :=
  let s := s.adv t
  .next <| if s.time.state = 3 ∧ s.time.holdSince + 600 * ftSec ≤ s.now then s.modTime fun x => { x with state := 0 } else s

end Sys2Proof.Machine
end

