-- ==== Sys2Proof/Machine/Almanac.lean ====
section
/-! DEFINITION. The Almanac: firing, deadlines, the bank exchange, prewarns and intercalary slots (09 R277 to R292). -/

namespace Sys2Proof.Machine

/-- The smallest `TRIGGER` + k × cadence above FT, and k (R280). -/
def rearm (trigger cad now : Nat) : Nat × Nat :=
  let k := (now - trigger) / cad + 1
  (trigger + k * cad, k)

/-- Re-arm or empty an entry that has fired (R280): the skipped triggers are counted. -/
def State.entryRearm (s : State) (i : Nat) : State :=
  let e := s.almEnt i
  let cad := (s.part e.part).cadence
  if e.rep ∧ cad ≠ 0 then
    let (t, k) := rearm e.trigger cad s.now
    (s.modAlm i fun e => { e with trigger := t, fired := true }).almCount e.part 6 (k - 1)
  else s.modAlm i fun e => { fired := true, late := e.late, watching := e.watching }

/-- Open the deadline watch of an entry (R278, R285). -/
def State.watchOpen (s : State) (i : Nat) (e : AlmEntry) : State :=
  if e.dlScale = 3 then s
  else
    let w : Watch := { entry := i, action := e.action, arg := e.arg, trigger := e.trigger, due := e.trigger + e.deadline * dlUnit e.dlScale,
                       target := e.target }
    (s.modPart e.part fun x => { x with watches := x.watches ++ [w] }).modAlm i fun e => { e with watching := true }

/-- `STEP_START` (R281): the permission flag is set, or the firing is counted as an overrun. -/
def State.fireStep (s : State) (i : Nat) (e : AlmEntry) : State :=
  if (s.part e.part).perm then s.almCount e.part 5 1
  else (s.modPart e.part fun x => { x with perm := true, permEntry := some i, permTrig := e.trigger }).watchOpen i e

/-- `INTERCALARY` (R283): the slot attaches to a step gate; two slots of one gate merge, and one that is open at that gate takes effect for both. -/
def State.fireSlot (s : State) (i : Nat) (e : AlmEntry) : State :=
  let g := s.stepAfter e.part e.trigger
  let x := s.part e.part
  if x.slots.any (·.opened.isSome) ∧ s.slotDue e.part x.perm x.permTrig { gate := g } then
    s.modPart e.part fun x => { x with slots := x.slots.map fun sl =>
      if sl.opened.isSome then { sl with lenUs := max sl.lenUs e.arg, entries := sl.entries ++ [(i, e.trigger)] } else sl }
  else
  let s := s.modPart e.part fun x =>
    if x.slots.any fun sl => sl.opened.isNone && sl.gate == g then
      { x with slots := x.slots.map fun sl =>
          if sl.opened.isNone && sl.gate == g then { sl with lenUs := max sl.lenUs e.arg, entries := sl.entries ++ [(i, e.trigger)] } else sl }
    else { x with slots := x.slots ++ [{ lenUs := e.arg, gate := g, entries := [(i, e.trigger)] }] }
  s.watchOpen i e

/-- `PREWARN` (R278, R483): one region, or every region of the partition. -/
def State.firePrewarn (s : State) (e : AlmEntry) : State :=
  if e.target = 0xFF then (s.regionsOf e.part).foldl (fun s g => s.prewarnRegion g e.arg) s else s.prewarnRegion e.target e.arg

/-- `TWIN_BEGIN` (R287): a pending mirror release may begin. -/
def State.fireTwin (s : State) (i : Nat) (e : AlmEntry) : State :=
  (s.modTwin e.part fun x => { x with waitBegin := false }).watchOpen i e

/-- `POWER_STAGE` (R288): the region's staged power-up begins; of a region already powered the entry takes effect on firing. -/
def State.firePower (s : State) (i : Nat) (e : AlmEntry) : State :=
  if (s.region e.target).logic = .on then s
  else (s.powerUp e.target).watchOpen i e

/-- `DEADLINE` (R278): the watch is on the first step released at or after the trigger, one that runs already included; a phase or a close that
has come by then has taken effect. -/
def State.fireDeadline (s : State) (i : Nat) (e : AlmEntry) : State :=
  match s.job e.part with
  | none => s
  | some j =>
    let since : Bool := !(j.st == .atGate || j.st == .replayWait) && decide (e.trigger ≤ j.releaseFt)
    let met := j.st != .running && j.st != .stopped && decide (e.arg = 0xFFFF) || decide (e.arg < min j.phase (s.phaseCount e.part))
    if since ∧ met then s
    else (s.watchOpen i e).modPart e.part fun x => { x with watches := x.watches.map fun w =>
      if w.entry == i && w.action == 6 && w.trigger == e.trigger then { w with armed := since } else w }

/-- The effect of a firing entry (R278, R279): without a bound job, or under reset, only `POWER_STAGE` and `NOTE` act. -/
def State.fireEffect (s : State) (i : Nat) (e : AlmEntry) : State :=
  let live := (s.job e.part).isSome && !(s.part e.part).underReset
  if e.action = 5 then s.firePower i e
  else if e.action = 7 then s.event 0x0301 e.part [(16, i), (16, e.arg)]
  else if ¬ live then s
  else if e.action = 1 then s.fireStep i e
  else if e.action = 2 then s.fireSlot i e
  else if e.action = 3 then s.firePrewarn e
  else if e.action = 4 then s.fireTwin i e
  else if e.action = 6 then s.fireDeadline i e
  else s

/-- Fire an entry of the active bank (R279, R280). -/
def State.fire (s : State) (i : Nat) : State :=
  let e := s.almEnt i
  (s.fireEffect i e).entryRearm i

/-- Whether an entry is due before another (R279): trigger, then index. -/
def dueBefore (a b : Nat × AlmEntry) : Bool := rankLt [a.2.trigger, a.1] [b.2.trigger, b.1]

/-- The entry of the active bank that fires next among those whose trigger FT has passed. -/
def State.nextDue (s : State) (f : AlmEntry → Bool) : Option Nat :=
  ((s.alm.active.filter fun e => e.2.action != 0 && f e.2).foldl (fun (o : Option (Nat × AlmEntry)) e => match o with
    | some b => if dueBefore e b then some e else some b
    | none => some e) none).map (·.1)

/-- `ALMANAC_FIRE` (R279 to R288): FT has reached the trigger of an entry, and no entry is due before it. -/
def execAlmanacFire (t e : Nat) (s : State) : Out :=
  let s := s.adv t
  .next <| if s.nextDue (fun x => decide (x.trigger ≤ s.now)) = some e then s.fire e else s

/-- `ALMANAC_DEADLINE_EXPIRE` (R285): a watched action has not taken effect by its deadline. -/
def execAlmanacDeadlineExpire (t p e : Nat) (s : State) : Out :=
  let s := s.adv t
  .next <| match (s.part p).watches.find? fun w => w.entry == e && decide (w.due ≤ s.now) with
  | some w => s.watchLate p w
  | none => s

/-- Fire every entry whose trigger lies in the past, in order (R290 step 3). -/
def State.firePast : Nat → State → State
  | 0, s => s
  | n + 1, s => match s.nextDue fun x => decide (x.trigger < s.now) with
    | some i => State.firePast n (s.fire i)
    | none => s

/-- Advance the repeating entries of a bank that lie in the past, without firing or counting (R290 step 2). -/
def State.advancePast (s : State) : State :=
  (s.alm.active.filter fun e => e.2.action != 0 && e.2.rep && decide (e.2.trigger < s.now)).foldl (fun s e =>
    let cad := (s.part e.2.part).cadence
    if cad = 0 then s else s.modAlm e.1 fun x => { x with trigger := (rearm x.trigger cad s.now).1 }) s

/-- `ALMANAC_BANK_SWAP` (R290): FT has reached the arm FT. No watch is on an entry of the shadow bank (R286). -/
def execAlmanacBankSwap (t : Nat) (s : State) : Out :=
  let s := s.adv t
  .next <| match s.alm.armed with
  | none => s
  | some f =>
    if f ≤ s.now then
      let s := ({ s with alm := { active := s.alm.shadow, shadow := s.alm.active, armed := none } }).watchOrphan fun _ => true
      let s := s.advancePast
      let s := State.firePast s.alm.active.length s
      { s with alm := { s.alm with shadow := s.alm.active.map fun e => (e.1, { e.2 with watching := false }) } }
    else s

/-! ## Prewarns (R282) -/

/-- Prewarn the regions of a partition with its default load code, for the release that follows (R282, R483). -/
def State.autoPrewarn (s : State) (p : Nat) : State :=
  ((s.regionsOf p).foldl (fun s g => s.prewarnRegion g (s.part p).load) s).modJob p fun j => { j with releaseHold := some (s.now + 800) }

/-- `AUTOMATIC_PREWARN` (R282): 200 ns before the `STEP_START` that will release a waiting gated partition, or when a release becomes due
without a `PREWARN` in the last microsecond; once for a release. -/
def execAutomaticPrewarn (t p : Nat) (s : State) : Out :=
  let s := s.adv t
  .next <| match s.job p with
  | none => s
  | some j =>
    let x := s.part p
    let ready := s.releaseReady p j true (if x.perm then x.permTrig else (s.stepAfter p s.now).getD 0)
    let gatedWait := s.gated p && !(s.part p).perm && !j.first && !j.replay
    let soon := s.alm.active.any fun e => e.2.action == 1 && e.2.part == p && decide (s.now < e.2.trigger ∧ e.2.trigger ≤ s.now + 800)
    let recent := !(s.regionsOf p).isEmpty && (s.regionsOf p).all fun g => match (s.region g).prewarnAt with
      | some w => decide (s.now ≤ w + ftUs)
      | none => false
    let held : Bool := match j.releaseHold with
      | some h => decide (s.now < h)
      | none => false
    if ¬ ready ∨ held then s
    else if gatedWait then (if soon then s.autoPrewarn p else s)
    else if recent then s else s.autoPrewarn p

/-! ## Intercalary slots (R283, R284) -/

/-- `INTERCALARY_SLOT_OPEN` (R283, R284): at a step gate the slots attached to it open as one of the greater length; its work starts in
order. A prewarn that was issued for the release does not serve after the slot (R282). -/
def execIntercalarySlotOpen (t p : Nat) (s : State) : Out :=
  let s := s.adv t
  .next <| match s.job p with
  | none => s
  | some j =>
    let due := (s.part p).slots.filter fun sl => sl.opened.isNone && s.slotDue p (s.part p).perm (s.part p).permTrig sl
    if j.st ≠ .atGate ∨ ¬ (s.part p).gate ∨ j.first ∨ j.replay ∨ due.isEmpty ∨ (s.part p).slots.any (·.opened.isSome) then s
    else
      let sl : Slot := { lenUs := due.foldl (fun n x => max n x.lenUs) 0, opened := some s.now, entries := due.flatMap (·.entries) }
      let s := s.modPart p fun x => { x with slots := sl :: x.slots.filter fun y => !due.contains y }
      let s := s.watchMet p fun w => w.action == 2 && sl.entries.contains (w.entry, w.trigger)
      (s.modJob p fun j => { j with releaseHold := none }).slotWork p

/-- Whether the open slot of a partition has no work left that it could start (R284). -/
def State.slotIdle (s : State) (p : Nat) : Bool :=
  !s.fencesFirst p && !s.swapDue p && !s.bistDue p &&
    !(bitAt (s.part p).work 2 && decide (150 * ftUs ≤ s.slotLeft p) && (List.range 4).any s.routeWaits)

/-- `INTERCALARY_SLOT_CLOSE` (R284): no item runs and no admissible work remains, or the length has elapsed; an item that still runs then completes
after the close. The Vigil sites of the gate are chosen afresh (R295). -/
def execIntercalarySlotClose (t p : Nat) (s : State) : Out :=
  let s := s.adv t
  .next <| match (s.part p).slots.find? fun sl => sl.opened.isSome with
  | none => s
  | some sl =>
    if (sl.running.isEmpty ∧ s.slotIdle p) ∨ sl.opened.getD 0 + sl.lenUs * ftUs ≤ s.now then
      (s.modPart p fun x => { x with slots := x.slots.filter (fun y => y.opened.isNone), overItems := x.overItems ++ sl.running }).vigilGate p
    else s

end Sys2Proof.Machine
end

