-- ==== Sys2Proof/Machine/Twin.lean ====
section
/-! DEFINITION. Twins: the outgoing mirror of a seal, the incoming mirror, their deadlines, and input records (01 R53 to R56; 13 R403 to
R423). -/

namespace Sys2Proof.Machine

/-! ## Records in mirror pages (R29, R407 to R409) -/

/-- The ledger record that 128 bytes spell (R29). -/
def recOfBytes (b : List Byte) : LedgerRec :=
  let st := num b 0x11 1
  let ep := num b 0x40 16
  { step := num b 0 8, sealFt := num b 8 8, attempt := num b 0x10 1,
    state := if st = 1 then .prepared else if st = 2 then .sealed else if st = 3 then .discarded else .none,
    rootGroup := num b 0x12 1, flags := BitVec.ofNat 8 (num b 0x13 1), depth := num b 0x14 1, ordoId := BitVec.ofNat 64 (num b 0x18 8),
    stateDigest := BitVec.ofNat 128 (num b 0x20 16), weightDigest := BitVec.ofNat 128 (num b 0x30 16),
    epact := { draws := BitVec.ofNat 64 ep, cursor := BitVec.ofNat 48 (ep / 2 ^ 64), offset := BitVec.ofNat 16 (ep / 2 ^ 112) },
    anchorPage := num b 0x50 8, flipped := num b 0x58 4, logPages := num b 0x5C 4, prevDigest := BitVec.ofNat 128 (num b 0x60 16) }

/-- Pages of a table of 32-byte entries for `t` tally pages (R407). -/
def tablePages (t : Nat) : Nat := (32 * t + pageBytes - 1) / pageBytes
/-- M: the header page and the meta pages (R407). -/
def metaPages (t : Nat) : Nat := 1 + 2 * tablePages t
/-- Pages of the mirror region of a tally of `t` pages (R407). -/
def mirrorPages (t : Nat) : Nat := 2 * t + metaPages t

/-- Bytes of a range of logical pages, at an offset from page `l`. -/
def State.logRead (s : State) (l off n : Nat) : List Byte :=
  (List.range n).map fun i => memRead s.mem.dram (s.pageBase (l + (off + i) / pageBytes) + (off + i) % pageBytes)

/-- Write bytes into a range of logical pages. -/
def State.logWrite (s : State) (l off : Nat) (bs : List Byte) : State :=
  bs.zipIdx.foldl (fun s x => s.dramWrite (s.pageBase (l + (off + x.2) / pageBytes) + (off + x.2) % pageBytes) [x.1]) s

/-- An entry of the page table of a mirror: live mask, class, digest (R408). -/
structure MirEnt where
  live : BitVec 64 := 0
  cls : Nat := 0
  digest : BitVec 128 := 0
  deriving DecidableEq, Repr

/-- Page-table entry `i` of the mirror region at page `b` (R407, R408). -/
def State.mirEnt (s : State) (b i : Nat) : MirEnt :=
  let e := s.logRead (b + 1) (32 * i) 32
  { live := BitVec.ofNat 64 (num e 0 8), cls := num e 8 1, digest := BitVec.ofNat 128 (num e 16 16) }

/-- The bytes of a page-table entry. -/
def mirEntBytes (e : MirEnt) : List Byte := leBytes 8 e.live.toNat ++ leBytes 8 e.cls ++ leBytes 16 e.digest.toNat

/-- Staged manifest entry `n` of a mirror of `t` pages at page `b` (R407, R409). -/
def State.stagedEnt (s : State) (b t n : Nat) : ManEntry :=
  let e := s.logRead (b + 1 + tablePages t) (32 * n) 32
  { page := num e 0 4, cls := num e 4 1, mask := BitVec.ofNat 64 (num e 8 8), digest := BitVec.ofNat 128 (num e 16 16) }

/-! ## The outgoing mirror (R409 to R412) -/

/-- The tally page indices of a job with the granules that the mirror carries: every granule for a full mirror (R409). -/
def Twin.masks (x : Twin) (j : Job) : Tbl (BitVec 64) :=
  if x.full then (List.range j.classes.length).map fun i => (i, BitVec.allOnes 64) else x.mMasks

/-- The manifest of an outgoing mirror (R409 step 1). -/
def manifest (j : Job) (m : Tbl (BitVec 64)) : List ManEntry :=
  m.map fun e => { page := e.1, cls := j.classes.getD e.1 0, mask := e.2, digest := Tbl.get 0 j.digSealed e.1 }

/-- The writes of bytes at an offset from the base page of the region that the peer keeps, in packets of 512 bytes (R407, R409). -/
def Twin.writes (x : Twin) (p at' : Nat) (bs : List Byte) : List Packet :=
  (List.range ((bs.length + 511) / 512)).map fun n =>
    let a := pageBytes * x.peerBase + at' + 512 * n
    { destDev := x.peerDev, destKind := .ddr, destIdx := a / 2 ^ 41 % 2, kind := .write, cls := 3, minimal := true, srcPart := p, addr := a,
      payload := slice bs (512 * n) (min 512 (bs.length - 512 * n)) }

/-- The bytes of a manifest entry (R409). -/
def manBytes (e : ManEntry) : List Byte := leBytes 4 e.page ++ leBytes 4 e.cls ++ leBytes 8 e.mask.toNat ++ leBytes 16 e.digest.toNat

/-- The writes of the granules of masks (R409 step 2): each into the side that the peer's `LIVE` bit does not name. -/
def State.granWrites (s : State) (j : Job) (p : Nat) (m : Tbl (BitVec 64)) : List Packet :=
  let x := (s.part p).twin
  let t := j.classes.length
  m.flatMap fun e => ((List.range 64).filter fun g => bitAt e.2 g).flatMap fun g =>
    x.writes p (pageBytes * (metaPages t + 2 * e.1 + b1 (!bitAt (Tbl.get 0 x.peerLive e.1) g)) + 4096 * g)
      (memReadN s.mem.dram (s.granAddr j e.1 g (j.liveSide e.1 g)) 4096)

/-- Writes of a partition's mirror set out. -/
def State.mirrorSend (s : State) (p : Nat) (ps : List Packet) : State :=
  State.mirrorPump p 8193 (s.modTwin p fun x => { x with todo := x.todo ++ ps })

/-- The granules of masks are read for a mirror: a codeword that reads uncorrectable is recorded, and goes as read (R393). -/
def State.granReads (s : State) (j : Job) (p : Nat) (m : Tbl (BitVec 64)) : State :=
  m.foldl (fun (s : State) e => ((List.range 64).filter fun g => bitAt e.2 g).foldl (fun (s : State) g =>
    let side := j.liveSide e.1 g
    s.dieRead (s.granAddr j e.1 g side) 4096 0 (j.sidePage e.1 side) p) s) s

/-- The writes of a mirror's steps 1 and 2 of R409: the manifest of every mask, where `head`, and the granules of `m`. -/
def State.mirrorOut (s : State) (j : Job) (p : Nat) (head : Bool) (all m : Tbl (BitVec 64)) : State :=
  let x := (s.part p).twin
  let s := s.granReads j p m
  s.mirrorSend p ((if head then x.writes p (pageBytes * (1 + tablePages j.classes.length)) ((manifest j all).flatMap manBytes) else []) ++
    s.granWrites j p m)

/-- `MIRROR_RELEASE` (R53 step 3, R287, R409, R411): the mirror release begins: manifest and granules go to the peer, and the deadline
starts to run. -/
def execMirrorRelease (t p : Nat) (s : State) : Out :=
  let s := s.adv t
  .next <| match s.job p with
  | none => s
  | some j =>
    let x := (s.part p).twin
    if x.phase = .pending ∧ ¬ (x.waitBegin ∧ s.almHas p 4) ∧ (x.st = .syncing ∨ x.st = .bound) then
      let m := x.masks j
      let s := s.modTwin p fun x =>
        { x with phase := .writing, mMasks := m, mStart := s.now, mirrors := x.mirrors + 1, failed := false, todo := [] }
      (s.watchMet p fun w => w.action == 4).mirrorOut j p true m m
    else s

/-- `MIRROR_WRITES_ACKED` (R409 step 3): every write is acknowledged: the incoming slot is written. -/
def execMirrorWritesAcked (t p : Nat) (s : State) : Out :=
  let s := s.adv t
  .next <| match s.job p with
  | none => s
  | some j =>
    let x := (s.part p).twin
    if x.phase = .writing ∧ (x.st = .syncing ∨ x.st = .bound) ∧ s.mirrorAcked p then
      (s.modTwin p fun x => { x with phase := .slotWritten }).mirrorSend p
        (x.writes p 0x100 (recBytes j.lastSealed ++ leBytes 4 (x.masks j).length ++ leBytes 12 (b1 x.full)))
    else s

/-- `MIRROR_SLOT_ACKED` (R409 step 4): `TWIN_APPLY` is sent, and the mirror awaits its acknowledgement. -/
def execMirrorSlotAcked (t p : Nat) (s : State) : Out :=
  let s := s.adv t
  .next <|
    let x := (s.part p).twin
    if x.phase = .slotWritten ∧ (x.st = .syncing ∨ x.st = .bound) ∧ s.mirrorAcked p then
      (s.modTwin p fun x => { x with phase := .awaitAck, awaitAck := true }).emit (.twinApply x.peerDev x.peerPart x.mStep)
    else s

/-- FT at which the deadline of the outgoing mirror expires (R411). -/
def Twin.deadline (x : Twin) : Nat := x.mStart + (if x.full then x.fullS * ftSec else x.deadlineMs * ftMs)

/-- Set a flag bit of the latest sealed record: 0 mirror acknowledged, 1 mirror late (R29, R56). -/
def Job.flagSealed (j : Job) (bit : Nat) : Job :=
  let r := { j.lastSealed with flags := j.lastSealed.flags ||| BitVec.ofNat 8 (2 ^ bit) }
  { j with lastSealed := r,
           ledger := j.ledger.map fun e => if e.2.state = .sealed ∧ e.2.step = r.step then (e.1, r) else e }

/-- Add to a counter of a twin (R405): 0 `MIRRORS_ACKED`, 1 `MIRRORS_LATE`, 2 `MIRROR_NAKS`. -/
def State.twinCount (s : State) (p idx : Nat) : State :=
  let x := (s.part p).twin
  let (c, o) := ctrAdd (if idx = 0 then x.acked else if idx = 1 then x.late else x.naks) 1
  (s.modTwin p fun x => if idx = 0 then { x with acked := c } else if idx = 1 then { x with late := c } else { x with naks := c }).ovfIf o
    0x1E000000 idx

/-- A binding is BOUND once a full mirror in each direction has been acknowledged (R406). -/
def Twin.bind (x : Twin) : Twin := if x.st = .syncing ∧ x.outFull ∧ x.inFull then { x with st := .bound } else x

/-- An acknowledgement that arrives by the deadline completes the seal (R55, R411). -/
def State.twinAck (s : State) (p step : Nat) : State :=
  let x := (s.part p).twin
  if x.phase = .awaitAck ∧ (x.st = .syncing ∨ x.st = .bound) ∧ x.mStep = step ∧ s.now ≤ x.deadline then
    let s := s.modTwin p fun x =>
      Twin.bind { x with phase := .idle, awaitAck := false, outFull := x.outFull || x.full, full := false, mMasks := [], naked := false,
                         peerLive := x.mMasks.foldl (fun l e => Tbl.set 0 e.1 (Tbl.get 0 l e.1 ^^^ e.2) l) x.peerLive }
    ((s.modJob p fun j => { j.flagSealed 0 with sealUnmirrored := false }).ledgerOut p).twinCount p 0
  else s

/-- `TWIN_NAK_RECEIVE` (R410): the first one of a mirror is answered: the granules of the named pages, or the whole mirror with its manifest, go again,
and the slot and the notice follow. -/
def execTwinNakReceive (t p : Nat) (pages : List Nat) (s : State) : Out :=
  let s := s.adv t
  .next <|
    let x := (s.part p).twin
    if x.phase ≠ .awaitAck ∨ ¬ (x.st = .syncing ∨ x.st = .bound) then s
    else
      let s := s.twinCount p 2
      match s.job p with
      | none => s
      | some j =>
        if x.naked then s
        else
          let m := x.masks j
          let whole := pages.contains 0xFFFFFFFF
          (s.modTwin p fun x => { x with phase := .writing, awaitAck := false, naked := true }).mirrorOut j p whole m
            (if whole then m else m.filter fun e => pages.contains e.1)

/-- A `RESTORE_PAGE` that waits for the mirror of its partition's twin completes with `NO_MIRROR` when the binding breaks (R433). -/
def State.pageWaitEnd (s : State) (p : Nat) : State :=
  match (s.part p).lock with
  | none => s
  | some mb => match (s.mbx mb).running with
    | none => s
    | some d => if d.opcode = 0x0806 then s.finish mb stNoMirror else s

/-- A mirror that is cut short leaves its step unmirrored, which the next vote says (R43, R56). -/
def State.mirrorCut (s : State) (p : Nat) : State :=
  if (s.part p).twin.phase = .idle then s else s.modJob p fun j => { j with unmirrored := true }

/-- The `TWIN` bit of the ports of a partition's binding (R369). -/
def State.portTwin (s : State) (p : Nat) (v : Bool) : State :=
  [(s.part p).twin.portA, (s.part p).twin.portB].foldl (fun s i => if i < 24 then s.modPort i fun x => { x with twin := v } else s) s

/-- One end of a binding goes UNBOUND: its mirror pages are freed (R388, R403); the counters stand. -/
def State.twinFree (s : State) (p : Nat) : State :=
  let s := s.mirrorCut p
  let s := match (s.part p).twin.base with
    | some l => s.unmapPages ((List.range (s.part p).twin.reserve).map (l + ·))
    | none => s
  (s.portTwin p false).modTwin p fun x => { acked := x.acked, late := x.late, naks := x.naks, mirrors := x.mirrors }

/-- `TWIN_BREAK_RECEIVE` (R406): the peer's notice breaks the binding, and the mirror region stays; `unbind`: the peer's `TWIN_UNBIND`,
which takes this end to UNBOUND too (R403). -/
def execTwinBreakReceive (t p : Nat) (unbind : Bool) (s : State) : Out :=
  let s := s.adv t
  .next <|
    if unbind then
      if (s.part p).twin.st = .unbound then s else (s.twinFree p).pageWaitEnd p
    else if (s.part p).twin.st = .syncing ∨ (s.part p).twin.st = .bound then
      ((s.mirrorCut p).modTwin p fun x => { x with st := .broken, phase := .idle, awaitAck := false, full := false, waitBegin := false, todo := [] }).pageWaitEnd p
    else s

/-- `MIRROR_DEADLINE_EXPIRE` (R56, R411): without an acknowledgement by the deadline the binding is broken, the record is flagged late, and
the next vote says so. -/
def execMirrorDeadlineExpire (t p : Nat) (s : State) : Out :=
  let s := s.adv t
  .next <|
    let x := (s.part p).twin
    if x.phase ≠ .idle ∧ x.phase ≠ .pending ∧ (x.st = .syncing ∨ x.st = .bound) ∧ x.deadline ≤ s.now then
      let s := (s.modTwin p fun x => { x with st := .broken, phase := .idle, awaitAck := false, full := false, waitBegin := false, todo := [] }).twinCount p 1
      let s := (s.modJob p fun j => { j.flagSealed 1 with unmirrored := true }).ledgerOut p
      let s := s.report 0x0901 9 p p []
      ((s.event 0x0402 p [(16, x.peerDev), (64, x.mStep)]).emit (.twinBreak x.peerDev x.peerPart)).pageWaitEnd p
    else s

/-! ## The incoming mirror (R408, R410) -/

/-- The content of page `i` of a mirror at page `b`, composed granule by granule: `side` names the side of each (R410). -/
def State.mirDigest (s : State) (b t i : Nat) (side : Nat → Bool) : BitVec 128 :=
  s.gransDigest i fun g => s.pageBase (b + metaPages t + 2 * i + b1 (side g)) + 4096 * g

/-- The entries of a staged manifest and the pages of the mirror that it leaves, where `peerPages` stand there: a full mirror names every page (R409, R410). -/
def State.stagedHead (s : State) (b peerPages : Nat) : Nat × Nat :=
  let n := num (s.logRead b 0x180 8) 0 4
  (n, if num (s.logRead b 0x180 8) 4 1 != 0 then n else peerPages)

/-- The pages of a staged manifest whose written sides do not have the digest that it names (R410). -/
def State.stagedBad (s : State) (b tp : Nat) (es : List ManEntry) : List Nat :=
  (es.filter fun e =>
    let live := (s.mirEnt b e.page).live
    s.mirDigest b tp e.page (fun g => if bitAt e.mask g then !bitAt live g else bitAt live g) != e.digest).map (·.page)

/-- The mirror table's entry of a page once a staged manifest is applied (R410). -/
def State.mirAfter (s : State) (b : Nat) (es : List ManEntry) (i : Nat) : MirEnt :=
  match es.find? fun e => e.page == i with
  | some e => { live := (s.mirEnt b i).live ^^^ e.mask, cls := e.cls, digest := e.digest }
  | none => s.mirEnt b i

/-- The combined digests of the mirror once a staged manifest is applied: of every page, and of the weights (R410). -/
def State.stagedDigests (s : State) (b tp : Nat) (es : List ManEntry) : BitVec 128 × BitVec 128 :=
  let all := (List.range tp).map (s.mirAfter b es)
  (all.foldl (fun a e => a ^^^ e.digest) 0, (all.filter fun e => e.cls == 0).foldl (fun a e => a ^^^ e.digest) 0)

/-- `TWIN_APPLY_RECEIVE` (R410): the peer checks the written pages against the manifest and the combined digests against the slot's
record; a mirror that passes is applied in one update and acknowledged, one that fails is refused and left as it is. -/
def execTwinApplyReceive (t p step : Nat) (s : State) : Out :=
  let s := s.adv t
  .next <|
    let x := (s.part p).twin
    match x.base with
    | none => s
    | some b =>
      if ¬ (x.st = .syncing ∨ x.st = .bound) then s
      else
        let r := recOfBytes (s.logRead b 0x100 128)
        let (n, tp) := s.stagedHead b x.peerPages
        let full : Bool := num (s.logRead b 0x180 8) 4 1 != 0
        let es := (List.range n).map (s.stagedEnt b tp)
        let bad := s.stagedBad b tp es
        if ¬ bad.isEmpty then s.emit (.twinNak x.peerDev x.peerPart (bad.take 64))
        else if s.stagedDigests b tp es ≠ (r.stateDigest, r.weightDigest) ∨ r.step ≠ step then
          s.emit (.twinNak x.peerDev x.peerPart [0xFFFFFFFF])
        else
          let s := es.foldl (fun s' e => s'.logWrite (b + 1) (32 * e.page) (mirEntBytes (s.mirAfter b es e.page))) s
          let s := s.logWrite b 0 (recBytes r)
          (s.modTwin p fun x => Twin.bind { x with mirrorGen := (r.step + 1) % 2 ^ 64, peerPages := tp, inFull := x.inFull || full }).emit
            (.twinAck x.peerDev x.peerPart step r.stateDigest)

/-- `MIRROR_EXPORT_EXPIRE` (R423): an export ends after 600 s, or with `commit` at the spare's `RESTORE_COMMIT` (R429 step 5). -/
def execMirrorExportExpire (t p : Nat) (commit : Bool) (s : State) : Out :=
  let s := s.adv t
  .next <|
    let x := (s.part p).twin
    if x.exported ∧ (commit ∨ x.exportFt + 600 * ftSec ≤ s.now) then s.modTwin p fun x => { x with exported := false, spare := none } else s

/-- `INPUT_RECORD_CONSUME` (R97, R419): the job consumes an input record: the next draw of the ingest stream is taken, under stream key 0xFFFF, and
`DRAWS` and `CURSOR` advance together. -/
def execInputRecordConsume (t p : Nat) (s : State) : Out :=
  let s := s.adv t
  .next <| s.modJob p fun j =>
    if j.st = .running then
      let o : Ordo := (s.part p).ordo.getD {}
      { j with ingest := ingestDraw o.seed (Tbl.get 0 o.keys 0xFFFF) j.epact.draws, epact := { j.epact with draws := j.epact.draws + 1, cursor := j.epact.cursor + 1 } } else j

end Sys2Proof.Machine
end

