-- ==== Sys2Proof/Machine/Images.lean ====
section
/-! DEFINITION. The Ernex image and the device configuration block: layouts and checks (16 R497 to R501). -/

namespace Sys2Proof.Machine

/-- The big-endian number of bytes. -/
def ofBe (bs : List Byte) : Nat := ofLe bs.reverse

/-- The image that bytes spell (R497). -/
def imageOf (b : List Byte) : Image :=
  { magic := BitVec.ofNat 32 (num b 0 4), format := num b 4 2, asv := num b 6 2, version := BitVec.ofNat 32 (num b 8 4),
    build := BitVec.ofNat 32 (num b 0xC 4), length := num b 0x10 8, svn := num b 0x18 4, digest := BitVec.ofNat 384 (ofBe (slice b 0x20 48)),
    pubkey := BitVec.ofNat 768 (ofBe (slice b 0x50 96)), sigR := BitVec.ofNat 384 (ofBe (slice b 0xB0 48)),
    sigS := BitVec.ofNat 384 (ofBe (slice b 0xE0 48)), bytes := b.take (num b 0x10 8) }

/-- The image digest: `DIGEST`, `SIG_R` and `SIG_S` taken as zero (R497). -/
def Image.computed (x : Image) : BitVec 384 :=
  Config.sha384 (x.bytes.take 0x20 ++ List.replicate 48 0 ++ slice x.bytes 0x50 96 ++ List.replicate 96 0 ++ x.bytes.drop 0x110)

/-- The host-load cause of the first check that an image fails, 0 for none (R498). -/
def State.imageCheck (s : State) (i : Option Image) : Nat :=
  match i with
  | none => 1
  | some x =>
    if x.magic ≠ 0x584E5245 ∨ x.format ≠ 1 ∨ x.length < 512 ∨ 33554432 < x.length ∨ x.bytes.length < x.length then 1
    else if Config.sha384 (slice x.bytes 0x50 96) ≠ s.fuses.pubHash then 2
    else if x.digest ≠ x.computed then 3
    else if ¬ Config.ecdsaOk x.pubkey x.digest x.sigR x.sigS then 4
    else if x.svn < s.fuses.svnMin then 5
    else 0

/-- The configuration block that 4 KiB spell (R500). -/
def configOf (b : List Byte) : ConfigBlock :=
  { seq := BitVec.ofNat 16 (num b 6 2), devId := num b 8 2, signedReq := bitOn (num b 0xA 2) 0, flashRepair := bitOn (num b 0xA 2) 1,
    syncFitted := bitOn (num b 0xA 2) 2, portEn := BitVec.ofNat 24 (num b 0xC 4), ddrRateMax := num b 0x10 1, mctpEid := num b 0x11 1,
    minWidth := num b 0x12 1, pmbus := (List.range (num b 0x13 1)).map fun i => num b (0x20 + 2 * i) 2, hdmPageBase := num b 0x14 4,
    hdmSize := num b 0x18 8, digest := BitVec.ofNat 384 (num b 0xFD0 48) }

/-- Whether one 16-bit sequence number precedes another (R331). -/
def seqBefore (a b : BitVec 16) : Bool := decide (0 < (b - a).toNat ∧ (b - a).toNat < 2 ^ 15)

/-- Whether the second copy of the configuration block is the newest valid one (R496); of two that neither precedes, it is the first (DESIGN
CHOICE, log 166). -/
def Flash.secondNewest (f : Flash) : Bool := match f.config, f.configB with
  | some a, some b => seqBefore a.seq b.seq
  | none, some _ => true
  | _, none => false

/-- The configuration block that a reader takes (R496): none when neither copy is valid. -/
def Flash.newest (f : Flash) : Option ConfigBlock := if f.secondNewest then f.configB else f.config

/-- A new configuration block goes into the copy that does not hold the newest valid one (R496). -/
def Flash.putConfig (f : Flash) (c : ConfigBlock) : Flash :=
  if f.newest.isNone ∨ f.secondNewest then { f with config := some c } else { f with configB := some c }

/-- Whether 4 KiB are a valid configuration block (R398, R500): magic, format, digest, reserved fields and ranges. -/
def configValid (b : List Byte) : Bool :=
  let c := configOf b
  decide (4096 ≤ b.length) && num b 0 4 == 0x42474643 && num b 4 2 == 1 && decide (num b 0xA 2 < 8) && decide (num b 0xC 4 < 2 ^ 24) &&
    decide (1 ≤ c.ddrRateMax ∧ c.ddrRateMax ≤ 3) && decide (4 ≤ c.minWidth ∧ c.minWidth ≤ 8) && decide (num b 0x13 1 ≤ 32) &&
    (c.pmbus.all fun e => decide (e < 1024)) && (slice b 0x60 0xF70).all (· == 0) &&
    c.hdmPageBase % 1024 == 0 && c.hdmSize % 268435456 == 0 && decide (c.hdmSize ≤ 2 ^ 40) && decide (c.hdmPageBase < 2 ^ 24) &&
    Config.sha384 (b.take 0xFD0) == BitVec.ofNat 384 (ofBe (slice b 0xFD0 48))

end Sys2Proof.Machine
end

