-- ==== Sys2Proof/Machine/Resets.lean ====
section
/-! DEFINITION. Sweeps, the end of a Harvest, the end of a job, and the partition, Jubilee and recovery resets (05 R195 to R197; 12 R389,
R390; 16 R499, R507 to R522). -/

namespace Sys2Proof.Machine

/-- Whether a region is good: its cells let it run (R482, R489). -/
def State.goodRegion (s : State) (g : Nat) : Bool := (s.region g).logic != .dark

/-! ## Jobs at a reset (R511) -/

/-- A job stops at its latest sealed generation (R511): a prepared record stays for the root Herald's answer, any other attempt is
discarded. -/
def State.stopJob (s : State) (p : Nat) : State :=
  match s.job p with
  | none => s
  | some j =>
    let s := if j.prepared.isNone then s.discardAttempt p else s
    s.modJob p fun j => { j with st := .stopped, released := false, replay := false, releaseHold := none }

/-- Whether a job counts as running for R518: neither in HOLD nor stopped. -/
def Job.runs (j : Job) : Bool := decide (j.st ≠ .hold ∧ j.st ≠ .stopped)

/-- Resolve a prepared record after a reset (R48, R56, R511): the vote that was sent goes to the root Herald as a query. -/
def State.resolvePrepared (s : State) (p : Nat) : State :=
  match s.job p with
  | none => s
  | some j =>
    match s.rootGroup p j, j.vote with
    | some g, some v => if j.prepared.isSome ∧ j.voteSent then s.inject (s.queryPacket (j.heraldOf g) { v with group := g.group }) else s
    | _, _ => s

/-- Each `FILLING` site of a region returns to `SPARE`, one update, and its repairs and Vigil targets are dropped (R512, R513); the sites of
mismatched pairs return as R303 has it. -/
def State.dropRepairs (s : State) (g : Nat) : State :=
  let s := (s.region g).pairs.foldl (fun (s : State) x => s.endPair g x) s
  let s := if (s.sitesIn g .filling).isEmpty then s
    else (s.modSites (sitesOfRegion g) fun _ x => if x.st = .filling then { x with st := .spare, tile := 0 } else x).newGen g
  s.modRegion g fun r => { r with repairs := [], pairs := [], targets := [], loaded := [] }

/-- Abandon the fills and queued repairs of a region (R512): each tile whose fill was abandoned goes to a good site under R311, without a
fill, in the update that frees the `FILLING` sites, or in one of its own where no fill had its site yet (R69). -/
def State.abandonFills (s : State) (g : Nat) : State :=
  let ks := (s.region g).repairs.filterMap fun r => match r with
    | .fill k _ _ _ => some k
    | .full => none
  let quiet : Bool := (s.sitesIn g .filling).isEmpty
  let s := s.dropRepairs g
  let s := if quiet ∧ ks ≠ [] ∧ (s.pickSpare g 0).isSome then s.newGen g else s
  let s := ks.foldl (fun (s : State) k =>
    let old := (s.region g).fillOrigin k
    match s.pickSpare g old with
    | some q => (s.placeAt g k q false).moveWindows (siteKey g old) (siteKey g q)
    | none => s) s
  s.rerouteRegion g

/-! ## The partition reset (R512) -/

/-- The mailboxes whose running command is a `RESET` of a partition (`some p`), or any `RESET` (none). -/
def State.resetWaiters (s : State) (p : Option Nat) : List Nat :=
  (List.range 24).filter fun m => match (s.mbx m).running with
    | some d => d.opcode == 0x0103 && (match p with
      | some p => bitsN d.args 0 8 == 3 && d.part == p
      | none => true)
    | none => false

/-- Complete every waiting `RESET` (R509). -/
def State.resetDone (s : State) (p : Option Nat) : State := (s.resetWaiters p).foldl (fun s m => s.finish m stOk) s

/-- Steps 3 and 4 of R512: flush, abandoned fills, and the sweep. -/
def State.partResetGo (s : State) (p : Nat) : State :=
  let s := (s.stopPart p).flush p true
  let s := (s.regionsOf p).foldl (fun s g => s.abandonFills g) s
  (s.stopJob p).beginSweep p (.reset 0)

/-- A partition reset faults a job in its step: no vote follows, and one that went out stands (R38). -/
def State.resetFaults (s : State) (p : Nat) : State :=
  s.modJob p fun j => if j.st = .running ∨ (j.st = .closed ∧ ¬ j.voteSent) then { j with faulted := true } else j

/-- Steps 1 and 2 of R512: `DOWN` bits, aborted commands (R510), the Harvest of a running job; a Harvest in progress completes first. -/
def State.partReset (s : State) (p mb : Nat) : State :=
  let s := (s.errDrain.setDown p true).resetFaults p
  let s := s.modPart p fun x => { x with underReset := true, resetFt := s.now }
  let s := s.abortLocked p mb fun _ => false
  if (s.part p).harvesting then s
  else match s.job p with
    | some j => if j.runs then s.beginHarvest p 8 0 0xFFFF else s.partResetGo p
    | none => s.partResetGo p

/-- The boot record names the most recent reset (R502). -/
def State.resetNote (s : State) (kind : Nat) : State :=
  { s with flash := { s.flash with boot := { s.flash.boot with resetFt := s.now, resetKind := kind } } }

/-- Step 5 of R512, and R511. -/
def State.partResetEnd (s : State) (p : Nat) : State :=
  let s := (s.setDown p s.hub.halted).modPart p fun x => { x with underReset := false, halted := x.job.isSome }
  let s := (s.resolvePrepared p).resetNote 3
  (s.event 0x0116 p [(8, 3), (32, (s.now - (s.part p).resetFt) / ftUs)]).resetDone (some p)

/-! ## Jubilee and recovery resets (R390, R513, R514) -/

/-- Enter host-load mode with a cause (R499). -/
def State.hostLoad (s : State) (cause : Nat) : State :=
  let s := (s.hubStatus fun h => { h with hostload := true }).modHub fun h => { h with pair0 := false, pair1 := false, hostBoot := false }
  let s := { s with flash := { s.flash with boot := { s.flash.boot with hostCause := cause } } }
  s.event 0x0110 0xFF [(8, cause)]

/-- The hub ROM starts an image that it has verified on both pairs (R498). -/
def State.startImage (s : State) (i : Image) (host : Bool) : State :=
  (s.hubStatus fun h => { h with hostload := false }).modHub fun h =>
    { h with image := some i, hostBoot := host, pair0 := true, pair1 := true, beatFt := s.now }

/-- The hub ROM reads the image from flash and checks it (R498). -/
def State.verifyImage (s : State) : State × Bool :=
  match s.imageCheck s.flash.image, s.flash.image with
  | 0, some i => (s.startImage i false, true)
  | c, _ => (s.hostLoad c, false)

/-- Power up every good region (R489), and sweep every slice; the powered regions of no partition are swept when this returns, the others at the
end of their power-up (R196). -/
def State.regionsUp (s : State) (why : SweepFor) : State :=
  let s := (List.range 64).foldl (fun s g => if s.goodRegion g then s.powerUp g else s) s
  let s := (List.range 16).foldl (fun s p => if (s.part p).exist then s.beginSweep p why else s) s
  (List.range 64).foldl (fun s g =>
    if (s.partOfRegion g).isSome then s
    else if (s.region g).logic = .on then s.modSites (sitesOfRegion g) fun _ => sweptSite
    else s.modRegion g fun r => { r with lost := true }) s

/-- Retrain every enabled port in parallel (R336, R514). -/
def State.portsTrain (s : State) : State :=
  (List.range 24).foldl (fun s i => if (s.port i).enabled then s.trainStart i else s) s

/-- The Page Map that the journal rebuilds (R387): an entry whose copy cannot be read stays as the map holds it (log 132). -/
def State.journalMap (s : State) : Tbl PageEnt :=
  (s.mem.map.filter fun e => !s.journalReads e.1).foldl (fun t e => Tbl.set {} e.1 e.2 t)
    (s.mem.journal.filter fun e => s.journalReads e.1)

/-- Steps 2 to 4 of R513 and R514, once every Harvest is done: kept-page digests and self-refresh; the logic of every region; the mappings
that do not survive; then channels, ports, regions and slices. -/
def State.resetGo (s : State) (kind : ResetKind) : State :=
  let s : State := if kind = .recovery then
      let s := (List.range 24).foldl (fun (s : State) m => s.modMb m fun x =>
        { x with role := if m = 0 then 1 else 0, rolePart := 0, session := if m = 0 then x.session else none, challenge := none }) s
      let s := { s with mem := { s.mem with map := s.journalMap, mapBad := [] } }
      s.verifyImage.1
    else s
  let s := (List.range 16).foldl (fun s p => if (s.part p).exist then (s.stopPart p).flush p true else s) s
  let s := (List.range 64).foldl (fun s g =>
    (s.dropRepairs g).modRegion g fun r => { r with clocksOff := r.clocksOff && (s.hub.tripped || s.hub.halted) }) s
  let s := (List.range 16).foldl (fun s p =>
    (s.stopJob p).modJob p fun j => { j with jobPages := j.jobPages.filter fun l => (s.pageEnt l).kept }) s
  let s := s.keepBegin.keepOnly
  let s : State := if kind = .recovery then
      ((List.range 16).foldl (fun (s : State) c =>
        if (s.chan c).st = .selfRefresh ∨ (s.chan c).st = .offline then s.modChan c fun x => { x with st := .training } else s) s).portsTrain
    else (List.range 16).foldl (fun (s : State) c =>
        if (s.chan c).st = .selfRefresh then (s.modChan c fun x => { x with st := .up }).keepCheck c else s) s
  s.regionsUp .jubilee

/-- Go on with the device reset that runs, once no Harvest is in progress (R513, R518). -/
def State.resetNext (s : State) : State :=
  match s.hub.reset with
  | some (kind, _, _) => if (List.range 16).any fun p => (s.part p).harvesting then s else s.resetGo kind
  | none => s

/-- A Jubilee or recovery reset starts (R510, R513 step 1, R514): `READY` clear, every `DOWN` bit set, commands aborted, every partition
stopped and harvested; `harvest` is false for a reset that the hub starts itself (R516, R517). -/
def State.deviceReset (s : State) (kind : ResetKind) (mb : Option Nat) (harvest : Bool) : State :=
  let s := s.hubStatus fun h => { h with ready := false }
  let s := s.modHub fun h => { h with reset := some (kind, mb, s.now) }
  let s := (List.range 576).foldl (fun s r => s.modRouter r fun x => { x with down := true }) s
  let s := (List.range 16).foldl (fun s p =>
    if (s.part p).exist then
      let s := s.modPart p fun x => { x with underReset := true }
      let s := s.abortLocked p (mb.getD 24) fun _ => false
      if (s.part p).harvesting then s
      else match s.job p with
        | some j => if j.runs ∧ harvest then s.beginHarvest p 8 0 0xFFFF else (s.stopPart p).flush p true
        | none => (s.stopPart p).flush p true
    else s) s
  s.errDrain.resetNext

/-- The job of a partition at the end of a device reset (R511): a lost ledger or phase-image page ends it; otherwise its retain pages and
spill rings are allocated again, and it stays stopped. `plain` is the number of those pages. -/
def State.jobAfterReset (s : State) (p : Nat) (plain : Nat) : State :=
  match s.job p with
  | none => s.modPart p fun x => { x with halted := false }
  | some j =>
    if (j.jobPages ++ (s.part p).imagePages).any fun l => (s.pageEnt l).kind == .unmapped then (s.endBinding p 2 .normal).closeHeralds p
    else
      let s := s.zeroAll
      let (s, ls) := (s.allocPages plain p .plain false true).getD (s, [])
      (s.modJob p fun j => { j with jobPages := j.jobPages ++ ls }).resolvePrepared p

/-- Pages that a job's retain entries and spill rings take (R215, R260, R388, R573). -/
def Ordo.plainPages (o : Ordo) : Nat :=
  (o.retains.map (·.pages)).sum + (o.chanRecs.map fun c => (2 ^ c.spillLog2 + pageBytes - 1) / pageBytes).sum

/-- Steps 5 and 6 of R513: initial maps, `DOWN` bits clear, the jobs under R511; `READY` is the caller's. -/
def State.resetEnd (s : State) (kind : ResetKind) (start : Nat) : State :=
  let s := (List.range 64).foldl (fun s g => if s.goodRegion g ∧ (s.partOfRegion g).isNone then s.placeRegion g else s) s
  let s := (List.range 16).foldl (fun (s : State) p => if (s.part p).exist then s.placePart p else s) s
  let s := (List.range 16).foldl (fun s p =>
    if (s.part p).exist then
      let s := s.modPart p fun x => { x with underReset := false }
      s.jobAfterReset p (match (s.part p).ordo with
        | some o => o.plainPages
        | none => 0)
    else s) s
  let s := (List.range 576).foldl (fun s r => s.modRouter r fun x => { x with down := (s.hub.halted || match s.partOfRegion (routerRegion r) with
    | some p => (s.part p).sweep.isSome
    | none => false) }) s
  let k := if kind = ResetKind.recovery then 2 else 1
  let s := (s.modHub fun h => { h with reset := none }).resetNote k
  (s.event 0x0116 0xFF [(8, k), (32, (s.now - start) / ftUs)]).resetDone none

/-! ## Sweeps and Harvests -/

/-- `ZERO_SWEEP_COMPLETE` (R195, R197): the gates of a partition's sweep lift, the `DOWN` bits clear, and what waited for the sweep goes
on. -/
def execZeroSweepComplete (t p : Nat) (s : State) : Out :=
  let s := s.adv t
  .next <| match (s.part p).sweep with
  | none => s
  | some why =>
    if s.tagsOpen p ∨ ¬ s.sweepPowered p then s
    else
    let s := s.modSites (s.sitesOf p) fun _ => sweptSite
    let s := s.modPart p fun x => { x with sweep := none }
    let s := if (s.part p).underReset ∨ s.hub.halted then s else s.setDown p false
    match why with
    | .jobKill mb => s.finish mb stOk
    | .reset _ => s.partResetEnd p
    | _ => s

/-- `HARVEST_COMPLETE` (R519 step 5, R512, R518): sample and record are bound to the owner credential; a reset that waited goes on. -/
def execHarvestComplete (t p : Nat) (s : State) : Out :=
  let s := s.adv t
  .next <|
    if (s.part p).harvesting ∧ (s.part p).sweep ≠ some .harvest then
      let h := (s.part p).harvested
      let s := s.modPart p fun x => { x with harvesting := false }
      let s := s.event 0x0114 p [(8, h.cause), (64, h.step.toNat), (32, h.sampleBytes)]
      if (s.part p).underReset then (if s.hub.reset.isSome then s.resetNext else s.partResetGo p) else s
    else s

/-- `NORMAL_COMPLETION` (R195, R461): a job between steps ends its binding. -/
def execNormalCompletion (t p : Nat) (s : State) : Out :=
  let s := s.adv t
  .next <| match s.job p with
  | none => s
  | some j => if j.st = .atGate then (s.endBinding p 0 .normal).closeHeralds p else s

end Sys2Proof.Machine
end

