-- ==== Sys2Proof/Machine/Boot.lean ====
section
/-! DEFINITION. Cold boot, READY, the defect ledger, lockstep, watchdog, and the pins that hold the device in cold reset (16 R502 to R506,
R515 to R517; 17 R566; 18 R557, R562 to R566). -/

namespace Sys2Proof.Machine

/-! ## Start-up (R500 to R505) -/

/-- The nominal of an input rail in mV, by its code in the `PMBUS` entries (R467, R500). -/
def railMv (rail : Nat) : Nat :=
  if rail = 0 then 1800 else if rail = 1 then 1200 else if rail = 2 then 1100 else 1800

/-- The PMBus master sets `VOUT_COMMAND` of every listed module to the nominal of its rail (R469); codes 4 to 7 name no rail. -/
def State.setModules (s : State) : State :=
  s.hub.config.pmbus.zipIdx.foldl (fun (s : State) x =>
    let rail := bitsN x.1 7 3
    if rail < 4 then s.emit (.pmbusVout x.2 (railMv rail)) else s) s

/-- The configuration block comes into force (R500, R501, R505 step 3). -/
def State.applyConfig (s : State) (c : Option ConfigBlock) : State :=
  let b := c.getD {}
  let s := s.modHub fun h => { h with config := b, configDefault := c.isNone, devId := b.devId }
  let s := (List.range 24).foldl (fun (s : State) i => s.modPort i fun x => { x with enabled := bitAt b.portEn i, minWidth := b.minWidth }) s
  if c.isNone then s.event 0x0111 0xFF [] else s

/-- The Ember record, when it is current (R504): its `BOOT` is the boot count before this boot's increment. -/
def State.emberNow (s : State) : Option EmberRec :=
  match s.flash.ember with
  | some e => if e.boot + 1 = s.flash.boot.boots then some e else none
  | none => none

/-- Apply the defect ledgers and the Ember record (R503, R504): `DEFECT` sites, disconnected cells, bump caps. A failing site of the Ember record
enters the field defect ledger under the class of the logic BIST (R525; DEDUCED, log 166). -/
def State.mergeLedgers (s : State) : State :=
  let ember := match s.emberNow with
    | some e => e.fails.filterMap siteOfId
    | none => []
  let sites := s.fuses.defects ++ (s.flash.ledger.filter (·.kind == 1)).filterMap (fun e => siteOfId e.id) ++ ember
  let s := ember.foldl (fun (s : State) k =>
    if (s.flash.ledger ++ s.flash.ledgerPend).any fun e => e.kind == 1 && e.id == siteId k then s else s.ledgerAdd 1 0x0304 (siteId k)) s
  let s := (List.range 9216).foldl (fun s k =>
    s.modSite k fun x => { x with st := if sites.contains k then .defect else .spare, untested := true, tile := 0 }) s
  let s := s.flash.ledger.foldl (fun (s : State) e =>
    if e.kind = 2 then
      s.cellOff (bitsN e.id 0 6) (bitsN e.id 8 3) 4
    else if e.kind = 3 then s.modRegion (e.id % 64) fun r => { r with bump := true }
    else s) s
  (List.range 64).foldl (fun s g =>
    let r := s.region g
    if 3 ≤ r.logicFailed then s.darken g 1 else if 2 ≤ r.arrayFailed then s.darken g 2 else s.applyStep g) s

/-- The memory BIST of every slice at start (R307, R505 step 6): `memFail` are the sites that fail; a passing site that a current Ember record
covers is not `UNTESTED` (R504). -/
def State.bootBist (s : State) (memFail : List MemFail) : State :=
  let cover := match s.emberNow with
    | some e => e.run
    | none => 0
  let s := memFail.foldl (fun (s : State) f =>
    if (s.site f.site).st = .spare then
      (s.reportSite 0x0305 f.site 0xFFFF [(32, sliceAddr f.bank f.entry), (8, f.bank), (8, f.elem)]).fenceSite f.site 0x0305 0
    else s) s
  (List.range 9216).foldl (fun s k =>
    if (s.site k).st = .spare then
      s.modSite k fun x => { x with untested := !bitAt cover (keyRegion k), mu := { x.mu with slice := [], errs := [], tags := [], swept := true } }
    else s) s

/-- Regions that no current Ember record covers, among the good ones (R504). -/
def State.uncovered (s : State) : Nat :=
  let cover := match s.emberNow with
    | some e => e.run
    | none => 0
  (List.range 64).foldl (fun n g => if s.goodRegion g ∧ ¬ bitAt cover g then n + 2 ^ g else n) 0

/-- The boot record's last step of start-up (R502). -/
def State.bootReached (s : State) (n : Nat) : State :=
  { s with flash := { s.flash with boot := { s.flash.boot with lastStep := n } } }.modHub fun h => { h with bootStep := n }

/-- Steps 3 to 6 of R505: configuration, ledgers, channels, ports, regions and slices, initial maps. -/
def State.bootOn (s : State) (c : Option ConfigBlock) (memFail : List MemFail) : State :=
  let s := (s.applyConfig c).setModules.mergeLedgers
  let s := (List.range 16).foldl (fun s ch => s.modChan ch fun x => { x with st := .training }) s
  let s := s.portsTrain
  let s := (List.range 64).foldl (fun s g =>
    if s.goodRegion g then (s.modRegion g fun r => { r with logic := .off, array := .off, puGroups := 0 }).powerUp g else s) s
  let s := s.bootBist memFail
  let s := (List.range 64).foldl State.spareEvents s
  let s := (List.range 64).foldl (fun s g => if s.goodRegion g then s.placeRegion g else s) s
  let u := s.uncovered
  let s := if u = 0 then s else (s.modHub fun h => { h with untested := true }).event 0x0112 0xFF [(64, u)]
  s.bootReached 6

/-- `COLD_BOOT` (R498, R502, R505, R531, R560): every rail is in range again and `COLD_RST_N` is high: the start-up sequence from the fuses on.
Where the PUF cannot be rebuilt, the identity is lost for the power cycle. -/
def execColdBoot (t : Nat) (tests : BootTests) (memFail : List MemFail) (s : State) : Out :=
  let s := s.adv t
  .next <|
    if ¬ s.hub.inReset ∨ ¬ s.pins.coldRstN then s
    else
      let s := ({ s with power := { s.power with railsOk := true } }.modHub fun h => { h with inReset := false }).bootReached 1
      let s := if tests.fuseOk then s else (s.modAlarm 4 fun a => { a with asserts := true }).alarm 4 0 0
      let s := { s with flash := { s.flash with boot := { s.flash.boot with boots := (s.flash.boot.boots + 1) % 2 ^ 32, hostCause := 0 } } }
      let s := if tests.pufOk then s else { s with sec := { s.sec with idLost := true } }.event 0x0C05 0xFF []
      match (s.bootReached 2).verifyImage with
      | (s, true) => s.bootOn s.flash.newest memFail
      | (s, false) => s

/-- Whether every condition of `READY` holds (R506); the initial placements of a reset wait for the tests of sites (R76), and a channel lost since its
training does not hold READY back (DEDUCED, log 167). -/
def State.readyDue (s : State) : Bool :=
  !s.hub.inReset && !s.hub.ready && !s.hub.hostload && !s.hub.shutdown && (s.hub.pair0 || s.hub.pair1) && decide (6 ≤ s.hub.bootStep) &&
    (List.range 16).all (fun c => decide ((s.chan c).st ∈ [McSt.up, .omitted, .empty, .offline])) &&
    (List.range 24).all (fun i => !(s.port i).enabled || decide ((s.port i).st ∈ [PortSt.up, .down])) &&
    (List.range 64).all (fun g => !s.goodRegion g || (s.region g).logic == .on) &&
    (List.range 16).all (fun p => (s.part p).sweep.isNone && !(s.part p).harvesting) &&
    (s.hub.reset.isNone || (List.range 64).all fun g => (s.sitesIn g .test).isEmpty)

/-- At cold boot the Steward maps its system pages (R193, R328, R386, R387, R519): the log ring, the Harvest store, the Harvest annex and the
journal, where the channels give room. -/
def State.mapSystem (s : State) : State :=
  match s.allocPages 1090 0 .system true true with
  | some (s, ls) => { s with mem := { s.mem with system := ls } }
  | none => s

/-- The one step of FT before `READY`, by the offset of the source that R271 selects (R272). -/
def State.bootStepFt (s : State) : State :=
  match s.timeSource.offset with
  | some o => if s.time.stepped then s else s.modTime (·.stepBy (-o))
  | none => s

/-- `READY_SET` (R499, R505 step 7, R506, R513 steps 5 and 6): at cold boot FT steps to its source and the
system pages are mapped; after a reset the maps are built and the
jobs resolved; `READY` is set, and a host-loaded image goes to flash. -/
def execReadySet (t : Nat) (s : State) : Out :=
  let s := s.adv t
  .next <|
    if ¬ s.readyDue then s
    else
      let s := match s.hub.reset with
        | some (kind, _, start) => s.resetEnd kind start
        | none => s.bootStepFt.mapSystem
      let s := ((s.hubStatus fun h => { h with ready := true }).event 0x0101 0xFF []).bootReached 7
      match s.hub.image with
      | some i =>
        if s.hub.hostBoot ∧ s.hub.config.flashRepair ∧ s.flash.image ≠ some i then
          ({ s with flash := { s.flash with image := some i } }).event 0x0117 0xFF [(32, i.version.toNat)]
        else s
      | none => s

/-- `LEDGER_APPEND` (R503): the Steward writes an entry that awaits its place in the field defect ledger. -/
def execLedgerAppend (t kind cls id : Nat) (s : State) : Out :=
  let s := s.adv t
  .next <| match s.flash.ledgerPend.find? fun e => e.kind == kind && e.cls == cls && e.id == id with
  | none => s
  | some e =>
    { s with flash := { s.flash with
        ledgerPend := s.flash.ledgerPend.erase e
        ledger := if s.flash.ledger.length < 16384 then s.flash.ledger ++ [e] else s.flash.ledger } }

/-! ## Lockstep and watchdog (R515 to R517) -/

/-- A `LOCKSTEP` record (R528, R529). -/
def State.lockstep (s : State) (pair cause pc : Nat) : State := s.report 0x0802 8 0xFF pair [(8, pair), (8, cause), (64, pc)]

/-- `LOCKSTEP_MISMATCH` (R515, R516): the pair halts and the other takes over; the last pair's mismatch starts a recovery reset. -/
def execLockstepMismatch (t pair pc : Nat) (s : State) : Out :=
  let s := s.adv t
  .next <|
    let runs := if pair = 0 then s.hub.pair0 else s.hub.pair1
    let other := if pair = 0 then s.hub.pair1 else s.hub.pair0
    if 2 ≤ pair ∨ ¬ runs then s
    else
      let s := s.modHub fun h => if pair = 0 then { h with pair0 := false } else { h with pair1 := false }
      if other then (s.lockstep pair 1 pc).event 0x0115 0xFF [(8, pair)]
      else (s.lockstep pair 2 pc).deviceReset .recovery none false

/-- `HEARTBEAT_TICK` (R437): the Steward, while it runs, counts another millisecond. -/
def execHeartbeatTick (t : Nat) (s : State) : Out :=
  let s := s.adv t
  .next <| if s.hub.pair0 ∨ s.hub.pair1 then s.modHub fun h => { h with heartbeat := h.heartbeat + 1, beatFt := s.now } else s

/-- `WATCHDOG_EXPIRE` (R517): `HEARTBEAT` has not advanced for 250 ms: a recovery reset without a Harvest. -/
def execWatchdogExpire (t : Nat) (s : State) : Out :=
  let s := s.adv t
  .next <|
    if (s.hub.pair0 ∨ s.hub.pair1) ∧ s.hub.beatFt + 250 * ftMs ≤ s.now ∧ ¬ s.hub.inReset then
      ((s.lockstep (if s.hub.pair0 then 0 else 1) 3 0).modHub fun h => { h with beatFt := s.now }).deviceReset .recovery none false
    else s

/-! ## Pins and rails (R557, R562, R565, R566) -/

/-- The device falls into cold reset (R507, R508): what the table of R508 says is lost at a cold reset is lost; fuses and flash stay, and the
queue of commands and the record of outputs are outside the device. Every site fenced in the power cycle stands in the field defect ledger, whatever entry still waited
(R64; DEDUCED, log 141). -/
def State.coldReset (s : State) : State :=
  { State.reset with pending := s.pending, fuses := s.fuses, flash := s.flash.ledgerFlush, sent := s.sent, free := s.free,
                     pins := { s.pins with thermtripN := true, haltN := true }, power := { railsOk := s.power.railsOk },
                     time := { ft := 0 } }

/-- `COLD_RST_N_ASSERT` (R565): low for 10 µs or more holds the device in cold reset, a pulse below 1 µs is ignored; between them the effect
is not defined, and a free value decides. -/
def execColdRstNAssert (t us : Nat) (s : State) : Out :=
  let s := s.adv t
  .next <|
    if us < 1 then s
    else
      let (v, s) := s.draw 1
      if 10 ≤ us ∨ v = 1 then
        let s := s.coldReset
        { s with pins := { s.pins with coldRstN := false } }
      else s

/-- `COLD_RST_N_RELEASE` (R565): the input is high again. -/
def execColdRstNRelease (t : Nat) (s : State) : Out :=
  let s := s.adv t
  .next { s with pins := { s.pins with coldRstN := true } }

/-- `RAIL_REMOVAL` (R507, R560): VIN_CORE or VAUX goes, and comes back for the next `COLD_BOOT`. -/
def execRailRemoval (t : Nat) (s : State) : Out :=
  let s := (s.adv t).coldReset
  .next { s with power := { s.power with railsOk := false } }

/-- `MGMT_LINK_LOSS` (R547): the sessions and unlocks of the port's mailboxes end. -/
def execMgmtLinkLoss (t port : Nat) (s : State) : Out :=
  let s := s.adv t
  .next <|
    let s := s.modMgmt port fun m => { m with link := false, reasm := [] }
    (List.range 4).foldl (fun s i => s.modMb (16 + 4 * port + i) fun m => { m with role := 0, session := none, challenge := none }) s

end Sys2Proof.Machine
end

