-- ==== Sys2Proof/Machine/Commands.lean ====
section
/-! DEFINITION. How a mailbox command runs: the checks of R445, R447 and R449, the partition locks of R443, and the buffers of R441. Each
command of R450 is a `CmdDef`: its opcode, role, argument widths and lock, and a body that completes it or leaves it running. -/

namespace Sys2Proof.Machine

/-- A running command: its mailbox, its descriptor and its arguments in the order of R450. -/
structure Cmd where
  mb : Nat := 0
  d : Desc := {}
  a : List Nat := []
  deriving DecidableEq, Repr

/-- `PART` of a command. -/
abbrev Cmd.part (c : Cmd) : Nat := c.d.part

/-- Argument `i` of a command. -/
def Cmd.arg (c : Cmd) (i : Nat) : Nat := (c.a[i]?).getD 0

/-- The roles of R450 and R447: `free` runs on any mailbox, `claim` on any but a management mailbox before its session, `session` on any
management mailbox. -/
inductive Role where
  | free | claim | any | admin | owner | strict | session
  deriving DecidableEq, Repr

/-- A command of R450. -/
structure CmdDef where
  /-- opcode -/
  op : Nat
  role : Role
  /-- argument widths in bits, in order (R449) -/
  widths : List Nat := []
  /-- runs before `READY` and while `HALTED` (R445) -/
  early : Bool := false
  /-- `PART` must name a partition that exists -/
  part : Bool := false
  /-- the partition whose lock it takes (R443) -/
  lock : State → Cmd → Option Nat := fun _ _ => none
  /-- which descriptors of the opcode this is -/
  sel : Desc → Bool := fun _ => true
  body : State → Cmd → State

/-! ## Checks -/

/-- Whether a role may run a command on a mailbox (R447, R532, R547). -/
def roleOk (r : Role) (m : Mailbox) (mb part : Nat) : Bool :=
  match r with
  | .free => true
  | .claim => decide (mb < 16) || m.role != 0
  | .session => decide (16 ≤ mb) || m.role != 0
  | .any => m.role != 0
  | .admin => m.role == 1
  | .owner => m.role == 1 || (m.role == 2 && m.rolePart == part)
  | .strict => m.role == 2 && m.rolePart == part

/-- The first check that a command fails, 0 for none: readiness, role, then reserved bytes and ranges (R445, R447, R449; assumption 25). -/
def State.gate (s : State) (f : CmdDef) (c : Cmd) : Nat :=
  if ¬ (f.early ∨ (s.hub.ready ∧ ¬ s.hub.halted)) then stNotReady
  else if ¬ roleOk f.role (s.mbx c.mb) c.mb c.part then stNoCredential
  else if ¬ c.d.reservedZero ∨ 4 < c.d.bufKind ∨ (16 ≤ c.part ∧ c.part ≠ 0xFF) ∨ (unpack f.widths c.d.args).isNone then stBadArgument
  else if (f.part ∨ f.role = .owner ∨ f.role = .strict) ∧ ¬ (c.part < 16 ∧ (s.part c.part).exist) then stBadArgument
  else 0

/-- Run a command that has been taken from its ring: its checks, its lock, its body (R443). -/
def State.go (s : State) (f : CmdDef) (mb : Nat) (d : Desc) : State :=
  let c : Cmd := { mb, d, a := (unpack f.widths d.args).getD [] }
  let st := s.gate f c
  if st ≠ 0 then s.finish mb st
  else match f.lock s c with
    | none => f.body s c
    | some p =>
      let x := s.part p
      if x.lock = some mb then f.body s c
      else if x.lock = none ∧ x.lockWait = [] then f.body (s.modPart p fun x => { x with lock := some mb }) c
      else s.modPart p fun x => { x with lockWait := x.lockWait ++ [(mb, d.ackFt)] }

/-- Every opcode of R450, R491 and R548. -/
def knownOps : List Nat :=
  (List.range 10).map (0x0101 + ·) ++ (List.range 6).map (0x0201 + ·) ++ (List.range 6).map (0x0301 + ·) ++
    (List.range 5).map (0x0401 + ·) ++ [0x0501, 0x0502] ++ (List.range 7).map (0x0601 + ·) ++ (List.range 8).map (0x0701 + ·) ++
    (List.range 8).map (0x0801 + ·) ++ [0x0901, 0x0902, 0x0A01, 0x0A02, 0x0A03] ++ (List.range 6).map (0x0B01 + ·) ++
    (List.range 9).map (0x0C01 + ·) ++ [0x0D01, 0x0D02, 0x0D03]

/-- Commands of unknown opcode at the front of a free mailbox complete with `BAD_OPCODE` (R449), where the mailbox is served (R499). -/
def State.badOps : Nat → State → Nat → State
  | 0, s, _ => s
  | n + 1, s, mb =>
    let m := s.mbx mb
    match m.running, m.queue with
    | none, d :: rest =>
      if m.stalled ∨ knownOps.contains d.opcode ∨ (s.hub.hostload ∧ mb ≠ 0) then s
      else State.badOps n ((s.modMb mb fun m => { m with queue := rest, running := some d, exec := d.slot }).finish mb stBadOpcode) mb
    | _, _ => s

/-- The answer that a running command waits for has come: its body goes on, under its lock. -/
def CmdDef.answer (f : CmdDef) (s : State) (mb : Nat) (e : ExtIn) (d : Desc) : State :=
  let m := s.mbx mb
  if d.opcode ≠ f.op ∨ ¬ f.sel d ∨ ¬ m.ext.later then s
  else
    let s := s.modMb mb fun m => { m with ext := { e with asked := m.ext.asked } }
    let c : Cmd := { mb, d, a := (unpack f.widths d.args).getD [] }
    match f.lock s c with
    | none => (f.body s c).badOps 64 mb
    | some p => if (s.part p).lock = some mb then (f.body s c).badOps 64 mb else s

/-- A running command has put its question to the world (R52, R433). -/
def State.askedOf (s : State) (mb : Nat) : State := s.modMb mb fun m => { m with ext := { m.ext with asked := true } }

/-- A running command puts its question to the world, once (R403, R424, R433). -/
def State.askOnce (s : State) (mb : Nat) (q : OutMsg) : State := if (s.mbx mb).ext.asked then s else (s.emit q).askedOf mb

/-- Start the command at the front of a mailbox, if it is this one and the mailbox is free (R443, R444); host-load mode serves mailbox 0
alone (R499). `e` is what the world answers; a command that waits for that answer goes on with it. -/
def CmdDef.start (f : CmdDef) (s : State) (mb : Nat) (e : ExtIn) : State :=
  let s := s.badOps 64 mb
  let m := s.mbx mb
  match m.running, m.queue with
  | none, d :: rest =>
    if m.stalled ∨ d.opcode ≠ f.op ∨ ¬ f.sel d ∨ (s.hub.hostload ∧ mb ≠ 0) then s
    else
      let s := s.modMb mb fun m => { m with queue := rest, running := some d, exec := d.slot, ext := e }
      (s.go f mb d).badOps 64 mb
  | some d, _ => f.answer s mb e d
  | _, _ => s

/-- A command row: time passes, and the mailbox starts its command. -/
def CmdDef.run (f : CmdDef) (t mb : Nat) (e : ExtIn) (s : State) : Out := .next (f.start (s.adv t) mb e)

/-- The lock of `PART` (R443). -/
def lockPart (_ : State) (c : Cmd) : Option Nat := if c.part < 16 then some c.part else none

/-! ## Buffers (R441) -/

/-- Split a range of device addresses by page: (address, length) in order. -/
def pageCuts (a n : Nat) : List (Nat × Nat) :=
  (List.range ((a % pageBytes + n + pageBytes - 1) / pageBytes)).map fun i =>
    let lo := max a (a / pageBytes * pageBytes + i * pageBytes)
    (lo, min (a + n) (a / pageBytes * pageBytes + (i + 1) * pageBytes) - lo)

/-- The access of a mailbox to one page of its buffer, under the rights of its role (R386, R441; log 26): those of the host, which a partition's owner
has for the pages of its partition. -/
def State.bufAcc (s : State) (mb : Nat) (w : Bool) (a n : Nat) : PageAcc :=
  let m := s.mbx mb
  { addr := a, len := n, write := w, src := 2, dev := s.hub.devId, part := if m.role = 2 then m.rolePart else 0xFF }

/-- Why a buffer in device memory cannot be used: the first page refused, with its cause. -/
def State.bufCause (s : State) (mb : Nat) (w : Bool) (cuts : List (Nat × Nat)) : Option (PageAcc × Nat) :=
  cuts.findSome? fun x =>
    let y := s.bufAcc mb w x.1 x.2
    let c := s.accCause y 0 none fun _ => false
    if c = 0 then none else some ({ y with src := 3 }, c)

/-- Read the command's buffer in full (R441), or complete it with `BUFFER_FAULT` (none). -/
def State.bufIn (s : State) (c : Cmd) : State × Option (List Byte) :=
  let n := c.d.bufLen
  match c.d.bufKind with
  | 1 => (s, match (s.mbx c.mb).ext.buf with
    | some b => if n ≤ b.length then some (b.take n) else none
    | none => none)
  | 2 =>
    let cuts := pageCuts c.d.bufAddr n
    match s.bufCause c.mb false cuts with
    | some (x, e) => (s.pageRefuse x e, none)
    | none =>
      let (s, bs, ue) := cuts.foldl (fun (a : State × List Byte × Bool) x =>
        let (s, b, u) := a.1.pageRead (bitsN x.1 18 24) (x.1 % pageBytes) x.2 0 3 0xFF false
        (s, a.2.1 ++ b, a.2.2 || u)) (s, [], false)
      (s, if ue then none else some bs)
  | 4 => (s, if 16 ≤ c.mb ∧ n ≤ c.d.data.length then some (c.d.data.take n) else none)
  | _ => (s, none)

/-- Whether the command's buffer can take output, and its state after a refused access is recorded (R441). -/
def State.bufCan (s : State) (c : Cmd) : State × Bool :=
  let n := c.d.bufLen
  match c.d.bufKind with
  | 1 => (s, (s.mbx c.mb).ext.buf.isSome)
  | 2 => match s.bufCause c.mb true (pageCuts c.d.bufAddr n) with
    | some (x, e) => (s.pageRefuse x e, false)
    | none => (s, true)
  | 3 => (s, decide (c.mb < 16 ∧ c.d.bufAddr + n ≤ 524288))
  | 4 => (s, decide (16 ≤ c.mb ∧ n ≤ 532436))
  | _ => (s, false)

/-- Write output to a buffer that can take it; the answer holds what goes into a completion message instead. -/
def State.bufPut (s : State) (c : Cmd) (bs : List Byte) : State × List Byte :=
  match c.d.bufKind with
  | 1 => (if bs = [] then s else s.emit (.hostWrite c.d.bufAddr bs), [])
  | 2 => ((pageCuts c.d.bufAddr bs.length).foldl (fun (s : State) x =>
      (s.pageWrite (bitsN x.1 18 24) (x.1 % pageBytes) (slice bs (x.1 - c.d.bufAddr) x.2) 0 3 0xFF false).1) s, [])
  | 3 => (s.modMb c.mb fun m => { m with result := memWriteN m.result c.d.bufAddr bs }, [])
  | 4 => (s, bs)
  | _ => (s, [])

/-- The whole units that fit in `n` bytes (R441). -/
def fitUnits : Nat → List (List Byte) → List (List Byte)
  | _, [] => []
  | n, u :: us => if u.length ≤ n then u :: fitUnits (n - u.length) us else []

/-- Complete with output: whole units as far as they fit, `MORE` when cut, and a result made from the bytes and the number of units
written (R441, R442). -/
def State.finishOut (s : State) (c : Cmd) (units : List (List Byte)) (result : Nat → Nat → Nat) : State :=
  match s.bufCan c with
  | (s, false) => s.finish c.mb stBufferFault
  | (s, true) =>
    let us := fitUnits c.d.bufLen units
    let bs := us.flatten
    let (s, out) := s.bufPut c bs
    s.finishWith c.mb stOk 0 (result bs.length us.length) (decide (us.length < units.length)) out

/-- The load locator of R451 with every field all ones but `CHECK` and those given as (byte offset, width, value). -/
def locator (check : Nat) (fs : List (Nat × Nat × Nat)) : Nat :=
  fs.foldl (fun r x => r - bitsN r (8 * x.1) x.2.1 * 2 ^ (8 * x.1) + x.2.2 % 2 ^ x.2.1 * 2 ^ (8 * x.1)) (2 ^ 128 - 256 + check)

end Sys2Proof.Machine
end

