-- ==== Sys2Proof/Machine/CmdSec.lean ====
section
/-! DEFINITION. Group 0x0C: attestation, alarm policies, debug, keys and management sessions (17 R530 to R548). -/

namespace Sys2Proof.Machine

/-- `NO_IDENTITY` (R548). -/
abbrev stNoIdentity : Nat := 0x0C01
/-- `NO_SESSION` (R548). -/
abbrev stNoSession : Nat := 0x0C02
/-- `KEY_AUTH` (R548). -/
abbrev stKeyAuth : Nat := 0x0C03
/-- `POLICY_LOCKED` (R548). -/
abbrev stPolicyLocked : Nat := 0x0C04
/-- `DEBUG_CHALLENGE` (R548). -/
abbrev stDebugChallenge : Nat := 0x0C06

/-- Big-endian bytes. -/
def beBytes (n v : Nat) : List Byte := (leBytes n v).reverse

/-! ## Attestation (R530 to R534) -/

/-- `POLICY` of R533: a byte for each alarm class. -/
def State.policyWord (s : State) : Nat := ((List.range 6).map fun i => 256 ^ i * ((s.alarmOf i).policy + 4 * b1 (s.alarmOf i).locked)).sum
/-- `ALARMS` of R533. -/
def State.alarmsWord (s : State) : Nat := ((List.range 6).map fun i => 2 ^ i * b1 (s.alarmOf i).raised).sum

/-- `STATE` of R533. -/
def State.attestState (s : State) : Nat :=
  b1 s.hub.hostBoot + 2 * b1 (s.sec.debug != 0) + 4 * (BitVec.toNat s.sec.debug) + 128 * b1 s.hub.halted + 256 * b1 s.fuses.idDestroyed +
    512 * b1 s.hub.untested + 1024 * b1 s.hub.degraded

/-- A partition entry of R533. -/
def State.attestPart (s : State) (p : Nat) : List Byte :=
  let step : Nat := match s.job p with
    | some j => j.step
    | none => 0
  leBytes 1 p ++ leBytes 1 (b1 (s.part p).ordo.isSome + 2 * b1 (s.job p).isSome) ++ leBytes 6 0 ++ leBytes 8 step ++
    leBytes 48 (s.ordoDigest p).toNat

/-- Digest of the fuse shadow registers, secret fuses excluded (R533). -/
def State.fuseDigest (s : State) : BitVec 384 :=
  let f := s.fuses
  Config.fuseDigest ([f.grade, f.hostOpt, f.svnMin, f.pubHash.toNat, f.debugHash.toNat] ++
    (List.range 4).flatMap fun i =>
      let k : OpKey := Tbl.get {} f.opKeys i
      [k.hash.toNat, b1 k.programmed, b1 k.revoked])

/-- The attestation report before its signature (R533). -/
def State.attestBody (s : State) (nonce parts eph : Nat) : List Byte :=
  let img : Image := s.hub.image.getD {}
  [0x41, 0x54, 0x54, 0x53] ++ leBytes 2 1 ++ leBytes 2 parts ++ leBytes 2 s.hub.devId ++ leBytes 1 0xB0 ++
    leBytes 1 (s.fuses.grade % 16 + 16 * s.fuses.hostOpt) ++ leBytes 4 s.flash.boot.boots ++ leBytes 4 img.version.toNat ++
    leBytes 4 img.svn ++ leBytes 4 s.fuses.svnMin ++ leBytes 4 s.attestState ++ leBytes 32 nonce ++ beBytes 48 img.digest.toNat ++
    leBytes 48 (if s.hub.configDefault then 0 else s.hub.config.digest.toNat) ++ beBytes 48 s.fuseDigest.toNat ++
    leBytes 8 s.policyWord ++ leBytes 8 s.alarmsWord ++ beBytes 96 eph ++
    (((List.range 16).filter fun p => bitOn parts p).flatMap s.attestPart) ++ beBytes 96 s.fuses.idKey.toNat

/-- `ATTEST` (R531 to R534). -/
def cmdAttest : CmdDef :=
  { op := 0x0C01, role := .free, early := true, widths := [256, 16, 8]
    body := fun s c =>
      let parts := c.arg 1
      if 1 < c.arg 2 then s.finish c.mb stBadArgument
      else if s.sec.idLost ∨ s.fuses.idDestroyed then s.finish c.mb stNoIdentity
      else
        let report (s : State) (eph : Nat) : State :=
          let b := s.attestBody (c.arg 0) parts eph
          s.finishOut c [b ++ beBytes 96 (Config.identitySign (Config.sha384 b)).toNat] fun _ _ => 0
        if c.arg 2 = 0 then report s 0
        else match s.bufIn c with
          | (s, none) => s.finish c.mb stBufferFault
          | (s, some k) =>
            if k.length < 96 then s.finish c.mb stBufferFault
            else
              let (d, s) := s.draw 256
              let key := Config.sessionKey (BitVec.ofNat 768 (ofBe (k.take 96))) d.toNat (BitVec.ofNat 256 (c.arg 0))
              report (s.modMb c.mb fun m => { m with session := some key }) (Config.ephemeralKey d.toNat).toNat }
/-- `ATTEST`. -/
def execAttest (t mb : Nat) (buf : Option (List Byte)) (s : State) : Out := cmdAttest.run t mb { buf } s

/-- `ALARM_POLICY` (R541). -/
def cmdAlarmPolicy : CmdDef :=
  { op := 0x0C02, role := .admin, widths := [8, 8, 8]
    body := fun s c =>
      if 5 < c.arg 0 ∨ 3 < c.arg 1 ∨ 1 < c.arg 2 then s.finish c.mb stBadArgument
      else if (s.alarmOf (c.arg 0)).locked then s.finish c.mb stPolicyLocked
      else (s.modAlarm (c.arg 0) fun a => { a with policy := c.arg 1, locked := c.arg 2 == 1 }).finish c.mb stOk }
/-- `ALARM_POLICY`. -/
def execAlarmPolicy (t mb : Nat) (buf : Option (List Byte)) (s : State) : Out := cmdAlarmPolicy.run t mb { buf } s

/-! ## Signed challenges (R544, R547) -/

/-- A buffer with a 96-byte public key and a 96-byte signature: the key, its hash, and whether it signs a message. -/
def signedBy (b msg : List Byte) : BitVec 384 × Bool :=
  let key := b.take 96
  (Config.sha384 key, Config.ecdsaOk (BitVec.ofNat 768 (ofBe key)) (Config.sha384 msg) (BitVec.ofNat 384 (ofBe (slice b 96 48)))
    (BitVec.ofNat 384 (ofBe (slice b 144 48))))

/-- What a debug signature covers (R544): challenge, `DEV_ID`, SHA-384 of `ID_KEY`, `SCOPE`. -/
def State.debugMsg (s : State) (ch : BitVec 128) (scope : Nat) : List Byte :=
  leBytes 16 ch.toNat ++ leBytes 2 s.hub.devId ++ beBytes 48 (Config.sha384 (beBytes 96 s.fuses.idKey.toNat)).toNat ++ leBytes 1 scope

/-- Open a debug scope beside those that are open (R34, R543, R545): secrets are cleared first for internal scan and the debug module, and every
running job is faulted. -/
def State.debugOpen (s : State) (scope : Nat) : State :=
  let s := if 4 ≤ scope then s.eraseSession 2 else s
  let s := (List.range 16).foldl (fun (s : State) p => s.modJob p fun j => { j with debugged := j.debugged || j.runs }) s
  let s := (List.range 16).foldl (fun (s : State) p => if (s.job p).any Job.runs then s.faultJob p 0 else s) s
  let s := { s with sec := { s.sec with debug := s.sec.debug ||| BitVec.ofNat 5 scope } }
  s.event 0x0C03 0xFF [(8, scope)]

/-- `DEBUG_UNLOCK` (R544, R545): phase 0 gives a challenge, phase 1 takes the answer. -/
def cmdDebugUnlock : CmdDef :=
  { op := 0x0C03, role := .admin, widths := [8, 8]
    body := fun s c =>
      let scope := c.arg 1
      if 1 < c.arg 0 ∨ scope = 0 ∨ 31 < scope then s.finish c.mb stBadArgument
      else if c.arg 0 = 0 then
        let (ch, s) := s.draw 128
        ({ s with sec := { s.sec with challenge := some (ch, s.now, BitVec.ofNat 8 scope) } }).finish c.mb stOk 0 ch.toNat
      else match s.bufIn c with
        | (s, none) => s.finish c.mb stBufferFault
        | (s, some b) =>
          let good : Bool := match s.sec.challenge with
            | none => false
            | some (ch, ft, sc) =>
              let (h, ok) := signedBy b (s.debugMsg ch scope)
              decide (192 ≤ b.length) && decide (s.now ≤ ft + 60 * ftSec) && sc == BitVec.ofNat 8 scope && h == s.fuses.debugHash && ok
          let s := { s with sec := { s.sec with challenge := none } }
          if good then (s.debugOpen scope).finish c.mb stOk else (s.alarm 5 0 0).finish c.mb stDebugChallenge }
/-- `DEBUG_UNLOCK`. -/
def execDebugUnlock (t mb : Nat) (buf : Option (List Byte)) (s : State) : Out := cmdDebugUnlock.run t mb { buf } s

/-- `DEBUG_LOCK` (R545): every scope closes; the TAP goes back to bypass. -/
def cmdDebugLock : CmdDef :=
  { op := 0x0C06, role := .admin
    body := fun s c => ({ s with sec := { s.sec with debug := 0, tap := 0 } }).finish c.mb stOk }
/-- `DEBUG_LOCK`. -/
def execDebugLock (t mb : Nat) (buf : Option (List Byte)) (s : State) : Out := cmdDebugLock.run t mb { buf } s

/-! ## Keys (R535 to R537) -/

/-- The key-store index of a slot, if it exists (R535): link keys are 4 × port + 2 × direction + slot. -/
def keyIndex (kind slot : Nat) : Option Nat :=
  let n := if kind = 1 then 96 else if kind = 2 then 256 else if kind = 3 then 64 else if kind = 4 then 8 else 0
  if slot < n then some (1024 * kind + slot) else none

/-- The slot that `KEY_INSTALL` names (R536). -/
def installSlot (kind slot port dir : Nat) : Option Nat :=
  if kind = 1 then (if slot < 2 ∧ port < 24 ∧ dir < 2 then some (4 * port + 2 * dir + slot) else none) else some slot

/-- The key that a plain text holds (R535): the key and what the kind adds to it. -/
def keyOf (kind : Nat) (b : List Byte) : Option Key :=
  let k : Key := { valid := true, key := BitVec.ofNat 256 (num b 0 32) }
  if kind = 1 ∧ b.length = 36 then some { k with salt := BitVec.ofNat 32 (num b 32 4) }
  else if kind = 2 ∧ b.length = 34 then some { k with srcDev := num b 32 2 }
  else if kind = 3 ∧ b.length = 38 then
    some { k with destDev := num b 32 2, destIdx := num b 34 2, destPage := num b 36 1 == 1, win := num b 37 1 }
  else if kind = 4 ∧ b.length = 48 then some { valid := true, hash := BitVec.ofNat 384 (ofBe b) }
  else none

/-- Whether a link-key slot is the one whose `KEY_SEL` is in force (R349, R536). -/
def State.linkInForce (s : State) (kind slot port dir : Nat) : Bool :=
  let x := s.port port
  kind == 1 && x.enc && (if dir = 0 then x.keySelTx else x.keySelRx) == (slot == 1)

/-- A transmit link key put in force (R537): `KEY_NEXT` names the slot counter 2^20 ahead. -/
def State.keyActivate (s : State) (slot port : Nat) : State :=
  let x := s.port port
  let n := x.slotNow s.now + 2 ^ 20
  if x.keySelTx == (slot == 1) then s
  else (s.modPort port fun x => { x with keyNextTx := some n }).sendCtl port (.keyNext n)

/-- `KEY_INSTALL` (R536, R537). -/
def cmdKeyInstall : CmdDef :=
  { op := 0x0C04, role := .admin, widths := [8, 8, 16, 8, 8]
    body := fun s c =>
      let kind := c.arg 0
      let slot := c.arg 2
      let port := c.arg 3
      let dir := c.arg 4
      match (s.mbx c.mb).session with
      | none => s.finish c.mb stNoSession
      | some sk => match (installSlot kind slot port dir).bind (keyIndex kind) with
        | none => s.finish c.mb stBadArgument
        | some idx =>
          if 1 < c.arg 1 then s.finish c.mb stBadArgument
          else if s.linkInForce kind slot port dir then s.finish c.mb stNotPermitted
          else match s.bufIn c with
            | (s, none) => s.finish c.mb stBufferFault
            | (s, some b) => match Config.gcmOpen sk (BitVec.ofNat 96 (num b 0 12)) [] (b.drop 12) with
              | none => s.finish c.mb stKeyAuth
              | some pt => match keyOf kind pt with
                | none => s.finish c.mb stBadArgument
                | some k =>
                  let s := { s with sec := { s.sec with keys := Tbl.set {} idx k s.sec.keys } }
                  (if kind = 1 ∧ dir = 0 ∧ c.arg 1 = 1 then s.keyActivate slot port else s).finish c.mb stOk }
/-- `KEY_INSTALL`. -/
def execKeyInstall (t mb : Nat) (buf : Option (List Byte)) (s : State) : Out := cmdKeyInstall.run t mb { buf } s

/-- `KEY_ERASE` (R536). -/
def cmdKeyErase : CmdDef :=
  { op := 0x0C05, role := .admin, widths := [8, 16]
    body := fun s c => match keyIndex (c.arg 0) (c.arg 1) with
      | none => s.finish c.mb stBadArgument
      | some idx => ({ s with sec := { s.sec with keys := Tbl.set {} idx ({} : Key) s.sec.keys } }).finish c.mb stOk }
/-- `KEY_ERASE`. -/
def execKeyErase (t mb : Nat) (buf : Option (List Byte)) (s : State) : Out := cmdKeyErase.run t mb { buf } s

/-! ## Management sessions (R546, R547) -/

/-- `MGMT_CHALLENGE` (R547). -/
def cmdMgmtChallenge : CmdDef :=
  { op := 0x0C07, role := .session
    body := fun s c =>
      if c.mb < 16 then s.finish c.mb stNotPermitted
      else
        let (ch, s) := s.draw 128
        (s.modMb c.mb fun m => { m with challenge := some (ch, s.now) }).finish c.mb stOk 0 ch.toNat }
/-- `MGMT_CHALLENGE`. -/
def execMgmtChallenge (t mb : Nat) (buf : Option (List Byte)) (s : State) : Out := cmdMgmtChallenge.run t mb { buf } s

/-- `MGMT_AUTH` (R547): the answer to the mailbox's challenge makes it admin. -/
def cmdMgmtAuth : CmdDef :=
  { op := 0x0C08, role := .session, widths := [8]
    body := fun s c =>
      if c.mb < 16 then s.finish c.mb stNotPermitted
      else if 3 < c.arg 0 then s.finish c.mb stBadArgument
      else match s.bufIn c with
        | (s, none) => s.finish c.mb stBufferFault
        | (s, some b) =>
          let k : OpKey := Tbl.get {} s.fuses.opKeys (c.arg 0)
          let good : Bool := match (s.mbx c.mb).challenge with
            | none => false
            | some (ch, ft) =>
              let (h, ok) := signedBy b (leBytes 16 ch.toNat ++ leBytes 2 s.hub.devId ++ leBytes 1 c.mb)
              decide (192 ≤ b.length) && decide (s.now ≤ ft + 10 * ftSec) && k.programmed && !k.revoked && h == k.hash && ok
          let s := s.modMb c.mb fun m => { m with challenge := none }
          if good then (s.modMb c.mb fun m => { m with role := 1 }).finish c.mb stOk else s.finish c.mb stKeyAuth }
/-- `MGMT_AUTH`. -/
def execMgmtAuth (t mb : Nat) (buf : Option (List Byte)) (s : State) : Out := cmdMgmtAuth.run t mb { buf } s

/-- `OPERATOR_KEY_FUSE` (R546): programs a slot with the hash in its buffer, or its revoke fuse; on mailbox 0 only. Its arguments are the
model's: slot, then 0 to program or 1 to revoke. -/
def cmdOperatorKeyFuse : CmdDef :=
  { op := 0x0C09, role := .admin, widths := [8, 8]
    body := fun s c =>
      let i := c.arg 0
      let k : OpKey := Tbl.get {} s.fuses.opKeys i
      let burn (s : State) (k : OpKey) : State :=
        ({ s with fuses := { s.fuses with opKeys := Tbl.set {} i k s.fuses.opKeys } }).finish c.mb stOk
      if c.mb ≠ 0 then s.finish c.mb stNotPermitted
      else if 3 < i ∨ 1 < c.arg 1 then s.finish c.mb stBadArgument
      else if c.arg 1 = 1 then burn s { k with revoked := true }
      else if k.programmed then s.finish c.mb stNotPermitted
      else match s.bufIn c with
        | (s, none) => s.finish c.mb stBufferFault
        | (s, some b) =>
          if b.length < 48 then s.finish c.mb stBufferFault
          else burn s { k with programmed := true, hash := BitVec.ofNat 384 (ofBe (b.take 48)) } }
/-- `OPERATOR_KEY_FUSE`. -/
def execOperatorKeyFuse (t mb : Nat) (buf : Option (List Byte)) (s : State) : Out := cmdOperatorKeyFuse.run t mb { buf } s

end Sys2Proof.Machine
end

