-- ==== Sys2Proof/Machine/OrdoParse.lean ====
section
/-! DEFINITION. The Ordo container and its sections: what an image says, and the layout checks of each section (04 R132, R133, R147 to R155,
R573 to R576; 06 R202, R215; 07 R240; 08 R254 to R260; 09 R277, R278, R291). -/

namespace Sys2Proof.Machine

/-- A failed load: the status and the load locator (R155, R451). -/
abbrev LoadErr := Nat × Nat

/-- A failure of check 7 with locator fields (byte offset, width, value). -/
def bad7 (fs : List (Nat × Nat × Nat)) : Option LoadErr := some (stConfigInvalid, locator 7 fs)

/-- A section that breaks its layout (R155 check 7). -/
def badSection (typ : Nat) : Option LoadErr := bad7 [(0xC, 16, typ)]

/-- Whether all bytes of a range are zero. -/
def zeroes (b : List Byte) (a n : Nat) : Bool := (slice b a n).all (· == 0)

/-! ## The container (R147 to R151) -/

/-- A section table entry (R150) with the section's bytes. -/
structure Sect where
  typ : Nat := 0
  flags : Nat := 0
  off : Nat := 0
  len : Nat := 0
  digest : Nat := 0
  bytes : List Byte := []
  deriving DecidableEq, Repr

/-- The section table (R150). Check 1 of R155 names the reserved bytes of the header only: a reserved field of a table entry is ignored, as R8 has it
(DEDUCED, log 148). -/
def sectTable (b : List Byte) : List Sect :=
  (List.range (num b 0xE 2)).map fun i =>
    let o := num b 0x10 8 + 80 * i
    let off := num b (o + 8) 8
    let len := num b (o + 0x10) 8
    { typ := num b o 2, flags := num b (o + 2) 2, off, len, digest := ofLe (slice b (o + 0x18) 48).reverse,
      bytes := (b.drop off).take len }

/-- Section types of R151. -/
def knownSects : List Nat := (List.range 14).map (· + 1) ++ [0x00FF]

/-- The bytes of the section of a type, empty when there is none. -/
def sectOf (ss : List Sect) (t : Nat) : List Byte := ((ss.find? (·.typ == t)).map (·.bytes)).getD []

/-- Check 1 of R155. -/
def loadCheck1 (b : List Byte) (bufLen : Nat) : Option LoadErr :=
  let fail (fs : List (Nat × Nat × Nat)) : Option LoadErr := some (stBadFormat, locator 1 fs)
  let n := num b 0xE 2
  let tbl := num b 0x10 8
  let size := num b 0x18 8
  if b.length < 256 ∨ num b 0 4 ≠ 0x4F44524F ∨ num b 4 2 ≠ 2 ∨ num b 0xC 2 ≠ 0x100 ∨ size ≠ bufLen ∨ n = 0 ∨ 64 < n ∨ size < tbl + 80 * n then fail []
  else if 3 < num b 8 4 ∨ num b 0x28 2 = 0 ∨ num b 0x2A 1 = 0 ∨ 3 < num b 0x2A 1 ∨ 63 < num b 0x2B 1 ∨ ¬ zeroes b 0x38 8 ∨ ¬ zeroes b 0x70 144 then fail []
  else
    let ss := sectTable b
    match ss.find? fun x => decide (size < x.off + x.len) || (!knownSects.contains x.typ && bitOn x.flags 0) ||
        (x.typ != 0x000E && decide (2 ≤ (ss.filter (·.typ == x.typ)).length)) with
    | some x => fail [(0xC, 16, x.typ)]
    | none =>
      let signed : Bool := ss.any (·.typ == 0x00FF)
      let last : Bool := match ss.find? (·.typ == 0x00FF) with
        | some x => x.off + x.len == size && ss.all fun y => y.typ == 0x00FF || decide (y.off + y.len ≤ x.off)
        | none => true
      if signed != bitOn (num b 8 4) 1 || !last then fail [(0xC, 16, 0x00FF)] else none

/-- The bytes that the Ordo digest covers (R148). -/
def digestBytes (b : List Byte) (ss : List Sect) : List Byte :=
  let stop := match ss.find? (·.typ == 0x00FF) with
    | some x => x.off
    | none => num b 0x18 8
  (b.take 0x40 ++ List.replicate 48 0 ++ b.drop 0x70).take stop

/-- Check 2 of R155: the Ordo digest, then each section digest. -/
def loadCheck2 (b : List Byte) (ss : List Sect) : Option LoadErr :=
  if (Config.sha384 (digestBytes b ss)).toNat ≠ ofLe (slice b 0x40 48).reverse then some (stDigestMismatch, locator 2 [])
  else match ss.find? fun x => (Config.sha384 x.bytes).toNat != x.digest with
    | some x => some (stDigestMismatch, locator 2 [(0xC, 16, x.typ)])
    | none => none

/-- Check 3 of R155 (R149): the signature under an installed signing key; an unsigned image where signing is required. -/
def State.loadCheck3 (s : State) (b : List Byte) (ss : List Sect) : Option LoadErr :=
  let fail : Option LoadErr := some (stSignature, locator 3 [(0xC, 16, 0x00FF)])
  match ss.find? (·.typ == 0x00FF) with
  | none => if s.hub.config.signedReq then fail else none
  | some x =>
    let h : BitVec 384 := BitVec.ofNat 384 (ofLe (slice x.bytes 0 48).reverse)
    let known : Bool := (List.range 8).any fun i => let k : Key := Tbl.get {} s.sec.keys (4096 + i)
      k.valid && k.hash == h
    if x.len = 144 ∧ known ∧ Config.ecdsaOk (Config.keyOfHash h) (Config.sha384 (digestBytes b ss)) (BitVec.ofNat 384 (ofLe (slice x.bytes 48 48).reverse))
        (BitVec.ofNat 384 (ofLe (slice x.bytes 96 48).reverse)) then none else fail

/-- Checks 4 to 6 of R155. -/
def loadCheck456 (b : List Byte) (regions : BitVec 64) : Option LoadErr :=
  if num b 6 2 ≠ 1 then some (stAsv, locator 4 [])
  else if num b 0x20 8 ≠ regions.toNat then some (stPartMismatch, locator 5 [])
  else if num b 0x30 4 < (num b 0x2A 1 - 1) * num b 0x2C 4 then some (stLogReserve, locator 6 [])
  else none

/-! ## Phases and configuration blocks (R152 to R154, R256) -/

/-- The phase table (R152). -/
def phaseTable (b : List Byte) : List PhaseEnt :=
  (List.range (b.length / 32)).map fun i =>
    let o := 32 * i
    { pflags := num b (o + 2) 2, idesUs := num b (o + 4) 4, configOff := num b (o + 8) 8, configBlocks := num b (o + 0x10) 4,
      routeFirst := num b (o + 0x14) 4, routeCount := num b (o + 0x18) 4 }

/-- The first phase whose table entry breaks R152 or R249; its reserved fields are ignored (R8; DEDUCED, log 148). -/
def phaseBad (b : List Byte) (n : Nat) : Option LoadErr :=
  if b.length ≠ 32 * n then badSection 1
  else match (List.range n).find? fun i =>
      let o := 32 * i
      let ides := num b (o + 4) 4
      num b o 2 != i || num b (o + 2) 2 % 4 != b1 (i == 0) + 2 * b1 (i + 1 == n) ||
        (ides != 0 && !(decide (1000 ≤ ides ∧ ides ≤ 3600000000))) with
    | some i => bad7 [(2, 16, i), (0xC, 16, 1)]
    | none => none

/-- The records of a configuration block from a place in CONFIG, and the place after them (R153). -/
def cfgRecs (c : List Byte) : Nat → Nat → Option (List CfgRec × Nat)
  | 0, pos => some ([], pos)
  | n + 1, pos =>
    let w := num c (pos + 2) 1
    if c.length < pos + 4 + 4 * w then none
    else match cfgRecs c n (pos + 4 + 4 * w) with
      | none => none
      | some (rs, e) =>
        some ({ unit := num c pos 2, op := num c (pos + 3) 1, words := w, word := BitVec.ofNat 512 (num c (pos + 4) (4 * w)) } :: rs, e)

/-- Blocks from a place in CONFIG (R153); the reserved bits of a block's header are ignored (R8). -/
def cfgBlocks (c : List Byte) : Nat → Nat → Option (List CfgBlock)
  | 0, _ => some []
  | n + 1, pos =>
    if c.length < pos + 8 then none
    else match cfgRecs c (num c (pos + 4) 2) (pos + 8) with
      | none => none
      | some (rs, e) => match cfgBlocks c n e with
        | none => none
        | some bs => some ({ tile := num c pos 2, phase := num c (pos + 2) 2, recs := rs } :: bs)

/-- The 32-bit words of a unit's configuration word (R154). -/
def unitWords (u : Nat) : Nat :=
  if u < 0x010 then 2 else if u < 0x020 then 4 else if u < 0x030 then 16 else if u < 0x040 then 6 else if u < 0x060 then 2 else 8

/-- The units that a block may name (R154). -/
def cfgUnits : List Nat := allUnits.filter (· < 0x0C0)

/-- Whether a tile lies in the blocks of a region mask. -/
def tileIn (mask tile : Nat) : Bool := decide (tile < 8192) && bitOn mask (tileBlock tile)

/-- A block that breaks R153 or R154. -/
def blockBad (mask ph : Nat) (b : CfgBlock) : Option LoadErr :=
  if b.phase ≠ ph ∨ ¬ tileIn mask b.tile then bad7 [(2, 16, ph), (4, 16, b.tile), (0xC, 16, 2)]
  else match b.recs.find? fun r => !cfgUnits.contains r.unit || decide (2 < r.op) || r.words != (if r.op = 0 then unitWords r.unit else 0) with
    | some r => bad7 [(2, 16, ph), (4, 16, b.tile), (6, 16, r.unit)]
    | none => none

/-- The blocks of every phase, or the first breach. -/
def readBlocks (cfg : List Byte) (mask : Nat) (phs : List PhaseEnt) : Except LoadErr (List CfgBlock) :=
  phs.zipIdx.foldl (fun (acc : Except LoadErr (List CfgBlock)) x => match acc with
    | .error e => .error e
    | .ok bs => match cfgBlocks cfg x.1.configBlocks x.1.configOff with
      | none => .error (stConfigInvalid, locator 7 [(2, 16, x.2), (0xC, 16, 2)])
      | some new => match new.findSome? (blockBad mask x.2) with
        | some e => .error e
        | none => .ok (bs ++ new)) (.ok [])

/-- One block per tile and phase, with the last record of each unit (R153): of several blocks of a tile in a phase, and of several records of a unit, the
spec says nothing (DESIGN CHOICE, log 95). -/
def mergeBlocks (bs : List CfgBlock) : List CfgBlock :=
  bs.foldl (fun (out : List CfgBlock) b =>
    let put (old : List CfgRec) := b.recs.foldl (fun (l : List CfgRec) r => l.filter (fun q => q.unit != r.unit) ++ [r]) old
    if out.any fun o => o.tile == b.tile && o.phase == b.phase then
      out.map fun o => if o.tile = b.tile ∧ o.phase = b.phase then { o with recs := put o.recs } else o
    else out ++ [{ b with recs := put [] }]) []

/-- The configuration of a tile after a phase's block (R153): `active` of each unit holds the phase's word. -/
def Site.applyBlock (x : Site) (b : Option CfgBlock) : Site :=
  cfgUnits.foldl (fun (x : Site) u => let y := x.unit u
    x.setUnit u { y with active := shadowWord b u y.active }) x

/-- Units that a recompute entry copies (R255). -/
def maskUnits (m : BitVec 32) : List Nat :=
  ([0x000] ++ (List.range 6).map (0x010 + ·) ++ (List.range 4).map (0x020 + ·) ++ (List.range 8).map (0x030 + ·) ++
    (List.range 8).map (0x040 + ·) ++ (List.range 3).map (0x050 + ·) : List Nat).zipIdx.filterMap fun (x : Nat × Nat) => if bitAt m x.2 then some x.1 else none

/-- Whether a tile lies in the rectangle of a recompute entry (R255, R256). -/
def RecompEnt.covers (e : RecompEnt) (tile : Nat) : Bool :=
  let x := tile % 128
  let y := tile / 128
  decide (e.x0 ≤ x ∧ x ≤ e.x1 ∧ e.y0 ≤ y ∧ y ≤ e.y1)

/-- The configurations of a tile by phase, with the blocks that give them: recompute entries copy the words of their forward phase
(R256). -/
def tileImages (blocks : List CfgBlock) (rec' : List RecompEnt) (phases tile : Nat) : List Site × List CfgBlock :=
  (List.range phases).foldl (fun (acc : List Site × List CfgBlock) ph =>
    let own : List CfgRec := ((blocks.find? fun b => b.tile == tile && b.phase == ph).map (·.recs)).getD []
    let copied : List CfgRec := (rec'.filter fun e => e.rphase == ph && e.covers tile).flatMap fun e =>
      (maskUnits e.unitMask).map fun u => { unit := u, op := 0, words := unitWords u, word := ((acc.1.getD e.fphase {}).unit u).active }
    let b : CfgBlock := { tile, phase := ph, recs := own ++ copied }
    let x := (acc.1.getLast?.getD {}).applyBlock (some b)
    (acc.1 ++ [x], if b.recs = [] then acc.2 else acc.2 ++ [b])) ([], [])

/-! ## Routes and paths (R132, R133) -/

/-- The place of a path walk. -/
structure Walk where
  x : Nat := 0
  y : Nat := 0
  hops : Nat := 0
  cross : Nat := 0
  stack : List (Nat × Nat × Nat × Nat) := []
  used : List (Nat × Nat) := []
  dests : List (Nat × Nat) := []
  far : List (Nat × Nat) := []
  deriving DecidableEq, Repr

/-- The neighbour in a direction 0 to 3 inside the grid (R57, R133). -/
def gridStep (x y d : Nat) : Option (Nat × Nat) :=
  if d = 0 then (if y = 0 then none else some (x, y - 1))
  else if d = 1 then (if 127 ≤ x then none else some (x + 1, y))
  else if d = 2 then (if 63 ≤ y then none else some (x, y + 1))
  else if x = 0 then none else some (x - 1, y)

/-- Walk the codes of a path (R133); none when the path is invalid. -/
def walkPath (mask : Nat) : List Nat → Walk → Option Walk
  | [], _ => none
  | c :: cs, w =>
    if c < 4 then
      match gridStep w.x w.y c with
      | none => none
      | some (x, y) =>
        let hop := (w.x + 128 * w.y, c)
        if tileIn mask (x + 128 * y) ∧ hop ∉ w.used then
          walkPath mask cs { w with x, y, hops := w.hops + 1, used := w.used ++ [hop],
                                    cross := w.cross + b1 (x / 32 != w.x / 32 || y / 32 != w.y / 32) }
        else none
    else if c = 4 then
      if w.stack.length < 8 then walkPath mask cs { w with stack := (w.x, w.y, w.hops, w.cross) :: w.stack } else none
    else if c = 5 then
      match w.stack with
      | [] => none
      | (x, y, h, k) :: rest => walkPath mask cs { w with x, y, hops := h, cross := k, stack := rest }
    else if c = 6 then
      match cs with
      | [] => none
      | p :: cs' =>
        if p < 8 then walkPath mask cs' { w with dests := w.dests ++ [(w.x + 128 * w.y, p)], far := w.far ++ [(w.hops, w.cross)] } else none
    else if c = 0xF ∧ cs = [] ∧ w.stack = [] then some w
    else none

/-- A route descriptor with its path (R132, R133); none when it is invalid. -/
def readRoute (rs ps : List Byte) (mask ph i : Nat) : Option Route :=
  let o := 16 * i
  let src := num rs (o + 4) 2
  let off := num rs (o + 0xC) 4
  let n := num rs (o + 0xA) 2
  let codes := (List.range n).map fun k => bitsN (num ps (off + k / 2) 1) (4 * (k % 2)) 4
  if rs.length < o + 16 ∨ num rs (o + 2) 2 ≠ ph ∨ 2 < num rs (o + 6) 1 ∨ 3 < num rs (o + 7) 1 ∨ num rs (o + 8) 1 = 0 ∨ ps.length < off + (n + 1) / 2 ∨
      ¬ tileIn mask src ∨ num rs (o + 9) 1 = 0 ∨ 16 < num rs (o + 9) 1 then none
  else match walkPath mask codes { x := src % 128, y := src / 128 } with
    | none => none
    | some w =>
      if w.dests.length ≠ num rs (o + 9) 1 then none
      else some { id := num rs o 2, phase := ph, src, plane := num rs (o + 6) 1, port := num rs (o + 7) 1, credits := num rs (o + 8) 1,
                  dests := w.dests, hops := w.used, far := w.far }

/-- The routes of every phase, or the first invalid one (R133). -/
def readRoutes (rs ps : List Byte) (mask : Nat) (phs : List PhaseEnt) : Except LoadErr (List Route) :=
  phs.zipIdx.foldl (fun (acc : Except LoadErr (List Route)) x =>
    (List.range x.1.routeCount).foldl (fun (acc : Except LoadErr (List Route)) i => match acc with
      | .error e => .error e
      | .ok out =>
        let at' := x.1.routeFirst + i
        let id := num rs (16 * at') 2
        match readRoute rs ps mask x.2 at' with
        | none => .error (stConfigInvalid, locator 7 [(2, 16, x.2), (8, 16, id), (0xC, 16, 3)])
        | some r =>
          if out.any fun q => q.phase == r.phase && q.id == r.id then .error (stConfigInvalid, locator 7 [(2, 16, x.2), (8, 16, id), (0xC, 16, 3)])
          else .ok (out ++ [r])) acc) (.ok [])

/-! ## The other sections -/

/-- Whether a list rises strictly. -/
def rising : List Nat → Bool
  | a :: b :: rest => decide (a < b) && rising (b :: rest)
  | _ => true

/-- 16-bit numbers at an offset. -/
def nums16 (b : List Byte) (off n : Nat) : List Nat := (List.range n).map fun i => num b (off + 2 * i) 2

/-- The slice maps of TALLY (R573). -/
def tallyMaps (b : List Byte) : List SliceMap :=
  (List.range (num b 4 4)).map fun i =>
    let o := 16 + 8 * (num b 0 4 + i)
    { tile := num b o 2, sgran := num b (o + 2) 1, pgran := num b (o + 3) 1, page := num b (o + 4) 4 }

/-- The page classes of TALLY (R573). -/
def tallyClasses (b : List Byte) : List Nat := (List.range (num b 0 4)).map fun i => num b (16 + 8 * i) 1

/-- Whether TALLY breaks R573. -/
def tallyBad (b : List Byte) (pages mask : Nat) : Bool :=
  let n := num b 0 4
  let cs := tallyClasses b
  let ms := tallyMaps b
  b.length != 16 + 8 * (n + num b 4 4) || n != pages || !zeroes b 8 8 ||
    (List.range n).any (fun i => !zeroes b (16 + 8 * i + 1) 7) || cs.any (6 < ·) ||
    [(2, 2), (3, 2), (4, 1), (5, 17)].any (fun x => cs.count x.1 != x.2) ||
    ms.any (fun m => !tileIn mask m.tile || !(decide (m.sgran ≤ 185 ∨ (190 ≤ m.sgran ∧ m.sgran ≤ 191))) || decide (63 < m.pgran) ||
      decide (n ≤ m.page) || !(decide (cs.getD m.page 7 ∈ [0, 1, 6]))) ||
    !(decide (ms.map fun m => (m.tile, m.sgran)).Nodup) || !(decide (ms.map fun m => (m.page, m.pgran)).Nodup)

/-- Replica sets, one after another from an offset (R574): the device lists and whether each keeps its rules. -/
def replicaSets (b : List Byte) : Nat → Nat → List (List Nat) × Bool
  | 0, _ => ([], true)
  | n + 1, off =>
    let c := num b off 2
    let ds := nums16 b (off + 2) c
    let (rest, ok) := replicaSets b n (off + 2 + 2 * c)
    (ds :: rest, ok && decide (2 ≤ c) && rising ds && decide (off + 2 + 2 * c ≤ b.length))

/-- A group entry (R574). -/
def groupAt (b : List Byte) (o : Nat) : GroupDef :=
  { group := num b o 1, deadlineUs := if num b (o + 1) 1 = 0 then 20 else num b (o + 1) 1, herald := num b (o + 4) 2,
    members := nums16 b (num b (o + 0xC) 4) (num b (o + 8) 4), replicaSets := (replicaSets b (num b (o + 6) 2) (num b (o + 0x10) 4)).1 }

/-- The groups (R574). -/
def groupList (b : List Byte) : List GroupDef := (List.range (num b 0 1)).map fun i => groupAt b (num b 4 4 + 32 * i)

/-- A barrier descriptor (R240). -/
def barrierAt (b : List Byte) (o : Nat) : BarDef :=
  { id := num b o 1, scope := num b (o + 1) 1, group := num b (o + 2) 1, members := nums16 b (num b (o + 8) 4) (num b (o + 4) 2),
    root := num b (o + 6) 2 }

/-- The barriers (R240). -/
def barrierList (b : List Byte) : List BarDef := (List.range (num b 1 1)).map fun i => barrierAt b (num b 8 4 + 16 * i)

/-- Whether a group entry breaks R44, R45 or R574. -/
def groupBad (b : List Byte) (o : Nat) : Bool :=
  let g := groupAt b o
  let dl := num b (o + 1) 1
  let m := num b (o + 8) 4
  decide (b.length < o + 32) || decide (63 < g.group) || (dl != 0 && !(decide (5 ≤ dl ∧ dl ≤ 50))) || !zeroes b (o + 2) 2 || !zeroes b (o + 0x14) 12 ||
    decide (m = 0 ∨ 65536 < m) || decide (b.length < num b (o + 0xC) 4 + 2 * m) || !rising g.members || !g.members.contains g.herald ||
    !(replicaSets b (num b (o + 6) 2) (num b (o + 0x10) 4)).2 || !g.replicaSets.flatten.all g.members.contains || !decide g.replicaSets.flatten.Nodup

/-- Whether a barrier descriptor breaks R240. -/
def barrierBad (b : List Byte) (mask o : Nat) : Bool :=
  let d := barrierAt b o
  let m := num b (o + 4) 2
  decide (b.length < o + 16) || decide (63 < d.id) || decide (1 < d.scope) || (d.scope == 0 && d.group != 0) ||
    (d.scope == 1 && !(groupList b).any (·.group == d.group)) || !zeroes b (o + 3) 1 || !zeroes b (o + 0xC) 4 || decide (m = 0 ∨ 8192 < m) ||
    decide (b.length < num b (o + 8) 4 + 2 * m) || !rising d.members || !d.members.all (tileIn mask) || !d.members.contains d.root

/-- Whether GROUPS breaks R44, R240 or R574. -/
def groupsBad (b : List Byte) (root mask : Nat) : Bool :=
  let gs := groupList b
  decide (num b 0 1 = 0 ∨ 64 < num b 0 1) || decide (64 < num b 1 1) || !zeroes b 2 2 || !zeroes b 0xC 4 ||
    (List.range (num b 0 1)).any (fun i => groupBad b (num b 4 4 + 32 * i)) || !decide (gs.map (·.group)).Nodup || !gs.any (·.group == root) ||
    (List.range (num b 1 1)).any (fun i => barrierBad b mask (num b 8 4 + 16 * i)) || !decide ((barrierList b).map (·.id)).Nodup

/-- The stream keys of RANDOM (R575). -/
def keyList (b : List Byte) : List (Nat × BitVec 32) :=
  (List.range (num b 0xC 4)).map fun i => (num b (16 + 8 * i) 2, BitVec.ofNat 32 (num b (20 + 8 * i) 4))

/-- Whether RANDOM breaks R96 or R575. -/
def randomBad (b : List Byte) : Bool :=
  let ks := keyList b
  b.length != 16 + 8 * num b 0xC 4 || !zeroes b 0xA 2 || (List.range (num b 0xC 4)).any (fun i => !zeroes b (18 + 8 * i) 2) ||
    !rising (ks.map (·.1)) || !ks.any (·.1 == 0xFFFF)

/-- The items of a DATA section (R576). -/
def dataItems (b : List Byte) : List DataItem :=
  (List.range (num b 0 4)).map fun i =>
    let o := 16 + 32 * i
    { slice := num b o 1 == 2, tile := num b (o + 2) 2, page := num b (o + 4) 4, off := num b (o + 8) 4,
      bytes := slice b (num b (o + 0x10) 8) (num b (o + 0xC) 4) }

/-- Whether a DATA section breaks R576. -/
def dataBad (b : List Byte) (mask : Nat) (classes : List Nat) (maps : List SliceMap) : Bool :=
  decide (b.length < 16 + 32 * num b 0 4) || !zeroes b 4 12 || (List.range (num b 0 4)).any fun i =>
    let o := 16 + 32 * i
    let k := num b o 1
    let tile := num b (o + 2) 2
    let page := num b (o + 4) 4
    let off := num b (o + 8) 4
    let len := num b (o + 0xC) 4
    !zeroes b (o + 1) 1 || !zeroes b (o + 0x18) 8 || decide (b.length < num b (o + 0x10) 8 + len) ||
      (if k = 1 then tile != 0 || !(decide (page < classes.length ∧ classes.getD page 7 ∈ [0, 1, 6])) || decide (pageBytes < off + len)
       else if k = 2 then page != 0 || !tileIn mask tile || decide (0xBA000 < off + len) ||
        maps.any fun m => m.tile == tile && decide (m.sgran * 4096 < off + len ∧ off < (m.sgran + 1) * 4096)
       else true)

/-- The HANDLERS records from an offset on, each followed by its phase entries (R202). The section gives no count of them: they stand one
behind the other from its start up to the first byte of an image, `lim` (DEDUCED, log 103). -/
def handlerRecs (b : List Byte) : Nat → Nat → Nat → List (HandlerRec × Nat)
  | 0, _, _ => []
  | fuel + 1, lim, o =>
    if lim < o + 32 then []
    else
      let n := num b (o + 2) 2
      let eo := num b (o + 0x14) 4
      let r : HandlerRec :=
        { tile := num b o 2, imem := slice b (num b (o + 8) 4) (num b (o + 4) 2), dmem := slice b (num b (o + 0xC) 4) (num b (o + 6) 2),
          compat := num b (o + 0x10) 1 == 1,
          entries := (List.range n).map fun i => (num b (eo + 8 * i) 2, num b (eo + 8 * i + 2) 2, num b (eo + 8 * i + 4) 4) }
      let far (len off : Nat) : Nat := if len = 0 then lim else off
      let lim := min lim (min (far (num b (o + 4) 2) (num b (o + 8) 4)) (far (num b (o + 6) 2) (num b (o + 0xC) 4)))
      (r, o) :: handlerRecs b fuel lim (o + 32 + 8 * n)

/-- Whether HANDLERS breaks R202. -/
def handlersBad (b : List Byte) (mask phases : Nat) : Bool :=
  let rs := handlerRecs b 8192 b.length 0
  !decide (rs.map (·.1.tile)).Nodup || rs.any fun x =>
    let o := x.2
    let n := num b (o + 2) 2
    !tileIn mask x.1.tile || decide (16384 < num b (o + 4) 2) || decide (8192 < num b (o + 6) 2) || decide (b.length < num b (o + 8) 4 + num b (o + 4) 2) ||
      decide (b.length < num b (o + 0xC) 4 + num b (o + 6) 2) || decide (1 < num b (o + 0x10) 1) || !zeroes b (o + 0x11) 3 || !zeroes b (o + 0x18) 8 ||
      num b (o + 0x14) 4 != o + 32 || decide (b.length < num b (o + 0x14) 4 + 8 * n) || x.1.entries.any (fun e => decide (phases ≤ e.1)) || !decide (x.1.entries.map (·.1)).Nodup

/-- The CHANNELS records (R215). -/
def channelRecs (b : List Byte) : List ChanRec :=
  (List.range (b.length / 16)).map fun i =>
    let o := 16 * i
    { tile := num b o 2, spillLog2 := if num b (o + 2) 1 = 0 then 20 else num b (o + 2) 1, stageBase := num b (o + 4) 4,
      stageLines := num b (o + 8) 2 }

/-- Whether CHANNELS breaks R215. -/
def channelsBad (b : List Byte) (mask : Nat) : Bool :=
  let rs := channelRecs b
  b.length % 16 != 0 || !decide (rs.map (·.tile)).Nodup || rs.zipIdx.any fun x =>
    let o := 16 * x.2
    let lg := num b (o + 2) 1
    !tileIn mask x.1.tile || (lg != 0 && !(decide (16 ≤ lg ∧ lg ≤ 24))) || !zeroes b (o + 3) 1 || !zeroes b (o + 0xA) 6 ||
      x.1.stageBase % 64 != 0 || decide (0xBA000 < x.1.stageBase + 64 * x.1.stageLines)

/-- The entry that 128 bits spell (R277). -/
def almOf (v : Nat) : AlmEntry :=
  { trigger := bitsN v 0 64, action := bitsN v 64 8, part := bitsN v 72 4, rep := bitOn v 76, dlScale := bitsN v 78 2, target := bitsN v 80 16,
    arg := bitsN v 96 16, deadline := bitsN v 112 16 }

/-- Whether an entry keeps the table of R278 for a partition's regions. -/
def almOk (e : AlmEntry) (mask : Nat) : Bool :=
  let reg := decide (e.target < 64) && bitOn mask e.target
  match e.action with
  | 1 | 4 => e.target == 0 && e.arg == 0
  | 2 => e.target == 0 && decide (1 ≤ e.arg)
  | 3 => (reg || e.target == 0xFF) && decide (e.arg < 16) && e.dlScale == 3
  | 5 => reg && e.arg == 0
  | 6 => e.target == 0
  | 7 => e.target == 0 && e.dlScale == 3
  | _ => false

/-- The templates of ALMANAC (R291). -/
def almTemplates (b : List Byte) : List AlmEntry := (List.range (num b 0 2)).map fun i => almOf (num b (16 + 16 * i) 16)

/-- Whether ALMANAC breaks R278, R280 or R291. -/
def almanacBad (b : List Byte) (mask : Nat) : Bool :=
  let c := num b 8 8
  decide (8192 < num b 0 2) || b.length != 16 + 16 * num b 0 2 || !zeroes b 2 6 || (c != 0 && !(decide (4000 ≤ c ∧ c ≤ 14400000000000))) ||
    (almTemplates b).any fun e => !almOk e mask

/-- The recompute entries (R255). -/
def recompList (b : List Byte) : List RecompEnt :=
  (List.range (num b 0 2)).map fun i =>
    let o := num b 8 4 + 16 * i
    { rphase := num b o 2, fphase := num b (o + 2) 2, unitMask := BitVec.ofNat 32 (num b (o + 4) 4), x0 := num b (o + 8) 1, y0 := num b (o + 9) 1,
      x1 := num b (o + 0xA) 1, y1 := num b (o + 0xB) 1 }

/-- The retain entries (R260). -/
def retainList (b : List Byte) : List RetainEnt :=
  (List.range (num b 2 2)).map fun i =>
    let o := num b 0xC 4 + 16 * i
    { tensor := num b o 1, plain := num b (o + 1) 1 == 1, producer := num b (o + 2) 2, lastUse := num b (o + 4) 2, pages := num b (o + 8) 4 }

/-- Whether RECOMPUTE breaks R254, R255, R258 or R260. -/
def recomputeBad (b : List Byte) (mask phases : Nat) (blocks : List CfgBlock) : Bool :=
  let es := recompList b
  decide (b.length < 64) || decide (b.length < num b 8 4 + 16 * num b 0 2) || decide (b.length < num b 0xC 4 + 16 * num b 2 2) ||
    !zeroes b 4 4 || !zeroes b 0x10 16 ||
    es.zipIdx.any (fun x =>
      let e := x.1
      let o := num b 8 4 + 16 * x.2
      !zeroes b (o + 0xC) 4 || bitsN (num b (o + 4) 4) 30 2 != 0 || !(decide (e.fphase < e.rphase ∧ e.rphase < phases)) ||
        !(decide (e.x0 ≤ e.x1 ∧ e.x1 ≤ 127 ∧ e.y0 ≤ e.y1 ∧ e.y1 ≤ 63)) ||
        (List.range 8192).any (fun t => e.covers t && !tileIn mask t) ||
        es.zipIdx.any (fun y => y.2 != x.2 && y.1.rphase == e.rphase &&
          decide (e.x0 ≤ y.1.x1 ∧ y.1.x0 ≤ e.x1 ∧ e.y0 ≤ y.1.y1 ∧ y.1.y0 ≤ e.y1)) ||
        blocks.any (fun k => k.phase == e.rphase && e.covers k.tile && k.recs.any fun r => (maskUnits e.unitMask).contains r.unit)) ||
    (List.range (num b 2 2)).any fun i =>
      let o := num b 0xC 4 + 16 * i
      let w := num b (o + 1) 1
      decide (1 < w) || !zeroes b (o + 6) 2 || !zeroes b (o + 0xC) 4 || (w == 0 && num b (o + 8) 4 != 0)

/-- The anchor seed: a list of entries of R121 by chunk ID (assumption 30). -/
def anchorSeed (b : List Byte) : Tbl (BitVec 64) :=
  (List.range (b.length / 8)).foldl (fun t i => Tbl.set 0 i (BitVec.ofNat 64 (num b (8 * i) 8)) t) []

/-- The Ordo that an image spells, its blocks and routes as read. -/
def ordoOf (b : List Byte) (ss : List Sect) (blocks : List CfgBlock) (routes : List Route) : Ordo :=
  let tl := sectOf ss 9
  let gr := sectOf ss 0xA
  let rn := sectOf ss 0xC
  let rc := sectOf ss 0xD
  let al := sectOf ss 7
  { digest := BitVec.ofNat 384 (num b 0x40 48), timingData := bitOn (num b 8 4) 0, asv := num b 6 2, regionMask := BitVec.ofNat 64 (num b 0x20 8),
    depth := num b 0x2A 1, rootGroup := num b 0x2B 1, logPages := num b 0x30 4, phases := phaseTable (sectOf ss 1), blocks, routes,
    groups := groupList gr, barriers := barrierList gr, classes := tallyClasses tl, sliceMaps := tallyMaps tl,
    handlers := (handlerRecs (sectOf ss 6) 8192 (sectOf ss 6).length 0).map (·.1), chanRecs := channelRecs (sectOf ss 5), almanac := almTemplates al,
    cadence := num al 8 8, anchors := anchorSeed (sectOf ss 0xB), seed := BitVec.ofNat 64 (num rn 0 8),
    epOffset := BitVec.ofNat 16 (num rn 8 2), keys := (keyList rn).foldl (fun t k => Tbl.set 0 k.1 k.2 t) [], recomputes := recompList rc,
    retains := retainList rc, discard := BitVec.ofNat 256 (num rc 0x20 32),
    data := (ss.filter (·.typ == 0xE)).flatMap fun x => dataItems x.bytes }

/-- The first section that breaks its layout (R155 check 7). -/
def sectionsBad (ss : List Sect) (b : List Byte) (blocks : List CfgBlock) : Option LoadErr :=
  let mask := num b 0x20 8
  let phs := num b 0x28 2
  let has (t : Nat) : Bool := ss.any (·.typ == t)
  let tl := sectOf ss 9
  if channelsBad (sectOf ss 5) mask then badSection 5
  else if handlersBad (sectOf ss 6) mask phs then badSection 6
  else if has 7 && almanacBad (sectOf ss 7) mask then badSection 7
  else if tallyBad tl (num b 0x2C 4) mask then badSection 9
  else if groupsBad (sectOf ss 0xA) (num b 0x2B 1) mask then badSection 0xA
  else if (sectOf ss 0xB).length % 8 ≠ 0 then badSection 0xB
  else if randomBad (sectOf ss 0xC) then badSection 0xC
  else if has 0xD && recomputeBad (sectOf ss 0xD) mask phs blocks then badSection 0xD
  else if (ss.filter (·.typ == 0xE)).any fun x => dataBad x.bytes mask (tallyClasses tl) (tallyMaps tl) then badSection 0xE
  else none

end Sys2Proof.Machine
end

