-- ==== Sys2Proof/Machine/Census.lean ====
section
/-! DEFINITION. The census objects of R456 and of the power, start-up and security chapters, as bytes (14 R452 to R456; 15 R493; 16 R528;
17 R549). Where the spec lists an object's fields without a layout, they stand one after another, each in whole bytes (assumption 33). -/

namespace Sys2Proof.Machine

/-- A 48-bit counter with its sticky overflow bit in bit 63 (R330, assumption 33). -/
def ctrBytes (c : Ctr48) : List Byte := leBytes 8 (c.v + 2 ^ 63 * b1 c.ovf)

/-- The 48-bit counters of a Lantern port: six bytes each, then their overflow bits, for the census mirror gives a port 128 bytes (R330, R457;
assumption 33). -/
def portCtrs (c : PortCtr) : List Byte :=
  let cs := [c.flitsTx, c.flitsRx, c.fecCorr, c.fecUncorr, c.crcFail, c.retries, c.authFail, c.timeDrop] ++ (List.range 9).map (Tbl.get {} c.symErr ·)
  (cs.flatMap fun x => leBytes 6 x.v) ++ leBytes 3 (cs.zipIdx.foldl (fun n x => n + 2 ^ x.2 * b1 x.1.ovf) 0)

/-- A two's complement number in `n` bytes. -/
def intBytes (n : Nat) (x : Int) : List Byte := leBytes n (wrapZ (8 * n) x)

/-! ## Records and status words -/

/-- An error record (R322). -/
def errBytes (r : ErrRec) : List Byte :=
  leBytes 8 r.ft ++ leBytes 8 r.lastFt ++ leBytes 2 r.cls ++ leBytes 1 r.unitKind ++ leBytes 1 r.part ++ leBytes 4 r.unit.toNat ++
    leBytes 8 r.step.toNat ++ leBytes 2 r.epoch.toNat ++ leBytes 2 r.phase ++ leBytes 4 r.opId.toNat ++ leBytes 2 r.temp.toNat ++
    leBytes 2 r.volt ++ leBytes 3 r.count ++ leBytes 1 r.rflags.toNat ++ leBytes 16 r.detail.toNat

/-- An Almanac entry (R277). -/
def almBytes (e : AlmEntry) : List Byte :=
  leBytes 16 (e.trigger % 2 ^ 64 + 2 ^ 64 * e.action + 2 ^ 72 * e.part + 2 ^ 76 * b1 e.rep + 2 ^ 78 * e.dlScale + 2 ^ 80 * e.target +
    2 ^ 96 * e.arg + 2 ^ 112 * e.deadline)

/-- A Herald member statistics entry (R293). -/
def statBytes (x : MemStat) : List Byte :=
  leBytes 2 x.device ++ leBytes 2 x.lastRank ++ intBytes 4 x.lastArrival ++ leBytes 6 x.onTime.v ++ leBytes 6 x.missing.v ++
    leBytes 6 x.lateVotes.v ++ leBytes 6 x.lastPlace.v ++ intBytes 6 x.arrivalSum ++ leBytes 1 x.streak ++
    leBytes 1 (b1 x.onTime.ovf + 2 * b1 x.missing.ovf + 4 * b1 x.lateVotes.ovf + 8 * b1 x.lastPlace.ovf + 16 * b1 x.arrivalOvf)

/-- `PORT_STATUS` (R369). -/
def portWord (x : Port) : Nat :=
  let st := match x.st with
    | .off => 0
    | .training => 1
    | .gate => 2
    | .up => 3
    | .down => 4
  st + 2 ^ 3 * x.lanes.length + 2 ^ 7 * x.sub + 2 ^ 11 * b1 x.lsOk + 2 ^ 12 * x.failed.toNat + 2 ^ 21 * b1 x.enc + 2 ^ 22 * b1 x.keySelTx +
    2 ^ 23 * b1 x.twin + 2 ^ 24 * x.minWidth + 2 ^ 28 * x.downCause + 2 ^ 32 * x.partnerDev + 2 ^ 48 * x.partnerPort

/-- `RTR_STATUS` (R370): packets of the other version count in the router's output queues and in the segments that its combining units have not yet
forwarded. -/
def State.rtrWord (s : State) (r : Nat) : Nat :=
  let x := s.router r
  let held := (List.range 4).filterMap fun n => Tbl.get none x.cus n
  b1 x.down + 2 * ((List.range 4).foldl (fun m n => m + 2 ^ n * b1 (Tbl.get none x.cus n).isSome) 0) + 2 ^ 5 * b1 (s.rcfg 0).ver +
    2 ^ 16 * min 0xFFFF ((held.countP fun c => c.sentTag.isNone && c.pkt.epoch != (s.rcfg 1).ver) +
      s.routing.mesh.countP fun h => h.src == r && h.ver != (s.rcfg 1).ver)

/-- `MC_STATUS` (R400). -/
def mcWord (x : Mc) : Nat :=
  let st := match x.st with
    | .empty => 0
    | .training => 1
    | .up => 2
    | .omitted => 3
    | .offline => 4
    | .selfRefresh => 5
  st + 2 ^ 3 * x.rate + 2 ^ 8 * x.capacity + 2 ^ 24 * x.cause + 2 ^ 32 * x.retired.length

/-- Whether the outgoing mirror is in progress: released, and not yet acknowledged (R405, R409). -/
def MirrorPhase.going : MirrorPhase → Bool
  | .idle | .pending => false
  | .writing | .slotWritten | .awaitAck => true

/-- `TWIN_STATUS` (R405). -/
def twinWord (x : Twin) : Nat :=
  let st := match x.st with
    | .unbound => 0
    | .syncing => 1
    | .bound => 2
    | .broken => 3
  st + 4 * b1 (x.full && x.phase.going) + 8 * b1 x.awaitAck + 16 * b1 x.exported + 2 ^ 5 * x.portA + 2 ^ 10 * x.portB + 2 ^ 16 * x.peerDev + 2 ^ 32 * x.peerPart

/-- `FT_STATUS` (R276). -/
def ftWord (x : TimeSt) : Nat :=
  x.state + 2 ^ 3 * x.source + 2 ^ 6 * x.srcPort + 2 ^ 16 * x.hops + 2 ^ 32 * x.srcDev + 2 ^ 48 * b1 x.stepped + 2 ^ 49 * b1 x.stepNeeded +
    2 ^ 50 * b1 x.syncEn

/-- `FT_SERVO` (R276). -/
def servoWord (x : TimeSt) : Nat := wrapZ 32 x.offset + 2 ^ 32 * wrapZ 32 x.rate

/-- `TEMP_MAX` of a region (R493): the highest reading in °C. -/
def State.tempMax (s : State) (g : Nat) : Nat :=
  ((List.range 3).filterMap fun i => s.sensor (3 * g + i)).foldl (fun m t => max m (min 255 (t / 8).toNat)) 0

/-- `REGION_PWR` (R493). -/
def State.pwrWord (s : State) (g : Nat) : Nat :=
  let r := s.region g
  let logic := match r.logic with
    | .off => 0
    | .poweringUp => 1
    | .on => 2
    | .poweringDown => 3
    | .dark => 4
  let array := match r.array with
    | .off => 0
    | .retention => 1
    | .on => 2
  logic + 2 ^ 3 * array + 2 ^ 5 * r.effective + 2 ^ 8 * r.cap + 2 ^ 11 * r.capSrc + 2 ^ 16 * b1 r.lent + 2 ^ 17 * b1 r.bump +
    2 ^ 18 * r.logicFail.toNat + 2 ^ 24 * r.arrayFail.toNat + 2 ^ 32 * min 255 r.margin + 2 ^ 40 * r.puGroups + 2 ^ 48 * s.tempMax g

/-- A routing table entry (R355). -/
def routeWord (e : RouteEnt) : Nat :=
  (e.ports.zipIdx.foldl (fun n x => n + 2 ^ (5 * x.2) * x.1) 0) + 2 ^ 20 * e.nports + 2 ^ 24 * e.iset

/-- A tree entry of a router, or of a port die (R364; assumption 32). -/
def treeWord (die : Bool) (e : TreeEnt) : Nat :=
  if die then e.outs.toNat + 2 ^ 24 * b1 e.hub else e.outs.toNat % 16 + 2 ^ 4 * e.sites.toNat + 2 ^ 20 * b1 e.hub

/-! ## Objects of tiles and sites -/

/-- Type 0x02 (R67, R68). -/
def State.placeObj (s : State) (g : Nat) : List Byte :=
  let r := s.region g
  leBytes 16 r.gen.toNat ++ ((List.range 128).flatMap fun k => leBytes 4 (tileWord (Tbl.get {} r.tiles k))) ++
    ((List.range 144).flatMap fun p => leBytes 2 (siteWord (s.site (siteKey g p))))

/-- Type 0x05: the active or the shadow word of a unit (R154). -/
def State.unitObj (s : State) (tile u bank : Nat) : List Byte :=
  let x := (s.site (s.siteOfTile tile)).unit u
  leBytes (if u < 0x0C0 then 4 * unitWords u else 4) (if bank = 0 then x.active else x.shadow).toNat ++ leBytes 2 x.epoch.toNat ++
    leBytes 1 (b1 x.valid)

/-- Type 0x06: the CSRs of R213 in table order, the exception CSRs, and both banks. -/
def State.seqObj (s : State) (tile : Nat) : List Byte :=
  let k := s.siteOfTile tile
  let q := (s.site k).seq
  let csr (n : Nat) : List Byte := match s.csrRead k n with
    | some (v, _) => leBytes 4 v.toNat
    | none => leBytes 4 0
  ([0xF14, 0xFC0, 0xFC1, 0xFC2, 0xFC3, 0xFC4, 0xFC5, 0xFC6, 0xFC7, 0xFC8, 0xFC9, 0xFCA, 0x7C0].flatMap csr) ++
    leBytes 4 q.mcause.toNat ++ leBytes 4 q.mepc.toNat ++ leBytes 4 q.mtval.toNat ++
    ([q.main, q.hand].flatMap fun (b : Bank) => (List.range 32).flatMap fun i => leBytes 4 (Tbl.get (0 : BitVec 32) b.regs i).toNat)

/-- Type 0x07 (R214, R220). -/
def State.chanObj (s : State) (tile i : Nat) : List Byte :=
  let x := s.site (s.siteOfTile tile)
  leBytes 32 (x.unit (0x060 + i)).active.toNat ++ leBytes 16 (chanWord (x.chan i) (x.spill.filter fun e => e.msg.chan == i).length)

/-- Type 0x08 (R116, R222). -/
def State.combObj (s : State) (tile q : Nat) : List Byte :=
  let c : CombQ := Tbl.get {} (s.site (s.siteOfTile tile)).combqs q
  leBytes 8 (match c.tag with
    | some t => tagWord t
    | none => 0) ++ leBytes 8 c.added ++ leBytes 1 (b1 c.armed)

/-- Type 0x09 (R236, R241). -/
def State.signalObj (s : State) (tile : Nat) : List Byte :=
  let x := s.site (s.siteOfTile tile)
  ((List.range 64).flatMap fun i => leBytes 4 (Tbl.get (0 : BitVec 32) x.signals i).toNat) ++
    ((List.range 64).flatMap fun i =>
      let b : BarCnt := Tbl.get {} x.bars i
      leBytes 2 b.a.toNat ++ leBytes 2 b.c.toNat)

/-- Type 0x0A: zero until the partition's sweep completes, and for a site that is fenced, defect or dark (R197). -/
def State.sliceObj (s : State) (p tile b : Nat) : List Byte :=
  let x := s.site (s.siteOfTile tile)
  if (s.part p).sweep.isSome ∨ x.st ∈ [SiteSt.fenced, .defect, .dark] then List.replicate 512 0 else memReadN x.mu.slice (512 * b) 512

/-- The census reads of slice objects (R172, R174): what they find in the check bits; no step consumes their data. -/
def State.sliceReads (s : State) (p obj n : Nat) : State :=
  if obj / 2 ^ 24 ≠ 0x0A ∨ (s.part p).sweep.isSome then s
  else (List.range n).foldl (fun s j =>
    let k := s.siteOfTile ((obj + j) % 8192)
    if (s.site k).st ∈ [SiteSt.fenced, .defect, .dark] then s else s.eccRange k (512 * bitsN (obj + j) 13 11) 512 false) s

/-- The objects of tiles, sites and placement regions. -/
def State.tileObject (s : State) (p typ i : Nat) : Option (List Byte) :=
  let tile := bitsN i 0 13
  let x := s.site (s.siteOfTile tile)
  match typ with
  | 0x02 => if i < 64 then some (s.placeObj i) else none
  | 0x03 => (siteOfId i).map s.healthBytes
  | 0x04 => (siteOfId i).map s.siteStatusBytes
  | 0x05 => if i < 2 ^ 22 ∧ bitsN i 13 8 ∈ allUnits ∧ tile < 8192 then some (s.unitObj tile (bitsN i 13 8) (bitsN i 21 1)) else none
  | 0x06 => if i < 8192 then some (s.seqObj i) else none
  | 0x07 => if i < 2 ^ 18 then some (s.chanObj tile (bitsN i 13 5)) else none
  | 0x08 => if i < 2 ^ 16 then some (s.combObj tile (bitsN i 13 3)) else none
  | 0x09 => if i < 8192 then some (s.signalObj i) else none
  | 0x0A => if bitsN i 13 11 < 1536 ∧ bitAt (s.part p).regions (tileBlock tile) then some (s.sliceObj p tile (bitsN i 13 11)) else none
  | 0x0B => if i < 8192 then some ((List.range 8).flatMap fun n => leBytes 8 (winWord (Tbl.get {} x.mu.windows n))) else none
  | _ => if i < 2 ^ 21 then some (ctrBytes (Tbl.get {} x.mu.discards (bitsN i 13 8))) else none

/-! ## Objects of partitions -/

/-- Type 0x0E: the record, then the masks of its pages (R21, R29). -/
def Job.ledgerObj (j : Job) (i : Nat) : List Byte :=
  let r : LedgerRec := Tbl.get {} j.ledger i
  let dirty := if j.prepared = some i then j.maskTable else j.dirty
  recBytes r ++ (List.range j.classes.length).flatMap fun n =>
    leBytes 8 (Tbl.get (0 : BitVec 64) j.live n).toNat ++ leBytes 8 (Tbl.get (0 : BitVec 64) dirty n).toNat

/-- The partition objects of a job. -/
def Job.object (j : Job) (typ i : Nat) : Option (List Byte) :=
  match typ with
  | 0x0E => if i < 4096 then some (j.ledgerObj i) else none
  | 0x0F => if i < j.classes.length then
      some (leBytes 16 (Tbl.get (0 : BitVec 128) j.digSealed i).toNat ++ leBytes 16 (Tbl.get (0 : BitVec 128) j.digWorking i).toNat) else none
  | _ => if i < 65536 then
      some (leBytes 8 (Tbl.get (0 : BitVec 64) j.anchorsSealed i).toNat ++ leBytes 8 (Tbl.get (0 : BitVec 64) j.anchors i).toNat) else none

/-- The objects of partition scope: 0x0D to 0x10, 0x12, 0x1E, 0x24. -/
def State.partObject (s : State) (p typ i : Nat) : Option (List Byte) :=
  let x := s.part p
  let t := x.twin
  if ¬ (p < 16 ∧ x.exist) then none
  else match typ with
    | 0x0D => if i = 0 then some (s.commitBytes p) else none
    | 0x12 => if i = 0 then some (((List.range 8).flatMap fun n => ctrBytes (Tbl.get {} x.almCtr n)) ++ leBytes 8 x.cadence) else none
    | 0x1E => if i = 0 then some (leBytes 8 (twinWord t) ++ leBytes 8 t.mirrorGen ++ ctrBytes t.acked ++ ctrBytes t.late ++ ctrBytes t.naks) else none
    | 0x24 => if i = 0 then some (s.partBytes p) else none
    | _ => x.job.bind fun j => j.object typ i

/-- A group of a partition's Ordo, or of any with `PART` 0xFF. -/
def State.groupOf (s : State) (p g : Nat) : Option (Part × GroupDef) :=
  (List.range 16).findSome? fun q =>
    if p = q ∨ 16 ≤ p then (s.part q).ordo.bind fun o => (o.groups.find? fun y => y.group == g).map fun y => (s.part q, y) else none

/-- Type 0x15 (R574, R293). -/
def State.groupObj (s : State) (x : Part) (g : GroupDef) : List Byte :=
  let her : Nat := match x.job with
    | some j => j.heraldOf g
    | none => g.herald
  let bars : List Nat := match x.ordo with
    | some o => (o.barriers.filter fun b => b.scope == 1 && b.group == g.group).map (·.id)
    | none => []
  let first : Nat := match s.herald g.group with
    | some h => h.firstEntry
    | none => 0xFFFFFFFF
  leBytes 4 g.members.length ++ (g.members.flatMap (leBytes 2)) ++ leBytes 2 her ++ leBytes 1 g.deadlineUs ++ leBytes 2 g.replicaSets.length ++
    (g.replicaSets.flatMap fun r => leBytes 2 r.length ++ r.flatMap (leBytes 2)) ++ leBytes 1 bars.length ++ bars.flatMap (leBytes 1) ++
    leBytes 4 first

/-- Type 0x16: the statistics entry of a device-wide index (R293). -/
def State.statObj (s : State) (i : Nat) : Option (List Byte) :=
  s.heralds.findSome? fun e => e.2.bind fun (h : Herald) =>
    if h.firstEntry ≤ i then h.stats[i - h.firstEntry]?.map statBytes else none

/-! ## Objects of the network, memory and the hub -/

/-- A combining-unit segment (R362). -/
def segBytes (c : Option CuSeg) : List Byte := match c with
  | none => leBytes 26 0
  | some c => leBytes 1 1 ++ leBytes 1 c.merges ++ leBytes 2 c.pkt.destDev ++ leBytes 4 c.pkt.arg.toNat ++ leBytes 8 c.pkt.addr ++
      leBytes 8 (tagWord c.tag) ++ leBytes 2 c.pkt.payload.length ++ c.pkt.payload

/-- Types 0x18 to 0x1D and 0x13, 0x14. -/
def State.netObject (s : State) (typ i : Nat) : Option (List Byte) :=
  match typ with
  | 0x13 =>
    let e := s.pageEnt i
    let k := match e.kind with
      | .unmapped => 0
      | .plain => 1
      | .tallyA => 2
      | .tallyB => 3
      | .mirror => 4
      | .log => 5
      | .window => 6
      | .system => 7
    some (leBytes 8 (e.ppn + 2 ^ 24 * e.owner + 2 ^ 28 * k + 2 ^ 31 * b1 e.kept + 2 ^ 32 * b1 e.retired))
  | 0x14 =>
    let w : PageWin := Tbl.get {} s.mem.wins i
    if i < 512 then some (leBytes 4 w.first ++ leBytes 4 w.count ++ leBytes 1 w.rights ++ leBytes 1 w.key ++ leBytes 1 w.owner ++ leBytes 1 (b1 w.isOpen))
    else none
  | 0x18 =>
    let x := s.port i
    if i < 24 then some (leBytes 8 (portWord x) ++ portCtrs x.ctr) else none
  | 0x19 =>
    let r := 24 * bitsN i 5 5 + bitsN i 0 5
    let x := s.router r
    if i < 1024 ∧ bitsN i 0 5 < 24 ∧ bitsN i 5 5 < 24 then
      some (leBytes 8 (s.rtrWord r) ++
        ([x.pktsFwd, x.ceMarked, x.combined, x.pdownRefused, x.pdownDropped, x.staleEpoch, x.hopLimit].flatMap ctrBytes) ++
        (List.range 4).flatMap fun n => segBytes (Tbl.get none x.cus n))
    else none
  | 0x1A => if i < 2 ^ 17 then some (leBytes 4 (routeWord (Tbl.get {} s.routing.table i))) else none
  | 0x1B =>
    let l := Tbl.get [] s.routing.isets i
    if i < 512 then some ((List.range 16).flatMap fun n => leBytes 2 (l.getD n 0xFFFF)) else none
  | 0x1C =>
    let node := bitsN i 8 10
    if i < 2 ^ 19 ∧ node < 578 then
      some (leBytes 4 (treeWord (decide (576 ≤ node)) (Tbl.get {} s.routing.trees (treeKey (bitOn i 18) node (bitsN i 0 8))))) else none
  | _ =>
    let x := s.chan i
    if i < 16 then some (leBytes 8 (mcWord x) ++ ([x.ceCount, x.ueCount, x.scrubPasses, x.rmwCount, x.refused].flatMap ctrBytes)) else none

/-- The fields of type 0x23 (R63, R70, R295, R311). -/
def State.regionHead (s : State) (g : Nat) : List Byte :=
  let r := s.region g
  leBytes 1 (s.goodSpares g) ++ leBytes 1 r.vigilD ++ leBytes 2 (s.vigilE g) ++ leBytes 1 r.targets.length ++
    (r.targets.flatMap fun x => leBytes 1 x.1 ++ leBytes 1 x.2) ++ leBytes 2 r.fences ++ leBytes 1 r.repairs.length ++
    (r.repairs.flatMap fun x => match x with
      | .fill k p _ stopped => leBytes 1 1 ++ leBytes 1 k ++ leBytes 1 p ++ leBytes 1 (b1 stopped)
      | .full => leBytes 1 2 ++ leBytes 3 0)

/-- Type 0x23: its fields, and after them the last Σ of every site (R300), for which no rule names an object (DESIGN CHOICE, log 142); the census
mirror holds the fields alone (R457). -/
def State.regionObj (s : State) (g : Nat) : List Byte :=
  s.regionHead g ++ (List.range 144).flatMap fun p => leBytes 8 (s.site (siteKey g p)).sigma.toNat

/-- Type 0x25: the registers of R438, then the last commands, the oldest first. -/
def mailboxObj (m : Mailbox) : List Byte :=
  leBytes 8 (b1 m.enable + 4 * b1 m.irqEn) ++ leBytes 8 0 ++
    leBytes 8 (m.acked + 2 ^ 8 * m.exec + 2 ^ 16 * b1 m.running.isSome + 2 ^ 17 * b1 m.stalled) ++
    leBytes 8 (m.cplTail + 2 ^ 8 * b1 m.cplPhase) ++ leBytes 8 m.cplHead ++ leBytes 8 (m.role + 2 ^ 4 * m.rolePart) ++
    leBytes 8 (b1 m.badDoorbell + 2 * b1 m.resetDone) ++
    m.hist.reverse.flatMap fun (h : HistCmd) => leBytes 2 h.opcode.toNat ++ leBytes 4 h.tag.toNat ++ leBytes 2 h.status ++ leBytes 8 h.ackFt ++ leBytes 8 h.cplFt

/-- The event codes of R461, R492, R527 and R548. -/
def eventCodes : List Nat :=
  (List.range 5).map (0x0101 + ·) ++ (List.range 8).map (0x0110 + ·) ++ (List.range 4).map (0x0201 + ·) ++ (List.range 4).map (0x0301 + ·) ++
    (List.range 5).map (0x0401 + ·) ++ (List.range 5).map (0x0501 + ·) ++ [0x0601, 0x0602] ++ (List.range 5).map (0x0701 + ·) ++
    (List.range 3).map (0x0801 + ·) ++ (List.range 7).map (0x0B01 + ·) ++ (List.range 5).map (0x0C01 + ·)

/-- The Ember record (R525) with its digest and whether it is current (R504). -/
def State.emberObj (s : State) : List Byte := match s.flash.ember with
  | none => leBytes 1 0
  | some e =>
    let b := [0x45, 0x4D, 0x42, 0x52] ++ leBytes 2 e.seq.toNat ++ leBytes 2 0 ++ leBytes 4 e.boot ++ leBytes 1 (b1 e.partialScan) ++ leBytes 3 0 ++
      leBytes 8 e.ft ++ leBytes 8 e.run.toNat ++ leBytes 2 e.fails.length ++ e.fails.flatMap (leBytes 2)
    b ++ beBytes 48 (Config.sha384 b).toNat ++ leBytes 1 (b1 (e.boot + 1 == s.flash.boot.boots))

/-- Type 0x37 (R549). -/
def State.secObj (s : State) : List Byte :=
  let occ (kind n : Nat) : List Byte := leBytes ((n + 7) / 8)
    ((List.range n).foldl (fun w i => w + 2 ^ i * b1 (Tbl.get {} s.sec.keys (1024 * kind + i) : Key).valid) 0)
  let fuse : Nat := (List.range 4).foldl (fun w i =>
    let k : OpKey := Tbl.get {} s.fuses.opKeys i
    w + 2 ^ i * b1 k.programmed + 2 ^ (4 + i) * b1 k.revoked) 0
  leBytes 8 s.policyWord ++ leBytes 8 s.alarmsWord ++ leBytes 1 (BitVec.toNat s.sec.debug) ++ occ 1 96 ++ occ 2 256 ++ occ 3 64 ++ occ 4 8 ++
    leBytes 1 fuse ++ leBytes 1 (if s.fuses.idDestroyed then 2 else if s.sec.idLost then 1 else 0)

/-- The objects of types 0x30 to 0x37 (R493, R528, R549). -/
def State.lateObject (s : State) (typ i : Nat) : Option (List Byte) :=
  match typ with
  | 0x30 =>
    let temp (n : Nat) : List Byte := match s.sensor n with
      | some t => intBytes 2 t
      | none => leBytes 2 0x8000
    if i < 64 then some (leBytes 8 (s.pwrWord i) ++ ((List.range 8).flatMap fun c => leBytes 2 (Tbl.get 0 (s.region i).cellCur c)) ++
      (List.range 3).flatMap fun n => temp (3 * i + n)) else none
  | 0x31 => if i = 0 then some (s.hub.config.pmbus.zipIdx.flatMap fun e =>
      let x : PmbusRec := Tbl.get {} s.power.pmbus e.2
      leBytes 2 e.1 ++ leBytes 2 x.vout ++ leBytes 2 x.iout ++ intBytes 2 x.temp ++ leBytes 2 x.status.toNat ++ leBytes 1 (b1 x.absent)) else none
  | 0x32 => if i = 0 then some (leBytes 4 s.power.budget ++ leBytes 4 s.power.avg1s ++ leBytes 4 s.power.avg10ms ++ leBytes 4 s.power.lent) else none
  | 0x33 =>
    let b := s.flash.boot
    if i = 0 then some (leBytes 4 b.boots ++ leBytes 8 b.resetFt ++ leBytes 1 b.resetKind ++ leBytes 1 b.hostCause ++ leBytes 1 b.lastStep) else none
  | 0x34 => (s.flash.ledger[i]?).map fun (e : LedgerEnt) => leBytes 1 e.kind ++ leBytes 1 0 ++ leBytes 2 e.cls ++ leBytes 4 e.id ++ leBytes 8 e.ft
  | 0x35 => if i = 0 then some s.emberObj else none
  | 0x36 =>
    let h := (s.part i).harvested
    if i < 16 then some (leBytes 1 (b1 h.present) ++ leBytes 1 h.cause ++ leBytes 8 h.ft ++ leBytes 8 h.step.toNat ++ leBytes 4 h.sampleBytes) else none
  | _ => if i = 0 then some s.secObj else none

/-- The types that census knows (R456, R493, R528, R549). -/
def typeKnown (t : Nat) : Bool := decide (1 ≤ t ∧ t ≤ 0x26) || decide (0x30 ≤ t ∧ t ≤ 0x37)

/-- An object's data by type and index; none for an index that names nothing (R452, R456). -/
def State.object (s : State) (p typ i : Nat) : Option (List Byte) :=
  if typ ∈ [0x0D, 0x0E, 0x0F, 0x10, 0x12, 0x1E, 0x24] then s.partObject p typ i
  else if 0x02 ≤ typ ∧ typ ≤ 0x0C then s.tileObject p typ i
  else if typ ∈ [0x13, 0x14, 0x18, 0x19, 0x1A, 0x1B, 0x1C, 0x1D] then s.netObject typ i
  else if 0x30 ≤ typ then s.lateObject typ i
  else match typ with
    | 0x01 =>
      let spares := ((List.range 64).map s.goodSpares).sum
      let cap := ((List.range 16).map fun c => if (s.chan c).st = .up then (s.chan c).capacity else 0).sum
      if i = 0 then some (s.idBytes ++ leBytes 4 spares ++ leBytes 4 cap ++ ctrBytes s.hub.strayVotes) else none
    | 0x11 =>
      let e : AlmEntry := Tbl.get {} (if bitOn i 13 then s.alm.shadow else s.alm.active) (i % 8192)
      if i < 16384 then some (almBytes e ++ leBytes 1 (b1 e.fired + 2 * b1 e.late + 4 * b1 e.watching)) else none
    | 0x15 => if i < 64 then (s.groupOf p i).map fun x => s.groupObj x.1 x.2 else none
    | 0x16 => s.statObj i
    | 0x17 => if i < 256 then ((Tbl.get [] s.outcomes (bitsN i 0 6))[bitsN i 6 2]?).map outcomeBytes else none
    | 0x1F => if i = 0 then some (leBytes 8 s.now ++ leBytes 8 (ftWord s.time) ++ leBytes 8 (servoWord s.time)) else none
    | 0x20 => if i = 0 then some (leBytes 8 s.errCollect ++ leBytes 8 s.col.lost.v ++ leBytes 8 s.col.total) else none
    | 0x21 => if i < 1048576 ∧ i < s.col.total then
      some (if s.ringReads i then errBytes (Tbl.get {} s.col.ring i) else leBytes 64 (Config.freeValue 512 s.free).toNat) else none
    | 0x22 => (s.mem.keptLost[i]?).map fun x => leBytes 4 x.1 ++ leBytes 1 x.2
    | 0x23 => if i < 64 then some (s.regionObj i) else none
    | 0x25 => if i < 24 then some (mailboxObj (s.mbx i)) else none
    | _ => if i ∈ eventCodes then
        let x : EventRec × Ctr48 := Tbl.get ({}, {}) s.ev.latest i
        some (eventBytes x.1 ++ ctrBytes x.2) else none

end Sys2Proof.Machine
end

