-- ==== Sys2Proof/Machine/CmdCensus.lean ====
section
/-! DEFINITION. Groups 0x09 and 0x0A: census, the error log and the Harvest (05 R192 to R194; 10 R329; 14 R450 to R456; 16 R520, R522). -/

namespace Sys2Proof.Machine

/-- The objects of a request with their headers, or the status that refuses it (R452, R456). -/
def State.readObjects (s : State) (c : Cmd) (obj n : Nat) : Except Nat (List (List Byte)) :=
  let typ := obj / 2 ^ 24
  let i := obj % 2 ^ 24
  let m := s.mbx c.mb
  if n = 0 then .error stBadArgument
  else if ¬ typeKnown typ then .error stObjectUnknown
  else if typ = 0x0A ∧ ¬ (m.role = 2 ∧ m.rolePart = c.part) then .error stNoCredential
  else if 2 ^ 24 < i + n then .error stBadArgument
  else match (List.range n).mapM fun k => (s.object c.part typ (i + k)).map fun d => objBytes (obj + k) s.now d with
    | some us => .ok us
    | none => .error stBadArgument

/-- Complete with objects: `BYTES`, `OBJECTS` (R450). -/
def State.finishObjects (s : State) (c : Cmd) (us : List (List Byte)) : State :=
  s.finishOut c us fun b n => pack [(32, b), (32, n)]

/-- `CENSUS_READ` (R452 to R456). -/
def cmdCensusRead : CmdDef :=
  { op := 0x0901, role := .any, early := true, widths := [32, 32]
    body := fun s c => match s.readObjects c (c.arg 0) (c.arg 1) with
      | .error st => s.finish c.mb st
      | .ok us => (s.sliceReads c.part (c.arg 0) (c.arg 1)).finishObjects c us }
/-- `CENSUS_READ`. -/
def execCensusRead (t mb : Nat) (buf : Option (List Byte)) (s : State) : Out := cmdCensusRead.run t mb { buf } s

/-- A capture goes into the mailbox's staging area, and from there to the buffer (R455). -/
def State.capture (s : State) (c : Cmd) (obj n : Nat) : State :=
  let s := s.modMb c.mb fun m => { m with capture := none }
  match s.readObjects c obj n with
  | .error st => s.finish c.mb st
  | .ok us =>
    if 16777216 < (us.map List.length).sum then s.finish c.mb stBadArgument
    else ((s.sliceReads c.part obj n).modMb c.mb fun m => { m with staging := us.flatten }).finishObjects c us

/-- `CENSUS_SNAPSHOT` (R455): at the partition's next step gate, or at once. -/
def cmdCensusSnapshot : CmdDef :=
  { op := 0x0902, role := .any, widths := [8, 32, 32]
    body := fun s c =>
      let obj := c.arg 1
      let n := c.arg 2
      if 1 < c.arg 0 then s.finish c.mb stBadArgument
      else match s.readObjects c obj n with
        | .error st => s.finish c.mb st
        | .ok us =>
          if c.arg 0 = 0 ∨ 16 ≤ c.part ∨ (s.job c.part).isNone then (s.sliceReads c.part obj n).finishObjects c us
          else if 16777216 < (us.map List.length).sum then s.finish c.mb stBadArgument
          else s.modMb c.mb fun m => { m with capture := some (obj, n) } }
/-- `CENSUS_SNAPSHOT`. -/
def execCensusSnapshot (t mb : Nat) (buf : Option (List Byte)) (s : State) : Out := cmdCensusSnapshot.run t mb { buf } s

/-- `CENSUS_GATE_CAPTURE` (R455): the partition stands at its step gate (or its job has ended): every capture that waits for it is
made. -/
def execCensusGateCapture (t p : Nat) (s : State) : Out :=
  let s := s.adv t
  .next <|
    let ready : Bool := match s.job p with
      | none => true
      | some j => (s.part p).gate && j.st == .atGate
    if ¬ ready then s
    else (List.range 24).foldl (fun (s : State) mb => match (s.mbx mb).running, (s.mbx mb).capture with
      | some d, some (obj, n) => if d.part = p then s.capture { mb, d, a := [1, obj, n] } obj n else s
      | _, _ => s) s

/-- Records of the log ring from a position on (R328): those of a lost page return a free value, drawn only where one is lost. -/
def State.logUnits (s : State) (first n : Nat) : List (List Byte) × State :=
  let ps := (List.range n).map fun i => (first + i) % 1048576
  let (v, s') := if ps.all s.ringReads then ((0 : BitVec 512), s) else s.draw 512
  (ps.map fun q => if s.ringReads q then errBytes (Tbl.get {} s.col.ring q) else leBytes 64 v.toNat, s')

/-- `LOG_READ` (R329, R450): records of the log ring from a position on. -/
def cmdLogRead : CmdDef :=
  { op := 0x0A01, role := .any, early := true, widths := [32, 64]
    body := fun s c =>
      let oldest := s.col.total - min s.col.total 1048576
      let first := max (c.arg 1) oldest
      let n := min (c.arg 0) (s.col.total - first)
      let (us, s) := s.logUnits first n
      s.finishOut c us fun _ k => pack [(64, first), (32, k)] }
/-- `LOG_READ`. -/
def execLogRead (t mb : Nat) (buf : Option (List Byte)) (s : State) : Out := cmdLogRead.run t mb { buf } s

/-- The sample size of a partition under some ranges (R192). -/
def State.sampleSize (s : State) (p : Nat) (rs : List (Nat × Nat)) : Nat := (s.tilesOf p).length * (rs.map (·.2)).sum

/-- `HARVEST_SET` (R192): the slice ranges of a partition's sample. -/
def cmdHarvestSet : CmdDef :=
  { op := 0x0A02, role := .owner, widths := [8, 32, 32, 32, 32, 32, 32, 32, 32], lock := lockPart
    body := fun s c =>
      let n := c.arg 0
      let rs := (List.range n).map fun i => (c.arg (1 + 2 * i), c.arg (2 + 2 * i))
      if n = 0 ∨ 4 < n ∨ rs.any fun r => r.1 % 256 != 0 || r.2 % 256 != 0 || r.2 == 0 || decide (786432 < r.1 + r.2) then s.finish c.mb stBadArgument
      else
        let own := s.sampleSize c.part rs
        let others := (((List.range 16).filter fun q => q != c.part && (s.part q).exist).map fun q => s.sampleSize q (s.part q).harvest).sum
        if 67108864 < own ∨ 67108864 < own + others then s.finish c.mb stBadArgument
        else (s.modPart c.part fun x => { x with harvest := rs }).finish c.mb stOk }
/-- `HARVEST_SET`. -/
def execHarvestSet (t mb : Nat) (buf : Option (List Byte)) (s : State) : Out := cmdHarvestSet.run t mb { buf } s

/-- The header of a Harvest partition record (R520); the record's objects are the commit status, the partition, and each site. -/
def harvestHead (p objects : Nat) (h : HarvestRec) : List Byte :=
  leBytes 1 p ++ leBytes 1 h.cause ++ leBytes 1 h.attempt ++ leBytes 1 0 ++ leBytes 4 h.sampleBytes ++ leBytes 8 h.ft ++ leBytes 8 h.step.toNat ++
    leBytes 2 h.cls ++ leBytes 2 h.site ++ leBytes 4 objects ++ leBytes 4 h.recs.length ++ leBytes 28 0

/-- `HARVEST_READ` (R193, R194, R522): sampled tiles from a tile ID on, or the partition record with `TILES` 0. -/
def cmdHarvestRead : CmdDef :=
  { op := 0x0A03, role := .strict, widths := [16, 16]
    body := fun s c =>
      let x := s.part c.part
      let h := x.harvested
      if ¬ h.present then s.finish c.mb stBadArgument
      else if h.cred ≠ x.cred then s.finish c.mb stNoCredential
      else if c.arg 1 = 0 then
        s.finishOut c ([harvestHead c.part (2 + (s.sitesOf c.part).length) h, h.objects] ++ h.recs.map errBytes) fun b _ => pack [(32, b), (16, 0)]
      else
        let (ts, s) := s.storeTiles c.part
        s.finishOut c (((ts.filter fun y => decide (c.arg 0 ≤ y.1)).take (c.arg 1)).map (·.2)) fun b n => pack [(32, b), (16, n)] }
/-- `HARVEST_READ`. -/
def execHarvestRead (t mb : Nat) (buf : Option (List Byte)) (s : State) : Out := cmdHarvestRead.run t mb { buf } s

end Sys2Proof.Machine
end

