-- ==== Sys2Proof/Machine/CmdCommit.lean ====
section
/-! DEFINITION. Groups 0x04 and 0x05: commit status, digests, replay, rewind and HOLD release, site fences and Vigil depth (01 R25 to R30, R51,
R52; 10 R295, R309; 13 R430; 14 R450). -/

namespace Sys2Proof.Machine

/-- `COMMIT_STATUS` (R450). -/
def cmdCommitStatus : CmdDef :=
  { op := 0x0401, role := .any, part := true
    body := fun s c => s.finish c.mb stOk 0 (s.commitResult c.part) }
/-- `COMMIT_STATUS`. -/
def execCommitStatus (t mb : Nat) (buf : Option (List Byte)) (s : State) : Out := cmdCommitStatus.run t mb { buf } s

/-- The record of a retained generation and its tables (R25, R28, R430). -/
def Job.genOf (j : Job) (g : Nat) : Option GenRec :=
  if g = j.step then some { gen := g, lrec := j.lastSealed, live := j.live, digests := j.digSealed }
  else if g < j.retainFloor then none
  else j.gens.find? fun x => x.gen == g

/-- `DIGEST_READ` (R450): the state or weight digest of a retained generation. -/
def cmdDigestRead : CmdDef :=
  { op := 0x0402, role := .any, part := true, widths := [8, 64]
    body := fun s c =>
      if 1 < c.arg 0 then s.finish c.mb stBadArgument
      else match s.job c.part with
        | none => s.finish c.mb stNoJob
        | some j => match j.genOf (if c.arg 1 = 2 ^ 64 - 1 then j.step else c.arg 1) with
          | none => s.finish c.mb stNotRetained
          | some g => s.finish c.mb stOk 0 (if c.arg 0 = 0 then g.lrec.stateDigest else g.lrec.weightDigest).toNat }
/-- `DIGEST_READ`. -/
def execDigestRead (t mb : Nat) (buf : Option (List Byte)) (s : State) : Out := cmdDigestRead.run t mb { buf } s

/-- `HOLD_RELEASE` (R51, R52). -/
def cmdHoldRelease : CmdDef :=
  { op := 0x0405, role := .admin, widths := [8, 8, 8, 64]
    body := fun s c =>
      let (s, st) := s.holdRelease (c.arg 0) (c.arg 1) (c.arg 2) (c.arg 3)
      s.finish c.mb st }
/-- `HOLD_RELEASE`. -/
def execHoldRelease (t mb : Nat) (buf : Option (List Byte)) (s : State) : Out := cmdHoldRelease.run t mb { buf } s

/-- The step and attempt whose HOLD a replay release names (R52): those of the HOLD that stopped the job, a rewind since notwithstanding. -/
def Job.heldStep (j : Job) : Nat × Nat := if j.rewound then j.heldAt.getD (j.step, j.attempt) else (j.step, j.attempt)

/-- `REPLAY_FORCE` (R52): a replay release asked of the root Herald, here or by a Steward packet. That no HOLD at the root Herald gives
`BAD_ARGUMENT` and no answer `TIMEOUT`, and how the packet that asks is laid out, no rule states (DESIGN CHOICE, log 128). -/
def cmdReplayForce : CmdDef :=
  { op := 0x0403, role := .owner, lock := lockPart
    body := fun s c => match s.job c.part with
      | none => s.finish c.mb stNoJob
      | some j =>
        let d : Nat := match (s.part c.part).ordo with
          | some o => match o.groups.find? fun g => g.group == j.rootGroup with
            | some g => j.heraldOf g
            | none => s.hub.devId
          | none => s.hub.devId
        if d = s.hub.devId then
          let (s, st) := s.holdRelease j.rootGroup 2 j.heldStep.2 j.heldStep.1
          s.finish c.mb st
        else
          let pkt : Packet := { destDev := d, destKind := .hub, srcDev := s.hub.devId, srcKind := .hub, kind := PKind.steward, cls := 1, srcPart := c.part,
                                payload := leBytes 1 j.rootGroup ++ leBytes 1 2 ++ leBytes 1 j.heldStep.2 ++ leBytes 5 0 ++ leBytes 8 j.heldStep.1 }
          let s := if (s.mbx c.mb).ext.asked then s else (s.inject pkt).askedOf c.mb
          if (s.mbx c.mb).ext.later then s else s.finish c.mb (((s.mbx c.mb).ext.herald).getD stTimeout) }
/-- `REPLAY_FORCE`; `herald` is the status that the root Herald's device answers; `later`: it has not answered yet. -/
def execReplayForce (t mb : Nat) (buf : Option (List Byte)) (herald : Option Nat) (later : Bool) (s : State) : Out :=
  cmdReplayForce.run t mb { buf, herald, later } s

/-- The non-live copies of the granules flipped since a generation, put back from the log (R26, R28): newest pre-images first. -/
def State.undoLog (s : State) (j : Job) (g : Nat) : State :=
  (j.log.filter fun i => decide (g ≤ i.step)).foldl (fun (s : State) i => s.putBack j i) s

/-- The last flip of a granule before a generation, as the table or a pre-image gives it (R26). -/
def flipBefore (log : List PreImage) (g : Nat) (f : Nat × Option Nat) : Option (Nat × Option Nat) :=
  match f.2 with
  | none => none
  | some n =>
    if n < g then some f
    else (log.find? fun i => 64 * i.page + i.gran == f.1 && decide (i.flip < g)).map fun i => (f.1, some i.flip)

/-- A job at an earlier generation (R28, R30): its masks from the ledger, later records discarded, the step index set. -/
def Job.rewindTo (j : Job) (x : GenRec) (e : Epact) (an : Tbl (BitVec 64)) (ch : Tbl (Nat × Nat × BitVec 32 × BitVec 32)) (hs : Tbl Nat) : Job :=
  let later (r : LedgerRec) : Bool := r.state == .sealed && decide (x.gen ≤ r.step) && decide (r.step < j.step)
  { j.discardPrepared with
    step := x.gen, attempt := 0, live := x.live, lastSealed := x.lrec, digSealed := x.digests, digWorking := x.digests, dirty := [],
    gens := j.gens.filter fun y => decide (y.gen < x.gen), log := j.log.filter fun i => decide (i.step < x.gen),
    flipped := j.flipped.filterMap (flipBefore j.log x.gen)
    ledger := j.ledger.map fun r => if later r.2 then (r.1, { r.2 with state := .discarded }) else r
    epact := e, epactSealed := e, anchors := an, anchorsSealed := an, chanSealed := ch, chanWorking := ch, heralds := hs, heraldsSealed := hs,
    vote := none, voteSent := false, rewound := true, excess := [],
    heldAt := if j.rewound then j.heldAt else some (j.step, j.attempt) }

/-- The bytes of a class of a job's sealed tally, from an offset (R573). -/
def State.sealedClass (s : State) (j : Job) (c off n : Nat) : List Byte :=
  (List.range n).map fun i =>
    let a := off + i
    let page := (pagesOf j.classes c).getD (a / pageBytes) 0
    let gran := a % pageBytes / 4096
    memRead s.mem.dram (s.granAddr j page gran (j.liveSide page gran) + a % 4096)

/-- The Epact record that 16 bytes spell (R418). -/
def epactOfBytes (b : List Byte) : Epact :=
  { draws := BitVec.ofNat 64 (num b 0 8), cursor := BitVec.ofNat 48 (num b 8 6), offset := BitVec.ofNat 16 (num b 14 2) }

/-- The entries of `n` bytes of a class's pages that hold a byte other than zero in the sealed generation. -/
def State.sealedEntries (s : State) (j : Job) (c n : Nat) : List Nat :=
  (pagesOf j.classes c).zipIdx.flatMap fun x => (List.range 64).flatMap fun g =>
    ((s.granSealed j x.1 g).map fun y => (x.2 * pageBytes + 4096 * g + y.1) / n).dedup

/-- Anchors, channel state and Herald devices as the sealed tally holds them (R121, R573). -/
def State.sealedAnchors (s : State) (j : Job) : Tbl (BitVec 64) :=
  (s.sealedEntries j 2 8).foldl (fun t i => Tbl.set 0 i (BitVec.ofNat 64 (ofLe (s.sealedClass j 2 (8 * i) 8))) t) []
/-- The sealed channel state (R573). -/
def State.sealedChanState (s : State) (j : Job) : Tbl (Nat × Nat × BitVec 32 × BitVec 32) :=
  ((s.sealedEntries j 5 16).filter (· < 262144)).foldl (fun t i =>
    let b := s.sealedClass j 5 (16 * i) 16
    Tbl.set (0, 0, 0, 0) i (num b 0 2, num b 2 2, BitVec.ofNat 32 (num b 8 4), BitVec.ofNat 32 (num b 12 4)) t) []
/-- The sealed Herald devices of some groups (R573). -/
def State.sealedHeralds (s : State) (j : Job) (gs : List Nat) : Tbl Nat :=
  gs.foldl (fun t g => Tbl.put g (num (s.sealedClass j 5 (16 * pageBytes + 2 * g) 2) 0 2) t) []

/-- `COMMIT_REWIND` (R28, R430). -/
def cmdCommitRewind : CmdDef :=
  { op := 0x0404, role := .owner, widths := [64], lock := lockPart
    body := fun s c =>
      let p := c.part
      match s.job p with
      | none => s.finish c.mb stNoJob
      | some j =>
        if j.st ≠ .hold then s.finish c.mb stNotPermitted
        else match j.genOf (c.arg 0) with
          | none => s.finish c.mb stNotRetained
          | some x =>
            let s := s.undoLog j x.gen
            let k : Job := { j with live := x.live }
            let e := epactOfBytes (s.sealedClass k 4 0 16)
            ((s.modJob p fun j => j.rewindTo x e (s.sealedAnchors k) (s.sealedChanState k)
              (s.sealedHeralds k (j.heraldsSealed.map (·.1)))).ledgerOut p).finish c.mb stOk }
/-- `COMMIT_REWIND`. -/
def execCommitRewind (t mb : Nat) (buf : Option (List Byte)) (s : State) : Out := cmdCommitRewind.run t mb { buf } s

/-! ## Sites -/

/-- `FENCE_SITE` (R309): at once, or planned. -/
def cmdFenceSite : CmdDef :=
  { op := 0x0501, role := .admin, widths := [16, 8]
    lock := fun s c => match siteOfId (c.arg 0) with
      | some k => s.partOfRegion (keyRegion k)
      | none => none
    body := fun s c => match siteOfId (c.arg 0) with
      | none => s.finish c.mb stBadArgument
      | some k =>
        if 1 < c.arg 1 then s.finish c.mb stBadArgument
        else (if c.arg 1 = 0 then s.fenceNow k 0 2 else s.planFence k 0).finish c.mb stOk }
/-- `FENCE_SITE`. -/
def execFenceSite (t mb : Nat) (buf : Option (List Byte)) (s : State) : Out := cmdFenceSite.run t mb { buf } s

/-- `VIGIL_SET` (R295): in force from the next choice of Vigil sites. -/
def cmdVigilSet : CmdDef :=
  { op := 0x0502, role := .owner, widths := [8, 8], lock := lockPart
    body := fun s c =>
      let g := c.arg 0
      if 64 ≤ g ∨ 4 < c.arg 1 ∨ ¬ bitAt (s.part c.part).regions g then s.finish c.mb stBadArgument
      else
        let s := s.modRegion g fun r => { r with vigilD := c.arg 1 }
        (if (s.job c.part).isNone then s.vigilSelect g else s).finish c.mb stOk }
/-- `VIGIL_SET`. -/
def execVigilSet (t mb : Nat) (buf : Option (List Byte)) (s : State) : Out := cmdVigilSet.run t mb { buf } s

end Sys2Proof.Machine
end

