-- ==== Sys2Proof/Machine/CmdHub.lean ====
section
/-! DEFINITION. Device, mailbox and partition commands: groups 0x01, 0x02 and `EMBER_RUN` (14 R445 to R450, R461, R465; 16 R499 to R501, R507 to
R514, R523 to R526; 17 R542). -/

namespace Sys2Proof.Machine

/-! ## Identity and configuration -/

/-- `IDENTIFY` (R450). -/
def cmdIdentify : CmdDef :=
  { op := 0x0101, role := .free, early := true
    body := fun s c => s.finish c.mb stOk 0 (pack [(16, s.hub.devId), (8, s.fuses.grade), (8, s.fuses.hostOpt), (32, s.fw.1.toNat), (16, s.asvMax),
      (16, s.idWord1 % 65536)]) }
/-- `IDENTIFY`. -/
def execIdentify (t mb : Nat) (buf : Option (List Byte)) (s : State) : Out := cmdIdentify.run t mb { buf } s

/-- `DEVICE_ID_SET` (R450, R501). -/
def cmdDeviceIdSet : CmdDef :=
  { op := 0x0104, role := .admin, widths := [16]
    body := fun s c =>
      if s.jobsMask ≠ 0 then s.finish c.mb stNotPermitted
      else (s.modHub fun h => { h with devId := c.arg 0 }).finish c.mb stOk }
/-- `DEVICE_ID_SET`. -/
def execDeviceIdSet (t mb : Nat) (buf : Option (List Byte)) (s : State) : Out := cmdDeviceIdSet.run t mb { buf } s

/-- `CONFIG_WRITE` (R450, R496, R500): a valid block goes to flash, in force from the next cold boot if its `SEQ` makes it the newest; another is refused
(assumption 28). -/
def cmdConfigWrite : CmdDef :=
  { op := 0x0105, role := .admin
    body := fun s c => match s.bufIn c with
      | (s, none) => s.finish c.mb stBufferFault
      | (s, some b) =>
        if b.length = 4096 ∧ configValid b then ({ s with flash := s.flash.putConfig (configOf b) }).finish c.mb stOk
        else s.finish c.mb stBadArgument }
/-- `CONFIG_WRITE`. -/
def execConfigWrite (t mb : Nat) (buf : Option (List Byte)) (s : State) : Out := cmdConfigWrite.run t mb { buf } s

/-- `FW_HOSTLOAD` (R498, R499): the ROM checks the image; on success start-up goes on from its step 3, or the recovery reset goes on.
Outside host-load mode it is not admitted before READY or while `HALTED` is 1 (R445). `memFail` are the sites whose memory BIST fails in that
start-up. -/
def cmdFwHostload (memFail : List MemFail) : CmdDef :=
  { op := 0x0108, role := .admin, early := true
    body := fun s c =>
      if ¬ s.hub.hostload then s.finish c.mb (if s.hub.ready ∧ ¬ s.hub.halted then stHostloadOnly else stNotReady)
      else match s.bufIn c with
        | (s, none) => s.finish c.mb stBufferFault
        | (s, some b) =>
          let i := imageOf b
          let n := i.length
          if s.imageCheck (some i) ≠ 0 ∨ (b.length ≠ n ∧ b.length ≠ n + 4096) then s.finish c.mb stSignature
          else
            let blk := b.drop n
            let s := (s.startImage i true).finish c.mb stOk
            if s.hub.reset.isSome then (if configValid blk then s.applyConfig (some (configOf blk)) else s)
            else s.bootOn (if configValid blk then some (configOf blk) else s.flash.newest) memFail }
/-- `FW_HOSTLOAD`. -/
def execFwHostload (t mb : Nat) (buf : Option (List Byte)) (memFail : List MemFail) (s : State) : Out :=
  (cmdFwHostload memFail).run t mb { buf } s

/-! ## Mailbox roles and event settings -/

/-- The partition whose owner credential is given (R447). -/
def State.credPart (s : State) (cred : Nat) : Option Nat :=
  (List.range 16).find? fun p => (s.part p).exist && (s.part p).cred.toNat == cred

/-- `MAILBOX_CLAIM` (R447, R450). A claim that takes the place of an owner's ends the session of that claim (R534). -/
def cmdMailboxClaim : CmdDef :=
  { op := 0x0106, role := .claim, early := true, widths := [8, 8, 128]
    body := fun s c =>
      if c.arg 1 = 2 then
        match s.credPart (c.arg 2) with
        | none => s.finish c.mb stNoCredential
        | some p =>
          if c.mb = 0 then s.finish c.mb stNotPermitted
          else (s.modMb c.mb fun m => { m with role := 2, rolePart := p, session := none }).finish c.mb stOk p
      else if c.arg 1 ≠ 1 ∨ 23 < c.arg 0 then s.finish c.mb stBadArgument
      else if (s.mbx c.mb).role ≠ 1 then s.finish c.mb stNoCredential
      else (s.modMb (c.arg 0) fun m => { m with role := 1, rolePart := 0, session := if m.role = 2 then none else m.session }).finish c.mb stOk }
/-- `MAILBOX_CLAIM`. -/
def execMailboxClaim (t mb : Nat) (buf : Option (List Byte)) (s : State) : Out := cmdMailboxClaim.run t mb { buf } s

/-- `MAILBOX_RELEASE` (R450, R534). -/
def cmdMailboxRelease : CmdDef :=
  { op := 0x0107, role := .any
    body := fun s c =>
      if c.mb = 0 then s.finish c.mb stNotPermitted
      else (s.modMb c.mb fun m => { m with role := 0, rolePart := 0, session := none }).finish c.mb stOk }
/-- `MAILBOX_RELEASE`. -/
def execMailboxRelease (t mb : Nat) (buf : Option (List Byte)) (s : State) : Out := cmdMailboxRelease.run t mb { buf } s

/-- `EVENT_MASK_SET` (R450, R461). -/
def cmdEventMaskSet : CmdDef :=
  { op := 0x0109, role := .admin, widths := [8, 8, 64]
    body := fun s c =>
      let key := 256 * c.arg 0 + c.arg 1
      if 2 < c.arg 0 then s.finish c.mb stBadArgument
      else ({ s with ev := { s.ev with masks := Tbl.set (maskDefault key) key (BitVec.ofNat 64 (c.arg 2)) s.ev.masks } }).finish c.mb stOk }
/-- `EVENT_MASK_SET`. -/
def execEventMaskSet (t mb : Nat) (buf : Option (List Byte)) (s : State) : Out := cmdEventMaskSet.run t mb { buf } s

/-- `EVENT_STREAM_SET` (R450, R465). -/
def cmdEventStreamSet : CmdDef :=
  { op := 0x010A, role := .admin, widths := [8, 8, 48]
    body := fun s c =>
      if 1 < c.arg 0 ∨ 1 < c.arg 1 then s.finish c.mb stBadArgument
      else (s.modMgmt (c.arg 0) fun x => { x with stream := c.arg 1 == 1, destMac := BitVec.ofNat 48 (c.arg 2) }).finish c.mb stOk }
/-- `EVENT_STREAM_SET`. -/
def execEventStreamSet (t mb : Nat) (buf : Option (List Byte)) (s : State) : Out := cmdEventStreamSet.run t mb { buf } s

/-! ## The Ember scan and shutdown (R523 to R526) -/

/-- The sites of a region that the Ember scan tests (R524). -/
def State.scanSites (s : State) (g : Nat) : List Nat :=
  (sitesOfRegion g).filter fun k => !(decide ((s.site k).st ∈ [SiteSt.defect, .fenced, .dark]))

/-- The signature observed at a site, 0 when none is listed. -/
def sigOf (sigs : List (Nat × BitVec 64)) (k : Nat) : BitVec 64 := match sigs.find? fun x => x.1 == k with
  | some x => x.2
  | none => 0

/-- Whether a site's observed signature differs from its golden value; a site that the world does not list answers the golden value. -/
def State.scanFails (s : State) (sigs : List (Nat × BitVec 64)) (k : Nat) : Bool := match sigs.find? (·.1 == k) with
  | some (_, v) => v != Tbl.get 0 s.fuses.golden k
  | none => false

/-- `EMBER_DONE` (R527): the regions that ran and the number of sites that failed. -/
def State.emberDone (s : State) (run : BitVec 64) (fails : Nat) : State := s.event 0x0113 0xFF [(64, run.toNat), (16, fails)]

/-- A scan leaves the contents of a slice undefined (R524): a free value. -/
def State.scanned (s : State) (k : Nat) : State :=
  let (v, s) := s.draw 6291456
  s.modSite k fun x => { x with mu := { x.mu with slice := memWriteN [] 0 (leBytes 786432 v.toNat) } }

/-- The Ember record of a scan of every good region (R524, R525): `slow` are the regions that exceed their budget. -/
def State.emberScan (s : State) (sigs : List (Nat × BitVec 64)) (slow : List Nat) : State :=
  let good := (List.range 64).filter s.goodRegion
  let ran := good.filter fun g => !slow.contains g
  let fails := (ran.flatMap s.scanSites).filter (s.scanFails sigs)
  let e : EmberRec := { seq := ((s.flash.ember.map (·.seq)).getD 0) + 1, boot := s.flash.boot.boots, partialScan := ran.length != good.length, ft := s.now,
                        run := BitVec.ofNat 64 (ran.map (2 ^ ·)).sum, fails := fails.map siteId }
  ((good.flatMap s.scanSites).foldl State.scanned { s with flash := { s.flash with ember := some e } }).emberDone e.run fails.length

/-- `SHUTDOWN` (R523). -/
def cmdShutdown (sigs : List (Nat × BitVec 64)) (slow : List Nat) : CmdDef :=
  { op := 0x0102, role := .admin, early := true, widths := [8]
    body := fun s c =>
      if 1 < c.arg 0 then s.finish c.mb stBadArgument
      else if s.jobsMask ≠ 0 then s.finish c.mb stJobBound
      else
        let s := (s.modHub fun h => { h with shutdown := true }).errDrain
        let s := { s with flash := s.flash.ledgerFlush }
        let s := s.eraseSession 2
        let s := if c.arg 0 = 1 then s.emberScan sigs slow else s
        (s.finish c.mb stOk).emit .pmbusOff }
/-- `SHUTDOWN`. -/
def execShutdown (t mb : Nat) (buf : Option (List Byte)) (sigs : List (Nat × BitVec 64)) (slow : List Nat) (s : State) : Out :=
  (cmdShutdown sigs slow).run t mb { buf } s

/-- Scan one region under `EMBER_RUN`, then sweep it (R526); a region that exceeds its budget has no result (R524). -/
def State.emberRegion (s : State) (sigs : List (Nat × BitVec 64)) (ran : Bool) (g : Nat) : State :=
  let ks := s.scanSites g
  let s := if ran then ks.foldl (fun (s : State) k =>
      if s.scanFails sigs k then
        (s.reportSite 0x0304 k 0xFFFF [(64, (sigOf sigs k).toNat)]).fenceNow k 0x0304 0
      else s.modSite k fun x => { x with untested := false }) s
    else s
  s.modSites ks fun _ x => if x.st = .fenced then x else
    let y := sweepSite x
    { y with mu := { y.mu with swept := true } }

/-- `EMBER_RUN` (R526). -/
def cmdEmberRun (sigs : List (Nat × BitVec 64)) (slow : List Nat) : CmdDef :=
  { op := 0x0D01, role := .admin, widths := [64]
    body := fun s c =>
      let gs := (List.range 64).filter (bitOn (c.arg 0))
      let busy : Bool := gs.any fun g => match s.partOfRegion g with
        | some p => (s.job p).isSome
        | none => false
      if busy then s.finish c.mb stJobBound
      else
        let gs := gs.filter fun g => (s.region g).logic == .on
        let ran := gs.filter fun g => !slow.contains g
        let fails := (ran.flatMap s.scanSites).filter (s.scanFails sigs)
        let s := gs.foldl (fun (s : State) g => s.emberRegion sigs (ran.contains g) g) s
        (s.emberDone (BitVec.ofNat 64 (ran.map (2 ^ ·)).sum) fails.length).finish c.mb stOk }
/-- `EMBER_RUN`. -/
def execEmberRun (t mb : Nat) (buf : Option (List Byte)) (sigs : List (Nat × BitVec 64)) (slow : List Nat) (s : State) : Out :=
  (cmdEmberRun sigs slow).run t mb { buf } s

/-! ## Resets (R507 to R514) -/

/-- The rank of a reset (R509). -/
def resetRank : ResetKind → Nat
  | .partition => 0
  | .jubilee => 1
  | .recovery => 2
  | .cold => 3

/-- A device reset commanded by `RESET` (R509): behind a running reset of equal or higher rank it waits, else it starts. -/
def State.resetCmd (s : State) (kind : ResetKind) (mb : Nat) : State :=
  match s.hub.reset with
  | some (k, _, _) => if resetRank kind ≤ resetRank k then s else s.deviceReset kind (some mb) true
  | none => s.deviceReset kind (some mb) true

/-- `RESET` kind 1 (R513). -/
def cmdResetJubilee : CmdDef :=
  { op := 0x0103, role := .admin, early := true, widths := [8], sel := fun d => bitsN d.args 0 8 == 1
    body := fun s c => if s.hub.shutdown then s.finish c.mb stNotPermitted else s.resetCmd .jubilee c.mb }
/-- `RESET` kind 1. -/
def execResetJubilee (t mb : Nat) (buf : Option (List Byte)) (s : State) : Out := cmdResetJubilee.run t mb { buf } s

/-- `RESET` kind 2 (R479, R514, R542): `THERMAL_HOT` while a tripped device has a sensor at 95 °C or more, `ALARM_ACTIVE` while an alarm
source asserts; otherwise the trip and `HALTED` clear. `asserting` are the glitch and debug sources that assert as the command runs. -/
def cmdResetRecovery (asserting : List Nat) : CmdDef :=
  { op := 0x0103, role := .admin, early := true, widths := [8], sel := fun d => bitsN d.args 0 8 == 2
    body := fun s c =>
      if s.hub.shutdown then s.finish c.mb stNotPermitted
      else if s.hub.tripped ∧ (List.range 256).any (s.hot · 95) then s.finish c.mb 0x0B03
      else if (List.range 6).any fun i => (s.alarmOf i).asserts || asserting.contains i then s.finish c.mb 0x0C05
      else
        let s := (s.modHub fun h => { h with tripped := false }).setHalted false
        let s := { s with pins := { s.pins with thermtripN := true } }
        let s := (List.range 64).foldl (fun (s : State) g => s.modRegion g fun r => { r with clocksOff := false }) s
        s.resetCmd .recovery c.mb }
/-- `RESET` kind 2. -/
def execResetRecovery (t mb : Nat) (found : RecoveryIn) (s : State) : Out :=
  (cmdResetRecovery found.asserting).run t mb { buf := found.buf } s

/-- `RESET` kind 3 (R512): it waits behind a reset that covers its partition (R509); any other `KIND` is a bad argument. -/
def cmdResetPartition : CmdDef :=
  { op := 0x0103, role := .admin, early := true, widths := [8], sel := fun d => bitsN d.args 0 8 ∉ [1, 2]
    body := fun s c =>
      if c.arg 0 ≠ 3 ∨ 16 ≤ c.part ∨ ¬ (s.part c.part).exist then s.finish c.mb stBadArgument
      else if s.hub.shutdown then s.finish c.mb stNotPermitted
      else if s.hub.reset.isSome ∨ (s.part c.part).underReset then s
      else s.partReset c.part c.mb }
/-- `RESET` kind 3. -/
def execResetPartition (t mb : Nat) (buf : Option (List Byte)) (s : State) : Out := cmdResetPartition.run t mb { buf } s

/-! ## Partitions -/

/-- `PARTITION_CREATE` (R447, R450): the lowest free partition; the credential is a random number, returned once. -/
def cmdPartitionCreate : CmdDef :=
  { op := 0x0201, role := .admin, widths := [64]
    body := fun s c =>
      let r := c.arg 0
      if r = 0 then s.finish c.mb stBadArgument
      else if (List.range 64).any fun g => bitOn r g && (s.partOfRegion g).isSome then s.finish c.mb stNotPermitted
      else match (List.range 16).find? fun p => !(s.part p).exist with
        | none => s.finish c.mb stNotPermitted
        | some p =>
          let (cred, s) := s.draw 128
          (s.modPart p fun x => { exist := true, regions := BitVec.ofNat 64 r, cred, epoch := x.epoch, harvested := x.harvested, lock := x.lock, lockWait := x.lockWait,
                                     twin := { mirrors := x.twin.mirrors } }).finish c.mb stOk p
            cred.toNat }
/-- `PARTITION_CREATE`. -/
def execPartitionCreate (t mb : Nat) (buf : Option (List Byte)) (s : State) : Out := cmdPartitionCreate.run t mb { buf } s

/-- `PARTITION_DESTROY` (R447, R450): its credential and claims end, its Almanac entries, pages and windows are freed, its twin is unbound
(assumption 29). -/
def cmdPartitionDestroy : CmdDef :=
  { op := 0x0202, role := .admin, part := true, lock := lockPart
    body := fun s c =>
      let p := c.part
      let x := s.part p
      if x.job.isSome then s.finish c.mb stJobBound
      else
        let s := if x.twin.st = .unbound then s else (s.emit (.twinUnbind x.twin.peerDev x.twin.peerPart)).twinFree p
        let s := s.unmapPages ((s.mem.map.filter fun e => e.2.owner == p && e.2.kind != .unmapped && e.2.kind != .system).map (·.1) ++ x.imagePages)
        let s := { s with mem := { s.mem with wins := s.mem.wins.filter fun e => e.2.owner != p },
                          alm := { s.alm with active := s.alm.active.filter fun e => e.2.part != p,
                                              shadow := s.alm.shadow.filter fun e => e.2.part != p } }
        let s := (s.modSites (s.sitesOf p) fun _ y => { y with mu := { y.mu with windows := [] } }).setDown p false
        let s := (List.range 24).foldl (fun (s : State) m =>
          if (s.mbx m).role = 2 ∧ (s.mbx m).rolePart = p then s.modMb m fun y => { y with role := 0, rolePart := 0, session := none } else s) s
        (s.modPart p fun y => { epoch := y.epoch, harvested := y.harvested, lock := y.lock, lockWait := y.lockWait, twin := { mirrors := y.twin.mirrors } }).finish c.mb stOk }
/-- `PARTITION_DESTROY`. -/
def execPartitionDestroy (t mb : Nat) (buf : Option (List Byte)) (s : State) : Out := cmdPartitionDestroy.run t mb { buf } s

/-- `ORDO_UNLOAD` (R450). -/
def cmdOrdoUnload : CmdDef :=
  { op := 0x0204, role := .owner, lock := lockPart
    body := fun s c =>
      if (s.job c.part).isSome then s.finish c.mb stJobBound
      else (((s.dropRestore c.part).unmapPages (s.part c.part).imagePages).modPart c.part fun x =>
        { x with ordo := none, imagePages := [] }).finish c.mb stOk }
/-- `ORDO_UNLOAD`. -/
def execOrdoUnload (t mb : Nat) (buf : Option (List Byte)) (s : State) : Out := cmdOrdoUnload.run t mb { buf } s

/-- `INTERCALARY_SET` (R284, R450). -/
def cmdIntercalarySet : CmdDef :=
  { op := 0x0D02, role := .owner, widths := [8]
    body := fun s c =>
      if 7 < c.arg 0 then s.finish c.mb stBadArgument
      else (s.modPart c.part fun x => { x with work := BitVec.ofNat 3 (c.arg 0) }).finish c.mb stOk }
/-- `INTERCALARY_SET`. -/
def execIntercalarySet (t mb : Nat) (buf : Option (List Byte)) (s : State) : Out := cmdIntercalarySet.run t mb { buf } s

end Sys2Proof.Machine
end

