-- ==== Sys2Proof/Machine/OrdoCheck.lean ====
section
/-! DEFINITION. Checks 7 to 9 of `ORDO_LOAD` on what the units of every tile hold in every phase: configuration words, port bindings,
address generators and their hulls, channels, the acyclic rule, route headroom, credit bound and FIFO pool (02 R72, R73; 03 R83 to
R121, R571, R572; 04 R128 to R145, R155; 05 R177 to R186; 06 R214 to R216; 08 R261). -/

namespace Sys2Proof.Machine

/-- What the units of one tile hold in one phase: `x` is the configuration of R153, `o` the Ordo. -/
structure TileImg where
  tile : Nat := 0
  x : Site := {}
  deriving DecidableEq, Repr

/-- A bit of a unit's word that must be zero. -/
def Site.zeroBits (x : Site) (u : Nat) (rs : List (Nat × Nat)) : Bool := rs.all fun r => x.cfg u r.1 r.2 == 0

/-! ## The patch and the vector stages -/

/-- The operand pairs of R98. -/
def pairOk (a b : Nat) : Bool :=
  decide ((a, b) ∈ [(0, 0), (1, 1), (2, 2), (0xA, 0xA), (0xB, 0xB)]) || (decide (a ∈ [3, 4]) && decide (b ∈ [3, 4])) ||
    (decide (5 ≤ a ∧ a ≤ 9) && decide (5 ≤ b ∧ b ≤ 9))

/-- Whether a `PATCH_CFG` breaks R83, R98, R104 or R182: the formats it names count in every `MODE`. -/
def patchBad (x : Site) : Bool :=
  let f := x.cfg 0
  let mode := f 0 2
  let a := f 2 4
  let b := f 6 4
  let acc := f 10 2
  let dst := f 12 2
  let ws := f 48 10
  mode == 3 || acc == 3 || dst == 3 || !pairOk a b ||
    (if mode = 0 then (x.agBound 2 0).isSome
     else (acc == 2 && mode != 1) || f 16 16 == 0 || (f 32 8 != 0 && !decide (a ∈ [3, 4])) ||
      (f 40 8 != 0 && !decide (b ∈ [3, 4])) || (if mode = 2 then !decide (1 ≤ ws ∧ ws ≤ 512) else ws != 0) ||
      (x.agBound 1 0).isNone || (x.agBound 1 1).isNone || (acc == 1 && (x.agBound 1 2).isNone) ||
      ((dst == 1 || dst == 2) != (x.agBound 2 0).isSome))

/-- The operations of R108. -/
def stageOps : List Nat := (List.range 0xE).map id ++ (List.range 7).map (0x10 + ·) ++ (List.range 9).map (0x18 + ·)

/-- Whether the word of a stage draws numbers (R96). -/
def drawsWord (w : Nat) : Bool := bitsN w 22 2 == 1 || bitsN w 0 6 == 0x16

/-- Whether the word of stage `n` breaks R83, R91, R96, R105, R107, R108 or R113; a word at its reset value holds. -/
def stageBad (x : Site) (n : Nat) (keys : List Nat) : Bool :=
  let u := 0x00F + n
  let w := (x.unit u).active.toNat
  let op := bitsN w 0 6
  let fmt := bitsN w 24 4
  if (x.unit u).active = resetWord u then false
  else bitsN w 32 16 == 0xFFFF || !stageOps.contains op || (decide (0x18 ≤ op) && n != 4) ||
    [6, 10, 14].any (fun i => decide (0xE ≤ bitsN w i 4)) || bitsN w 22 2 == 3 || decide (0xE ≤ fmt) ||
    (decide (op ∈ [0x10, 0x15]) && fmt == 0xD) ||
    (if bitOn w 30 then !decide (op ∈ [0x10, 0x14, 0x15]) && fmt != 1 + bitsN w 31 1 else bitOn w 31 || bitsN w 112 16 != 0) ||
    (op == 0x09 && decide (7 ≤ bitsN w 64 32)) || (drawsWord w && !keys.contains (bitsN w 32 16))

/-- Whether an active pipeline has no streamed input or selects one that is not bound (R572). -/
def pipeBad (x : Site) : Bool :=
  x.pipeActive && (x.pipeInputs.isEmpty || x.pipeInputs.any fun c =>
    (c == strV0 && (x.agBound 1 3).isNone) || (c == strV1 && (x.agBound 1 4).isNone))

/-- The stream IDs of a tile's words that draw, one for each word that its blocks give (R96). -/
def drawnStreams (blocks : List CfgBlock) (tile : Nat) : List Nat :=
  ((blocks.filter (·.tile == tile)).flatMap (·.recs)).filterMap fun r =>
    if 0x010 ≤ r.unit ∧ r.unit ≤ 0x015 ∧ r.op = 0 ∧ drawsWord r.word.toNat then some (bitsN r.word.toNat 32 16) else none

/-! ## Address generators -/

/-- Every iteration of a program, in order (R178). -/
def agIters (cfg : Nat) : List AgIdx :=
  (List.range (agCount cfg 4)).flatMap fun i4 => (List.range (agCount cfg 3)).flatMap fun i3 => (List.range (agCount cfg 2)).flatMap fun i2 =>
    (List.range (agCount cfg 1)).flatMap fun i1 => (List.range (agCount cfg 0)).map fun i0 => { i0, i1, i2, i3, i4 }

/-- The exact address of an iteration (R178). -/
def agAddrZ (cfg : Nat) (i : AgIdx) : Int :=
  let a : Int := (bitsN cfg 32 20 : Int) + (((AgList i).zipIdx).map fun x => (x.1 : Int) * agStride cfg x.2).sum
  let base : Int := bitsN cfg 64 20
  let size : Int := bitsN cfg 84 20
  if size = 0 then a else base + (a - base) % size

/-- The exact scale address of an iteration (R178). -/
def agScaleZ (cfg : Nat) (i : AgIdx) : Int :=
  (bitsN cfg 384 20 : Int) + (((AgList i).zipIdx).map fun x => (x.1 : Int) * agSStride cfg x.2).sum

/-- Bytes from the address of a vector to its last byte and beyond it (R179). -/
def agSpan (cfg : Nat) : Nat :=
  let v := vlenBytes (bitsN cfg 11 2)
  let e := max 1 (fmtBits (bitsN cfg 3 4) / 8)
  if bitOn cfg 13 then 64 * (v / e - 1) + e else if bitOn cfg 14 then e else v

/-- Whether a vector at an address keeps the data area and the alignment of R179. -/
def vecOk (cfg : Nat) (a : Int) : Bool :=
  let v := vlenBytes (bitsN cfg 11 2)
  let e := max 1 (fmtBits (bitsN cfg 3 4) / 8)
  let n := a.toNat
  decide (0 ≤ a) && decide (n + agSpan cfg ≤ 0xBA000) &&
    (if bitOn cfg 13 then n % e == 0 && decide (n % 2048 / 64 + v / e ≤ 32) else if bitOn cfg 14 then n % e == 0 else n % v == 0)

/-- What the lanes of a flow hold, as far as the configuration tells: floating-point values, INT32 values, A64 values, or either of the first two, which
only the run of the phase tells (a stage register). -/
inductive LaneType where
  | float | int | a64 | either
  deriving DecidableEq, Repr

/-- The type of a streamed input (R105, R571). -/
def Site.streamType (x : Site) (c : Nat) : LaneType := if x.streamA64 c then .a64 else if x.streamInt c then .int else .float

/-- The type of an operand that a selector names (R107), `prev` being that of the previous-stage input. -/
def Site.selType (x : Site) (prev : LaneType) (sel : Nat) : LaneType :=
  if sel = 0 then prev else if sel = 1 then x.streamType strV0 else if sel = 2 then x.streamType strV1
  else if 4 ≤ sel ∧ sel ≤ 0xB then .either else if sel = 0xC then .int else .float

/-- The type of an arithmetic result of some operands: INT32 with one INT32 operand. -/
def mixType (ts : List LaneType) : LaneType := if ts.contains .int then .int else if ts.contains .either then .either else .float

/-- The type of what stage `n` passes on (R108). -/
def Site.stageType (x : Site) (prev : LaneType) (n : Nat) : LaneType :=
  let op := x.stOp n
  let fmt := x.cfg (0x00F + n) 24 4
  let ts := (x.stSels n).map (x.selType prev)
  if op = 0x14 then .a64
  else if op = 0x00 then ts.headD .float
  else if op = 0x10 ∨ op = 0x15 then (if fmt = 0xB ∨ fmt = 0xC then .int else .float)
  else if op = 0x09 then .float
  else mixType (if op = 0x0A then ts.take 2 else ts)

/-- The type of what stage 6 hands out. -/
def Site.pipeType (x : Site) : LaneType := (List.range 6).foldl (fun t i => x.stageType t (i + 1)) (x.streamType x.prevStream)

/-- Whether `fmt` is the output format of stage 6 (R571): `OUT_FMT` after `CVT` and `FROM_A64`, else the lane format, INT32 for INT32 lanes and A64 for A64 values. -/
def Site.stage6Ok (x : Site) (fmt : Nat) : Bool :=
  let w := (x.unit 0x015).active.toNat
  let op := bitsN w 0 6
  if op = 0x10 ∨ op = 0x15 then fmt == bitsN w 24 4
  else match x.pipeType with
    | .a64 => fmt == 0xD
    | .int => fmt == (if bitOn w 30 then laneFmt w else 0xC)
    | .float => fmt == laneFmt w
    | .either => fmt == laneFmt w || (fmt == 0xC && !bitOn w 30)

/-- Whether a stream program breaks R571: element count, widening, and the output format of stage 6. -/
def streamBad (x : Site) (cfg : Nat) : Bool :=
  let fmt := bitsN cfg 3 4
  let v := vlenBytes (bitsN cfg 11 2)
  let read := bitsN cfg 0 3 == 1
  let w := (x.unit (if read then x.streamStage (bitsN cfg 7 4) else 0x015)).active.toNat
  if fmt = 0xD then v != 64 || (!read && !x.stage6Ok fmt)
  else if isMx fmt then read || !x.stage6Ok fmt || bitsN cfg 376 6 != 1 || decide (v * 8 < 32 * fmtBits fmt)
  else v * 8 != laneN w * fmtBits fmt ||
    (if read then !(if bitOn w 30 then fmt == laneFmt w || decide (fmt ∈ [3, 4]) else decide (fmt ≤ 4 ∨ fmt = 0xB ∨ fmt = 0xC))
     else !x.stage6Ok fmt)

/-- Elements of K that stand side by side in the stream of a patch operand: one for each row of A (each row that streams, in weight-stationary mode) or
column of B (R98, R99). -/
def Site.kLines (x : Site) (port : Nat) : Nat :=
  if x.cfg 0 0 2 = 2 then (if port = 0 then max 1 (x.cfg 0 48 10) else 16)
  else if port = 0 then (patchGeom (x.cfg 0 2 4)).1 else (patchGeom (x.cfg 0 2 4)).2.1

/-- Whether address generator `n` breaks R103, R177, R181 to R184, R261 or R571. -/
def agBad (x : Site) (n : Nat) (discard : BitVec 256) : Bool :=
  let u := 0x020 + n
  let cfg := (x.unit u).active.toNat
  let mode := bitsN cfg 0 3
  let fmt := bitsN cfg 3 4
  let port := bitsN cfg 7 4
  let v := vlenBytes (bitsN cfg 11 2)
  let col := bitOn cfg 13
  let bc := bitOn cfg 14
  let nsc := bitsN cfg 376 6
  let wb := bitsN cfg 64 20
  let ws := bitsN cfg 84 20
  let its := agIters cfg
  decide (4 < mode) || decide (0xE ≤ fmt) || !x.zeroBits u [(17, 7), (52, 12), (108, 20), (382, 2), (404, 12), (496, 16)] ||
    (mode != 0 &&
      (decide ((if mode = 1 then 8 else if mode = 2 then 5 else 0) < port) || (decide (mode ≤ 2) &&
          (List.range 4).any fun m => m != n && x.agMode m == mode && x.agPort m == port) ||
        (v == 256 && decide (mode ≤ 2)) || (col && bc) || (bc && mode != 1) || ((col || bc) && decide (fmtBits fmt < 8)) ||
        (List.range 5).any (fun l => agCount cfg l == 0) || decide (4 < bitsN cfg 104 3) ||
        decide (agCount cfg (bitsN cfg 104 3) ≤ bitsN cfg 360 16) || decide (32 < nsc) ||
        (if isMx fmt then (mode == 1 && (decide (1 < port) || nsc == 0)) else nsc != 0) ||
        (mode == 1 && isMx fmt && its.length * v * 8 % (32 * x.kLines port * fmtBits fmt) != 0) ||
        (ws != 0 && (decide (0xBA000 < wb + ws) || ws % v != 0)) || its.any (fun i => !vecOk cfg (agAddrZ cfg i)) ||
        (mode == 4 && its.any fun i => !vecOk cfg (agAddrZ cfg i + bitsZ cfg 128 32)) ||
        (nsc != 0 && its.any fun i => !decide (0 ≤ agScaleZ cfg i ∧ agScaleZ cfg i + nsc ≤ 0xBA000)) ||
        (mode == 2 && bitOn cfg 15 != bitAt discard (bitsN cfg 24 8)) ||
        ((mode == 1 && (port == 3 || port == 4)) || (mode == 2 && port == 1)) && streamBad x cfg))

/-- A hull (R185): the generator, 0 read, 1 write, 2 scales read, 3 scales written, and the byte range. -/
structure Hull where
  ag : Nat := 0
  kind : Nat := 0
  lo : Nat := 0
  hi : Nat := 0
  deriving DecidableEq, Repr

/-- The smallest range over accesses of `n` bytes at given addresses; empty for none. -/
def hullOf (ag kind n : Nat) (as : List Int) : List Hull :=
  match as.map Int.toNat with
  | [] => []
  | a :: rest => [{ ag, kind, lo := rest.foldl min a, hi := rest.foldl max a + n }]

/-- Bytes from the address of a vector to the last byte that a program writes there and beyond it (R185): of a block in a microscaling format from stage 6
the packed bytes alone (R571). -/
def agWriteSpan (cfg : Nat) : Nat :=
  let fmt := bitsN cfg 3 4
  if bitsN cfg 0 3 = 2 ∧ bitsN cfg 7 4 = 1 ∧ isMx fmt then
    let v := min (vlenBytes (bitsN cfg 11 2)) (4 * fmtBits fmt)
    if bitOn cfg 13 then 64 * (v - 1) + 1 else v
  else agSpan cfg

/-- The hulls of the programs of a tile (R185): a program with `DISCARD` writes no byte (R186), and fill and copy programs move no scale bytes (log 151). -/
def hulls (x : Site) : List Hull :=
  (List.range 4).flatMap fun n =>
    let cfg := (x.unit (0x020 + n)).active.toNat
    let mode := bitsN cfg 0 3
    let its := (agIters cfg).filter fun i => !agPadded cfg i
    let at' := its.map (agAddrZ cfg)
    let nsc := bitsN cfg 376 6
    if mode = 0 ∨ 4 < mode ∨ (mode = 2 ∧ bitOn cfg 15) then []
    else (if mode = 1 ∨ mode = 4 then hullOf n 0 (agSpan cfg) at' else []) ++
      (if mode = 2 ∨ mode = 3 then hullOf n 1 (agWriteSpan cfg) at' else []) ++
      (if mode = 4 then hullOf n 1 (agSpan cfg) (at'.map (· + bitsZ cfg 128 32)) else []) ++
      (if nsc = 0 ∨ 3 ≤ mode then [] else hullOf n (if mode = 1 then 2 else 3) nsc (its.map (agScaleZ cfg)))

/-- Whether two ranges intersect. -/
def meet (a b c d : Nat) : Bool := decide (a < d ∧ c < b)

/-- The first two generators whose hulls meet against R185. -/
def hullClash (x : Site) : Option (Nat × Nat) :=
  let hs := hulls x
  hs.findSome? fun d =>
    if d.kind % 2 = 0 then none
    else (hs.find? fun h => h != d && meet d.lo d.hi h.lo h.hi && !(h.ag == d.ag && x.agMode d.ag == 4 && d.kind == 1 && h.kind == 0)).map fun h => (d.ag, h.ag)

/-! ## Ports, counters and steering units -/

/-- Consumer codes that a plane allows (R130). -/
def ejCodeOk (plane c : Nat) : Bool := c == 0 || c == 5 || c == 7 || (decide (1 ≤ c ∧ c ≤ 4) && decide (plane ≤ 1)) || (c == 6 && plane != 0)

/-- Producer codes that a plane allows (R130). -/
def inCodeOk (plane c : Nat) : Bool :=
  c == 0 || c == 8 || (c == 1 && plane == 0) || (decide (2 ≤ c ∧ c ≤ 6) && decide (plane ≤ 1)) || (c == 7 && plane != 0)

/-- The ports that steering units and counters name: unit, plane, 0 ejection or 1 injection, port (R131, R141, R145). A counter names its `OUT_C` port even
where its three tags are all 0xF, which no rule says (DESIGN CHOICE, log 96). -/
def namedPorts (x : Site) : List (Nat × Nat × Nat × Nat) :=
  ((List.range 8).flatMap fun n =>
    let u := 0x040 + n
    let kind := x.cfg u 0 3
    let dp := x.cfg u 6 1
    if kind = 0 then []
    else ([(u, if x.cfg u 5 1 = 1 then 1 else 2, 0, x.cfg u 9 3)] ++
      ((List.range (if kind = 1 ∨ kind = 2 then x.cfg u 3 2 + 1 else 1)).map fun i => (u, dp, 0, x.cfg u (12 + 3 * i) 3)) ++
      ((List.range (if kind = 5 then x.cfg u 3 2 + 1 else 1)).map fun i => (u, dp, 1, x.cfg u (24 + 2 * i) 2))).dedup) ++
  (List.range 8).flatMap fun n =>
    let u := 0x030 + n
    let m := x.cfg u 96 3
    if m = 0 then []
    else (if m = 2 then [(u, 2, 0, x.cfg u 116 3)] else if m = 3 then [(u, 1, 0, x.cfg u 116 3)] else []) ++ [(u, 2, 1, x.cfg u 119 2)] ++
      (if x.cfg u 102 1 = 1 then [(u, 1, 1, x.cfg u 121 2)] else [])

/-- The code that a unit's port must carry (R130). -/
def codeOf (u dir : Nat) : Nat := if 0x040 ≤ u then 5 + dir else 6 + dir

/-- Whether a counter breaks R141 or R142. -/
def counterBad (x : Site) (n : Nat) : Bool :=
  let u := 0x030 + n
  let m := x.cfg u 96 3
  let w := (x.unit u).active.toNat
  let a := bitsZ w 0 32
  let d := bitsZ w 32 32
  let l := bitsZ w 64 32
  let next (i : Nat) : Nat := if x.cfg (0x030 + i) 96 3 = 4 then x.cfg (0x030 + i) 99 3 else 8
  decide (4 < m) ||
    (m != 0 && (d == 0 || (if 0 < d then decide (l ≤ a) else decide (a ≤ l)) || bitsN w 128 32 == 0 ||
      (m == 4 && ((List.range 8).foldl (fun (acc : Nat × Bool) _ => let i := if acc.1 < 8 then next acc.1 else 8
        (i, acc.2 || i == n)) (n, false)).2)))

/-- Whether a steering unit breaks R145. -/
def steerBad (x : Site) (n : Nat) : Bool :=
  let u := 0x040 + n
  let kind := x.cfg u 0 3
  decide (5 < kind) || (decide (kind ∈ [3, 4]) && x.cfg u 3 2 != 0)

/-- Whether a port of a plane is used by a route of the phase. -/
def portUsed (rs : List Route) (tile plane dir p : Nat) : Bool :=
  rs.any fun r => r.plane == plane && (if dir = 1 then r.src == tile && r.port == p else r.dests.contains (tile, p))

/-- The first port of a tile that breaks R130, R131 or R182: plane and port. -/
def portBad (x : Site) (rs : List Route) (tile : Nat) : Option (Nat × Nat) :=
  let named := namedPorts x
  (List.range 3).findSome? fun q =>
    let one (dir p : Nat) : Bool :=
      let c := if dir = 1 then x.inCode 0 q p else x.ejCode 0 q p
      let who := named.filter fun y => y.2.1 == q && y.2.2.1 == dir && y.2.2.2 == p
      !(if dir = 1 then inCodeOk q c else ejCodeOk q c) || (c != 0) != portUsed rs tile q dir p || decide (2 ≤ who.length) ||
        who.any (fun y => codeOf y.1 dir != c) ||
        (if dir = 1 then decide (2 ≤ (rs.filter fun r => r.plane == q && r.src == tile && r.port == p).length) ||
          (decide (2 ≤ c ∧ c ≤ 5) && (x.agBound 1 (3 + c)).isNone)
         else decide (2 ≤ ((rs.filter (·.plane == q)).flatMap (·.dests)).count (tile, p)) || (decide (1 ≤ c ∧ c ≤ 4) && (x.agBound 2 (1 + c)).isNone))
    match (List.range 8).find? (one 0) with
      | some p => some (q, p)
      | none => ((List.range 4).find? (one 1)).map fun p => (q, p)

/-- A fabric program whose FI or FO has no bound port (R182). -/
def fabricUnbound (x : Site) : Option Nat :=
  (List.range 4).find? fun n =>
    let p := x.agPort n
    (x.agMode n == 1 && decide (5 ≤ p ∧ p ≤ 8) && (x.inBound 0 (p - 3) [0, 1]).isEmpty) ||
      (x.agMode n == 2 && decide (2 ≤ p ∧ p ≤ 5) && (x.ejBound 0 (p - 1) [0, 1]).isEmpty) ||
      (x.agMode n == 2 && p == 0 && !(x.cfg 0 0 2 != 0 && decide (x.cfg 0 12 2 ∈ [1, 2])))

/-! ## Channels (R214 to R216) -/

/-- The data-area and data-memory ranges that a tile's channels and its staging buffer take: unit and range. -/
def chanRanges (x : Site) (r : ChanRec) : List (Nat × Nat × Nat) :=
  ((List.range 32).flatMap fun c =>
    let u := 0x060 + c
    if x.cfg u 0 1 = 0 then []
    else [(u, x.cfg u 4 20, x.cfg u 4 20 + 64 * x.cfg u 24 11)] ++
      (if x.cfg u 84 20 = 0 then [] else [(u, x.cfg u 64 20, x.cfg u 64 20 + x.cfg u 84 20)])) ++
  (if r.stageLines = 0 then [] else [(0x060, r.stageBase, r.stageBase + 64 * r.stageLines)])

/-- Whether a channel descriptor breaks R214. -/
def chanWordBad (x : Site) (c : Nat) : Bool :=
  let u := 0x060 + c
  let f := x.cfg u
  let lines := f 24 11
  !x.zeroBits u [(3, 1), (38, 2), (54, 2), (127, 1), (165, 3), (173, 3), (187, 5), (208, 48)] ||
    (decide (64 ≤ f 56 8) && f 56 8 != 0xFF) || decide (32 < f 130 6) ||
    (f 0 1 == 1 && (f 4 20 % 64 != 0 || f 64 20 % 64 != 0 || f 84 20 % 64 != 0 || f 40 14 % 2 != 0 ||
      (if f 1 1 = 0 then !decide (2 ≤ lines ∧ lines ≤ 1024) || lines % 2 != 0 || f 104 23 != 0
       else !decide (1 ≤ lines ∧ lines ≤ 512) || !decide (1 ≤ f 104 23 ∧ f 104 23 ≤ 4194304)) ||
      decide (0xBA000 < f 4 20 + 64 * lines) ||
      (f 84 20 != 0 && !(decide (f 64 20 + f 84 20 ≤ 0xBA000) || decide (0xBE000 ≤ f 64 20 ∧ f 64 20 + f 84 20 ≤ 0xC0000)))))

/-- The first channel unit of a tile that breaks R214, R216 or R185 within the tile, and the address generator whose hull meets its range. -/
def chanTileBad (x : Site) (r : ChanRec) : Option (Nat × Option Nat) :=
  let rs := chanRanges x r
  let hs := hulls x
  let rings := (List.range 32).filter fun c => x.cfg (0x060 + c) 0 2 == 1
  match (List.range 32).find? (chanWordBad x) with
  | some c => some (0x060 + c, none)
  | none => match rs.findSome? fun a => (hs.find? fun h => meet a.2.1 a.2.2 h.lo h.hi).map fun h => (a.1, some (0x020 + h.ag)) with
    | some e => some e
    | none => match rs.zipIdx.find? fun a => rs.zipIdx.any fun b => a.2 != b.2 && meet a.1.2.1 a.1.2.2 b.1.2.1 b.1.2.2 with
      | some a => some (a.1.1, none)
      | none =>
        if rings.any fun c => decide (2 * r.stageLines < x.cfg (0x060 + c) 24 11) then some (0x060, none)
        else ((List.range 32).find? fun c => x.cfg (0x060 + c) 0 2 == 3 && (List.range 32).any fun d =>
          d != c && x.cfg (0x060 + d) 0 2 == 3 && x.cfg (0x060 + d) 35 3 == x.cfg (0x060 + c) 35 3).map fun c => (0x060 + c, none)

/-- The send ports of a phase: tile, slot and the fields of the port. -/
def sendPorts (ts : List TileImg) : List (Nat × Nat × Site) :=
  ts.flatMap fun t => ((List.range 32).filter fun c => t.x.cfg (0x060 + c) 128 1 == 1).map fun c => (t.tile, c, t.x)

/-- The first send port that is no submission port (R366) and names no such channel on its own device, or shares its ring (R216): tile and
unit. -/
def sendBad (ts : List TileImg) (own : Nat) : Option (Nat × Nat) :=
  let ps := sendPorts ts
  (ps.find? fun p =>
    let f := p.2.2.cfg (0x060 + p.2.1)
    if f 129 1 = 0 ∧ f 176 11 = 0 then f 136 16 != own || f 152 13 != p.1 || f 168 5 != p.2.1 || f 0 1 != 0
    else
      let d : Site := ((ts.find? fun t => t.tile == f 152 13).map (·.x)).getD {}
      let g := d.cfg (0x060 + f 168 5)
      (f 136 16 == own && (g 0 1 == 0 || g 1 1 != f 129 1 || g 24 11 != f 176 11)) ||
        (f 129 1 == 0 && ps.any fun q => (q.1, q.2.1) != (p.1, p.2.1) && q.2.2.cfg (0x060 + q.2.1) 129 1 == 0 &&
          q.2.2.cfg (0x060 + q.2.1) 136 37 == p.2.2.cfg (0x060 + p.2.1) 136 37)).map fun p => (p.1, 0x060 + p.2.1)

/-- A device's channel table (R216): its enabled slots of every phase. -/
def chanTable (imgs : List (Nat × List TileImg)) : List ChanEnt :=
  imgs.flatMap fun i => i.2.flatMap fun t => ((List.range 32).filter fun c => t.x.cfg (0x060 + c) 0 1 == 1 || t.x.cfg (0x060 + c) 128 1 == 1).map
    fun c => { phase := i.1, tile := t.tile, slot := c, word := t.x.cfg (0x060 + c) 0 256 }

/-- The checks of R216 on the send ports to other devices, over the channel tables that the Stewards of a job exchange, the device's own
among them: whether one of them fails. -/
def crossBad (tables : List (Nat × List ChanEnt)) : Bool :=
  let all := tables.flatMap fun t => t.2.map fun e => (t.1, e)
  all.any fun a =>
    let f := bitsN a.2.word
    let g := bitsN (((all.find? fun b => b.1 == f 136 16 && b.2.phase == a.2.phase && b.2.tile == f 152 13 && b.2.slot == f 168 5).map (·.2.word)).getD 0)
    f 128 1 == 1 && f 136 16 != a.1 && (g 0 1 == 0 || g 1 1 != f 129 1 || g 24 11 != f 176 11 ||
      (f 129 1 == 0 && all.any fun b => b != a && b.2.phase == a.2.phase && bitsN b.2.word 128 2 == 1 && bitsN b.2.word 136 37 == f 136 37))

/-! ## The acyclic rule (R138) -/

/-- The edges inside a tile, as (node, node) with node 1,024 × tile + unit. -/
def innerEdges (t : TileImg) : List (Nat × Nat) :=
  let us := switchUnits.filter fun u => !(t.x.inputs u).isEmpty || !(t.x.outputs u).isEmpty
  us.flatMap fun v => (t.x.inputs v).flatMap fun i => match i with
    | .stream c => (us.filter fun u => (t.x.outputs u).contains (.stream c)).map fun u => (1024 * t.tile + u, 1024 * t.tile + v)
    | .behind u => [(1024 * t.tile + u, 1024 * t.tile + v)]
    | .ej _ _ => []

/-- The edges that a route makes between units. -/
def routeEdges (ts : List TileImg) (r : Route) : List (Nat × Nat) :=
  let img (tile : Nat) : Site := ((ts.find? fun t => t.tile == tile).map (·.x)).getD {}
  let us := switchUnits.filter fun u => ((img r.src).outputs u).contains (.inj r.plane r.port)
  r.dests.flatMap fun d => (switchUnits.filter fun v => ((img d.1).inputs v).contains (.ej r.plane d.2)).flatMap fun v =>
    us.map fun u => (1024 * r.src + u, 1024 * d.1 + v)

/-- The nodes that can be reached from some nodes: `n` rounds. -/
def reachN (es : List (Nat × Nat)) : Nat → List Nat → List Nat
  | 0, seen => seen
  | n + 1, seen =>
    let more := ((es.filter fun e => seen.contains e.1 && !seen.contains e.2).map (·.2)).dedup
    if more = [] then seen else reachN es n (seen ++ more)

/-- The first route of a phase that lies on a cycle. -/
def cycleRoute (ts : List TileImg) (rs : List Route) : Option Route :=
  let es := ts.flatMap innerEdges ++ rs.flatMap (routeEdges ts)
  rs.find? fun r => (routeEdges ts r).any fun e => (reachN es es.length [e.2]).contains e.1

/-! ## Check 7 on every phase -/

/-- The first breach of a tile in a phase. -/
def tileBad (o : Ordo) (ph : Nat) (rs : List Route) (t : TileImg) : Option LoadErr :=
  let x := t.x
  let fail (u : Nat) : Option LoadErr := bad7 [(2, 16, ph), (4, 16, t.tile), (6, 16, u)]
  let keys := o.keys.map (·.1)
  let r : ChanRec := (o.chanRecs.find? fun r => r.tile == t.tile).getD {}
  if patchBad x then fail 0
  else match (List.range 6).find? fun i => stageBad x (i + 1) keys with
    | some i => fail (0x010 + i)
    | none =>
      match (List.range 4).find? fun n => agBad x n o.discard with
      | some n => fail (0x020 + n)
      | none =>
        if pipeBad x then fail 0x010
        else match fabricUnbound x with
          | some n => fail (0x020 + n)
          | none => match (List.range 8).find? (counterBad x) with
            | some n => fail (0x030 + n)
            | none => match (List.range 8).find? (steerBad x) with
              | some n => fail (0x040 + n)
              | none => match portBad x rs t.tile with
                | some (q, p) => bad7 [(1, 8, q), (2, 16, ph), (4, 16, t.tile), (6, 16, portUnit q), (0xB, 8, p)]
                | none => match hullClash x with
                  | some (a, b) => bad7 [(2, 16, ph), (4, 16, t.tile), (6, 16, 0x020 + a), (8, 16, 0x020 + b)]
                  | none => match chanTileBad x r with
                    | some (u, none) => fail u
                    | some (u, some v) => bad7 [(2, 16, ph), (4, 16, t.tile), (6, 16, u), (8, 16, v)]
                    | none => if 256 < x.chunks.length then fail 0x010 else none

/-- The first breach of a phase. -/
def phaseCheck (o : Ordo) (own ph : Nat) (ts : List TileImg) : Option LoadErr :=
  let rs := o.routes.filter (·.phase == ph)
  match ts.findSome? (tileBad o ph rs) with
  | some e => some e
  | none => match sendBad ts own with
    | some (tile, u) => bad7 [(2, 16, ph), (4, 16, tile), (6, 16, u)]
    | none => match cycleRoute ts rs with
      | some r => bad7 [(2, 16, ph), (8, 16, r.id)]
      | none => none

/-! ## Checks 8 and 9 -/

/-- The limit of R72 for a block. -/
def hopLimit (g : Nat) : Nat :=
  let bx := 2 * (g / 8 % 4) + g % 8 % 2
  let by' := 4 * (g / 8 / 4) + g % 8 / 2
  let we := bx == 0 || bx == 7
  let ns := by' == 0 || by' == 7
  if we && ns then 366 else if ns then 372 else if we then 378 else 384

/-- Check 8 (R72): the first phase, region and plane over its limit. -/
def loadCheck8 (o : Ordo) : Option LoadErr :=
  (List.range o.phases.length).findSome? fun ph => (List.range 64).findSome? fun g => (List.range 3).findSome? fun q =>
    let n := (((o.routes.filter fun r => r.phase == ph && r.plane == q).flatMap (·.hops)).filter fun h => tileBlock h.1 == g).length
    if hopLimit g < n then some (stRouteHeadroom, locator 8 [(1, 8, q), (2, 16, ph), (0xA, 8, g)]) else none

/-- Check 9 (R128, R137): the first route below its credit bound, then the first tile and plane over its FIFO pool. A route with two deliveries at a tile
takes two FIFOs there and counts for each, which R128 leaves open (DESIGN CHOICE, log 149). -/
def loadCheck9 (o : Ordo) : Option LoadErr :=
  match o.routes.find? fun r => !creditsCover r.credits (provLength r) with
  | some r => some (stCreditBound, locator 9 [(2, 16, r.phase), (8, 16, r.id)])
  | none => o.routes.findSome? fun r => r.dests.findSome? fun d =>
      let n := ((o.routes.filter fun q => q.phase == r.phase && q.plane == r.plane).flatMap fun q => (q.dests.filter fun e => e.1 == d.1).map fun _ => q.credits).sum
      if 256 < n then some (stCreditBound, locator 9 [(1, 8, r.plane), (2, 16, r.phase), (4, 16, d.1)]) else none

/-! ## The whole of checks 7 to 9 -/

/-- The tiles that an Ordo configures or reaches. -/
def ordoTiles (blocks : List CfgBlock) (rec' : List RecompEnt) (routes : List Route) (chans : List ChanRec) : List Nat :=
  (List.range 8192).filter fun t => blocks.any (·.tile == t) || rec'.any (·.covers t) || chans.any (·.tile == t) ||
    routes.any fun r => r.src == t || r.dests.any (·.1 == t)

/-- Checks 7 to 9 of R155 on an image that passed 1 to 6: the Ordo, or the failure. -/
def loadCheck789 (b : List Byte) (own : Nat) : Except LoadErr Ordo :=
  let ss := sectTable b
  let mask := num b 0x20 8
  let n := num b 0x28 2
  let pt := sectOf ss 1
  match phaseBad pt n with
  | some e => .error e
  | none => match readBlocks (sectOf ss 2) mask (phaseTable pt) with
    | .error e => .error e
    | .ok raw =>
      let blocks := mergeBlocks raw
      match sectionsBad ss b blocks with
      | some e => .error e
      | none => match readRoutes (sectOf ss 3) (sectOf ss 4) mask (phaseTable pt) with
        | .error e => .error e
        | .ok routes =>
          let o := ordoOf b ss blocks routes
          let tiles := ordoTiles blocks o.recomputes routes o.chanRecs
          let imgs := tiles.map fun t => (t, tileImages blocks o.recomputes n t)
          let at' (ph : Nat) : List TileImg := imgs.map fun i => { tile := i.1, x := i.2.1.getD ph {} }
          let o := { o with blocks := imgs.flatMap fun i => i.2.2, chans := chanTable ((List.range n).map fun ph => (ph, at' ph)) }
          match tiles.find? fun t => !decide (drawnStreams blocks t).Nodup with
          | some t => .error (stConfigInvalid, locator 7 [(4, 16, t)])
          | none => match (List.range n).findSome? fun ph => phaseCheck o own ph (at' ph) with
            | some e => .error e
            | none => match loadCheck8 o with
              | some e => .error e
              | none => match loadCheck9 o with
                | some e => .error e
                | none => .ok o

end Sys2Proof.Machine
end

