-- ==== Sys2Proof/Machine/CmdJob.lean ====
section
/-! DEFINITION. `ORDO_LOAD`, `JOB_START` and `JOB_KILL` (01 R30, R44; 04 R155, R164, R575, R576; 06 R202, R215, R216; 08 R260; 09 R281,
R291, R293; 12 R388, R389; 13 R407, R412; 14 R443, R450; 15 R487; 16 R501). -/

namespace Sys2Proof.Machine

/-! ## `ORDO_LOAD` -/

/-- The checks of R155 on the bytes of an image, in order. -/
def State.loadChecks (s : State) (p bufLen : Nat) (b : List Byte) : Except LoadErr Ordo :=
  match loadCheck1 b bufLen with
  | some e => .error e
  | none =>
    let ss := sectTable b
    match loadCheck2 b ss with
    | some e => .error e
    | none => match s.loadCheck3 b ss with
      | some e => .error e
      | none => match loadCheck456 b (s.part p).regions with
        | some e => .error e
        | none => loadCheck789 b s.hub.devId

/-- The configuration pages of an Ordo's phase images (R158, R256, R386): kept system pages, in place of those of the Ordo before. How many pages an
image takes no rule says: the model takes one for each phase, none where the pool has no room, and holds what they contain as the Ordo itself
(DESIGN CHOICE, log 134). -/
def State.mapImages (s : State) (p : Nat) (o : Ordo) : State :=
  let s := s.unmapPages (s.part p).imagePages
  match s.allocPages o.phases.length p .system true true with
  | some (s, ls) => s.modPart p fun x => { x with imagePages := ls }
  | none => s.modPart p fun x => { x with imagePages := [] }

/-- An Ordo is loaded: the partition is flushed, since its Placement Map changes (R71, R166), and every region placed anew. -/
def State.ordoIn (s : State) (p : Nat) (o : Ordo) : State :=
  let s := ((s.dropRestore p).mapImages p o).modPart p fun x => { x with ordo := some o }
  let s := s.flush p false
  s.placePart p

/-- `ORDO_LOAD` (R155, R197, R450); it waits while sites of the partition are under test (R76). -/
def cmdOrdoLoad : CmdDef :=
  { op := 0x0203, role := .owner, lock := lockPart
    body := fun s c =>
      let x := s.part c.part
      if x.sweep.isSome then s.finish c.mb stSweepPending
      else if x.job.isSome then s.finish c.mb stJobBound
      else if s.testing c.part then s
      else match s.bufIn c with
        | (s, none) => s.finish c.mb stBufferFault
        | (s, some b) => match s.loadChecks c.part c.d.bufLen b with
          | .error e => s.finish c.mb e.1 0 e.2
          | .ok o => (s.ordoIn c.part o).finish c.mb stOk }
/-- `ORDO_LOAD`. -/
def execOrdoLoad (t mb : Nat) (buf : Option (List Byte)) (s : State) : Out := cmdOrdoLoad.run t mb { buf } s

/-! ## Allocation (R30, R388, R389) -/

/-- Whether a channel holds more kept pages than R389 allows. -/
def State.keptFull (s : State) : Bool := (List.range 16).any fun ch => decide (262144 < s.keptCount ch)

/-- What an allocation comes to (R388, R389): done, waiting for pages in zeroing, or refused with a status. -/
inductive Alloc (α : Type) where
  | done (s : State) (a : α)
  | wait
  | fail (status : Nat)
  deriving DecidableEq, Repr

/-- Allocate under R388: `f` allocates in a state; where it fails it waits if it would succeed with every page zeroed. -/
def State.allocWith {α : Type} (s : State) (f : State → Option (State × α)) : Alloc α :=
  match f s with
  | some (s', a) => if s'.keptFull then .fail stKeepLimit else .done s' a
  | none => match f s.zeroAll with
    | some (s', _) => if s'.keptFull then .fail stKeepLimit else .wait
    | none => .fail stNoMemory

/-- A command waits for zeroing (R388); `PAGE_ZERO_COMPLETE` takes it up again. -/
def State.waitZero (s : State) (mb : Nat) : State := { s with mem := { s.mem with allocWait := s.mem.allocWait.filter (· != mb) ++ [mb] } }

/-- Log pages of a job: its ledger and its log reservation (R27, R30). -/
def Ordo.logTotal (o : Ordo) : Nat := ledgerPages o.classes.length + o.logPages

/-- Tally sides (R21): the pages of sides A and B. -/
def State.allocSides (s : State) (p n : Nat) : Option (State × Tbl Nat × Tbl Nat) :=
  let tbl (l : List Nat) : Tbl Nat := l.zipIdx.foldl (fun t x => Tbl.set 0 x.2 x.1 t) []
  match s.allocPages n p .tallyA true false with
  | none => none
  | some (s, a) => match s.allocPages n p .tallyB true false with
    | none => none
    | some (s, b) => some (s, tbl a, tbl b)

/-- Log and plain pages of a job (R30, R36, R215, R260). -/
def State.allocJob (s : State) (p : Nat) (o : Ordo) : Option (State × List Nat) :=
  match s.allocPages o.logTotal p .log true false with
  | none => none
  | some (s, l) => match s.allocPages o.plainPages p .plain false true with
    | none => none
    | some (s, m) => some (s, l ++ m)

/-! ## `JOB_START` -/

/-- Bytes at an offset of a class's pages on side A (R573). -/
def State.putClass (s : State) (j : Job) (c off : Nat) (bs : List Byte) : State :=
  s.dramWrite (s.pageBase (Tbl.get 0 j.sideA ((pagesOf j.classes c).getD (off / pageBytes) 0)) + off % pageBytes) bs

/-- The device-written classes of generation 0 (R121, R573, R575), then the DATA items of tally pages (R576). -/
def State.writeGen0 (s : State) (j : Job) (o : Ordo) : State :=
  let s := o.anchors.foldl (fun (s : State) e => s.putClass j 2 (8 * e.1) (leBytes 8 e.2.toNat)) s
  let s := s.putClass j 3 0 (leBytes 8 o.seed.toNat ++ leBytes 8 j.epact.draws.toNat)
  let s := o.keys.foldl (fun (s : State) e => s.putClass j 3 (pageBytes + 4 * e.1) (leBytes 4 e.2.toNat)) s
  let s := s.putClass j 4 0 (leBytes 16 (epactNum j.epact))
  let s := o.groups.foldl (fun (s : State) g => s.putClass j 5 (16 * pageBytes + 2 * g.group) (leBytes 2 g.herald)) s
  (o.data.filter fun d => !d.slice).foldl (fun (s : State) d => s.dramWrite (s.pageBase (Tbl.get 0 j.sideA d.page) + d.off) d.bytes) s

/-- A job from an Ordo before its tally is written (R575): fresh, at step 0. -/
def freshJob (o : Ordo) (a b : Tbl Nat) : Job :=
  let e : Epact := { draws := o.epOffset.signExtend 64, cursor := 0, offset := o.epOffset }
  let hs := o.groups.foldl (fun (t : Tbl Nat) g => Tbl.put g.group g.herald t) []
  { depth := o.depth, timingData := o.timingData, ordoId := o.digest.setWidth 64, rootGroup := o.rootGroup, heralds := hs, heraldsSealed := hs,
    classes := o.classes, sideA := a, sideB := b, epact := e, epactSealed := e, anchors := o.anchors, anchorsSealed := o.anchors }

/-- Generation 0 of a fresh job: its digests and the record that stands for it (R29, R576). -/
def State.sealGen0 (s : State) (j : Job) : Job :=
  let d := (List.range j.classes.length).foldl (fun t i => Tbl.set 0 i (s.pageDigest j i fun _ => false) t) []
  let r : LedgerRec :=
    { step := 2 ^ 64 - 1, sealFt := s.now, state := .sealed, rootGroup := j.rootGroup, depth := j.depth, ordoId := j.ordoId,
      stateDigest := stateDigest j.classes d, weightDigest := weightDigest j.classes d, epact := j.epact,
      anchorPage := j.anchorPage, prevDigest := stateDigest j.classes d }
  { j with digSealed := d, digWorking := d, lastSealed := r }

/-- The kept tally as a job again at its latest sealed generation, which alone is retained (R450 `MODE` 1). -/
def resumeJob (k : Job) (o : Ordo) : Job :=
  { (freshJob o k.sideA k.sideB) with
    step := k.step, heralds := k.heraldsSealed, heraldsSealed := k.heraldsSealed, live := k.live, ledger := k.ledger, ledgerPos := k.ledgerPos,
    lastSealed := k.lastSealed, retainFloor := k.step, digSealed := k.digSealed, digWorking := k.digSealed, epact := k.epactSealed,
    epactSealed := k.epactSealed, anchors := k.anchorsSealed, anchorsSealed := k.anchorsSealed, chanSealed := k.chanSealed,
    chanWorking := k.chanSealed, lostPages := k.lostPages }

/-- The first `n` free entries of an Almanac bank (R291). -/
def almFree (t : Tbl AlmEntry) (n : Nat) : List Nat := ((List.range 8192).filter fun i => (Tbl.get {} t i : AlmEntry).action == 0).take n

/-- Whether both banks have room for the templates of an Ordo (R291). -/
def State.almRoom (s : State) (o : Ordo) : Bool :=
  let n := o.almanac.length
  (almFree s.alm.active n).length == n && (almFree s.alm.shadow n).length == n

/-- Write the entry templates of a job into free entries of both banks, with the base added and `PART` set, and load the cadence (R291). -/
def State.almTemplatesIn (s : State) (p base : Nat) (o : Ordo) : State :=
  let n := o.almanac.length
  let es := o.almanac.map fun e => { e with trigger := (e.trigger + base) % 2 ^ 64, part := p, own := true }
  let put (t : Tbl AlmEntry) : Tbl AlmEntry := ((almFree t n).zip es).foldl (fun t e => Tbl.set {} e.1 e.2 t) t
  let s := s.watchOrphan (almFree s.alm.active n).contains
  ({ s with alm := { s.alm with active := put s.alm.active, shadow := put s.alm.shadow } }).modPart p fun x => { x with cadence := o.cadence }

/-- Bind a job whose tally stands: the tiles loaded, entries, counters, Heralds, regions, and the first step at its gate (R164, R202, R281,
R286, R291, R293, R295, R412, R487). `slices` are the DATA items of slices. -/
def State.bindJob (s : State) (p mb base : Nat) (o : Ordo) (j : Job) (slices : List DataItem) : State :=
  let s := s.almTemplatesIn p base o
  let s := s.ovfClear 0x12000000
  let s := s.modPart p fun x =>
    { x with job := some { j with baseFt := base, startMb := some mb, first := true }, kept := none, perm := false,
             permEntry := none, almCtr := [], gate := true, halted := false, idesLater := 0 }
  let s := (s.ledgerOut p).reloadPart p
  let s := slices.foldl (fun (s : State) d => s.modSite (s.siteOfTile d.tile) fun x =>
    { x with mu := { x.mu with slice := memWriteN x.mu.slice d.off d.bytes } }) s
  let s := s.openHeralds (s.ownGroups p j.heralds)
  let s := (s.regionsOf p).foldl (fun (s : State) g => s.powerUp g) s
  let s := s.vigilGate p
  if (s.part p).twin.st = .bound ∨ (s.part p).twin.st = .syncing then
    (s.modTwin p fun x => { x with full := true }).mirrorPend p [] j.lastSealed.step false
  else s

/-- Whether the root group omits a device of the job, the device included (R44). -/
def rootOmits (o : Ordo) (own : Nat) : Bool := match o.groups.find? fun g => g.group == o.rootGroup with
  | none => true
  | some r => !(own :: o.groups.flatMap (·.members)).all r.members.contains

/-- The device's own channel table goes over the root group to its other members, once for a command (R216). -/
def State.tablesSend (s : State) (mb p : Nat) (o : Ordo) : State :=
  if (s.mbx mb).ext.asked then s
  else
    let peers := (((o.groups.find? fun g => g.group == o.rootGroup).map (·.members)).getD []).filter (· != s.hub.devId)
    (s.askedOf mb).emits (peers.map fun d => .chanTable d p o.chans)

/-- `JOB_START` (R450): it completes at the first step release. It fails with the locator of R451 when the root group omits a device, the
groups of which the device is Herald hold more than 65,536 members, or the exchange of channel tables fails (R216). The tally that it replaces goes
only as the new one is bound: a command that is aborted or fails leaves it (R443). -/
def cmdJobStart : CmdDef :=
  { op := 0x0205, role := .owner, lock := lockPart, widths := [8, 64]
    body := fun s c =>
      let p := c.part
      let x := s.part p
      if 1 < c.arg 0 then s.finish c.mb stBadArgument
      else if x.sweep.isSome then s.finish c.mb stSweepPending
      else if x.job.isSome then s.finish c.mb stJobBound
      else match x.ordo with
        | none => s.finish c.mb stNotPermitted
        | some o =>
          let t := o.classes.length
          let kept : Option Job := if c.arg 0 = 1 then x.kept.filter fun k => k.classes == o.classes else none
          if s.hub.devId = 0xFFFF ∨ (c.arg 0 = 1 ∧ kept.isNone) then s.finish c.mb stNotPermitted
          else if (x.twin.st = .bound ∨ x.twin.st = .syncing) ∧ x.twin.peerReserve < mirrorPages t then s.finish c.mb stTwinSpace
          else if rootOmits o s.hub.devId ∨ 65536 < s.heraldMembers (s.ownGroups p ((kept.map (·.heraldsSealed)).getD [])) then s.finish c.mb stConfigInvalid 0 (locator 0x0A [])
          else
          let s := s.tablesSend c.mb p o
          if (s.mbx c.mb).ext.later then s
          else if crossBad ((s.hub.devId, o.chans) :: (s.mbx c.mb).ext.tables) then s.finish c.mb stConfigInvalid 0 (locator 0x0A [])
          else if ¬ s.almRoom o then s.finish c.mb stAlmanacFull
          else
            let base := if c.arg 1 = 0 then (c.d.ackFt + 3999) / 4000 * 4000 else c.arg 1
            match kept with
            | some k => match s.allocWith fun s => s.allocJob p o with
              | .fail st => s.finish c.mb st
              | .wait => s.waitZero c.mb
              | .done s ls => s.bindJob p c.mb base o { resumeJob k o with jobPages := ls } []
            | none =>
              let freed : State := match x.kept with
                | some k => (s.unmapPages (k.sideA.map (·.2) ++ k.sideB.map (·.2))).zeroAll.modPart p fun x => { x with kept := none }
                | none => s
              match freed.allocWith fun s => match s.allocSides p t with
                | none => none
                | some (s, a, b) => match s.allocJob p o with
                  | none => none
                  | some (s, ls) => some (s, a, b, ls) with
              | .fail st => s.finish c.mb st
              | .wait => freed.waitZero c.mb
              | .done s (a, b, ls) =>
                let j := freshJob o a b
                let s := s.writeGen0 j o
                s.bindJob p c.mb base o { s.sealGen0 j with jobPages := ls } (o.data.filter (·.slice)) }
/-- `JOB_START`; `tables` are the channel tables of the other devices of the job, each with its device ID, that their Stewards have sent over the
root group (R216); `later`: they have not all come yet. -/
def execJobStart (t mb : Nat) (buf : Option (List Byte)) (tables : List (Nat × List ChanEnt)) (later : Bool) (s : State) : Out :=
  cmdJobStart.run t mb { buf, tables, later } s

/-! ## `JOB_KILL` -/

/-- `JOB_KILL` (R443, R450): whatever holds or awaits the lock is aborted, the binding ends, and the command completes after the sweep.
A `JOB_START` before its first release leaves no binding that ends (R443). -/
def cmdJobKill : CmdDef :=
  { op := 0x0206, role := .owner
    body := fun s c =>
      let p := c.part
      if (s.job p).isNone then s.finish c.mb stNoJob
      else
        let starting : Bool := match s.job p with
          | some j => j.startMb.isSome
          | none => false
        let s := s.abortLocked p c.mb fun _ => false
        let why : SweepFor := if (s.part p).underReset then .reset 0 else .jobKill c.mb
        let s := (if starting then (s.unbind p).beginSweep p why else s.endBinding p 1 why).closeHeralds p
        if (s.part p).underReset then s.finish c.mb stOk else s }
/-- `JOB_KILL`. -/
def execJobKill (t mb : Nat) (buf : Option (List Byte)) (s : State) : Out := cmdJobKill.run t mb { buf } s

end Sys2Proof.Machine
end

