-- ==== Sys2Proof/Machine/CmdMem.lean ====
section
/-! DEFINITION. Group 0x07: Page Map allocation, windows, kept pages, scrubbing and retirement (05 R189, R197; 12 R381 to R398; 14 R450). -/

namespace Sys2Proof.Machine

/-- Whether a logical page lies in the CXL.mem window (R398). -/
def State.inHdm (s : State) (l : Nat) : Bool :=
  decide (s.hub.config.hdmPageBase ≤ l ∧ l < s.hub.config.hdmPageBase + s.hub.config.hdmSize / pageBytes)

/-- Whether `n` logical pages from `l` lie in a half, unmapped, and outside the CXL.mem window unless `inside` (R384, R398). -/
def State.runFree (s : State) (half l n : Nat) (inside : Bool) : Bool :=
  decide (8388608 * half ≤ l ∧ l + n ≤ 8388608 * (half + 1)) &&
    (List.range n).all fun i => (s.pageEnt (l + i)).kind == .unmapped && (inside || !s.inHdm (l + i))

/-- `PAGEMAP_ALLOC` (R384, R388, R398): a run of logical pages; it waits for zeroing. A place in the CXL.mem window needs the credential of
the owner. -/
def cmdPagemapAlloc : CmdDef :=
  { op := 0x0701, role := .owner, widths := [8, 8, 32, 32], lock := lockPart
    body := fun s c =>
      let half := c.arg 0
      let n := c.arg 2
      let l := c.arg 3
      let own : Bool := (s.mbx c.mb).role == 2
      if 1 < half ∨ ¬ (c.arg 1 = 1 ∨ c.arg 1 = 6) ∨ n = 0 then s.finish c.mb stBadArgument
      else
        let first : Option Nat := if l = 0xFFFFFFFF then firstFree (fun l => s.runFree half l n own) 8388608 (8388608 * half)
          else if s.runFree half l n true then some l else none
        match first with
        | none => s.finish c.mb stBadArgument
        | some l =>
          if ¬ own ∧ (List.range n).any fun i => s.inHdm (l + i) then s.finish c.mb stNoCredential
          else
            let ls := (List.range n).map (l + ·)
            let kind : PageKind := if c.arg 1 = 1 then .plain else .window
            match s.allocWith fun s => (s.mapPages ls c.part kind false).map fun s => (s, ()) with
            | .fail st => s.finish c.mb st
            | .wait => s.waitZero c.mb
            | .done s _ => s.finish c.mb stOk 0 (pack [(32, l), (32, n)]) }
/-- `PAGEMAP_ALLOC`. -/
def execPagemapAlloc (t mb : Nat) (buf : Option (List Byte)) (s : State) : Out := cmdPagemapAlloc.run t mb { buf } s

/-- Whether a logical page is one that a host command allocated to a partition: plain or window, and none of its job's (R388). -/
def State.hostPage (s : State) (p l : Nat) : Bool :=
  let e := s.pageEnt l
  let jobs : List Nat := (match s.job p with
    | some j => j.jobPages
    | none => []) ++ (s.part p).restore.jobPages
  e.owner == p && (e.kind == .plain || e.kind == .window) && !jobs.contains l

/-- `PAGEMAP_FREE` (R388): pages that host commands allocated to the partition are freed. -/
def cmdPagemapFree : CmdDef :=
  { op := 0x0702, role := .owner, widths := [32, 32], lock := lockPart
    body := fun s c =>
      let ls := (List.range (c.arg 1)).map (c.arg 0 + ·)
      if c.arg 1 = 0 ∨ ¬ ls.all (s.hostPage c.part) then s.finish c.mb stBadArgument
      else (s.unmapPages ls).finish c.mb stOk }
/-- `PAGEMAP_FREE`. -/
def execPagemapFree (t mb : Nat) (buf : Option (List Byte)) (s : State) : Out := cmdPagemapFree.run t mb { buf } s

/-- `WINDOW_OPEN` (R189, R197, R386): a window descriptor of a tile of the partition, or a page window of the port die of its pages. -/
def cmdWindowOpen : CmdDef :=
  { op := 0x0703, role := .owner, widths := [8, 8, 8, 8, 8, 16, 32, 32], lock := lockPart
    body := fun s c =>
      let p := c.part
      let w := c.arg 1
      let rights := c.arg 2
      let key := c.arg 4
      let tile := c.arg 5
      let b := c.arg 6
      let n := c.arg 7
      if (s.part p).sweep.isSome then s.finish c.mb stSweepPending
      else if 1 < c.arg 0 ∨ rights = 0 ∨ 3 < rights ∨ 1 < c.arg 3 then s.finish c.mb stBadArgument
      else if c.arg 0 = 0 then
        if 7 < w ∨ 8191 < tile ∨ ¬ bitAt (s.part p).regions (tileBlock tile) ∨ b % 64 ≠ 0 ∨ n % 64 ≠ 0 ∨ n = 0 ∨ 0xBA000 < b + n then
          s.finish c.mb stBadArgument
        else
          let d : WinDesc := { base := b, size := n, rights, remote := c.arg 3 == 1, isOpen := true, owner := p, key }
          (s.modSite (s.siteOfTile tile) fun x => { x with mu := { x.mu with windows := Tbl.set {} w d x.mu.windows } }).finish c.mb stOk
      else
        let k := 256 * pageDie b + w
        let old : PageWin := Tbl.get {} s.mem.wins k
        if n = 0 ∨ 16777216 < b + n ∨ pageDie b ≠ pageDie (b + n - 1) then s.finish c.mb stBadArgument
        else if old.isOpen ∧ old.owner ≠ p then s.finish c.mb stNotPermitted
        else
          let v : PageWin := { first := b, count := n, rights, key, owner := p, isOpen := true }
          ({ s with mem := { s.mem with wins := Tbl.set {} k v s.mem.wins } }).finish c.mb stOk w }
/-- `WINDOW_OPEN`. -/
def execWindowOpen (t mb : Nat) (buf : Option (List Byte)) (s : State) : Out := cmdWindowOpen.run t mb { buf } s

/-- `WINDOW_CLOSE` (R189, R386): a window of a tile, or the page windows of a number that the partition holds. -/
def cmdWindowClose : CmdDef :=
  { op := 0x0704, role := .owner, widths := [8, 8, 16], lock := lockPart
    body := fun s c =>
      let p := c.part
      let w := c.arg 1
      let tile := c.arg 2
      if 1 < c.arg 0 then s.finish c.mb stBadArgument
      else if c.arg 0 = 0 then
        if 7 < w ∨ 8191 < tile ∨ ¬ bitAt (s.part p).regions (tileBlock tile) then s.finish c.mb stBadArgument
        else (s.modSite (s.siteOfTile tile) fun x =>
          { x with mu := { x.mu with windows := Tbl.set {} w ({} : WinDesc) x.mu.windows } }).finish c.mb stOk
      else
        ({ s with mem := { s.mem with wins := s.mem.wins.filter fun e => !(e.1 % 256 == w && e.2.owner == p) } }).finish c.mb stOk }
/-- `WINDOW_CLOSE`. -/
def execWindowClose (t mb : Nat) (buf : Option (List Byte)) (s : State) : Out := cmdWindowClose.run t mb { buf } s

/-- `KEEP_SET` (R389): the `KEPT` bit of plain pages of the partition. -/
def cmdKeepSet : CmdDef :=
  { op := 0x0705, role := .owner, widths := [8, 32, 32], lock := lockPart
    body := fun s c =>
      let ls := (List.range (c.arg 2)).map (c.arg 1 + ·)
      if 1 < c.arg 0 ∨ c.arg 2 = 0 ∨ ¬ ls.all fun l => (s.pageEnt l).kind == .plain && (s.pageEnt l).owner == c.part then
        s.finish c.mb stBadArgument
      else
        let s' := ls.foldl (fun (s : State) l => s.setPage l { s.pageEnt l with kept := c.arg 0 == 1 }) s
        if s'.keptFull then s.finish c.mb stKeepLimit else s'.finish c.mb stOk }
/-- `KEEP_SET`. -/
def execKeepSet (t mb : Nat) (buf : Option (List Byte)) (s : State) : Out := cmdKeepSet.run t mb { buf } s

/-- `SCRUB_SET` (R381). -/
def cmdScrubSet : CmdDef :=
  { op := 0x0706, role := .admin, widths := [16]
    body := fun s c =>
      if c.arg 0 < 1 ∨ 168 < c.arg 0 then s.finish c.mb stBadArgument
      else ({ s with mem := { s.mem with scrubH := c.arg 0 } }).finish c.mb stOk }
/-- `SCRUB_SET`. -/
def execScrubSet (t mb : Nat) (buf : Option (List Byte)) (s : State) : Out := cmdScrubSet.run t mb { buf } s

/-- Whether a physical page exists (R377, R382): its channel holds a module that is not omitted, and its range lies in the module. -/
def State.ppnExists (s : State) (n : Nat) : Bool :=
  decide (n < 16777216 ∧ (s.chan (ppnChan n)).st ∉ [McSt.empty, .omitted] ∧ n % 1048576 < (s.chan (ppnChan n)).capacity * 4096)

/-- `PAGE_RETIRE` (R382, R395): the operator names a physical page that exists. -/
def cmdPageRetire : CmdDef :=
  { op := 0x0707, role := .admin, widths := [32]
    body := fun s c =>
      let n := c.arg 0
      if ¬ s.ppnExists n then s.finish c.mb stBadArgument
      else (s.startRetire n 3).finish c.mb stOk }
/-- `PAGE_RETIRE`. -/
def execPageRetire (t mb : Nat) (buf : Option (List Byte)) (s : State) : Out := cmdPageRetire.run t mb { buf } s

/-- `PAGE_RETIRE_SET` (R395). -/
def cmdPageRetireSet : CmdDef :=
  { op := 0x0708, role := .admin, widths := [8]
    body := fun s c =>
      if c.arg 0 = 0 then s.finish c.mb stBadArgument
      else ({ s with mem := { s.mem with threshold := c.arg 0 } }).finish c.mb stOk }
/-- `PAGE_RETIRE_SET`. -/
def execPageRetireSet (t mb : Nat) (buf : Option (List Byte)) (s : State) : Out := cmdPageRetireSet.run t mb { buf } s

end Sys2Proof.Machine
end

