-- ==== Sys2Proof/Machine/CmdNet.lean ====
section
/-! DEFINITION. Group 0x06 and `LINK_BER_TEST`: ports, routing tables and classes, group Heralds (11 R335 to R338, R347 to R367; 13 R431;
14 R450). -/

namespace Sys2Proof.Machine

/-! ## Ports -/

/-- Force a port DOWN (R338): a port that is UP sends `DOWN_NOTICE` first. -/
def State.forceDown (s : State) (i : Nat) : State := if (s.port i).st = .up then s.sendCtl i .downNotice else s.portDown i 5

/-- Enable a port: it trains unless it is UP or training already (R336). -/
def State.portEnable (s : State) (i : Nat) : State :=
  let s := s.modPort i fun x => { x with enabled := true }
  if (s.port i).st ∈ [PortSt.off, .down] then s.trainStart i else s

/-- A new `MIN_WIDTH` (R335, R347): the partner is told, in training with the map of R336 step 4, and a width in force below the larger value takes the port DOWN. -/
def State.minWidthSet (s : State) (i w : Nat) : State :=
  let x := s.port i
  let s := s.modPort i fun x => { x with minWidth := w }
  if x.st = .gate ∧ x.trainStep = 4 ∧ w ≠ x.minWidth then s.emit (.linkMap i (~~~x.failed) w)
  else if ¬ (x.st = .up ∨ (x.st = .gate ∧ 6 ≤ x.trainStep)) ∨ w = x.minWidth then s
  else
    let s := s.sendCtl i (.minWidth w)
    if x.lanes.length < max w x.peerMin then s.portDown i 1 else s

/-- `PORT_CONFIG` (R335, R338, R349). -/
def cmdPortConfig : CmdDef :=
  { op := 0x0601, role := .admin, widths := [8, 8, 8, 8]
    body := fun s c =>
      let i := c.arg 0
      let w := c.arg 1
      let e := c.arg 2
      let st := c.arg 3
      if 24 ≤ i ∨ (w ≠ 0xFF ∧ ¬ (4 ≤ w ∧ w ≤ 8)) ∨ (1 < e ∧ e ≠ 0xFF) ∨ (2 < st ∧ st ≠ 0xFF) then s.finish c.mb stBadArgument
      else
        let s := if w = 0xFF then s else s.minWidthSet i w
        let s := if e = 0xFF then s else s.modPort i fun x => { x with enc := e == 1 }
        (if st = 1 then s.portEnable i else if st = 2 then s.forceDown i else s).finish c.mb stOk }
/-- `PORT_CONFIG`. -/
def execPortConfig (t mb : Nat) (buf : Option (List Byte)) (s : State) : Out := cmdPortConfig.run t mb { buf } s

/-- `PORT_RETRAIN` (R338): the partner is asked to retrain, and the command completes at UP or DOWN. A port that the configuration block
disables is not trained. -/
def cmdPortRetrain : CmdDef :=
  { op := 0x0602, role := .admin, widths := [8]
    body := fun s c =>
      let i := c.arg 0
      if 24 ≤ i then s.finish c.mb stBadArgument
      else if ¬ (s.port i).enabled then s.finish c.mb stNotPermitted
      else
        let s := if (s.port i).st = .up then s.sendCtl i .retrain else s
        (s.trainStart i).modPort i fun x => { x with waiter := x.waiter ++ [c.mb] } }
/-- `PORT_RETRAIN`. -/
def execPortRetrain (t mb : Nat) (buf : Option (List Byte)) (s : State) : Out := cmdPortRetrain.run t mb { buf } s

/-- `LINK_BER_TEST` (R450): nine measured ratios × 10^12, as the world answers; an UP port carries traffic. -/
def cmdLinkBerTest (ratios : List Nat) : CmdDef :=
  { op := 0x0D03, role := .admin, widths := [8, 32]
    body := fun s c =>
      if 24 ≤ c.arg 0 then s.finish c.mb stBadArgument
      else if (s.port (c.arg 0)).st = .up then s.finish c.mb stNotPermitted
      else s.finishOut c [(List.range 9).flatMap fun i => leBytes 8 (ratios.getD i 0)] fun _ _ => 0 }
/-- `LINK_BER_TEST`. -/
def execLinkBerTest (t mb : Nat) (buf : Option (List Byte)) (ratios : List Nat) (s : State) : Out := (cmdLinkBerTest ratios).run t mb { buf } s

/-! ## Routing -/

/-- `ROUTE_CFG_SET` (R350, R356, R361, R362, R367): fields of all ones stay, and so does every class field under a `CLASS` of all ones. -/
def cmdRouteCfgSet : CmdDef :=
  { op := 0x0603, role := .admin, widths := [8, 8, 8, 8, 8, 16, 32]
    body := fun s c =>
      let k := c.arg 0
      let rm := c.arg 1
      let rl := c.arg 2
      let w := c.arg 3
      let mk := c.arg 4
      let cw := c.arg 5
      let tmo := c.arg 6
      if (3 < k ∧ k ≠ 0xFF) ∨ (1 < rm ∧ rm ≠ 0xFF) ∨ (1 < rl ∧ rl ≠ 0xFF) ∨ (w ≠ 0xFF ∧ ¬ (1 ≤ w ∧ w ≤ 15)) ∨ (mk ≠ 0xFF ∧ ¬ (1 ≤ mk ∧ mk ≤ 100)) ∨
          (cw ≠ 0xFFFF ∧ 1023 < cw) ∨ (tmo ≠ 0xFFFFFFFF ∧ ¬ (100 ≤ tmo ∧ tmo ≤ 100000)) ∨
          (k = 0xFF ∧ ¬ (rm = 0xFF ∧ rl = 0xFF ∧ w = 0xFF ∧ mk = 0xFF)) then s.finish c.mb stBadArgument
      else
        let s := if k = 0xFF then s else s.modRcfg k fun x =>
          { x with randomMesh := if rm = 0xFF then x.randomMesh else rm == 1, randomLantern := if rl = 0xFF then x.randomLantern else rl == 1,
                   weight := if w = 0xFF then x.weight else w, markPct := if mk = 0xFF then x.markPct else mk }
        ({ s with routing := { s.routing with cmbWait := if cw = 0xFFFF then s.routing.cmbWait else cw,
                                              timeoutUs := if tmo = 0xFFFFFFFF then s.routing.timeoutUs else tmo } }).finish c.mb stOk }
/-- `ROUTE_CFG_SET`. -/
def execRouteCfgSet (t mb : Nat) (buf : Option (List Byte)) (s : State) : Out := cmdRouteCfgSet.run t mb { buf } s

/-- Bytes of an entry of `ROUTE_TABLE_WRITE` (R355, R356, R364; assumption 32). -/
def routeEntBytes (kind : Nat) : Nat := if kind = 1 then 32 else 4

/-- Entries that a kind has (R355, R356, R364, R456; assumption 32). -/
def routeEntries (kind : Nat) : Nat := if kind = 0 then 65536 else if kind = 1 then 256 else if kind = 2 then 147456 else 512

/-- A device entry (R355), or none when it breaks its layout; its reserved bit is ignored (R8). -/
def routeEntOf (w : Nat) : Option RouteEnt :=
  let n := bitsN w 20 3
  let ps := (List.range n).map fun i => bitsN w (5 * i) 5
  if 4 < n ∨ ps.any (23 < ·) then none else some { ports := (List.range 4).map fun i => bitsN w (5 * i) 5, nports := n, iset := bitsN w 24 8 }

/-- A tree entry of a router or a port die (R364; assumption 32), or none when a bit beyond it is set. -/
def treeEntOf (kind w : Nat) : Option TreeEnt :=
  if kind = 2 then (if w < 2 ^ 21 then some { outs := BitVec.ofNat 24 (bitsN w 0 4), sites := BitVec.ofNat 16 (bitsN w 4 16), hub := bitOn w 20 } else none)
  else if w < 2 ^ 25 then some { outs := BitVec.ofNat 24 (bitsN w 0 24), sites := 0, hub := bitOn w 24 } else none

/-- Write one entry of a version; none when it breaks its layout. -/
def State.routeWrite (s : State) (ver : Bool) (kind i : Nat) (b : List Byte) : Option State :=
  if kind = 0 then (routeEntOf (num b 0 4)).map fun e =>
    { s with routing := { s.routing with table := Tbl.set {} (65536 * b1 ver + i) e s.routing.table } }
  else if kind = 1 then some
    { s with routing := { s.routing with isets := Tbl.set [] (256 * b1 ver + i) ((nums16 b 0 16).filter (· != 0xFFFF)) s.routing.isets } }
  else (treeEntOf kind (num b 0 4)).map fun e =>
    { s with routing := { s.routing with trees := Tbl.set {} (treeKey ver (if kind = 2 then i / 256 else 576 + i / 256) (i % 256)) e s.routing.trees } }

/-- `ROUTE_TABLE_WRITE` (R355, R356, R358, R364). -/
def cmdRouteTableWrite : CmdDef :=
  { op := 0x0604, role := .admin, widths := [8, 8, 32, 32]
    body := fun s c =>
      let v := c.arg 0 == 1
      let kind := c.arg 1
      let n := routeEntBytes kind
      if 1 < c.arg 0 ∨ 3 < kind ∨ c.arg 3 = 0 ∨ routeEntries kind < c.arg 2 + c.arg 3 then s.finish c.mb stBadArgument
      else if ¬ s.verFree v then s.finish c.mb stRouteBusy
      else match s.bufIn c with
        | (s, none) => s.finish c.mb stBufferFault
        | (s, some b) =>
          if b.length < n * c.arg 3 then s.finish c.mb stBadArgument
          else match (List.range (c.arg 3)).foldl (fun (o : Option State) i => match o with
              | none => none
              | some s => s.routeWrite v kind (c.arg 2 + i) (slice b (n * i) n)) (some s) with
            | none => s.finish c.mb stBadArgument
            | some s' => s'.finish c.mb stOk }
/-- `ROUTE_TABLE_WRITE`. -/
def execRouteTableWrite (t mb : Nat) (buf : Option (List Byte)) (s : State) : Out := cmdRouteTableWrite.run t mb { buf } s

/-- `ROUTE_SWAP` (R359): it waits for a slot, then for the drain. -/
def cmdRouteSwap : CmdDef :=
  { op := 0x0605, role := .admin, widths := [8]
    body := fun s c =>
      if 3 < c.arg 0 then s.finish c.mb stBadArgument
      else if (s.rcfg (c.arg 0)).swap.isSome then s.finish c.mb stRouteBusy
      else (s.modRcfg (c.arg 0) fun x => { x with swap := some (c.mb, none) }).swapTry }
/-- `ROUTE_SWAP`. -/
def execRouteSwap (t mb : Nat) (buf : Option (List Byte)) (s : State) : Out := cmdRouteSwap.run t mb { buf } s

/-- `ROUTE_EPOCH_SWITCH` (R360): every class injects under the named version at once. -/
def cmdRouteEpochSwitch : CmdDef :=
  { op := 0x0606, role := .admin, widths := [8]
    body := fun s c =>
      if 1 < c.arg 0 then s.finish c.mb stBadArgument
      else
        let v := c.arg 0 == 1
        let changed : Bool := (List.range 4).any fun k => (s.rcfg k).ver != v
        let s := (List.range 4).foldl (fun (s : State) k => s.modRcfg k fun x => { x with ver := v }) s
        let s := if changed then { s with routing := { s.routing with retiring := (s.routing.retiring ++ [b1 !v]).dedup } } else s
        (s.finish c.mb stOk).retire }
/-- `ROUTE_EPOCH_SWITCH`. -/
def execRouteEpochSwitch (t mb : Nat) (buf : Option (List Byte)) (s : State) : Out := cmdRouteEpochSwitch.run t mb { buf } s

/-! ## Group Heralds -/

/-- The partitions whose bound job has a group, with its definition. -/
def State.jobsOfGroup (s : State) (g : Nat) : List (Nat × GroupDef) :=
  (List.range 16).filterMap fun p =>
    if (s.job p).isNone then none
    else match (s.part p).ordo with
      | some o => (o.groups.find? fun x => x.group == g).map fun x => (p, x)
      | none => none

/-- A member records the new Herald and resends the vote of a prepared record (R431). -/
def State.heraldMoved (s : State) (p g h : Nat) : State :=
  let s := s.modJob p fun j => { j with heralds := Tbl.put g h j.heralds }
  match s.job p with
  | some j => match j.vote with
    | some v => if j.prepared.isSome ∧ j.voteSent then s.inject (s.votePacket h { v with group := g }) else s
    | none => s
  | none => s

/-- `GROUP_HERALD_SET` (R293, R431). -/
def cmdGroupHeraldSet : CmdDef :=
  { op := 0x0607, role := .admin, widths := [8, 16]
    body := fun s c =>
      let g := c.arg 0
      let h := c.arg 1
      match s.jobsOfGroup g with
      | [] => s.finish c.mb stBadArgument
      | (p, d) :: rest =>
        let own := h == s.hub.devId
        if ¬ d.members.contains h then s.finish c.mb stBadArgument
        else if own ∧ ¬ s.heraldRoom d then s.finish c.mb stConfigInvalid 0 (locator 0x0A [])
        else
          let s := if own then (if (s.herald g).isSome then s else s.addHerald d) else s.dropHerald g
          (((p, d) :: rest).foldl (fun (s : State) x => s.heraldMoved x.1 g h) s).finish c.mb stOk }
/-- `GROUP_HERALD_SET`. -/
def execGroupHeraldSet (t mb : Nat) (buf : Option (List Byte)) (s : State) : Out := cmdGroupHeraldSet.run t mb { buf } s

end Sys2Proof.Machine
end

