-- ==== Sys2Proof/Machine/CmdPower.lean ====
section
/-! DEFINITION. The power commands (15 R473, R475, R478, R483, R488, R491). -/

namespace Sys2Proof.Machine

/-- `DVFS_SET` (R473, R491): the operator cap of one region of `PART`, or of every one. -/
def cmdDvfsSet : CmdDef :=
  { op := 0x0B02, role := .owner, widths := [8, 8]
    body := fun s c =>
      let g := c.arg 0
      if 6 < c.arg 1 ∨ ¬ (g = 0xFF ∨ (g < 64 ∧ bitAt (s.part c.part).regions g)) then s.finish c.mb stBadArgument
      else
        let gs := if g = 0xFF then s.regionsOf c.part else [g]
        (gs.foldl (fun (s : State) g => (s.modRegion g fun r => { r with capOp := c.arg 1 }).applyStep g) s).finish c.mb stOk }
/-- `DVFS_SET`. -/
def execDvfsSet (t mb : Nat) (buf : Option (List Byte)) (s : State) : Out := cmdDvfsSet.run t mb { buf } s

/-- `POWER_BUDGET_SET` (R475). -/
def cmdPowerBudgetSet : CmdDef :=
  { op := 0x0B03, role := .admin, widths := [16]
    body := fun s c =>
      if c.arg 0 < 1000 ∨ 2600 < c.arg 0 then s.finish c.mb stBadArgument
      else ({ s with power := { s.power with budget := c.arg 0 } }).finish c.mb stOk }
/-- `POWER_BUDGET_SET`. -/
def execPowerBudgetSet (t mb : Nat) (buf : Option (List Byte)) (s : State) : Out := cmdPowerBudgetSet.run t mb { buf } s

/-- `PREWARN_DEFAULT_SET` (R483, R491): the partition's default load code. -/
def cmdPrewarnDefaultSet : CmdDef :=
  { op := 0x0B04, role := .owner, widths := [16]
    body := fun s c =>
      if 15 < c.arg 0 then s.finish c.mb stBadArgument
      else (s.modPart c.part fun x => { x with load := c.arg 0 }).finish c.mb stOk }
/-- `PREWARN_DEFAULT_SET`. -/
def execPrewarnDefaultSet (t mb : Nat) (buf : Option (List Byte)) (s : State) : Out := cmdPrewarnDefaultSet.run t mb { buf } s

/-- `REGION_POWER` (R488, R491): every region named is checked before any changes; the command completes when all have reached the
state. -/
def cmdRegionPower : CmdDef :=
  { op := 0x0B05, role := .admin, widths := [64, 8]
    body := fun s c =>
      let gs := (List.range 64).filter fun g => bitOn (c.arg 0) g
      let st := c.arg 1
      if 2 < st then s.finish c.mb stBadArgument
      else if gs.any fun g => match s.partOfRegion g with
          | some p => (s.job p).isSome
          | none => false then s.finish c.mb stRegionBound
      else if gs.any fun g => (s.region g).logic == .dark then s.finish c.mb stRegionDark
      else
        (gs.foldl (fun (s : State) g =>
          if (s.region g).reached st then s
          else if st = 2 then s.powerUp g else s.powerDown g (st == 1)) s).powerWaiters }
/-- `REGION_POWER`. -/
def execRegionPower (t mb : Nat) (buf : Option (List Byte)) (s : State) : Out := cmdRegionPower.run t mb { buf } s

/-- `THERMAL_SET` (R478). -/
def cmdThermalSet : CmdDef :=
  { op := 0x0B06, role := .admin, widths := [8]
    body := fun s c =>
      if c.arg 0 < 85 ∨ 103 < c.arg 0 then s.finish c.mb stBadArgument
      else ({ s with power := { s.power with throttle := c.arg 0 } }).finish c.mb stOk }
/-- `THERMAL_SET`. -/
def execThermalSet (t mb : Nat) (buf : Option (List Byte)) (s : State) : Out := cmdThermalSet.run t mb { buf } s

end Sys2Proof.Machine
end

