-- ==== Sys2Proof/Machine/CmdTime.lean ====
section
/-! DEFINITION. Group 0x03 and `LENT_SET`: the Almanac's shadow bank, `TIME_SET`, the Ides settings and the Herald statistics (07 R248, R249;
09 R265, R267, R272, R274, R277, R278, R289, R294; 14 R450). -/

namespace Sys2Proof.Machine

/-- Whether a mailbox may write an entry whose `PART` names a partition (R289). -/
def Mailbox.mayEntry (m : Mailbox) (e : AlmEntry) : Bool := m.role == 1 || (m.role == 2 && m.rolePart == e.part) || e.action == 0

/-- `ALMANAC_WRITE` (R278, R289): an entry of action 0 empties its place. -/
def cmdAlmanacWrite : CmdDef :=
  { op := 0x0301, role := .owner, widths := [16, 128], lock := lockPart
    body := fun s c =>
      let i := c.arg 0
      let e := almOf (c.arg 1)
      let m := s.mbx c.mb
      if s.alm.armed.isSome then s.finish c.mb stAlmanacArmed
      else if 8192 ≤ i then s.finish c.mb stBadArgument
      else if ¬ m.mayEntry e ∨ ¬ m.mayEntry (Tbl.get {} s.alm.shadow i) then s.finish c.mb stNoCredential
      else if e.action = 0 then
        (if c.arg 1 % 2 ^ 77 + c.arg 1 / 2 ^ 78 = 0 then ({ s with alm := { s.alm with shadow := Tbl.drop i s.alm.shadow } }).finish c.mb stOk
          else s.finish c.mb stConfigInvalid)
      else if ¬ almOk e (s.part e.part).regions.toNat then s.finish c.mb stConfigInvalid
      else ({ s with alm := { s.alm with shadow := Tbl.set {} i e s.alm.shadow } }).finish c.mb stOk }
/-- `ALMANAC_WRITE`. -/
def execAlmanacWrite (t mb : Nat) (buf : Option (List Byte)) (s : State) : Out := cmdAlmanacWrite.run t mb { buf } s

/-- `ALMANAC_ARM` (R289). -/
def cmdAlmanacArm : CmdDef :=
  { op := 0x0302, role := .owner, widths := [64], lock := lockPart
    body := fun s c =>
      if s.alm.armed.isSome then s.finish c.mb stAlmanacArmed
      else if c.arg 0 < s.now + 10 * ftUs then s.finish c.mb stBadArgument
      else ({ s with alm := { s.alm with armed := some (c.arg 0) } }).finish c.mb stOk }
/-- `ALMANAC_ARM`. -/
def execAlmanacArm (t mb : Nat) (buf : Option (List Byte)) (s : State) : Out := cmdAlmanacArm.run t mb { buf } s

/-- `ALMANAC_DISARM` (R289). -/
def cmdAlmanacDisarm : CmdDef :=
  { op := 0x0303, role := .owner
    body := fun s c => ({ s with alm := { s.alm with armed := none } }).finish c.mb stOk }
/-- `ALMANAC_DISARM`. -/
def execAlmanacDisarm (t mb : Nat) (buf : Option (List Byte)) (s : State) : Out := cmdAlmanacDisarm.run t mb { buf } s

/-- The settings of `TIME_SET` other than a step (R265, R267, R274). -/
def TimeSt.settings (x : TimeSt) (flags domain sync epoch : Nat) : TimeSt :=
  let x := if bitOn flags 0 then { x with epoch } else x
  let x := if bitOn flags 1 ∧ domain ≠ x.domain then { x with domain, masters := [], master := none, ptpRx := none, ptpPair := none, ptpDelay := 0 } else x
  if bitOn flags 2 then { x with syncEn := sync == 1 } else x

/-- `TIME_SET` (R265, R267, R272, R274): a step of 100 µs or more moves FT, a smaller one is slewed out. -/
def cmdTimeSet : CmdDef :=
  { op := 0x0304, role := .admin, widths := [8, 8, 8, 64, 64]
    body := fun s c =>
      let f := c.arg 0
      let step : Int := if bitOn f 3 then bitsZ (c.arg 4) 0 64 else 0
      let big := decide (400000 ≤ step.natAbs)
      if 16 ≤ f ∨ (bitOn f 1 ∧ 127 < c.arg 1) ∨ (bitOn f 2 ∧ 1 < c.arg 2) ∨
          (bitOn f 0 ∧ (s.now : Int) + ftSec * ((s.time.epoch : Int) - c.arg 3) < 0) ∨ (big ∧ (s.now : Int) + step < 0) then s.finish c.mb stBadArgument
      else if big ∧ s.jobsMask ≠ 0 then s.finish c.mb stJobBound
      else
        let s := s.modTime fun x => x.settings f (c.arg 1) (c.arg 2) (c.arg 3)
        let s := if big then s.modTime (·.stepBy step)
          else s.modTime fun x => { x with slew := x.slew + step }
        s.finish c.mb stOk }
/-- `TIME_SET`. -/
def execTimeSet (t mb : Nat) (buf : Option (List Byte)) (s : State) : Out := cmdTimeSet.run t mb { buf } s

/-- `IDES_SET` (R249). -/
def cmdIdesSet : CmdDef :=
  { op := 0x0305, role := .owner, widths := [8, 64], lock := lockPart
    body := fun s c =>
      let v := c.arg 1
      let inside (lo hi : Nat) : Bool := decide (lo ≤ v ∧ v ≤ hi)
      let put (f : Ides → Ides) : State := (s.modPart c.part fun x => { x with ides := f x.ides }).finish c.mb stOk
      if c.arg 0 = 0 ∧ inside 10 600000000 then put fun i => { i with waitUs := v }
      else if c.arg 0 = 1 ∧ inside 10 600000000 then put fun i => { i with longUs := v }
      else if c.arg 0 = 2 ∧ inside 1000 3600000000 then put fun i => { i with phaseUs := v }
      else if c.arg 0 = 3 ∧ inside 10000 86400000000 then put fun i => { i with stepUs := v }
      else s.finish c.mb stBadArgument }
/-- `IDES_SET`. -/
def execIdesSet (t mb : Nat) (buf : Option (List Byte)) (s : State) : Out := cmdIdesSet.run t mb { buf } s

/-- Clear the statistics entries of a Herald context (R293, R294, R330). -/
def State.clearStats (s : State) (g : Nat) : State :=
  match s.herald g with
  | none => s
  | some h =>
    let s := s.setHerald g (some { h with stats := h.stats.map fun x => { device := x.device } })
    (List.range h.stats.length).foldl (fun (s : State) i => s.ovfClear (0x16000000 + h.firstEntry + i)) s

/-- `HERALD_STATS_SET` (R294). -/
def cmdHeraldStatsSet : CmdDef :=
  { op := 0x0306, role := .admin, widths := [8, 8, 8]
    body := fun s c =>
      match s.herald (c.arg 0) with
      | none => s.finish c.mb stBadArgument
      | some h =>
        if 1 < c.arg 2 then s.finish c.mb stBadArgument
        else
          let s := s.setHerald (c.arg 0) (some { h with threshold := c.arg 1 })
          (if c.arg 2 = 1 then s.clearStats (c.arg 0) else s).finish c.mb stOk }
/-- `HERALD_STATS_SET`. -/
def execHeraldStatsSet (t mb : Nat) (buf : Option (List Byte)) (s : State) : Out := cmdHeraldStatsSet.run t mb { buf } s

/-- `LENT_SET` (R248): the long-wait threshold, 1 µs to 10 ms. -/
def cmdLentSet : CmdDef :=
  { op := 0x0B01, role := .owner, widths := [32]
    body := fun s c =>
      if c.arg 0 = 0 ∨ 10000 < c.arg 0 then s.finish c.mb stBadArgument
      else (s.modPart c.part fun x => { x with longWaitUs := c.arg 0 }).finish c.mb stOk }
/-- `LENT_SET`. -/
def execLentSet (t mb : Nat) (buf : Option (List Byte)) (s : State) : Out := cmdLentSet.run t mb { buf } s

end Sys2Proof.Machine
end

