-- ==== Sys2Proof/Machine/CmdTwin.lean ====
section
/-! DEFINITION. Group 0x08: twins, mirror export, restore onto a spare, repair in place, and the Epact record (13 R403 to R433; 14 R450). -/

namespace Sys2Proof.Machine

/-! ## Binding (R403 to R407) -/

/-- Whether a port may carry a binding of a partition with a peer (R403): UP, its partner the peer, no binding of another partition on it. -/
def State.bindPort (s : State) (p i dev : Nat) : Bool :=
  decide (i < 24) && (s.port i).st == .up && (s.port i).partnerDev == dev &&
    (List.range 16).all fun q => q == p || (s.part q).twin.st == .unbound || ((s.part q).twin.portA != i && (s.part q).twin.portB != i)

/-- The first run of `n` unmapped logical pages (R407). -/
def State.mirrorRun (s : State) (n : Nat) : Option Nat :=
  firstFree (fun l => decide (l + n ≤ 16777216) && (List.range n).all fun i => (s.pageEnt (l + i)).kind == .unmapped) 16777216 0

/-- A mirror region of `n` pages from zeroed pages (R388, R407): its base, or the status that refuses it. -/
def State.mirrorAlloc (s : State) (p n : Nat) : Except Nat (State × Option Nat) :=
  if n = 0 then .ok (s, none)
  else if 16777216 < n then .error stNoMemory
  else match s.mirrorRun n with
    | none => .error stNoMemory
    | some b => match s.mapPages ((List.range n).map (b + ·)) p .mirror true with
      | none => .error stNoMemory
      | some s => if s.keptFull then .error stKeepLimit else .ok (s, some b)

/-- `TWIN_BIND` (R403, R404, R406, R412): a broken binding is bound anew, its region reused when `RESERVE` is unchanged. The peer is told the
arguments that its own `TWIN_BIND` must match, and one whose own bind names another partition does not match. -/
def cmdTwinBind : CmdDef :=
  { op := 0x0801, role := .owner, widths := [8, 8, 8, 16, 16, 16, 32], lock := lockPart
    body := fun s c =>
      let p := c.part
      let x := (s.part p).twin
      let a := c.arg 1
      let b := c.arg 2
      let dev := c.arg 3
      let n := c.arg 6
      if 15 < c.arg 0 ∨ c.arg 4 < 1 ∨ 1000 < c.arg 4 ∨ c.arg 5 < 1 ∨ 600 < c.arg 5 ∨ ¬ s.bindPort p a dev ∨
          ¬ (b = 0xFF ∨ (b ≠ a ∧ s.bindPort p b dev)) then s.finish c.mb stBadArgument
      else if x.st = .syncing ∨ x.st = .bound then s.finish c.mb stNotPermitted
      else
        let ext := (s.mbx c.mb).ext
        let reuse : Bool := x.st == .broken && x.reserve == n
        let freed : State := match x.base with
          | some l => (s.unmapPages ((List.range x.reserve).map (l + ·))).zeroAll
          | none => s.zeroAll
        match (if reuse then .ok (s, x.base) else freed.mirrorAlloc p n : Except Nat (State × Option Nat)) with
        | .error st => s.finish c.mb st
        | .ok (s', base) =>
          let ask : OutMsg := .twinBind dev (c.arg 0) s.hub.devId p (c.arg 4) (c.arg 5) n
          if ext.later then s.askOnce c.mb ask
          else match ext.peer with
          | none => (s.askOnce c.mb ask).finish c.mb stTwinMismatch
          | some w =>
            if w.dev ≠ s.hub.devId ∨ w.part ≠ p then (s.askOnce c.mb ask).finish c.mb stTwinMismatch
            else
            let s' := s'.askOnce c.mb ask
            let y : Twin :=
              { st := .syncing, full := true, portA := a, portB := if b = 0xFF then 0x1F else b, peerDev := dev, peerPart := c.arg 0,
                deadlineMs := c.arg 4, fullS := c.arg 5, reserve := n, base, peerReserve := w.reserve, peerBase := w.base,
                peerLive := w.live.zipIdx.foldl (fun l e => Tbl.set 0 e.2 e.1 l) [], mirrors := x.mirrors,
                peerPages := if reuse then x.peerPages else 0, mirrorGen := if reuse then x.mirrorGen else 0,
                acked := x.acked, late := x.late, naks := x.naks }
            let s := ((s'.portTwin p false).modTwin p fun _ => y).portTwin p true
            let s := match s.job p with
              | some j => s.mirrorPend p [] j.lastSealed.step false
              | none => s
            s.finish c.mb stOk }
/-- `TWIN_BIND`; `peerOk`: the peer confirms matching arguments within 1 s, and `peer` is what it says of its mirror region; `later`: it has not
answered yet. -/
def execTwinBind (t mb : Nat) (buf : Option (List Byte)) (peerOk : Bool) (peer : TwinPeer) (later : Bool) (s : State) : Out :=
  cmdTwinBind.run t mb { buf, peer := if peerOk then some peer else none, later } s

/-- `TWIN_UNBIND` (R403): both ends go UNBOUND; the mirror pages are freed. -/
def cmdTwinUnbind : CmdDef :=
  { op := 0x0802, role := .owner, lock := lockPart
    body := fun s c =>
      let p := c.part
      let x := (s.part p).twin
      if x.st = .unbound then s.finish c.mb stOk
      else ((s.emit (.twinUnbind x.peerDev x.peerPart)).twinFree p).finish c.mb stOk }
/-- `TWIN_UNBIND`. -/
def execTwinUnbind (t mb : Nat) (buf : Option (List Byte)) (s : State) : Out := cmdTwinUnbind.run t mb { buf } s

/-- The partition whose twin peer is a device: `PART`, or any with `PART` 0xFF (R423). -/
def State.twinWith (s : State) (part dev : Nat) : Option Nat :=
  (List.range 16).find? fun p => (part == 0xFF || part == p) && (s.part p).twin.st != .unbound && (s.part p).twin.peerDev == dev

/-- `MIRROR_EXPORT` (R423): the binding with the lost device breaks, and the spare alone may read the mirror under the key slot. -/
def cmdMirrorExport : CmdDef :=
  { op := 0x0803, role := .admin, widths := [8, 16, 16]
    lock := fun s c => s.twinWith c.part (c.arg 1)
    body := fun s c => match s.twinWith c.part (c.arg 1) with
      | none => s.finish c.mb stNoMirror
      | some p =>
        ((s.mirrorCut p).modTwin p fun x =>
          { x with st := .broken, phase := .idle, awaitAck := false, full := false, waitBegin := false, todo := [], exported := true,
                   spare := some (c.arg 2, c.arg 0), exportFt := s.now }).finish c.mb stOk }
/-- `MIRROR_EXPORT`. -/
def execMirrorExport (t mb : Nat) (buf : Option (List Byte)) (s : State) : Out := cmdMirrorExport.run t mb { buf } s

/-! ## Restore onto a spare (R421 to R430) -/

/-- Fetched bytes go into a page's side A (R424). -/
def State.fetchInto (s : State) (l : Nat) (bs : List Byte) : State :=
  let b := s.pageBase l
  (s.dramBlit b pageBytes []).dramWrite b (bs.take pageBytes)

/-- Digest of a logical page as tally page `i` (R414). -/
def State.digestAt (s : State) (l i : Nat) : BitVec 128 :=
  s.gransDigest i fun g => s.pageBase l + 4096 * g

/-- Fetch a page and compare it with the page table; refetch it once when it fails (R424 orders 5 and 6). The flag says that it fails. -/
def State.fetchPage (s : State) (m : MirrorIn) (l i : Nat) : State × Bool :=
  let want := (m.pt.getD i (0, 0)).2
  let s := s.fetchInto l (m.pages.getD i [])
  if s.digestAt l i = want then (s, false)
  else
    let s := s.fetchInto l (m.again.getD i [])
    (s, s.digestAt l i != want)

/-- The last index of the run of consecutive indices that starts a list (R424). -/
def runEnd : Nat → List Nat → Nat
  | a, [] => a
  | a, b :: rest => if b = a + 1 then runEnd b rest else a

/-- Bytes at an offset of a class's pages of the sealed generation, in place (R428, R573). -/
def State.putLive (s : State) (j : Job) (c off : Nat) (bs : List Byte) : State :=
  match pagesOf j.classes c with
  | [] => s
  | ps =>
    let page := ps.getD (off / pageBytes) 0
    let g := off % pageBytes / 4096
    s.dramWrite (s.granAddr j page g (j.liveSide page g) + off % 4096) bs

/-- The job that a restored tally stands for, at generation `gen` (R424, R429). -/
def Restore.job (r : Restore) (o : Ordo) : Job :=
  { (freshJob o r.sideA r.sideB) with step := r.gen, jobPages := r.jobPages }

/-- Orders 5 to 10 of R424 on allocated pages. -/
def State.restoreFetch (s : State) (p : Nat) (o : Ordo) (r : Restore) (m : MirrorIn) (replica : Option (BitVec 128)) : State :=
  let n := o.classes.length
  let (s, bad) := (List.range n).foldl (fun (a : State × List Nat) i =>
    let (s, f) := a.1.fetchPage m (Tbl.get 0 r.sideA i) i
    (s, if f then a.2 ++ [i] else a.2)) (s, [])
  let digs := (List.range n).map fun i => (i, (o.classes.getD i 0, s.digestAt (Tbl.get 0 r.sideA i) i))
  let dt : Tbl (BitVec 128) := digs.map fun e => (e.1, e.2.2)
  let keep (s : State) (st : RestoreSt) : State := s.modPart p fun x => { x with restore := { r with st, pages := digs } }
  let wd := weightDigest o.classes dt
  match bad with
  | a :: rest => (keep s .mismatch).event 0x0802 p [(32, a), (32, runEnd a rest)]
  | [] =>
    if stateDigest o.classes dt ≠ m.lrec.stateDigest ∨ wd ≠ m.lrec.weightDigest then
      (keep s .mismatch).event 0x0802 p [(32, 0xFFFFFFFF), (32, 0xFFFFFFFF)]
    else if replica.isSome ∧ replica ≠ some wd then (keep s .mismatch).event 0x0802 p [(32, 0xFFFFFFFE), (32, 0xFFFFFFFE)]
    else
      let e := epactOfBytes (s.sealedClass (r.job o) 4 0 16)
      let delta := e.draws - r.cursor - e.offset.signExtend 64
      if delta = 0 ∧ e.cursor.setWidth 64 = r.cursor then (keep s .verified).event 0x0801 p [(8, 0), (64, r.gen)]
      else (keep s .epact).event 0x0803 p [(64, delta.toNat), (64, e.cursor.toNat), (64, r.cursor.toNat)]

/-- Whether a job is bound on any partition (R421). -/
def State.anyJob (s : State) : Bool := (List.range 16).any fun p => (s.job p).isSome

/-- `RESTORE_BEGIN` (R421, R424 to R427). -/
def cmdRestoreBegin : CmdDef :=
  { op := 0x0804, role := .owner, widths := [16, 8, 64, 64, 128], lock := lockPart
    body := fun s c =>
      let p := c.part
      let m := (s.mbx c.mb).ext.mirror
      match (s.part p).ordo with
      | none => s.finish c.mb stNotPermitted
      | some o =>
        if 1 < c.arg 1 then s.finish c.mb stBadArgument
        else if s.anyJob then s.finish c.mb stNotPermitted
        else
          let s := (s.dropRestore p).askOnce c.mb (.mirrorRead (c.arg 0) 0xFF)
          let gen := (m.lrec.step + 1) % 2 ^ 64
          if (s.mbx c.mb).ext.later then s
          else if ¬ m.exported then s.finish c.mb stNoMirror
          else if m.lrec.ordoId ≠ o.digest.setWidth 64 then s.finish c.mb stRestoreOrdo
          else if gen ≠ c.arg 2 then s.finish c.mb stRestoreGeneration 0 gen
          else
            let z := s.zeroAll
            match z.allocSides p o.classes.length with
            | none => s.finish c.mb stNoMemory
            | some (z, a, b) => match z.allocJob p o with
              | none => s.finish c.mb stNoMemory
              | some (z, ls) =>
                if z.keptFull then s.finish c.mb stKeepLimit
                else
                  let r : Restore := { survivor := c.arg 0, lostDev := m.lostDev, gen, cursor := BitVec.ofNat 64 (c.arg 3), lrec := m.lrec,
                                       sideA := a, sideB := b, jobPages := ls }
                  let z := z.modPart p fun x => { x with restore := r }
                  if ¬ m.answered then (z.dropRestore p).finish c.mb stTimeout
                  else (z.restoreFetch p o r m (if c.arg 1 = 1 then some (BitVec.ofNat 128 (c.arg 4)) else none)).finish c.mb stOk }
/-- `RESTORE_BEGIN`; `mirror` is what the survivor's mirror answers; `later`: it has not answered yet. -/
def execRestoreBegin (t mb : Nat) (buf : Option (List Byte)) (mirror : MirrorIn) (later : Bool) (s : State) : Out :=
  cmdRestoreBegin.run t mb { buf, mirror, later } s

/-- The Epact record at a data cursor (R428). -/
def epactAt (e : Epact) (c : Nat) : Epact :=
  { e with cursor := BitVec.ofNat 48 c, draws := BitVec.ofNat 64 c + e.offset.signExtend 64 }

/-- Write a reconciled record into the sealed Epact page and the random-state counter, and recompute the digests (R428). -/
def State.reconcileIn (s : State) (j : Job) (e : Epact) (d : Tbl (BitVec 128)) : State × Tbl (BitVec 128) :=
  let s := (s.putLive j 4 0 (leBytes 16 (epactNum e))).putLive j 3 8 (leBytes 8 e.draws.toNat)
  (s, (pagesOf j.classes 4 ++ pagesOf j.classes 3).foldl (fun (t : Tbl (BitVec 128)) i => Tbl.set 0 i (s.pageDigest j i (j.liveSide i)) t) d)

/-- `RECONCILE` (R428): on a spare after `RESTORE_EPACT`, or on a job in HOLD. -/
def cmdReconcile : CmdDef :=
  { op := 0x0808, role := .owner, widths := [64], lock := lockPart
    body := fun s c =>
      let p := c.part
      let x := s.part p
      if 2 ^ 48 ≤ c.arg 0 then s.finish c.mb stBadArgument
      else match x.job with
        | some j =>
          if j.st ≠ .hold then s.finish c.mb stNotPermitted
          else
            let e := epactAt j.epactSealed (c.arg 0)
            let (s, d) := s.reconcileIn j e j.digSealed
            let r : LedgerRec := { j.lastSealed with stateDigest := stateDigest j.classes d, weightDigest := weightDigest j.classes d, epact := e }
            (s.modJob p fun j =>
              { j with epactSealed := e, digSealed := d, lastSealed := r,
                       ledger := j.ledger.map fun y => if y.2.state = .sealed ∧ y.2.step = r.step then (y.1, r) else y }).ledgerOut p |>.finish c.mb stOk
        | none => match x.ordo with
          | none => s.finish c.mb stNotPermitted
          | some o =>
            let q := x.restore
            if ¬ (q.st = .epact ∨ (q.st = .verified ∧ q.reconciled)) then s.finish c.mb stNotPermitted
            else
              let j := q.job o
              let e := epactAt (epactOfBytes (s.sealedClass j 4 0 16)) (c.arg 0)
              let (s, d) := s.reconcileIn j e (q.pages.map fun y => (y.1, y.2.2))
              let r : LedgerRec := { q.lrec with stateDigest := stateDigest j.classes d, weightDigest := weightDigest j.classes d, epact := e }
              let q : Restore := { q with st := .verified, reconciled := true, lrec := r,
                                          pages := q.pages.map fun y => (y.1, (y.2.1, Tbl.get 0 d y.1)) }
              ((s.modPart p fun x => { x with restore := q }).event 0x0801 p [(8, 1), (64, q.gen)]).finish c.mb stOk }
/-- `RECONCILE`. -/
def execReconcile (t mb : Nat) (buf : Option (List Byte)) (s : State) : Out := cmdReconcile.run t mb { buf } s

/-- The restored state as a job stopped in HOLD at step G, G alone retained (R429, R430). -/
def State.restoredJob (s : State) (o : Ordo) (r : Restore) : Job :=
  let k := r.job o
  let e := epactOfBytes (s.sealedClass k 4 0 16)
  let an := s.sealedAnchors k
  let ch := s.sealedChanState k
  let hs := s.sealedHeralds k (o.groups.map (·.group))
  let d : Tbl (BitVec 128) := r.pages.map fun y => (y.1, y.2.2)
  let rc : LedgerRec := { r.lrec with state := .sealed, anchorPage := k.anchorPage }
  { k with retainFloor := r.gen, lastSealed := rc, ledger := [(0, rc)], ledgerPos := 1, digSealed := d, digWorking := d, epact := e,
           epactSealed := e, anchors := an, anchorsSealed := an, chanSealed := ch, chanWorking := ch, heralds := hs, heraldsSealed := hs }

/-- A Herald context in HOLD at a step with reason 0x10 and no votes (R47, R429). -/
def Herald.holdAt (h : Herald) (dev now step : Nat) : Herald :=
  let o : OutcomePkt := { step, herald := dev, group := h.group, outcome := .hold, attempt := 0, reason := 0x10, missing := h.members.length,
                          firstMissing := h.members.foldl min 0xFFFF, latest := 0xFFFFFFFF, decideFt := now }
  { h with held := [o], outcomes := [o] }

/-- `RESTORE_COMMIT` (R421, R429, R430): the device takes the lost device's ID, and the restored state is its job, in HOLD. -/
def cmdRestoreCommit : CmdDef :=
  { op := 0x0805, role := .owner, lock := lockPart
    body := fun s c =>
      let p := c.part
      let x := s.part p
      match x.ordo with
      | none => s.finish c.mb stNotPermitted
      | some o =>
        let r := x.restore
        if r.st ≠ .verified ∨ s.anyJob then s.finish c.mb stNotPermitted
        else if ¬ s.almRoom o then s.finish c.mb stAlmanacFull
        else
          let s := s.modHub fun h => { h with devId := r.lostDev }
          let j := s.restoredJob o r
          let s := s.bindJob p c.mb ((s.now + 3999) / 4000 * 4000) o j []
          let s := (s.modJob p fun j => { j with st := .hold, startMb := none }).modPart p fun x => { x with gate := false, restore := {} }
          let gs := o.groups.filter fun g => j.heraldOf g == r.lostDev
          let s := (s.closeHeralds p).openHeralds gs
          let s := gs.foldl (fun (s : State) g => s.setHerald g.group ((s.herald g.group).map fun h => h.holdAt r.lostDev s.now r.gen)) s
          (s.emit (.exportEnd r.survivor r.lostDev)).finish c.mb stOk }
/-- `RESTORE_COMMIT`. -/
def execRestoreCommit (t mb : Nat) (buf : Option (List Byte)) (s : State) : Out := cmdRestoreCommit.run t mb { buf } s

/-! ## Repair in place (R433) -/

/-- One page rebuilt from the twin (R433): a zeroed pair of sides with the fetched content on side A, the damaged physical page retired.
None when no zeroed pair is to be had. -/
def State.rebuildPage (s : State) (p i : Nat) (bs : List Byte) : Option State :=
  match s.job p with
  | none => none
  | some j =>
    let a := Tbl.get 0 j.sideA i
    let b := Tbl.get 0 j.sideB i
    let hurt (l : Nat) : Bool := s.dramBad (s.pageBase l) pageBytes
    let s := [a, b].foldl (fun (s : State) l => if (s.pageEnt l).kind ≠ .unmapped ∧ hurt l then s.startRetire (s.pageEnt l).ppn 2 else s) s
    let s := s.unmapPages [a, b]
    match s.mapPages [a] p .tallyA true with
    | none => none
    | some s => match s.mapPages [b] p .tallyB true with
      | none => none
      | some s => some (((s.fetchInto a bs).modJob p fun j =>
          { j with live := Tbl.set 0 i 0 j.live, lostPages := j.lostPages.filter (· != i) }).ledgerOut p)

/-- The pages of a range, one after another: none of the three ends, the first failing index, or no memory (R433). -/
def State.rebuildAll (p first : Nat) (m : MirrorIn) : List Nat → State → State × Option (Nat × Nat)
  | [], s => (s, none)
  | i :: rest, s =>
    let bs := m.pages.getD (i - first) []
    let padded := bs.take pageBytes ++ List.replicate (pageBytes - bs.length) 0
    match s.job p with
    | none => (s, some (stNoJob, 0))
    | some j =>
      if digestOf i (blocksOf (fun o => padded.getD o 0) 16384) ≠ Tbl.get 0 j.digSealed i then
        (s.modJob p fun j => { j with lostPages := if j.lostPages.contains i then j.lostPages else i :: j.lostPages },
          some (stRestoreMismatch, i))
      else match s.rebuildPage p i bs with
        | none => (s, some (stNoMemory, 0))
        | some s => State.rebuildAll p first m rest s

/-- The fills of a partition that an uncorrectable read stopped start again (R433). -/
def State.fillAgain (s : State) (p : Nat) : State :=
  (s.regionsOf p).foldl (fun (s : State) g => s.modRegion g fun r =>
    { r with repairs := match r.repairs with
        | .fill k q n _ :: rest => .fill k q n false :: rest
        | l => l }) (s.modJob p fun j => { j with fillStopped := false })

/-- `RESTORE_PAGE` (R433): it waits for a mirror in progress. A binding that has had no full mirror acknowledged holds no generation (DEDUCED, log
164). -/
def cmdRestorePage : CmdDef :=
  { op := 0x0806, role := .owner, widths := [32, 32], lock := lockPart
    body := fun s c =>
      let p := c.part
      let x := (s.part p).twin
      let m := (s.mbx c.mb).ext.mirror
      match s.job p with
      | none => s.finish c.mb stNoJob
      | some j =>
        if ¬ (x.st = .syncing ∨ x.st = .bound) then s.finish c.mb stNoMirror
        else if ¬ (j.st = .hold ∨ j.st = .stopped ∨ j.st = .atGate) then s.finish c.mb stNotPermitted
        else if c.arg 1 < c.arg 0 ∨ j.classes.length ≤ c.arg 1 then s.finish c.mb stBadArgument
        else if x.phase ≠ .idle then s
        else if ¬ x.outFull then s.finish c.mb stNoMirror
        else
          let s := s.askOnce c.mb (.mirrorRead x.peerDev x.peerPart)
          if (s.mbx c.mb).ext.later then s
          else if ¬ m.answered then s.finish c.mb stTimeout
          else
          let s := s.zeroAll
          let (s, e) := State.rebuildAll p (c.arg 0) m ((List.range (c.arg 1 + 1 - c.arg 0)).map (c.arg 0 + ·)) s
          let s := s.modJob p fun j => { j with retainFloor := j.step, gens := [], log := [], flipped := [] }
          match e with
          | some (st, i) => s.finish c.mb st 0 i
          | none => (s.fillAgain p).finish c.mb stOk }
/-- `RESTORE_PAGE`; `mirror` is what the twin's mirror answers; `later`: it has not answered yet. -/
def execRestorePage (t mb : Nat) (buf : Option (List Byte)) (mirror : MirrorIn) (later : Bool) (s : State) : Out :=
  cmdRestorePage.run t mb { buf, mirror, later } s

/-- `EPACT_READ` (R403, R418): the Epact record of the latest generation. -/
def cmdEpactRead : CmdDef :=
  { op := 0x0807, role := .any, part := true
    body := fun s c => match s.job c.part with
      | none => s.finish c.mb stNoJob
      | some j => s.finish c.mb stOk 0 (epactNum j.epactSealed) }
/-- `EPACT_READ`. -/
def execEpactRead (t mb : Nat) (buf : Option (List Byte)) (s : State) : Out := cmdEpactRead.run t mb { buf } s

end Sys2Proof.Machine
end

