-- ==== Sys2Proof/Machine/Collect.lean ====
section
/-! DEFINITION. The commands of the error collector and of the event ring's hold-off (10 R325 to R328, 14 R459). -/

namespace Sys2Proof.Machine

/-- `ERROR_RECORD_ARRIVE` (R325): a record reaches the collector; no unit writes a record of a reserved class (R321). -/
def execErrorRecordArrive (t : Nat) (r : ErrRec) (s : State) : Out :=
  let s := s.adv t
  .next <| if r.cls ∈ errClasses then s.errArrive r else s

/-- `COALESCE_ENTRY_AGE` (R326): an entry 1 s old is emitted as one record while `FILL` is below 960. -/
def execCoalesceEntryAge (t cls unitKind : Nat) (unit : BitVec 32) (s : State) : Out :=
  let s := s.adv t
  .next <| match s.col.table.find? fun e => e.cls == cls && e.unitKind == unitKind && e.unit == unit with
  | some e =>
    if e.ft + ftSec ≤ s.now ∧ s.col.fifo.length < 960 then
      ({ s with col := { s.col with table := s.col.table.erase e } }).errAppend e
    else s
  | none => s

/-- `LOG_RING_APPEND` (R326, R328): the Steward appends the oldest record of the FIFO to the log ring; at or below half, coalescing
entries follow. -/
def execLogRingAppend (t : Nat) (s : State) : Out :=
  let s := s.adv t
  .next <| match s.col.fifo with
  | [] => s
  | r :: rest =>
    let s := { s with col := { s.col with fifo := rest, storm := decide (768 ≤ rest.length) } }
    let s := s.ringAppend r
    if rest.length ≤ 512 then State.errEmit s.col.table.length s else s

/-- `EV_HOLDOFF_EXPIRE` (R459): the hold-off has elapsed since the last vector 16 interrupt. -/
def execEvHoldoffExpire (t : Nat) (s : State) : Out := .next (s.adv t).evSignal

end Sys2Proof.Machine
end

