-- ==== Sys2Proof/Machine/Grant.lean ====
section
/-! DEFINITION. What lets a waiting command go on: the grant of a partition's lock (14 R443), a zeroed page (12 R388), the end of the
tests of its sites (02 R76, 10 R307), and the acknowledgement of a mirror (01 R55, 13 R411, R433). -/

namespace Sys2Proof.Machine

/-- The commands that take a partition's lock (R443). -/
def lockDefs : List CmdDef :=
  [cmdPartitionDestroy, cmdOrdoLoad, cmdOrdoUnload, cmdJobStart, cmdAlmanacWrite, cmdAlmanacArm, cmdIdesSet, cmdReplayForce, cmdCommitRewind,
   cmdFenceSite, cmdVigilSet] ++
  [cmdPagemapAlloc, cmdPagemapFree, cmdWindowOpen, cmdWindowClose, cmdKeepSet, cmdTwinBind, cmdTwinUnbind, cmdMirrorExport, cmdRestoreBegin,
   cmdRestoreCommit, cmdRestorePage, cmdReconcile, cmdHarvestSet]

/-- Run a command that has been granted its lock: its checks again, then its body. -/
def State.granted (s : State) (mb : Nat) (d : Desc) : State :=
  match lockDefs.find? fun f => f.op == d.opcode with
  | none => s
  | some f =>
    let c : Cmd := { mb, d, a := (unpack f.widths d.args).getD [] }
    let st := s.gate f c
    (if st ≠ 0 then s.finish mb st else f.body s c).badOps 64 mb

/-- The command that is granted a lock next (R443): by acknowledgement FT, then by mailbox. -/
def nextWaiter : List (Nat × Nat) → Option (Nat × Nat)
  | [] => none
  | a :: rest => match nextWaiter rest with
    | none => some a
    | some b => if b.2 < a.2 ∨ (b.2 = a.2 ∧ b.1 < a.1) then some b else some a

/-- `COMMAND_LOCK_GRANT` (R443): a free lock goes to the command that waits for it first. `buf` is what the host's buffer holds now. -/
def execCommandLockGrant (t p : Nat) (buf : Option (List Byte)) (s : State) : Out :=
  let s := s.adv t
  .next <|
    if (s.part p).lock.isSome then s
    else match nextWaiter (s.part p).lockWait with
      | none => s
      | some (mb, ft) =>
        let s := s.modPart p fun x => { x with lockWait := x.lockWait.filter (· != (mb, ft)) }
        match (s.mbx mb).running with
        | none => s
        | some d =>
          let s := s.modPart p fun x => { x with lock := some mb }
          let s := if buf.isSome then s.modMb mb fun m => { m with ext := { m.ext with buf } } else s
          s.granted mb d

/-- `PAGE_ZERO_COMPLETE` (R388): a freed page is zero and back in the pool; the allocations that wait are tried again. -/
def execPageZeroComplete (t ppn : Nat) (s : State) : Out :=
  let s := s.adv t
  .next <|
    let s := s.zeroed ppn
    s.mem.allocWait.foldl (fun (s : State) mb => match (s.mbx mb).running with
      | some d => s.granted mb d
      | none => s) s

/-- An `ORDO_LOAD` that waits for the tests of its partition's sites goes on (R76). -/
def State.grantLoad (s : State) (p : Nat) : State :=
  match (s.part p).lock with
  | none => s
  | some mb => match (s.mbx mb).running with
    | some d => if d.opcode = 0x0203 then s.granted mb d else s
    | none => s

/-- `BIST_COMPLETE` (R76, R307, R284): the tests of a site in `TEST` end, with the observed logic signature and the bank, entry and March element of a
memory failure; the slot's BIST item ends with the last of them, and an initial placement that waits for them goes on. -/
def execBistComplete (t site : Nat) (logicSig : BitVec 64) (memPass : Bool) (bank entry elem : Nat) (s : State) : Out :=
  let s := s.adv t
  .next <|
    if (s.site site).st = .test then
      let p := s.partField site
      let s := (s.mapFlush p).bistResult site logicSig memPass bank entry elem
      if s.testing p then s else (s.slotEnd p 3).grantLoad p
    else s

/-- `TWIN_ACK_RECEIVE` (R55, R411, R433): an acknowledgement by the deadline completes the seal; a `RESTORE_PAGE` that waits goes on. -/
def execTwinAckReceive (t p step : Nat) (s : State) : Out :=
  let s := s.adv t
  .next <|
    let s := s.twinAck p step
    if (s.part p).twin.phase ≠ .idle then s
    else match (s.part p).lock with
      | none => s
      | some mb => match (s.mbx mb).running with
        | some d => if d.opcode = 0x0806 then s.granted mb d else s
        | none => s

end Sys2Proof.Machine
end

