-- ==== Sys2Proof/Machine/HostRead.lean ====
section
/-! DEFINITION. What a host read of BAR0 returns (14 R436 to R439, R442, R457 to R459). A read changes nothing but the sample of `FT_NOW`, which the
command `FT_NOW_READ` takes, so reads are functions of the state and no commands. -/

namespace Sys2Proof.Machine

/-- The eight bytes at `o` of a byte string, as a number; zero past its end. -/
def wordOf (bs : List Byte) (o : Nat) : Nat := num bs o 8

/-- An entry of the census mirror after its `MGEN` (R457), at an offset from 0x0010_0000; the even `MGEN` is a free value of the entry and FT
(assumption 33). -/
def State.mirrorEntry (s : State) (o : Nat) : List Byte :=
  let gen (b : List Byte) : List Byte := leBytes 8 (2 * (Config.mirrorGen o s.now).toNat) ++ b
  if o < 0x80 then gen (s.idBytes ++ leBytes 8 (ftWord s.time) ++ leBytes 8 (servoWord s.time) ++ leBytes 8 s.errCollect ++ leBytes 8 s.col.lost.v ++
    leBytes 8 s.col.total)
  else if 0x1000 ≤ o ∧ o < 0x2000 then gen (s.commitBytes ((o - 0x1000) / 256))
  else if 0x2000 ≤ o ∧ o < 0x2C00 then gen (((s.netObject 0x18 ((o - 0x2000) / 128))).getD [])
  else if 0x3000 ≤ o ∧ o < 0x3800 then gen (((s.netObject 0x1D ((o - 0x3000) / 128))).getD [])
  else if 0x4000 ≤ o ∧ o < 0x6000 then gen (s.regionHead ((o - 0x4000) / 128))
  else if 0x10000 ≤ o ∧ o < 0x10000 + 128 * 9216 then
    let k := (o - 0x10000) / 128
    let x := s.site k
    gen (slice (s.healthBytes k) 8 0x1A ++ leBytes 1 (siteCode x.st) ++ leBytes 1 (b1 x.suspect + 2 * b1 x.planned + 4 * b1 x.untested) ++
      leBytes 1 x.unrepro ++ leBytes 1 x.hist.length ++ (s.healthBytes k).drop 0x26)
  else []

/-- The bytes of the mirror entry from its first one, and the place of an offset in it (R457). -/
def mirrorPlace (o : Nat) : Nat × Nat :=
  if 0x1000 ≤ o ∧ o < 0x2000 then (o / 256 * 256, o % 256) else (o / 128 * 128, o % 128)

/-- An event ring control word (R459). -/
def State.evRegister (s : State) (r : Nat) : Nat :=
  if r = 0 then s.ev.tail + 2 ^ 16 * b1 s.ev.phase
  else if r = 8 then s.ev.head
  else if r = 0x10 then b1 s.ev.enable + 2 ^ 8 * s.ev.holdoff + 2 ^ 16 * s.ev.mark
  else if r = 0x18 then s.ev.lost.v + 2 ^ 48 * b1 s.ev.lost.ovf
  else 0

/-- An aligned 64-bit word of BAR0 as a host read returns it; an unassigned offset reads zero (R436). `FT_NOW` reads as last sampled (R437). -/
def State.readWord (s : State) (w : Nat) : Nat :=
  if w < 0x800 then wordOf s.idBytes w
  else if w < 0xC00 then
    let e : MsixEnt := Tbl.get {} s.msix ((w - 0x800) / 16)
    if w % 16 = 0 then e.addr.toNat else e.data.toNat + 2 ^ 32 * b1 e.masked
  else if w = 0xC00 then (List.range 64).foldl (fun n v => n + 2 ^ v * b1 (Tbl.get {} s.msix v : MsixEnt).pending) 0
  else if 0x1000 ≤ w ∧ w < 0x2000 then
    if w % 256 < 0x38 then wordOf (mailboxObj (s.mbx ((w - 0x1000) / 256))) (w % 256) else 0
  else if 0x2000 ≤ w ∧ w < 0xA000 then
    let o := w - 0x2000
    wordOf (completionBytes (Tbl.get {} (s.mbx (o / 2048)).cplRing (o % 2048 / 32))) (o % 32)
  else if 0x10000 ≤ w ∧ w < 0x10040 then s.evRegister (w - 0x10000)
  else if 0x20000 ≤ w ∧ w < 0x30000 then
    let o := w - 0x20000
    bitsN (Tbl.get 0 (s.mbx (o / 4096)).cmdRing (o % 4096 / 64) : BitVec 512).toNat (8 * (o % 64)) 64
  else if 0x30000 ≤ w ∧ w < 0x50000 then
    let o := w - 0x30000
    wordOf (eventBytes (Tbl.get {} s.ev.ring (o / 64))) (o % 64)
  else if 0x100000 ≤ w ∧ w < 0x800000 then
    let p := mirrorPlace (w - 0x100000)
    wordOf (s.mirrorEntry p.1) p.2
  else if 0x800000 ≤ w ∧ w < 0x1000000 then
    let o := w - 0x800000
    num (memReadN (s.mbx (o / 524288)).result (o % 524288) 8) 0 8
  else 0

/-- A host read of `len` bytes of BAR0 at an offset inside one aligned word (R7, R436). -/
def State.registerRead (s : State) (off len : Nat) : Nat := bitsN (s.readWord (off / 8 * 8)) (8 * (off % 8)) (8 * len)

end Sys2Proof.Machine
end

