-- ==== Sys2Proof/Machine/HostPort.lean ====
section
/-! DEFINITION. BAR0, the mailbox rings, the event ring control, the management Ethernet and the TAP (14 R435 to R446, R459, R460, R463 to
R466; 17 R544; 18 R566; 00 R7, R8). -/

namespace Sys2Proof.Machine

/-! ## Mailboxes (R438 to R446) -/

/-- Commands acknowledged and not yet completed (R439). -/
def Mailbox.waiting (m : Mailbox) : Nat := m.queue.length + b1 m.running.isSome + b1 m.kept.isSome

/-- A doorbell write with a new tail (R439). -/
def State.doorbell (s : State) (mb tail : Nat) : State :=
  let m := s.mbx mb
  let n := (tail % 64 + 64 - m.acked) % 64
  if m.enable ∧ n ≠ 0 ∧ n + m.waiting ≤ 63 then
    let ds := (List.range n).map fun i =>
      { slot := (m.acked + i) % 64, word := Tbl.get (0 : BitVec 512) m.cmdRing ((m.acked + i) % 64), ackFt := s.now }
    (s.modMb mb fun m => { m with queue := m.queue ++ ds, acked := tail % 64 }).badOps 64 mb
  else s.modMb mb fun m => { m with badDoorbell := true }

/-- `DOORBELL` (R439): the host writes a mailbox's `DOORBELL` register. -/
def execDoorbell (t mb tail : Nat) (s : State) : Out :=
  let s := s.adv t
  .next <| if mb < 16 ∧ ¬ s.hub.inReset then s.doorbell mb tail else s

/-- The mailbox reset of R446. A management mailbox ends its session with it (R547). -/
def State.mbReset (s : State) (mb : Nat) : State :=
  s.modMb mb fun m =>
    let gone : List HistCmd := m.queue.map fun d =>
      { opcode := BitVec.ofNat 16 d.opcode, tag := BitVec.ofNat 32 d.tag, status := stAborted, ackFt := d.ackFt, cplFt := s.now }
    { m with queue := [], discard := m.running.isSome, cplRing := [], acked := 0, exec := 0, cplTail := 0, cplHead := 0, cplPhase := true,
             stalled := false, kept := none, role := if mb < 16 ∧ m.role = 1 then 1 else 0, rolePart := 0, session := none,
             challenge := none, resetDone := true, hist := (gone.reverse ++ m.hist).take 64 }

/-- `MAILBOX_RESET` (R446): a write of 1 to a mailbox's `RESET`, or its equivalent on a management mailbox. -/
def execMailboxReset (t mb : Nat) (s : State) : Out :=
  let s := s.adv t
  .next <| if mb < 24 ∧ ¬ s.hub.inReset then s.mbReset mb else s

/-- The host has consumed completions up to `head`: a stalled completion is written when a slot is free (R444). -/
def State.cplHeadTo (s : State) (mb head : Nat) : State :=
  let s := s.modMb mb fun m => { m with cplHead := head % 64 }
  let m := s.mbx mb
  match m.kept with
  | some (c, irq) =>
    if m.cplFull then s
    else (((s.modMb mb fun m => { m with kept := none, stalled := false }).writeCpl mb c irq)).badOps 64 mb
  | none => s

/-- `CPL_HEAD_WRITE` (R438, R444). -/
def execCplHeadWrite (t mb head : Nat) (s : State) : Out :=
  let s := s.adv t
  .next <| if mb < 16 ∧ ¬ s.hub.inReset then s.cplHeadTo mb head else s

/-! ## The event ring (R459, R460) -/

/-- When space returns, one `EVENTS_LOST` event carries the count dropped (R460). -/
def State.evSpace (s : State) : State :=
  if s.ev.dropped = 0 ∨ s.evFull then s
  else
    let n := s.ev.dropped
    ({ s with ev := { s.ev with dropped := 0 } }).event 0x0105 0xFF [(64, n)]

/-- `EV_HEAD_WRITE` (R459, R460). -/
def execEvHeadWrite (t head : Nat) (s : State) : Out :=
  let s := s.adv t
  .next <| if s.hub.inReset then s else ({ s with ev := { s.ev with head := head % 2048 } }).evSpace

/-! ## Writes to BAR0 (R7, R8, R436 to R438, R459, R462) -/

/-- The bits of an aligned 64-bit word that a write of bytes at `off` covers, and their values: bit i of the word under bit i. -/
def wordAt (off : Nat) (bs : List Byte) (w : Nat) : Nat × Nat :=
  bs.zipIdx.foldl (fun a x =>
    let o := off + x.2
    if o / 8 = w / 8 then (a.1 + 255 * 2 ^ (8 * (o % 8)), a.2 + x.1.toNat * 2 ^ (8 * (o % 8))) else a) (0, 0)

/-- A field of `n` bits at `lo` after a write: the covered bits take the value written (R7). -/
def merged (old lo n mask val : Nat) : Nat :=
  (List.range n).foldl (fun r i => r + (if bitOn mask (lo + i) then bitsN val (lo + i) 1 else bitsN old i 1) * 2 ^ i) 0

/-- A write to a word of the MSI-X table (R436, R462): an entry unmasked while pending is sent. -/
def State.msixWord (s : State) (w mask val : Nat) : State :=
  let v := w / 16 % 64
  let e := Tbl.get {} s.msix v
  if w % 16 = 0 then
    { s with msix := Tbl.set {} v { e with addr := BitVec.ofNat 64 (merged e.addr.toNat 0 64 mask val) } s.msix }
  else
    let e := { e with data := BitVec.ofNat 32 (merged e.data.toNat 0 32 mask val), masked := merged (b1 e.masked) 32 1 mask val == 1 }
    let s := { s with msix := Tbl.set {} v e s.msix }
    if e.pending ∧ ¬ e.masked then s.msixFire v else s

/-- A write to a mailbox register word (R438). -/
def State.mbWord (s : State) (mb r mask val : Nat) : State :=
  if r = 0 then
    let s := s.modMb mb fun m => { m with enable := merged (b1 m.enable) 0 1 mask val == 1, irqEn := merged (b1 m.irqEn) 2 1 mask val == 1 }
    if bitOn mask 1 ∧ bitOn val 1 then s.mbReset mb else s
  else if r = 8 ∧ bitOn mask 0 then s.doorbell mb (val % 64)
  else if r = 0x20 ∧ bitOn mask 0 then s.cplHeadTo mb (val % 64)
  else if r = 0x30 then
    s.modMb mb fun m => { m with badDoorbell := m.badDoorbell && !(bitOn mask 0 && bitOn val 0),
                                 resetDone := m.resetDone && !(bitOn mask 1 && bitOn val 1) }
  else s

/-- A write to an event ring control word (R459). -/
def State.evWord (s : State) (r mask val : Nat) : State :=
  if r = 8 then ({ s with ev := { s.ev with head := merged s.ev.head 0 11 mask val } }).evSpace
  else if r = 0x10 then
    ({ s with ev := { s.ev with enable := merged (b1 s.ev.enable) 0 1 mask val == 1, holdoff := merged s.ev.holdoff 8 8 mask val,
                                mark := merged s.ev.mark 16 11 mask val } }).evSignal
  else s

/-- A write to a word of the HDM decoder in BAR2: base, then enable (R398, R434; assumption 11). -/
def State.hdmWord (s : State) (r mask val : Nat) : State :=
  if r = 0 then { s with mem := { s.mem with hdmBase := merged s.mem.hdmBase 0 64 mask val } }
  else if r = 8 then { s with mem := { s.mem with hdmOn := merged (b1 s.mem.hdmOn) 0 1 mask val == 1 } }
  else s

/-- A write to an aligned word of BAR0, or of BAR2 at 0x100_0000 upward; every other word is read-only or unassigned, and the write is
ignored (R7, R436). -/
def State.writeWord (s : State) (w mask val : Nat) : State :=
  if 0x800 ≤ w ∧ w < 0xC00 then s.msixWord w mask val
  else if 0x1000 ≤ w ∧ w < 0x2000 then s.mbWord ((w - 0x1000) / 256) (w % 256) mask val
  else if 0x10000 ≤ w ∧ w < 0x10040 then s.evWord (w % 64) mask val
  else if 0x20000 ≤ w ∧ w < 0x30000 then
    s.modMb ((w - 0x20000) / 4096) fun m =>
      let i := w % 4096 / 64
      let old : BitVec 512 := Tbl.get 0 m.cmdRing i
      let lo := 8 * (w % 64)
      let new := old.toNat - bitsN old.toNat lo 64 * 2 ^ lo + merged (bitsN old.toNat lo 64) 0 64 mask val * 2 ^ lo
      { m with cmdRing := Tbl.set 0 i (BitVec.ofNat 512 new) m.cmdRing }
  else if 0x1000000 ≤ w then s.hdmWord (w - 0x1000000) mask val
  else s

/-- `REGISTER_WRITE` (R7, R8): the host writes `len` bytes at an offset; nothing takes it while the device is held in reset (DEDUCED, log 38). -/
def execRegisterWrite (t off len val : Nat) (s : State) : Out :=
  let s := s.adv t
  let bs := leBytes len val
  .next <| if s.hub.inReset then s else (List.range ((off % 8 + len + 7) / 8)).foldl (fun (s : State) i =>
    let w := off / 8 * 8 + 8 * i
    let (m, v) := wordAt off bs w
    s.writeWord w m v) s

/-- `FT_NOW_READ` (R437): a read of `FT_NOW` bits 31:0, or of the whole register, samples FT. -/
def execFtNowRead (t : Nat) (s : State) : Out :=
  let s := s.adv t
  .next (s.modHub fun h => { h with ftNow := s.now })

/-- `HOST_PORT_RESET` (R435): host-facing state alone is reset. -/
def execHostPortReset (t : Nat) (s : State) : Out :=
  let s := s.adv t
  let s := (List.range 16).foldl State.mbReset s
  let s := { s with msix := (List.range 64).foldl (fun m v => Tbl.set {} v { (Tbl.get {} m v : MsixEnt) with masked := true } m) s.msix }
  let s := { s with ev := { s.ev with ring := [], tail := 0, head := 0, phase := true },
                    mem := { s.mem with hdmOn := false, hdmBase := 0 } }
  .next s.evSpace

/-! ## Management Ethernet (R463 to R466) -/

/-- The payload of a management frame, with its source MAC, if the port takes the frame (R463). -/
def framePayload (f : List Byte) : Option (Nat × List Byte) :=
  let tagged : Bool := num f 12 2 == 0x0081
  let h := if tagged then 16 else 12
  if 1522 < f.length ∨ f.length < h + 2 then none
  else if num f h 2 = 0xB588 then some (num f 6 6, f.drop (h + 2)) else none

/-- Commands that a repeat executes again (R466). -/
def repeatable (op : Nat) : Bool := op / 256 == 9 || op / 256 == 0xA || op ∈ [0x0101, 0x0401, 0x0402, 0x0807]

/-- A command message (R464 to R466); its answers go back where it came from, with its tag. -/
def State.mgmtCommand (s : State) (port mb : Nat) (src : MgmtAddr) (body : List Byte) : State :=
  let m := s.mbx mb
  let d : Desc := { slot := m.acked, word := BitVec.ofNat 512 (num body 0 64), ackFt := s.now, data := body.drop 64, reply := src }
  let tag := BitVec.ofNat 32 d.tag
  let ack := s.mgmtSend port src false 2 mb (leBytes 4 d.tag)
  let take := (ack.modMb mb fun m => { m with queue := m.queue ++ [d], acked := (m.acked + 1) % 64 }).badOps 64 mb
  if (m.running.toList ++ m.queue).any (·.tag == d.tag) then ack
  else match m.keptCpl.find? (·.1 == tag) with
    | some (_, c) => if repeatable c.opcode.toNat then take else s.mgmtSend port src false 3 mb (completionBytes c)
    | none => take

/-- A whole message (R464): type, enterprise number, `MOP`, `MAILBOX`, body. -/
def State.mgmtTake (s : State) (port : Nat) (src : MgmtAddr) (b : List Byte) : State :=
  let mb := num b 6 1
  if num b 0 1 = 0x7F ∧ num b 1 4 = 0xE5A10300 ∧ num b 5 1 = 1 ∧ 16 + 4 * port ≤ mb ∧ mb < 20 + 4 * port ∧ 73 ≤ b.length ∧ b.length ≤ 532480
  then s.mgmtCommand port mb src (b.drop 9) else s

/-- An MCTP packet joins its message: `none` when the message is discarded whole, else its bytes so far (R464). -/
def joinPacket (old : Option (Nat × List Byte)) (som : Bool) (seq : Nat) (pl : List Byte) : Option (List Byte) :=
  if som then some pl
  else match old with
    | some (n, b) => if n = seq ∧ b.length + pl.length ≤ 532480 then some (b ++ pl) else none
    | none => none

/-- `MGMT_FRAME_RECEIVE` (R463 to R466). A frame that comes shows that the port's link is up again (DEDUCED, log 165). -/
def execMgmtFrameReceive (t port : Nat) (frame : List Byte) (s : State) : Out :=
  let s := s.adv t
  .next <| match framePayload frame with
  | none => s
  | some (mac, b) =>
    let eid := num b 10 1
    let fl := num b 11 1
    let key : Nat × Nat × Nat := (mac, eid, fl % 16)
    let mg := s.mgmtPort port
    if 2 ≤ port ∨ s.hub.inReset ∨ num b 0 1 ≠ 1 ∨ num b 8 1 % 16 ≠ 1 ∨ num b 9 1 ≠ s.hub.config.mctpEid ∨ 1036 < b.length ∨ b.length < 12
    then s
    else
      let old := (mg.reasm.find? (·.1 == key)).map (·.2)
      let rest := mg.reasm.filter fun x => x.1 != key
      let s := s.modMgmt port fun x => { x with link := true, reasm := rest }
      match joinPacket old (bitOn fl 7) (fl / 16 % 4) (b.drop 12) with
      | none => s
      | some bs =>
        if bitOn fl 6 then s.mgmtTake port { mac := leBytes 6 mac, eid, tag := fl % 8 } bs
        else s.modMgmt port fun x => { x with reasm := rest ++ [(key, (fl / 16 + 1) % 4, bs)] }

/-! ## The TAP (R544, R545, R566) -/

/-- `JTAG_INSTRUCTION` (R539, R545, R566): `ir` 0 is `IDCODE`, 1 `BYPASS`, 2 + i an instruction of debug scope i. An instruction of a scope that
is not open leaves the TAP in bypass and alarms class 5. -/
def execJtagInstruction (t ir : Nat) (s : State) : Out :=
  let s := s.adv t
  let tap (n : Nat) (s : State) : State := { s with sec := { s.sec with tap := n } }
  .next <|
    if ir = 0 then (tap 0 s).emit (.jtag (1#4 ++ 0x8A08#16 ++ Config.jedec ++ 1#1))
    else if ir = 1 then tap 0 s
    else if 2 ≤ ir ∧ ir ≤ 6 ∧ bitAt s.sec.debug (ir - 2) then tap ir s
    else (tap 0 s).alarm 5 0 0

end Sys2Proof.Machine
end

