-- ==== Sys2Proof/Machine/Dispatch.lean ====
section
/-! DEFINITION. One arm per command: each calls the one meaning of its command. -/

namespace Sys2Proof.Machine

/-- What a command does to everything but the queue. -/
def exec (i : Instr) (s : State) : Host.Outcome State Fault Refusal :=
  match i with
  | .calendsClose t p => Sys2Proof.Machine.execCalendsClose t p s
  | .voteSend t p => Sys2Proof.Machine.execVoteSend t p s
  | .voteReceive t v => Sys2Proof.Machine.execVoteReceive t v s
  | .voteDeadlineExpire t g step attempt => Sys2Proof.Machine.execVoteDeadlineExpire t g step attempt s
  | .outcomeQueryTimeout t p => Sys2Proof.Machine.execOutcomeQueryTimeout t p s
  | .heraldQueryReceive t v => Sys2Proof.Machine.execHeraldQueryReceive t v s
  | .heraldSilent t p => Sys2Proof.Machine.execHeraldSilent t p s
  | .sealOutcome t p o => Sys2Proof.Machine.execSealOutcome t p o s
  | .replayOutcome t p o => Sys2Proof.Machine.execReplayOutcome t p o s
  | .replayStart t p => Sys2Proof.Machine.execReplayStart t p s
  | .holdOutcome t p o => Sys2Proof.Machine.execHoldOutcome t p o s
  | .abandonOutcome t p o => Sys2Proof.Machine.execAbandonOutcome t p o s
  | .wbWriteBack t site => Sys2Proof.Machine.execWbWriteBack t site s
  | .mirrorDeadlineExpire t p => Sys2Proof.Machine.execMirrorDeadlineExpire t p s
  | .twinAckReceive t p step => Sys2Proof.Machine.execTwinAckReceive t p step s
  | .vigilLoad t g => Sys2Proof.Machine.execVigilLoad t g s
  | .stepRelease t p => Sys2Proof.Machine.execStepRelease t p s
  | .fullPlacement t g => Sys2Proof.Machine.execFullPlacement t g s
  | .siteFaultDetect t site cls check lane syndrome unit => Sys2Proof.Machine.execSiteFaultDetect t site cls check lane syndrome unit s
  | .plannedFence t site => Sys2Proof.Machine.execPlannedFence t site s
  | .repairStart t g => Sys2Proof.Machine.execRepairStart t g s
  | .spareFillComplete t g => Sys2Proof.Machine.execSpareFillComplete t g s
  | .patchKgroup t site => Sys2Proof.Machine.execPatchKgroup t site s
  | .vectorBeat t site => Sys2Proof.Machine.execVectorBeat t site s
  | .routeElementSend t site plane port => Sys2Proof.Machine.execRouteElementSend t site plane port s
  | .creditReturn t site plane port => Sys2Proof.Machine.execCreditReturn t site plane port s
  | .portSwitch t site plane port inject => Sys2Proof.Machine.execPortSwitch t site plane port inject s
  | .counterAdvance t site n => Sys2Proof.Machine.execCounterAdvance t site n s
  | .steerFire t site n => Sys2Proof.Machine.execSteerFire t site n s
  | .shadowLoad t site => Sys2Proof.Machine.execShadowLoad t site s
  | .unitSwitch t site unit => Sys2Proof.Machine.execUnitSwitch t site unit s
  | .eveTokenHead t site unit => Sys2Proof.Machine.execEveTokenHead t site unit s
  | .sliceAccessGrant t site wreq nreq hits => Sys2Proof.Machine.execSliceAccessGrant t site wreq nreq hits s
  | .agIteration t site n => Sys2Proof.Machine.execAgIteration t site n s
  | .windowAccess t pkt hits => Sys2Proof.Machine.execWindowAccess t pkt hits s
  | .tileMovingRetry t die tag => Sys2Proof.Machine.execTileMovingRetry t die tag s
  | .zeroSweepComplete t p => Sys2Proof.Machine.execZeroSweepComplete t p s
  | .seqInstruction t site upset => Sys2Proof.Machine.execSeqInstruction t site upset s
  | .xSend t site => Sys2Proof.Machine.execXSend t site s
  | .xTrysend t site => Sys2Proof.Machine.execXTrysend t site s
  | .xDone t site => Sys2Proof.Machine.execXDone t site s
  | .xRecv t site => Sys2Proof.Machine.execXRecv t site s
  | .xRelease t site => Sys2Proof.Machine.execXRelease t site s
  | .xPutw t site => Sys2Proof.Machine.execXPutw t site s
  | .xGetw t site => Sys2Proof.Machine.execXGetw t site s
  | .xPutt t site => Sys2Proof.Machine.execXPutt t site s
  | .xGett t site => Sys2Proof.Machine.execXGett t site s
  | .xPutv t site => Sys2Proof.Machine.execXPutv t site s
  | .xGetv t site => Sys2Proof.Machine.execXGetv t site s
  | .xEphase t site => Sys2Proof.Machine.execXEphase t site s
  | .xSigraise t site => Sys2Proof.Machine.execXSigraise t site s
  | .xSigwait t site => Sys2Proof.Machine.execXSigwait t site s
  | .xSigwaitl t site => Sys2Proof.Machine.execXSigwaitl t site s
  | .xSigsub t site => Sys2Proof.Machine.execXSigsub t site s
  | .xSigread t site => Sys2Proof.Machine.execXSigread t site s
  | .xBarrive t site => Sys2Proof.Machine.execXBarrive t site s
  | .xBarwait t site => Sys2Proof.Machine.execXBarwait t site s
  | .xFence t site => Sys2Proof.Machine.execXFence t site s
  | .xSemset t site => Sys2Proof.Machine.execXSemset t site s
  | .xSemclr t site => Sys2Proof.Machine.execXSemclr t site s
  | .xSemwait t site => Sys2Proof.Machine.execXSemwait t site s
  | .seqWaitWake t site => Sys2Proof.Machine.execSeqWaitWake t site s
  | .fastEnter t site => Sys2Proof.Machine.execFastEnter t site s
  | .handlerDispatch t site => Sys2Proof.Machine.execHandlerDispatch t site s
  | .depositReceive t pkt => Sys2Proof.Machine.execDepositReceive t pkt s
  | .channelCreditReceive t site slot lines => Sys2Proof.Machine.execChannelCreditReceive t site slot lines s
  | .sendStallExpire t site slot => Sys2Proof.Machine.execSendStallExpire t site slot s
  | .spillDepositReceive t pkt => Sys2Proof.Machine.execSpillDepositReceive t pkt s
  | .contributionReceive t pkt => Sys2Proof.Machine.execContributionReceive t pkt s
  | .signalRaiseReceive t pkt amount => Sys2Proof.Machine.execSignalRaiseReceive t pkt amount s
  | .barrierArrivalReceive t router p bar => Sys2Proof.Machine.execBarrierArrivalReceive t router p bar s
  | .barrierReleaseReceive t tile bar => Sys2Proof.Machine.execBarrierReleaseReceive t tile bar s
  | .longWaitThreshold t site => Sys2Proof.Machine.execLongWaitThreshold t site s
  | .idesWaitExpire t site => Sys2Proof.Machine.execIdesWaitExpire t site s
  | .idesPhaseExpire t p => Sys2Proof.Machine.execIdesPhaseExpire t p s
  | .idesStepExpire t p => Sys2Proof.Machine.execIdesStepExpire t p s
  | .harvestComplete t p => Sys2Proof.Machine.execHarvestComplete t p s
  | .ptpMessageReceive t m body => Sys2Proof.Machine.execPtpMessageReceive t m body s
  | .ptpMasterLoss t port => Sys2Proof.Machine.execPtpMasterLoss t port s
  | .timeFrameSend t port => Sys2Proof.Machine.execTimeFrameSend t port s
  | .timeFrameReceive t port f => Sys2Proof.Machine.execTimeFrameReceive t port f s
  | .servoUpdate t => Sys2Proof.Machine.execServoUpdate t s
  | .holdoverExpire t => Sys2Proof.Machine.execHoldoverExpire t s
  | .syncEdge t => Sys2Proof.Machine.execSyncEdge t s
  | .twinTimeReceive t capture => Sys2Proof.Machine.execTwinTimeReceive t capture s
  | .syncFollowerTimeout t => Sys2Proof.Machine.execSyncFollowerTimeout t s
  | .almanacFire t e => Sys2Proof.Machine.execAlmanacFire t e s
  | .almanacDeadlineExpire t p e => Sys2Proof.Machine.execAlmanacDeadlineExpire t p e s
  | .almanacBankSwap t => Sys2Proof.Machine.execAlmanacBankSwap t s
  | .automaticPrewarn t p => Sys2Proof.Machine.execAutomaticPrewarn t p s
  | .intercalarySlotOpen t p => Sys2Proof.Machine.execIntercalarySlotOpen t p s
  | .intercalarySlotClose t p => Sys2Proof.Machine.execIntercalarySlotClose t p s
  | .bistComplete t site logicSig memPass bank entry elem => Sys2Proof.Machine.execBistComplete t site logicSig memPass bank entry elem s
  | .errorRecordArrive t r => Sys2Proof.Machine.execErrorRecordArrive t r s
  | .coalesceEntryAge t cls unitKind unit => Sys2Proof.Machine.execCoalesceEntryAge t cls unitKind unit s
  | .logRingAppend t => Sys2Proof.Machine.execLogRingAppend t s
  | .portTrain t port mask => Sys2Proof.Machine.execPortTrain t port mask s
  | .laneLockTimeout t port lane => Sys2Proof.Machine.execLaneLockTimeout t port lane s
  | .berGateEnd t port errors => Sys2Proof.Machine.execBerGateEnd t port errors s
  | .trainingAbandon t port => Sys2Proof.Machine.execTrainingAbandon t port s
  | .laneFail t port lane cause => Sys2Proof.Machine.execLaneFail t port lane cause s
  | .swapOrderedSetReceive t port lane => Sys2Proof.Machine.execSwapOrderedSetReceive t port lane s
  | .laneSwapResume t port => Sys2Proof.Machine.execLaneSwapResume t port s
  | .flitReceive t port f => Sys2Proof.Machine.execFlitReceive t port f s
  | .nakReceive t port ack => Sys2Proof.Machine.execNakReceive t port ack s
  | .retryAckTimeout t port => Sys2Proof.Machine.execRetryAckTimeout t port s
  | .initFlitReceive t port op => Sys2Proof.Machine.execInitFlitReceive t port op s
  | .keyNextReceive t port slot => Sys2Proof.Machine.execKeyNextReceive t port slot s
  | .retrainRequestReceive t port => Sys2Proof.Machine.execRetrainRequestReceive t port s
  | .swapPlanReceive t port lane => Sys2Proof.Machine.execSwapPlanReceive t port lane s
  | .downNoticeReceive t port => Sys2Proof.Machine.execDownNoticeReceive t port s
  | .minWidthReceive t port w => Sys2Proof.Machine.execMinWidthReceive t port w s
  | .controlFlitResend t port => Sys2Proof.Machine.execControlFlitResend t port s
  | .keySelChange t port rx => Sys2Proof.Machine.execKeySelChange t port rx s
  | .packetRoute t router die pkt => Sys2Proof.Machine.execPacketRoute t router die pkt s
  | .combineForward t router cu => Sys2Proof.Machine.execCombineForward t router cu s
  | .dmaDescriptorStart t die tile => Sys2Proof.Machine.execDmaDescriptorStart t die tile s
  | .completionReceive t die tag status ece ue data => Sys2Proof.Machine.execCompletionReceive t die tag status ece ue data s
  | .dmaRateIncrease t q dest => Sys2Proof.Machine.execDmaRateIncrease t q dest s
  | .transactionTimeout t die tag => Sys2Proof.Machine.execTransactionTimeout t die tag s
  | .routeDrainComplete t cls => Sys2Proof.Machine.execRouteDrainComplete t cls s
  | .ddrTrainingComplete t ch present disabled spd fails test => Sys2Proof.Machine.execDdrTrainingComplete t ch present disabled spd fails test s
  | .ddrPhyLockLoss t ch => Sys2Proof.Machine.execDdrPhyLockLoss t ch s
  | .pageAccess t pkt ecc mapEcc word inPort => Sys2Proof.Machine.execPageAccess t pkt ecc mapEcc word inPort s
  | .pagemapRebuild t page => Sys2Proof.Machine.execPagemapRebuild t page s
  | .scrubRead t addr ecc => Sys2Proof.Machine.execScrubRead t addr ecc s
  | .pageMigrationCopy t die err => Sys2Proof.Machine.execPageMigrationCopy t die err s
  | .pageZeroComplete t ppn => Sys2Proof.Machine.execPageZeroComplete t ppn s
  | .cxlMemRead t hpa len ecc => Sys2Proof.Machine.execCxlMemRead t hpa len ecc s
  | .cxlMemWrite t hpa data => Sys2Proof.Machine.execCxlMemWrite t hpa data s
  | .mirrorRelease t p => Sys2Proof.Machine.execMirrorRelease t p s
  | .mirrorWritesAcked t p => Sys2Proof.Machine.execMirrorWritesAcked t p s
  | .mirrorSlotAcked t p => Sys2Proof.Machine.execMirrorSlotAcked t p s
  | .twinApplyReceive t p step => Sys2Proof.Machine.execTwinApplyReceive t p step s
  | .twinNakReceive t p pages => Sys2Proof.Machine.execTwinNakReceive t p pages s
  | .twinBreakReceive t p unbind => Sys2Proof.Machine.execTwinBreakReceive t p unbind s
  | .mirrorExportExpire t p commit => Sys2Proof.Machine.execMirrorExportExpire t p commit s
  | .inputRecordConsume t p => Sys2Proof.Machine.execInputRecordConsume t p s
  | .doorbell t mb tail => Sys2Proof.Machine.execDoorbell t mb tail s
  | .commandLockGrant t p buf => Sys2Proof.Machine.execCommandLockGrant t p buf s
  | .mailboxReset t mb => Sys2Proof.Machine.execMailboxReset t mb s
  | .cplHeadWrite t mb head => Sys2Proof.Machine.execCplHeadWrite t mb head s
  | .evHeadWrite t head => Sys2Proof.Machine.execEvHeadWrite t head s
  | .registerWrite t off len val => Sys2Proof.Machine.execRegisterWrite t off len val s
  | .hostPortReset t => Sys2Proof.Machine.execHostPortReset t s
  | .mgmtFrameReceive t port frame => Sys2Proof.Machine.execMgmtFrameReceive t port frame s
  | .censusGateCapture t p => Sys2Proof.Machine.execCensusGateCapture t p s
  | .identify t mb buf => Sys2Proof.Machine.execIdentify t mb buf s
  | .shutdown t mb buf sigs slow => Sys2Proof.Machine.execShutdown t mb buf sigs slow s
  | .resetPartition t mb buf => Sys2Proof.Machine.execResetPartition t mb buf s
  | .resetJubilee t mb buf => Sys2Proof.Machine.execResetJubilee t mb buf s
  | .resetRecovery t mb found => Sys2Proof.Machine.execResetRecovery t mb found s
  | .deviceIdSet t mb buf => Sys2Proof.Machine.execDeviceIdSet t mb buf s
  | .configWrite t mb buf => Sys2Proof.Machine.execConfigWrite t mb buf s
  | .mailboxClaim t mb buf => Sys2Proof.Machine.execMailboxClaim t mb buf s
  | .mailboxRelease t mb buf => Sys2Proof.Machine.execMailboxRelease t mb buf s
  | .fwHostload t mb buf memFail => Sys2Proof.Machine.execFwHostload t mb buf memFail s
  | .eventMaskSet t mb buf => Sys2Proof.Machine.execEventMaskSet t mb buf s
  | .eventStreamSet t mb buf => Sys2Proof.Machine.execEventStreamSet t mb buf s
  | .partitionCreate t mb buf => Sys2Proof.Machine.execPartitionCreate t mb buf s
  | .partitionDestroy t mb buf => Sys2Proof.Machine.execPartitionDestroy t mb buf s
  | .ordoLoad t mb buf => Sys2Proof.Machine.execOrdoLoad t mb buf s
  | .ordoUnload t mb buf => Sys2Proof.Machine.execOrdoUnload t mb buf s
  | .jobStart t mb buf tables later => Sys2Proof.Machine.execJobStart t mb buf tables later s
  | .jobKill t mb buf => Sys2Proof.Machine.execJobKill t mb buf s
  | .almanacWrite t mb buf => Sys2Proof.Machine.execAlmanacWrite t mb buf s
  | .almanacArm t mb buf => Sys2Proof.Machine.execAlmanacArm t mb buf s
  | .almanacDisarm t mb buf => Sys2Proof.Machine.execAlmanacDisarm t mb buf s
  | .timeSet t mb buf => Sys2Proof.Machine.execTimeSet t mb buf s
  | .idesSet t mb buf => Sys2Proof.Machine.execIdesSet t mb buf s
  | .heraldStatsSet t mb buf => Sys2Proof.Machine.execHeraldStatsSet t mb buf s
  | .commitStatus t mb buf => Sys2Proof.Machine.execCommitStatus t mb buf s
  | .digestRead t mb buf => Sys2Proof.Machine.execDigestRead t mb buf s
  | .replayForce t mb buf herald later => Sys2Proof.Machine.execReplayForce t mb buf herald later s
  | .commitRewind t mb buf => Sys2Proof.Machine.execCommitRewind t mb buf s
  | .holdRelease t mb buf => Sys2Proof.Machine.execHoldRelease t mb buf s
  | .fenceSite t mb buf => Sys2Proof.Machine.execFenceSite t mb buf s
  | .vigilSet t mb buf => Sys2Proof.Machine.execVigilSet t mb buf s
  | .portConfig t mb buf => Sys2Proof.Machine.execPortConfig t mb buf s
  | .portRetrain t mb buf => Sys2Proof.Machine.execPortRetrain t mb buf s
  | .routeCfgSet t mb buf => Sys2Proof.Machine.execRouteCfgSet t mb buf s
  | .routeTableWrite t mb buf => Sys2Proof.Machine.execRouteTableWrite t mb buf s
  | .routeSwap t mb buf => Sys2Proof.Machine.execRouteSwap t mb buf s
  | .routeEpochSwitch t mb buf => Sys2Proof.Machine.execRouteEpochSwitch t mb buf s
  | .groupHeraldSet t mb buf => Sys2Proof.Machine.execGroupHeraldSet t mb buf s
  | .pagemapAlloc t mb buf => Sys2Proof.Machine.execPagemapAlloc t mb buf s
  | .pagemapFree t mb buf => Sys2Proof.Machine.execPagemapFree t mb buf s
  | .windowOpen t mb buf => Sys2Proof.Machine.execWindowOpen t mb buf s
  | .windowClose t mb buf => Sys2Proof.Machine.execWindowClose t mb buf s
  | .keepSet t mb buf => Sys2Proof.Machine.execKeepSet t mb buf s
  | .scrubSet t mb buf => Sys2Proof.Machine.execScrubSet t mb buf s
  | .pageRetire t mb buf => Sys2Proof.Machine.execPageRetire t mb buf s
  | .pageRetireSet t mb buf => Sys2Proof.Machine.execPageRetireSet t mb buf s
  | .twinBind t mb buf peerOk peer later => Sys2Proof.Machine.execTwinBind t mb buf peerOk peer later s
  | .twinUnbind t mb buf => Sys2Proof.Machine.execTwinUnbind t mb buf s
  | .mirrorExport t mb buf => Sys2Proof.Machine.execMirrorExport t mb buf s
  | .restoreBegin t mb buf mirror later => Sys2Proof.Machine.execRestoreBegin t mb buf mirror later s
  | .restoreCommit t mb buf => Sys2Proof.Machine.execRestoreCommit t mb buf s
  | .restorePage t mb buf mirror later => Sys2Proof.Machine.execRestorePage t mb buf mirror later s
  | .epactRead t mb buf => Sys2Proof.Machine.execEpactRead t mb buf s
  | .reconcile t mb buf => Sys2Proof.Machine.execReconcile t mb buf s
  | .censusRead t mb buf => Sys2Proof.Machine.execCensusRead t mb buf s
  | .censusSnapshot t mb buf => Sys2Proof.Machine.execCensusSnapshot t mb buf s
  | .logRead t mb buf => Sys2Proof.Machine.execLogRead t mb buf s
  | .harvestSet t mb buf => Sys2Proof.Machine.execHarvestSet t mb buf s
  | .harvestRead t mb buf => Sys2Proof.Machine.execHarvestRead t mb buf s
  | .lentSet t mb buf => Sys2Proof.Machine.execLentSet t mb buf s
  | .emberRun t mb buf sigs slow => Sys2Proof.Machine.execEmberRun t mb buf sigs slow s
  | .intercalarySet t mb buf => Sys2Proof.Machine.execIntercalarySet t mb buf s
  | .linkBerTest t mb buf ratios => Sys2Proof.Machine.execLinkBerTest t mb buf ratios s
  | .dvfsSet t mb buf => Sys2Proof.Machine.execDvfsSet t mb buf s
  | .powerBudgetSet t mb buf => Sys2Proof.Machine.execPowerBudgetSet t mb buf s
  | .prewarnDefaultSet t mb buf => Sys2Proof.Machine.execPrewarnDefaultSet t mb buf s
  | .regionPower t mb buf => Sys2Proof.Machine.execRegionPower t mb buf s
  | .thermalSet t mb buf => Sys2Proof.Machine.execThermalSet t mb buf s
  | .attest t mb buf => Sys2Proof.Machine.execAttest t mb buf s
  | .alarmPolicy t mb buf => Sys2Proof.Machine.execAlarmPolicy t mb buf s
  | .debugUnlock t mb buf => Sys2Proof.Machine.execDebugUnlock t mb buf s
  | .debugLock t mb buf => Sys2Proof.Machine.execDebugLock t mb buf s
  | .keyInstall t mb buf => Sys2Proof.Machine.execKeyInstall t mb buf s
  | .keyErase t mb buf => Sys2Proof.Machine.execKeyErase t mb buf s
  | .mgmtChallenge t mb buf => Sys2Proof.Machine.execMgmtChallenge t mb buf s
  | .mgmtAuth t mb buf => Sys2Proof.Machine.execMgmtAuth t mb buf s
  | .operatorKeyFuse t mb buf => Sys2Proof.Machine.execOperatorKeyFuse t mb buf s
  | .powerSample t mw cells => Sys2Proof.Machine.execPowerSample t mw cells s
  | .budgetCapRaise t => Sys2Proof.Machine.execBudgetCapRaise t s
  | .budgetCapLower t => Sys2Proof.Machine.execBudgetCapLower t s
  | .pmbusPoll t telem => Sys2Proof.Machine.execPmbusPoll t telem s
  | .thermalSensorRead t sensor reading => Sys2Proof.Machine.execThermalSensorRead t sensor reading s
  | .thermalCapRaise t g => Sys2Proof.Machine.execThermalCapRaise t g s
  | .thermalCapLower t g => Sys2Proof.Machine.execThermalCapLower t g s
  | .thermalTrip t sensor => Sys2Proof.Machine.execThermalTrip t sensor s
  | .ivrCellFail t g cell cause => Sys2Proof.Machine.execIvrCellFail t g cell cause s
  | .surgeRecharged t g => Sys2Proof.Machine.execSurgeRecharged t g s
  | .droopDetect t g mv ns => Sys2Proof.Machine.execDroopDetect t g mv ns s
  | .droopHardFloor t g mv ns => Sys2Proof.Machine.execDroopHardFloor t g mv ns s
  | .bumpSample t g current measured => Sys2Proof.Machine.execBumpSample t g current measured s
  | .powerGroupClose t g marginOk => Sys2Proof.Machine.execPowerGroupClose t g marginOk s
  | .coldBoot t tests memFail => Sys2Proof.Machine.execColdBoot t tests memFail s
  | .readySet t => Sys2Proof.Machine.execReadySet t s
  | .ledgerAppend t kind cls id => Sys2Proof.Machine.execLedgerAppend t kind cls id s
  | .lockstepMismatch t pair pc => Sys2Proof.Machine.execLockstepMismatch t pair pc s
  | .heartbeatTick t => Sys2Proof.Machine.execHeartbeatTick t s
  | .watchdogExpire t => Sys2Proof.Machine.execWatchdogExpire t s
  | .coldRstNAssert t us => Sys2Proof.Machine.execColdRstNAssert t us s
  | .railRemoval t => Sys2Proof.Machine.execRailRemoval t s
  | .alarmRaise t src => Sys2Proof.Machine.execAlarmRaise t src s
  | .tamperSample t ok => Sys2Proof.Machine.execTamperSample t ok s
  | .fuseRecheck t ok => Sys2Proof.Machine.execFuseRecheck t ok s
  | .jtagInstruction t ir => Sys2Proof.Machine.execJtagInstruction t ir s
  | .coldRstNRelease t => Sys2Proof.Machine.execColdRstNRelease t s
  | .mgmtLinkLoss t port => Sys2Proof.Machine.execMgmtLinkLoss t port s
  | .ftNowRead t => Sys2Proof.Machine.execFtNowRead t s
  | .evHoldoffExpire t => Sys2Proof.Machine.execEvHoldoffExpire t s
  | .normalCompletion t p => Sys2Proof.Machine.execNormalCompletion t p s

end Sys2Proof.Machine
end

