-- ==== Sys2Proof/Safety.lean ====
section
/-! DEFINITION. What claims are stated with: a safe run, the invariant that every step keeps, and the conditions under which a mailbox
command executes normally (14 R440, R443 to R449). -/

namespace Sys2Proof.Machine

/-- A step that goes on: the block has no fault and no refusal of its own. -/
def Safe (o : Out) : Prop := ∃ s', o = .next s'

/-- The canonical form of the device memory: byte addresses rise and no entry is the zero that an unlisted byte reads as (R195, R388). -/
def State.MemInv (s : State) : Prop := memWf s.mem.dram = true

/-- A descriptor as a running command of a definition: its arguments are those that R449 packs. -/
def CmdDef.cmd (f : CmdDef) (mb : Nat) (d : Desc) : Cmd := { mb, d, a := (unpack f.widths d.args).getD [] }

/-- The state in which the command at the front of a mailbox has been taken from its queue and runs (R443). -/
def State.taken (s : State) (mb : Nat) (d : Desc) (e : ExtIn) : State :=
  s.modMb mb fun m => { m with queue := m.queue.tail, running := some d, exec := d.slot, ext := e }

/-- The state with a partition's lock given to a mailbox, where the command takes one (R443). -/
def State.lockFor (s : State) (mb : Nat) : Option Nat → State
  | none => s
  | some p => s.modPart p fun x => { x with lock := some mb }

/-- A command that executes normally: it is at the front of a free mailbox that has not stalled, host-load mode does not turn it away, it
passes every check of R445, R447 and R449, and the lock it takes is free (R443). -/
structure Ready (f : CmdDef) (s : State) (mb : Nat) (d : Desc) (e : ExtIn) : Prop where
  idle : (s.mbx mb).running = none
  front : (s.mbx mb).queue.head? = some d
  runs : (s.mbx mb).stalled = false
  served : s.hub.hostload = false ∨ mb = 0
  known : knownOps.contains d.opcode = true
  op : d.opcode = f.op
  sel : f.sel d = true
  gate : (s.taken mb d e).gate f (f.cmd mb d) = 0
  lock : ∀ p, f.lock (s.taken mb d e) (f.cmd mb d) = some p → ((s.taken mb d e).part p).lock = none ∧ ((s.taken mb d e).part p).lockWait = []

/-- The state in which a ready command's body begins. -/
def CmdDef.begun (f : CmdDef) (s : State) (mb : Nat) (d : Desc) (e : ExtIn) : State :=
  (s.taken mb d e).lockFor mb (f.lock (s.taken mb d e) (f.cmd mb d))

/-- The row `i` runs a ready command: where `cond` holds of the state in which its body begins and of its arguments, the next state is that
of `effect`, and commands of unknown opcode behind it are completed (R449). -/
def Runs (f : CmdDef) (t mb : Nat) (e : ExtIn) (i : Instr) (cond : State → Cmd → Prop) (effect : State → Cmd → State) : Prop :=
  ∀ s d, Ready f (s.adv t) mb d e → cond (f.begun (s.adv t) mb d e) (f.cmd mb d) →
    exec i s = .next ((effect (f.begun (s.adv t) mb d e) (f.cmd mb d)).badOps 64 mb)

/-- The row `i` at time `t` has an effect: where `cond` holds of the state that time has reached, the next state is that of `effect`. -/
def Does (t : Nat) (i : Instr) (cond : State → Prop) (effect : State → State) : Prop :=
  ∀ s, cond (s.adv t) → exec i s = .next (effect (s.adv t))

/-- The row `i` at time `t` has an effect of which only some facts are said: where `cond` holds of the state that time has reached, there is
a next state of which `fact` holds. -/
def Gives (t : Nat) (i : Instr) (cond : State → Prop) (fact : State → State → Prop) : Prop :=
  ∀ s, cond (s.adv t) → ∃ s', exec i s = .next s' ∧ fact (s.adv t) s'

/-- A packet for a tile reaches its site `k`: the site's router is up, the tile is in place and on that site (R191, R230, R368). -/
abbrev State.Reaches (s : State) (pkt : Packet) (k : Nat) : Prop :=
  k = s.siteOfTile pkt.destIdx ∧ (s.router (routerOf k)).down = false ∧ (s.tileEnt pkt.destIdx).moving = false ∧ (s.site k).st = .tile

/-- The sequencer of site `k` stands at the Xmln instruction `op`, whose word is `w`: its context runs and waits for nothing (R203, R206). -/
structure XReady (op : XOp) (s : State) (k w : Nat) : Prop where
  runs : s.seqRuns k = true
  free : (s.site k).seq.bank.wait = none
  word : ∃ len, (s.site k).fetch = .word w len
  is : xDecode w = some op

/-- An Xmln instruction as its sequencer tries it: its word, its operands, and whether its fetch returned uncorrectable data (R172, R201). -/
structure XIn where
  w : Nat
  x : XArgs
  ue : Bool

/-- The Xmln instruction `w` at site `k`. -/
def State.xIn (s : State) (k w : Nat) : XIn := { w, x := (s.site k).xArgs w, ue := (s.site k).fetchUe }

/-- The row `i` at time `t` tries the Xmln instruction `op` at site `k`: where its context runs, waits for nothing and stands at it, and `cond`
holds of the state that the fetch has reached and of the instruction, the next state is that of `effect`. -/
def XDoes (t k : Nat) (op : XOp) (i : Instr) (cond : State → XIn → Prop) (effect : State → XIn → State) : Prop :=
  ∀ s w, XReady op (s.adv t) k w → cond ((s.adv t).fetched k) ((s.adv t).xIn k w) →
    exec i s = .next (effect ((s.adv t).fetched k) ((s.adv t).xIn k w))

/-- The Xmln instruction `c` of site `k`, tried in `s`, retires in the state `s1` that it has reached: `v` goes to its destination register
and the program counter goes on by 4. -/
def State.xRetire (s : State) (k : Nat) (c : XIn) (v : BitVec 32) (s1 : State) : State :=
  s1.seqRetire k (bitsN c.w 7 5) v ((s.site k).seq.bank.pc + 4)

/-- The Xmln instruction `c` of site `k` begins to wait for what `kind` and `arg` name (R247). -/
def State.xWait (s : State) (k : Nat) (c : XIn) (kind : WaitKind) (arg : Nat) : State := s.beginWait k kind arg c.x.b (bitsN c.w 7 5)

/-- The Xmln instruction `c` of site `k` is illegal there (R201). -/
def State.xIllegal (s : State) (k : Nat) (c : XIn) : State := s.seqTrap k 2 (BitVec.ofNat 32 c.w) c.ue

/-- The sequencer of site `k` stands at the word `w` of `len` bytes, which is no Xmln instruction: its context runs and waits for nothing
(R199, R203). -/
structure RvReady (s : State) (k w len : Nat) : Prop where
  runs : s.seqRuns k = true
  free : (s.site k).seq.bank.wait = none
  word : (s.site k).fetch = .word w len
  is : xDecode w = none

/-- The row `SEQ_INSTRUCTION` at time `t` executes the word `w` of `len` bytes at site `k`: where `cond` holds of the word, the next state is that
of `effect`, which begins in the state that the fetch has reached, after what disturbed the fetched entry, and is given the running bank and whether
the fetch returned uncorrectable data. -/
def RvDoes (t k : Nat) (cond : Nat → Prop) (effect : State → Bank → Nat → Nat → Bool → State) : Prop :=
  ∀ s w len u, RvReady ((s.adv t).fetchUpset k u) k w len → cond w →
    exec (.seqInstruction t k u) s = .next (effect (((s.adv t).fetchUpset k u).fetched k)
      ((((s.adv t).fetchUpset k u).fetched k).site k).seq.bank w len (((s.adv t).fetchUpset k u).site k).fetchUe)

end Sys2Proof.Machine
end

