-- ==== Sys2Proof/Certificates/Slice0/Obligations.lean ====
section
/-! DEFINITION. The obligations: what the provers are asked to prove of the model, each from a rule of spec/. -/

open Sys2Proof Sys2Proof.Machine

/-! ## Mailbox commands that execute (14 R440 to R450)

Each clause names a row, the condition under which the spec gives it its effect, and the next state: the effect, then the completion. The
state that a clause speaks of is the one in which the command has been taken from its queue and holds its lock; arguments are numbered in the
order of R450. -/

/-- Device commands: `IDENTIFY`, `DEVICE_ID_SET`, `CONFIG_WRITE`, `FW_HOSTLOAD`, `SHUTDOWN`, `EMBER_RUN` (R450, R499, R500, R523, R526).
`SHUTDOWN`'s answered signatures `sigs` are the world's. What a block that fails its checks answers is the model's choice (log 28). -/
def Obligations.DeviceCommandsRun : Prop :=
  (∀ t mb buf, Runs cmdIdentify t mb { buf } (.identify t mb buf) (fun _ _ => True) fun s c =>
    s.finish c.mb stOk 0 (pack [(16, s.hub.devId), (8, s.fuses.grade), (8, s.fuses.hostOpt), (32, s.fw.1.toNat), (16, s.asvMax), (16, s.idWord1 % 65536)])) ∧
  (∀ t mb buf, Runs cmdDeviceIdSet t mb { buf } (.deviceIdSet t mb buf) (fun s _ => s.jobsMask = 0) fun s c =>
    ({ s with hub := { s.hub with devId := c.arg 0 } } : State).finish c.mb stOk) ∧
  (∀ t mb buf s' b, Runs cmdConfigWrite t mb { buf } (.configWrite t mb buf)
    (fun s c => s.bufIn c = (s', some b) ∧ b.length = 4096) fun _ c =>
    if configValid b then ({ s' with flash := s'.flash.putConfig (configOf b) } : State).finish c.mb stOk
    else s'.finish c.mb stBadArgument) ∧
  (∀ t mb buf fails s' b, Runs (cmdFwHostload fails) t mb { buf } (.fwHostload t mb buf fails)
    (fun s c => s.hub.hostload = true ∧ s.bufIn c = (s', some b) ∧
      (b.length = (imageOf b).length ∨ b.length = (imageOf b).length + 4096)) fun _ c =>
    let blk := b.drop (imageOf b).length
    if s'.imageCheck (some (imageOf b)) ≠ 0 then s'.finish c.mb stSignature
    else
      let s1 := (s'.startImage (imageOf b) true).finish c.mb stOk
      if s1.hub.reset.isSome then (if configValid blk then s1.applyConfig (some (configOf blk)) else s1)
      else s1.bootOn (if configValid blk then some (configOf blk) else s1.flash.newest) fails) ∧
  (∀ t mb buf sigs slow, Runs (cmdShutdown sigs slow) t mb { buf } (.shutdown t mb buf sigs slow)
    (fun s c => c.arg 0 ≤ 1 ∧ s.jobsMask = 0) fun s c =>
    let s1 := (s.modHub fun h => { h with shutdown := true }).errDrain
    let s2 : State := { s1 with flash := s1.flash.ledgerFlush }
    let s3 := if c.arg 0 = 1 then (s2.eraseSession 2).emberScan sigs slow else s2.eraseSession 2
    (s3.finish c.mb stOk).emit .pmbusOff) ∧
  (∀ t mb buf sigs slow, Runs (cmdEmberRun sigs slow) t mb { buf } (.emberRun t mb buf sigs slow)
    (fun s c => ∀ g < 64, bitOn (c.arg 0) g = true → ∀ p, s.partOfRegion g = some p → s.job p = none) fun s c =>
    let gs := ((List.range 64).filter (bitOn (c.arg 0))).filter fun g => (s.region g).logic == .on
    let ran := gs.filter fun g => !slow.contains g
    ((gs.foldl (fun (s : State) g => s.emberRegion sigs (ran.contains g) g) s).emberDone (BitVec.ofNat 64 (ran.map (2 ^ ·)).sum)
      ((ran.flatMap s.scanSites).filter (s.scanFails sigs)).length).finish c.mb stOk)

/-- The reset commands: `RESET` kinds 1, 2 and 3 (R509, R512 to R514, R450). -/
def Obligations.ResetCommandsRun : Prop :=
  (∀ t mb buf, Runs cmdResetJubilee t mb { buf } (.resetJubilee t mb buf)
    (fun s _ => s.hub.shutdown = false ∧ s.hub.reset = none) fun s c => s.deviceReset .jubilee (some c.mb) true) ∧
  (∀ t mb buf, Runs cmdResetJubilee t mb { buf } (.resetJubilee t mb buf)
    (fun s _ => s.hub.shutdown = false ∧ s.hub.reset.isSome = true) fun s c => s.resetCmd .jubilee c.mb) ∧
  (∀ t mb buf on, Runs (cmdResetRecovery on) t mb { buf } (.resetRecovery t mb { buf, asserting := on })
    (fun s _ => s.hub.shutdown = false ∧ (s.hub.tripped = true → ∀ n < 256, s.hot n 95 = false) ∧
      ∀ i < 6, (s.alarmOf i).asserts = false ∧ on.contains i = false) fun s c =>
    let s1 := (s.modHub fun h => { h with tripped := false }).setHalted false
    let s2 : State := { s1 with pins := { s1.pins with thermtripN := true } }
    ((List.range 64).foldl (fun s g => s.modRegion g fun r => { r with clocksOff := false }) s2).resetCmd .recovery c.mb) ∧
  (∀ t mb buf, Runs cmdResetPartition t mb { buf } (.resetPartition t mb buf)
    (fun s c => c.arg 0 = 3 ∧ c.part < 16 ∧ (s.part c.part).exist = true ∧ s.hub.shutdown = false ∧ s.hub.reset = none ∧
      (s.part c.part).underReset = false) fun s c => s.partReset c.part c.mb)

/-- Mailbox and event settings: `MAILBOX_CLAIM` in its two forms, `MAILBOX_RELEASE`, `EVENT_MASK_SET`, `EVENT_STREAM_SET` (R447, R450, R461,
R465). -/
def Obligations.MailboxCommandsRun : Prop :=
  (∀ t mb buf p, Runs cmdMailboxClaim t mb { buf } (.mailboxClaim t mb buf)
    (fun s c => c.arg 1 = 2 ∧ c.mb ≠ 0 ∧ s.credPart (c.arg 2) = some p) fun s c =>
    (s.modMb c.mb fun m => { m with role := 2, rolePart := p, session := none }).finish c.mb stOk p) ∧
  (∀ t mb buf, Runs cmdMailboxClaim t mb { buf } (.mailboxClaim t mb buf)
    (fun s c => c.arg 1 = 1 ∧ c.arg 0 ≤ 23 ∧ (s.mbx c.mb).role = 1) fun s c =>
    (s.modMb (c.arg 0) fun m => { m with role := 1, rolePart := 0, session := if m.role = 2 then none else m.session }).finish c.mb stOk) ∧
  (∀ t mb buf, Runs cmdMailboxRelease t mb { buf } (.mailboxRelease t mb buf) (fun _ c => c.mb ≠ 0) fun s c =>
    (s.modMb c.mb fun m => { m with role := 0, rolePart := 0, session := none }).finish c.mb stOk) ∧
  (∀ t mb buf, Runs cmdEventMaskSet t mb { buf } (.eventMaskSet t mb buf) (fun _ c => c.arg 0 ≤ 2) fun s c =>
    let key := 256 * c.arg 0 + c.arg 1
    ({ s with ev := { s.ev with masks := Tbl.set (maskDefault key) key (BitVec.ofNat 64 (c.arg 2)) s.ev.masks } } : State).finish c.mb stOk) ∧
  (∀ t mb buf, Runs cmdEventStreamSet t mb { buf } (.eventStreamSet t mb buf) (fun _ c => c.arg 0 ≤ 1 ∧ c.arg 1 ≤ 1) fun s c =>
    (s.modMgmt (c.arg 0) fun x => { x with stream := c.arg 1 == 1, destMac := BitVec.ofNat 48 (c.arg 2) }).finish c.mb stOk)

/-- Partition and job commands: `PARTITION_CREATE`, `PARTITION_DESTROY`, `ORDO_LOAD`, `ORDO_UNLOAD`, `JOB_START`, `JOB_KILL`,
`INTERCALARY_SET` (R155, R284, R443, R447, R450). `JOB_START` completes at the first release, so its effect here is the binding. -/
def Obligations.PartitionCommandsRun : Prop :=
  (∀ t mb buf p, Runs cmdPartitionCreate t mb { buf } (.partitionCreate t mb buf)
    (fun s c => c.arg 0 ≠ 0 ∧ (∀ g < 64, bitOn (c.arg 0) g = true → s.partOfRegion g = none) ∧
      (List.range 16).find? (fun p => !(s.part p).exist) = some p) fun s c =>
    let cred := (s.draw 128).1
    (((s.draw 128).2).modPart p fun x =>
      { exist := true, regions := BitVec.ofNat 64 (c.arg 0), cred, epoch := x.epoch, harvested := x.harvested, lock := x.lock, lockWait := x.lockWait,
        twin := { mirrors := x.twin.mirrors } }).finish c.mb stOk p cred.toNat) ∧
  (∀ t mb buf, Runs cmdPartitionDestroy t mb { buf } (.partitionDestroy t mb buf)
    (fun s c => (s.part c.part).job = none) fun s c =>
    let p := c.part
    let x := (s.part p).twin
    let s0 := s
    let s := if x.st = .unbound then s else (s.emit (.twinUnbind x.peerDev x.peerPart)).twinFree p
    let s1 := s.unmapPages ((s.mem.map.filter fun e => e.2.owner == p && e.2.kind != .unmapped && e.2.kind != .system).map (·.1) ++
      (s0.part p).imagePages)
    let s2 : State := { s1 with mem := { s1.mem with wins := s1.mem.wins.filter fun e => e.2.owner != p },
                                alm := { s1.alm with active := s1.alm.active.filter fun e => e.2.part != p,
                                                     shadow := s1.alm.shadow.filter fun e => e.2.part != p } }
    let s3 := (s2.modSites (s2.sitesOf p) fun _ y => { y with mu := { y.mu with windows := [] } }).setDown p false
    let s4 := (List.range 24).foldl (fun (s : State) m =>
      if (s.mbx m).role = 2 ∧ (s.mbx m).rolePart = p then s.modMb m fun y => { y with role := 0, rolePart := 0, session := none } else s) s3
    (s4.modPart p fun y =>
      { epoch := y.epoch, harvested := y.harvested, lock := y.lock, lockWait := y.lockWait, twin := { mirrors := y.twin.mirrors } }).finish c.mb stOk) ∧
  (∀ t mb buf s' b, Runs cmdOrdoLoad t mb { buf } (.ordoLoad t mb buf)
    (fun s c => (s.part c.part).sweep = none ∧ (s.part c.part).job = none ∧ s.testing c.part = false ∧ s.bufIn c = (s', some b)) fun _ c =>
    match s'.loadChecks c.part c.d.bufLen b with
    | .error e => s'.finish c.mb e.1 0 e.2
    | .ok o => (s'.ordoIn c.part o).finish c.mb stOk) ∧
  (∀ t mb buf, Runs cmdOrdoUnload t mb { buf } (.ordoUnload t mb buf) (fun s c => s.job c.part = none) fun s c =>
    (((s.dropRestore c.part).unmapPages (s.part c.part).imagePages).modPart c.part fun x => { x with ordo := none, imagePages := [] }).finish c.mb stOk) ∧
  (∀ t mb buf tables o s' a b ls, Runs cmdJobStart t mb { buf, tables, later := false } (.jobStart t mb buf tables false)
    (fun s c => c.arg 0 = 0 ∧ (s.part c.part).sweep = none ∧ (s.part c.part).job = none ∧ (s.part c.part).ordo = some o ∧
      s.hub.devId ≠ 0xFFFF ∧ (s.part c.part).twin.st = .unbound ∧ (s.part c.part).kept = none ∧ rootOmits o s.hub.devId = false ∧
      s.heraldMembers (s.ownGroups c.part []) ≤ 65536 ∧ crossBad ((s.hub.devId, o.chans) :: tables) = false ∧
      (s.tablesSend c.mb c.part o).almRoom o = true ∧ (s.mbx c.mb).ext = { buf, tables, later := false } ∧
      ((s.tablesSend c.mb c.part o).allocWith fun s => match s.allocSides c.part o.classes.length with
        | none => none
        | some (s, a, b) => match s.allocJob c.part o with
          | none => none
          | some (s, ls) => some (s, a, b, ls)) = .done s' (a, b, ls)) fun s c =>
    let s1 := s'.writeGen0 (freshJob o a b) o
    s1.bindJob c.part c.mb (if c.arg 1 = 0 then (c.d.ackFt + 3999) / 4000 * 4000 else c.arg 1) o
      { s1.sealGen0 (freshJob o a b) with jobPages := ls } (o.data.filter (·.slice))) ∧
  (∀ t mb buf j, Runs cmdJobKill t mb { buf } (.jobKill t mb buf)
    (fun s c => s.job c.part = some j ∧ j.startMb = none ∧ ((s.abortLocked c.part c.mb fun _ => false).part c.part).underReset = false ∧
      ((((s.abortLocked c.part c.mb fun _ => false).endBinding c.part 1 (.jobKill c.mb)).closeHeralds c.part).part c.part).underReset = false) fun s c =>
    ((s.abortLocked c.part c.mb fun _ => false).endBinding c.part 1 (.jobKill c.mb)).closeHeralds c.part) ∧
  (∀ t mb buf, Runs cmdIntercalarySet t mb { buf } (.intercalarySet t mb buf) (fun _ c => c.arg 0 ≤ 7) fun s c =>
    (s.modPart c.part fun x => { x with work := BitVec.ofNat 3 (c.arg 0) }).finish c.mb stOk)

/-- Almanac, time and timer commands: `ALMANAC_WRITE`, `ALMANAC_ARM`, `ALMANAC_DISARM`, `TIME_SET` in its two forms, `IDES_SET`,
`HERALD_STATS_SET`, `LENT_SET` (R248, R249, R265, R272, R278, R289, R294, R450). -/
def Obligations.TimeCommandsRun : Prop :=
  (∀ t mb buf, Runs cmdAlmanacWrite t mb { buf } (.almanacWrite t mb buf)
    (fun s c => s.alm.armed = none ∧ c.arg 0 < 8192 ∧ (s.mbx c.mb).mayEntry (almOf (c.arg 1)) = true ∧
      (s.mbx c.mb).mayEntry (Tbl.get {} s.alm.shadow (c.arg 0)) = true ∧ (almOf (c.arg 1)).action ≠ 0 ∧
      almOk (almOf (c.arg 1)) (s.part (almOf (c.arg 1)).part).regions.toNat = true) fun s c =>
    ({ s with alm := { s.alm with shadow := Tbl.set {} (c.arg 0) (almOf (c.arg 1)) s.alm.shadow } } : State).finish c.mb stOk) ∧
  (∀ t mb buf, Runs cmdAlmanacWrite t mb { buf } (.almanacWrite t mb buf)
    (fun s c => s.alm.armed = none ∧ c.arg 0 < 8192 ∧ (s.mbx c.mb).mayEntry {} = true ∧
      (s.mbx c.mb).mayEntry (Tbl.get {} s.alm.shadow (c.arg 0)) = true ∧ c.arg 1 = 0) fun s c =>
    ({ s with alm := { s.alm with shadow := Tbl.drop (c.arg 0) s.alm.shadow } } : State).finish c.mb stOk) ∧
  (∀ t mb buf, Runs cmdAlmanacArm t mb { buf } (.almanacArm t mb buf) (fun s c => s.alm.armed = none ∧ s.now + 10 * ftUs ≤ c.arg 0) fun s c =>
    ({ s with alm := { s.alm with armed := some (c.arg 0) } } : State).finish c.mb stOk) ∧
  (∀ t mb buf, Runs cmdAlmanacDisarm t mb { buf } (.almanacDisarm t mb buf) (fun _ _ => True) fun s c =>
    ({ s with alm := { s.alm with armed := none } } : State).finish c.mb stOk) ∧
  (∀ t mb buf step, Runs cmdTimeSet t mb { buf } (.timeSet t mb buf)
    (fun s c => c.arg 0 < 16 ∧ (bitOn (c.arg 0) 1 = true → c.arg 1 ≤ 127) ∧ (bitOn (c.arg 0) 2 = true → c.arg 2 ≤ 1) ∧
      (bitOn (c.arg 0) 0 = true → 0 ≤ (s.now : Int) + ftSec * ((s.time.epoch : Int) - c.arg 3)) ∧
      step = (if bitOn (c.arg 0) 3 then bitsZ (c.arg 4) 0 64 else 0) ∧
      (400000 ≤ step.natAbs → 0 ≤ (s.now : Int) + step ∧ s.jobsMask = 0)) fun s c =>
    let s1 := s.modTime fun x => x.settings (c.arg 0) (c.arg 1) (c.arg 2) (c.arg 3)
    (if 400000 ≤ step.natAbs then s1.modTime (·.stepBy step) else s1.modTime fun x => { x with slew := x.slew + step }).finish c.mb stOk) ∧
  (∀ t mb buf, Runs cmdIdesSet t mb { buf } (.idesSet t mb buf)
    (fun _ c => (c.arg 0 < 2 ∧ 10 ≤ c.arg 1 ∧ c.arg 1 ≤ 600000000) ∨ (c.arg 0 = 2 ∧ 1000 ≤ c.arg 1 ∧ c.arg 1 ≤ 3600000000) ∨
      (c.arg 0 = 3 ∧ 10000 ≤ c.arg 1 ∧ c.arg 1 ≤ 86400000000)) fun s c =>
    let put (i : Ides) : Ides :=
      if c.arg 0 = 0 then { i with waitUs := c.arg 1 } else if c.arg 0 = 1 then { i with longUs := c.arg 1 }
      else if c.arg 0 = 2 then { i with phaseUs := c.arg 1 } else { i with stepUs := c.arg 1 }
    (s.modPart c.part fun x => { x with ides := put x.ides }).finish c.mb stOk) ∧
  (∀ t mb buf h, Runs cmdHeraldStatsSet t mb { buf } (.heraldStatsSet t mb buf)
    (fun s c => s.herald (c.arg 0) = some h ∧ c.arg 2 ≤ 1) fun s c =>
    let s1 := s.setHerald (c.arg 0) (some { h with threshold := c.arg 1 })
    (if c.arg 2 = 1 then s1.clearStats (c.arg 0) else s1).finish c.mb stOk) ∧
  (∀ t mb buf, Runs cmdLentSet t mb { buf } (.lentSet t mb buf) (fun _ c => 1 ≤ c.arg 0 ∧ c.arg 0 ≤ 10000) fun s c =>
    (s.modPart c.part fun x => { x with longWaitUs := c.arg 0 }).finish c.mb stOk)

/-- Commit and repair commands: `COMMIT_STATUS`, `DIGEST_READ`, `HOLD_RELEASE`, `REPLAY_FORCE` on the root Herald's device, `COMMIT_REWIND`,
`FENCE_SITE` in its two kinds, `VIGIL_SET` (R25, R28, R51, R52, R295, R309, R450). -/
def Obligations.CommitCommandsRun : Prop :=
  (∀ t mb buf, Runs cmdCommitStatus t mb { buf } (.commitStatus t mb buf) (fun _ _ => True) fun s c => s.finish c.mb stOk 0 (s.commitResult c.part)) ∧
  (∀ t mb buf j g, Runs cmdDigestRead t mb { buf } (.digestRead t mb buf)
    (fun s c => c.arg 0 ≤ 1 ∧ s.job c.part = some j ∧ j.genOf (if c.arg 1 = 2 ^ 64 - 1 then j.step else c.arg 1) = some g) fun s c =>
    s.finish c.mb stOk 0 (if c.arg 0 = 0 then g.lrec.stateDigest else g.lrec.weightDigest).toNat) ∧
  (∀ t mb buf h o, Runs cmdHoldRelease t mb { buf } (.holdRelease t mb buf)
    (fun s c => s.herald (c.arg 0) = some h ∧ h.heldFor (c.arg 3) (c.arg 2) = some o ∧ 1 ≤ c.arg 1 ∧ c.arg 1 ≤ 3 ∧
      (c.arg 1 = 1 → h.sealable (c.arg 3) (c.arg 2) = true) ∧ (c.arg 1 = 2 → c.arg 2 ≠ 255)) fun s c =>
    let o1 : OutcomePkt := { o with outcome := if c.arg 1 = 1 then .seal else if c.arg 1 = 2 then .replay else .abandon, reason := 0x14,
                                    decideFt := s.now, herald := s.hub.devId }
    ((s.setHerald (c.arg 0) (some { h with
      held := h.held.filter fun x => !(x.step == c.arg 3 && x.attempt == c.arg 2)
      heldVotes := h.heldVotes.filter fun v => !(v.step == c.arg 3 && v.attempt == c.arg 2)
      outcomes := o1 :: h.outcomes.filter fun x => !(x.step == c.arg 3 && x.attempt == c.arg 2) })).broadcast h.members o1).finish c.mb stOk) ∧
  (∀ t mb buf j o g s' st, Runs cmdReplayForce t mb { buf } (.replayForce t mb buf none false)
    (fun s c => s.job c.part = some j ∧ (s.part c.part).ordo = some o ∧ (o.groups.find? fun g => g.group == j.rootGroup) = some g ∧
      j.heraldOf g = s.hub.devId ∧ s.holdRelease j.rootGroup 2 j.heldStep.2 j.heldStep.1 = (s', st)) fun _ c => s'.finish c.mb st) ∧
  (∀ t mb buf st j o g, Runs cmdReplayForce t mb { buf, herald := some st, later := false } (.replayForce t mb buf (some st) false)
    (fun s c => s.job c.part = some j ∧ (s.part c.part).ordo = some o ∧ (o.groups.find? fun g => g.group == j.rootGroup) = some g ∧
      j.heraldOf g ≠ s.hub.devId ∧ (s.mbx c.mb).ext = { buf, herald := some st, later := false }) fun s c =>
    ((s.inject { destDev := j.heraldOf g, destKind := .hub, srcDev := s.hub.devId, srcKind := .hub, kind := PKind.steward, cls := 1,
                 srcPart := c.part,
                 payload := leBytes 1 j.rootGroup ++ leBytes 1 2 ++ leBytes 1 j.heldStep.2 ++ leBytes 5 0 ++ leBytes 8 j.heldStep.1 }).askedOf c.mb).finish
      c.mb st) ∧
  (∀ t mb buf j x, Runs cmdCommitRewind t mb { buf } (.commitRewind t mb buf)
    (fun s c => s.job c.part = some j ∧ j.st = .hold ∧ j.genOf (c.arg 0) = some x) fun s c =>
    let s1 := s.undoLog j x.gen
    let k : Job := { j with live := x.live }
    ((s1.modJob c.part fun j => j.rewindTo x (epactOfBytes (s1.sealedClass k 4 0 16)) (s1.sealedAnchors k) (s1.sealedChanState k)
      (s1.sealedHeralds k (j.heraldsSealed.map (·.1)))).ledgerOut c.part).finish c.mb stOk) ∧
  (∀ t mb buf k, Runs cmdFenceSite t mb { buf } (.fenceSite t mb buf) (fun _ c => siteOfId (c.arg 0) = some k ∧ c.arg 1 ≤ 1) fun s c =>
    (if c.arg 1 = 0 then s.fenceNow k 0 2 else s.planFence k 0).finish c.mb stOk) ∧
  (∀ t mb buf, Runs cmdVigilSet t mb { buf } (.vigilSet t mb buf)
    (fun s c => c.arg 0 < 64 ∧ c.arg 1 ≤ 4 ∧ bitAt (s.part c.part).regions (c.arg 0) = true) fun s c =>
    let s1 := s.modRegion (c.arg 0) fun r => { r with vigilD := c.arg 1 }
    (if (s1.job c.part).isNone then s1.vigilSelect (c.arg 0) else s1).finish c.mb stOk)

/-- Link and routing commands: `PORT_CONFIG`, `PORT_RETRAIN`, `LINK_BER_TEST`, `ROUTE_CFG_SET`, `ROUTE_TABLE_WRITE`, `ROUTE_SWAP`,
`ROUTE_EPOCH_SWITCH`, `GROUP_HERALD_SET` (R335, R338, R350, R355, R358 to R362, R367, R431, R450). -/
def Obligations.NetworkCommandsRun : Prop :=
  (∀ t mb buf, Runs cmdPortConfig t mb { buf } (.portConfig t mb buf)
    (fun _ c => c.arg 0 < 24 ∧ (c.arg 1 = 0xFF ∨ (4 ≤ c.arg 1 ∧ c.arg 1 ≤ 8)) ∧ (c.arg 2 = 0xFF ∨ c.arg 2 ≤ 1) ∧
      (c.arg 3 = 0xFF ∨ c.arg 3 ≤ 2)) fun s c =>
    let s1 := if c.arg 1 = 0xFF then s else s.minWidthSet (c.arg 0) (c.arg 1)
    let s2 := if c.arg 2 = 0xFF then s1 else s1.modPort (c.arg 0) fun x => { x with enc := c.arg 2 == 1 }
    (if c.arg 3 = 1 then s2.portEnable (c.arg 0) else if c.arg 3 = 2 then s2.forceDown (c.arg 0) else s2).finish c.mb stOk) ∧
  (∀ t mb buf, Runs cmdPortRetrain t mb { buf } (.portRetrain t mb buf) (fun s c => c.arg 0 < 24 ∧ (s.port (c.arg 0)).enabled = true) fun s c =>
    ((if (s.port (c.arg 0)).st = .up then s.sendCtl (c.arg 0) .retrain else s).trainStart (c.arg 0)).modPort (c.arg 0) fun x =>
      { x with waiter := x.waiter ++ [c.mb] }) ∧
  (∀ t mb buf ratios, Runs (cmdLinkBerTest ratios) t mb { buf } (.linkBerTest t mb buf ratios)
    (fun s c => c.arg 0 < 24 ∧ (s.port (c.arg 0)).st ≠ .up) fun s c =>
    s.finishOut c [(List.range 9).flatMap fun i => leBytes 8 (ratios.getD i 0)] fun _ _ => 0) ∧
  (∀ t mb buf, Runs cmdRouteCfgSet t mb { buf } (.routeCfgSet t mb buf)
    (fun _ c => (c.arg 0 ≤ 3 ∨ c.arg 0 = 0xFF) ∧ (c.arg 1 ≤ 1 ∨ c.arg 1 = 0xFF) ∧ (c.arg 2 ≤ 1 ∨ c.arg 2 = 0xFF) ∧
      ((1 ≤ c.arg 3 ∧ c.arg 3 ≤ 15) ∨ c.arg 3 = 0xFF) ∧ ((1 ≤ c.arg 4 ∧ c.arg 4 ≤ 100) ∨ c.arg 4 = 0xFF) ∧
      (c.arg 5 ≤ 1023 ∨ c.arg 5 = 0xFFFF) ∧ ((100 ≤ c.arg 6 ∧ c.arg 6 ≤ 100000) ∨ c.arg 6 = 0xFFFFFFFF) ∧
      (c.arg 0 = 0xFF → c.arg 1 = 0xFF ∧ c.arg 2 = 0xFF ∧ c.arg 3 = 0xFF ∧ c.arg 4 = 0xFF)) fun s c =>
    let s1 := if c.arg 0 = 0xFF then s else s.modRcfg (c.arg 0) fun x =>
      { x with randomMesh := if c.arg 1 = 0xFF then x.randomMesh else c.arg 1 == 1
               randomLantern := if c.arg 2 = 0xFF then x.randomLantern else c.arg 2 == 1
               weight := if c.arg 3 = 0xFF then x.weight else c.arg 3, markPct := if c.arg 4 = 0xFF then x.markPct else c.arg 4 }
    ({ s1 with routing := { s1.routing with
        cmbWait := if c.arg 5 = 0xFFFF then s1.routing.cmbWait else c.arg 5
        timeoutUs := if c.arg 6 = 0xFFFFFFFF then s1.routing.timeoutUs else c.arg 6 } } : State).finish c.mb stOk) ∧
  (∀ t mb buf s' b s1, Runs cmdRouteTableWrite t mb { buf } (.routeTableWrite t mb buf)
    (fun s c => c.arg 0 ≤ 1 ∧ c.arg 1 ≤ 3 ∧ c.arg 3 ≠ 0 ∧ c.arg 2 + c.arg 3 ≤ routeEntries (c.arg 1) ∧ s.verFree (c.arg 0 == 1) = true ∧
      s.bufIn c = (s', some b) ∧ routeEntBytes (c.arg 1) * c.arg 3 ≤ b.length ∧
      (List.range (c.arg 3)).foldl (fun (o : Option State) i => match o with
        | none => none
        | some s => s.routeWrite (c.arg 0 == 1) (c.arg 1) (c.arg 2 + i) (slice b (routeEntBytes (c.arg 1) * i) (routeEntBytes (c.arg 1))))
        (some s') = some s1) fun _ c => s1.finish c.mb stOk) ∧
  (∀ t mb buf, Runs cmdRouteSwap t mb { buf } (.routeSwap t mb buf) (fun s c => c.arg 0 ≤ 3 ∧ (s.rcfg (c.arg 0)).swap = none) fun s c =>
    (s.modRcfg (c.arg 0) fun x => { x with swap := some (c.mb, none) }).swapTry) ∧
  (∀ t mb buf, Runs cmdRouteEpochSwitch t mb { buf } (.routeEpochSwitch t mb buf)
    (fun _ c => c.arg 0 ≤ 1) fun s c =>
    let s1 := (List.range 4).foldl (fun (s : State) k => s.modRcfg k fun x => { x with ver := c.arg 0 == 1 }) s
    let s2 : State := if (List.range 4).any fun k => (s.rcfg k).ver != (c.arg 0 == 1) then
        { s1 with routing := { s1.routing with retiring := (s1.routing.retiring ++ [b1 !(c.arg 0 == 1)]).dedup } }
      else s1
    (s2.finish c.mb stOk).retire) ∧
  (∀ t mb buf p d rest, Runs cmdGroupHeraldSet t mb { buf } (.groupHeraldSet t mb buf)
    (fun s c => s.jobsOfGroup (c.arg 0) = (p, d) :: rest ∧ d.members.contains (c.arg 1) = true ∧
      (c.arg 1 = s.hub.devId → s.heraldRoom d = true)) fun s c =>
    let s1 := if c.arg 1 = s.hub.devId then (if (s.herald (c.arg 0)).isSome then s else s.addHerald d) else s.dropHerald (c.arg 0)
    (((p, d) :: rest).foldl (fun (s : State) x => s.heraldMoved x.1 (c.arg 0) (c.arg 1)) s1).finish c.mb stOk)

/-- Memory commands: `PAGEMAP_ALLOC`, `PAGEMAP_FREE`, `WINDOW_OPEN` and `WINDOW_CLOSE` for slice and page windows, `KEEP_SET`, `SCRUB_SET`,
`PAGE_RETIRE`, `PAGE_RETIRE_SET` (R189, R381, R384 to R389, R395, R450). -/
def Obligations.MemoryCommandsRun : Prop :=
  (∀ t mb buf l s', Runs cmdPagemapAlloc t mb { buf } (.pagemapAlloc t mb buf)
    (fun s c => c.arg 0 ≤ 1 ∧ (c.arg 1 = 1 ∨ c.arg 1 = 6) ∧ c.arg 2 ≠ 0 ∧
      (if c.arg 3 = 0xFFFFFFFF then
        firstFree (fun l => s.runFree (c.arg 0) l (c.arg 2) ((s.mbx c.mb).role == 2)) 8388608 (8388608 * c.arg 0) = some l
      else l = c.arg 3 ∧ s.runFree (c.arg 0) l (c.arg 2) true = true ∧
        ((s.mbx c.mb).role = 2 ∨ ((List.range (c.arg 2)).any fun i => s.inHdm (l + i)) = false)) ∧
      ((s.mbx c.mb).role = 2 ∨ ((List.range (c.arg 2)).any fun i => s.inHdm (l + i)) = false) ∧
      (s.allocWith fun s => (s.mapPages ((List.range (c.arg 2)).map (l + ·)) c.part (if c.arg 1 = 1 then .plain else .window) false).map
        fun s => (s, ())) = .done s' ()) fun _ c => s'.finish c.mb stOk 0 (pack [(32, l), (32, c.arg 2)])) ∧
  (∀ t mb buf, Runs cmdPagemapFree t mb { buf } (.pagemapFree t mb buf)
    (fun s c => c.arg 1 ≠ 0 ∧ ∀ i < c.arg 1, s.hostPage c.part (c.arg 0 + i) = true) fun s c =>
    (s.unmapPages ((List.range (c.arg 1)).map (c.arg 0 + ·))).finish c.mb stOk) ∧
  (∀ t mb buf, Runs cmdWindowOpen t mb { buf } (.windowOpen t mb buf)
    (fun s c => (s.part c.part).sweep = none ∧ c.arg 0 = 0 ∧ 1 ≤ c.arg 2 ∧ c.arg 2 ≤ 3 ∧ c.arg 3 ≤ 1 ∧ c.arg 1 ≤ 7 ∧ c.arg 5 ≤ 8191 ∧
      bitAt (s.part c.part).regions (tileBlock (c.arg 5)) = true ∧ c.arg 6 % 64 = 0 ∧ c.arg 7 % 64 = 0 ∧ c.arg 7 ≠ 0 ∧
      c.arg 6 + c.arg 7 ≤ 0xBA000) fun s c =>
    let d : WinDesc := { base := c.arg 6, size := c.arg 7, rights := c.arg 2, remote := c.arg 3 == 1, isOpen := true, owner := c.part, key := c.arg 4 }
    (s.modSite (s.siteOfTile (c.arg 5)) fun x => { x with mu := { x.mu with windows := Tbl.set {} (c.arg 1) d x.mu.windows } }).finish c.mb stOk) ∧
  (∀ t mb buf, Runs cmdWindowOpen t mb { buf } (.windowOpen t mb buf)
    (fun s c => (s.part c.part).sweep = none ∧ c.arg 0 = 1 ∧ 1 ≤ c.arg 2 ∧ c.arg 2 ≤ 3 ∧ c.arg 3 ≤ 1 ∧ c.arg 7 ≠ 0 ∧
      c.arg 6 + c.arg 7 ≤ 16777216 ∧ pageDie (c.arg 6) = pageDie (c.arg 6 + c.arg 7 - 1) ∧
      ((Tbl.get {} s.mem.wins (256 * pageDie (c.arg 6) + c.arg 1) : PageWin).isOpen = true →
        (Tbl.get {} s.mem.wins (256 * pageDie (c.arg 6) + c.arg 1) : PageWin).owner = c.part)) fun s c =>
    let v : PageWin := { first := c.arg 6, count := c.arg 7, rights := c.arg 2, key := c.arg 4, owner := c.part, isOpen := true }
    ({ s with mem := { s.mem with wins := Tbl.set {} (256 * pageDie (c.arg 6) + c.arg 1) v s.mem.wins } } : State).finish c.mb stOk (c.arg 1)) ∧
  (∀ t mb buf, Runs cmdWindowClose t mb { buf } (.windowClose t mb buf)
    (fun s c => c.arg 0 = 0 ∧ c.arg 1 ≤ 7 ∧ c.arg 2 ≤ 8191 ∧ bitAt (s.part c.part).regions (tileBlock (c.arg 2)) = true) fun s c =>
    (s.modSite (s.siteOfTile (c.arg 2)) fun x =>
      { x with mu := { x.mu with windows := Tbl.set {} (c.arg 1) ({} : WinDesc) x.mu.windows } }).finish c.mb stOk) ∧
  (∀ t mb buf, Runs cmdWindowClose t mb { buf } (.windowClose t mb buf) (fun _ c => c.arg 0 = 1) fun s c =>
    ({ s with mem := { s.mem with wins := s.mem.wins.filter fun e => !(e.1 % 256 == c.arg 1 && e.2.owner == c.part) } } : State).finish c.mb stOk) ∧
  (∀ t mb buf s', Runs cmdKeepSet t mb { buf } (.keepSet t mb buf)
    (fun s c => c.arg 0 ≤ 1 ∧ c.arg 2 ≠ 0 ∧ (∀ i < c.arg 2, (s.pageEnt (c.arg 1 + i)).kind = .plain ∧ (s.pageEnt (c.arg 1 + i)).owner = c.part) ∧
      ((List.range (c.arg 2)).map (c.arg 1 + ·)).foldl (fun (s : State) l => s.setPage l { s.pageEnt l with kept := c.arg 0 == 1 }) s = s' ∧
      s'.keptFull = false) fun _ c => s'.finish c.mb stOk) ∧
  (∀ t mb buf, Runs cmdScrubSet t mb { buf } (.scrubSet t mb buf) (fun _ c => 1 ≤ c.arg 0 ∧ c.arg 0 ≤ 168) fun s c =>
    ({ s with mem := { s.mem with scrubH := c.arg 0 } } : State).finish c.mb stOk) ∧
  (∀ t mb buf, Runs cmdPageRetire t mb { buf } (.pageRetire t mb buf)
    (fun s c => s.ppnExists (c.arg 0) = true) fun s c =>
    (s.startRetire (c.arg 0) 3).finish c.mb stOk) ∧
  (∀ t mb buf, Runs cmdPageRetireSet t mb { buf } (.pageRetireSet t mb buf) (fun _ c => c.arg 0 ≠ 0) fun s c =>
    ({ s with mem := { s.mem with threshold := c.arg 0 } } : State).finish c.mb stOk)

/-- Twin commands: `TWIN_BIND`, `TWIN_UNBIND`, `MIRROR_EXPORT`, `EPACT_READ` (R403, R404, R406, R418, R423). The question put to the peer is the
model's form (log 164). -/
def Obligations.TwinCommandsRun : Prop :=
  (∀ t mb buf w s' base, Runs cmdTwinBind t mb { buf, peer := some w, later := false } (.twinBind t mb buf true w false)
    (fun s c => c.arg 0 ≤ 15 ∧ 1 ≤ c.arg 4 ∧ c.arg 4 ≤ 1000 ∧ 1 ≤ c.arg 5 ∧ c.arg 5 ≤ 600 ∧ s.bindPort c.part (c.arg 1) (c.arg 3) = true ∧
      (c.arg 2 = 0xFF ∨ (c.arg 2 ≠ c.arg 1 ∧ s.bindPort c.part (c.arg 2) (c.arg 3) = true)) ∧ ((s.part c.part).twin.st = .unbound ∨ (s.part c.part).twin.st = .broken) ∧
      w.dev = s.hub.devId ∧ w.part = c.part ∧
      (s.mbx c.mb).ext = { buf, peer := some w, later := false } ∧
      (if (s.part c.part).twin.st == .broken && (s.part c.part).twin.reserve == c.arg 6 then s' = s ∧ base = (s.part c.part).twin.base
      else (match (s.part c.part).twin.base with
        | some l => (s.unmapPages ((List.range (s.part c.part).twin.reserve).map (l + ·))).zeroAll
        | none => s.zeroAll).mirrorAlloc c.part (c.arg 6) = .ok (s', base))) fun s c =>
    let x := (s.part c.part).twin
    let reuse := x.st == .broken && x.reserve == c.arg 6
    let y : Twin :=
      { st := .syncing, full := true, portA := c.arg 1, portB := if c.arg 2 = 0xFF then 0x1F else c.arg 2, peerDev := c.arg 3,
        peerPart := c.arg 0, deadlineMs := c.arg 4, fullS := c.arg 5, reserve := c.arg 6, base, peerReserve := w.reserve, peerBase := w.base,
        peerLive := w.live.zipIdx.foldl (fun l e => Tbl.set 0 e.2 e.1 l) [], mirrors := x.mirrors,
        peerPages := if reuse then x.peerPages else 0, mirrorGen := if reuse then x.mirrorGen else 0, acked := x.acked, late := x.late,
        naks := x.naks }
    let s0 := s'.askOnce c.mb (.twinBind (c.arg 3) (c.arg 0) s.hub.devId c.part (c.arg 4) (c.arg 5) (c.arg 6))
    let s1 := ((s0.portTwin c.part false).modTwin c.part fun _ => y).portTwin c.part true
    (match s1.job c.part with
      | some j => s1.mirrorPend c.part [] j.lastSealed.step false
      | none => s1).finish c.mb stOk) ∧
  (∀ t mb buf, Runs cmdTwinUnbind t mb { buf } (.twinUnbind t mb buf) (fun s c => (s.part c.part).twin.st = .unbound) fun s c =>
    s.finish c.mb stOk) ∧
  (∀ t mb buf, Runs cmdTwinUnbind t mb { buf } (.twinUnbind t mb buf) (fun s c => (s.part c.part).twin.st ≠ .unbound) fun s c =>
    ((s.emit (.twinUnbind (s.part c.part).twin.peerDev (s.part c.part).twin.peerPart)).twinFree c.part).finish c.mb stOk) ∧
  (∀ t mb buf p, Runs cmdMirrorExport t mb { buf } (.mirrorExport t mb buf) (fun s c => s.twinWith c.part (c.arg 1) = some p) fun s c =>
    ((s.mirrorCut p).modTwin p fun x =>
      { x with st := .broken, phase := .idle, awaitAck := false, full := false, waitBegin := false, todo := [], exported := true,
               spare := some (c.arg 2, c.arg 0), exportFt := s.now }).finish c.mb stOk) ∧
  (∀ t mb buf j, Runs cmdEpactRead t mb { buf } (.epactRead t mb buf) (fun s c => s.job c.part = some j) fun s c =>
    s.finish c.mb stOk 0 (epactNum j.epactSealed))

/-- Restore commands: `RESTORE_BEGIN`, `RECONCILE` in HOLD and on a spare, `RESTORE_COMMIT`, `RESTORE_PAGE` (R421, R424 to R430, R433). What the
survivor's mirror answers is `m`. The question put to the other device is the model's form, and what holds no generation its reading (log 164). -/
def Obligations.RestoreCommandsRun : Prop :=
  (∀ t mb buf m o z1 a b z2 ls, Runs cmdRestoreBegin t mb { buf, mirror := m, later := false } (.restoreBegin t mb buf m false)
    (fun s c => (s.part c.part).ordo = some o ∧ c.arg 1 ≤ 1 ∧ s.anyJob = false ∧
      (((s.dropRestore c.part).askOnce c.mb (.mirrorRead (c.arg 0) 0xFF)).mbx c.mb).ext.later = false ∧ (s.mbx c.mb).ext.mirror = m ∧ m.exported = true ∧ m.answered = true ∧ m.lrec.ordoId = o.digest.setWidth 64 ∧
      (m.lrec.step + 1) % 2 ^ 64 = c.arg 2 ∧ ((s.dropRestore c.part).askOnce c.mb (.mirrorRead (c.arg 0) 0xFF)).zeroAll.allocSides c.part o.classes.length = some (z1, a, b) ∧
      z1.allocJob c.part o = some (z2, ls) ∧ z2.keptFull = false) fun _ c =>
    let r : Restore := { survivor := c.arg 0, lostDev := m.lostDev, gen := c.arg 2, cursor := BitVec.ofNat 64 (c.arg 3), lrec := m.lrec, sideA := a,
                         sideB := b, jobPages := ls }
    ((z2.modPart c.part fun x => { x with restore := r }).restoreFetch c.part o r m
      (if c.arg 1 = 1 then some (BitVec.ofNat 128 (c.arg 4)) else none)).finish c.mb stOk) ∧
  (∀ t mb buf j s' d, Runs cmdReconcile t mb { buf } (.reconcile t mb buf)
    (fun s c => c.arg 0 < 2 ^ 48 ∧ (s.part c.part).job = some j ∧ j.st = .hold ∧
      s.reconcileIn j (epactAt j.epactSealed (c.arg 0)) j.digSealed = (s', d)) fun _ c =>
    let e := epactAt j.epactSealed (c.arg 0)
    let r : LedgerRec := { j.lastSealed with stateDigest := stateDigest j.classes d, weightDigest := weightDigest j.classes d, epact := e }
    ((s'.modJob c.part fun j =>
      { j with epactSealed := e, digSealed := d, lastSealed := r,
               ledger := j.ledger.map fun y => if y.2.state = .sealed ∧ y.2.step = r.step then (y.1, r) else y }).ledgerOut c.part).finish c.mb stOk) ∧
  (∀ t mb buf o s' d, Runs cmdReconcile t mb { buf } (.reconcile t mb buf)
    (fun s c => c.arg 0 < 2 ^ 48 ∧ (s.part c.part).job = none ∧ (s.part c.part).ordo = some o ∧
      ((s.part c.part).restore.st = .epact ∨ ((s.part c.part).restore.st = .verified ∧ (s.part c.part).restore.reconciled = true)) ∧
      s.reconcileIn ((s.part c.part).restore.job o) (epactAt (epactOfBytes (s.sealedClass ((s.part c.part).restore.job o) 4 0 16)) (c.arg 0))
        ((s.part c.part).restore.pages.map fun y => (y.1, y.2.2)) = (s', d)) fun s c =>
    let q := (s.part c.part).restore
    let j := q.job o
    let r : LedgerRec := { q.lrec with stateDigest := stateDigest j.classes d, weightDigest := weightDigest j.classes d,
                                       epact := epactAt (epactOfBytes (s.sealedClass j 4 0 16)) (c.arg 0) }
    let q1 : Restore := { q with st := .verified, reconciled := true, lrec := r
                                 pages := q.pages.map fun y => (y.1, (y.2.1, Tbl.get 0 d y.1)) }
    ((s'.modPart c.part fun x => { x with restore := q1 }).event 0x0801 c.part [(8, 1), (64, q1.gen)]).finish c.mb stOk) ∧
  (∀ t mb buf o, Runs cmdRestoreCommit t mb { buf } (.restoreCommit t mb buf)
    (fun s c => (s.part c.part).ordo = some o ∧ (s.part c.part).restore.st = .verified ∧ s.anyJob = false ∧
      s.almRoom o = true) fun s c =>
    let p := c.part
    let r := (s.part p).restore
    let s1 := s.modHub fun h => { h with devId := r.lostDev }
    let j := s1.restoredJob o r
    let s2 := s1.bindJob p c.mb ((s1.now + 3999) / 4000 * 4000) o j []
    let s3 := (s2.modJob p fun j => { j with st := .hold, startMb := none }).modPart p fun x => { x with gate := false, restore := {} }
    let gs := o.groups.filter fun g => j.heraldOf g == r.lostDev
    let s4 := (s3.closeHeralds p).openHeralds gs
    let s5 := gs.foldl (fun (s : State) g => s.setHerald g.group ((s.herald g.group).map fun h => h.holdAt r.lostDev s.now r.gen)) s4
    (s5.emit (.exportEnd r.survivor r.lostDev)).finish c.mb stOk) ∧
  (∀ t mb buf m j s', Runs cmdRestorePage t mb { buf, mirror := m, later := false } (.restorePage t mb buf m false)
    (fun s c => s.job c.part = some j ∧ (j.st = .hold ∨ j.st = .stopped ∨ j.st = .atGate) ∧
      ((s.part c.part).twin.st = .syncing ∨ (s.part c.part).twin.st = .bound) ∧ (s.part c.part).twin.phase = .idle ∧
      (s.part c.part).twin.outFull = true ∧ c.arg 0 ≤ c.arg 1 ∧ c.arg 1 < j.classes.length ∧ (s.mbx c.mb).ext = { buf, mirror := m, later := false } ∧ m.answered = true ∧
      State.rebuildAll c.part (c.arg 0) m ((List.range (c.arg 1 + 1 - c.arg 0)).map (c.arg 0 + ·))
        ((s.askOnce c.mb (.mirrorRead (s.part c.part).twin.peerDev (s.part c.part).twin.peerPart)).zeroAll) = (s', none)) fun _ c =>
    ((s'.modJob c.part fun j => { j with retainFloor := j.step, gens := [], log := [], flipped := [] }).fillAgain c.part).finish c.mb stOk)

/-- Census commands: `CENSUS_READ`, `CENSUS_SNAPSHOT` at once and at the gate, `LOG_READ`, `HARVEST_SET`, `HARVEST_READ` of tiles and of the
partition record (R192 to R194, R329, R452 to R456, R520, R522). -/
def Obligations.CensusCommandsRun : Prop :=
  (∀ t mb buf us, Runs cmdCensusRead t mb { buf } (.censusRead t mb buf) (fun s c => s.readObjects c (c.arg 0) (c.arg 1) = .ok us) fun s c =>
    (s.sliceReads c.part (c.arg 0) (c.arg 1)).finishOut c us fun b n => pack [(32, b), (32, n)]) ∧
  (∀ t mb buf us, Runs cmdCensusSnapshot t mb { buf } (.censusSnapshot t mb buf)
    (fun s c => c.arg 0 = 0 ∧ s.readObjects c (c.arg 1) (c.arg 2) = .ok us) fun s c =>
    (s.sliceReads c.part (c.arg 1) (c.arg 2)).finishOut c us fun b n => pack [(32, b), (32, n)]) ∧
  (∀ t mb buf us j, Runs cmdCensusSnapshot t mb { buf } (.censusSnapshot t mb buf)
    (fun s c => c.arg 0 = 1 ∧ s.readObjects c (c.arg 1) (c.arg 2) = .ok us ∧ c.part < 16 ∧ s.job c.part = some j ∧
      (us.map List.length).sum ≤ 16777216) fun s c => s.modMb c.mb fun m => { m with capture := some (c.arg 1, c.arg 2) }) ∧
  (∀ t mb buf, Runs cmdLogRead t mb { buf } (.logRead t mb buf) (fun _ _ => True) fun s c =>
    let first := max (c.arg 1) (s.col.total - min s.col.total 1048576)
    let r := s.logUnits first (min (c.arg 0) (s.col.total - first))
    r.2.finishOut c r.1 fun _ k => pack [(64, first), (32, k)]) ∧
  (∀ t mb buf, Runs cmdHarvestSet t mb { buf } (.harvestSet t mb buf)
    (fun s c => 1 ≤ c.arg 0 ∧ c.arg 0 ≤ 4 ∧
      (∀ i < c.arg 0, c.arg (1 + 2 * i) % 256 = 0 ∧ c.arg (2 + 2 * i) % 256 = 0 ∧ c.arg (2 + 2 * i) ≠ 0 ∧
        c.arg (1 + 2 * i) + c.arg (2 + 2 * i) ≤ 786432) ∧
      s.sampleSize c.part ((List.range (c.arg 0)).map fun i => (c.arg (1 + 2 * i), c.arg (2 + 2 * i))) +
        (((List.range 16).filter fun q => q != c.part && (s.part q).exist).map fun q => s.sampleSize q (s.part q).harvest).sum ≤ 67108864) fun s c =>
    (s.modPart c.part fun x => { x with harvest := (List.range (c.arg 0)).map fun i => (c.arg (1 + 2 * i), c.arg (2 + 2 * i)) }).finish c.mb stOk) ∧
  (∀ t mb buf, Runs cmdHarvestRead t mb { buf } (.harvestRead t mb buf)
    (fun s c => (s.part c.part).harvested.present = true ∧ (s.part c.part).harvested.cred = (s.part c.part).cred ∧ c.arg 1 ≠ 0) fun s c =>
    (s.storeTiles c.part).2.finishOut c ((((s.storeTiles c.part).1.filter fun y => decide (c.arg 0 ≤ y.1)).take (c.arg 1)).map (·.2))
      fun b n => pack [(32, b), (16, n)]) ∧
  (∀ t mb buf, Runs cmdHarvestRead t mb { buf } (.harvestRead t mb buf)
    (fun s c => (s.part c.part).harvested.present = true ∧ (s.part c.part).harvested.cred = (s.part c.part).cred ∧ c.arg 1 = 0) fun s c =>
    s.finishOut c ([harvestHead c.part (2 + (s.sitesOf c.part).length) (s.part c.part).harvested, (s.part c.part).harvested.objects] ++
      (s.part c.part).harvested.recs.map errBytes) fun b _ => pack [(32, b), (16, 0)])

/-- Power commands: `DVFS_SET`, `POWER_BUDGET_SET`, `PREWARN_DEFAULT_SET`, `REGION_POWER`, `THERMAL_SET` (R473, R475, R478,
R483, R488, R491). -/
def Obligations.PowerCommandsRun : Prop :=
  (∀ t mb buf, Runs cmdDvfsSet t mb { buf } (.dvfsSet t mb buf)
    (fun s c => c.arg 1 ≤ 6 ∧ (c.arg 0 = 0xFF ∨ (c.arg 0 < 64 ∧ bitAt (s.part c.part).regions (c.arg 0) = true))) fun s c =>
    ((if c.arg 0 = 0xFF then s.regionsOf c.part else [c.arg 0]).foldl (fun (s : State) g =>
      (s.modRegion g fun r => { r with capOp := c.arg 1 }).applyStep g) s).finish c.mb stOk) ∧
  (∀ t mb buf, Runs cmdPowerBudgetSet t mb { buf } (.powerBudgetSet t mb buf) (fun _ c => 1000 ≤ c.arg 0 ∧ c.arg 0 ≤ 2600) fun s c =>
    ({ s with power := { s.power with budget := c.arg 0 } } : State).finish c.mb stOk) ∧
  (∀ t mb buf, Runs cmdPrewarnDefaultSet t mb { buf } (.prewarnDefaultSet t mb buf) (fun _ c => c.arg 0 ≤ 15) fun s c =>
    (s.modPart c.part fun x => { x with load := c.arg 0 }).finish c.mb stOk) ∧
  (∀ t mb buf, Runs cmdRegionPower t mb { buf } (.regionPower t mb buf)
    (fun s c => c.arg 1 ≤ 2 ∧ (∀ g < 64, bitOn (c.arg 0) g = true →
      (∀ p, s.partOfRegion g = some p → s.job p = none) ∧ (s.region g).logic ≠ .dark)) fun s c =>
    ((((List.range 64).filter fun g => bitOn (c.arg 0) g).foldl (fun (s : State) g =>
      if (s.region g).reached (c.arg 1) then s
      else if c.arg 1 = 2 then s.powerUp g else s.powerDown g (c.arg 1 == 1)) s)).powerWaiters) ∧
  (∀ t mb buf, Runs cmdThermalSet t mb { buf } (.thermalSet t mb buf) (fun _ c => 85 ≤ c.arg 0 ∧ c.arg 0 ≤ 103) fun s c =>
    ({ s with power := { s.power with throttle := c.arg 0 } } : State).finish c.mb stOk)

/-- Security commands: `ATTEST`, `ALARM_POLICY`, the two phases of `DEBUG_UNLOCK`, `DEBUG_LOCK`, `KEY_INSTALL`, `KEY_ERASE`, `MGMT_CHALLENGE`,
`MGMT_AUTH`, and both forms of `OPERATOR_KEY_FUSE` (R531 to R547). Signature checks and ciphers are opaque functions of the configuration. -/
def Obligations.SecurityCommandsRun : Prop :=
  (∀ t mb buf, Runs cmdAttest t mb { buf } (.attest t mb buf)
    (fun s c => c.arg 2 = 0 ∧ s.sec.idLost = false ∧ s.fuses.idDestroyed = false) fun s c =>
    let b := s.attestBody (c.arg 0) (c.arg 1) 0
    s.finishOut c [b ++ beBytes 96 (Config.identitySign (Config.sha384 b)).toNat] fun _ _ => 0) ∧
  (∀ t mb buf s' k, Runs cmdAttest t mb { buf } (.attest t mb buf)
    (fun s c => c.arg 2 = 1 ∧ s.sec.idLost = false ∧ s.fuses.idDestroyed = false ∧ s.bufIn c = (s', some k) ∧ 96 ≤ k.length) fun _ c =>
    let d := (s'.draw 256).1.toNat
    let s1 := (s'.draw 256).2.modMb c.mb fun m =>
      { m with session := some (Config.sessionKey (BitVec.ofNat 768 (ofBe (k.take 96))) d (BitVec.ofNat 256 (c.arg 0))) }
    let b := s1.attestBody (c.arg 0) (c.arg 1) (Config.ephemeralKey d).toNat
    s1.finishOut c [b ++ beBytes 96 (Config.identitySign (Config.sha384 b)).toNat] fun _ _ => 0) ∧
  (∀ t mb buf, Runs cmdAlarmPolicy t mb { buf } (.alarmPolicy t mb buf)
    (fun s c => c.arg 0 ≤ 5 ∧ c.arg 1 ≤ 3 ∧ c.arg 2 ≤ 1 ∧ (s.alarmOf (c.arg 0)).locked = false) fun s c =>
    (s.modAlarm (c.arg 0) fun a => { a with policy := c.arg 1, locked := c.arg 2 == 1 }).finish c.mb stOk) ∧
  (∀ t mb buf, Runs cmdDebugUnlock t mb { buf } (.debugUnlock t mb buf) (fun _ c => c.arg 0 = 0 ∧ 1 ≤ c.arg 1 ∧ c.arg 1 ≤ 31) fun s c =>
    ({ (s.draw 128).2 with sec := { s.sec with challenge := some ((s.draw 128).1, s.now, BitVec.ofNat 8 (c.arg 1)) } } : State).finish c.mb stOk 0
      (s.draw 128).1.toNat) ∧
  (∀ t mb buf s' b ch ft, Runs cmdDebugUnlock t mb { buf } (.debugUnlock t mb buf)
    (fun s c => c.arg 0 = 1 ∧ 1 ≤ c.arg 1 ∧ c.arg 1 ≤ 31 ∧ s.bufIn c = (s', some b) ∧ 192 ≤ b.length ∧
      s'.sec.challenge = some (ch, ft, BitVec.ofNat 8 (c.arg 1)) ∧ s'.now ≤ ft + 60 * ftSec) fun _ c =>
    let s1 : State := { s' with sec := { s'.sec with challenge := none } }
    if signedBy b (s'.debugMsg ch (c.arg 1)) = (s'.fuses.debugHash, true) then (s1.debugOpen (c.arg 1)).finish c.mb stOk
    else (s1.alarm 5 0 0).finish c.mb stDebugChallenge) ∧
  (∀ t mb buf, Runs cmdDebugLock t mb { buf } (.debugLock t mb buf) (fun _ _ => True) fun s c =>
    ({ s with sec := { s.sec with debug := 0, tap := 0 } } : State).finish c.mb stOk) ∧
  (∀ t mb buf sk idx s' b, Runs cmdKeyInstall t mb { buf } (.keyInstall t mb buf)
    (fun s c => (s.mbx c.mb).session = some sk ∧
      (installSlot (c.arg 0) (c.arg 2) (c.arg 3) (c.arg 4)).bind (keyIndex (c.arg 0)) = some idx ∧ c.arg 1 ≤ 1 ∧
      s.linkInForce (c.arg 0) (c.arg 2) (c.arg 3) (c.arg 4) = false ∧ s.bufIn c = (s', some b)) fun _ c =>
    match Config.gcmOpen sk (BitVec.ofNat 96 (num b 0 12)) [] (b.drop 12) with
    | none => s'.finish c.mb stKeyAuth
    | some pt => match keyOf (c.arg 0) pt with
      | none => s'.finish c.mb stBadArgument
      | some k =>
        let s1 : State := { s' with sec := { s'.sec with keys := Tbl.set {} idx k s'.sec.keys } }
        (if c.arg 0 = 1 ∧ c.arg 4 = 0 ∧ c.arg 1 = 1 then s1.keyActivate (c.arg 2) (c.arg 3) else s1).finish c.mb stOk) ∧
  (∀ t mb buf idx, Runs cmdKeyErase t mb { buf } (.keyErase t mb buf) (fun _ c => keyIndex (c.arg 0) (c.arg 1) = some idx) fun s c =>
    ({ s with sec := { s.sec with keys := Tbl.set {} idx ({} : Key) s.sec.keys } } : State).finish c.mb stOk) ∧
  (∀ t mb buf, Runs cmdMgmtChallenge t mb { buf } (.mgmtChallenge t mb buf) (fun _ c => 16 ≤ c.mb) fun s c =>
    (((s.draw 128).2).modMb c.mb fun m => { m with challenge := some ((s.draw 128).1, s.now) }).finish c.mb stOk 0 (s.draw 128).1.toNat) ∧
  (∀ t mb buf s' b ch ft k, Runs cmdMgmtAuth t mb { buf } (.mgmtAuth t mb buf)
    (fun s c => 16 ≤ c.mb ∧ c.arg 0 ≤ 3 ∧ s.bufIn c = (s', some b) ∧ 192 ≤ b.length ∧ (s'.mbx c.mb).challenge = some (ch, ft) ∧
      s'.now ≤ ft + 10 * ftSec ∧ Tbl.get {} s'.fuses.opKeys (c.arg 0) = k ∧ k.programmed = true ∧ k.revoked = false) fun _ c =>
    let s1 := s'.modMb c.mb fun m => { m with challenge := none }
    if signedBy b (leBytes 16 ch.toNat ++ leBytes 2 s'.hub.devId ++ leBytes 1 c.mb) = (k.hash, true) then
      (s1.modMb c.mb fun m => { m with role := 1 }).finish c.mb stOk
    else s1.finish c.mb stKeyAuth) ∧
  (∀ t mb buf, Runs cmdOperatorKeyFuse t mb { buf } (.operatorKeyFuse t mb buf) (fun _ c => c.mb = 0 ∧ c.arg 0 ≤ 3 ∧ c.arg 1 = 1) fun s c =>
    let k : OpKey := Tbl.get {} s.fuses.opKeys (c.arg 0)
    ({ s with fuses := { s.fuses with opKeys := Tbl.set {} (c.arg 0) { k with revoked := true } s.fuses.opKeys } } : State).finish c.mb stOk) ∧
  (∀ t mb buf s' b, Runs cmdOperatorKeyFuse t mb { buf } (.operatorKeyFuse t mb buf)
    (fun s c => c.mb = 0 ∧ c.arg 0 ≤ 3 ∧ c.arg 1 = 0 ∧ (Tbl.get {} s.fuses.opKeys (c.arg 0) : OpKey).programmed = false ∧
      s.bufIn c = (s', some b) ∧ 48 ≤ b.length) fun s c =>
    let k : OpKey := Tbl.get {} s.fuses.opKeys (c.arg 0)
    let n : OpKey := { k with programmed := true, hash := BitVec.ofNat 384 (ofBe (b.take 48)) }
    ({ s' with fuses := { s'.fuses with opKeys := Tbl.set {} (c.arg 0) n s'.fuses.opKeys } } : State).finish c.mb stOk)

/-! ## Events of the device

Each clause names a row, the condition on the state that the row's time has reached, and the next state. -/

/-- The alarm rows: an alarm rises at a detector with a value; a tamper sample and a re-check of the fuses fail or pass (R539, R540). -/
def Obligations.AlarmRowsAct : Prop :=
  (∀ t c det val, Does t (.alarmRaise t { cls := c, det, val }) (fun _ => c ≤ 5) fun s =>
    (s.modAlarm c fun a => { a with asserts := decide (2 ≤ c ∧ c ≤ 4) }).alarm c det val) ∧
  (∀ t, Does t (.tamperSample t true) (fun _ => True) fun s => s.modAlarm 3 fun a => { a with asserts := false }) ∧
  (∀ t, Does t (.tamperSample t false) (fun s => (s.alarmOf 3).asserts = false) fun s =>
    (s.modAlarm 3 fun a => { a with asserts := true }).alarm 3 0 0) ∧
  (∀ t, Does t (.fuseRecheck t true) (fun _ => True) fun s => s.modAlarm 4 fun a => { a with asserts := false }) ∧
  (∀ t, Does t (.fuseRecheck t false) (fun s => (s.alarmOf 4).asserts = false) fun s =>
    (s.modAlarm 4 fun a => { a with asserts := true }).alarm 4 0 0)

/-- The rows of the error collector and the event ring: a record of a class of R321 arrives, one of a reserved class is not written, a coalescing
entry ages for a second, a record leaves the FIFO for the log ring, the hold-off ends; and a census capture at the gate of a partition (R321, R325,
R326, R328, R455, R459). -/
def Obligations.CollectorRowsAct : Prop :=
  (∀ t r, Does t (.errorRecordArrive t r) (fun _ => r.cls ∈ errClasses) fun s => s.errArrive r) ∧
  (∀ t r, Does t (.errorRecordArrive t r) (fun _ => r.cls ∉ errClasses) fun s => s) ∧
  (∀ t c k u e, Does t (.coalesceEntryAge t c k u)
    (fun s => (s.col.table.find? fun e => e.cls == c && e.unitKind == k && e.unit == u) = some e ∧ e.ft + ftSec ≤ s.now ∧
      s.col.fifo.length < 960) fun s =>
    ({ s with col := { s.col with table := s.col.table.erase e } } : State).errAppend e) ∧
  (∀ t r rest, Does t (.logRingAppend t) (fun s => s.col.fifo = r :: rest ∧ 512 < rest.length) fun s =>
    ({ s with col := { s.col with fifo := rest, storm := decide (768 ≤ rest.length) } } : State).ringAppend r) ∧
  (∀ t r rest, Does t (.logRingAppend t) (fun s => s.col.fifo = r :: rest ∧ rest.length ≤ 512) fun s =>
    let s1 := ({ s with col := { s.col with fifo := rest, storm := false } } : State).ringAppend r
    State.errEmit s1.col.table.length s1) ∧
  (∀ t, Does t (.evHoldoffExpire t) (fun _ => True) fun s => s.evSignal) ∧
  (∀ t p, Does t (.censusGateCapture t p) (fun s => s.job p = none) fun s =>
    (List.range 24).foldl (fun (s : State) mb => match (s.mbx mb).running, (s.mbx mb).capture with
      | some d, some (obj, n) => if d.part = p then s.capture { mb, d, a := [1, obj, n] } obj n else s
      | _, _ => s) s)

/-- The Almanac rows: an entry fires, a deadline passes, the banks swap, an automatic prewarn starts for a release that is due or for the
`STEP_START` that will give a gated one, a slot opens and closes (R279, R282 to R285, R290). -/
def Obligations.AlmanacRowsAct : Prop :=
  (∀ t e, Does t (.almanacFire t e) (fun s => s.nextDue (fun x => decide (x.trigger ≤ s.now)) = some e) fun s => s.fire e) ∧
  (∀ t p e w, Does t (.almanacDeadlineExpire t p e)
    (fun s => ((s.part p).watches.find? fun w => w.entry == e && decide (w.due ≤ s.now)) = some w) fun s => s.watchLate p w) ∧
  (∀ t f, Does t (.almanacBankSwap t) (fun s => s.alm.armed = some f ∧ f ≤ s.now) fun s =>
    let s1 := (({ s with alm := { active := s.alm.shadow, shadow := s.alm.active, armed := none } } : State).watchOrphan fun _ => true).advancePast
    let s2 := State.firePast s1.alm.active.length s1
    ({ s2 with alm := { s2.alm with shadow := s2.alm.active.map fun e => (e.1, { e.2 with watching := false }) } } : State)) ∧
  (∀ t p j, Does t (.automaticPrewarn t p)
    (fun s => s.job p = some j ∧ (∀ f, j.releaseHold = some f → f ≤ s.now) ∧
      s.releaseReady p j true (if (s.part p).perm then (s.part p).permTrig else (s.stepAfter p s.now).getD 0) = true ∧
      (((s.gated p = false ∨ (s.part p).perm = true ∨ j.first = true ∨ j.replay = true) ∧
          ∃ g ∈ s.regionsOf p, ∀ w, (s.region g).prewarnAt = some w → w + ftUs < s.now) ∨
        (s.gated p = true ∧ (s.part p).perm = false ∧ j.first = false ∧ j.replay = false ∧
          ∃ e ∈ s.alm.active, e.2.action = 1 ∧ e.2.part = p ∧ s.now < e.2.trigger ∧ e.2.trigger ≤ s.now + 800))) fun s =>
    let s1 := (s.regionsOf p).foldl (fun s g => s.prewarnRegion g (s.part p).load) s
    s1.modJob p fun j => { j with releaseHold := some (s.now + 800) }) ∧
  (∀ t p j, Does t (.intercalarySlotOpen t p)
    (fun s => s.job p = some j ∧ j.st = .atGate ∧ (s.part p).gate = true ∧ j.first = false ∧ j.replay = false ∧
      ((s.part p).slots.filter fun sl => sl.opened.isNone && s.slotDue p (s.part p).perm (s.part p).permTrig sl) ≠ [] ∧
      ((s.part p).slots.any (·.opened.isSome)) = false) fun s =>
    let due := (s.part p).slots.filter fun sl => sl.opened.isNone && s.slotDue p (s.part p).perm (s.part p).permTrig sl
    let sl : Slot := { lenUs := due.foldl (fun n x => max n x.lenUs) 0, opened := some s.now, entries := due.flatMap (·.entries) }
    let s1 := s.modPart p fun x => { x with slots := sl :: x.slots.filter fun y => !due.contains y }
    (((s1.watchMet p fun w => w.action == 2 && sl.entries.contains (w.entry, w.trigger)).modJob p fun j => { j with releaseHold := none }).slotWork p)) ∧
  (∀ t p sl, Does t (.intercalarySlotClose t p)
    (fun s => ((s.part p).slots.find? fun sl => sl.opened.isSome) = some sl ∧
      ((sl.running = [] ∧ s.slotIdle p = true) ∨ sl.opened.getD 0 + sl.lenUs * ftUs ≤ s.now)) fun s =>
    (s.modPart p fun x => { x with slots := x.slots.filter fun y => y.opened.isNone, overItems := x.overItems ++ sl.running }).vigilGate p)

/-- The start-up, lockstep and pin rows: a cold boot leaves reset, alarms or raises an event where fuses or PUF fail, counts the boot and
verifies its image; `READY` is set after a cold boot or a reset; a ledger entry is written; a lockstep pair disagrees; the heartbeat counts; the
watchdog expires; `COLD_RST_N` and the rails (R437, R502, R503, R505, R506, R515 to R517, R531, R560, R565); and a management link is lost
(R547). What a pulse between 1 and 10 µs does is a free value. -/
def Obligations.BootRowsAct : Prop :=
  (∀ t fuseOk pufOk fails, Does t (.coldBoot t { fuseOk, pufOk } fails)
    (fun s => s.hub.inReset = true ∧ s.pins.coldRstN = true) fun s =>
    let s1 := (({ s with power := { s.power with railsOk := true } } : State).modHub fun h => { h with inReset := false }).bootReached 1
    let s2 := if fuseOk then s1 else (s1.modAlarm 4 fun a => { a with asserts := true }).alarm 4 0 0
    let s3 : State := { s2 with flash := { s2.flash with boot := { s2.flash.boot with boots := (s2.flash.boot.boots + 1) % 2 ^ 32, hostCause := 0 } } }
    let s4 := if pufOk then s3 else ({ s3 with sec := { s3.sec with idLost := true } } : State).event 0x0C05 0xFF []
    let v := (s4.bootReached 2).verifyImage
    if v.2 then v.1.bootOn v.1.flash.newest fails else v.1) ∧
  (∀ t, Does t (.readySet t) (fun s => s.readyDue = true) fun s =>
    let s0 := match s.hub.reset with
      | some (kind, _, start) => s.resetEnd kind start
      | none => s.bootStepFt.mapSystem
    let s1 := ((s0.hubStatus fun h => { h with ready := true }).event 0x0101 0xFF []).bootReached 7
    match s1.hub.image with
    | some i =>
      if s1.hub.hostBoot ∧ s1.hub.config.flashRepair ∧ s1.flash.image ≠ some i then
        ({ s1 with flash := { s1.flash with image := some i } } : State).event 0x0117 0xFF [(32, i.version.toNat)]
      else s1
    | none => s1) ∧
  (∀ t k c i e, Does t (.ledgerAppend t k c i)
    (fun s => (s.flash.ledgerPend.find? fun e => e.kind == k && e.cls == c && e.id == i) = some e) fun s =>
    ({ s with flash := { s.flash with
        ledgerPend := s.flash.ledgerPend.erase e
        ledger := if s.flash.ledger.length < 16384 then s.flash.ledger ++ [e] else s.flash.ledger } } : State)) ∧
  (∀ t pc, Does t (.lockstepMismatch t 0 pc) (fun s => s.hub.pair0 = true) fun s =>
    let s1 := s.modHub fun h => { h with pair0 := false }
    if s.hub.pair1 then (s1.lockstep 0 1 pc).event 0x0115 0xFF [(8, 0)] else (s1.lockstep 0 2 pc).deviceReset .recovery none false) ∧
  (∀ t pc, Does t (.lockstepMismatch t 1 pc) (fun s => s.hub.pair1 = true) fun s =>
    let s1 := s.modHub fun h => { h with pair1 := false }
    if s.hub.pair0 then (s1.lockstep 1 1 pc).event 0x0115 0xFF [(8, 1)] else (s1.lockstep 1 2 pc).deviceReset .recovery none false) ∧
  (∀ t, Does t (.heartbeatTick t) (fun s => s.hub.pair0 = true ∨ s.hub.pair1 = true) fun s =>
    s.modHub fun h => { h with heartbeat := h.heartbeat + 1, beatFt := s.now }) ∧
  (∀ t, Does t (.watchdogExpire t)
    (fun s => (s.hub.pair0 = true ∨ s.hub.pair1 = true) ∧ s.hub.beatFt + 250 * ftMs ≤ s.now ∧ s.hub.inReset = false) fun s =>
    ((s.lockstep (if s.hub.pair0 then 0 else 1) 3 0).modHub fun h => { h with beatFt := s.now }).deviceReset .recovery none false) ∧
  (∀ t us, Does t (.coldRstNAssert t us) (fun _ => us < 1) fun s => s) ∧
  (∀ t us, Does t (.coldRstNAssert t us) (fun _ => 10 ≤ us) fun s =>
    let s1 := (s.draw 1).2.coldReset
    ({ s1 with pins := { s1.pins with coldRstN := false } } : State)) ∧
  (∀ t us, Does t (.coldRstNAssert t us) (fun _ => 1 ≤ us ∧ us < 10) fun s =>
    if (s.draw 1).1 = 1 then
      let s1 := (s.draw 1).2.coldReset
      ({ s1 with pins := { s1.pins with coldRstN := false } } : State)
    else (s.draw 1).2) ∧
  (∀ t, Does t (.coldRstNRelease t) (fun _ => True) fun s => { s with pins := { s.pins with coldRstN := true } }) ∧
  (∀ t, Does t (.railRemoval t) (fun _ => True) fun s =>
    { s.coldReset with power := { s.coldReset.power with railsOk := false } }) ∧
  (∀ t port, Does t (.mgmtLinkLoss t port) (fun _ => port < 2) fun s =>
    (List.range 4).foldl (fun s i => s.modMb (16 + 4 * port + i) fun m => { m with role := 0, session := none, challenge := none })
      (s.modMgmt port fun m => { m with link := false, reasm := [] }))

/-! ## The step, the Heralds and the Twin -/

/-- The rows of a step: the Calends close it, its votes leave, an outcome is queried and not answered, and a `SEAL`, `REPLAY`, `HOLD` or
`ABANDON` outcome arrives (R41, R42, R47, R50, R51, R53, R54). A chunk that lacks its final tag forces the close (R120, R165). A replay has
two forms: the Herald's own, for the attempt in hand, and an operator's, which reaches a member in any state (R51, log 20). What a debugged
job, a job that a reset stopped, or a `HOLD` before the late vote does is said beside them (R34, R52, R511). -/
def Obligations.StepRowsAct : Prop :=
  (∀ t p j, Does t (.calendsClose t p)
    (fun s => s.job p = some j ∧ j.st = .running ∧ s.phaseCount p ≤ j.phase ∧ j.missingTag = none) fun s =>
    (s.closeStep p false).watchMet p fun w => w.action == 6 && w.armed && w.arg == 0xFFFF) ∧
  (∀ t p j chunk k u, Does t (.calendsClose t p)
    (fun s => s.job p = some j ∧ j.st = .running ∧ s.phaseCount p ≤ j.phase ∧ j.missingTag = some (chunk, k, u)) fun s =>
    (s.configFault k u 5 0x0205).watchMet p fun w => w.action == 6 && w.armed && w.arg == 0xFFFF) ∧
  (∀ t p j v, Does t (.voteSend t p)
    (fun s => s.job p = some j ∧ j.vote = some v ∧ j.st = .closed ∧ j.voteSent = false ∧ j.faulted = false ∧ s.mirrorOpen p = false) fun s =>
    let v1 := { v with flags := (v.flags &&& ~~~2) ||| (if j.unmirrored then 2 else 0) }
    (s.injects ((s.groupsOf p).map fun g => s.votePacket (j.heraldOf g) { v1 with group := g.group })).modJob p fun j =>
      { j with voteSent := true, vote := some v1, st := if j.holdSeen then .hold else .voting }) ∧
  (∀ t p j g v, Does t (.outcomeQueryTimeout t p)
    (fun s => s.job p = some j ∧ s.rootGroup p j = some g ∧ j.vote = some v ∧ j.st = .voting ∧ j.prepared.isSome = true ∧ j.queryFt = none ∧
      j.closeFt + 2 * g.deadlineUs * ftUs + 10 * ftUs ≤ s.now) fun s =>
    (s.injects (((s.groupsOf p).filter fun x => x.members.contains (j.heraldOf g)).map fun _ =>
      s.queryPacket (j.heraldOf g) { v with group := g.group })).modJob p fun j => { j with queryFt := some s.now }) ∧
  (∀ t p j f, Does t (.heraldSilent t p)
    (fun s => s.job p = some j ∧ j.queryFt = some f ∧ j.st = .voting ∧ f + 10 * ftUs ≤ s.now) fun s =>
    ((s.modJob p fun j => { j with st := .hold, queryFt := none }).report 0x0902 9 p (p + 16 * j.rootGroup + 1024) []).event 0x0401 p
      [(8, j.rootGroup), (64, j.step)]) ∧
  (∀ t p o j, Does t (.sealOutcome t p o)
    (fun s => s.job p = some j ∧ j.debugged = false ∧ j.concerns o = true ∧ o.outcome = .seal ∧ j.prepared.isSome = true ∧
      (j.voteSent = true ∨ j.st = .stopped)) fun s =>
    let s1 := (((s.keepOutcome o).modJob p fun j => j.seal (s.keepOutcome o).now).ledgerOut p).modJob p fun x =>
      { x with st := if j.st = .stopped then .stopped else .atGate }
    let s2 := s1.lastClean j.matched j.step
    let d := match s2.job p with
      | some j => j.lastSealed.stateDigest
      | none => 0
    ((((s2.event 0x0405 p [(64, j.step), (128, d.toNat)]).mirrorPend p j.maskTable j.step true).loadSeqs p).vigilGate p).modPart p
      fun x => { x with gate := true }) ∧
  (∀ t p o j, Does t (.sealOutcome t p o) (fun s => s.job p = some j ∧ j.debugged = true) fun s => s.keepOutcome o) ∧
  (∀ t p o j, Does t (.replayOutcome t p o)
    (fun s => s.job p = some j ∧ o.group = j.rootGroup ∧ o.step = j.step ∧ o.outcome = .replay ∧ o.attempt = j.attempt ∧ o.reason ≠ 0x14 ∧
      j.debugged = false ∧ j.st ≠ .stopped) fun s =>
    let s1 := (((s.keepOutcome o).discardAttempt p).stopPart p).flush p false
    ((s1.regionsOf p).foldl (fun s g => s.placeThird g) s1).modJob p fun j =>
      { j with st := .replayWait, replay := true, released := false, faulted := false, holdSeen := false, queryFt := none, vote := none,
               voteSent := false, rewound := false, attempt := 1 }) ∧
  (∀ t p o j, Does t (.replayOutcome t p o)
    (fun s => s.job p = some j ∧ o.group = j.rootGroup ∧ (o.step = j.step ∨ j.rewound = true) ∧ o.outcome = .replay ∧ o.reason = 0x14 ∧
      (j.rewound = true ∨ j.attempt < max 2 (o.attempt + 1)) ∧ j.debugged = false) fun s =>
    let s1 := (((s.keepOutcome o).discardAttempt p).stopPart p).flush p false
    ((s1.regionsOf p).foldl (fun s g => s.placeThird g) s1).modJob p fun j =>
      { j with st := .replayWait, replay := true, released := false, faulted := false, holdSeen := false, queryFt := none, vote := none,
               voteSent := false, rewound := false, attempt := max 2 (o.attempt + 1) }) ∧
  (∀ t p o j, Does t (.replayOutcome t p o)
    (fun s => s.job p = some j ∧ o.group = j.rootGroup ∧ o.step = j.step ∧ o.outcome = .replay ∧ o.attempt = j.attempt ∧ o.reason ≠ 0x14 ∧
      (j.debugged = true ∨ j.st = .stopped)) fun s => (s.keepOutcome o).discardAttempt p) ∧
  (∀ t p o j, Does t (.holdOutcome t p o)
    (fun s => s.job p = some j ∧ j.concerns o = true ∧ o.outcome = .hold ∧ j.st ≠ .running ∧ (j.st = .closed → j.voteSent = true ∨ j.faulted = true) ∧
      (j.st = .stopped → j.prepared = none ∨ j.faulted = true)) fun s =>
    ((s.keepOutcome o).event 0x0404 p [(8, o.group), (8, o.attempt), (8, o.reason), (16, o.firstMissing), (64, o.step)]).modJob p
      fun j => { j with st := .hold, queryFt := none }) ∧
  (∀ t p o j, Does t (.holdOutcome t p o)
    (fun s => s.job p = some j ∧ j.concerns o = true ∧ o.outcome = .hold ∧
      (j.st = .running ∨ (j.st = .closed ∧ j.voteSent = false ∧ j.faulted = false))) fun s =>
    ((s.keepOutcome o).event 0x0404 p [(8, o.group), (8, o.attempt), (8, o.reason), (16, o.firstMissing), (64, o.step)]).modJob p
      fun j => { j with holdSeen := true }) ∧
  (∀ t p o j, Does t (.holdOutcome t p o)
    (fun s => s.job p = some j ∧ j.concerns o = true ∧ o.outcome = .hold ∧ j.st = .stopped ∧ j.prepared.isSome = true ∧ j.faulted = false) fun s =>
    (((s.keepOutcome o).event 0x0404 p [(8, o.group), (8, o.attempt), (8, o.reason), (16, o.firstMissing), (64, o.step)]).discardAttempt p).modJob p
      fun j => { j with st := .stopped }) ∧
  (∀ t p o j, Does t (.abandonOutcome t p o) (fun s => s.job p = some j ∧ j.concerns o = true ∧ o.outcome = .abandon) fun s =>
    ((s.keepOutcome o).discardAttempt p).modJob p fun j => { j with st := .stopped, queryFt := none, holdSeen := false, vote := none })

/-- The rows around a step: a replay starts once no repair, fill, sweep or open tag is in the way, every route fits and the sealed state can be read;
the write-back engine takes a granule, and writes it if it is still dirty; a Vigil shadow is loaded from its target at a gate; a step is released
(R39, R54, R164, R187, R297). Of the two last, the facts here are the spec's: every shadow of a target is loaded, the load of the last step does not
count for the next one, and a released job runs its first phase with no gate left and no vote; the `JOB_START` that waits for the first release
completes. -/
def Obligations.GateRowsAct : Prop :=
  (∀ t p j, Does t (.replayStart t p)
    (fun s => s.job p = some j ∧ j.st = .replayWait ∧ j.fillStopped = false ∧ (s.part p).sweep = none ∧ s.tagsOpen p = false ∧ s.routed p = true ∧
      s.tallyReadable p = true ∧ ∀ g ∈ s.regionsOf p, (s.region g).repairs = [] ∧ s.holdsAll g = true) fun s =>
    ((j.excess.foldl (fun (s : State) e => s.raiseAnchor p e) (s.reloadPart p)).modJob p fun j => { j with st := .atGate, excess := [] }).modPart p
      fun x => { x with halted := false }) ∧
  (∀ (s : State) p e j, s.job p = some j → s.raiseAnchor p e =
    (let a := Tbl.get 0 j.anchors e.1
     s.setAnchor p e.1 (BitVec.ofNat 64 (wrapZ 10 (clampAnchor (anchorOf a + e.2)) + 2 ^ 10 * bitsN a.toNat 10 54)))) ∧
  (∀ t k g rest p, Does t (.wbWriteBack t k)
    (fun s => (s.site k).mu.wbQueue = g :: rest ∧
      (s.modSite k fun x => { x with mu := { x.mu with wbQueue := rest } }).partOfRegion (keyRegion k) = some p) fun s =>
    let s1 := s.modSite k fun x => { x with mu := { x.mu with wbQueue := rest } }
    if bitAt (s1.site k).mu.dirty g = true ∧ (s1.site k).st = .tile then s1.writeBack p k g else s1) ∧
  (∀ t g p j, Gives t (.vigilLoad t g) (fun s => s.partOfRegion g = some p ∧ s.job p = some j ∧ j.st = .atGate) fun s s' =>
    (s'.region g).loaded = ((s.vigilAssign g p j.step).region g).targets.map (·.1) ∧ s'.now = s.now) ∧
  (∀ t p j, Gives t (.stepRelease t p) (fun s => s.job p = some j ∧ s.releaseDue p j = true) fun s s' =>
    (s'.part p).gate = false ∧ (s'.part p).idesLater = 0 ∧
      (∃ j', s'.job p = some j' ∧ j'.st = .running ∧ j'.phase = 0 ∧ j'.vote = none ∧ j'.faulted = false ∧ j'.first = false ∧ j'.step = j.step ∧
        j'.releaseFt = s.now) ∧
      (j.startMb = none → s'.mbx = s.mbx))

/-- The Herald rows: a vote of a member arrives, a stray vote is counted, a window's deadline passes, a member asks for an outcome that is
decided or not (R45, R46, R48 to R50, R578). A decided Herald answers with the packet it retains, if it still does, and counts the carried
vote late once; what an invalid query counts as is the model's choice (log 91). -/
def Obligations.HeraldRowsAct : Prop :=
  (∀ t v h, Does t (.voteReceive t v)
    (fun s => s.voteValid v = true ∧ s.herald v.group = some h ∧ h.decided v.step v.attempt = false ∧
      (h.windows.find? fun x => x.step == v.step && x.attempt == v.attempt) = none ∧ s.now ≤ v.closeFt + h.deadlineUs * ftUs ∧
      (∃ m ∈ h.members, m ≠ v.device)) fun s =>
    s.setHerald v.group (some { h with
      windows := (h.windows.filter fun x => !(x.step == v.step && x.attempt == v.attempt)) ++
        [{ step := v.step, attempt := v.attempt, baseFt := v.closeFt, deadline := v.closeFt + h.deadlineUs * ftUs, votes := [(v, s.now)] }] })) ∧
  (∀ t v, Does t (.voteReceive t v) (fun s => s.voteValid v = true) fun s => s.acceptVote v) ∧
  (∀ t v, Does t (.voteReceive t v) (fun s => s.voteValid v = false) fun s => s.strayVote) ∧
  (∀ t g n a h w, Does t (.voteDeadlineExpire t g n a)
    (fun s => s.herald g = some h ∧ (h.windows.find? fun x => x.step == n && x.attempt == a) = some w ∧ w.deadline ≤ s.now) fun s =>
    let o := h.packet s.hub.devId s.now w
    let keep := fun (st : Nat) => decide (w.step < st + 4)
    ((s.setHerald g (some { h with
      windows := h.windows.filter fun x => !(x.step == w.step && x.attempt == w.attempt)
      outcomes := (o :: h.outcomes).filter fun x => keep x.step
      held := if o.outcome = .hold then o :: h.held else h.held
      heldVotes := if o.outcome = .hold then h.heldVotes ++ w.votes.map (·.1) else h.heldVotes
      decidedVotes := (w.votes.map (·.1) ++ h.decidedVotes).filter fun v => keep v.step })).broadcast h.members o).heraldStats g w) ∧
  (∀ t v h, Does t (.heraldQueryReceive t v)
    (fun s => s.voteValid v = true ∧ s.herald v.group = some h ∧ h.decided v.step v.attempt = true) fun s =>
    match h.outcomes.find? fun o => o.step == v.step && o.attempt == v.attempt with
    | some o => (s.lateVote v).inject ((s.lateVote v).outcomePacket v.device o)
    | none => s.lateVote v) ∧
  (∀ t v h, Does t (.heraldQueryReceive t v)
    (fun s => s.voteValid v = true ∧ s.herald v.group = some h ∧ h.decided v.step v.attempt = false) fun s => s.acceptVote v) ∧
  (∀ t v, Does t (.heraldQueryReceive t v) (fun s => s.voteValid v = false) fun s => s.strayVote)

/-- The Twin rows of the outgoing mirror: it is released, its writes and its slot are acknowledged, the partner refuses pages, a break
arrives, its deadline passes; and an input record is consumed (R56, R97, R287, R403, R406, R409 to R411, R419, R423). -/
def Obligations.TwinRowsAct : Prop :=
  (∀ t p j, Does t (.mirrorRelease t p)
    (fun s => s.job p = some j ∧ (s.part p).twin.phase = .pending ∧ ((s.part p).twin.waitBegin = false ∨ s.almHas p 4 = false) ∧
      ((s.part p).twin.st = .syncing ∨ (s.part p).twin.st = .bound)) fun s =>
    let x := (s.part p).twin
    ((s.modTwin p fun y =>
        { y with phase := .writing, mMasks := x.masks j, mStart := s.now, mirrors := y.mirrors + 1, failed := false, todo := [] }).watchMet p
      fun w => w.action == 4).mirrorOut j p true (x.masks j) (x.masks j)) ∧
  (∀ t p j, Does t (.mirrorWritesAcked t p)
    (fun s => s.job p = some j ∧ (s.part p).twin.phase = .writing ∧ ((s.part p).twin.st = .syncing ∨ (s.part p).twin.st = .bound) ∧
      s.mirrorAcked p = true) fun s =>
    let x := (s.part p).twin
    (s.modTwin p fun x => { x with phase := .slotWritten }).mirrorSend p
      (x.writes p 0x100 (recBytes j.lastSealed ++ leBytes 4 (x.masks j).length ++ leBytes 12 (b1 x.full)))) ∧
  (∀ t p, Does t (.mirrorSlotAcked t p)
    (fun s => (s.part p).twin.phase = .slotWritten ∧ ((s.part p).twin.st = .syncing ∨ (s.part p).twin.st = .bound) ∧
      s.mirrorAcked p = true) fun s =>
    let x := (s.part p).twin
    (s.modTwin p fun x => { x with phase := .awaitAck, awaitAck := true }).emit (.twinApply x.peerDev x.peerPart x.mStep)) ∧
  (∀ t p j pages, Does t (.twinNakReceive t p pages)
    (fun s => (s.twinCount p 2).job p = some j ∧ (s.part p).twin.phase = .awaitAck ∧
      ((s.part p).twin.st = .syncing ∨ (s.part p).twin.st = .bound) ∧ (s.part p).twin.naked = false) fun s =>
    let x := (s.part p).twin
    ((s.twinCount p 2).modTwin p fun x => { x with phase := .writing, awaitAck := false, naked := true }).mirrorOut j p
      (pages.contains 0xFFFFFFFF) (x.masks j)
      (if pages.contains 0xFFFFFFFF then x.masks j else (x.masks j).filter fun e => pages.contains e.1)) ∧
  (∀ t p j pages, Does t (.twinNakReceive t p pages)
    (fun s => (s.twinCount p 2).job p = some j ∧ (s.part p).twin.phase = .awaitAck ∧
      ((s.part p).twin.st = .syncing ∨ (s.part p).twin.st = .bound) ∧ (s.part p).twin.naked = true) fun s => s.twinCount p 2) ∧
  (∀ t p, Does t (.twinBreakReceive t p false) (fun s => (s.part p).twin.st = .syncing ∨ (s.part p).twin.st = .bound) fun s =>
    ((s.mirrorCut p).modTwin p fun x =>
      { x with st := .broken, phase := .idle, awaitAck := false, full := false, waitBegin := false, todo := [] }).pageWaitEnd p) ∧
  (∀ t p, Does t (.twinBreakReceive t p true) (fun s => (s.part p).twin.st ≠ .unbound) fun s => (s.twinFree p).pageWaitEnd p) ∧
  (∀ t p, Does t (.mirrorDeadlineExpire t p)
    (fun s => (s.part p).twin.phase ≠ .idle ∧ (s.part p).twin.phase ≠ .pending ∧
      ((s.part p).twin.st = .syncing ∨ (s.part p).twin.st = .bound) ∧ (s.part p).twin.deadline ≤ s.now) fun s =>
    let x := (s.part p).twin
    let s1 := (s.modTwin p fun x =>
      { x with st := .broken, phase := .idle, awaitAck := false, full := false, waitBegin := false, todo := [] }).twinCount p 1
    let s2 := ((s1.modJob p fun j => { j.flagSealed 1 with unmirrored := true }).ledgerOut p).report 0x0901 9 p p []
    ((s2.event 0x0402 p [(16, x.peerDev), (64, x.mStep)]).emit (.twinBreak x.peerDev x.peerPart)).pageWaitEnd p) ∧
  (∀ t p commit, Does t (.mirrorExportExpire t p commit)
    (fun s => (s.part p).twin.exported = true ∧ (commit = true ∨ (s.part p).twin.exportFt + 600 * ftSec ≤ s.now)) fun s =>
    s.modTwin p fun x => { x with exported := false, spare := none }) ∧
  (∀ t p, Does t (.inputRecordConsume t p) (fun _ => True) fun s => s.modJob p fun j =>
    if j.st = .running then
      { j with epact := { j.epact with draws := j.epact.draws + 1, cursor := j.epact.cursor + 1 }
               ingest := ingestDraw ((s.part p).ordo.getD {}).seed (Tbl.get 0 ((s.part p).ordo.getD {}).keys 0xFFFF) j.epact.draws }
    else j)

/-- The incoming mirror: `TWIN_APPLY` with a page whose staged digest does not match is refused with the first 64 such pages; one whose
digests and step do not match as a whole is refused whole; and one that matches makes the mirror the record of that step, in which the pages of the
manifest have their new live masks and digests, and is acknowledged (R408, R410). -/
def Obligations.TwinApplyAnswers : Prop :=
  (∀ t p step b, Gives t (.twinApplyReceive t p step)
    (fun s => (s.part p).twin.base = some b ∧ ((s.part p).twin.st = .syncing ∨ (s.part p).twin.st = .bound)) fun s s' =>
    (∃ pages : List Nat, pages ≠ [] ∧ pages.length ≤ 64 ∧ s' = s.emit (.twinNak (s.part p).twin.peerDev (s.part p).twin.peerPart pages)) ∨
    (∃ (s1 : State) (d : BitVec 128), s' = s1.emit (.twinAck (s.part p).twin.peerDev (s.part p).twin.peerPart step d) ∧
      (s'.part p).twin.mirrorGen = (step + 1) % 2 ^ 64)) ∧
  (∀ t p step b n tp es r, Does t (.twinApplyReceive t p step)
    (fun s => (s.part p).twin.base = some b ∧ ((s.part p).twin.st = .syncing ∨ (s.part p).twin.st = .bound) ∧
      s.stagedHead b (s.part p).twin.peerPages = (n, tp) ∧ es = (List.range n).map (s.stagedEnt b tp) ∧ r = recOfBytes (s.logRead b 0x100 128) ∧
      s.stagedBad b tp es = [] ∧ s.stagedDigests b tp es = (r.stateDigest, r.weightDigest) ∧ r.step = step) fun s =>
    let full := num (s.logRead b 0x180 8) 4 1 != 0
    let s1 := (es.foldl (fun s' e => s'.logWrite (b + 1) (32 * e.page) (mirEntBytes (s.mirAfter b es e.page))) s).logWrite b 0 (recBytes r)
    (s1.modTwin p fun x => Twin.bind { x with mirrorGen := (step + 1) % 2 ^ 64, peerPages := tp, inFull := x.inFull || full }).emit (.twinAck (s.part p).twin.peerDev (s.part p).twin.peerPart step r.stateDigest)) ∧
  (∀ t p step b n tp, Does t (.twinApplyReceive t p step)
    (fun s => (s.part p).twin.base = some b ∧ ((s.part p).twin.st = .syncing ∨ (s.part p).twin.st = .bound) ∧
      s.stagedHead b (s.part p).twin.peerPages = (n, tp) ∧ s.stagedBad b tp ((List.range n).map (s.stagedEnt b tp)) ≠ []) fun s =>
    s.emit (.twinNak (s.part p).twin.peerDev (s.part p).twin.peerPart ((s.stagedBad b tp ((List.range n).map (s.stagedEnt b tp))).take 64))) ∧
  (∀ t p step b n tp r, Does t (.twinApplyReceive t p step)
    (fun s => (s.part p).twin.base = some b ∧ ((s.part p).twin.st = .syncing ∨ (s.part p).twin.st = .bound) ∧
      s.stagedHead b (s.part p).twin.peerPages = (n, tp) ∧ r = recOfBytes (s.logRead b 0x100 128) ∧
      s.stagedBad b tp ((List.range n).map (s.stagedEnt b tp)) = [] ∧
      (s.stagedDigests b tp ((List.range n).map (s.stagedEnt b tp)) ≠ (r.stateDigest, r.weightDigest) ∨ r.step ≠ step)) fun s =>
    s.emit (.twinNak (s.part p).twin.peerDev (s.part p).twin.peerPart [0xFFFFFFFF]))

/-- The rows on which a waiting command goes on: a partition's lock passes to the first that waits for it, with its host buffer read again where
one is given; a page has been zeroed, and every allocation that waits is tried again in order; the partner acknowledges a mirror, and a
`RESTORE_PAGE` that waits for it goes on; and the sweep of a partition ends for its cause, its Harvest ends, its job completes normally at the
gate (R195, R197, R388, R411, R433, R443, R512, R518, R519). -/
def Obligations.GrantRowsAct : Prop :=
  (∀ t p mb ft d buf, Does t (.commandLockGrant t p buf)
    (fun s => (s.part p).lock = none ∧ nextWaiter (s.part p).lockWait = some (mb, ft) ∧ (s.mbx mb).running = some d) fun s =>
    let s1 := (s.modPart p fun x => { x with lockWait := x.lockWait.filter (· != (mb, ft)) }).modPart p fun x => { x with lock := some mb }
    (if buf.isSome then s1.modMb mb fun m => { m with ext := { m.ext with buf } } else s1).granted mb d) ∧
  (∀ t ppn, Does t (.pageZeroComplete t ppn) (fun _ => True) fun s =>
    (s.zeroed ppn).mem.allocWait.foldl (fun (s : State) mb => match (s.mbx mb).running with
      | some d => s.granted mb d
      | none => s) (s.zeroed ppn)) ∧
  (∀ t p step, Does t (.twinAckReceive t p step)
    (fun s => ((s.twinAck p step).part p).lock = none ∨ ((s.twinAck p step).part p).twin.phase ≠ .idle) fun s => s.twinAck p step) ∧
  (∀ t p step mb d, Does t (.twinAckReceive t p step)
    (fun s => ((s.twinAck p step).part p).lock = some mb ∧ ((s.twinAck p step).part p).twin.phase = .idle ∧
      ((s.twinAck p step).mbx mb).running = some d ∧ d.opcode = 0x0806) fun s => (s.twinAck p step).granted mb d) ∧
  (∀ t p why, Does t (.zeroSweepComplete t p)
    (fun s => (s.part p).sweep = some why ∧ s.tagsOpen p = false ∧ s.sweepPowered p = true) fun s =>
    let s1 := (s.modSites (s.sitesOf p) fun _ => sweptSite).modPart p fun x => { x with sweep := none }
    let s2 := if (s1.part p).underReset = true ∨ s1.hub.halted = true then s1 else s1.setDown p false
    match why with
    | .jobKill mb => s2.finish mb stOk
    | .reset _ => s2.partResetEnd p
    | _ => s2) ∧
  (∀ t p, Does t (.harvestComplete t p) (fun s => (s.part p).harvesting = true ∧ (s.part p).sweep ≠ some .harvest) fun s =>
    let s1 := (s.modPart p fun x => { x with harvesting := false }).event 0x0114 p
      [(8, (s.part p).harvested.cause), (64, (s.part p).harvested.step.toNat), (32, (s.part p).harvested.sampleBytes)]
    if (s1.part p).underReset = true then (if s1.hub.reset.isSome = true then s1.resetNext else s1.partResetGo p) else s1) ∧
  (∀ t p j, Does t (.normalCompletion t p) (fun s => s.job p = some j ∧ j.st = .atGate) fun s => (s.endBinding p 0 .normal).closeHeralds p)

/-- The repair rows: a fault fences its site, a planned fence is carried out, a full placement runs, a repair takes a spare and reads its tally
data, a spare has been filled, an in-service self-test ends (R76, R284, R307, R309 to R313, R316). -/
def Obligations.RepairRowsAct : Prop :=
  (∀ t k c chk lane syn unit, Does t (.siteFaultDetect t k c chk lane syn unit)
    (fun s => (s.site k).st ≠ .defect ∧ (s.site k).st ≠ .fenced ∧ (s.site k).st ≠ .dark ∧ c ≠ 0x0103) fun s =>
    (s.reportSite 0x0101 k unit [(8, chk), (8, lane), (16, 0), (32, syn)]).fenceNow k 0x0101 0) ∧
  (∀ t k chk lane syn unit, Does t (.siteFaultDetect t k 0x0103 chk lane syn unit)
    (fun s => (s.site k).st ≠ .defect ∧ (s.site k).st ≠ .fenced ∧ (s.site k).st ≠ .dark) fun s => s.fenceNow k 0x0103 0) ∧
  (∀ t k, Does t (.plannedFence t k)
    (fun s => s.fenceable k = true ∧ s.slotOpen (keyRegion k) = true ∧ 20 * ftMs ≤ s.slotLeft (s.partField k)) fun s =>
    (s.plannedFence k).slotWork (s.partField k)) ∧
  (∀ t g rest, Does t (.fullPlacement t g)
    (fun s => s.sitesIn g .test = [] ∧ (s.region g).repairs = .full :: rest ∧ (s.slotOpen g = false ∨ (s.region g).fences < 2 ∨
      s.slotLeft (s.partField (siteKey g 0)) < 20 * ftMs ∨ ((s.sitesOf (s.partField (siteKey g 0))).any s.fenceable) = true)) fun s =>
    ((s.mapFlush (s.partField (siteKey g 0))).placeMove g).modRegion g fun r => { r with repairs := r.repairs.filter fun x => x != .full }) ∧
  (∀ t g, Does t (.fullPlacement t g)
    (fun s => s.sitesIn g .test = [] ∧ s.slotOpen g = true ∧ 2 ≤ (s.region g).fences ∧ 20 * ftMs ≤ s.slotLeft (s.partField (siteKey g 0)) ∧
      ((s.sitesOf (s.partField (siteKey g 0))).any s.fenceable) = false) fun s =>
    let p := s.partField (siteKey g 0)
    (((((s.slotStart p 1).mapFlush p).placeMove g).modRegion g fun r => { r with repairs := r.repairs.filter fun x => x != .full }).slotEnd p 1).slotWork p) ∧
  (∀ t g, Does t (.repairStart t g) (fun s => ∀ k q n rest, ((s.chooseSpare g).region g).repairs ≠ .fill k q n false :: rest)
    fun s => s.chooseSpare g) ∧
  (∀ t g k q n rest, Does t (.repairStart t g)
    (fun s => ((s.chooseSpare g).region g).repairs = .fill k q n false :: rest ∧
      (q = 144 ∨ ((s.chooseSpare g).fillBad ((s.chooseSpare g).partField (siteKey g 0)) (tileOf g k) = none ∧
        (s.chooseSpare g).fillDown ((s.chooseSpare g).partField (siteKey g 0)) (tileOf g k) = none))) fun s => s.chooseSpare g) ∧
  (∀ t g k q n rest page l a, Does t (.repairStart t g)
    (fun s => ((s.chooseSpare g).region g).repairs = .fill k q n false :: rest ∧ q ≠ 144 ∧
      (s.chooseSpare g).fillDown ((s.chooseSpare g).partField (siteKey g 0)) (tileOf g k) = none ∧
      (s.chooseSpare g).fillBad ((s.chooseSpare g).partField (siteKey g 0)) (tileOf g k) = some (page, l, a)) fun s =>
    (s.chooseSpare g).stopFill g ((s.chooseSpare g).partField (siteKey g 0)) page l a) ∧
  (∀ t g k q n rest l, Does t (.repairStart t g)
    (fun s => ((s.chooseSpare g).region g).repairs = .fill k q n false :: rest ∧ q ≠ 144 ∧
      (s.chooseSpare g).fillDown ((s.chooseSpare g).partField (siteKey g 0)) (tileOf g k) = some l) fun s =>
    ((s.chooseSpare g).downRefuse l false).haltFill g ((s.chooseSpare g).partField (siteKey g 0))) ∧
  (∀ t g k q n rest, Does t (.spareFillComplete t g)
    (fun s => (s.region g).repairs = .fill k q n false :: rest ∧ q ≠ 144 ∧ s.sealOpen (s.partField (siteKey g 0)) = false ∧
      s.tagsOpen (s.partField (siteKey g 0)) = false ∧ s.fillDown (s.partField (siteKey g 0)) (tileOf g k) = none ∧
      s.fillBad (s.partField (siteKey g 0)) (tileOf g k) = none) fun s =>
    ((((s.mapFlush (s.partField (siteKey g 0))).fillSite (s.partField (siteKey g 0)) (siteKey g q) (tileOf g k)).endFill g k q).modRegion g fun r =>
      { r with repairs := rest }).loadShadow (siteKey g q)) ∧
  (∀ t g k q n rest page l a, Does t (.spareFillComplete t g)
    (fun s => (s.region g).repairs = .fill k q n false :: rest ∧ q ≠ 144 ∧ s.sealOpen (s.partField (siteKey g 0)) = false ∧
      s.tagsOpen (s.partField (siteKey g 0)) = false ∧ s.fillDown (s.partField (siteKey g 0)) (tileOf g k) = none ∧
      s.fillBad (s.partField (siteKey g 0)) (tileOf g k) = some (page, l, a)) fun s =>
    s.stopFill g (s.partField (siteKey g 0)) page l a) ∧
  (∀ t k sig mem b en e, Does t (.bistComplete t k sig mem b en e) (fun s => (s.site k).st = .test) fun s =>
    let s1 := (s.mapFlush (s.partField k)).bistResult k sig mem b en e
    if ((s1.sitesOf (s.partField k)).any fun k' => (s1.site k').st == .test) = true then s1
    else (s1.slotEnd (s.partField k) 3).grantLoad (s.partField k))

/-! ## The tile -/

/-- The channel rows: a handler is dispatched for a message, a deposit lands, credits come back or overrun the grant, a stalled send turns to
a spill in packets of at most 512 bytes, a spill deposit waits for its last packet, is put in the spill ring or finds no room, a contribution
reaches the combiner of a channel, and a router that is `DOWN` discards and counts a credit (R204, R218, R219, R222, R225, R227, R229, R351,
R368). How a spill deposit is cut is the model's (log 51). -/
def Obligations.ChannelRowsAct : Prop :=
  (∀ t k i r s1, Does t (.handlerDispatch t k)
    (fun s => s.siteWorks k seqUnit = true ∧ s.mayRun k seqUnit = true ∧ (s.site k).seq.halted = false ∧ (s.site k).seq.hand.live = false ∧
      (s.site k).nextHandler = some i ∧ s.takeMsg k i = some (r, s1)) fun s =>
    let x := s.site k
    let sp := 0x100000 + x.cfg (chanUnit i) 64 20 + x.cfg (chanUnit i) 84 20
    let rs : Tbl (BitVec 32) := [(2, sp), (10, 0x100000 + r.addr), (11, r.msg.payload.length), (12, i), (13, r.a3), (14, r.a4)].foldl
      (fun t e => Tbl.set 0 e.1 (BitVec.ofNat 32 e.2) t) []
    (s1.modSeq k fun q => { q with
      ctx := i + 1, fast := false
      hand := { regs := rs, pc := BitVec.ofNat 32 (0x1BA000 + x.cfg (chanUnit i) 40 14), live := true } }).lentExit (keyRegion k)) ∧
  (∀ t pkt k, Does t (.depositReceive t pkt)
    (fun s => s.Reaches pkt k ∧ pkt.kind = .deposit ∧ (s.site k).cfg (chanUnit (pkt.arg.toNat % 32)) 0 2 = 1 ∧
      pkt.addr + (pkt.payload.length + 63) / 64 ≤ (s.site k).ringLines (pkt.arg.toNat % 32)) fun s =>
    let i := pkt.arg.toNat % 32
    let n := (pkt.payload.length + 63) / 64
    let s1 := s.sliceWrite k ((s.site k).ringBase i + 64 * pkt.addr) pkt.payload
    (s1.modSite k fun x =>
      (x.modChan i fun c => { c with present := ((List.range n).map (pkt.addr + ·) ++ c.present).dedup, marked := c.marked || pkt.ce }).notePending i
        s1.now).reply pkt .ok) ∧
  (∀ t k i n, Does t (.channelCreditReceive t k i n)
    (fun s => (s.router (routerOf k)).down = false ∧ i < 32 ∧ (s.site k).st = .tile ∧ (s.site k).cfg (chanUnit i) 128 2 = 1 ∧
      ((s.site k).chan i).txCredits + n ≤ (s.site k).cfg (chanUnit i) 176 11) fun s =>
    s.modSite k fun x => x.modChan i fun c => { c with txCredits := c.txCredits + n }) ∧
  (∀ t k i n, Does t (.channelCreditReceive t k i n)
    (fun s => (s.router (routerOf k)).down = false ∧ i < 32 ∧ (s.site k).st = .tile ∧ (s.site k).cfg (chanUnit i) 128 2 = 1 ∧
      (s.site k).cfg (chanUnit i) 176 11 < ((s.site k).chan i).txCredits + n) fun s => s.configFault k (chanUnit i) 3 0x0203) ∧
  (∀ t k i n, Does t (.channelCreditReceive t k i n) (fun s => (s.router (routerOf k)).down = true) fun s => s.rtrCount (routerOf k) 4) ∧
  (∀ t k i b w ins s1, Does t (.sendStallExpire t k i)
    (fun s =>
      let x := s.site k
      let c := x.chan i
      let m := s.sendMsg k i (x.seqBytes (b.reg (bitsN ins 20 5)).toNat (bitsN (b.reg (bitsN ins 15 5)).toNat 16 16))
      let tl := x.cfg (chanUnit i) 176 11
      x.stalled i = some (b, w, ins) ∧ s.siteWorks k seqUnit = true ∧ s.mayRun k seqUnit = true ∧ x.seq.halted = false ∧
        c.txWait = true ∧ c.txSpill = false ∧ c.txUnacked = 0 ∧ tl ≠ 0 ∧
        c.txCredits < c.padLines tl m.lines + m.lines ∧
        w.since + (if x.cfg (chanUnit i) 192 16 = 0 then 100 else x.cfg (chanUnit i) 192 16) * ftUs ≤ s.now ∧
        s.requests (s.portPool k i) ((depositChunks 0 (hdrBytes m true ++ m.payload) (m.payload.length / 512 + 2)).map fun e =>
          s.portPacket k i .deposit e.1 e.2) = some s1) fun s =>
    let x := s.site k
    let m := s.sendMsg k i (x.seqBytes (b.reg (bitsN ins 20 5)).toNat (bitsN (b.reg (bitsN ins 15 5)).toNat 16 16))
    let n := (depositChunks 0 (hdrBytes m true ++ m.payload) (m.payload.length / 512 + 2)).length
    s1.modSite k fun x =>
      let x := x.modChan i fun c => { c with txSpill := true, txUnacked := c.txUnacked + n }
      { x with seq := { x.seq with unacked := x.seq.unacked + n } }) ∧
  (∀ line bs n, bs.length ≤ 512 * n →
    (depositChunks line bs n).flatMap (·.2) = bs ∧ ∀ e ∈ depositChunks line bs n, e.2.length ≤ 512) ∧
  (∀ t pkt k, Does t (.spillDepositReceive t pkt)
    (fun s => s.Reaches pkt k ∧ pkt.kind = .deposit ∧ (s.site k).cfg (chanUnit (pkt.arg.toNat % 32)) 0 2 = 1 ∧
      spillWhole (Tbl.put pkt.addr pkt.payload ((s.site k).chan (pkt.arg.toNat % 32)).spillIn) = none) fun s =>
    (s.modSite k fun x => x.modChan (pkt.arg.toNat % 32) fun c =>
      { c with spillIn := Tbl.put pkt.addr pkt.payload ((s.site k).chan (pkt.arg.toNat % 32)).spillIn, marked := c.marked || pkt.ce }).reply pkt .ok) ∧
  (∀ t pkt k bs, Gives t (.spillDepositReceive t pkt)
    (fun s => s.Reaches pkt k ∧ pkt.kind = .deposit ∧ (s.site k).cfg (chanUnit (pkt.arg.toNat % 32)) 0 2 = 1 ∧
      spillWhole (Tbl.put pkt.addr pkt.payload ((s.site k).chan (pkt.arg.toNat % 32)).spillIn) = some bs ∧
      ((s.site k).spill.map fun e => e.bytes).sum +
        (((s.site k).ringUndispatched (pkt.arg.toNat % 32)).map fun r => 64 * (r.1 + r.2.2)).sum + 64 * (msgOf bs).lines ≤
        2 ^ (if (s.chanRec k).spillLog2 = 0 then 20 else (s.chanRec k).spillLog2)) fun s s' =>
    let recs := (s.site k).ringUndispatched (pkt.arg.toNat % 32)
    ∃ s1 : State, s' = (s1.creditBack k (pkt.arg.toNat % 32) (recs.map fun r => r.1 + r.2.2).sum (msgOf bs)).reply pkt .ok ∧
      (s1.site k).spill = (s.site k).spill ++ (recs.map fun r =>
          { msg := { msgOf ((s.site k).ringBytes (pkt.arg.toNat % 32) r.2.1 (64 * r.2.2)) with chan := pkt.arg.toNat % 32, spilled := false },
            pads := r.1, bytes := 64 * (r.1 + r.2.2) }) ++
        [{ msg := { msgOf bs with chan := pkt.arg.toNat % 32, spilled := false }, bytes := 64 * (msgOf bs).lines }] ∧
      (s1.site k).seq = (s.site k).seq.addPending (pkt.arg.toNat % 32) (msgOf bs).seq s.now) ∧
  (∀ t pkt k bs, Does t (.spillDepositReceive t pkt)
    (fun s => s.Reaches pkt k ∧ pkt.kind = .deposit ∧ (s.site k).cfg (chanUnit (pkt.arg.toNat % 32)) 0 2 = 1 ∧
      spillWhole (Tbl.put pkt.addr pkt.payload ((s.site k).chan (pkt.arg.toNat % 32)).spillIn) = some bs ∧
      2 ^ (if (s.chanRec k).spillLog2 = 0 then 20 else (s.chanRec k).spillLog2) < ((s.site k).spill.map fun e => e.bytes).sum +
        (((s.site k).ringUndispatched (pkt.arg.toNat % 32)).map fun r => 64 * (r.1 + r.2.2)).sum + 64 * (msgOf bs).lines) fun s =>
    let i := pkt.arg.toNat % 32
    let p := s.partField k
    ((s.event 0x0202 p [(16, s.tileAt k), (8, i)]).report 0x0108 2 p (s.tileAt k + 8192 * i) []).hang p 0x0108 7 (siteId k)) ∧
  (∀ t pkt k, Does t (.contributionReceive t pkt)
    (fun s => s.Reaches pkt k ∧ pkt.kind = .contrib ∧ (s.site k).cfg (chanUnit (pkt.arg.toNat % 32)) 0 2 = 3) fun s => s.cqArrive k pkt)

/-- The fabric rows: a switch forwards, an element leaves its port for every destination that the switch words give it, an Eve token switches
the outputs it passes, a credit returns or overruns, shadow words load, a unit gives the Eve tokens it owes and switches, an Eve token comes to
a head twice, out of turn, or strands a unit (R134, R135, R158, R160 to R163). -/
def Obligations.FabricRowsAct : Prop :=
  (∀ t k q i, Does t (.portSwitch t k q i true) (fun _ => True) fun s => s.switchIn k q i) ∧
  (∀ t k q i, Does t (.portSwitch t k q i false) (fun _ => True) fun s => s.switchEj k q i) ∧
  (∀ t k q i e rest, Does t (.routeElementSend t k q i)
    (fun s => ((s.site k).inPort q i).outq = e :: rest ∧ e.eve = false ∧ ((s.site k).inPort q i).route.isSome = true ∧
      elemCost q e ≤ ((s.site k).inPort q i).credit) fun s =>
    ((s.fabricWalk q ((s.site k).inPort q i).epoch 128 k (5 + i)).filter fun o => decide (4 ≤ o.2 % 16)).foldl (fun s d =>
        s.modSite d.1 fun x => x.modEj q (d.2 % 16 - 4) fun r => { r with fifo := r.fifo ++ [e] })
      (s.modSite k fun x => x.modIn q i fun p => { p with outq := rest, credit := p.credit - elemCost q e })) ∧
  (∀ t k q i e rest, Does t (.routeElementSend t k q i)
    (fun s => ((s.site k).inPort q i).outq = e :: rest ∧ e.eve = true ∧ ((s.site k).inPort q i).route.isSome = true ∧
      elemCost q e ≤ ((s.site k).inPort q i).credit ∧
      (∀ o ∈ s.fabricWalk q ((s.site k).inPort q i).epoch 128 k (5 + i), ((s.site o.1).unit o.2).valid = true)) fun s =>
    let outs := s.fabricWalk q ((s.site k).inPort q i).epoch 128 k (5 + i)
    ((outs.filter fun o => decide (4 ≤ o.2 % 16)).foldl (fun s d =>
        s.modSite d.1 fun x => x.modEj q (d.2 % 16 - 4) fun r => { r with fifo := r.fifo ++ [e] })
      (s.modSite k fun x => x.modIn q i fun p => { p with outq := rest, credit := p.credit - elemCost q e })).evePassed outs
        (BitVec.ofNat 16 (e.data.toNat % 65536))) ∧
  (∀ t k q i, Does t (.creditReturn t k q i)
    (fun s => ((s.site k).inPort q i).route.isSome = true ∧ ((s.site k).inPort q i).dests ≠ [] ∧
      (∀ d ∈ ((s.site k).inPort q i).dests, 1 ≤ ((s.site d.1).ejPort q d.2).owed) ∧
      ((s.site k).inPort q i).credit + 1 ≤ ((s.site k).inPort q i).cap) fun s =>
    (((s.site k).inPort q i).dests.foldl (fun s d => s.modSite d.1 fun x => x.modEj q d.2 fun r => { r with owed := r.owed - 1 }) s).modSite k
      fun x => x.modIn q i fun p => { p with credit := p.credit + 1 }) ∧
  (∀ t k q i, Does t (.creditReturn t k q i)
    (fun s => ((s.site k).inPort q i).route.isSome = true ∧ ((s.site k).inPort q i).dests ≠ [] ∧
      (∀ d ∈ ((s.site k).inPort q i).dests, 1 ≤ ((s.site d.1).ejPort q d.2).owed) ∧
      ((s.site k).inPort q i).cap < ((s.site k).inPort q i).credit + 1) fun s =>
    (((s.site k).inPort q i).dests.foldl (fun s d => s.modSite d.1 fun x => x.modEj q d.2 fun r => { r with owed := r.owed - 1 }) s).configFault
      k (portUnit q) 3 0x0203) ∧
  (∀ t k, Does t (.shadowLoad t k) (fun _ => True) fun s => s.loadShadow k) ∧
  (∀ t k u, Does t (.unitSwitch t k u) (fun s => switchUnits.contains u = true ∧ (s.eveOwed k u).canSwitch k u = true) fun s =>
    (s.eveOwed k u).unitSwitch k u) ∧
  (∀ t k u, Does t (.unitSwitch t k u) (fun s => switchUnits.contains u = true ∧ (s.eveOwed k u).canSwitch k u = false) fun s =>
    s.eveOwed k u) ∧
  (∀ t k u h s1, Does t (.eveTokenHead t k u)
    (fun s => switchUnits.contains u = true ∧ s.siteWorks k u = true ∧
      ((s.site k).headsOf u).find? (fun h => h.2.eve && !(isEve h.2 (((s.site k).unit u).epoch + 1))) = some h ∧
      isEve h.2 ((s.site k).unit u).epoch = true ∧ (s.takeIn k h.1).map (·.2) = some s1) fun _ =>
    s1.modSite k fun x => { x with dupEve := satAdd 255 x.dupEve 1 }) ∧
  (∀ t k u h, Does t (.eveTokenHead t k u)
    (fun s => switchUnits.contains u = true ∧ s.siteWorks k u = true ∧
      ((s.site k).headsOf u).find? (fun h => h.2.eve && !(isEve h.2 (((s.site k).unit u).epoch + 1))) = some h ∧
      isEve h.2 ((s.site k).unit u).epoch = false) fun s => s.configFault k u 1 0x0201) ∧
  (∀ t k u, Does t (.eveTokenHead t k u)
    (fun s => switchUnits.contains u = true ∧ s.siteWorks k u = true ∧
      ((s.site k).headsOf u).find? (fun h => h.2.eve && !(isEve h.2 (((s.site k).unit u).epoch + 1))) = none ∧
      (∃ h ∈ (s.site k).headsOf u, h.2.eve = true ∧ (s.site k).needsNext u h.1 = true) ∧ (∃ h ∈ (s.site k).headsOf u, h.2.eve = false) ∧
      ¬ (0x040 ≤ u ∧ u ≤ 0x047 ∧ (s.site k).cfg u 7 1 = 1)) fun s => s.configFault k u 2 0x0202) ∧
  (∀ t k u, Does t (.eveTokenHead t k u)
    (fun s => switchUnits.contains u = true ∧ s.siteWorks k u = true ∧
      ((s.site k).headsOf u).find? (fun h => h.2.eve && !(isEve h.2 (((s.site k).unit u).epoch + 1))) = none ∧
      (∃ h ∈ (s.site k).headsOf u, h.2.eve = true ∧ (s.site k).needsNext u h.1 = true) ∧ (∃ h ∈ (s.site k).headsOf u, h.2.eve = false) ∧
      (0x040 ≤ u ∧ u ≤ 0x047 ∧ (s.site k).cfg u 7 1 = 1)) fun s =>
    let s1 := ((((s.site k).headsOf u).filter fun h => !h.2.eve).foldl (fun s h => s.drainIn k h.1) s).eveOwed k u
    if s1.canSwitch k u = true then s1.unitSwitch k u else s1)

/-- The two units of control: a counter, in each mode, takes its next value, puts out its tag and its value, and after the last of a pass raises
its signal, advances the counters chained to it and, after its final value, gives its Eve tokens; a steering unit of each kind removes the heads
it needs and passes one, and a selector above `NSEL` is a fault (R139, R140, R143, R144). -/
def Obligations.ControlRowsAct : Prop :=
  (∀ t k n s1, Does t (.counterAdvance t k n)
    (fun s =>
      let x := s.site k
      let u := 0x030 + n
      let mode := x.cfg u 96 3
      let ref := InRef.ej (if mode = 2 then 2 else 1) (x.cfg u 116 3)
      n < 8 ∧ s.siteWorks k u = true ∧ (x.counter n).done = false ∧ x.chainsReady n = true ∧
        (∀ o ∈ x.counterTok n ++ x.counterVal n, x.room u o 1 = true) ∧
        ((mode = 1 ∧ s.mayRun k u = true ∧ s1 = s) ∨
          ((mode = 2 ∨ mode = 3) ∧ x.ownsIn u ref = true ∧ ∃ es, s.takeN k ref 1 = some (es, s1)) ∨
          (mode = 4 ∧ 0 < (x.counter n).pend ∧ s1 = s.modSite k fun x => x.modCounter n fun c => { c with pend := c.pend - 1 }))) fun s =>
    let x := s.site k
    let u := 0x030 + n
    let r := x.counterOut n
    let s2 := s1.modSite k fun y =>
      ((y.emitAll (x.counterTok n) { data := BitVec.ofNat 512 r.tag }).emitAll (x.counterVal n)
          { data := BitVec.ofNat 512 (wrapZ 32 r.value) }).modCounter n fun c => { c with cur := r.next, passes := if r.last then c.passes + 1 else c.passes, done := r.final, started := true }
    let s3 := if r.last then
        (s2.modSite k fun y => (y.chainedTo n).foldl (fun y m => y.modCounter m fun c => { c with pend := c.pend + 1 }) y).raise k (56 + n) 1 u
      else s2
    if r.final then s3.eveOwed k u else s3) ∧
  (∀ t k n c e s1 s2, Does t (.steerFire t k n)
    (fun s =>
      let x := s.site k
      let u := 0x040 + n
      n < 8 ∧ x.cfg u 0 3 = 1 ∧ s.siteWorks k u = true ∧ x.ownsIn u (.ej (if x.cfg u 5 1 = 1 then 1 else 2) (x.cfg u 9 3)) = true ∧
        x.ownsIn u (.ej (x.cfg u 6 1) (x.cfg u (12 + 3 * (bitsN c.data.toNat 0 4 % 4)) 3)) = true ∧
        s.takeN k (.ej (if x.cfg u 5 1 = 1 then 1 else 2) (x.cfg u 9 3)) 1 = some ([c], s1) ∧ bitsN c.data.toNat 0 4 % 4 ≤ x.cfg u 3 2 ∧
        s1.takeN k (.ej (x.cfg u 6 1) (x.cfg u (12 + 3 * (bitsN c.data.toNat 0 4 % 4)) 3)) 1 = some ([e], s2) ∧
        x.room u (.inj (x.cfg u 6 1) (x.cfg u (24 + 2 * 0) 2)) (elemCost (x.cfg u 6 1) e) = true) fun s =>
    s2.modSite k fun x => x.emitAll [.inj ((s.site k).cfg (0x040 + n) 6 1) ((s.site k).cfg (0x040 + n) (24 + 2 * 0) 2)] e) ∧
  (∀ t k n c e s1 s2, Does t (.steerFire t k n)
    (fun s =>
      let x := s.site k
      let u := 0x040 + n
      n < 8 ∧ x.cfg u 0 3 = 3 ∧ s.siteWorks k u = true ∧ x.ownsIn u (.ej (if x.cfg u 5 1 = 1 then 1 else 2) (x.cfg u 9 3)) = true ∧
        x.ownsIn u (.ej (x.cfg u 6 1) (x.cfg u (12 + 3 * 0) 3)) = true ∧
        s.takeN k (.ej (if x.cfg u 5 1 = 1 then 1 else 2) (x.cfg u 9 3)) 1 = some ([c], s1) ∧
        s1.takeN k (.ej (x.cfg u 6 1) (x.cfg u (12 + 3 * 0) 3)) 1 = some ([e], s2) ∧
        (bitsN c.data.toNat 0 4 + x.cfg u 8 1) % 2 = 0) fun _ => s2.modSite k fun x => x.emitAll [] e) ∧
  (∀ t k n c s1, Does t (.steerFire t k n)
    (fun s =>
      let x := s.site k
      let u := 0x040 + n
      n < 8 ∧ (x.cfg u 0 3 = 1 ∨ x.cfg u 0 3 = 2 ∨ x.cfg u 0 3 = 5) ∧ s.siteWorks k u = true ∧
        x.ownsIn u (.ej (if x.cfg u 5 1 = 1 then 1 else 2) (x.cfg u 9 3)) = true ∧
        s.takeN k (.ej (if x.cfg u 5 1 = 1 then 1 else 2) (x.cfg u 9 3)) 1 = some ([c], s1) ∧ x.cfg u 3 2 < bitsN c.data.toNat 0 4 % 4) fun s =>
    s.configFault k (0x040 + n) 4 0x0204)

/-- The data rows: the array takes the operands of a K-group in either mode, with an initial accumulator of its own or from stream C; a vector
beat goes through the six stages with room for what it emits; the slice arbiter grants one access, which corrects or reports the errors of its
entries; and an address generator reads, fills and copies (R98, R99, R172, R175, R178, R183, R184, R572). Sums of lanes are the model's fold. -/
def Obligations.DataRowsAct : Prop :=
  (∀ t k bufA sclA s1 bufB sclB s2 cs scl s3, Does t (.patchKgroup t k)
    (fun s =>
      let x := s.site k
      let pl := x.patchPlan
      let first := x.patch.kg == 0 && x.patch.wsRow == 0 && x.patch.wsGrp == 0
      (x.cfg 0 0 2 = 1 ∨ x.cfg 0 0 2 = 2) ∧ s.siteWorks k 0 = true ∧
        s.patchTake k strA x.patchNeed.1 x.patch.bufA x.patch.sclA = some (bufA, sclA, s1) ∧
        s1.patchTake k strB (x.patchNeed.2 * pl.blk) x.patch.bufB x.patch.sclB = some (bufB, sclB, s2) ∧
        (if first = true ∧ x.cfg 0 10 2 = 1 then s2.patchTake k strC (4 * pl.cells.length) [] [] else some ([], [], s2)) = some (cs, scl, s3)) fun s =>
    let x := s.site k
    let w : BitVec 64 := ((x.unit 0).active).setWidth 64
    let pl := x.patchPlan
    let first := x.patch.kg == 0 && x.patch.wsRow == 0 && x.patch.wsGrp == 0
    let na := pl.rows * pl.g * fmtBits (x.cfg 0 2 4) / 8
    let nb := pl.cols * pl.g * fmtBits (x.cfg 0 6 4) / 8
    let nsa := if isMx (x.cfg 0 2 4) then pl.rows else 0
    let nsb := if isMx (x.cfg 0 6 4) then pl.cols else 0
    let r := patchFold w pl.rows pl.cols pl.g x.patch.wsRow (bufA.take na) (sclA.take nsa) ((bufB.drop (nb * x.patch.wsGrp)).take nb)
      ((sclB.drop (nsb * x.patch.wsGrp)).take nsb) (if first then patchInit w pl.cells cs x.patch.acc else x.patch.acc)
    let y := ({ x.patch with acc := r.1, bufA, sclA, bufB, sclB, intWrap := x.patch.intWrap || r.2.1, nanSeen := x.patch.nanSeen || r.2.2 } : PatchSt).after
      pl (x.cfg 0 16 16) na nsa nb nsb
    s3.modSite k fun z =>
      let z := { z with patch := y.1 }
      if y.2 then (patchBeats w pl.cells r.1).foldl (fun z e => z.emitAll (z.outputs 0) e) z else z) ∧
  (∀ t k got s1, Does t (.vectorBeat t k)
    (fun s =>
      let x := (s.site k).viewAt ((s.site k).unit 0x010).epoch
      let r := s.runStages k x got 6 1 (s1.site k) (x.beatFlow got x.prevStream)
      x.pipeActive = true ∧ x.pipeInputs ≠ [] ∧
        (∀ u ∈ (List.range 6).map (0x010 + ·), (x.unit u).epoch = (x.unit 0x010).epoch ∧ s.siteWorks k u = true) ∧
        s.takeBeats k x.pipeInputs = some (got, s1) ∧ (∀ o ∈ (s.site k).outputs 0x015, x.room 0x015 o r.2.length = true)) fun s =>
    let x := (s.site k).viewAt ((s.site k).unit 0x010).epoch
    let r := s.runStages k x got 6 1 (s1.site k) (x.beatFlow got x.prevStream)
    s1.modSite k fun _ => r.2.foldl (fun y e => y.emitAll ((s.site k).outputs 0x015) e) r.1) ∧
  (∀ t k wr nr hits, Does t (.sliceAccessGrant t k wr nr hits) (fun _ => True) fun s =>
    let s1 := s.disturbs k hits
    let m := (s1.site k).mu
    let wide (r : SliceReq) : Bool := match r.form with
      | .narrow _ => false
      | _ => true
    let r := arbitrate { m with
      wideReq := joinReq m.wideReq (wr.filter wide), narrowReq := joinReq m.narrowReq (nr.filter fun r => !wide r) }
    match r.2 with
    | none => s1.modSite k fun x => { x with mu := r.1 }
    | some q => (s1.modSite k fun x => { x with mu := r.1 }).grantEcc k q) ∧
  (∀ t k n, Does t (.agIteration t k n)
    (fun s => n < 4 ∧ bitsN ((s.site k).unit (0x020 + n)).active.toNat 0 3 = 3 ∧
      (Tbl.get {} (s.site k).ags n : AgSt).done = false ∧ s.siteWorks k (0x020 + n) = true ∧ s.mayRun k (0x020 + n) = true ∧
      agPadded ((s.site k).unit (0x020 + n)).active.toNat (Tbl.get {} (s.site k).ags n : AgSt).idx = false) fun s =>
    let cfg := ((s.site k).unit (0x020 + n)).active.toNat
    let ag : AgSt := Tbl.get {} (s.site k).ags n
    let a := agAddr cfg ag.idx
    let vlen := vlenBytes (bitsN cfg 11 2)
    (s.agStore k n cfg a (agScaleAddr cfg ag.idx) ((List.range (vlen / 4)).flatMap fun _ => leBytes 4 (bitsN cfg 128 32)) [] none).agStep k n cfg
      ((agBytesAt cfg a).flatMap (granules · 1)).dedup []) ∧
  (∀ t k n, Does t (.agIteration t k n)
    (fun s => n < 4 ∧ bitsN ((s.site k).unit (0x020 + n)).active.toNat 0 3 = 4 ∧
      (Tbl.get {} (s.site k).ags n : AgSt).done = false ∧ s.siteWorks k (0x020 + n) = true ∧ s.mayRun k (0x020 + n) = true ∧
      agPadded ((s.site k).unit (0x020 + n)).active.toNat (Tbl.get {} (s.site k).ags n : AgSt).idx = false) fun s =>
    let cfg := ((s.site k).unit (0x020 + n)).active.toNat
    let ag : AgSt := Tbl.get {} (s.site k).ags n
    let a := agAddr cfg ag.idx
    let addrs := agBytesAt cfg a
    let d := ((a : Int) + bitsZ cfg 128 32).toNat
    (((s.agAccess k n (agScaleAddr cfg ag.idx) 0 addrs).agStore k n cfg d (agScaleAddr cfg ag.idx)
        ((s.site k).agBytes n addrs) [] (if bitsN cfg 3 4 = 0xD then (s.site k).tagAt a else none)).agStep k n cfg
      ((agBytesAt cfg d).flatMap (granules · 1)).dedup (if bitOn cfg 13 then (s.site k).agFetch n addrs else [])).modSite k fun y =>
        { y with ags := Tbl.set {} n { (Tbl.get {} y.ags n : AgSt) with
            tbuf := (Tbl.get {} y.ags n : AgSt).tbuf.filter fun h => !(halfCols (agBytesAt cfg d)).contains h.1 } y.ags }) ∧
  (∀ t k n, Does t (.agIteration t k n)
    (fun s => n < 4 ∧ (bitsN ((s.site k).unit (0x020 + n)).active.toNat 0 3 = 3 ∨ bitsN ((s.site k).unit (0x020 + n)).active.toNat 0 3 = 4) ∧
      (Tbl.get {} (s.site k).ags n : AgSt).done = false ∧ s.siteWorks k (0x020 + n) = true ∧ s.mayRun k (0x020 + n) = true ∧
      agPadded ((s.site k).unit (0x020 + n)).active.toNat (Tbl.get {} (s.site k).ags n : AgSt).idx = true) fun s =>
    s.agStep k n ((s.site k).unit (0x020 + n)).active.toNat [] []) ∧
  (∀ t k n, Does t (.agIteration t k n)
    (fun s =>
      let x := s.site k
      let cfg := (x.unit (0x020 + n)).active.toNat
      n < 4 ∧ bitsN cfg 0 3 = 1 ∧ (Tbl.get {} x.ags n : AgSt).done = false ∧ s.siteWorks k (0x020 + n) = true ∧ s.mayRun k (0x020 + n) = true ∧
        x.outputs (0x020 + n) ≠ [] ∧ (∀ o ∈ x.outputs (0x020 + n), x.room (0x020 + n) o (x.agRead n o).length = true)) fun s =>
    let x := s.site k
    let cfg := (x.unit (0x020 + n)).active.toNat
    let ag : AgSt := Tbl.get {} x.ags n
    let addrs := agBytesAt cfg (agAddr cfg ag.idx)
    let pad := agPadded cfg ag.idx
    let s1 := if pad then s else s.agAccess k n (agScaleAddr cfg ag.idx) (bitsN cfg 376 6) addrs
    ((s1.modSite k fun y => (x.outputs (0x020 + n)).foldl (fun y o => (x.agRead n o).foldl (fun y e => y.emit o e) y) y).agStep k n cfg []
      (if bitOn cfg 13 && !pad then x.agFetch n addrs else [])).eveOwed k (0x020 + n)) ∧
  (∀ t k n r rest es s1, Does t (.agIteration t k n)
    (fun s =>
      let x := s.site k
      let cfg := (x.unit (0x020 + n)).active.toNat
      n < 4 ∧ bitsN cfg 0 3 = 2 ∧ (Tbl.get {} x.ags n : AgSt).done = false ∧ s.siteWorks k (0x020 + n) = true ∧
        (x.inputs (0x020 + n)).filter (x.ownsIn (0x020 + n)) = r :: rest ∧ bitOn cfg 15 = false ∧
        agPadded cfg (Tbl.get {} x.ags n : AgSt).idx = false ∧
        s.takeN k r (if r.plane = 1 then vlenBytes (bitsN cfg 11 2) / 4 else 1) = some (es, s1)) fun s =>
    let x := s.site k
    let cfg := (x.unit (0x020 + n)).active.toNat
    let ag : AgSt := Tbl.get {} x.ags n
    let a := agAddr cfg ag.idx
    let sa := agScaleAddr cfg ag.idx
    let sc := ((es.headD {}).scales ++ List.replicate (bitsN cfg 376 6) 0).take (bitsN cfg 376 6)
    let bs := writeBytes ((x.unit 0x015).wordAt (x.unit (0x020 + n)).epoch).toNat cfg r.plane es
    (s1.agStore k n cfg a sa bs sc (if bitsN cfg 3 4 = 0xD then (es.headD {}).tag else none)).agStep k n cfg
        (((agBytesAt cfg a).take bs.length).flatMap (granules · 1) ++ granules sa sc.length).dedup []) ∧
  (∀ t k n r rest es s1, Does t (.agIteration t k n)
    (fun s =>
      let x := s.site k
      let cfg := (x.unit (0x020 + n)).active.toNat
      n < 4 ∧ bitsN cfg 0 3 = 2 ∧ (Tbl.get {} x.ags n : AgSt).done = false ∧ s.siteWorks k (0x020 + n) = true ∧
        (x.inputs (0x020 + n)).filter (x.ownsIn (0x020 + n)) = r :: rest ∧ agPadded cfg (Tbl.get {} x.ags n : AgSt).idx = true ∧
        s.takeN k r (if r.plane = 1 then vlenBytes (bitsN cfg 11 2) / 4 else 1) = some (es, s1)) fun s =>
    s1.agStep k n ((s.site k).unit (0x020 + n)).active.toNat [] []) ∧
  (∀ t k n r rest es s1, Does t (.agIteration t k n)
    (fun s =>
      let x := s.site k
      let cfg := (x.unit (0x020 + n)).active.toNat
      n < 4 ∧ bitsN cfg 0 3 = 2 ∧ (Tbl.get {} x.ags n : AgSt).done = false ∧ s.siteWorks k (0x020 + n) = true ∧
        (x.inputs (0x020 + n)).filter (x.ownsIn (0x020 + n)) = r :: rest ∧ bitOn cfg 15 = true ∧
        agPadded cfg (Tbl.get {} x.ags n : AgSt).idx = false ∧
        s.takeN k r (if r.plane = 1 then vlenBytes (bitsN cfg 11 2) / 4 else 1) = some (es, s1)) fun s =>
    let cfg := ((s.site k).unit (0x020 + n)).active.toNat
    let c := ctrAdd (Tbl.get {} (s1.site k).mu.discards (bitsN cfg 24 8)) 1
    ((s1.modSite k fun x => { x with mu := { x.mu with discard := true, discards := Tbl.set {} (bitsN cfg 24 8) c.1 x.mu.discards } }).ovfIf c.2
      (0x0C000000 + s.tileAt k + 8192 * bitsN cfg 24 8) 0).agStep k n cfg [] [])

/-- The rows of synchronization: a signal raise arrives at a tile and its shadows, a barrier's arrivals are counted at a router, pass up the tree,
cross to the group's Herald device, and release, a release reaches a waiting member, a router that is `DOWN` discards and counts them, and the
three Ides timers expire (R232, R241, R242, R249, R250, R368). -/
def Obligations.SyncRowsAct : Prop :=
  (∀ t pkt n k, Does t (.signalRaiseReceive t pkt n) (fun s => s.Reaches pkt k) fun s =>
    let s1 := s.raise k (pkt.arg.toNat % 64) n 0x180
    ((s1.shadows k).foldl (fun s v => s.raise v (pkt.arg.toNat % 64) n 0x180) s1).reply pkt .ok) ∧
  (∀ t r p b d, Does t (.barrierArrivalReceive t r p b)
    (fun s => s.barDef p b = some d ∧ (s.router r).down = false ∧ Tbl.get 0 (s.router r).barArr (64 * p + b) + 1 < s.barTarget p d r) fun s =>
    s.modRouter r fun x => { x with barArr := Tbl.set 0 (64 * p + b) (Tbl.get 0 (s.router r).barArr (64 * p + b) + 1) x.barArr }) ∧
  (∀ t r p b d, Does t (.barrierArrivalReceive t r p b)
    (fun s => s.barDef p b = some d ∧ (s.router r).down = false ∧ 0 < s.barTarget p d r ∧
      s.barTarget p d r ≤ Tbl.get 0 (s.router r).barArr (64 * p + b) + 1 ∧ r = s.tileRouter d.root ∧ d.scope ≠ 1) fun s =>
    (s.modRouter r fun x => { x with barArr := Tbl.set 0 (64 * p + b) 0 x.barArr }).barRelease d) ∧
  (∀ t r p b d, Does t (.barrierArrivalReceive t r p b)
    (fun s => s.barDef p b = some d ∧ (s.router r).down = false ∧ 0 < s.barTarget p d r ∧
      s.barTarget p d r ≤ Tbl.get 0 (s.router r).barArr (64 * p + b) + 1 ∧ r ≠ s.tileRouter d.root) fun s =>
    let s1 := s.modRouter r fun x => { x with barArr := Tbl.set 0 (64 * p + b) 0 x.barArr }
    s1.inject { destDev := s1.hub.devId, destKind := .tile, destIdx := d.root, srcDev := s1.hub.devId, srcKind := .combiner, srcIdx := 4 * r,
                kind := .barrier, cls := 0, srcPart := p, arg := BitVec.ofNat 32 b }) ∧
  (∀ t r p b d h ms, Does t (.barrierArrivalReceive t r p b)
    (fun s => s.barDef p b = some d ∧ (s.router r).down = false ∧ 0 < s.barTarget p d r ∧
      s.barTarget p d r ≤ Tbl.get 0 (s.router r).barArr (64 * p + b) + 1 ∧ r = s.tileRouter d.root ∧ d.scope = 1 ∧
      s.barGroup p d = some (h, ms)) fun s =>
    let s1 := s.modRouter r fun x => { x with barArr := Tbl.set 0 (64 * p + b) 0 x.barArr }
    if h = s1.hub.devId then (s1.injects ((ms.filter fun m => m != h).map fun m => s1.barLeg p d m true)).barRelease d
    else s1.inject (s1.barLeg p d h false)) ∧
  (∀ t r p b d, Does t (.barrierArrivalReceive t r p b)
    (fun s => s.barDef p b = some d ∧ s.barTarget p d r ≠ 0 ∧ (s.router r).down = true) fun s => s.rtrCount r 4) ∧
  (∀ t tile b d, Does t (.barrierReleaseReceive t tile b)
    (fun s => s.barrier (s.siteOfTile tile) b = some d ∧ (s.router (routerOf (s.siteOfTile tile))).down = true) fun s =>
    s.rtrCount (routerOf (s.siteOfTile tile)) 4) ∧
  (∀ t tile b d, Does t (.barrierReleaseReceive t tile b)
    (fun s => s.barrier (s.siteOfTile tile) b = some d ∧ (s.router (routerOf (s.siteOfTile tile))).down = false ∧ (s.site (s.siteOfTile tile)).st = .tile ∧
      ((s.site (s.siteOfTile tile)).bar b).a ≠ ((s.site (s.siteOfTile tile)).bar b).c) fun s =>
    let up (s : State) (v : Nat) : State := s.modSite v fun y => { y with bars := Tbl.set {} b { (y.bar b) with c := (y.bar b).c + 1 } y.bars }
    ((up s (s.siteOfTile tile)).shadows (s.siteOfTile tile)).foldl up (up s (s.siteOfTile tile))) ∧
  (∀ t k h c b w, Does t (.idesWaitExpire t k)
    (fun s => ((s.site k).seq.waits.find? fun w => w.2.2.2.expired (s.part (s.partField k)).ides s.now && !s.eventHolds k w.2.1 w.2.2.1) =
        some (h, c, b, w) ∧ s.siteWorks k seqUnit = true ∧ s.idesRuns (s.partField k) = true) fun s =>
    (s.modSeq k fun q => q.timeUp h).idesExpire (s.partField k) 0x0401 1 k true fun s =>
      s.reportSite 0x0401 k (0x100 + c) [(8, waitCode w.kind), (8, w.arg)]) ∧
  (∀ t p j ph f, Does t (.idesPhaseExpire t p)
    (fun s => s.job p = some j ∧ s.idesRuns p = true ∧
      (j.phaseFt.find? fun e => decide (e.2 + s.phaseUs p e.1 * ftUs ≤ s.now)) = some (ph, f)) fun s =>
    (s.modJob p fun j => { j with phaseFt := Tbl.drop ph j.phaseFt }).idesExpire p 0x0402 2 0 false fun s => s.report 0x0402 9 p p []) ∧
  (∀ t p j, Does t (.idesStepExpire t p)
    (fun s => s.job p = some j ∧ s.idesRuns p = true ∧ j.stepTimer = true ∧ j.phase < s.phaseCount p ∧
      j.releaseFt + (s.part p).ides.stepUs * ftUs ≤ s.now) fun s =>
    (s.modJob p fun j => { j with stepTimer := false }).idesExpire p 0x0403 3 0 false fun s => s.report 0x0403 9 p p [])

/-! ## The sequencer -/

/-- The instructions of the sequencer: each of RV32I and of the M extension writes `rd` and goes on behind the word or at its target, and a taken
branch goes to its target; a load reads and a store writes what its context may; `MRET` and `WFI` go on, `ECALL` and `EBREAK` trap with their
causes; a parcel or a word that is no instruction traps with cause 2, and a fetch outside instruction memory with cause 1 (R199 to R201, R205). -/
def Obligations.SeqInstructionActs : Prop :=
  (∀ t k, RvDoes t k (fun w => w % 128 = 0x13 ∧ bitsN w 12 3 ≠ 1 ∧ bitsN w 12 3 ≠ 5) fun s b w len _ =>
    s.seqRetire k (bitsN w 7 5) (aluI (bitsN w 12 3) false (b.reg (bitsN w 15 5)) (immI w)) (b.pc + BitVec.ofNat 32 len)) ∧
  (∀ t k, RvDoes t k (fun w => w % 128 = 0x13 ∧ (bitsN w 12 3 = 1 ∧ bitsN w 25 7 = 0 ∨ bitsN w 12 3 = 5 ∧ (bitsN w 25 7 = 0 ∨ bitsN w 25 7 = 32)))
    fun s b w len _ => s.seqRetire k (bitsN w 7 5)
      (aluI (bitsN w 12 3) (bitsN w 12 3 == 5 && bitsN w 25 7 == 32) (b.reg (bitsN w 15 5)) (immI w)) (b.pc + BitVec.ofNat 32 len)) ∧
  (∀ t k, RvDoes t k (fun w => w % 128 = 0x33 ∧ (bitsN w 25 7 = 0 ∨ bitsN w 25 7 = 32 ∧ (bitsN w 12 3 = 0 ∨ bitsN w 12 3 = 5)))
    fun s b w len _ => s.seqRetire k (bitsN w 7 5) (aluI (bitsN w 12 3) (bitsN w 25 7 == 32) (b.reg (bitsN w 15 5)) (b.reg (bitsN w 20 5)))
      (b.pc + BitVec.ofNat 32 len)) ∧
  (∀ t k, RvDoes t k (fun w => w % 128 = 0x33 ∧ bitsN w 25 7 = 1) fun s b w len _ =>
    s.seqRetire k (bitsN w 7 5) (aluM (bitsN w 12 3) (b.reg (bitsN w 15 5)) (b.reg (bitsN w 20 5))) (b.pc + BitVec.ofNat 32 len)) ∧
  (∀ t k, RvDoes t k (fun w => w % 128 = 0x37) fun s b w len _ => s.seqRetire k (bitsN w 7 5) (immU w) (b.pc + BitVec.ofNat 32 len)) ∧
  (∀ t k, RvDoes t k (fun w => w % 128 = 0x17) fun s b w len _ => s.seqRetire k (bitsN w 7 5) (b.pc + immU w) (b.pc + BitVec.ofNat 32 len)) ∧
  (∀ t k, RvDoes t k (fun w => w % 128 = 0x6F) fun s b w len _ => s.seqRetire k (bitsN w 7 5) (b.pc + BitVec.ofNat 32 len) (b.pc + immJ w)) ∧
  (∀ t k, RvDoes t k (fun w => w % 128 = 0x67 ∧ bitsN w 12 3 = 0) fun s b w len _ =>
    s.seqRetire k (bitsN w 7 5) (b.pc + BitVec.ofNat 32 len) ((b.reg (bitsN w 15 5) + immI w) &&& 0xFFFFFFFE)) ∧
  (∀ t k, RvDoes t k (fun w => w % 128 = 0x63 ∧ bitsN w 12 3 ≠ 2 ∧ bitsN w 12 3 ≠ 3) fun s b w len _ =>
    s.seqRetire k 0 0 (if (branchTaken (bitsN w 12 3) (b.reg (bitsN w 15 5)) (b.reg (bitsN w 20 5))).getD false then b.pc + immB w
      else b.pc + BitVec.ofNat 32 len)) ∧
  (∀ t k, RvDoes t k (fun w => w % 128 = 0x03) fun s _ w len ue => s.seqLoad k w len ue) ∧
  (∀ t k, RvDoes t k (fun w => w % 128 = 0x23) fun s _ w len ue => s.seqStoreOp k w len ue) ∧
  (∀ t k, RvDoes t k (fun w => w % 128 = 0x0F ∧ bitsN w 12 3 = 0) fun s b _ len _ => s.seqRetire k 0 0 (b.pc + BitVec.ofNat 32 len)) ∧
  (∀ t k, RvDoes t k (fun w => w = 0x73) fun s _ _ _ ue => s.seqTrap k 11 0 ue) ∧
  (∀ t k, RvDoes t k (fun w => w = 0x100073) fun s _ _ _ ue =>
    if bitAt s.sec.debug 1 = true then s.modSeq k fun q => { q with halted := true } else s.seqTrap k 3 (s.site k).seq.bank.pc ue) ∧
  (∀ t k, RvDoes t k (fun w => w = 0x30200073) fun s _ _ _ _ =>
    (s.seqRetire k 0 0 (s.site k).seq.mepc).modSeq k fun q => { q with mstatus := BitVec.ofNat 32 (8 * bitsN q.mstatus.toNat 7 1 + 128) }) ∧
  (∀ t k, RvDoes t k (fun w => w = 0x10500073) fun s b _ len _ => s.seqRetire k 0 0 (b.pc + BitVec.ofNat 32 len)) ∧
  (∀ t k, RvDoes t k (fun w => w % 128 = 0x73 ∧ bitsN w 12 3 ≠ 0 ∧ bitsN w 12 3 ≠ 4) fun s _ w len ue => s.seqCsr k w len ue) ∧
  (∀ t k u h, Does t (.seqInstruction t k u)
    (fun s => let s1 := s.fetchUpset k u
      s1.seqRuns k = true ∧ (s1.site k).seq.bank.wait = none ∧ (s1.site k).fetch = .bad h) fun s =>
    let s1 := s.fetchUpset k u
    (s1.fetched k).seqTrap k 2 (BitVec.ofNat 32 h) (s1.site k).fetchUe) ∧
  (∀ t k u, Does t (.seqInstruction t k u)
    (fun s => let s1 := s.fetchUpset k u
      s1.seqRuns k = true ∧ (s1.site k).seq.bank.wait = none ∧ (s1.site k).fetch = .fault) fun s =>
    let s1 := s.fetchUpset k u
    s1.seqTrap k 1 (s1.site k).seq.bank.pc false)

/-- Sends: `X.SEND` and `X.TRYSEND` return the status of a check that fails, 0 for a message that left, and 4, at once, for one that must wait
for credits, where `X.SEND` waits; a send whose spill deposit is out waits for its acknowledgement and then has left; a Vigil site sends nothing,
and its `X.TRYSEND` returns what its target's did (R211, R218, R225, R247, R298, R299). -/
def Obligations.SendRowsAct : Prop :=
  (∀ t k code, XDoes t k .send (.xSend t k)
    (fun s c => s.sendChecks k (bitsN c.x.a.toNat 0 5) c.x = some code) fun s c =>
    s.xRetire k c (BitVec.ofNat 32 code) (s.modSeq k fun q => { q with lastSend := code })) ∧
  (∀ t k bs s1 s2, XDoes t k .send (.xSend t k)
    (fun s c => ((s.site k).chan (bitsN c.x.a.toNat 0 5)).txSpill = false ∧ s.sendChecks k (bitsN c.x.a.toNat 0 5) c.x = none ∧
      s.payload k c.x = (bs, s1) ∧ (s1.site k).st ≠ .vigil ∧ s1.sendTry k (bitsN c.x.a.toNat 0 5) bs = .inl s2) fun s c =>
    s.xRetire k c 0 (s2.modSeq k fun q => { q with lastSend := 0 })) ∧
  (∀ t k bs s1, XDoes t k .send (.xSend t k)
    (fun s c => ((s.site k).chan (bitsN c.x.a.toNat 0 5)).txSpill = false ∧ s.sendChecks k (bitsN c.x.a.toNat 0 5) c.x = none ∧
      s.payload k c.x = (bs, s1) ∧ (s1.site k).st ≠ .vigil ∧ s1.sendTry k (bitsN c.x.a.toNat 0 5) bs = .inr true ∧
      (s.site k).seq.bank.wait = none) fun s c =>
    s.xWait k c .send (bitsN c.x.a.toNat 0 5)) ∧
  (∀ t k bs s1, XDoes t k .send (.xSend t k)
    (fun s c => ((s.site k).chan (bitsN c.x.a.toNat 0 5)).txSpill = true ∧ s.sendChecks k (bitsN c.x.a.toNat 0 5) c.x = none ∧
      s.payload k c.x = (bs, s1) ∧ ((s.site k).chan (bitsN c.x.a.toNat 0 5)).txUnacked = 0) fun s c =>
    let slot := bitsN c.x.a.toNat 0 5
    let s2 := (s1.sendLeft k slot (s1.sendMsg k slot bs)).modSite k fun y => y.modChan slot fun c =>
      { c with txSpill := false, txSpills := satAdd 255 c.txSpills 1 }
    s.xRetire k c 0 ((s2.report 0x0107 2 (s2.partField k) (s2.tileAt k + 8192 * slot) []).modSeq k fun q => { q with lastSend := 0 })) ∧
  (∀ t k bs s1, XDoes t k .send (.xSend t k)
    (fun s c => ((s.site k).chan (bitsN c.x.a.toNat 0 5)).txSpill = false ∧ s.sendChecks k (bitsN c.x.a.toNat 0 5) c.x = none ∧
      s.payload k c.x = (bs, s1) ∧ (s1.site k).st = .vigil ∧
      ¬ ((s1.site k).cfg (chanUnit (bitsN c.x.a.toNat 0 5)) 129 1 = 0 ∧ (s1.site k).cfg (chanUnit (bitsN c.x.a.toNat 0 5)) 176 11 = 0)) fun s c =>
    let slot := bitsN c.x.a.toNat 0 5
    s.xRetire k c 0 ((s1.sendLeft k slot (s1.sendMsg k slot bs)).modSeq k fun q => { q with lastSend := 0 })) ∧
  (∀ t k code, XDoes t k .trysend (.xTrysend t k)
    (fun s c => s.sendChecks k (bitsN c.x.a.toNat 0 5) c.x = some code) fun s c =>
    s.xRetire k c (BitVec.ofNat 32 code) (((s.shadows k).foldl (fun s v => s.modSite v fun y => { y with fwdTry := y.fwdTry ++ [code] }) s).modSeq k
      fun q => { q with lastSend := code })) ∧
  (∀ t k bs s1 s2, XDoes t k .trysend (.xTrysend t k)
    (fun s c => s.sendChecks k (bitsN c.x.a.toNat 0 5) c.x = none ∧ s.payload k c.x = (bs, s1) ∧ (s1.site k).st ≠ .vigil ∧
      s1.sendTry k (bitsN c.x.a.toNat 0 5) bs = .inl s2) fun s c =>
    s.xRetire k c 0 (((s2.shadows k).foldl (fun s v => s.modSite v fun y => { y with fwdTry := y.fwdTry ++ [0] }) s2).modSeq k fun q =>
      { q with lastSend := 0 })) ∧
  (∀ t k bs s1, XDoes t k .trysend (.xTrysend t k)
    (fun s c => s.sendChecks k (bitsN c.x.a.toNat 0 5) c.x = none ∧ s.payload k c.x = (bs, s1) ∧ (s1.site k).st ≠ .vigil ∧
      s1.sendTry k (bitsN c.x.a.toNat 0 5) bs = .inr true) fun s c =>
    s.xRetire k c 4 (((s1.shadows k).foldl (fun s v => s.modSite v fun y => { y with fwdTry := y.fwdTry ++ [4] }) s1).modSeq k fun q =>
      { q with lastSend := 4 })) ∧
  (∀ t k bs s1 code rest, XDoes t k .trysend (.xTrysend t k)
    (fun s c => s.sendChecks k (bitsN c.x.a.toNat 0 5) c.x = none ∧ s.payload k c.x = (bs, s1) ∧ (s1.site k).st = .vigil ∧
      fwdStatus (s1.site k).fwdTry = code :: rest ∧ code ≠ 0) fun s c =>
    s.xRetire k c (BitVec.ofNat 32 code) ((s1.modSite k fun y => { y with fwdTry := rest }).modSeq k fun q => { q with lastSend := code }))

/-- Receiving: `X.DONE` ends a handler and completes its message; `X.RECV` takes a polled channel's next message or waits; `X.RELEASE`
completes it; in the wrong context each is an illegal instruction (R201, R206, R209, R219). -/
def Obligations.ReceiveRowsAct : Prop :=
  (∀ t k i, XDoes t k .done (.xDone t k) (fun _ c => c.x.ctx = i + 1) fun s _ =>
    (((s.completeMsg k i).modSeq k fun q => { q with hand := {}, ctx := 0 })).modSeq k fun q => { q with minstret := q.minstret + 1, fast := false }) ∧
  (∀ t k, XDoes t k .done (.xDone t k) (fun _ c => c.x.ctx = 0) fun s c => s.xIllegal k c) ∧
  (∀ t k r s1, XDoes t k .recv (.xRecv t k)
    (fun s c => c.x.ctx = 0 ∧ (s.site k).cfg (chanUnit (bitsN c.x.a.toNat 0 5)) 2 1 = 0 ∧ s.takeMsg k (bitsN c.x.a.toNat 0 5) = some (r, s1)) fun s c =>
    s.xRetire k c (BitVec.ofNat 32 (0x100000 + r.addr)) (s1.modSeq k fun q => { q with rlen := BitVec.ofNat 32 r.msg.payload.length })) ∧
  (∀ t k, XDoes t k .recv (.xRecv t k)
    (fun s c => c.x.ctx = 0 ∧ (s.site k).seq.bank.wait = none ∧
      ((s.site k).cfg (chanUnit (bitsN c.x.a.toNat 0 5)) 2 1 = 1 ∨ s.takeMsg k (bitsN c.x.a.toNat 0 5) = none)) fun s c =>
    s.xWait k c .recv (bitsN c.x.a.toNat 0 5)) ∧
  (∀ t k, XDoes t k .recv (.xRecv t k) (fun _ c => c.x.ctx ≠ 0) fun s c => s.xIllegal k c) ∧
  (∀ t k, XDoes t k .release (.xRelease t k) (fun _ c => c.x.ctx = 0) fun s c => s.xRetire k c 0 (s.completeMsg k (bitsN c.x.a.toNat 0 5))) ∧
  (∀ t k, XDoes t k .release (.xRelease t k) (fun _ c => c.x.ctx ≠ 0) fun s c => s.xIllegal k c)

/-- Fabric ports: a `PUT` on a port bound to the sequencer with credit puts one element of the register, of its low 4 bits, or of the 64 bytes
at the register; a `GET` takes a data element to the register or to memory, waits where there is none, and leaves an Eve token where it stands;
a misaligned vector address traps with 4 or 6, one that the context may not use with 5 or 7; `X.EPHASE` puts the next epoch's Eve tokens and waits
for the switch (R128, R200, R201, R207, R209, R210). -/
def Obligations.PortRowsAct : Prop :=
  (∀ t k, XDoes t k .putw (.xPutw t k)
    (fun s c => (s.site k).inCode ((s.site k).unit seqUnit).epoch 1 (bitsN c.x.a.toNat 0 2) = 8 ∧
      (s.site k).room seqUnit (.inj 1 (bitsN c.x.a.toNat 0 2)) 1 = true) fun s c =>
    s.xRetire k c 0 (s.modSite k fun x => x.emit (.inj 1 (bitsN c.x.a.toNat 0 2)) { data := c.x.b.setWidth 512 })) ∧
  (∀ t k, XDoes t k .putt (.xPutt t k)
    (fun s c => bitsN c.x.b.toNat 0 4 ≠ 0xF ∧ (s.site k).inCode ((s.site k).unit seqUnit).epoch 2 (bitsN c.x.a.toNat 0 2) = 8 ∧
      (s.site k).room seqUnit (.inj 2 (bitsN c.x.a.toNat 0 2)) 1 = true) fun s c =>
    s.xRetire k c 0 (s.modSite k fun x => x.emit (.inj 2 (bitsN c.x.a.toNat 0 2)) { data := BitVec.ofNat 512 (bitsN c.x.b.toNat 0 4) })) ∧
  (∀ t k, XDoes t k .putt (.xPutt t k) (fun _ c => bitsN c.x.b.toNat 0 4 = 0xF) fun s c => s.xIllegal k c) ∧
  (∀ t k, XDoes t k .putv (.xPutv t k)
    (fun s c =>
      let y := (s.seqRead k c.x.b.toNat 64).site k
      c.x.b.toNat % 64 = 0 ∧ (s.site k).mayLoad c.x.b.toNat 64 = true ∧ y.inCode (y.unit seqUnit).epoch 0 (bitsN c.x.a.toNat 0 2) = 8 ∧
        y.room seqUnit (.inj 0 (bitsN c.x.a.toNat 0 2)) 1 = true) fun s c =>
    s.xRetire k c 0 ((s.seqRead k c.x.b.toNat 64).modSite k fun x => x.emit (.inj 0 (bitsN c.x.a.toNat 0 2))
      { data := BitVec.ofNat 512 (ofLe ((s.site k).seqBytes c.x.b.toNat 64)) })) ∧
  (∀ t k, XDoes t k .putv (.xPutv t k) (fun _ c => c.x.b.toNat % 64 ≠ 0) fun s c => s.seqTrap k 4 c.x.b c.ue) ∧
  (∀ t k, XDoes t k .putv (.xPutv t k) (fun s c => c.x.b.toNat % 64 = 0 ∧ (s.site k).mayLoad c.x.b.toNat 64 = false) fun s c =>
    s.seqTrap k 5 c.x.b c.ue) ∧
  (∀ t k e s1, XDoes t k .getw (.xGetw t k)
    (fun s c => (s.site k).ejCode ((s.site k).unit seqUnit).epoch 1 (bitsN c.x.a.toNat 0 3) = 7 ∧
      (s.site k).ownsIn seqUnit (.ej 1 (bitsN c.x.a.toNat 0 3)) = true ∧ s.takeEj k 1 (bitsN c.x.a.toNat 0 3) = some (e, s1) ∧ e.eve = false)
    fun s c => s.xRetire k c (e.data.setWidth 32) s1) ∧
  (∀ t k, XDoes t k .getw (.xGetw t k)
    (fun s c => s.takeEj k 1 (bitsN c.x.a.toNat 0 3) = none ∧ (s.site k).seq.bank.wait = none) fun s c =>
    s.xWait k c .getw (bitsN c.x.a.toNat 0 3)) ∧
  (∀ t k e s1, XDoes t k .getw (.xGetw t k)
    (fun s c => (s.site k).ejCode ((s.site k).unit seqUnit).epoch 1 (bitsN c.x.a.toNat 0 3) = 7 ∧
      (s.site k).ownsIn seqUnit (.ej 1 (bitsN c.x.a.toNat 0 3)) = true ∧ s.takeEj k 1 (bitsN c.x.a.toNat 0 3) = some (e, s1) ∧ e.eve = true)
    fun s c => s.xRetire k c 0 (s.modSeq k fun q => { q with eveHead := true })) ∧
  (∀ t k e s1, XDoes t k .gett (.xGett t k)
    (fun s c => (s.site k).ejCode ((s.site k).unit seqUnit).epoch 2 (bitsN c.x.a.toNat 0 3) = 7 ∧
      (s.site k).ownsIn seqUnit (.ej 2 (bitsN c.x.a.toNat 0 3)) = true ∧ s.takeEj k 2 (bitsN c.x.a.toNat 0 3) = some (e, s1) ∧ e.eve = false)
    fun s c => s.xRetire k c (BitVec.ofNat 32 (bitsN e.data.toNat 0 4)) s1) ∧
  (∀ t k e s1, XDoes t k .getv (.xGetv t k)
    (fun s c => c.x.b.toNat % 64 = 0 ∧ (s.site k).mayStore c.x.b.toNat 64 = true ∧
      (s.site k).ejCode ((s.site k).unit seqUnit).epoch 0 (bitsN c.x.a.toNat 0 3) = 7 ∧
      (s.site k).ownsIn seqUnit (.ej 0 (bitsN c.x.a.toNat 0 3)) = true ∧ s.takeEj k 0 (bitsN c.x.a.toNat 0 3) = some (e, s1) ∧ e.eve = false)
    fun s c => s.xRetire k c 0 (s1.seqStore k c.x.b.toNat (leBytes 64 e.data.toNat))) ∧
  (∀ t k, XDoes t k .getv (.xGetv t k) (fun _ c => c.x.b.toNat % 64 ≠ 0) fun s c => s.seqTrap k 6 c.x.b c.ue) ∧
  (∀ t k, XDoes t k .getv (.xGetv t k) (fun s c => c.x.b.toNat % 64 = 0 ∧ (s.site k).mayStore c.x.b.toNat 64 = false) fun s c =>
    s.seqTrap k 7 c.x.b c.ue) ∧
  (∀ t k, XDoes t k .ephase (.xEphase t k)
    (fun s c => c.x.ctx = 0 ∧ (s.site k).seq.ephase = false ∧
      (∀ o ∈ (s.site k).outputs seqUnit, (s.site k).room seqUnit o (eveCost o) = true)) fun s _ =>
    ((s.modSite k fun y =>
      let z := y.emitAll (y.outputs seqUnit) (eveTok ((y.unit seqUnit).epoch + 1))
      { z with seq := { z.seq with ephase := true } }).beginWait k .ephase 0 0 0).modSeq k fun q => { q with minstret := q.minstret + 1, fast := false }) ∧
  (∀ t k, XDoes t k .ephase (.xEphase t k) (fun _ c => c.x.ctx ≠ 0) fun s c => s.xIllegal k c)

/-- Signals, barriers, fences and semaphores: what each instruction writes to its register and to the tile, when it waits, and when it is
illegal; a shadow's arrival goes up no tree (R201, R231, R232, R238, R241, R243, R246, R248). -/
def Obligations.SignalRowsAct : Prop :=
  (∀ t k, XDoes t k .sigraise (.xSigraise t k) (fun _ _ => True) fun s c =>
    s.xRetire k c 0 (s.raise k (bitsN c.x.a.toNat 0 6) c.x.b.toNat (0x100 + c.x.ctx))) ∧
  (∀ t k, XDoes t k .sigwait (.xSigwait t k) (fun s c => c.x.b ≤ (s.site k).signal (bitsN c.x.a.toNat 0 6)) fun s c => s.xRetire k c 0 s) ∧
  (∀ t k, XDoes t k .sigwait (.xSigwait t k)
    (fun s c => (s.site k).signal (bitsN c.x.a.toNat 0 6) < c.x.b ∧ (s.site k).seq.bank.wait = none) fun s c =>
    s.xWait k c .sigwait (bitsN c.x.a.toNat 0 6)) ∧
  (∀ t k, XDoes t k .sigwaitl (.xSigwaitl t k) (fun s c => c.x.b ≤ (s.site k).signal (bitsN c.x.a.toNat 0 6)) fun s c => s.xRetire k c 0 s) ∧
  (∀ t k, XDoes t k .sigwaitl (.xSigwaitl t k)
    (fun s c => (s.site k).signal (bitsN c.x.a.toNat 0 6) < c.x.b ∧ (s.site k).seq.bank.wait = none) fun s c =>
    s.xWait k c .sigwaitl (bitsN c.x.a.toNat 0 6)) ∧
  (∀ t k, XDoes t k .sigsub (.xSigsub t k) (fun s c => c.x.b ≤ (s.site k).signal (bitsN c.x.a.toNat 0 6)) fun s c =>
    s.xRetire k c 0 (s.modSite k fun y =>
      { y with signals := Tbl.set 0 (bitsN c.x.a.toNat 0 6) ((s.site k).signal (bitsN c.x.a.toNat 0 6) - c.x.b) y.signals })) ∧
  (∀ t k, XDoes t k .sigsub (.xSigsub t k) (fun s c => (s.site k).signal (bitsN c.x.a.toNat 0 6) < c.x.b) fun s c =>
    s.xRetire k c 0 (s.signalRange k (bitsN c.x.a.toNat 0 6) (0x100 + c.x.ctx))) ∧
  (∀ t k, XDoes t k .sigread (.xSigread t k) (fun _ _ => True) fun s c => s.xRetire k c ((s.site k).signal (bitsN c.x.a.toNat 0 6)) s) ∧
  (∀ t k d, XDoes t k .barrive (.xBarrive t k)
    (fun s c => s.barrier k (bitsN c.x.a.toNat 0 6) = some d ∧
      ((s.site k).bar (bitsN c.x.a.toNat 0 6)).a = ((s.site k).bar (bitsN c.x.a.toNat 0 6)).c) fun s c =>
    let n := bitsN c.x.a.toNat 0 6
    let b := (s.site k).bar n
    let s1 := s.modSite k fun y =>
      { (y.sign 0x0500 (leBytes 2 d.root ++ leBytes 1 n ++ leBytes 4 1)) with bars := Tbl.set {} n { b with a := b.a + 1 } y.bars }
    s.xRetire k c 0 (if (s.site k).st = .vigil then s1 else s1.inject
      { destDev := s1.hub.devId, destKind := .tile, destIdx := d.root, srcDev := s1.hub.devId, srcKind := .tile, srcIdx := s1.tileAt k,
        kind := .barrier, cls := 0, srcPart := s1.partField k % 16, arg := BitVec.ofNat 32 n })) ∧
  (∀ t k, XDoes t k .barrive (.xBarrive t k) (fun s c => s.barrier k (bitsN c.x.a.toNat 0 6) = none) fun s c => s.xIllegal k c) ∧
  (∀ t k d, XDoes t k .barrive (.xBarrive t k)
    (fun s c => s.barrier k (bitsN c.x.a.toNat 0 6) = some d ∧ (s.site k).seq.bank.wait = none ∧
      ((s.site k).bar (bitsN c.x.a.toNat 0 6)).a ≠ ((s.site k).bar (bitsN c.x.a.toNat 0 6)).c) fun s c =>
    s.xWait k c .barrive (bitsN c.x.a.toNat 0 6)) ∧
  (∀ t k d, XDoes t k .barwait (.xBarwait t k)
    (fun s c => s.barrier k (bitsN c.x.a.toNat 0 6) = some d ∧
      ((s.site k).bar (bitsN c.x.a.toNat 0 6)).c = ((s.site k).bar (bitsN c.x.a.toNat 0 6)).a) fun s c => s.xRetire k c 0 s) ∧
  (∀ t k d, XDoes t k .barwait (.xBarwait t k)
    (fun s c => s.barrier k (bitsN c.x.a.toNat 0 6) = some d ∧ (s.site k).seq.bank.wait = none ∧
      ((s.site k).bar (bitsN c.x.a.toNat 0 6)).c ≠ ((s.site k).bar (bitsN c.x.a.toNat 0 6)).a) fun s c =>
    s.xWait k c .barwait (bitsN c.x.a.toNat 0 6)) ∧
  (∀ t k, XDoes t k .barwait (.xBarwait t k) (fun s c => s.barrier k (bitsN c.x.a.toNat 0 6) = none) fun s c => s.xIllegal k c) ∧
  (∀ t k, XDoes t k .fence (.xFence t k)
    (fun s _ => (s.site k).seq.unacked = 0 ∧ ∀ q i, OutRef.inj q i ∈ (s.site k).outputs seqUnit → ((s.site k).inPort q i).outq = []) fun s c =>
    s.xRetire k c 0 s) ∧
  (∀ t k, XDoes t k .fence (.xFence t k)
    (fun s _ => (s.site k).seq.bank.wait = none ∧ ((s.site k).seq.unacked ≠ 0 ∨
      ∃ q i, OutRef.inj q i ∈ (s.site k).outputs seqUnit ∧ ((s.site k).inPort q i).outq ≠ [])) fun s c => s.xWait k c .fence 0) ∧
  (∀ t k, XDoes t k .semset (.xSemset t k) (fun s _ => (s.site k).seq.compat = true) fun s c =>
    s.xRetire k c 0 (s.modSite k fun y => y.setSem (bitsN c.x.a.toNat 0 4) true)) ∧
  (∀ t k, XDoes t k .semclr (.xSemclr t k) (fun s _ => (s.site k).seq.compat = true) fun s c =>
    s.xRetire k c 0 (s.modSite k fun y => y.setSem (bitsN c.x.a.toNat 0 4) false)) ∧
  (∀ t k, XDoes t k .semwait (.xSemwait t k)
    (fun s c => (s.site k).seq.compat = true ∧ bitAt (s.site k).sem (bitsN c.x.a.toNat 0 4) = true) fun s c =>
    s.xRetire k c 0 (s.modSite k fun y => y.setSem (bitsN c.x.a.toNat 0 4) false)) ∧
  (∀ t k, XDoes t k .semwait (.xSemwait t k)
    (fun s c => (s.site k).seq.compat = true ∧ (s.site k).seq.bank.wait = none ∧ bitAt (s.site k).sem (bitsN c.x.a.toNat 0 4) = false) fun s c =>
    s.xWait k c .semwait (bitsN c.x.a.toNat 0 4)) ∧
  (∀ t k, XDoes t k .semset (.xSemset t k) (fun s _ => (s.site k).seq.compat = false) fun s c => s.xIllegal k c) ∧
  (∀ t k, XDoes t k .semclr (.xSemclr t k) (fun s _ => (s.site k).seq.compat = false) fun s c => s.xIllegal k c) ∧
  (∀ t k, XDoes t k .semwait (.xSemwait t k) (fun s _ => (s.site k).seq.compat = false) fun s c => s.xIllegal k c)

/-- The events of waiting: a wait ends when its instruction can retire, which then does, and its lender region wakes; a waiting site enters the
fast exit; a wait that is strictly longer than the partition's threshold is long (R203, R247, R248). -/
def Obligations.WaitRowsAct : Prop :=
  (∀ t k w len op, Does t (.seqWaitWake t k)
    (fun s => s.seqRuns k = true ∧ (s.site k).seq.bank.wait.isSome = true ∧ (s.site k).fetch = .word w len ∧ xDecode w = some op ∧
      (xTry op s k ((s.site k).xArgs w)).goesOn = true) fun s =>
    (s.xApply k w false (xTry op s k ((s.site k).xArgs w))).lentExit (keyRegion k)) ∧
  (∀ t k w len, Does t (.seqWaitWake t k)
    (fun s => s.seqRuns k = true ∧ (s.site k).seq.bank.wait.isSome = true ∧ (s.site k).fetch = .word w len ∧ xDecode w = some .sigwait ∧
      ((s.site k).xArgs w).b ≤ (s.site k).signal (bitsN ((s.site k).xArgs w).a.toNat 0 6)) fun s =>
    (s.seqRetire k (bitsN w 7 5) 0 ((s.site k).seq.bank.pc + 4)).lentExit (keyRegion k)) ∧
  (∀ t k, Does t (.fastEnter t k) (fun s => s.siteWorks k seqUnit = true ∧ (s.site k).seq.bank.wait.isSome = true) fun s =>
    (s.modSeq k fun q => { q with fast := true }).lentTry (keyRegion k)) ∧
  (∀ t k, Does t (.longWaitThreshold t k) (fun _ => True) fun s =>
    let due := fun (since : Nat) => decide (since + (s.part (s.partField k)).longWaitUs * ftUs < s.now)
    (s.modSeq k fun q => { q with main := q.main.goLong due, hand := q.hand.goLong due }).lentTry (keyRegion k))

/-! ## Memory, the network, the host -/

/-- The rows of the device memory: training of a channel ends in service, with no module, or refused; a loss of lock takes a channel offline;
the page map is rebuilt; the scrubber reads a line; a migration copies 4 KiB, ends at 64 of them, or stops at an uncorrectable codeword; and an
access of a page is answered: refused when a check fails, else read or written (R376, R378, R381, R386, R387, R394, R395, R398). What a refused
read of the CXL.mem window returns as data is a free value. A tile's write to a page of a closed tally is dropped and answered as performed, which
is the model's choice (log 89). -/
def Obligations.DramRowsAct : Prop :=
  (∀ t ch pr dis spd n test, Does t (.ddrTrainingComplete t ch pr dis spd n test)
    (fun s => (s.chan ch).st = .training ∧ pr = true ∧ dis = false ∧ ddrSupported spd.rate spd.capacity = true ∧ n < 2 ∧
      test.corrected ≤ 64 ∧ test.uncorrectable = 0) fun s =>
    ((s.modChan ch fun x => { x with st := .up, capacity := spd.capacity, cause := 0, spd := spd.rate }).rateAll.ledgerMerge ch spd.serial).keepCheck ch) ∧
  (∀ t ch pr dis spd n test, Does t (.ddrTrainingComplete t ch pr dis spd n test)
    (fun s => (s.chan ch).st = .training ∧ pr = true ∧ ddrCause dis spd n test ≠ 0) fun s =>
    (s.ddrOmit ch (ddrCause dis spd n test) spd.rate spd.capacity).rateAll) ∧
  (∀ dis spd n test, ddrCause dis spd n test = if dis = true then 4 else if ddrSupported spd.rate spd.capacity = false then 1 else if 2 ≤ n then 2
    else if 64 < test.corrected ∨ 0 < test.uncorrectable then 3 else 0) ∧
  (∀ t ch pr dis spd n test, Does t (.ddrTrainingComplete t ch pr dis spd n test) (fun s => (s.chan ch).st = .training ∧ pr = false) fun s =>
    (s.keptOn ch).foldl (fun s l => s.keptLose l 2)
      (s.modChan ch fun x => { x with st := .empty, rate := 0, capacity := 0, cause := 0, spd := 0 })) ∧
  (∀ s : State, ∀ c ∈ List.range 16, (s.chan c).spd ≠ 0 → s.ddrRate ≤ (s.chan c).spd ∧ s.ddrRate ≤ min 3 s.hub.config.ddrRateMax) ∧
  (∀ t ch, Does t (.ddrPhyLockLoss t ch) (fun _ => True) fun s => s.chanOffline ch 5) ∧
  (∀ t l, Does t (.pagemapRebuild t l) (fun s => l ∈ s.mem.mapBad ∧ s.journalReads l = true) fun s =>
    { s with mem := { s.mem with mapBad := s.mem.mapBad.filter (· != l), map := Tbl.set {} l (Tbl.get {} s.mem.journal l) s.mem.map } }) ∧
  (∀ t a e, Does t (.scrubRead t a e)
    (fun s => (s.chan (ppnChan (a / pageBytes))).st = .up ∧ a / pageBytes % 1048576 < (s.chan (ppnChan (a / pageBytes))).capacity * 4096) fun s =>
    let hit := s.mem.map.find? fun e => e.2.kind != .unmapped && e.2.ppn == a / pageBytes
    let l := (hit.map (·.1)).getD 0xFFFFFF
    let s1 := s.scrubWord a e l
    let s2 := if a % pageBytes / 64 = 4095 ∧ hit.isSome then s1.scrubPage l (a / pageBytes) else s1
    if a / 64 % (4096 * 1048576) = (s2.chan (ppnChan (a / pageBytes))).capacity * 4096 * 4096 - 1 then s2.mcCount (ppnChan (a / pageBytes)) 2
    else s2) ∧
  (∀ t die m, Does t (.pageMigrationCopy t die none)
    (fun s => Tbl.get none s.mem.mig die = some m ∧ (s.chan (ppnChan m.oldPpn)).st = .up ∧ (s.chan (ppnChan m.newPpn)).st = .up ∧
      (s.mem.bad.find? fun c => decide (pageBytes * m.oldPpn + 4096 * m.done ≤ 64 * c ∧ 64 * c < pageBytes * m.oldPpn + 4096 * m.done + 4096)) = none)
    fun s =>
    let s1 := s.dramCopy (pageBytes * m.newPpn + 4096 * m.done) (pageBytes * m.oldPpn + 4096 * m.done) 4096
    if m.done + 1 = 64 then s1.migEnd die { m with done := m.done + 1 }
    else { s1 with mem := { s1.mem with mig := Tbl.set none die (some { m with done := m.done + 1 }) s1.mem.mig } }) ∧
  (∀ t die m u c, Does t (.pageMigrationCopy t die (some (u, 2)))
    (fun s => Tbl.get none s.mem.mig die = some m ∧ (s.chan (ppnChan m.oldPpn)).st = .up ∧ (s.chan (ppnChan m.newPpn)).st = .up ∧
      ((s.markBad (pageBytes * m.oldPpn + 4096 * m.done + 64 * (u % 64))).mem.bad.find? fun c =>
        decide (pageBytes * m.oldPpn + 4096 * m.done ≤ 64 * c ∧ 64 * c < pageBytes * m.oldPpn + 4096 * m.done + 4096)) = some c)
    fun s =>
    let s1 := s.markBad (pageBytes * m.oldPpn + 4096 * m.done + 64 * (u % 64))
    (s1.ddrUe (64 * c) 2 m.page (s1.pageEnt m.page).owner).migStop die m) ∧
  (∀ t die m u, Does t (.pageMigrationCopy t die (some (u, 1)))
    (fun s => Tbl.get none s.mem.mig die = some m ∧ (s.chan (ppnChan m.oldPpn)).st = .up ∧ (s.chan (ppnChan m.newPpn)).st = .up ∧
      ((pageBytes * m.oldPpn + 4096 * m.done + 64 * (u % 64)) / 64) ∉ s.mem.bad ∧
      ((s.ddrCe (pageBytes * m.oldPpn + 4096 * m.done + 64 * (u % 64)) 2).mem.bad.find? fun c =>
        decide (pageBytes * m.oldPpn + 4096 * m.done ≤ 64 * c ∧ 64 * c < pageBytes * m.oldPpn + 4096 * m.done + 4096)) = none ∧ m.done < 63)
    fun s =>
    let s1 := (s.ddrCe (pageBytes * m.oldPpn + 4096 * m.done + 64 * (u % 64)) 2).dramCopy (pageBytes * m.newPpn + 4096 * m.done)
      (pageBytes * m.oldPpn + 4096 * m.done) 4096
    { s1 with mem := { s1.mem with mig := Tbl.set none die (some { m with done := m.done + 1 }) s1.mem.mig } }) ∧
  (∀ t die m e, Does t (.pageMigrationCopy t die e)
    (fun s => Tbl.get none s.mem.mig die = some m ∧ ((s.chan (ppnChan m.oldPpn)).st ≠ .up ∨ (s.chan (ppnChan m.newPpn)).st ≠ .up)) fun s =>
    (s.downRefuse m.page false).migStop die m) ∧
  (∀ t pkt ecc mapEcc word port, Does t (.pageAccess t pkt ecc mapEcc word port)
    (fun s => (pkt.kind = .readReq ∨ pkt.kind = .write) ∧ (s.mapEcc (bitsN pkt.addr 18 24) mapEcc).pageCheck pkt port ≠ 0) fun s =>
    let s1 := s.mapEcc (bitsN pkt.addr 18 24) mapEcc
    (s1.pageRefuse (s1.pageAcc pkt) (s1.pageCheck pkt port)).reply pkt .pageRefused) ∧
  (∀ t pkt ecc mapEcc word port, Does t (.pageAccess t pkt ecc mapEcc word port)
    (fun s => pkt.kind = .readReq ∧ (s.mapEcc (bitsN pkt.addr 18 24) mapEcc).pageCheck pkt port = 0) fun s =>
    let s1 := s.mapEcc (bitsN pkt.addr 18 24) mapEcc
    let x := s1.pageAcc pkt
    let r := (s1.pageNote pkt).pageRead (bitsN pkt.addr 18 24) (x.addr % pageBytes) x.len ecc 0 x.part (x.src == 0) word
    r.1.replyData pkt r.2.1 r.2.2) ∧
  (∀ t pkt ecc mapEcc word port, Does t (.pageAccess t pkt ecc mapEcc word port)
    (fun s => let s1 := s.mapEcc (bitsN pkt.addr 18 24) mapEcc
      pkt.kind = .write ∧ s1.pageCheck pkt port = 0 ∧
        ((s1.pageAcc pkt).src ≠ 0 ∨ (s1.pageNote pkt).closedTally (bitsN pkt.addr 18 24) = false)) fun s =>
    let s1 := s.mapEcc (bitsN pkt.addr 18 24) mapEcc
    let x := s1.pageAcc pkt
    let r := (s1.pageNote pkt).pageWrite (bitsN pkt.addr 18 24) (x.addr % pageBytes) (reqData (s1.pageUnit pkt) pkt) ecc 3 x.part
      (x.src == 0) word
    (if r.2 = true ∧ pkt.srcDev = r.1.hub.devId then r.1.consumedUe x.part else r.1).reply pkt .ok r.2) ∧
  (∀ t pkt ecc mapEcc word port, Does t (.pageAccess t pkt ecc mapEcc word port)
    (fun s => let s1 := s.mapEcc (bitsN pkt.addr 18 24) mapEcc
      pkt.kind = .write ∧ s1.pageCheck pkt port = 0 ∧ (s1.pageAcc pkt).src = 0 ∧
        (s1.pageNote pkt).closedTally (bitsN pkt.addr 18 24) = true) fun s =>
    ((s.mapEcc (bitsN pkt.addr 18 24) mapEcc).pageNote pkt).reply pkt .ok) ∧
  (∀ t hpa a len ecc, Does t (.cxlMemRead t hpa len ecc)
    (fun s => s.hdmAddr hpa = some a ∧
      (s.mapEcc (bitsN a 18 24) ecc.map).accCause { addr := a, len, src := 2, dev := s.hub.devId, part := 0xFF } 0 none (fun _ => false) = 0) fun s =>
    let r := (s.mapEcc (bitsN a 18 24) ecc.map).pageRead (bitsN a 18 24) (a % pageBytes) len ecc.data 4 0xFF false
    r.1.emit (.hostRead hpa r.2.1 r.2.2)) ∧
  (∀ t hpa a len ecc c, Does t (.cxlMemRead t hpa len ecc)
    (fun s => s.hdmAddr hpa = some a ∧ c ≠ 0 ∧
      (s.mapEcc (bitsN a 18 24) ecc.map).accCause { addr := a, len, src := 2, dev := s.hub.devId, part := 0xFF } 0 none (fun _ => false) = c) fun s =>
    let r := ((s.mapEcc (bitsN a 18 24) ecc.map).pageRefuse { addr := a, len, src := 2, dev := s.hub.devId, part := 0xFF } c).draw (8 * len)
    r.2.emit (.hostRead hpa (leBytes len r.1.toNat) true)) ∧
  (∀ t hpa a d, Does t (.cxlMemWrite t hpa d)
    (fun s => s.hdmAddr hpa = some a ∧ (s.mapEcc (bitsN a 18 24) d.ecc.map).accCause
      { addr := a, len := d.bytes.length, write := true, src := 2, dev := s.hub.devId, part := 0xFF } 0 none (fun _ => false) = 0) fun s =>
    ((s.mapEcc (bitsN a 18 24) d.ecc.map).pageWrite (bitsN a 18 24) (a % pageBytes) d.bytes d.ecc.data 3 0xFF false).1) ∧
  (∀ t hpa a d c, Does t (.cxlMemWrite t hpa d)
    (fun s => s.hdmAddr hpa = some a ∧ c ≠ 0 ∧ (s.mapEcc (bitsN a 18 24) d.ecc.map).accCause
      { addr := a, len := d.bytes.length, write := true, src := 2, dev := s.hub.devId, part := 0xFF } 0 none (fun _ => false) = c) fun s =>
    ((s.mapEcc (bitsN a 18 24) d.ecc.map).pageRefuse
      { addr := a, len := d.bytes.length, write := true, src := 2, dev := s.hub.devId, part := 0xFF } c).event 0x0705 0xFF [(8, c), (64, hpa)])

/-- The transfer rows: a descriptor starts or ends in an error, a completion ends its tag, hands a chunk on, counts one leaf of a multicast, frees a
combining unit or is discarded by a router that is `DOWN`, a transaction times out, a tile that moved is asked again, a flow's rate rises, a window
of a tile is read, written or refused (R189 to R191, R353, R361, R365, R367, R368). That a multicast is asked again as a whole (log 153) and that a
discarded completion frees its tag (log 157) are the model's. -/
def Obligations.DmaRowsAct : Prop :=
  (∀ t die tile d rest, Does t (.dmaDescriptorStart t die tile)
    (fun s => Tbl.get [] s.dma.queues tile = d :: rest ∧ tileDie tile = die ∧ (s.rcfg d.tclass).hold = false ∧
      ({ s with dma := { s.dma with queues := Tbl.set [] tile rest s.dma.queues } } : State).descOk (s.partField (s.siteOfTile tile)) d = false) fun s =>
    ({ s with dma := { s.dma with queues := Tbl.set [] tile rest s.dma.queues } } : State).dmaError (s.partField (s.siteOfTile tile))
      (s.siteOfTile tile) .badDescriptor false) ∧
  (∀ t die tile d rest, Does t (.dmaDescriptorStart t die tile)
    (fun s => Tbl.get [] s.dma.queues tile = d :: rest ∧ tileDie tile = die ∧ (s.rcfg d.tclass).hold = false ∧
      ({ s with dma := { s.dma with queues := Tbl.set [] tile rest s.dma.queues } } : State).descOk (s.partField (s.siteOfTile tile)) d = true ∧
      ({ s with dma := { s.dma with queues := Tbl.set [] tile rest s.dma.queues } } : State).keysMissing
        { desc := d, part := s.partField (s.siteOfTile tile), tile, todo := d.length } = true) fun s =>
    ({ s with dma := { s.dma with queues := Tbl.set [] tile rest s.dma.queues } } : State).dmaError (s.partField (s.siteOfTile tile))
      (s.siteOfTile tile) .noKey false) ∧
  (∀ t die tile d rest, Does t (.dmaDescriptorStart t die tile)
    (fun s => Tbl.get [] s.dma.queues tile = d :: rest ∧ tileDie tile = die ∧ (s.rcfg d.tclass).hold = false ∧
      ({ s with dma := { s.dma with queues := Tbl.set [] tile rest s.dma.queues } } : State).descOk (s.partField (s.siteOfTile tile)) d = true ∧
      ({ s with dma := { s.dma with queues := Tbl.set [] tile rest s.dma.queues } } : State).keysMissing
        { desc := d, part := s.partField (s.siteOfTile tile), tile, todo := d.length } = false) fun s =>
    let s1 : State := { s with dma := { s.dma with queues := Tbl.set [] tile rest s.dma.queues } }
    let x : Xfer := { desc := d, part := s.partField (s.siteOfTile tile), tile, todo := d.length }
    State.xferPump die s1.dma.nextXfer 4097
      (({ s1 with dma := { s1.dma with nextXfer := s1.dma.nextXfer + 1 } } : State).setXfer s1.dma.nextXfer (some x))) ∧
  (∀ t die tag x st ece ue bs, Does t (.completionReceive t die tag st ece ue bs)
    (fun s => s.txn die tag = some x ∧ s.turnedAway x.pkt = false ∧ x.dead = true) fun s => ((s.finishTag die tag st).dmaPump die).mirrorGo) ∧
  (∀ t die tag x st ece ue bs, Does t (.completionReceive t die tag st ece ue bs)
    (fun s => s.txn die tag = some x ∧ s.turnedAway x.pkt = true ∧ x.dead = false) fun s =>
    ((s.rtrCount (routerOf (s.siteOfTile x.pkt.srcIdx)) 4).setTxn die tag none).dmaPump die) ∧
  (∀ t die tag x st ece bs, Does t (.completionReceive t die tag st ece false bs)
    (fun s => s.txn die tag = some x ∧ s.turnedAway x.pkt = false ∧ x.dead = false ∧ x.xfer = none ∧ x.pkt.srcKind ≠ .combiner ∧
      ¬ (x.slot ≤ 1 ∧ (st = .tileMoving ∨ x.moved = true) ∧ x.retries < 2000)) fun s =>
    ((s.finishTag die tag st).dmaPump die).mirrorGo) ∧
  (∀ t die tag x n y bs, Does t (.completionReceive t die tag .ok false false bs)
    (fun s => s.txn die tag = some x ∧ s.turnedAway x.pkt = false ∧ x.dead = false ∧ x.xfer = some n ∧ s.xfer n = some y ∧
      x.pkt.srcKind ≠ .combiner ∧ x.pkt.kind = .readReq ∧ x.moved = false) fun s =>
    ((s.chunkRead die tag n x y bs).dmaPump die).mirrorGo) ∧
  (∀ t die tag x n y st bs, Does t (.completionReceive t die tag st false false bs)
    (fun s => s.txn die tag = some x ∧ s.turnedAway x.pkt = false ∧ x.dead = false ∧ x.xfer = some n ∧ s.xfer n = some y ∧
      x.pkt.srcKind ≠ .combiner ∧ (x.pkt.kind ≠ .readReq ∨ st ≠ .ok) ∧
      ¬ (x.slot ≤ 1 ∧ (st = .tileMoving ∨ x.moved = true) ∧ x.retries < 2000)) fun s =>
    let again : Bool := st == .tileMoving && decide (x.retries < 2000)
    ((if 1 < x.slot then (s.setTxn die tag (some { x with slot := x.slot - 1, moved := x.moved || again })).setXfer n
        (some (if again then y else y.note s x.pkt st))
      else s.finishTag die tag st).dmaPump die).mirrorGo) ∧
  (∀ t die tag x st ece bs, Does t (.completionReceive t die tag st ece false bs)
    (fun s => s.txn die tag = some x ∧ x.dead = false ∧ x.xfer = none ∧ x.pkt.srcKind = .combiner) fun s =>
    (s.setTxn die tag none).cuDone x.pkt.srcIdx st) ∧
  (∀ t die tag x bs, Does t (.completionReceive t die tag .tileMoving false false bs)
    (fun s => s.txn die tag = some x ∧ s.turnedAway x.pkt = false ∧ x.dead = false ∧ x.pkt.srcKind ≠ .combiner ∧ x.slot ≤ 1 ∧
      x.retries < 2000) fun s =>
    s.setTxn die tag (some { x with movedAt := some s.now, moved := false, slot := ((x.xfer.bind s.xfer).map (·.desc.leaves)).getD x.slot })) ∧
  (∀ t die tag x, Does t (.transactionTimeout t die tag)
    (fun s => s.txn die tag = some x ∧ x.movedAt = none ∧ x.since + s.routing.timeoutUs * ftUs < s.now ∧ x.pkt.srcKind ≠ .combiner) fun s =>
    ((s.finishTag die tag .timeout).dmaPump die).mirrorGo) ∧
  (∀ t die tag x, Does t (.transactionTimeout t die tag)
    (fun s => s.txn die tag = some x ∧ x.movedAt = none ∧ x.since + s.routing.timeoutUs * ftUs < s.now ∧ x.pkt.srcKind = .combiner) fun s =>
    ((s.cuTimeout x.pkt).setTxn die tag none).cuDone x.pkt.srcIdx .timeout) ∧
  (∀ t die tag x m, Does t (.tileMovingRetry t die tag)
    (fun s => s.txn die tag = some x ∧ x.movedAt = some m ∧ m + 10 * ftUs ≤ s.now) fun s =>
    (s.setTxn die tag (some { x with movedAt := none, retries := x.retries + 1, since := s.now })).inject x.pkt) ∧
  (∀ t q d, Does t (.dmaRateIncrease t q d)
    (fun s => (Tbl.get {} s.dma.flows (65536 * q + d) : Flow).rate ≠ 0 ∧ (Tbl.get {} s.dma.flows (65536 * q + d) : Flow).rate < s.portRate d ∧
      (Tbl.get {} s.dma.flows (65536 * q + d) : Flow).lastUp + 20 * ftUs ≤ s.now) fun s =>
    let f : Flow := Tbl.get {} s.dma.flows (65536 * q + d)
    { s with dma := { s.dma with
        flows := Tbl.set {} (65536 * q + d) { f with rate := min (s.portRate d) (f.rate + 2000), lastUp := s.now } s.dma.flows } }) ∧
  (∀ t pkt hits k w, Does t (.windowAccess t pkt hits)
    (fun s => s.Reaches pkt k ∧ w = (Tbl.get {} (s.site k).mu.windows (pkt.arg.toNat % 256) : WinDesc) ∧ pkt.kind = .readReq ∧
      pkt.arg.toNat % 256 < 8 ∧ w.isOpen = true ∧ pkt.addr + reqLen (pkt.srcDev != s.hub.devId) pkt ≤ w.size ∧ w.rights % 2 = 1 ∧
      s.sourceOk w pkt = true) fun s =>
    let s0 := s.disturbs k hits
    let s1 := if (pkt.srcDev != s.hub.devId) = true then s0.authNote w.key pkt else s0
    (s1.eccRange k (w.base + pkt.addr) (reqLen (pkt.srcDev != s.hub.devId) pkt) true).replyData pkt
      (memReadN (s1.site k).mu.slice (w.base + pkt.addr) (reqLen (pkt.srcDev != s.hub.devId) pkt))) ∧
  (∀ t pkt hits k w, Does t (.windowAccess t pkt hits)
    (fun s => s.Reaches pkt k ∧ w = (Tbl.get {} (s.site k).mu.windows (pkt.arg.toNat % 256) : WinDesc) ∧ pkt.kind = .write ∧
      pkt.arg.toNat % 256 < 8 ∧ w.isOpen = true ∧ pkt.addr + reqLen (pkt.srcDev != s.hub.devId) pkt ≤ w.size ∧ w.rights / 2 % 2 = 1 ∧
      s.sourceOk w pkt = true) fun s =>
    let s0 := s.disturbs k hits
    let s1 := if (pkt.srcDev != s.hub.devId) = true then s0.authNote w.key pkt else s0
    let d := reqData (pkt.srcDev != s.hub.devId) pkt
    let s2 := s1.sliceWrite k (w.base + pkt.addr) d
    ((s2.shadows k).foldl (fun s v => s.sliceWrite v (w.base + pkt.addr) d) s2).reply pkt .ok) ∧
  (∀ t pkt hits k w, Does t (.windowAccess t pkt hits)
    (fun s => s.Reaches pkt k ∧ w = (Tbl.get {} (s.site k).mu.windows (pkt.arg.toNat % 256) : WinDesc) ∧ (pkt.kind = .write ∨ pkt.kind = .readReq) ∧
      (8 ≤ pkt.arg.toNat % 256 ∨ w.isOpen = false ∨ w.size < pkt.addr + reqLen (pkt.srcDev != s.hub.devId) pkt ∨
        (pkt.kind = .readReq ∧ w.rights % 2 = 0) ∨ (pkt.kind = .write ∧ w.rights / 2 % 2 = 0) ∨ s.sourceOk w pkt = false)) fun s =>
    (((s.modSite k fun x => { x with mu := { x.mu with winFaults := satAdd 255 x.mu.winFaults 1 } }).reportSite 0x0106 k 0x180 []).reply
      pkt .windowRefused))

/-- The routing rows: a packet that its queue does not yet let pass waits; a Steward packet for this hub is taken, a packet of a reserved kind is
dropped and counted, every other packet goes to its die or its router, under the version that it carries and by the port chosen for it; a
combining unit forwards once it has merged 16 packets or `CMB_WAIT` router cycles have passed since the capture; a drained change of a class takes
effect (R352, R354, R357 to R360, R362). That the version of a routed packet retires after the routing is the model's reading (log 112). -/
def Obligations.RoutingRowsAct : Prop :=
  (∀ t r die pkt, Does t (.packetRoute t r die pkt)
    (fun s => s.routeIn (match die with
      | some d => .die d
      | none => .router r) pkt = none) fun s => s) ∧
  (∀ t r die pkt p ver port s1, Does t (.packetRoute t r die pkt)
    (fun s => s.routeIn (match die with
      | some d => .die d
      | none => .router r) pkt = some (p, ver, port, s1) ∧ p.kind = .steward ∧ p.destKind = .hub ∧ p.destDev = s1.hub.devId) fun _ =>
    (s1.stewardTake p).retire) ∧
  (∀ t r die pkt p ver port s1, Does t (.packetRoute t r die pkt)
    (fun s => s.routeIn (match die with
      | some d => .die d
      | none => .router r) pkt = some (p, ver, port, s1) ∧ p.kind = .reserved) fun _ =>
    s1.discard.retire) ∧
  (∀ t r d pkt p ver port s1, Does t (.packetRoute t r (some d) pkt)
    (fun s => s.routeIn (.die d) pkt = some (p, ver, port, s1) ∧ p.kind ≠ .reserved ∧
      ¬ (p.kind = .steward ∧ p.destKind = .hub ∧ p.destDev = s1.hub.devId)) fun _ => (s1.dieRoute d ver port p).retire) ∧
  (∀ t r pkt p ver port s1, Does t (.packetRoute t r none pkt)
    (fun s => s.routeIn (.router r) pkt = some (p, ver, port, s1) ∧ p.kind ≠ .reserved ∧
      ¬ (p.kind = .steward ∧ p.destKind = .hub ∧ p.destDev = s1.hub.devId)) fun _ => (s1.rtrRoute r ver port p).retire) ∧
  (∀ t r n g tag, Does t (.combineForward t r n)
    (fun s => s.cu r n = some g ∧ g.sentTag = none ∧ s.freeTag (rtrDie r) = some tag ∧
      (10 * s.routing.cmbWait ≤ 3 * (s.now - g.since) ∨ 16 ≤ g.merges)) fun s =>
    let p := { g.pkt with srcDev := s.hub.devId, srcKind := .combiner, srcIdx := 4 * r + n, tag }
    (((s.setTxn (rtrDie r) tag (some { part := p.srcPart, pkt := p, since := s.now })).setCu r n
      (some { g with sentTag := some tag })).launch p).retire) ∧
  (∀ t cls mb start, Does t (.routeDrainComplete t cls)
    (fun s => (s.rcfg cls).swap = some (mb, some start) ∧ (s.drained cls = true ∨ start + 100 * ftUs ≤ s.now)) fun s =>
    let s1 := ((s.modRcfg cls fun x => { x with ver := !x.ver, hold := false, swap := none }).retagHeld cls).injectHeld cls
    let s2 := (List.range 16).foldl (fun s p => if (s.part p).slots.any fun sl => sl.running.contains 4 then s.slotEnd p 4 else s) s1
    (((s2.finish mb stOk).dmaPump 0).dmaPump 1).mirrorGo)

/-- The rows of the host's ports: a doorbell, a mailbox reset, a completion head, an event head, a write to a register, a reset from the host,
a read of `FT_NOW`, a frame of the management Ethernet, an instruction of the TAP. Each acts only while the device is out of reset, where the
spec gives it an effect there (R7, R435, R437, R439, R444, R446, R460, R464, R544, R566; log 38). That a frame shows its link to be up is the
model's reading (log 165). -/
def Obligations.HostRowsAct : Prop :=
  (∀ t mb tail, Does t (.doorbell t mb tail) (fun s => mb < 16 ∧ s.hub.inReset = false) fun s => s.doorbell mb tail) ∧
  (∀ t mb, Does t (.mailboxReset t mb) (fun s => mb < 24 ∧ s.hub.inReset = false) fun s => s.mbReset mb) ∧
  (∀ t mb h, Does t (.cplHeadWrite t mb h) (fun s => mb < 16 ∧ s.hub.inReset = false) fun s => s.cplHeadTo mb h) ∧
  (∀ t h, Does t (.evHeadWrite t h) (fun s => s.hub.inReset = false) fun s =>
    ({ s with ev := { s.ev with head := h % 2048 } } : State).evSpace) ∧
  (∀ t off val, Does t (.registerWrite t off 8 val) (fun s => s.hub.inReset = false ∧ off % 8 = 0) fun s =>
    s.writeWord off (wordAt off (leBytes 8 val) off).1 (wordAt off (leBytes 8 val) off).2) ∧
  (∀ t, Does t (.hostPortReset t) (fun _ => True) fun s =>
    let s1 := (List.range 16).foldl State.mbReset s
    ({ s1 with
      msix := (List.range 64).foldl (fun m v => Tbl.set {} v { (Tbl.get {} m v : MsixEnt) with masked := true } m) s1.msix
      ev := { s1.ev with ring := [], tail := 0, head := 0, phase := true }
      mem := { s1.mem with hdmOn := false, hdmBase := 0 } } : State).evSpace) ∧
  (∀ t, Does t (.ftNowRead t) (fun _ => True) fun s => s.modHub fun h => { h with ftNow := s.now }) ∧
  (∀ t port frame mac b bs, Does t (.mgmtFrameReceive t port frame)
    (fun s => framePayload frame = some (mac, b) ∧ port < 2 ∧ s.hub.inReset = false ∧ num b 0 1 = 1 ∧
      num b 8 1 % 16 = 1 ∧ num b 9 1 = s.hub.config.mctpEid ∧ 12 ≤ b.length ∧ b.length ≤ 1036 ∧
      joinPacket (((s.mgmtPort port).reasm.find? (·.1 == (mac, num b 10 1, num b 11 1 % 16))).map (·.2)) (bitOn (num b 11 1) 7)
        (num b 11 1 / 16 % 4) (b.drop 12) = some bs) fun s =>
    let rest := (s.mgmtPort port).reasm.filter fun x => x.1 != (mac, num b 10 1, num b 11 1 % 16)
    let s1 := s.modMgmt port fun x => { x with link := true, reasm := rest }
    if bitOn (num b 11 1) 6 = true then s1.mgmtTake port { mac := leBytes 6 mac, eid := num b 10 1, tag := num b 11 1 % 8 } bs
    else s1.modMgmt port fun x => { x with reasm := rest ++ [((mac, num b 10 1, num b 11 1 % 16), (num b 11 1 / 16 + 1) % 4, bs)] }) ∧
  (∀ t, Does t (.jtagInstruction t 0) (fun _ => True) fun s =>
    ({ s with sec := { s.sec with tap := 0 } } : State).emit (.jtag (1#4 ++ 0x8A08#16 ++ Config.jedec ++ 1#1))) ∧
  (∀ t, Does t (.jtagInstruction t 1) (fun _ => True) fun s => { s with sec := { s.sec with tap := 0 } }) ∧
  (∀ t ir, Does t (.jtagInstruction t ir) (fun s => 2 ≤ ir ∧ ir ≤ 6 ∧ bitAt s.sec.debug (ir - 2) = true) fun s =>
    { s with sec := { s.sec with tap := ir } }) ∧
  (∀ t ir, Does t (.jtagInstruction t ir) (fun s => 2 ≤ ir ∧ (6 < ir ∨ bitAt s.sec.debug (ir - 2) = false)) fun s =>
    ({ s with sec := { s.sec with tap := 0 } } : State).alarm 5 0 0)

/-- The rows of a port's training: lanes lock or fail, the gate judges the error ratios, the lane maps and the `INIT`s of both ends are exchanged,
training is abandoned, a retraining is asked for (R336 to R338, R347). -/
def Obligations.TrainingRowsAct : Prop :=
  (∀ t p mask peer, Does t (.portTrain t p { mask, peer })
    (fun s => p < 24 ∧ (s.port p).enabled = true ∧ (s.port p).st ≠ .gate ∧ s.hub.inReset = false) fun s =>
    ((if (s.port p).st = .training then s else s.trainStart p).modPort p fun x =>
      { x with locked := x.locked ||| (mask &&& ~~~x.failed), trainStep := 2 }).tryGate p) ∧
  (∀ t p l, Does t (.laneLockTimeout t p l) (fun s => (s.port p).st = .training ∧ l < 9 ∧ bitAt (s.port p).locked l = false) fun s =>
    (s.modPort p fun x => { x with failed := failLane x.failed l }).tryGate p) ∧
  (∀ t p errs, Does t (.berGateEnd t p errs) (fun s => (s.port p).st = .gate ∧ (s.port p).trainStep = 3) fun s =>
    let bad := (List.range 9).filter fun i => bitAt (s.port p).locked i && decide (20000 < errs.getD i 0)
    let s1 := bad.foldl (fun s i => (s.modPort p fun x => { x with failed := failLane x.failed i }).report 0x0505 3 0xFF
      (lanternUnit p i) [(8, i), (24, 0), (32, errs.getD i 0)]) s
    let s2 := s1.modPort p fun x => { x with trainStep := 4, lsOk := !bitAt x.failed 8 }
    s2.emit (.linkMap p (~~~(s2.port p).failed) (s2.port p).minWidth)) ∧
  (∀ t p mask lanes mw, Does t (.portTrain t p { mask, peer := some (lanes, mw) })
    (fun s => p < 24 ∧ (s.port p).enabled = true ∧ (s.port p).st = .gate ∧ 4 ≤ (s.port p).trainStep ∧ s.hub.inReset = false) fun s =>
    let f := (s.port p).failed ||| ~~~lanes
    let s1 := s.modPort p fun x =>
      { x with failed := f, lanes := laneMap f, sub := laneSub f, lsOk := !bitAt f 8, peerMin := mw, trainStep := 6 }
    if (laneMap f).length < (s1.port p).needWidth then s1.portDown p 1 else (s1.slotMark p).sendCtl p ((s1.slotMark p).initOp p)) ∧
  (∀ t p, Does t (.trainingAbandon t p) (fun s => (s.port p).st = .training ∨ (s.port p).st = .gate) fun s => s.portDown p 6) ∧
  (∀ t p, Does t (.retrainRequestReceive t p) (fun s => (s.port p).st = .up ∨ (s.port p).st = .down) fun s =>
    (s.ctlAnswer p .retrain).trainStart p) ∧
  (∀ t p, Does t (.retrainRequestReceive t p) (fun s => (s.port p).st ≠ .up ∧ (s.port p).st ≠ .down ∧ (s.port p).awaits 3 = true) fun s =>
    s.modPort p fun x => { x with ctlPend := x.ctlPend.filter fun e => ctlCode e.1 != 3 }) ∧
  (∀ t p dev pp res sh slot ks ack, Does t (.initFlitReceive t p (.init dev pp res sh slot ks ack))
    (fun s => (s.port p).st = .up ∧ (s.port p).swap = none) fun s =>
    let s1 := s.modPort p fun x => { x with slotRx := max x.slotRx slot }
    (if (s.port p).awaits 1 = true then s1.modPort p fun x => { x with ctlPend := x.ctlPend.filter fun e => ctlCode e.1 != 1 }
      else s1.sendFlit p (.control (s1.initOp p))).takeAck p ack) ∧
  (∀ t p dev pp res sh slot ks ack w, Does t (.initFlitReceive t p (.init dev pp res sh slot ks ack))
    (fun s => (s.port p).st = .up ∧ (s.port p).swap = some w) fun s =>
    let s1 := s.modPort p fun x => { x with slotRx := max x.slotRx slot }
    ((if (s.port p).awaits 1 = true then s1.modPort p fun x => { x with ctlPend := x.ctlPend.filter fun e => ctlCode e.1 != 1 }
      else s1).modPort p fun x => { x with swapAck := some ack }).swapEnd p) ∧
  (∀ t p dev pp res sh slot ks ack, Does t (.initFlitReceive t p (.init dev pp res sh slot ks ack))
    (fun s => (s.port p).st = .gate ∧ (s.port p).trainStep = 6) fun s =>
    ((s.ctlAnswer p (.init dev pp res sh slot ks ack)).modPort p fun x =>
      { x with partnerDev := dev, partnerPort := pp, slotRx := max x.slotRx slot, keySelRx := ks
               usedRes := (List.range 32).foldl (fun t n => Tbl.set 0 n (64 - res.getD n 64) t) []
               usedShared := (List.range 4).foldl (fun t c => Tbl.set 0 c (7680 - sh.getD c 7680) t) [] }).portUp p)

/-- The rows of a port in service: an acknowledgement refused or not come, a flit with each of its failures and a good one, a lane that fails
with a spare to take its place or without, its planned and unplanned swaps and their end, once both `INIT`s have passed, and the control exchanges
of keys, notices, widths and resends (R339 to R341, R344, R345, R347, R349, R372, R537). A second exhausted resend after a retrain (log 161) is the
model's reading. -/
def Obligations.LinkRowsAct : Prop :=
  (∀ t p ack, Does t (.nakReceive t p ack) (fun s => (s.port p).st = .up ∧ (s.port p).swap = none) fun s => (s.takeAck p ack).goBack p) ∧
  (∀ t p e rest, Does t (.retryAckTimeout t p)
    (fun s => (s.port p).retry = e :: rest ∧ (s.port p).st = .up ∧ (s.port p).swap = none ∧ e.ft + 2 * ftUs ≤ s.now) fun s => s.goBack p) ∧
  (∀ (s : State) p e rest, (s.port p).retry = e :: rest → (s.port p).resends < 16 → s.goBack p =
    ((s.modPort p fun x => { x with ctr := { x.ctr with retries := (ctrAdd (s.port p).ctr.retries 1).1 }, resends := x.resends + 1 }).ovfIf
      (ctrAdd (s.port p).ctr.retries 1).2 (0x18000000 + p) 5).resendAll p) ∧
  (∀ (s : State) p e rest, (s.port p).retry = e :: rest → 16 ≤ (s.port p).resends → (s.port p).retrained = false → s.goBack p =
    ((s.report 0x0508 3 0xFF (lanternUnit p 15) [(8, 1), (16, e.seq.toNat)]).trainStart p).modPort p fun x => { x with retrained := true }) ∧
  (∀ t p f body, Does t (.flitReceive t p f)
    (fun s => let s1 := (s.modPort p fun x => { x with slotRx := (s.port p).slotRx + f.idle + 1 }).countSymbols p f
      (s.port p).st ≠ .off ∧ (s.port p).st ≠ .down ∧ f.fecOk = true ∧ crcOk f.bytes = true ∧
        s1.flitBody p ((s.port p).slotRx + f.idle) (flitHeadOf f.bytes) f.bytes = some body) fun s =>
    ((s.modPort p fun x => { x with slotRx := (s.port p).slotRx + f.idle + 1 }).countSymbols p f).flitGood p (flitHeadOf f.bytes) body f.shared) ∧
  (∀ t p f, Does t (.flitReceive t p f)
    (fun s => let s1 := (s.modPort p fun x => { x with slotRx := (s.port p).slotRx + f.idle + 1 }).countSymbols p f
      (s.port p).st ≠ .off ∧ (s.port p).st ≠ .down ∧ f.fecOk = true ∧ crcOk f.bytes = true ∧
        s1.flitBody p ((s.port p).slotRx + f.idle) (flitHeadOf f.bytes) f.bytes = none) fun s =>
    (((s.modPort p fun x => { x with slotRx := (s.port p).slotRx + f.idle + 1 }).countSymbols p f).authFail p (flitHeadOf f.bytes).keySel).flitLost p
      f.timeSlot) ∧
  (∀ (s : State) p slot b, (flitHeadOf b).enc = true → (flitHeadOf b).kind = 1 → s.flitBody p slot (flitHeadOf b) b =
    Config.gcmOpen (s.linkKey p 1 (flitHeadOf b).keySel).key (nonceOf (s.linkKey p 1 (flitHeadOf b).keySel) slot) (b.take 12) (slice b 12 624)) ∧
  (∀ t p f, Does t (.flitReceive t p f)
    (fun s => (s.port p).st ≠ .off ∧ (s.port p).st ≠ .down ∧ f.fecOk = true ∧ crcOk f.bytes = false) fun s =>
    let s1 := (s.modPort p fun x => { x with slotRx := (s.port p).slotRx + f.idle + 1 }).countSymbols p f
    let c := ctrAdd (s.port p).ctr.crcFail 1
    ((((s1.modPort p fun x => { x with ctr := { x.ctr with crcFail := c.1 } }).ovfIf c.2 (0x18000000 + p) 4).report 0x0507 3 0xFF (lanternUnit p 15)
      [(64, c.1.v)]).flitLost p f.timeSlot)) ∧
  (∀ t p f, Does t (.flitReceive t p f) (fun s => (s.port p).st ≠ .off ∧ (s.port p).st ≠ .down ∧ f.fecOk = false) fun s =>
    let s1 := (s.modPort p fun x => { x with slotRx := (s.port p).slotRx + f.idle + 1 }).countSymbols p f
    let c := ctrAdd (s.port p).ctr.fecUncorr 1
    ((((s1.modPort p fun x => { x with ctr := { x.ctr with fecUncorr := c.1 } }).ovfIf c.2 (0x18000000 + p) 3).report 0x0506 3 0xFF (lanternUnit p 15)
      [(64, c.1.v)]).flitLost p f.timeSlot)) ∧
  (∀ t p l c r, Does t (.laneFail t p l { cause := c, ratio := r })
    (fun s => (s.port p).st = .up ∧ l ∈ (s.port p).lanes ∧ (c ≠ 3 ∨ (s.port p).canSwap l = false ∨ (s.port p).swap.isSome = true)) fun s =>
    (s.report 0x0501 3 0xFF (lanternUnit p l) [(8, c), (8, l), (16, 0), (32, r)]).swapAlso p l s.now false) ∧
  (∀ t p l r, Does t (.laneFail t p l { cause := 3, ratio := r })
    (fun s => (s.port p).st = .up ∧ (s.port p).swap = none ∧ l ∈ (s.port p).lanes ∧ (s.port p).canSwap l = true) fun s =>
    (s.report 0x0501 3 0xFF (lanternUnit p l) [(8, 3), (8, l), (16, 0), (32, r)]).sendCtl p (.swapPlan l)) ∧
  (∀ t p c r, Does t (.laneFail t p 8 { cause := c, ratio := r })
    (fun s => (s.port p).st = .up ∧ 8 ∉ (s.port p).lanes ∧ (s.port p).lsOk = true) fun s =>
    (s.report 0x0501 3 0xFF (lanternUnit p 8) [(8, c), (8, 8), (16, 0), (32, r)]).modPort p fun x =>
      { x with lsOk := false, failed := failLane x.failed 8 }) ∧
  (∀ t p l, Does t (.swapOrderedSetReceive t p l)
    (fun s => (s.port p).st = .up ∧ (s.port p).swap = none ∧ l ∈ (s.port p).lanes) fun s =>
    s.swapBegin p l ((s.port p).planFt s.now) ((s.port p).awaits 4)) ∧
  (∀ t p l, Does t (.swapPlanReceive t p l)
    (fun s => (s.port p).st = .up ∧ (s.port p).swap = none ∧ l ∈ (s.port p).lanes) fun s =>
    (s.ctlAnswer p (.swapPlan l)).swapBegin p l ((s.port p).planFt s.now) true) ∧
  (∀ t p l since pl, Does t (.laneSwapResume t p)
    (fun s => (s.port p).swap = some (l, since, pl) ∧ (s.port p).canSwap l = true ∧ (s.port p).swapInit = false) fun s =>
    let s1 := (s.slotMark p).modPort p fun x =>
      { x with sub := l, swapInit := true, ctlPend := x.ctlPend.filter fun e => ctlCode e.1 != 4
               lanes := x.lanes.map fun l' => if l' = l then 8 else l'
               failed := failLane x.failed l, lsOk := x.lsOk && l != 8 }
    (s1.sendCtl p (s1.initOp p)).swapEnd p) ∧
  (∀ t p l since pl, Does t (.laneSwapResume t p)
    (fun s => (s.port p).swap = some (l, since, pl) ∧ (s.port p).canSwap l = false ∧ (s.port p).swapInit = false) fun s =>
    let s1 := (s.slotMark p).modPort p fun x =>
      { x with sub := if l = 8 then 0xF else x.sub, swapInit := true, ctlPend := x.ctlPend.filter fun e => ctlCode e.1 != 4
               lanes := x.lanes.filter fun l' => l' != l
               failed := failLane x.failed l, lsOk := x.lsOk && l != 8 }
    (s1.sendCtl p (s1.initOp p)).swapEnd p) ∧
  (∀ (s : State) p l since pl ack, (s.port p).swap = some (l, since, pl) → (s.port p).swapAck = some ack → (s.port p).swapInit = true →
    (s.port p).sub = l → (s.port p).needWidth ≤ (s.port p).lanes.length → (s.port p).swapNext = [] → s.swapEnd p =
      ((((s.report 0x0502 3 0xFF (lanternUnit p l) [(8, l), (8, b1 pl), (16, 0), (32, (s.now - since) / ftUs)]).modPort p fun x =>
        { x with swap := none, swapInit := false, swapAck := none, swapNext := x.swapNext.drop 1 }).takeAck p ack).resendAll p).pump p) ∧
  (∀ t p slot, Does t (.keyNextReceive t p slot)
    (fun s => (s.port p).st = .up ∧ ((s.port p).keyNextTx ≠ some slot ∨ (s.port p).awaits 2 = false)) fun s =>
    (s.modPort p fun x => { x with keyNextRx := some slot }).sendFlit p (.control (.keyNext slot))) ∧
  (∀ t p slot, Does t (.keyNextReceive t p slot)
    (fun s => (s.port p).st = .up ∧ (s.port p).keyNextTx = some slot ∧ (s.port p).awaits 2 = true) fun s => s.ctlAnswer p (.keyNext slot)) ∧
  (∀ t p n, Does t (.keySelChange t p true) (fun s => (s.port p).keyNextRx = some n) fun s =>
    s.modPort p fun x => { x with keySelRx := !x.keySelRx, keyNextRx := none, slotRx := max x.slotRx n }) ∧
  (∀ t p n, Does t (.keySelChange t p false) (fun s => (s.port p).keyNextTx = some n) fun s =>
    s.modPort p fun x => { x with keySelTx := !x.keySelTx, keyNextTx := none, slotTx := max x.slotTx n }) ∧
  (∀ t p, Does t (.downNoticeReceive t p) (fun s => (s.port p).st = .up) fun s => (s.ctlAnswer p .downNotice).portDown p 5) ∧
  (∀ t p w, Does t (.minWidthReceive t p w)
    (fun s => ((s.port p).st = .up ∨ ((s.port p).st = .gate ∧ 6 ≤ (s.port p).trainStep)) ∧ 4 ≤ w ∧ w ≤ 8) fun s =>
    let s1 := (if (s.port p).awaits 6 = true then s.ctlAnswer p (.minWidth w) else s.sendFlit p (.control (.minWidth (s.port p).minWidth))).modPort p
      fun x => { x with peerMin := w }
    if (s1.port p).lanes.length < (s1.port p).needWidth then s1.portDown p 1 else s1) ∧
  (∀ t p, Does t (.controlFlitResend t p)
    (fun s => (s.port p).st ≠ .off ∧ (s.port p).st ≠ .down ∧
      ((s.port p).ctlPend.any fun e => ctlCode e.1 == 5 && decide (e.2.1 + 10 * ftUs ≤ s.now)) = true) fun s => s.portDown p 5) ∧
  (∀ t p, Does t (.controlFlitResend t p)
    (fun s => (s.port p).st ≠ .off ∧ (s.port p).st ≠ .down ∧
      ((s.port p).ctlPend.any fun e => ctlCode e.1 == 5 && decide (e.2.1 + 10 * ftUs ≤ s.now)) = false) fun s =>
    ((s.port p).ctlPend.filter fun e => decide (e.2.2 + ftUs ≤ s.now)).foldl (fun s e => s.sendFlit p (.control e.1))
      (s.modPort p fun x => { x with ctlPend := x.ctlPend.map fun e => if e.2.2 + ftUs ≤ s.now then (e.1, e.2.1, s.now) else e }))

/-! ## Power, heat and time -/

/-- The power rows: a sample of the supply is averaged over 1,000 and 100,000 samples, and as the shorter average reaches 3,000 W every budget
cap is at least 2; the budget's throttle goes up on the region of the largest current and down on the deepest throttled; PMBus telemetry is polled; a
surge reservoir is full; a droop is detected or not; the hard floor is crossed; a bump's resistance is sampled (R469, R475, R476, R484 to R486).
Averages before enough samples, the margin of a sample above the threshold and which of two equal regions is lowered are the model's. -/
def Obligations.PowerRowsAct : Prop :=
  (∀ t mw cells, Does t (.powerSample t mw cells)
    (fun s => 3000000 ≤ s.power.avg10ms ∨ meanOf ((mw :: s.power.samples).take 1000) < 3000000) fun s => s.powerNote mw cells) ∧
  (∀ t mw cells, Does t (.powerSample t mw cells)
    (fun s => s.power.avg10ms < 3000000 ∧ 3000000 ≤ meanOf ((mw :: s.power.samples).take 1000)) fun s =>
    (s.powerNote mw cells).fastCap.event 0x0B07 0xFF [(16, meanOf ((mw :: s.power.samples).take 1000) / 1000)]) ∧
  (∀ (s : State) mw cells, (s.powerNote mw cells).power =
    { s.power with samples := (mw :: s.power.samples).take 100000, avg1s := meanOf ((mw :: s.power.samples).take 100000),
                   avg10ms := meanOf ((mw :: s.power.samples).take 1000) }) ∧
  (∀ t g, Does t (.budgetCapRaise t)
    (fun s => s.power.budget * 980 < s.power.avg1s ∧ s.power.lastRaise + ftMs ≤ s.now ∧
      pickMax ((List.range 64).filter fun g => decide ((s.region g).capBudget < 6) && (s.region g).logic == .on)
        (fun g => (s.region g).logicCur) = some g) fun s =>
    (({ s with power := { s.power with lastRaise := s.now } } : State).modRegion g fun r => { r with capBudget := r.capBudget + 1 }).applyStep g) ∧
  (∀ t g, Does t (.budgetCapLower t)
    (fun s => s.power.avg1s < s.power.budget * 950 ∧ s.power.lastLower + 10 * ftMs ≤ s.now ∧
      pickMax ((List.range 64).filter fun g => decide (0 < (s.region g).capBudget)) (fun g => (s.region g).capBudget) = some g) fun s =>
    (({ s with power := { s.power with lastLower := s.now } } : State).modRegion g fun r => { r with capBudget := r.capBudget - 1 }).applyStep g) ∧
  (∀ t g, Does t (.budgetCapLower t)
    (fun s => s.power.budget * 950 ≤ s.power.avg1s ∧ s.power.avg1s < s.power.budget * 950 + s.power.lent ∧ s.power.lastLower + 10 * ftMs ≤ s.now ∧
      pickMax ((List.range 64).filter fun g => decide (0 < (s.region g).capBudget) && !(s.region g).lent) (fun g => (s.region g).capBudget) =
        some g) fun s =>
    (({ s with power := { s.power with lastLower := s.now, lentCaps := g :: s.power.lentCaps } } : State).modRegion g fun r =>
      { r with capBudget := r.capBudget - 1 }).applyStep g) ∧
  (∀ t i (x : PmbusTel), Does t (.pmbusPoll t [(i, x)]) (fun s => x.answered = true ∧ i < s.hub.config.pmbus.length) fun s =>
    { s with power := { s.power with
        pmbus := Tbl.set {} i { vout := x.vout, iout := x.iout, temp := x.temp, status := x.status, absent := false } s.power.pmbus } }) ∧
  (∀ t i (x : PmbusTel), Does t (.pmbusPoll t [(i, x)]) (fun s => x.answered = false ∧ i < s.hub.config.pmbus.length) fun s =>
    { s with power := { s.power with
        pmbus := Tbl.set {} i { (Tbl.get {} s.power.pmbus i : PmbusRec) with absent := true } s.power.pmbus } }) ∧
  (∀ t g, Does t (.surgeRecharged t g) (fun _ => True) fun s => s.modRegion g fun r => { r with surgeOk := true }) ∧
  (∀ t g mv ns, Does t (.droopDetect t g mv ns)
    (fun s => (s.region g).logic = .on ∧ mv < stepMv (s.region g).dvfs - 30) fun s => s.droop g 0 mv ns) ∧
  (∀ t g mv ns, Does t (.droopDetect t g mv ns)
    (fun s => (s.region g).logic = .on ∧ stepMv (s.region g).dvfs - 30 ≤ mv) fun s =>
    s.modRegion g fun r => { r with surgeOk := false, margin := min 255 (mv - (stepMv (s.region g).dvfs - 30)) }) ∧
  (∀ t g mv ns, Does t (.droopHardFloor t g mv ns)
    (fun s => (s.region g).logic = .on ∧ mv < stepMv (s.region g).dvfs - 90 ∧ 20 ≤ ns) fun s =>
    (s.droop g 1 mv ns).modJob (s.partField (siteKey g 0)) fun j => if j.st = .running then { j with faultSeen := true } else j) ∧
  (∀ t g i mv, Does t (.bumpSample t g i mv) (fun s => mv ≤ i * Tbl.get 0 s.fuses.bumpRes g / 1000000 + 30) fun s =>
    s.modRegion g fun r => { r with bumpRun := 0 }) ∧
  (∀ t g i mv, Does t (.bumpSample t g i mv)
    (fun s => i * Tbl.get 0 s.fuses.bumpRes g / 1000000 + 30 < mv ∧ (s.region g).bumpRun < 15) fun s =>
    s.modRegion g fun r => { r with bumpRun := (s.region g).bumpRun + 1 }) ∧
  (∀ t g i mv, Does t (.bumpSample t g i mv)
    (fun s => i * Tbl.get 0 s.fuses.bumpRes g / 1000000 + 30 < mv ∧ 15 ≤ (s.region g).bumpRun ∧
      ((s.modRegion g fun r => { r with bumpRun := 16 }).region g).bump = false) fun s =>
    let e := i * Tbl.get 0 s.fuses.bumpRes g / 1000000
    let s1 := s.modRegion g fun r => { r with bumpRun := 16 }
    ((((s1.report 0x0704 5 (s1.partField (siteKey g 0)) g [(16, mv), (16, e)]).event 0x0B04 0xFF [(8, g), (16, mv - e)]).ledgerAdd 3 0x0704
      g).modRegion g fun r => { r with bump := true }).applyStep g)

/-- The rows of heat, cells and power states: a sensor is read, a hot region is throttled a step and a cool one released a step, the trip
latches, a cell of a region or a regulator of the network fails, a power group closes, waits, or is the last (R477 to R482, R489). -/
def Obligations.HeatRowsAct : Prop :=
  (∀ t n (r : Int), Gives t (.thermalSensorRead t n r) (fun _ => 192 ≤ n ∧ n < 240) fun s s' =>
    Tbl.get none s'.power.sensors n = some r ∧ s'.sites = s.sites ∧ s'.regions = s.regions ∧ s'.parts = s.parts ∧ s'.mem = s.mem) ∧
  (∀ t n (r : Int), Gives t (.thermalSensorRead t n r) (fun s => n < 192 ∧ (n % 3 = 2 ∨ (s.region (n / 3)).logic = .on)) fun s s' =>
    Tbl.get none (s'.region (n / 3)).sensors (n % 3) = some r ∧ s'.sites = s.sites ∧ s'.parts = s.parts ∧ s'.mem = s.mem) ∧
  (∀ t n (r : Int), Gives t (.thermalSensorRead t n r) (fun _ => 240 ≤ n ∧ n < 256) fun _ s' => Tbl.get none s'.power.sensors n = some r) ∧
  (∀ t g i, Does t (.thermalCapRaise t g)
    (fun s => g < 64 ∧ ((List.range 3).find? fun i => s.hot (3 * g + i) s.power.throttle) = some i ∧
      (∀ f, (s.region g).thermRaise = some f → f + ftMs ≤ s.now) ∧ 0 < (s.region g).capTherm ∧ (s.region g).capTherm < 6) fun s =>
    (s.modRegion g fun r => { r with capTherm := r.capTherm + 1, thermRaise := some s.now }).applyStep g) ∧
  (∀ t g i, Does t (.thermalCapRaise t g)
    (fun s => g < 64 ∧ ((List.range 3).find? fun i => s.hot (3 * g + i) s.power.throttle) = some i ∧
      (∀ f, (s.region g).thermRaise = some f → f + ftMs ≤ s.now) ∧ (s.region g).capTherm = 0) fun s =>
    let s1 := (s.modRegion g fun r => { r with capTherm := r.capTherm + 1, thermRaise := some s.now }).applyStep g
    (s1.report 0x0706 5 (s1.partField (siteKey g 0)) g [(8, 3 * g + i), (16, wrapZ 16 ((s1.sensor (3 * g + i)).getD 0)), (8, 1)]).event
      0x0B05 0xFF [(8, g), (8, 3 * g + i), (8, 1)]) ∧
  (∀ t g c, Does t (.thermalCapLower t g)
    (fun s => (s.region g).coolSince = some c ∧ c + 10 * ftMs ≤ s.now ∧ 0 < (s.region g).capTherm) fun s =>
    (s.modRegion g fun r => { r with capTherm := r.capTherm - 1, coolSince := some (c + 10 * ftMs) }).applyStep g) ∧
  (∀ t n h, Does t (.thermalTrip t n)
    (fun s => Tbl.get none s.power.hotSince n = some h ∧ h + 100 * ftUs ≤ s.now ∧ s.hub.tripped = false) fun s =>
    let temp := wrapZ 16 ((s.sensor n).getD 0)
    let s1 := ((s.stopClocks).faultAll 0x0707).report 0x0707 0 0xFF 0 [(8, n), (16, temp)]
    let s2 := (s1.event 0x0B06 0xFF [(8, n), (16, temp)]).modHub fun h => { h with tripped := true }
    (({ s2 with pins := { s2.pins with thermtripN := false } } : State).modAlarm 2 fun a => { a with asserts := true }).alarm 2 n temp) ∧
  (∀ t g c cause, Does t (.ivrCellFail t g c cause)
    (fun s => g < 64 ∧ c < 8 ∧ (if c < 6 then bitAt (s.region g).logicFail c else bitAt (s.region g).arrayFail (c - 6)) = false ∧
      (s.region g).logic ≠ .dark) fun s =>
    let s1 := s.cellOff g c cause
    (((s1.event 0x0B01 0xFF [(8, g), (8, c), (8, (s1.region g).logicFailed)]).ledgerAdd 2 0x0701 (g + 256 * c)).cellEffect g
      (s.region g).logicFailed).powerWaiters) ∧
  (∀ t g c cause, Does t (.ivrCellFail t g c cause)
    (fun s => g < 64 ∧ 8 ≤ c ∧ c < 10 ∧ s.power.netFail.contains (2 * (g / 8) + (c - 8)) = false) fun s =>
    let s1 := (({ s with power := { s.power with netFail := (2 * (g / 8) + (c - 8)) :: s.power.netFail } } : State).report 0x0701 5
        0xFF (8 * (g / 8)) [(8, 0xFF), (8, cause), (8, 0), (8, 0)]).event 0x0B01 0xFF [(8, 8 * (g / 8)), (8, 0xFF), (8, 0)]
    if s1.power.netFail.contains (2 * (g / 8) + (9 - c)) = true then
      ((List.range 8).foldl (fun s r => s.darken (8 * (g / 8) + r) 3) s1).powerWaiters
    else s1) ∧
  (∀ t g m, Does t (.powerGroupClose t g m)
    (fun s => (s.region g).logic = .poweringUp ∧ (s.region g).puDue ≤ s.now ∧ (200 * ftUs ≤ (s.region g).puPaused ∨ m = true)) fun s =>
    let s1 := s.modRegion g fun r => { r with puGroups := r.puGroups + 1, puLast := s.now }
    if 16 ≤ (s1.region g).puGroups then s1.regionOn g else s1) ∧
  (∀ t g, Does t (.powerGroupClose t g false)
    (fun s => (s.region g).logic = .poweringUp ∧ (s.region g).puPaused < 200 * ftUs ∧ (s.region g).puLast + 2000 ≤ s.now) fun s =>
    s.modRegion g fun r => { r with puPaused := r.puPaused + (s.now - ((s.region g).puLast + 2000)), puLast := s.now - 2000 })

/-- The rows of time: a PTP message is taken, answered or ignored, a master is lost, a time frame is sent, the servo takes or follows a source, loses it
or has none, a holdover ends, an edge of `SYNC_1PPS` is captured, the partner's capture arrives and the pair is dropped (R267 to R269, R271 to
R274). -/
def Obligations.TimeRowsAct : Prop :=
  (∀ t m a, Does t (.ptpMessageReceive t m (.announce a)) (fun s => s.time.takes m = true) fun s =>
    let a := { a with port := m.port, sender := m.identity }
    (s.modTime fun x => { x with masters := a :: x.masters.filter fun y => y.port != m.port || y.sender != m.identity }).selectMaster) ∧
  (∀ t m b, Does t (.ptpMessageReceive t m b)
    (fun s => s.time.takes m = true ∧ (∀ a, b ≠ .announce a) ∧ b ≠ .pdelayReq ∧ (∀ x y, b ≠ .pdelayResp x y) ∧ s.time.fromMaster m = true) fun s =>
    let s1 := s.modTime fun x => x.exchange s.now b
    if syncComplete b = true ∧ s1.time.ptpRx.isSome = true then s1.delayAsk m.port else s1) ∧
  (∀ t m, Does t (.ptpMessageReceive t m .pdelayReq) (fun s => s.time.takes m = true) fun s =>
    (s.modTime fun x => { x with ptpPeer := (m.port :: x.ptpPeer).dedup }).emit (.ptpPdelayResp m.port 0)) ∧
  (∀ t m a b, Does t (.ptpMessageReceive t m (.pdelayResp a b)) (fun s => s.time.takes m = true ∧ (∃ y ∈ s.time.master, y.port = m.port)) fun s =>
    s.modTime fun x => x.exchange s.now (.pdelayResp a b)) ∧
  (∀ t m b, Does t (.ptpMessageReceive t m b)
    (fun s => s.time.takes m = false ∨ ((∀ a, b ≠ .announce a) ∧ b ≠ .pdelayReq ∧ (∀ x y, b ≠ .pdelayResp x y) ∧ s.time.fromMaster m = false) ∨
      ((∃ x y, b = .pdelayResp x y) ∧ ∀ y ∈ s.time.master, y.port ≠ m.port)) fun s => s) ∧
  (∀ t port, Does t (.ptpMasterLoss t port) (fun _ => True) fun s =>
    (s.modTime fun x => { x with masters := x.masters.filter fun y => y.port != port }).selectMaster) ∧
  (∀ t p, Does t (.timeFrameSend t p) (fun s => (s.port p).st = .up) fun s =>
    let x := s.portTime p
    (s.modPortTime p fun x => { x with sent := (s.now :: x.sent).take 16, seq := x.seq + 1 }).sendFlit p (.time
      { txFt := s.now, echoTx := x.echoTx, echoRx := x.echoRx, srcDev := s.hub.devId, hops := if s.time.source = 0 then 255 else s.time.hops,
        state := s.time.state, seq := x.seq })) ∧
  (∀ t, Does t (.servoUpdate t) (fun s => s.time.state = 2 ∧ s.sourceLives = false) fun s =>
    (s.modTime fun x => { x.noSource with state := 3, holdSince := s.now, good := 0, bad := 0, lastUpd := s.now }).event 0x0303 0xFF s.time.eventArg) ∧
  (∀ t, Does t (.servoUpdate t) (fun s => (s.time.state = 2 → s.sourceLives = true) ∧ s.timeSource.code = 0) fun s =>
    s.modTime fun x => { (if x.state = 1 then { x.noSource with state := 0 } else x).coast s.now with good := 0, bad := 0 }) ∧
  (∀ t o, Does t (.servoUpdate t)
    (fun s => (s.time.state = 2 → s.sourceLives = true) ∧ s.timeSource.code ≠ 0 ∧ s.timeSource.offset = some o) fun s =>
    (s.modTime fun y => y.select s.timeSource).servo o) ∧
  (∀ t, Does t (.servoUpdate t)
    (fun s => (s.time.state = 2 → s.sourceLives = true) ∧ s.timeSource.code ≠ 0 ∧ s.timeSource.offset = none) fun s =>
    (s.modTime fun y => y.select s.timeSource).modTime fun x => x.coast s.now) ∧
  (∀ (x : TimeSt) now, x.slew = 0 → x.coast now = { x with rate := x.lastRate, lastUpd := now }) ∧
  (∀ t, Does t (.holdoverExpire t) (fun s => s.time.state = 3 ∧ s.time.holdSince + 600 * ftSec ≤ s.now) fun s =>
    s.modTime fun x => { x with state := 0 }) ∧
  (∀ t d i, Does t (.syncEdge t)
    (fun s => s.time.syncEn = true ∧ (∀ e, s.time.syncEdge = some e → e + ftMs ≤ s.now) ∧ s.syncTwin = some (d, i)) fun s =>
    ((s.modTime fun x => { x with syncEdge := some s.now, captures := s.now :: x.captures }).twinTimeSend d i).syncPairUp) ∧
  (∀ t c, Does t (.twinTimeReceive t c) (fun s => s.time.syncEn = true) fun s =>
    (s.modTime fun x => { x with partner := c :: x.partner }).syncPairUp) ∧
  (∀ t, Does t (.syncFollowerTimeout t) (fun s => s.time.syncOffset.isSome = true ∧ s.time.syncPair + 2 * ftSec ≤ s.now) fun s =>
    s.modTime fun x => { x with syncOffset := none })

/-! ## Rules of the whole device -/

/-- A step takes the command at the front of the queue and runs it with the queue's rest. An empty queue idles, which is the model's choice
(log 34). -/
def Obligations.StepTakesTheFront : Prop :=
  (∀ c rest (s : State), s.pending = c :: rest → step s = exec c { s with pending := rest }) ∧ ∀ s : State, s.pending = [] → step s = .next s

/-- What the register tables give for reset: the status register, the mailbox registers and roles, the event ring control and the time
registers (R276, R437, R438, R447, R459); no partition exists, no job is bound and nothing has been sent. -/
def Obligations.ResetLeaves : Prop :=
  (State.reset.pending = [] ∧ State.reset.sent = []) ∧
  (State.reset.hub.ready = false ∧ State.reset.hub.degraded = false ∧ State.reset.hub.hostload = false ∧ State.reset.hub.halted = false ∧
    State.reset.hub.heartbeat = 0) ∧
  ((State.reset.mbx 0).role = 1 ∧ ∀ mb, mb ≠ 0 → (State.reset.mbx mb).role = 0) ∧
  (∀ mb, (State.reset.mbx mb).enable = false ∧ (State.reset.mbx mb).irqEn = false ∧ (State.reset.mbx mb).acked = 0 ∧
    (State.reset.mbx mb).exec = 0 ∧ (State.reset.mbx mb).stalled = false ∧ (State.reset.mbx mb).cplTail = 0 ∧
    (State.reset.mbx mb).cplPhase = true ∧ (State.reset.mbx mb).cplHead = 0 ∧ (State.reset.mbx mb).rolePart = 0 ∧
    (State.reset.mbx mb).badDoorbell = false ∧ (State.reset.mbx mb).resetDone = false) ∧
  (State.reset.ev.tail = 0 ∧ State.reset.ev.phase = true ∧ State.reset.ev.head = 0 ∧ State.reset.ev.enable = false ∧
    State.reset.ev.holdoff = 0 ∧ State.reset.ev.mark = 0 ∧ State.reset.ev.lost = {}) ∧
  (State.reset.time.epoch = 0 ∧ State.reset.time.state = 0 ∧ State.reset.time.source = 0 ∧ State.reset.time.hops = 255 ∧
    State.reset.time.stepped = false ∧ State.reset.time.syncEn = false) ∧
  ∀ p, (State.reset.part p).exist = false ∧ State.reset.job p = none

/-- The memory of the device at reset has its canonical form. -/
def Obligations.ResetMemInv : Prop := State.reset.MemInv

/-- Every step keeps the canonical form of the device memory: byte addresses rise, and no entry holds the zero that a byte reads as that
nothing has written. That such a byte reads zero is the model's choice for pages that the Steward has not zeroed (log 2). -/
def Obligations.StepKeepsMemory : Prop := ∀ (s s' : State), s.MemInv → step s = .next s' → s'.MemInv

/-- Every command completes, whatever its operands and whatever the state: its effect is a next state, never a fault or a refusal, and the queue of
the commands that wait stands, so that what a step runs next was put there from outside. What the next state is, the statements of the rows say. -/
def Obligations.ExecKeepsQueue : Prop := ∀ (i : Instr) (s : State), ∃ t : State, exec i s = .next t ∧ t.pending = s.pending

/-- Arguments survive their packing: fields of any widths, packed in order by the rule of R449, are read back as they were, and whatever is
read with no reserved byte set packs to the same bytes. -/
def Obligations.ArgumentsRoundTrip : Prop :=
  (∀ fs : List (Nat × Nat), (∀ f ∈ fs, f.2 < 2 ^ f.1) → unpack (fs.map (·.1)) (pack fs) = some (fs.map (·.2))) ∧
  ∀ ws n vs, unpack ws n = some vs → vs.length = ws.length ∧ pack (ws.zip vs) = n ∧ ∀ f ∈ ws.zip vs, f.2 < 2 ^ f.1

/-- The product of R413 is additive in both factors and 1 is neutral, so the page digest of R414 is linear in the page's blocks: the digest of
the exclusive-OR of two pages under one index is the exclusive-OR of their digests and that of the zero page. -/
def Obligations.DigestsAreLinear : Prop :=
  (∀ a b c, gfMul (a ^^^ b) c = gfMul a c ^^^ gfMul b c) ∧ (∀ a b c, gfMul a (b ^^^ c) = gfMul a b ^^^ gfMul a c) ∧
  (∀ a, gfMul a 1 = a) ∧ (∀ a, gfMul 1 a = a) ∧
  ∀ i (xs ys : List (BitVec 128)), xs.length = ys.length →
    digestOf i (List.zipWith (· ^^^ ·) xs ys) = digestOf i xs ^^^ digestOf i ys ^^^ digestOf i (List.replicate xs.length 0)

/-- A Herald that decides a window retains its outcome packet with those of the last four steps and no older one, and sends it to every member;
asked by a member for an outcome that it retains, it answers with that packet (R47, R48). While the commit class is on hold for a change of its
routes the packet waits with the held ones (R359). -/
def Obligations.HeraldRetains : Prop :=
  (∀ (s : State) g w h, s.herald g = some h →
    (∃ h', (s.decideWindow g w).herald g = some h' ∧
      h'.outcomes = (h.packet s.hub.devId s.now w :: h.outcomes).filter fun x => decide (w.step < x.step + 4)) ∧
    ∀ m ∈ h.members, let p := s.outcomePacket m (h.packet s.hub.devId s.now w)
      if (s.rcfg 0).hold = true then p ∈ (s.decideWindow g w).routing.held
      else OutMsg.packet { p with epoch := (s.rcfg 0).ver } ∈ (s.decideWindow g w).sent) ∧
  (∀ t v h o, Gives t (.heraldQueryReceive t v)
    (fun s => s.voteValid v = true ∧ s.herald v.group = some h ∧ o ∈ h.outcomes ∧
      (h.outcomes.find? fun o => o.step == v.step && o.attempt == v.attempt) = some o) fun s s' =>
    if (s.rcfg 0).hold = true then s.outcomePacket v.device o ∈ s'.routing.held
    else OutMsg.packet { s.outcomePacket v.device o with epoch := (s.rcfg 0).ver } ∈ s'.sent)

/-- A full completion ring: the finished command's completion is kept and the mailbox stalls, the command's effect stands, a stalled mailbox
starts no command, and the completion is written when the host frees a slot (R444). -/
def Obligations.CompletionStalls : Prop :=
  (∀ (s : State) mb d st, mb < 16 → (s.mbx mb).running = some d → (s.mbx mb).discard = false → (s.mbx mb).cplFull = true →
    ((s.finish mb st).mbx mb).stalled = true ∧ ((s.finish mb st).mbx mb).running = none ∧
    ((s.finish mb st).mbx mb).cplRing = (s.mbx mb).cplRing ∧ ((s.finish mb st).mbx mb).cplTail = (s.mbx mb).cplTail ∧
    (∃ c, ((s.finish mb st).mbx mb).kept = some (c, d.irq) ∧ c.status = st ∧ c.tag = BitVec.ofNat 32 d.tag ∧
      c.opcode = BitVec.ofNat 16 d.opcode ∧ c.slot = d.slot) ∧
    (s.finish mb st).sites = s.sites ∧ (s.finish mb st).mem.dram = s.mem.dram ∧ (s.finish mb st).mem.map = s.mem.map) ∧
  (∀ f (s : State) mb e, (s.mbx mb).running = none → (s.mbx mb).stalled = true → CmdDef.start f s mb e = s) ∧
  (∀ (s : State) mb head c irq, (s.mbx mb).kept = some (c, irq) → ((s.mbx mb).cplTail + 1) % 64 ≠ head % 64 →
    ∃ s1 : State, s.cplHeadTo mb head = s1.badOps 64 mb ∧ (s1.mbx mb).stalled = false ∧ (s1.mbx mb).kept = none ∧
      (s1.mbx mb).cplTail = ((s.mbx mb).cplTail + 1) % 64 ∧
      Tbl.get {} (s1.mbx mb).cplRing (s.mbx mb).cplTail = { c with phase := (s.mbx mb).cplPhase })

/-- A mailbox reset: commands not started leave as `ABORTED` in the history, a running one goes on and its completion is discarded, the ring
and its registers start again, an owner claim is dropped and admin stays, `RESET_DONE` is set, and no other mailbox changes (R446). -/
def Obligations.MailboxResetLeaves : Prop :=
  (∀ (s : State) mb, mb < 16 →
    let m := s.mbx mb
    let m' := (s.mbReset mb).mbx mb
    m'.queue = [] ∧ m'.running = m.running ∧ m'.discard = m.running.isSome ∧
    m'.hist = (((m.queue.map fun d =>
      { opcode := BitVec.ofNat 16 d.opcode, tag := BitVec.ofNat 32 d.tag, status := stAborted, ackFt := d.ackFt, cplFt := s.now }) : List HistCmd).reverse ++
        m.hist).take 64 ∧
    m'.cplRing = [] ∧ m'.acked = 0 ∧ m'.exec = 0 ∧ m'.cplTail = 0 ∧ m'.cplHead = 0 ∧ m'.cplPhase = true ∧
    (m.role = 2 → m'.role = 0) ∧ (m.role = 1 → m'.role = 1) ∧ m'.resetDone = true) ∧
  (∀ (s : State) mb mb', mb' ≠ mb → (s.mbReset mb).mbx mb' = s.mbx mb') ∧
  (∀ (s : State) mb d st, (s.mbx mb).running = some d → (s.mbx mb).discard = true →
    ((s.finish mb st).mbx mb).cplRing = (s.mbx mb).cplRing ∧ ((s.finish mb st).mbx mb).cplTail = (s.mbx mb).cplTail ∧
    ((s.finish mb st).mbx mb).kept = (s.mbx mb).kept ∧ ((s.finish mb st).mbx mb).running = none ∧
    ((s.finish mb st).mbx mb).discard = false ∧ (s.finish mb st).sent = s.sent)

/-- Events never wait: every event is recorded as the latest of its code, an unmasked one that finds the ring full is dropped and counted in
`EV_LOST`, and when the host makes room one `EVENTS_LOST` event carries the count (R460). A `COUNTER_OVERFLOW` is the latest of its code unless it
brings the count of its own code to its end, which raises another (R330); a count that comes to its end raises one on the way. -/
def Obligations.EventsNeverWait : Prop :=
  (∀ (s : State) code part arg,
    (code ≠ 0x0103 ∨ ((Tbl.get ({}, {}) s.ev.latest code).2.v < ctr48Max ∧ s.ev.lost.v < ctr48Max)) →
    ∃ e : EventRec, (Tbl.get ({}, {}) (State.event s code part arg).ev.latest code).1 = e ∧ e.code = code ∧ e.part = part ∧
      e.ft = s.now ∧ e.arg = BitVec.ofNat 320 (pack arg)) ∧
  (∀ (s : State) code part arg, s.ev.enable = true → s.masked 0 code = false → s.evFull = true →
    (Tbl.get ({}, {}) s.ev.latest code).2.v < ctr48Max → s.ev.lost.v < ctr48Max →
    (State.event s code part arg).ev.ring = s.ev.ring ∧ (State.event s code part arg).ev.tail = s.ev.tail ∧
    (State.event s code part arg).ev.head = s.ev.head ∧ (State.event s code part arg).ev.lost = (ctrAdd s.ev.lost 1).1 ∧
    (State.event s code part arg).ev.dropped = s.ev.dropped + 1) ∧
  (∀ (s : State) code part arg, s.ev.enable = true → s.masked 0 code = false → s.evFull = true →
    (State.event s code part arg).ev.ring = s.ev.ring ∧ (State.event s code part arg).ev.tail = s.ev.tail ∧
    s.ev.dropped + 1 ≤ (State.event s code part arg).ev.dropped) ∧
  (∀ t h, Does t (.evHeadWrite t h)
    (fun s => s.hub.inReset = false ∧ s.ev.dropped ≠ 0 ∧ (s.ev.tail + 1) % 2048 ≠ h % 2048) fun s =>
    ({ s with ev := { s.ev with head := h % 2048, dropped := 0 } } : State).event 0x0105 0xFF [(64, s.ev.dropped)])

/-- The frames of raising an event and of completing a command. An event leaves all but the event ring, the interrupt table, the management
ports and what is sent; a completion leaves all but its mailbox, the locks of partitions, the list of the commands that wait for zeroed pages,
the interrupt table, the management ports and what is sent. -/
def Obligations.CommandFrame : Prop :=
  (∀ s code part arg,
    let s' := State.event s code part arg
    (s'.sites = s.sites ∧ s'.regions = s.regions ∧ s'.parts = s.parts ∧ s'.routers = s.routers ∧ s'.ports = s.ports ∧
      s'.heralds = s.heralds ∧ s'.outcomes = s.outcomes ∧ s'.alm = s.alm) ∧
    (s'.hub = s.hub ∧ s'.fuses = s.fuses ∧ s'.flash = s.flash ∧ s'.power = s.power ∧ s'.sec = s.sec ∧ s'.pins = s.pins) ∧
    (s'.mem = s.mem ∧ s'.dma = s.dma ∧ s'.routing = s.routing ∧ s'.time = s.time ∧ s'.col = s.col ∧ s'.mbs = s.mbs ∧
      s'.pending = s.pending ∧ s'.free = s.free)) ∧
  (∀ s mb st detail result,
    let s' := State.finish s mb st detail result
    (s'.sites = s.sites ∧ s'.regions = s.regions ∧ s'.routers = s.routers ∧ s'.ports = s.ports ∧ s'.heralds = s.heralds ∧
      s'.outcomes = s.outcomes ∧ s'.alm = s.alm ∧ s'.ev = s.ev) ∧
    (s'.hub = s.hub ∧ s'.fuses = s.fuses ∧ s'.flash = s.flash ∧ s'.power = s.power ∧ s'.sec = s.sec ∧ s'.pins = s.pins) ∧
    (s'.dma = s.dma ∧ s'.routing = s.routing ∧ s'.time = s.time ∧ s'.col = s.col ∧ s'.pending = s.pending ∧ s'.free = s.free) ∧
    s'.mem = { s.mem with allocWait := s'.mem.allocWait } ∧
    (∀ p, s'.part p = { s.part p with lock := (s'.part p).lock, lockWait := (s'.part p).lockWait }) ∧
    ∀ mb', mb' ≠ mb → s'.mbx mb' = s.mbx mb')

/-- A command that fails a check completes with that check's status and has no other effect: readiness first, then the role, then reserved
bytes; an unclaimed mailbox runs only what is free to it (R445, R447, R449). That the checks come in this order is the model's choice (log 25). -/
def Obligations.GateRefuses : Prop :=
  (∀ f (s : State) mb d e st, (s.mbx mb).running = none → (s.mbx mb).queue.head? = some d → (s.mbx mb).stalled = false →
    (s.hub.hostload = false ∨ mb = 0) → knownOps.contains d.opcode = true → d.opcode = f.op → f.sel d = true →
    (s.taken mb d e).gate f (f.cmd mb d) = st → st ≠ 0 →
    CmdDef.start f s mb e = ((s.taken mb d e).finish mb st).badOps 64 mb) ∧
  (∀ (s : State) (f : CmdDef) c, f.early = false → (s.hub.ready = false ∨ s.hub.halted = true) → State.gate s f c = stNotReady) ∧
  (∀ (s : State) f c, s.hub.ready = true → s.hub.halted = false → roleOk f.role (s.mbx c.mb) c.mb c.part = false → State.gate s f c = stNoCredential) ∧
  (∀ (s : State) f c, s.hub.ready = true → s.hub.halted = false → roleOk f.role (s.mbx c.mb) c.mb c.part = true → c.d.reservedZero = false →
    State.gate s f c = stBadArgument) ∧
  (∀ r (m : Mailbox) mb part, m.role = 0 → roleOk r m mb part = true → r = .free ∨ (r = .claim ∧ mb < 16) ∨ (r = .session ∧ 16 ≤ mb)) ∧
  (∀ (s : State) mb d rest, (s.mbx mb).running = none → (s.mbx mb).stalled = false → (s.mbx mb).queue = d :: rest →
    knownOps.contains d.opcode = false → (s.hub.hostload = false ∨ mb = 0) →
    State.badOps 1 s mb = (s.modMb mb fun m => { m with queue := rest, running := some d, exec := d.slot }).finish mb stBadOpcode)

/-- The logical grid: block and local index of tile T(x,y), and back (R60). -/
def Obligations.TilesHaveBlocks : Prop :=
  (∀ x y, x < 128 → y < 64 →
    tileBlock (x + 128 * y) = 8 * (4 * (y / 8 / 4) + x / 16 / 2) + (2 * (y / 8 % 4) + x / 16 % 2) ∧
    tileLocal (x + 128 * y) = x % 16 + 16 * (y % 8) ∧ tileLocal (x + 128 * y) ≤ 127 ∧ tileBlock (x + 128 * y) ≤ 63) ∧
  (∀ t, t < 8192 → tileOf (tileBlock t) (tileLocal t) = t) ∧
  ∀ g k, g < 64 → k < 128 → tileBlock (tileOf g k) = g ∧ tileLocal (tileOf g k) = k ∧ tileOf g k < 8192

/-- A time frame on a port in service: delay and offset by the equations of R270, and the discard of a frame whose `ECHO_TX` is 0 or none of the
last 16 sent, or whose delay is out of range: such a frame leaves no measurement, only the echo fields of the next frame sent (log 8). The port
remembers the last 16 frames it sent. -/
def Obligations.FramesMeasure : Prop :=
  (∀ t p f, Does t (.timeFrameReceive t p f)
    (fun s => (s.port p).st = .up ∧ f.echoTx ≠ 0 ∧ (s.portTime p).sent.contains f.echoTx = true ∧
      0 ≤ (((s.now : Int) - f.echoTx) - ((f.txFt : Int) - f.echoRx)) / 2 ∧ (((s.now : Int) - f.echoTx) - ((f.txFt : Int) - f.echoRx)) / 2 ≤ 40000) fun s =>
    (s.modPortTime p fun x => { x with echoTx := f.txFt, echoRx := s.now }).modPortTime p fun x =>
      { x with last := some f, lastRx := s.now,
               delay := (((s.now : Int) - f.echoTx) - ((f.txFt : Int) - f.echoRx)) / 2,
               offset := (((f.echoTx : Int) - f.echoRx) + ((s.now : Int) - f.txFt)) / 2 - (s.portTime p).alpha }) ∧
  (∀ t p f, Does t (.timeFrameReceive t p f)
    (fun s => (s.port p).st = .up ∧ (f.echoTx = 0 ∨ (s.portTime p).sent.contains f.echoTx = false ∨
      (((s.now : Int) - f.echoTx) - ((f.txFt : Int) - f.echoRx)) / 2 < 0 ∨ 40000 < (((s.now : Int) - f.echoTx) - ((f.txFt : Int) - f.echoRx)) / 2)) fun s =>
    s.modPortTime p fun x => { x with echoTx := f.txFt, echoRx := s.now }) ∧
  (∀ t p, Gives t (.timeFrameSend t p) (fun s => (s.port p).st = .up) fun s s' =>
    (s'.portTime p).sent = (s.now :: (s.portTime p).sent).take 16)

/-- The seal of a prepared attempt: every granule of the attempt's masks changes its live side and no other does, the sealed generation keeps
the old sides and digests, the step goes on by one at attempt 0, and at most `RETAIN_DEPTH` − 1 earlier generations stay (R24 to R26, R53). -/
def Obligations.SealMovesSides : Prop :=
  ∀ (j : Job) now i, j.prepared = some i →
    (∀ page, Tbl.get 0 (j.seal now).live page =
      ((j.maskTable.filter fun e => e.1 == page).foldl (fun a e => a ^^^ e.2) (Tbl.get 0 j.live page))) ∧
    (j.seal now).gens.head? = (if j.depth ≤ 1 then none else some { gen := j.step, lrec := j.lastSealed, live := j.live, digests := j.digSealed }) ∧
    (j.seal now).gens.length ≤ j.depth - 1 ∧ (j.seal now).step = j.step + 1 ∧ (j.seal now).attempt = 0 ∧ (j.seal now).prepared = none ∧
    (j.seal now).dirty = [] ∧ (j.seal now).digSealed = j.digWorking ∧ (j.seal now).lastSealed.sealFt = now ∧
    (Tbl.get {} (j.seal now).ledger i : LedgerRec).state = .sealed
end

