-- ==== Sys2Proof/Laws/State.lean ====
section
/-! SUPPORT. The small lemmas of tables, of the state's updates and of memory: what each update changes and what it leaves. -/

namespace Sys2Proof

/-! ## Tables -/

theorem Tbl.get_drop_same {α : Type} (d : α) (i : Nat) (t : Tbl α) : Tbl.get d (Tbl.drop i t) i = d := by
  induction t with
  | nil => rfl
  | cons e t ih =>
    obtain ⟨k, v⟩ := e
    by_cases h : i = k
    · simp [Tbl.drop, h]; rw [← h]; exact ih
    · simp [Tbl.drop, h, Tbl.get, ih]

theorem Tbl.get_drop_other {α : Type} (d : α) {i j : Nat} (h : j ≠ i) (t : Tbl α) :
    Tbl.get d (Tbl.drop i t) j = Tbl.get d t j := by
  induction t with
  | nil => rfl
  | cons e t ih =>
    obtain ⟨k, v⟩ := e
    by_cases hk : i = k
    · subst hk; simp [Tbl.drop, Tbl.get, h, ih]
    · by_cases hj : j = k <;> simp [Tbl.drop, Tbl.get, hk, hj, ih]

theorem Tbl.get_put_same {α : Type} (d : α) (i : Nat) (x : α) (t : Tbl α) : Tbl.get d (Tbl.put i x t) i = x := by
  induction t with
  | nil => simp [Tbl.put, Tbl.get]
  | cons e t ih =>
    obtain ⟨k, v⟩ := e
    by_cases h1 : i < k
    · simp [Tbl.put, h1, Tbl.get]
    · by_cases h2 : i = k
      · simp [Tbl.put, h2, Tbl.get]
      · simp [Tbl.put, h1, h2, Tbl.get, ih]

theorem Tbl.get_put_other {α : Type} (d : α) {i j : Nat} (h : j ≠ i) (x : α) (t : Tbl α) :
    Tbl.get d (Tbl.put i x t) j = Tbl.get d t j := by
  induction t with
  | nil => simp [Tbl.put, Tbl.get, h]
  | cons e t ih =>
    obtain ⟨k, v⟩ := e
    by_cases h1 : i < k
    · simp [Tbl.put, h1, Tbl.get, h]
    · by_cases h2 : i = k
      · subst h2; simp [Tbl.put, Tbl.get, h]
      · by_cases hj : j = k <;> simp [Tbl.put, h1, h2, Tbl.get, hj, ih]

/-- Reading the key that was written gives the value, in every table. -/
@[simp] theorem Tbl.get_set_same {α : Type} [DecidableEq α] (d : α) (i : Nat) (x : α) (t : Tbl α) :
    Tbl.get d (Tbl.set d i x t) i = x := by
  by_cases h : x = d
  · subst h; simp [Tbl.set, Tbl.get_drop_same]
  · simp [Tbl.set, h, Tbl.get_put_same]

/-- A write leaves every other key. -/
theorem Tbl.get_set_other {α : Type} [DecidableEq α] (d : α) {i j : Nat} (h : j ≠ i) (x : α) (t : Tbl α) :
    Tbl.get d (Tbl.set d i x t) j = Tbl.get d t j := by
  by_cases hx : x = d
  · simp [Tbl.set, hx, Tbl.get_drop_other _ h]
  · simp [Tbl.set, hx, Tbl.get_put_other _ h]

/-! ## The canonical form -/

theorem Tbl.mem_drop {α : Type} {i : Nat} {t : Tbl α} {e : Nat × α} (h : e ∈ Tbl.drop i t) : e ∈ t := by
  induction t with
  | nil => exact h
  | cons a t ih =>
    obtain ⟨k, v⟩ := a
    by_cases hk : i = k
    · simp [Tbl.drop, hk] at h; rw [← hk] at h; exact .tail _ (ih h)
    · simp [Tbl.drop, hk] at h
      rcases h with h | h
      · simp [h]
      · exact .tail _ (ih h)

theorem Tbl.mem_put {α : Type} {i : Nat} {x : α} {t : Tbl α} {e : Nat × α} (h : e ∈ Tbl.put i x t) : e = (i, x) ∨ e ∈ t := by
  induction t with
  | nil => left; simpa [Tbl.put] using h
  | cons a t ih =>
    obtain ⟨k, v⟩ := a
    by_cases h1 : i < k
    · simp [Tbl.put, h1] at h; simp; tauto
    · by_cases h2 : i = k
      · simp [Tbl.put, h2] at h; simp; rcases h with h | h
        · left; rw [h, h2]
        · tauto
      · simp [Tbl.put, h1, h2] at h; simp; rcases h with h | h
        · tauto
        · rcases ih h with h | h <;> tauto

theorem Tbl.wf_drop {α : Type} [DecidableEq α] {d : α} (i : Nat) {t : Tbl α} (h : Tbl.wf d t = true) : Tbl.wf d (Tbl.drop i t) = true := by
  induction t with
  | nil => rfl
  | cons e t ih =>
    obtain ⟨k, v⟩ := e
    simp [Tbl.wf] at h
    by_cases hk : i = k
    · simp [Tbl.drop, hk]; rw [← hk]; exact ih h.2
    · simp [Tbl.drop, hk, Tbl.wf, h.1.1, ih h.2]
      exact fun a b hb => h.1.2 a b (Tbl.mem_drop hb)

theorem Tbl.wf_put {α : Type} [DecidableEq α] {d : α} (i : Nat) {x : α} (hx : x ≠ d) {t : Tbl α} (h : Tbl.wf d t = true) :
    Tbl.wf d (Tbl.put i x t) = true := by
  induction t with
  | nil => simp [Tbl.put, Tbl.wf, hx]
  | cons e t ih =>
    obtain ⟨k, v⟩ := e
    simp [Tbl.wf] at h
    by_cases h1 : i < k
    · simp [Tbl.put, h1, Tbl.wf, hx, h.1.1, h.2]
      exact ⟨fun a b hb => lt_trans h1 (h.1.2 a b hb), fun a b hb => h.1.2 a b hb⟩
    · by_cases h2 : i = k
      · subst h2; simp [Tbl.put, Tbl.wf, hx, h.2]; exact fun a b hb => h.1.2 a b hb
      · have hlt : k < i := by omega
        simp [Tbl.put, h1, h2, Tbl.wf, h.1.1, ih h.2]
        intro a b hb
        rcases Tbl.mem_put hb with hb | hb
        · cases hb; exact hlt
        · exact h.1.2 a b hb

/-- A write keeps the canonical form of a table. -/
theorem Tbl.wf_set {α : Type} [DecidableEq α] {d : α} (i : Nat) (x : α) {t : Tbl α} (h : Tbl.wf d t = true) :
    Tbl.wf d (Tbl.set d i x t) = true := by
  by_cases hx : x = d
  · simp [Tbl.set, hx, Tbl.wf_drop i h]
  · simp [Tbl.set, hx, Tbl.wf_put i hx h]

end Sys2Proof

namespace Sys2Proof.Machine

/-! ## Memory (R195, R388) -/

theorem memWf_write {m : List Host.Cell} (h : memWf m = true) (a : Nat) (b : Byte) : memWf (memWrite m a b) = true := Tbl.wf_set a b h

theorem memWf_writeN (bs : List Byte) : ∀ {m : List Host.Cell} (_ : memWf m = true) (a : Nat), memWf (memWriteN m a bs) = true := by
  induction bs with
  | nil => intro m h a; exact h
  | cons b bs ih => intro m h a; exact ih (memWf_write h a b) (a + 1)

/-- Reading back the byte written. -/
@[simp] theorem memRead_write_same (m : List Host.Cell) (a : Nat) (b : Byte) : memRead (memWrite m a b) a = b := Tbl.get_set_same 0 a b m

/-- A write leaves every other byte. -/
theorem memRead_write_other (m : List Host.Cell) {a x : Nat} (h : x ≠ a) (b : Byte) : memRead (memWrite m a b) x = memRead m x :=
  Tbl.get_set_other 0 h b m

theorem tblWf_filter {α : Type} [DecidableEq α] {d : α} (p : Nat × α → Bool) {t : Tbl α} (h : Tbl.wf d t = true) :
    Tbl.wf d (t.filter p) = true := by
  induction t with
  | nil => rfl
  | cons e t ih =>
    obtain ⟨k, v⟩ := e
    simp [Tbl.wf] at h
    by_cases hp : p (k, v) = true
    · simp [hp, Tbl.wf, h.1.1, ih h.2]; exact fun a b hb => .inr (h.1.2 a b hb)
    · simp [hp, ih h.2]

theorem tblWf_append {α : Type} [DecidableEq α] {d : α} {t u : Tbl α} (ht : Tbl.wf d t = true) (hu : Tbl.wf d u = true)
    (h : ∀ x ∈ t, ∀ y ∈ u, x.1 < y.1) : Tbl.wf d (t ++ u) = true := by
  induction t with
  | nil => exact hu
  | cons e t ih =>
    obtain ⟨k, v⟩ := e
    simp [Tbl.wf] at ht
    simp [Tbl.wf, ht.1.1, ih ht.2 fun x hx y hy => h x (.tail _ hx) y hy]
    exact ⟨ht.1.2, fun a b hb => h (k, v) (.head _) (a, b) hb⟩

theorem memClean_bound {n : Nat} (r : List Host.Cell) : ∀ lo, ∀ x ∈ memClean n lo r, lo ≤ x.1 ∧ x.1 < n := by
  induction r with
  | nil => intro lo x hx; exact absurd hx (by simp [memClean])
  | cons c r ih =>
    intro lo x hx
    by_cases h : lo ≤ c.1 ∧ c.1 < n ∧ c.2 ≠ 0
    · simp only [memClean, h, if_true, ne_eq, not_false_eq_true, and_self, List.mem_cons] at hx
      rcases hx with hx | hx
      · subst hx; exact ⟨h.1, h.2.1⟩
      · have := ih _ x hx; omega
    · simp only [memClean, h, if_false] at hx; exact ih _ x hx

theorem memClean_wf {n a : Nat} (r : List Host.Cell) : ∀ lo,
    Tbl.wf (0 : Byte) ((memClean n lo r).map fun c => (c.1 + a, c.2)) = true := by
  induction r with
  | nil => intro lo; rfl
  | cons c r ih =>
    intro lo
    by_cases h : lo ≤ c.1 ∧ c.1 < n ∧ c.2 ≠ 0
    · have hb := memClean_bound (n := n) r (c.1 + 1)
      simp only [memClean, h, if_true, ne_eq, not_false_eq_true, and_self, List.map_cons, Tbl.wf, decide_true, Bool.true_and,
        Bool.and_eq_true, List.all_eq_true, decide_eq_true_eq, List.mem_map]
      refine ⟨?_, ih _⟩
      rintro _ ⟨y, hy, rfl⟩
      have := (hb y hy).1
      simp; omega
    · simp only [memClean, h, if_false]; exact ih lo

/-- Replacing a range keeps the canonical form, whatever bytes are given. -/
theorem memWf_blit {m : List Host.Cell} (h : memWf m = true) (a n : Nat) (r : List Host.Cell) : memWf (memBlit m a n r) = true := by
  refine tblWf_append (tblWf_append (tblWf_filter _ h) (memClean_wf r 0) ?_) (tblWf_filter _ h) ?_
  · intro x hx y hy
    simp only [List.mem_map] at hy
    obtain ⟨z, _, rfl⟩ := hy
    simp at hx
    simp; omega
  · intro x hx y hy
    simp at hy
    simp only [List.mem_append, List.mem_map] at hx
    rcases hx with hx | ⟨z, hz, rfl⟩
    · simp at hx; omega
    · have := (memClean_bound r 0 z hz).2
      simp; omega

theorem reset_memWf : memWf State.reset.mem.dram = true := rfl

/-! ## Updates -/

@[simp] theorem modMb_same (s : State) (i : Nat) (f : Mailbox → Mailbox) : (s.modMb i f).mbx i = f (s.mbx i) := by simp [State.modMb, State.mbx]
theorem modMb_other (s : State) {i j : Nat} (h : j ≠ i) (f : Mailbox → Mailbox) : (s.modMb i f).mbx j = s.mbx j := by
  simp [State.modMb, State.mbx, Tbl.get_set_other _ h]
@[simp] theorem modPart_same (s : State) (i : Nat) (f : Part → Part) : (s.modPart i f).part i = f (s.part i) := by simp [State.modPart, State.part]
theorem modPart_other (s : State) {i j : Nat} (h : j ≠ i) (f : Part → Part) : (s.modPart i f).part j = s.part j := by
  simp [State.modPart, State.part, Tbl.get_set_other _ h]
@[simp] theorem modSite_same (s : State) (i : Nat) (f : Site → Site) : (s.modSite i f).site i = f (s.site i) := by simp [State.modSite, State.site]
theorem modSite_other (s : State) {i j : Nat} (h : j ≠ i) (f : Site → Site) : (s.modSite i f).site j = s.site j := by
  simp [State.modSite, State.site, Tbl.get_set_other _ h]
@[simp] theorem modRegion_same (s : State) (i : Nat) (f : Region → Region) : (s.modRegion i f).region i = f (s.region i) := by
  simp [State.modRegion, State.region]
theorem modRegion_other (s : State) {i j : Nat} (h : j ≠ i) (f : Region → Region) : (s.modRegion i f).region j = s.region j := by
  simp [State.modRegion, State.region, Tbl.get_set_other _ h]
@[simp] theorem modPort_same (s : State) (i : Nat) (f : Port → Port) : (s.modPort i f).port i = f (s.port i) := by simp [State.modPort, State.port]
theorem modPort_other (s : State) {i j : Nat} (h : j ≠ i) (f : Port → Port) : (s.modPort i f).port j = s.port j := by
  simp [State.modPort, State.port, Tbl.get_set_other _ h]
@[simp] theorem modRouter_same (s : State) (i : Nat) (f : Router → Router) : (s.modRouter i f).router i = f (s.router i) := by
  simp [State.modRouter, State.router]
@[simp] theorem setHerald_same (s : State) (g : Nat) (h : Option Herald) : (s.setHerald g h).herald g = h := by
  simp [State.setHerald, State.herald]
@[simp] theorem modChan_same (s : State) (i : Nat) (f : Mc → Mc) : (s.modChan i f).chan i = f (s.chan i) := by simp [State.modChan, State.chan]
@[simp] theorem modMgmt_same (s : State) (i : Nat) (f : MgmtPort → MgmtPort) : (s.modMgmt i f).mgmtPort i = f (s.mgmtPort i) := by
  simp [State.modMgmt, State.mgmtPort]
@[simp] theorem modJob_same (s : State) (p : Nat) (f : Job → Job) : (s.modJob p f).job p = (s.job p).map f := by
  simp [State.modJob, State.job]
@[simp] theorem modTwin_same (s : State) (p : Nat) (f : Twin → Twin) : ((s.modTwin p f).part p).twin = f (s.part p).twin := by
  simp [State.modTwin]

@[simp] theorem adv_now (s : State) (t : Nat) : (s.adv t).now = max s.now t := rfl

@[simp] theorem adv_pending (s : State) (t : Nat) : (s.adv t).pending = s.pending := rfl
@[simp] theorem adv_fuses (s : State) (t : Nat) : (s.adv t).fuses = s.fuses := rfl
@[simp] theorem adv_flash (s : State) (t : Nat) : (s.adv t).flash = s.flash := rfl
@[simp] theorem adv_power (s : State) (t : Nat) : (s.adv t).power = s.power := rfl
@[simp] theorem adv_sec (s : State) (t : Nat) : (s.adv t).sec = s.sec := rfl
@[simp] theorem adv_pins (s : State) (t : Nat) : (s.adv t).pins = s.pins := rfl
@[simp] theorem adv_sites (s : State) (t : Nat) : (s.adv t).sites = s.sites := rfl
@[simp] theorem adv_regions (s : State) (t : Nat) : (s.adv t).regions = s.regions := rfl
@[simp] theorem adv_parts (s : State) (t : Nat) : (s.adv t).parts = s.parts := rfl
@[simp] theorem adv_heralds (s : State) (t : Nat) : (s.adv t).heralds = s.heralds := rfl
@[simp] theorem adv_outcomes (s : State) (t : Nat) : (s.adv t).outcomes = s.outcomes := rfl
@[simp] theorem adv_alm (s : State) (t : Nat) : (s.adv t).alm = s.alm := rfl
@[simp] theorem adv_col (s : State) (t : Nat) : (s.adv t).col = s.col := rfl
@[simp] theorem adv_ev (s : State) (t : Nat) : (s.adv t).ev = s.ev := rfl
@[simp] theorem adv_mbs (s : State) (t : Nat) : (s.adv t).mbs = s.mbs := rfl
@[simp] theorem adv_mgmt (s : State) (t : Nat) : (s.adv t).mgmt = s.mgmt := rfl
@[simp] theorem adv_msix (s : State) (t : Nat) : (s.adv t).msix = s.msix := rfl
@[simp] theorem adv_ports (s : State) (t : Nat) : (s.adv t).ports = s.ports := rfl
@[simp] theorem adv_routers (s : State) (t : Nat) : (s.adv t).routers = s.routers := rfl
@[simp] theorem adv_routing (s : State) (t : Nat) : (s.adv t).routing = s.routing := rfl
@[simp] theorem adv_dma (s : State) (t : Nat) : (s.adv t).dma = s.dma := rfl
@[simp] theorem adv_mem (s : State) (t : Nat) : (s.adv t).mem = s.mem := rfl
@[simp] theorem adv_sent (s : State) (t : Nat) : (s.adv t).sent = s.sent := rfl
@[simp] theorem adv_free (s : State) (t : Nat) : (s.adv t).free = s.free := rfl
@[simp] theorem adv_hub (s : State) (t : Nat) : (s.adv t).hub = s.hub := rfl
@[simp] theorem modMb_pending (s : State) (i : Nat) (f : Mailbox → Mailbox) : (s.modMb i f).pending = s.pending := rfl
@[simp] theorem modMb_fuses (s : State) (i : Nat) (f : Mailbox → Mailbox) : (s.modMb i f).fuses = s.fuses := rfl
@[simp] theorem modMb_flash (s : State) (i : Nat) (f : Mailbox → Mailbox) : (s.modMb i f).flash = s.flash := rfl
@[simp] theorem modMb_power (s : State) (i : Nat) (f : Mailbox → Mailbox) : (s.modMb i f).power = s.power := rfl
@[simp] theorem modMb_sec (s : State) (i : Nat) (f : Mailbox → Mailbox) : (s.modMb i f).sec = s.sec := rfl
@[simp] theorem modMb_pins (s : State) (i : Nat) (f : Mailbox → Mailbox) : (s.modMb i f).pins = s.pins := rfl
@[simp] theorem modMb_sites (s : State) (i : Nat) (f : Mailbox → Mailbox) : (s.modMb i f).sites = s.sites := rfl
@[simp] theorem modMb_regions (s : State) (i : Nat) (f : Mailbox → Mailbox) : (s.modMb i f).regions = s.regions := rfl
@[simp] theorem modMb_parts (s : State) (i : Nat) (f : Mailbox → Mailbox) : (s.modMb i f).parts = s.parts := rfl
@[simp] theorem modMb_heralds (s : State) (i : Nat) (f : Mailbox → Mailbox) : (s.modMb i f).heralds = s.heralds := rfl
@[simp] theorem modMb_outcomes (s : State) (i : Nat) (f : Mailbox → Mailbox) : (s.modMb i f).outcomes = s.outcomes := rfl
@[simp] theorem modMb_alm (s : State) (i : Nat) (f : Mailbox → Mailbox) : (s.modMb i f).alm = s.alm := rfl
@[simp] theorem modMb_col (s : State) (i : Nat) (f : Mailbox → Mailbox) : (s.modMb i f).col = s.col := rfl
@[simp] theorem modMb_ev (s : State) (i : Nat) (f : Mailbox → Mailbox) : (s.modMb i f).ev = s.ev := rfl
@[simp] theorem modMb_mgmt (s : State) (i : Nat) (f : Mailbox → Mailbox) : (s.modMb i f).mgmt = s.mgmt := rfl
@[simp] theorem modMb_msix (s : State) (i : Nat) (f : Mailbox → Mailbox) : (s.modMb i f).msix = s.msix := rfl
@[simp] theorem modMb_ports (s : State) (i : Nat) (f : Mailbox → Mailbox) : (s.modMb i f).ports = s.ports := rfl
@[simp] theorem modMb_routers (s : State) (i : Nat) (f : Mailbox → Mailbox) : (s.modMb i f).routers = s.routers := rfl
@[simp] theorem modMb_routing (s : State) (i : Nat) (f : Mailbox → Mailbox) : (s.modMb i f).routing = s.routing := rfl
@[simp] theorem modMb_dma (s : State) (i : Nat) (f : Mailbox → Mailbox) : (s.modMb i f).dma = s.dma := rfl
@[simp] theorem modMb_mem (s : State) (i : Nat) (f : Mailbox → Mailbox) : (s.modMb i f).mem = s.mem := rfl
@[simp] theorem modMb_sent (s : State) (i : Nat) (f : Mailbox → Mailbox) : (s.modMb i f).sent = s.sent := rfl
@[simp] theorem modMb_free (s : State) (i : Nat) (f : Mailbox → Mailbox) : (s.modMb i f).free = s.free := rfl
@[simp] theorem modMb_hub (s : State) (i : Nat) (f : Mailbox → Mailbox) : (s.modMb i f).hub = s.hub := rfl
@[simp] theorem modMb_time (s : State) (i : Nat) (f : Mailbox → Mailbox) : (s.modMb i f).time = s.time := rfl
@[simp] theorem modPart_pending (s : State) (i : Nat) (f : Part → Part) : (s.modPart i f).pending = s.pending := rfl
@[simp] theorem modPart_fuses (s : State) (i : Nat) (f : Part → Part) : (s.modPart i f).fuses = s.fuses := rfl
@[simp] theorem modPart_flash (s : State) (i : Nat) (f : Part → Part) : (s.modPart i f).flash = s.flash := rfl
@[simp] theorem modPart_power (s : State) (i : Nat) (f : Part → Part) : (s.modPart i f).power = s.power := rfl
@[simp] theorem modPart_sec (s : State) (i : Nat) (f : Part → Part) : (s.modPart i f).sec = s.sec := rfl
@[simp] theorem modPart_pins (s : State) (i : Nat) (f : Part → Part) : (s.modPart i f).pins = s.pins := rfl
@[simp] theorem modPart_sites (s : State) (i : Nat) (f : Part → Part) : (s.modPart i f).sites = s.sites := rfl
@[simp] theorem modPart_regions (s : State) (i : Nat) (f : Part → Part) : (s.modPart i f).regions = s.regions := rfl
@[simp] theorem modPart_heralds (s : State) (i : Nat) (f : Part → Part) : (s.modPart i f).heralds = s.heralds := rfl
@[simp] theorem modPart_outcomes (s : State) (i : Nat) (f : Part → Part) : (s.modPart i f).outcomes = s.outcomes := rfl
@[simp] theorem modPart_alm (s : State) (i : Nat) (f : Part → Part) : (s.modPart i f).alm = s.alm := rfl
@[simp] theorem modPart_col (s : State) (i : Nat) (f : Part → Part) : (s.modPart i f).col = s.col := rfl
@[simp] theorem modPart_ev (s : State) (i : Nat) (f : Part → Part) : (s.modPart i f).ev = s.ev := rfl
@[simp] theorem modPart_mbs (s : State) (i : Nat) (f : Part → Part) : (s.modPart i f).mbs = s.mbs := rfl
@[simp] theorem modPart_mgmt (s : State) (i : Nat) (f : Part → Part) : (s.modPart i f).mgmt = s.mgmt := rfl
@[simp] theorem modPart_msix (s : State) (i : Nat) (f : Part → Part) : (s.modPart i f).msix = s.msix := rfl
@[simp] theorem modPart_ports (s : State) (i : Nat) (f : Part → Part) : (s.modPart i f).ports = s.ports := rfl
@[simp] theorem modPart_routers (s : State) (i : Nat) (f : Part → Part) : (s.modPart i f).routers = s.routers := rfl
@[simp] theorem modPart_routing (s : State) (i : Nat) (f : Part → Part) : (s.modPart i f).routing = s.routing := rfl
@[simp] theorem modPart_dma (s : State) (i : Nat) (f : Part → Part) : (s.modPart i f).dma = s.dma := rfl
@[simp] theorem modPart_mem (s : State) (i : Nat) (f : Part → Part) : (s.modPart i f).mem = s.mem := rfl
@[simp] theorem modPart_sent (s : State) (i : Nat) (f : Part → Part) : (s.modPart i f).sent = s.sent := rfl
@[simp] theorem modPart_free (s : State) (i : Nat) (f : Part → Part) : (s.modPart i f).free = s.free := rfl
@[simp] theorem modPart_hub (s : State) (i : Nat) (f : Part → Part) : (s.modPart i f).hub = s.hub := rfl
@[simp] theorem modPart_time (s : State) (i : Nat) (f : Part → Part) : (s.modPart i f).time = s.time := rfl
@[simp] theorem modSite_pending (s : State) (i : Nat) (f : Site → Site) : (s.modSite i f).pending = s.pending := rfl
@[simp] theorem modSite_fuses (s : State) (i : Nat) (f : Site → Site) : (s.modSite i f).fuses = s.fuses := rfl
@[simp] theorem modSite_flash (s : State) (i : Nat) (f : Site → Site) : (s.modSite i f).flash = s.flash := rfl
@[simp] theorem modSite_power (s : State) (i : Nat) (f : Site → Site) : (s.modSite i f).power = s.power := rfl
@[simp] theorem modSite_sec (s : State) (i : Nat) (f : Site → Site) : (s.modSite i f).sec = s.sec := rfl
@[simp] theorem modSite_pins (s : State) (i : Nat) (f : Site → Site) : (s.modSite i f).pins = s.pins := rfl
@[simp] theorem modSite_regions (s : State) (i : Nat) (f : Site → Site) : (s.modSite i f).regions = s.regions := rfl
@[simp] theorem modSite_parts (s : State) (i : Nat) (f : Site → Site) : (s.modSite i f).parts = s.parts := rfl
@[simp] theorem modSite_heralds (s : State) (i : Nat) (f : Site → Site) : (s.modSite i f).heralds = s.heralds := rfl
@[simp] theorem modSite_outcomes (s : State) (i : Nat) (f : Site → Site) : (s.modSite i f).outcomes = s.outcomes := rfl
@[simp] theorem modSite_alm (s : State) (i : Nat) (f : Site → Site) : (s.modSite i f).alm = s.alm := rfl
@[simp] theorem modSite_col (s : State) (i : Nat) (f : Site → Site) : (s.modSite i f).col = s.col := rfl
@[simp] theorem modSite_ev (s : State) (i : Nat) (f : Site → Site) : (s.modSite i f).ev = s.ev := rfl
@[simp] theorem modSite_mbs (s : State) (i : Nat) (f : Site → Site) : (s.modSite i f).mbs = s.mbs := rfl
@[simp] theorem modSite_mgmt (s : State) (i : Nat) (f : Site → Site) : (s.modSite i f).mgmt = s.mgmt := rfl
@[simp] theorem modSite_msix (s : State) (i : Nat) (f : Site → Site) : (s.modSite i f).msix = s.msix := rfl
@[simp] theorem modSite_ports (s : State) (i : Nat) (f : Site → Site) : (s.modSite i f).ports = s.ports := rfl
@[simp] theorem modSite_routers (s : State) (i : Nat) (f : Site → Site) : (s.modSite i f).routers = s.routers := rfl
@[simp] theorem modSite_routing (s : State) (i : Nat) (f : Site → Site) : (s.modSite i f).routing = s.routing := rfl
@[simp] theorem modSite_dma (s : State) (i : Nat) (f : Site → Site) : (s.modSite i f).dma = s.dma := rfl
@[simp] theorem modSite_mem (s : State) (i : Nat) (f : Site → Site) : (s.modSite i f).mem = s.mem := rfl
@[simp] theorem modSite_sent (s : State) (i : Nat) (f : Site → Site) : (s.modSite i f).sent = s.sent := rfl
@[simp] theorem modSite_free (s : State) (i : Nat) (f : Site → Site) : (s.modSite i f).free = s.free := rfl
@[simp] theorem modSite_hub (s : State) (i : Nat) (f : Site → Site) : (s.modSite i f).hub = s.hub := rfl
@[simp] theorem modSite_time (s : State) (i : Nat) (f : Site → Site) : (s.modSite i f).time = s.time := rfl
@[simp] theorem modRegion_pending (s : State) (i : Nat) (f : Region → Region) : (s.modRegion i f).pending = s.pending := rfl
@[simp] theorem modRegion_fuses (s : State) (i : Nat) (f : Region → Region) : (s.modRegion i f).fuses = s.fuses := rfl
@[simp] theorem modRegion_flash (s : State) (i : Nat) (f : Region → Region) : (s.modRegion i f).flash = s.flash := rfl
@[simp] theorem modRegion_power (s : State) (i : Nat) (f : Region → Region) : (s.modRegion i f).power = s.power := rfl
@[simp] theorem modRegion_sec (s : State) (i : Nat) (f : Region → Region) : (s.modRegion i f).sec = s.sec := rfl
@[simp] theorem modRegion_pins (s : State) (i : Nat) (f : Region → Region) : (s.modRegion i f).pins = s.pins := rfl
@[simp] theorem modRegion_sites (s : State) (i : Nat) (f : Region → Region) : (s.modRegion i f).sites = s.sites := rfl
@[simp] theorem modRegion_parts (s : State) (i : Nat) (f : Region → Region) : (s.modRegion i f).parts = s.parts := rfl
@[simp] theorem modRegion_heralds (s : State) (i : Nat) (f : Region → Region) : (s.modRegion i f).heralds = s.heralds := rfl
@[simp] theorem modRegion_outcomes (s : State) (i : Nat) (f : Region → Region) : (s.modRegion i f).outcomes = s.outcomes := rfl
@[simp] theorem modRegion_alm (s : State) (i : Nat) (f : Region → Region) : (s.modRegion i f).alm = s.alm := rfl
@[simp] theorem modRegion_col (s : State) (i : Nat) (f : Region → Region) : (s.modRegion i f).col = s.col := rfl
@[simp] theorem modRegion_ev (s : State) (i : Nat) (f : Region → Region) : (s.modRegion i f).ev = s.ev := rfl
@[simp] theorem modRegion_mbs (s : State) (i : Nat) (f : Region → Region) : (s.modRegion i f).mbs = s.mbs := rfl
@[simp] theorem modRegion_mgmt (s : State) (i : Nat) (f : Region → Region) : (s.modRegion i f).mgmt = s.mgmt := rfl
@[simp] theorem modRegion_msix (s : State) (i : Nat) (f : Region → Region) : (s.modRegion i f).msix = s.msix := rfl
@[simp] theorem modRegion_ports (s : State) (i : Nat) (f : Region → Region) : (s.modRegion i f).ports = s.ports := rfl
@[simp] theorem modRegion_routers (s : State) (i : Nat) (f : Region → Region) : (s.modRegion i f).routers = s.routers := rfl
@[simp] theorem modRegion_routing (s : State) (i : Nat) (f : Region → Region) : (s.modRegion i f).routing = s.routing := rfl
@[simp] theorem modRegion_dma (s : State) (i : Nat) (f : Region → Region) : (s.modRegion i f).dma = s.dma := rfl
@[simp] theorem modRegion_mem (s : State) (i : Nat) (f : Region → Region) : (s.modRegion i f).mem = s.mem := rfl
@[simp] theorem modRegion_sent (s : State) (i : Nat) (f : Region → Region) : (s.modRegion i f).sent = s.sent := rfl
@[simp] theorem modRegion_free (s : State) (i : Nat) (f : Region → Region) : (s.modRegion i f).free = s.free := rfl
@[simp] theorem modRegion_hub (s : State) (i : Nat) (f : Region → Region) : (s.modRegion i f).hub = s.hub := rfl
@[simp] theorem modRegion_time (s : State) (i : Nat) (f : Region → Region) : (s.modRegion i f).time = s.time := rfl
@[simp] theorem modPort_pending (s : State) (i : Nat) (f : Port → Port) : (s.modPort i f).pending = s.pending := rfl
@[simp] theorem modPort_fuses (s : State) (i : Nat) (f : Port → Port) : (s.modPort i f).fuses = s.fuses := rfl
@[simp] theorem modPort_flash (s : State) (i : Nat) (f : Port → Port) : (s.modPort i f).flash = s.flash := rfl
@[simp] theorem modPort_power (s : State) (i : Nat) (f : Port → Port) : (s.modPort i f).power = s.power := rfl
@[simp] theorem modPort_sec (s : State) (i : Nat) (f : Port → Port) : (s.modPort i f).sec = s.sec := rfl
@[simp] theorem modPort_pins (s : State) (i : Nat) (f : Port → Port) : (s.modPort i f).pins = s.pins := rfl
@[simp] theorem modPort_sites (s : State) (i : Nat) (f : Port → Port) : (s.modPort i f).sites = s.sites := rfl
@[simp] theorem modPort_regions (s : State) (i : Nat) (f : Port → Port) : (s.modPort i f).regions = s.regions := rfl
@[simp] theorem modPort_parts (s : State) (i : Nat) (f : Port → Port) : (s.modPort i f).parts = s.parts := rfl
@[simp] theorem modPort_heralds (s : State) (i : Nat) (f : Port → Port) : (s.modPort i f).heralds = s.heralds := rfl
@[simp] theorem modPort_outcomes (s : State) (i : Nat) (f : Port → Port) : (s.modPort i f).outcomes = s.outcomes := rfl
@[simp] theorem modPort_alm (s : State) (i : Nat) (f : Port → Port) : (s.modPort i f).alm = s.alm := rfl
@[simp] theorem modPort_col (s : State) (i : Nat) (f : Port → Port) : (s.modPort i f).col = s.col := rfl
@[simp] theorem modPort_ev (s : State) (i : Nat) (f : Port → Port) : (s.modPort i f).ev = s.ev := rfl
@[simp] theorem modPort_mbs (s : State) (i : Nat) (f : Port → Port) : (s.modPort i f).mbs = s.mbs := rfl
@[simp] theorem modPort_mgmt (s : State) (i : Nat) (f : Port → Port) : (s.modPort i f).mgmt = s.mgmt := rfl
@[simp] theorem modPort_msix (s : State) (i : Nat) (f : Port → Port) : (s.modPort i f).msix = s.msix := rfl
@[simp] theorem modPort_routers (s : State) (i : Nat) (f : Port → Port) : (s.modPort i f).routers = s.routers := rfl
@[simp] theorem modPort_routing (s : State) (i : Nat) (f : Port → Port) : (s.modPort i f).routing = s.routing := rfl
@[simp] theorem modPort_dma (s : State) (i : Nat) (f : Port → Port) : (s.modPort i f).dma = s.dma := rfl
@[simp] theorem modPort_mem (s : State) (i : Nat) (f : Port → Port) : (s.modPort i f).mem = s.mem := rfl
@[simp] theorem modPort_sent (s : State) (i : Nat) (f : Port → Port) : (s.modPort i f).sent = s.sent := rfl
@[simp] theorem modPort_free (s : State) (i : Nat) (f : Port → Port) : (s.modPort i f).free = s.free := rfl
@[simp] theorem modPort_hub (s : State) (i : Nat) (f : Port → Port) : (s.modPort i f).hub = s.hub := rfl
@[simp] theorem modPort_time (s : State) (i : Nat) (f : Port → Port) : (s.modPort i f).time = s.time := rfl
@[simp] theorem modRouter_pending (s : State) (i : Nat) (f : Router → Router) : (s.modRouter i f).pending = s.pending := rfl
@[simp] theorem modRouter_fuses (s : State) (i : Nat) (f : Router → Router) : (s.modRouter i f).fuses = s.fuses := rfl
@[simp] theorem modRouter_flash (s : State) (i : Nat) (f : Router → Router) : (s.modRouter i f).flash = s.flash := rfl
@[simp] theorem modRouter_power (s : State) (i : Nat) (f : Router → Router) : (s.modRouter i f).power = s.power := rfl
@[simp] theorem modRouter_sec (s : State) (i : Nat) (f : Router → Router) : (s.modRouter i f).sec = s.sec := rfl
@[simp] theorem modRouter_pins (s : State) (i : Nat) (f : Router → Router) : (s.modRouter i f).pins = s.pins := rfl
@[simp] theorem modRouter_sites (s : State) (i : Nat) (f : Router → Router) : (s.modRouter i f).sites = s.sites := rfl
@[simp] theorem modRouter_regions (s : State) (i : Nat) (f : Router → Router) : (s.modRouter i f).regions = s.regions := rfl
@[simp] theorem modRouter_parts (s : State) (i : Nat) (f : Router → Router) : (s.modRouter i f).parts = s.parts := rfl
@[simp] theorem modRouter_heralds (s : State) (i : Nat) (f : Router → Router) : (s.modRouter i f).heralds = s.heralds := rfl
@[simp] theorem modRouter_outcomes (s : State) (i : Nat) (f : Router → Router) : (s.modRouter i f).outcomes = s.outcomes := rfl
@[simp] theorem modRouter_alm (s : State) (i : Nat) (f : Router → Router) : (s.modRouter i f).alm = s.alm := rfl
@[simp] theorem modRouter_col (s : State) (i : Nat) (f : Router → Router) : (s.modRouter i f).col = s.col := rfl
@[simp] theorem modRouter_ev (s : State) (i : Nat) (f : Router → Router) : (s.modRouter i f).ev = s.ev := rfl
@[simp] theorem modRouter_mbs (s : State) (i : Nat) (f : Router → Router) : (s.modRouter i f).mbs = s.mbs := rfl
@[simp] theorem modRouter_mgmt (s : State) (i : Nat) (f : Router → Router) : (s.modRouter i f).mgmt = s.mgmt := rfl
@[simp] theorem modRouter_msix (s : State) (i : Nat) (f : Router → Router) : (s.modRouter i f).msix = s.msix := rfl
@[simp] theorem modRouter_ports (s : State) (i : Nat) (f : Router → Router) : (s.modRouter i f).ports = s.ports := rfl
@[simp] theorem modRouter_routing (s : State) (i : Nat) (f : Router → Router) : (s.modRouter i f).routing = s.routing := rfl
@[simp] theorem modRouter_dma (s : State) (i : Nat) (f : Router → Router) : (s.modRouter i f).dma = s.dma := rfl
@[simp] theorem modRouter_mem (s : State) (i : Nat) (f : Router → Router) : (s.modRouter i f).mem = s.mem := rfl
@[simp] theorem modRouter_sent (s : State) (i : Nat) (f : Router → Router) : (s.modRouter i f).sent = s.sent := rfl
@[simp] theorem modRouter_free (s : State) (i : Nat) (f : Router → Router) : (s.modRouter i f).free = s.free := rfl
@[simp] theorem modRouter_hub (s : State) (i : Nat) (f : Router → Router) : (s.modRouter i f).hub = s.hub := rfl
@[simp] theorem modRouter_time (s : State) (i : Nat) (f : Router → Router) : (s.modRouter i f).time = s.time := rfl
@[simp] theorem modHub_pending (s : State) (f : Hub → Hub) : (s.modHub f).pending = s.pending := rfl
@[simp] theorem modHub_fuses (s : State) (f : Hub → Hub) : (s.modHub f).fuses = s.fuses := rfl
@[simp] theorem modHub_flash (s : State) (f : Hub → Hub) : (s.modHub f).flash = s.flash := rfl
@[simp] theorem modHub_power (s : State) (f : Hub → Hub) : (s.modHub f).power = s.power := rfl
@[simp] theorem modHub_sec (s : State) (f : Hub → Hub) : (s.modHub f).sec = s.sec := rfl
@[simp] theorem modHub_pins (s : State) (f : Hub → Hub) : (s.modHub f).pins = s.pins := rfl
@[simp] theorem modHub_sites (s : State) (f : Hub → Hub) : (s.modHub f).sites = s.sites := rfl
@[simp] theorem modHub_regions (s : State) (f : Hub → Hub) : (s.modHub f).regions = s.regions := rfl
@[simp] theorem modHub_parts (s : State) (f : Hub → Hub) : (s.modHub f).parts = s.parts := rfl
@[simp] theorem modHub_heralds (s : State) (f : Hub → Hub) : (s.modHub f).heralds = s.heralds := rfl
@[simp] theorem modHub_outcomes (s : State) (f : Hub → Hub) : (s.modHub f).outcomes = s.outcomes := rfl
@[simp] theorem modHub_alm (s : State) (f : Hub → Hub) : (s.modHub f).alm = s.alm := rfl
@[simp] theorem modHub_col (s : State) (f : Hub → Hub) : (s.modHub f).col = s.col := rfl
@[simp] theorem modHub_ev (s : State) (f : Hub → Hub) : (s.modHub f).ev = s.ev := rfl
@[simp] theorem modHub_mbs (s : State) (f : Hub → Hub) : (s.modHub f).mbs = s.mbs := rfl
@[simp] theorem modHub_mgmt (s : State) (f : Hub → Hub) : (s.modHub f).mgmt = s.mgmt := rfl
@[simp] theorem modHub_msix (s : State) (f : Hub → Hub) : (s.modHub f).msix = s.msix := rfl
@[simp] theorem modHub_ports (s : State) (f : Hub → Hub) : (s.modHub f).ports = s.ports := rfl
@[simp] theorem modHub_routers (s : State) (f : Hub → Hub) : (s.modHub f).routers = s.routers := rfl
@[simp] theorem modHub_routing (s : State) (f : Hub → Hub) : (s.modHub f).routing = s.routing := rfl
@[simp] theorem modHub_dma (s : State) (f : Hub → Hub) : (s.modHub f).dma = s.dma := rfl
@[simp] theorem modHub_mem (s : State) (f : Hub → Hub) : (s.modHub f).mem = s.mem := rfl
@[simp] theorem modHub_sent (s : State) (f : Hub → Hub) : (s.modHub f).sent = s.sent := rfl
@[simp] theorem modHub_free (s : State) (f : Hub → Hub) : (s.modHub f).free = s.free := rfl
@[simp] theorem modHub_time (s : State) (f : Hub → Hub) : (s.modHub f).time = s.time := rfl
@[simp] theorem setHerald_pending (s : State) (g : Nat) (h : Option Herald) : (s.setHerald g h).pending = s.pending := rfl
@[simp] theorem setHerald_fuses (s : State) (g : Nat) (h : Option Herald) : (s.setHerald g h).fuses = s.fuses := rfl
@[simp] theorem setHerald_flash (s : State) (g : Nat) (h : Option Herald) : (s.setHerald g h).flash = s.flash := rfl
@[simp] theorem setHerald_power (s : State) (g : Nat) (h : Option Herald) : (s.setHerald g h).power = s.power := rfl
@[simp] theorem setHerald_sec (s : State) (g : Nat) (h : Option Herald) : (s.setHerald g h).sec = s.sec := rfl
@[simp] theorem setHerald_pins (s : State) (g : Nat) (h : Option Herald) : (s.setHerald g h).pins = s.pins := rfl
@[simp] theorem setHerald_sites (s : State) (g : Nat) (h : Option Herald) : (s.setHerald g h).sites = s.sites := rfl
@[simp] theorem setHerald_regions (s : State) (g : Nat) (h : Option Herald) : (s.setHerald g h).regions = s.regions := rfl
@[simp] theorem setHerald_parts (s : State) (g : Nat) (h : Option Herald) : (s.setHerald g h).parts = s.parts := rfl
@[simp] theorem setHerald_outcomes (s : State) (g : Nat) (h : Option Herald) : (s.setHerald g h).outcomes = s.outcomes := rfl
@[simp] theorem setHerald_alm (s : State) (g : Nat) (h : Option Herald) : (s.setHerald g h).alm = s.alm := rfl
@[simp] theorem setHerald_col (s : State) (g : Nat) (h : Option Herald) : (s.setHerald g h).col = s.col := rfl
@[simp] theorem setHerald_ev (s : State) (g : Nat) (h : Option Herald) : (s.setHerald g h).ev = s.ev := rfl
@[simp] theorem setHerald_mbs (s : State) (g : Nat) (h : Option Herald) : (s.setHerald g h).mbs = s.mbs := rfl
@[simp] theorem setHerald_mgmt (s : State) (g : Nat) (h : Option Herald) : (s.setHerald g h).mgmt = s.mgmt := rfl
@[simp] theorem setHerald_msix (s : State) (g : Nat) (h : Option Herald) : (s.setHerald g h).msix = s.msix := rfl
@[simp] theorem setHerald_ports (s : State) (g : Nat) (h : Option Herald) : (s.setHerald g h).ports = s.ports := rfl
@[simp] theorem setHerald_routers (s : State) (g : Nat) (h : Option Herald) : (s.setHerald g h).routers = s.routers := rfl
@[simp] theorem setHerald_routing (s : State) (g : Nat) (h : Option Herald) : (s.setHerald g h).routing = s.routing := rfl
@[simp] theorem setHerald_dma (s : State) (g : Nat) (h : Option Herald) : (s.setHerald g h).dma = s.dma := rfl
@[simp] theorem setHerald_mem (s : State) (g : Nat) (h : Option Herald) : (s.setHerald g h).mem = s.mem := rfl
@[simp] theorem setHerald_sent (s : State) (g : Nat) (h : Option Herald) : (s.setHerald g h).sent = s.sent := rfl
@[simp] theorem setHerald_free (s : State) (g : Nat) (h : Option Herald) : (s.setHerald g h).free = s.free := rfl
@[simp] theorem setHerald_hub (s : State) (g : Nat) (h : Option Herald) : (s.setHerald g h).hub = s.hub := rfl
@[simp] theorem setHerald_time (s : State) (g : Nat) (h : Option Herald) : (s.setHerald g h).time = s.time := rfl
@[simp] theorem emit_pending (s : State) (m : OutMsg) : (s.emit m).pending = s.pending := rfl
@[simp] theorem emit_fuses (s : State) (m : OutMsg) : (s.emit m).fuses = s.fuses := rfl
@[simp] theorem emit_flash (s : State) (m : OutMsg) : (s.emit m).flash = s.flash := rfl
@[simp] theorem emit_power (s : State) (m : OutMsg) : (s.emit m).power = s.power := rfl
@[simp] theorem emit_sec (s : State) (m : OutMsg) : (s.emit m).sec = s.sec := rfl
@[simp] theorem emit_pins (s : State) (m : OutMsg) : (s.emit m).pins = s.pins := rfl
@[simp] theorem emit_sites (s : State) (m : OutMsg) : (s.emit m).sites = s.sites := rfl
@[simp] theorem emit_regions (s : State) (m : OutMsg) : (s.emit m).regions = s.regions := rfl
@[simp] theorem emit_parts (s : State) (m : OutMsg) : (s.emit m).parts = s.parts := rfl
@[simp] theorem emit_heralds (s : State) (m : OutMsg) : (s.emit m).heralds = s.heralds := rfl
@[simp] theorem emit_outcomes (s : State) (m : OutMsg) : (s.emit m).outcomes = s.outcomes := rfl
@[simp] theorem emit_alm (s : State) (m : OutMsg) : (s.emit m).alm = s.alm := rfl
@[simp] theorem emit_col (s : State) (m : OutMsg) : (s.emit m).col = s.col := rfl
@[simp] theorem emit_ev (s : State) (m : OutMsg) : (s.emit m).ev = s.ev := rfl
@[simp] theorem emit_mbs (s : State) (m : OutMsg) : (s.emit m).mbs = s.mbs := rfl
@[simp] theorem emit_mgmt (s : State) (m : OutMsg) : (s.emit m).mgmt = s.mgmt := rfl
@[simp] theorem emit_msix (s : State) (m : OutMsg) : (s.emit m).msix = s.msix := rfl
@[simp] theorem emit_ports (s : State) (m : OutMsg) : (s.emit m).ports = s.ports := rfl
@[simp] theorem emit_routers (s : State) (m : OutMsg) : (s.emit m).routers = s.routers := rfl
@[simp] theorem emit_routing (s : State) (m : OutMsg) : (s.emit m).routing = s.routing := rfl
@[simp] theorem emit_dma (s : State) (m : OutMsg) : (s.emit m).dma = s.dma := rfl
@[simp] theorem emit_mem (s : State) (m : OutMsg) : (s.emit m).mem = s.mem := rfl
@[simp] theorem emit_free (s : State) (m : OutMsg) : (s.emit m).free = s.free := rfl
@[simp] theorem emit_hub (s : State) (m : OutMsg) : (s.emit m).hub = s.hub := rfl
@[simp] theorem emit_time (s : State) (m : OutMsg) : (s.emit m).time = s.time := rfl
@[simp] theorem modMgmt_pending (s : State) (i : Nat) (f : MgmtPort → MgmtPort) : (s.modMgmt i f).pending = s.pending := rfl
@[simp] theorem modMgmt_fuses (s : State) (i : Nat) (f : MgmtPort → MgmtPort) : (s.modMgmt i f).fuses = s.fuses := rfl
@[simp] theorem modMgmt_flash (s : State) (i : Nat) (f : MgmtPort → MgmtPort) : (s.modMgmt i f).flash = s.flash := rfl
@[simp] theorem modMgmt_power (s : State) (i : Nat) (f : MgmtPort → MgmtPort) : (s.modMgmt i f).power = s.power := rfl
@[simp] theorem modMgmt_sec (s : State) (i : Nat) (f : MgmtPort → MgmtPort) : (s.modMgmt i f).sec = s.sec := rfl
@[simp] theorem modMgmt_pins (s : State) (i : Nat) (f : MgmtPort → MgmtPort) : (s.modMgmt i f).pins = s.pins := rfl
@[simp] theorem modMgmt_sites (s : State) (i : Nat) (f : MgmtPort → MgmtPort) : (s.modMgmt i f).sites = s.sites := rfl
@[simp] theorem modMgmt_regions (s : State) (i : Nat) (f : MgmtPort → MgmtPort) : (s.modMgmt i f).regions = s.regions := rfl
@[simp] theorem modMgmt_parts (s : State) (i : Nat) (f : MgmtPort → MgmtPort) : (s.modMgmt i f).parts = s.parts := rfl
@[simp] theorem modMgmt_heralds (s : State) (i : Nat) (f : MgmtPort → MgmtPort) : (s.modMgmt i f).heralds = s.heralds := rfl
@[simp] theorem modMgmt_outcomes (s : State) (i : Nat) (f : MgmtPort → MgmtPort) : (s.modMgmt i f).outcomes = s.outcomes := rfl
@[simp] theorem modMgmt_alm (s : State) (i : Nat) (f : MgmtPort → MgmtPort) : (s.modMgmt i f).alm = s.alm := rfl
@[simp] theorem modMgmt_col (s : State) (i : Nat) (f : MgmtPort → MgmtPort) : (s.modMgmt i f).col = s.col := rfl
@[simp] theorem modMgmt_ev (s : State) (i : Nat) (f : MgmtPort → MgmtPort) : (s.modMgmt i f).ev = s.ev := rfl
@[simp] theorem modMgmt_mbs (s : State) (i : Nat) (f : MgmtPort → MgmtPort) : (s.modMgmt i f).mbs = s.mbs := rfl
@[simp] theorem modMgmt_msix (s : State) (i : Nat) (f : MgmtPort → MgmtPort) : (s.modMgmt i f).msix = s.msix := rfl
@[simp] theorem modMgmt_ports (s : State) (i : Nat) (f : MgmtPort → MgmtPort) : (s.modMgmt i f).ports = s.ports := rfl
@[simp] theorem modMgmt_routers (s : State) (i : Nat) (f : MgmtPort → MgmtPort) : (s.modMgmt i f).routers = s.routers := rfl
@[simp] theorem modMgmt_routing (s : State) (i : Nat) (f : MgmtPort → MgmtPort) : (s.modMgmt i f).routing = s.routing := rfl
@[simp] theorem modMgmt_dma (s : State) (i : Nat) (f : MgmtPort → MgmtPort) : (s.modMgmt i f).dma = s.dma := rfl
@[simp] theorem modMgmt_mem (s : State) (i : Nat) (f : MgmtPort → MgmtPort) : (s.modMgmt i f).mem = s.mem := rfl
@[simp] theorem modMgmt_sent (s : State) (i : Nat) (f : MgmtPort → MgmtPort) : (s.modMgmt i f).sent = s.sent := rfl
@[simp] theorem modMgmt_free (s : State) (i : Nat) (f : MgmtPort → MgmtPort) : (s.modMgmt i f).free = s.free := rfl
@[simp] theorem modMgmt_hub (s : State) (i : Nat) (f : MgmtPort → MgmtPort) : (s.modMgmt i f).hub = s.hub := rfl
@[simp] theorem modMgmt_time (s : State) (i : Nat) (f : MgmtPort → MgmtPort) : (s.modMgmt i f).time = s.time := rfl
@[simp] theorem modChan_pending (s : State) (i : Nat) (f : Mc → Mc) : (s.modChan i f).pending = s.pending := rfl
@[simp] theorem modChan_fuses (s : State) (i : Nat) (f : Mc → Mc) : (s.modChan i f).fuses = s.fuses := rfl
@[simp] theorem modChan_flash (s : State) (i : Nat) (f : Mc → Mc) : (s.modChan i f).flash = s.flash := rfl
@[simp] theorem modChan_power (s : State) (i : Nat) (f : Mc → Mc) : (s.modChan i f).power = s.power := rfl
@[simp] theorem modChan_sec (s : State) (i : Nat) (f : Mc → Mc) : (s.modChan i f).sec = s.sec := rfl
@[simp] theorem modChan_pins (s : State) (i : Nat) (f : Mc → Mc) : (s.modChan i f).pins = s.pins := rfl
@[simp] theorem modChan_sites (s : State) (i : Nat) (f : Mc → Mc) : (s.modChan i f).sites = s.sites := rfl
@[simp] theorem modChan_regions (s : State) (i : Nat) (f : Mc → Mc) : (s.modChan i f).regions = s.regions := rfl
@[simp] theorem modChan_parts (s : State) (i : Nat) (f : Mc → Mc) : (s.modChan i f).parts = s.parts := rfl
@[simp] theorem modChan_heralds (s : State) (i : Nat) (f : Mc → Mc) : (s.modChan i f).heralds = s.heralds := rfl
@[simp] theorem modChan_outcomes (s : State) (i : Nat) (f : Mc → Mc) : (s.modChan i f).outcomes = s.outcomes := rfl
@[simp] theorem modChan_alm (s : State) (i : Nat) (f : Mc → Mc) : (s.modChan i f).alm = s.alm := rfl
@[simp] theorem modChan_col (s : State) (i : Nat) (f : Mc → Mc) : (s.modChan i f).col = s.col := rfl
@[simp] theorem modChan_ev (s : State) (i : Nat) (f : Mc → Mc) : (s.modChan i f).ev = s.ev := rfl
@[simp] theorem modChan_mbs (s : State) (i : Nat) (f : Mc → Mc) : (s.modChan i f).mbs = s.mbs := rfl
@[simp] theorem modChan_mgmt (s : State) (i : Nat) (f : Mc → Mc) : (s.modChan i f).mgmt = s.mgmt := rfl
@[simp] theorem modChan_msix (s : State) (i : Nat) (f : Mc → Mc) : (s.modChan i f).msix = s.msix := rfl
@[simp] theorem modChan_ports (s : State) (i : Nat) (f : Mc → Mc) : (s.modChan i f).ports = s.ports := rfl
@[simp] theorem modChan_routers (s : State) (i : Nat) (f : Mc → Mc) : (s.modChan i f).routers = s.routers := rfl
@[simp] theorem modChan_routing (s : State) (i : Nat) (f : Mc → Mc) : (s.modChan i f).routing = s.routing := rfl
@[simp] theorem modChan_dma (s : State) (i : Nat) (f : Mc → Mc) : (s.modChan i f).dma = s.dma := rfl
@[simp] theorem modChan_sent (s : State) (i : Nat) (f : Mc → Mc) : (s.modChan i f).sent = s.sent := rfl
@[simp] theorem modChan_free (s : State) (i : Nat) (f : Mc → Mc) : (s.modChan i f).free = s.free := rfl
@[simp] theorem modChan_hub (s : State) (i : Nat) (f : Mc → Mc) : (s.modChan i f).hub = s.hub := rfl
@[simp] theorem modChan_time (s : State) (i : Nat) (f : Mc → Mc) : (s.modChan i f).time = s.time := rfl
@[simp] theorem draw_pending (s : State) (w : Nat) : (s.draw w).2.pending = s.pending := rfl
@[simp] theorem draw_time (s : State) (w : Nat) : (s.draw w).2.time = s.time := rfl
@[simp] theorem draw_hub (s : State) (w : Nat) : (s.draw w).2.hub = s.hub := rfl
@[simp] theorem draw_fuses (s : State) (w : Nat) : (s.draw w).2.fuses = s.fuses := rfl
@[simp] theorem draw_flash (s : State) (w : Nat) : (s.draw w).2.flash = s.flash := rfl
@[simp] theorem draw_power (s : State) (w : Nat) : (s.draw w).2.power = s.power := rfl
@[simp] theorem draw_sec (s : State) (w : Nat) : (s.draw w).2.sec = s.sec := rfl
@[simp] theorem draw_pins (s : State) (w : Nat) : (s.draw w).2.pins = s.pins := rfl
@[simp] theorem draw_sites (s : State) (w : Nat) : (s.draw w).2.sites = s.sites := rfl
@[simp] theorem draw_regions (s : State) (w : Nat) : (s.draw w).2.regions = s.regions := rfl
@[simp] theorem draw_parts (s : State) (w : Nat) : (s.draw w).2.parts = s.parts := rfl
@[simp] theorem draw_heralds (s : State) (w : Nat) : (s.draw w).2.heralds = s.heralds := rfl
@[simp] theorem draw_outcomes (s : State) (w : Nat) : (s.draw w).2.outcomes = s.outcomes := rfl
@[simp] theorem draw_alm (s : State) (w : Nat) : (s.draw w).2.alm = s.alm := rfl
@[simp] theorem draw_col (s : State) (w : Nat) : (s.draw w).2.col = s.col := rfl
@[simp] theorem draw_ev (s : State) (w : Nat) : (s.draw w).2.ev = s.ev := rfl
@[simp] theorem draw_mbs (s : State) (w : Nat) : (s.draw w).2.mbs = s.mbs := rfl
@[simp] theorem draw_mgmt (s : State) (w : Nat) : (s.draw w).2.mgmt = s.mgmt := rfl
@[simp] theorem draw_msix (s : State) (w : Nat) : (s.draw w).2.msix = s.msix := rfl
@[simp] theorem draw_ports (s : State) (w : Nat) : (s.draw w).2.ports = s.ports := rfl
@[simp] theorem draw_routers (s : State) (w : Nat) : (s.draw w).2.routers = s.routers := rfl
@[simp] theorem draw_routing (s : State) (w : Nat) : (s.draw w).2.routing = s.routing := rfl
@[simp] theorem draw_dma (s : State) (w : Nat) : (s.draw w).2.dma = s.dma := rfl
@[simp] theorem draw_mem (s : State) (w : Nat) : (s.draw w).2.mem = s.mem := rfl
@[simp] theorem draw_sent (s : State) (w : Nat) : (s.draw w).2.sent = s.sent := rfl
@[simp] theorem draw_free (s : State) (w : Nat) : (s.draw w).2.free = s.free + 1 := rfl
@[simp] theorem emits_pending (s : State) (ms : List OutMsg) : (s.emits ms).pending = s.pending := rfl
@[simp] theorem emits_time (s : State) (ms : List OutMsg) : (s.emits ms).time = s.time := rfl
@[simp] theorem emits_hub (s : State) (ms : List OutMsg) : (s.emits ms).hub = s.hub := rfl
@[simp] theorem emits_fuses (s : State) (ms : List OutMsg) : (s.emits ms).fuses = s.fuses := rfl
@[simp] theorem emits_flash (s : State) (ms : List OutMsg) : (s.emits ms).flash = s.flash := rfl
@[simp] theorem emits_power (s : State) (ms : List OutMsg) : (s.emits ms).power = s.power := rfl
@[simp] theorem emits_sec (s : State) (ms : List OutMsg) : (s.emits ms).sec = s.sec := rfl
@[simp] theorem emits_pins (s : State) (ms : List OutMsg) : (s.emits ms).pins = s.pins := rfl
@[simp] theorem emits_sites (s : State) (ms : List OutMsg) : (s.emits ms).sites = s.sites := rfl
@[simp] theorem emits_regions (s : State) (ms : List OutMsg) : (s.emits ms).regions = s.regions := rfl
@[simp] theorem emits_parts (s : State) (ms : List OutMsg) : (s.emits ms).parts = s.parts := rfl
@[simp] theorem emits_heralds (s : State) (ms : List OutMsg) : (s.emits ms).heralds = s.heralds := rfl
@[simp] theorem emits_outcomes (s : State) (ms : List OutMsg) : (s.emits ms).outcomes = s.outcomes := rfl
@[simp] theorem emits_alm (s : State) (ms : List OutMsg) : (s.emits ms).alm = s.alm := rfl
@[simp] theorem emits_col (s : State) (ms : List OutMsg) : (s.emits ms).col = s.col := rfl
@[simp] theorem emits_ev (s : State) (ms : List OutMsg) : (s.emits ms).ev = s.ev := rfl
@[simp] theorem emits_mbs (s : State) (ms : List OutMsg) : (s.emits ms).mbs = s.mbs := rfl
@[simp] theorem emits_mgmt (s : State) (ms : List OutMsg) : (s.emits ms).mgmt = s.mgmt := rfl
@[simp] theorem emits_msix (s : State) (ms : List OutMsg) : (s.emits ms).msix = s.msix := rfl
@[simp] theorem emits_ports (s : State) (ms : List OutMsg) : (s.emits ms).ports = s.ports := rfl
@[simp] theorem emits_routers (s : State) (ms : List OutMsg) : (s.emits ms).routers = s.routers := rfl
@[simp] theorem emits_routing (s : State) (ms : List OutMsg) : (s.emits ms).routing = s.routing := rfl
@[simp] theorem emits_dma (s : State) (ms : List OutMsg) : (s.emits ms).dma = s.dma := rfl
@[simp] theorem emits_mem (s : State) (ms : List OutMsg) : (s.emits ms).mem = s.mem := rfl
@[simp] theorem emits_free (s : State) (ms : List OutMsg) : (s.emits ms).free = s.free := rfl
@[simp] theorem emits_sent (s : State) (ms : List OutMsg) : (s.emits ms).sent = s.sent ++ ms := rfl
@[simp] theorem modJob_pending (s : State) (p : Nat) (f : Job → Job) : (s.modJob p f).pending = s.pending := rfl
@[simp] theorem modJob_time (s : State) (p : Nat) (f : Job → Job) : (s.modJob p f).time = s.time := rfl
@[simp] theorem modJob_hub (s : State) (p : Nat) (f : Job → Job) : (s.modJob p f).hub = s.hub := rfl
@[simp] theorem modJob_fuses (s : State) (p : Nat) (f : Job → Job) : (s.modJob p f).fuses = s.fuses := rfl
@[simp] theorem modJob_flash (s : State) (p : Nat) (f : Job → Job) : (s.modJob p f).flash = s.flash := rfl
@[simp] theorem modJob_power (s : State) (p : Nat) (f : Job → Job) : (s.modJob p f).power = s.power := rfl
@[simp] theorem modJob_sec (s : State) (p : Nat) (f : Job → Job) : (s.modJob p f).sec = s.sec := rfl
@[simp] theorem modJob_pins (s : State) (p : Nat) (f : Job → Job) : (s.modJob p f).pins = s.pins := rfl
@[simp] theorem modJob_sites (s : State) (p : Nat) (f : Job → Job) : (s.modJob p f).sites = s.sites := rfl
@[simp] theorem modJob_regions (s : State) (p : Nat) (f : Job → Job) : (s.modJob p f).regions = s.regions := rfl
@[simp] theorem modJob_heralds (s : State) (p : Nat) (f : Job → Job) : (s.modJob p f).heralds = s.heralds := rfl
@[simp] theorem modJob_outcomes (s : State) (p : Nat) (f : Job → Job) : (s.modJob p f).outcomes = s.outcomes := rfl
@[simp] theorem modJob_alm (s : State) (p : Nat) (f : Job → Job) : (s.modJob p f).alm = s.alm := rfl
@[simp] theorem modJob_col (s : State) (p : Nat) (f : Job → Job) : (s.modJob p f).col = s.col := rfl
@[simp] theorem modJob_ev (s : State) (p : Nat) (f : Job → Job) : (s.modJob p f).ev = s.ev := rfl
@[simp] theorem modJob_mbs (s : State) (p : Nat) (f : Job → Job) : (s.modJob p f).mbs = s.mbs := rfl
@[simp] theorem modJob_mgmt (s : State) (p : Nat) (f : Job → Job) : (s.modJob p f).mgmt = s.mgmt := rfl
@[simp] theorem modJob_msix (s : State) (p : Nat) (f : Job → Job) : (s.modJob p f).msix = s.msix := rfl
@[simp] theorem modJob_ports (s : State) (p : Nat) (f : Job → Job) : (s.modJob p f).ports = s.ports := rfl
@[simp] theorem modJob_routers (s : State) (p : Nat) (f : Job → Job) : (s.modJob p f).routers = s.routers := rfl
@[simp] theorem modJob_routing (s : State) (p : Nat) (f : Job → Job) : (s.modJob p f).routing = s.routing := rfl
@[simp] theorem modJob_dma (s : State) (p : Nat) (f : Job → Job) : (s.modJob p f).dma = s.dma := rfl
@[simp] theorem modJob_mem (s : State) (p : Nat) (f : Job → Job) : (s.modJob p f).mem = s.mem := rfl
@[simp] theorem modJob_sent (s : State) (p : Nat) (f : Job → Job) : (s.modJob p f).sent = s.sent := rfl
@[simp] theorem modJob_free (s : State) (p : Nat) (f : Job → Job) : (s.modJob p f).free = s.free := rfl
@[simp] theorem modTwin_pending (s : State) (p : Nat) (f : Twin → Twin) : (s.modTwin p f).pending = s.pending := rfl
@[simp] theorem modTwin_time (s : State) (p : Nat) (f : Twin → Twin) : (s.modTwin p f).time = s.time := rfl
@[simp] theorem modTwin_hub (s : State) (p : Nat) (f : Twin → Twin) : (s.modTwin p f).hub = s.hub := rfl
@[simp] theorem modTwin_fuses (s : State) (p : Nat) (f : Twin → Twin) : (s.modTwin p f).fuses = s.fuses := rfl
@[simp] theorem modTwin_flash (s : State) (p : Nat) (f : Twin → Twin) : (s.modTwin p f).flash = s.flash := rfl
@[simp] theorem modTwin_power (s : State) (p : Nat) (f : Twin → Twin) : (s.modTwin p f).power = s.power := rfl
@[simp] theorem modTwin_sec (s : State) (p : Nat) (f : Twin → Twin) : (s.modTwin p f).sec = s.sec := rfl
@[simp] theorem modTwin_pins (s : State) (p : Nat) (f : Twin → Twin) : (s.modTwin p f).pins = s.pins := rfl
@[simp] theorem modTwin_sites (s : State) (p : Nat) (f : Twin → Twin) : (s.modTwin p f).sites = s.sites := rfl
@[simp] theorem modTwin_regions (s : State) (p : Nat) (f : Twin → Twin) : (s.modTwin p f).regions = s.regions := rfl
@[simp] theorem modTwin_heralds (s : State) (p : Nat) (f : Twin → Twin) : (s.modTwin p f).heralds = s.heralds := rfl
@[simp] theorem modTwin_outcomes (s : State) (p : Nat) (f : Twin → Twin) : (s.modTwin p f).outcomes = s.outcomes := rfl
@[simp] theorem modTwin_alm (s : State) (p : Nat) (f : Twin → Twin) : (s.modTwin p f).alm = s.alm := rfl
@[simp] theorem modTwin_col (s : State) (p : Nat) (f : Twin → Twin) : (s.modTwin p f).col = s.col := rfl
@[simp] theorem modTwin_ev (s : State) (p : Nat) (f : Twin → Twin) : (s.modTwin p f).ev = s.ev := rfl
@[simp] theorem modTwin_mbs (s : State) (p : Nat) (f : Twin → Twin) : (s.modTwin p f).mbs = s.mbs := rfl
@[simp] theorem modTwin_mgmt (s : State) (p : Nat) (f : Twin → Twin) : (s.modTwin p f).mgmt = s.mgmt := rfl
@[simp] theorem modTwin_msix (s : State) (p : Nat) (f : Twin → Twin) : (s.modTwin p f).msix = s.msix := rfl
@[simp] theorem modTwin_ports (s : State) (p : Nat) (f : Twin → Twin) : (s.modTwin p f).ports = s.ports := rfl
@[simp] theorem modTwin_routers (s : State) (p : Nat) (f : Twin → Twin) : (s.modTwin p f).routers = s.routers := rfl
@[simp] theorem modTwin_routing (s : State) (p : Nat) (f : Twin → Twin) : (s.modTwin p f).routing = s.routing := rfl
@[simp] theorem modTwin_dma (s : State) (p : Nat) (f : Twin → Twin) : (s.modTwin p f).dma = s.dma := rfl
@[simp] theorem modTwin_mem (s : State) (p : Nat) (f : Twin → Twin) : (s.modTwin p f).mem = s.mem := rfl
@[simp] theorem modTwin_sent (s : State) (p : Nat) (f : Twin → Twin) : (s.modTwin p f).sent = s.sent := rfl
@[simp] theorem modTwin_free (s : State) (p : Nat) (f : Twin → Twin) : (s.modTwin p f).free = s.free := rfl
theorem modJob_other (s : State) {p q : Nat} (h : q ≠ p) (f : Job → Job) : (s.modJob p f).part q = s.part q := modPart_other s h _
theorem modTwin_other (s : State) {p q : Nat} (h : q ≠ p) (f : Twin → Twin) : (s.modTwin p f).part q = s.part q := modPart_other s h _
theorem modChan_other (s : State) {i j : Nat} (h : j ≠ i) (f : Mc → Mc) : (s.modChan i f).chan j = s.chan j := by
  simp [State.modChan, State.chan, Tbl.get_set_other _ h]
theorem modRouter_other (s : State) {i j : Nat} (h : j ≠ i) (f : Router → Router) : (s.modRouter i f).router j = s.router j := by
  simp [State.modRouter, State.router, Tbl.get_set_other _ h]
theorem modMgmt_other (s : State) {i j : Nat} (h : j ≠ i) (f : MgmtPort → MgmtPort) : (s.modMgmt i f).mgmtPort j = s.mgmtPort j := by
  simp [State.modMgmt, State.mgmtPort, Tbl.get_set_other _ h]
theorem setHerald_other (s : State) {g g' : Nat} (h : g' ≠ g) (x : Option Herald) : (s.setHerald g x).herald g' = s.herald g' := by
  simp [State.setHerald, State.herald, Tbl.get_set_other _ h]

end Sys2Proof.Machine
end

