-- ==== Sys2Proof/Laws/Commands.lean ====
section
/-! SUPPORT. What the start of a mailbox command does, said once (14 R443 to R449). -/

namespace Sys2Proof.Machine

/-- Nothing is taken from a free mailbox whose next command has a known opcode. -/
theorem badOps_known {s : State} {mb : Nat} {d : Desc} (hr : (s.mbx mb).running = none) (hq : (s.mbx mb).queue.head? = some d)
    (hk : knownOps.contains d.opcode = true) (n : Nat) : s.badOps n mb = s := by
  cases n with
  | zero => rfl
  | succ n =>
    obtain ⟨rest, hq⟩ : ∃ rest, (s.mbx mb).queue = d :: rest := by
      cases h : (s.mbx mb).queue with
      | nil => simp [h] at hq
      | cons a l => simp [h] at hq; exact ⟨l, by rw [hq]⟩
    simp only [State.badOps, hr, hq]
    rw [if_pos (Or.inr (Or.inl hk))]

/-- A question that a command puts to the world changes no partition. -/
@[simp] theorem askOnce_parts (s : State) (mb : Nat) (q : OutMsg) : (s.askOnce mb q).parts = s.parts := by
  unfold State.askOnce
  split <;> rfl

/-- A question that a command puts to the world changes no job. -/
@[simp] theorem askOnce_job (s : State) (mb : Nat) (q : OutMsg) (p : Nat) : (s.askOnce mb q).job p = s.job p := by
  simp [State.job, State.part]

/-- A message on a management port changes what the ports count and what is sent, and nothing else (R464). -/
theorem mgmtSend_frame (s : State) (port : Nat) (dst : MgmtAddr) (own : Bool) (mop mb : Nat) (body : List Byte) :
    ∃ g o, s.mgmtSend port dst own mop mb body = { s with mgmt := g, sent := o } := by
  have h (l : List Nat) : ∀ s0 : State, (∃ g o, s0 = { s with mgmt := g, sent := o }) → ∀ f : State → Nat → State,
      (∀ x i, ∃ g o, f x i = { x with mgmt := g, sent := o }) → ∃ g o, l.foldl f s0 = { s with mgmt := g, sent := o } := by
    induction l with
    | nil => exact fun s0 h0 _ _ => h0
    | cons i l ih =>
      rintro s0 ⟨g, o, rfl⟩ f hf
      obtain ⟨g', o', h'⟩ := hf { s with mgmt := g, sent := o } i
      exact ih _ ⟨g', o', h'⟩ f hf
  exact h _ s ⟨s.mgmt, s.sent, rfl⟩ _ fun x i => ⟨_, _, rfl⟩

/-- A ready command passes its checks and takes its lock, and its body begins (R443). -/
theorem go_ready {f : CmdDef} {s : State} {mb : Nat} {d : Desc} {e : ExtIn} (h : Ready f s mb d e) :
    (s.taken mb d e).go f mb d = f.body (f.begun s mb d e) (f.cmd mb d) := by
  have hg := h.gate
  have hl := h.lock
  simp only [CmdDef.cmd] at hg hl
  simp only [State.go, CmdDef.begun, CmdDef.cmd, hg, ne_eq, not_true_eq_false, if_false]
  cases hp : f.lock (s.taken mb d e) { mb, d, a := (unpack f.widths d.args).getD [] } with
  | none => rfl
  | some p =>
    obtain ⟨h1, h2⟩ := hl p hp
    simp [h1, h2, State.lockFor]

/-- A ready command starts (R443). -/
theorem start_ready {f : CmdDef} {s : State} {mb : Nat} {d : Desc} {e : ExtIn} (h : Ready f s mb d e) :
    f.start s mb e = (f.body (f.begun s mb d e) (f.cmd mb d)).badOps 64 mb := by
  obtain ⟨rest, hq⟩ : ∃ rest, (s.mbx mb).queue = d :: rest := by
    have hf := h.front
    cases hc : (s.mbx mb).queue with
    | nil => simp [hc] at hf
    | cons a l => simp [hc] at hf; exact ⟨l, by rw [hf]⟩
  have ht : (s.modMb mb fun m => { m with queue := rest, running := some d, exec := d.slot, ext := e }) = s.taken mb d e := by
    simp [State.taken, State.modMb, hq]
  have hs : ¬ (s.hub.hostload = true ∧ mb ≠ 0) := by
    rcases h.served with h | h <;> simp [h]
  simp only [CmdDef.start, badOps_known h.idle h.front h.known, h.idle, hq]
  rw [if_neg (by simp [h.runs, h.op, h.sel]; tauto), ht, go_ready h]

/-- A command row whose command is ready runs its body. -/
theorem run_ready {f : CmdDef} {t mb : Nat} {s : State} {d : Desc} {e : ExtIn} (h : Ready f (s.adv t) mb d e) :
    f.run t mb e s = .next ((f.body (f.begun (s.adv t) mb d e) (f.cmd mb d)).badOps 64 mb) := by
  rw [CmdDef.run, start_ready h]

/-- A command row has an effect where its body has it. -/
theorem runs_of {f : CmdDef} {t mb : Nat} {e : ExtIn} {i : Instr} {cond : State → Cmd → Prop} {effect : State → Cmd → State}
    (hi : ∀ s, exec i s = f.run t mb e s) (h : ∀ s c, cond s c → f.body s c = effect s c) : Runs f t mb e i cond effect := by
  intro s d hr hc
  rw [hi, run_ready hr, h _ _ hc]

end Sys2Proof.Machine
end

