-- ==== Sys2Proof/Laws/Slice.lean ====
section
/-! SUPPORT. The banks and entries of a slice (05 R169, R170): they name each 16-byte unit once. -/

namespace Sys2Proof.Machine

/-- The D-block, the row and the unit of the address that an entry of a bank stores. -/
theorem sliceBlock_addr {b : Nat} (h : b < 32) (e : Nat) : sliceBlock (sliceAddr b e) = e / 4 := by
  simp only [sliceAddr, sliceBlock]; omega
theorem sliceRow_addr {b : Nat} (h : b < 32) (e : Nat) : sliceRow (sliceAddr b e) = 8 * (e % 4) + b / 4 := by
  simp only [sliceAddr, sliceRow]; omega
theorem sliceUnit_addr (b e : Nat) : sliceUnit (sliceAddr b e) = (b + 4 - e % 4) % 4 := by
  simp only [sliceAddr, sliceUnit]; omega

/-- The bank of the address that an entry of a bank stores. -/
@[simp] theorem sliceBank_addr {b : Nat} (h : b < 32) (e : Nat) : sliceBank (sliceAddr b e) = b := by
  have h8 : (8 * (e % 4) + b / 4) % 8 = b / 4 := by omega
  have h9 : (8 * (e % 4) + b / 4) / 8 = e % 4 := by omega
  have hr : e % 4 < 4 := by omega
  rw [sliceBank, sliceRow_addr h, sliceUnit_addr, h8, h9]
  generalize e % 4 = r at hr
  omega

/-- The entry of the address that an entry of a bank stores. -/
@[simp] theorem sliceEntry_addr {b : Nat} (h : b < 32) (e : Nat) : sliceEntry (sliceAddr b e) = e := by
  rw [sliceEntry, sliceBlock_addr h, sliceRow_addr h]; omega

/-- The entry of a bank that holds a slice address stores its unit. -/
theorem sliceAddr_bank_entry (a : Nat) : sliceAddr (sliceBank a) (sliceEntry a) = 16 * (a / 16) := by
  have hr : sliceRow a < 32 := by simp only [sliceRow]; omega
  have hu : sliceUnit a < 4 := by simp only [sliceUnit]; omega
  have ha : 16 * (a / 16) = 2048 * sliceBlock a + 64 * sliceRow a + 16 * sliceUnit a := by
    simp only [sliceBlock, sliceRow, sliceUnit]; omega
  have hb : sliceBank a / 4 = sliceRow a % 8 := by rw [sliceBank]; omega
  have he : sliceEntry a / 4 = sliceBlock a ∧ sliceEntry a % 4 = sliceRow a / 8 := by rw [sliceEntry]; omega
  have hw : (sliceBank a + 4 - sliceRow a / 8) % 4 = sliceUnit a := by rw [sliceBank]; omega
  rw [sliceAddr, hb, he.1, he.2, hw, ha]; omega

/-- A slice has 32 banks of 1,536 entries. -/
theorem sliceBank_lt (a : Nat) : sliceBank a < 32 := by simp only [sliceBank, sliceRow, sliceUnit]; omega
theorem sliceEntry_lt {a : Nat} (h : a < 0xC0000) : sliceEntry a < 1536 := by
  simp only [sliceEntry, sliceBlock, sliceRow]
  omega

end Sys2Proof.Machine
end

