-- ==== Sys2Proof/Laws/Wire.lean ====
section
/-! SUPPORT. What a flit's bytes carry: the check of its `CRC` agrees with the sender's, and when its body is taken (R343, R344, R349). -/

namespace Sys2Proof

open Sys2Proof.Machine

/-- The length of a little-endian string. -/
theorem Laws.leBytes_length (n v : Nat) : (leBytes n v).length = n := by
  induction n generalizing v with
  | zero => rfl
  | succ n ih => simp [leBytes, ih]

/-- Little-endian bytes spell the number that they were made from. -/
theorem Laws.ofLe_leBytes (n v : Nat) (h : v < 256 ^ n) : ofLe (leBytes n v) = v := by
  induction n generalizing v with
  | zero => simp at h; simp [h, leBytes, ofLe]
  | succ n ih =>
    have := ih (v / 256) (by rw [Nat.div_lt_iff_lt_mul (by decide)]; simpa [Nat.pow_succ] using h)
    simp only [leBytes, ofLe, BitVec.toNat_ofNat] at this ⊢
    omega

/-- The last four bytes of a flit. -/
theorem Laws.slice_right {a b : List Byte} (h : a.length = 636) (hb : b.length = 4) : slice (a ++ b) 636 4 = b := by
  simp [slice, ← h, hb]

/-- The `CRC` that a port puts at the end of a flit matches at the receiver. -/
theorem Laws.crcOk_frame {fr : List Byte} (h : fr.length = 636) : crcOk (fr ++ leBytes 4 (crc32c fr).toNat) = true := by
  have hl := Laws.leBytes_length 4 (crc32c fr).toNat
  have ht : (fr ++ leBytes 4 (crc32c fr).toNat).take 636 = fr := by simp [← h]
  simp only [crcOk, num, Laws.slice_right h hl, ht, Laws.ofLe_leBytes 4 _ (crc32c fr).isLt, List.length_append, h, hl, beq_self_eq_true, Bool.and_self]

/-- A flit without a seal carries its body in plain. -/
theorem Laws.flitBody_clear {s : State} {i slot : Nat} {h : FlitHead} {b : List Byte} (he : h.enc = false) :
    s.flitBody i slot h b = some (slice b 12 624) := by simp [State.flitBody, he]

/-- A time flit whose tag does not match is not taken. -/
theorem Laws.flitBody_bad {s : State} {i slot : Nat} {h : FlitHead} {b : List Byte} (he : h.enc = true) (hk : h.kind = 3)
    (ht : slice (Config.gcmSeal (s.linkKey i 1 h.keySel).key (nonceOf (s.linkKey i 1 h.keySel) slot) (b.take 620) []) 0 16 ≠ slice b 620 16) :
    s.flitBody i slot h b = none := by
  simp [State.flitBody, he, hk, ht]

end Sys2Proof
end

