-- ==== Sys2Proof/WellFormed.lean ====
section
/-! DEFINITION. Which commands are well formed: every operand that numbers a part of the device lies in the range the spec gives that
part (R58 sites, R60 tiles, R80 routers, R333 ports, R373 channels, R438 mailboxes and so on). The meanings are total: an ill-formed
command is never sent by the hardware, and no meaning depends on this file. -/

namespace Sys2Proof

/-- The operands of a command that number something, each with the bound it must stay below. -/
def Instr.bounds : Instr → List (Nat × Nat)
  | .calendsClose t p => [(t, 18446744073709551616), (p, 16)]
  | .voteSend t p => [(t, 18446744073709551616), (p, 16)]
  | .voteReceive t _ => [(t, 18446744073709551616)]
  | .voteDeadlineExpire t g _ attempt => [(t, 18446744073709551616), (g, 65536), (attempt, 256)]
  | .outcomeQueryTimeout t p => [(t, 18446744073709551616), (p, 16)]
  | .heraldQueryReceive t _ => [(t, 18446744073709551616)]
  | .heraldSilent t p => [(t, 18446744073709551616), (p, 16)]
  | .sealOutcome t p _ => [(t, 18446744073709551616), (p, 16)]
  | .replayOutcome t p _ => [(t, 18446744073709551616), (p, 16)]
  | .replayStart t p => [(t, 18446744073709551616), (p, 16)]
  | .holdOutcome t p _ => [(t, 18446744073709551616), (p, 16)]
  | .abandonOutcome t p _ => [(t, 18446744073709551616), (p, 16)]
  | .wbWriteBack t site => [(t, 18446744073709551616), (site, 9216)]
  | .mirrorDeadlineExpire t p => [(t, 18446744073709551616), (p, 16)]
  | .twinAckReceive t p _ => [(t, 18446744073709551616), (p, 16)]
  | .vigilLoad t g => [(t, 18446744073709551616), (g, 64)]
  | .stepRelease t p => [(t, 18446744073709551616), (p, 16)]
  | .fullPlacement t g => [(t, 18446744073709551616), (g, 64)]
  | .siteFaultDetect t site cls _ _ _ _ => [(t, 18446744073709551616), (site, 9216), (cls, 65536)]
  | .plannedFence t site => [(t, 18446744073709551616), (site, 9216)]
  | .repairStart t g => [(t, 18446744073709551616), (g, 64)]
  | .spareFillComplete t g => [(t, 18446744073709551616), (g, 64)]
  | .patchKgroup t site => [(t, 18446744073709551616), (site, 9216)]
  | .vectorBeat t site => [(t, 18446744073709551616), (site, 9216)]
  | .routeElementSend t site plane port => [(t, 18446744073709551616), (site, 9216), (plane, 4), (port, 4)]
  | .creditReturn t site plane port => [(t, 18446744073709551616), (site, 9216), (plane, 4), (port, 8)]
  | .portSwitch t site plane port _ => [(t, 18446744073709551616), (site, 9216), (plane, 4), (port, 8)]
  | .counterAdvance t site n => [(t, 18446744073709551616), (site, 9216), (n, 8)]
  | .steerFire t site n => [(t, 18446744073709551616), (site, 9216), (n, 8)]
  | .shadowLoad t site => [(t, 18446744073709551616), (site, 9216)]
  | .unitSwitch t site unit => [(t, 18446744073709551616), (site, 9216), (unit, 256)]
  | .eveTokenHead t site unit => [(t, 18446744073709551616), (site, 9216), (unit, 256)]
  | .sliceAccessGrant t site _ _ hits => [(t, 18446744073709551616), (site, 9216)] ++ hits.map fun h => (h.1, 49152)
  | .agIteration t site n => [(t, 18446744073709551616), (site, 9216), (n, 4)]
  | .windowAccess t _ _ => [(t, 18446744073709551616)]
  | .tileMovingRetry t die tag => [(t, 18446744073709551616), (die, 2), (tag, 4096)]
  | .zeroSweepComplete t p => [(t, 18446744073709551616), (p, 16)]
  | .seqInstruction t site _ => [(t, 18446744073709551616), (site, 9216)]
  | .xSend t site => [(t, 18446744073709551616), (site, 9216)]
  | .xTrysend t site => [(t, 18446744073709551616), (site, 9216)]
  | .xDone t site => [(t, 18446744073709551616), (site, 9216)]
  | .xRecv t site => [(t, 18446744073709551616), (site, 9216)]
  | .xRelease t site => [(t, 18446744073709551616), (site, 9216)]
  | .xPutw t site => [(t, 18446744073709551616), (site, 9216)]
  | .xGetw t site => [(t, 18446744073709551616), (site, 9216)]
  | .xPutt t site => [(t, 18446744073709551616), (site, 9216)]
  | .xGett t site => [(t, 18446744073709551616), (site, 9216)]
  | .xPutv t site => [(t, 18446744073709551616), (site, 9216)]
  | .xGetv t site => [(t, 18446744073709551616), (site, 9216)]
  | .xEphase t site => [(t, 18446744073709551616), (site, 9216)]
  | .xSigraise t site => [(t, 18446744073709551616), (site, 9216)]
  | .xSigwait t site => [(t, 18446744073709551616), (site, 9216)]
  | .xSigwaitl t site => [(t, 18446744073709551616), (site, 9216)]
  | .xSigsub t site => [(t, 18446744073709551616), (site, 9216)]
  | .xSigread t site => [(t, 18446744073709551616), (site, 9216)]
  | .xBarrive t site => [(t, 18446744073709551616), (site, 9216)]
  | .xBarwait t site => [(t, 18446744073709551616), (site, 9216)]
  | .xFence t site => [(t, 18446744073709551616), (site, 9216)]
  | .xSemset t site => [(t, 18446744073709551616), (site, 9216)]
  | .xSemclr t site => [(t, 18446744073709551616), (site, 9216)]
  | .xSemwait t site => [(t, 18446744073709551616), (site, 9216)]
  | .seqWaitWake t site => [(t, 18446744073709551616), (site, 9216)]
  | .fastEnter t site => [(t, 18446744073709551616), (site, 9216)]
  | .handlerDispatch t site => [(t, 18446744073709551616), (site, 9216)]
  | .depositReceive t _ => [(t, 18446744073709551616)]
  | .channelCreditReceive t site slot lines => [(t, 18446744073709551616), (site, 9216), (slot, 32), (lines, 2048)]
  | .sendStallExpire t site slot => [(t, 18446744073709551616), (site, 9216), (slot, 32)]
  | .spillDepositReceive t _ => [(t, 18446744073709551616)]
  | .contributionReceive t _ => [(t, 18446744073709551616)]
  | .signalRaiseReceive t _ _ => [(t, 18446744073709551616)]
  | .barrierArrivalReceive t router p bar => [(t, 18446744073709551616), (router, 576), (p, 16), (bar, 64)]
  | .barrierReleaseReceive t tile bar => [(t, 18446744073709551616), (tile, 8192), (bar, 64)]
  | .longWaitThreshold t site => [(t, 18446744073709551616), (site, 9216)]
  | .idesWaitExpire t site => [(t, 18446744073709551616), (site, 9216)]
  | .idesPhaseExpire t p => [(t, 18446744073709551616), (p, 16)]
  | .idesStepExpire t p => [(t, 18446744073709551616), (p, 16)]
  | .harvestComplete t p => [(t, 18446744073709551616), (p, 16)]
  | .ptpMessageReceive t _ _ => [(t, 18446744073709551616)]
  | .ptpMasterLoss t port => [(t, 18446744073709551616), (port, 2)]
  | .timeFrameSend t port => [(t, 18446744073709551616), (port, 24)]
  | .timeFrameReceive t port _ => [(t, 18446744073709551616), (port, 24)]
  | .servoUpdate t => [(t, 18446744073709551616)]
  | .holdoverExpire t => [(t, 18446744073709551616)]
  | .syncEdge t => [(t, 18446744073709551616)]
  | .twinTimeReceive t _ => [(t, 18446744073709551616)]
  | .syncFollowerTimeout t => [(t, 18446744073709551616)]
  | .almanacFire t e => [(t, 18446744073709551616), (e, 8192)]
  | .almanacDeadlineExpire t p e => [(t, 18446744073709551616), (p, 16), (e, 8192)]
  | .almanacBankSwap t => [(t, 18446744073709551616)]
  | .automaticPrewarn t p => [(t, 18446744073709551616), (p, 16)]
  | .intercalarySlotOpen t p => [(t, 18446744073709551616), (p, 16)]
  | .intercalarySlotClose t p => [(t, 18446744073709551616), (p, 16)]
  | .bistComplete t site _ _ bank entry elem => [(t, 18446744073709551616), (site, 9216), (bank, 32), (entry, 1536), (elem, 256)]
  | .errorRecordArrive t _ => [(t, 18446744073709551616)]
  | .coalesceEntryAge t cls _ _ => [(t, 18446744073709551616), (cls, 65536)]
  | .logRingAppend t => [(t, 18446744073709551616)]
  | .portTrain t port _ => [(t, 18446744073709551616), (port, 24)]
  | .laneLockTimeout t port lane => [(t, 18446744073709551616), (port, 24), (lane, 9)]
  | .berGateEnd t port _ => [(t, 18446744073709551616), (port, 24)]
  | .trainingAbandon t port => [(t, 18446744073709551616), (port, 24)]
  | .laneFail t port lane _ => [(t, 18446744073709551616), (port, 24), (lane, 9)]
  | .swapOrderedSetReceive t port lane => [(t, 18446744073709551616), (port, 24), (lane, 9)]
  | .laneSwapResume t port => [(t, 18446744073709551616), (port, 24)]
  | .flitReceive t port _ => [(t, 18446744073709551616), (port, 24)]
  | .nakReceive t port _ => [(t, 18446744073709551616), (port, 24)]
  | .retryAckTimeout t port => [(t, 18446744073709551616), (port, 24)]
  | .initFlitReceive t port _ => [(t, 18446744073709551616), (port, 24)]
  | .keyNextReceive t port _ => [(t, 18446744073709551616), (port, 24)]
  | .retrainRequestReceive t port => [(t, 18446744073709551616), (port, 24)]
  | .swapPlanReceive t port lane => [(t, 18446744073709551616), (port, 24), (lane, 9)]
  | .downNoticeReceive t port => [(t, 18446744073709551616), (port, 24)]
  | .minWidthReceive t port w => [(t, 18446744073709551616), (port, 24), (w, 10)]
  | .controlFlitResend t port => [(t, 18446744073709551616), (port, 24)]
  | .keySelChange t port _ => [(t, 18446744073709551616), (port, 24)]
  | .packetRoute t router _ _ => [(t, 18446744073709551616), (router, 576)]
  | .combineForward t router cu => [(t, 18446744073709551616), (router, 576), (cu, 4)]
  | .dmaDescriptorStart t die tile => [(t, 18446744073709551616), (die, 2), (tile, 8192)]
  | .completionReceive t die tag _ _ _ _ => [(t, 18446744073709551616), (die, 2), (tag, 4096)]
  | .dmaRateIncrease t q dest => [(t, 18446744073709551616), (q, 16384), (dest, 65536)]
  | .transactionTimeout t die tag => [(t, 18446744073709551616), (die, 2), (tag, 4096)]
  | .routeDrainComplete t cls => [(t, 18446744073709551616), (cls, 4)]
  | .ddrTrainingComplete t ch _ _ spd _ _ => [(t, 18446744073709551616), (ch, 16), (spd.rate, 16), (spd.capacity, 512)]
  | .ddrPhyLockLoss t ch => [(t, 18446744073709551616), (ch, 16)]
  | .pageAccess t _ ecc mapEcc word _ => [(t, 18446744073709551616), (ecc, 4), (mapEcc, 3), (word, 9)]
  | .pagemapRebuild t page => [(t, 18446744073709551616), (page, 0x1000000)]
  | .scrubRead t addr ecc => [(t, 18446744073709551616), (addr, 4398046511104), (ecc, 4)]
  | .pageMigrationCopy t die _ => [(t, 18446744073709551616), (die, 2)]
  | .pageZeroComplete t ppn => [(t, 18446744073709551616), (ppn, 0x1000000)]
  | .cxlMemRead t _ _ ecc => [(t, 18446744073709551616), (ecc.data, 4), (ecc.map, 3)]
  | .cxlMemWrite t _ data => [(t, 18446744073709551616), (data.ecc.data, 4), (data.ecc.map, 3)]
  | .mirrorRelease t p => [(t, 18446744073709551616), (p, 16)]
  | .mirrorWritesAcked t p => [(t, 18446744073709551616), (p, 16)]
  | .mirrorSlotAcked t p => [(t, 18446744073709551616), (p, 16)]
  | .twinApplyReceive t p _ => [(t, 18446744073709551616), (p, 16)]
  | .twinNakReceive t p _ => [(t, 18446744073709551616), (p, 16)]
  | .twinBreakReceive t p _ => [(t, 18446744073709551616), (p, 16)]
  | .mirrorExportExpire t p _ => [(t, 18446744073709551616), (p, 16)]
  | .inputRecordConsume t p => [(t, 18446744073709551616), (p, 16)]
  | .doorbell t mb tail => [(t, 18446744073709551616), (mb, 24), (tail, 64)]
  | .commandLockGrant t p _ => [(t, 18446744073709551616), (p, 16)]
  | .mailboxReset t mb => [(t, 18446744073709551616), (mb, 24)]
  | .cplHeadWrite t mb head => [(t, 18446744073709551616), (mb, 24), (head, 64)]
  | .evHeadWrite t head => [(t, 18446744073709551616), (head, 2048)]
  | .registerWrite t _ len _ => [(t, 18446744073709551616), (len, 9)]
  | .hostPortReset t => [(t, 18446744073709551616)]
  | .mgmtFrameReceive t port _ => [(t, 18446744073709551616), (port, 2)]
  | .censusGateCapture t p => [(t, 18446744073709551616), (p, 16)]
  | .identify t mb _ => [(t, 18446744073709551616), (mb, 24)]
  | .shutdown t mb _ _ _ => [(t, 18446744073709551616), (mb, 24)]
  | .resetPartition t mb _ => [(t, 18446744073709551616), (mb, 24)]
  | .resetJubilee t mb _ => [(t, 18446744073709551616), (mb, 24)]
  | .resetRecovery t mb _ => [(t, 18446744073709551616), (mb, 24)]
  | .deviceIdSet t mb _ => [(t, 18446744073709551616), (mb, 24)]
  | .configWrite t mb _ => [(t, 18446744073709551616), (mb, 24)]
  | .mailboxClaim t mb _ => [(t, 18446744073709551616), (mb, 24)]
  | .mailboxRelease t mb _ => [(t, 18446744073709551616), (mb, 24)]
  | .fwHostload t mb _ _ => [(t, 18446744073709551616), (mb, 24)]
  | .eventMaskSet t mb _ => [(t, 18446744073709551616), (mb, 24)]
  | .eventStreamSet t mb _ => [(t, 18446744073709551616), (mb, 24)]
  | .partitionCreate t mb _ => [(t, 18446744073709551616), (mb, 24)]
  | .partitionDestroy t mb _ => [(t, 18446744073709551616), (mb, 24)]
  | .ordoLoad t mb _ => [(t, 18446744073709551616), (mb, 24)]
  | .ordoUnload t mb _ => [(t, 18446744073709551616), (mb, 24)]
  | .jobStart t mb _ _ _ => [(t, 18446744073709551616), (mb, 24)]
  | .jobKill t mb _ => [(t, 18446744073709551616), (mb, 24)]
  | .almanacWrite t mb _ => [(t, 18446744073709551616), (mb, 24)]
  | .almanacArm t mb _ => [(t, 18446744073709551616), (mb, 24)]
  | .almanacDisarm t mb _ => [(t, 18446744073709551616), (mb, 24)]
  | .timeSet t mb _ => [(t, 18446744073709551616), (mb, 24)]
  | .idesSet t mb _ => [(t, 18446744073709551616), (mb, 24)]
  | .heraldStatsSet t mb _ => [(t, 18446744073709551616), (mb, 24)]
  | .commitStatus t mb _ => [(t, 18446744073709551616), (mb, 24)]
  | .digestRead t mb _ => [(t, 18446744073709551616), (mb, 24)]
  | .replayForce t mb _ _ _ => [(t, 18446744073709551616), (mb, 24)]
  | .commitRewind t mb _ => [(t, 18446744073709551616), (mb, 24)]
  | .holdRelease t mb _ => [(t, 18446744073709551616), (mb, 24)]
  | .fenceSite t mb _ => [(t, 18446744073709551616), (mb, 24)]
  | .vigilSet t mb _ => [(t, 18446744073709551616), (mb, 24)]
  | .portConfig t mb _ => [(t, 18446744073709551616), (mb, 24)]
  | .portRetrain t mb _ => [(t, 18446744073709551616), (mb, 24)]
  | .routeCfgSet t mb _ => [(t, 18446744073709551616), (mb, 24)]
  | .routeTableWrite t mb _ => [(t, 18446744073709551616), (mb, 24)]
  | .routeSwap t mb _ => [(t, 18446744073709551616), (mb, 24)]
  | .routeEpochSwitch t mb _ => [(t, 18446744073709551616), (mb, 24)]
  | .groupHeraldSet t mb _ => [(t, 18446744073709551616), (mb, 24)]
  | .pagemapAlloc t mb _ => [(t, 18446744073709551616), (mb, 24)]
  | .pagemapFree t mb _ => [(t, 18446744073709551616), (mb, 24)]
  | .windowOpen t mb _ => [(t, 18446744073709551616), (mb, 24)]
  | .windowClose t mb _ => [(t, 18446744073709551616), (mb, 24)]
  | .keepSet t mb _ => [(t, 18446744073709551616), (mb, 24)]
  | .scrubSet t mb _ => [(t, 18446744073709551616), (mb, 24)]
  | .pageRetire t mb _ => [(t, 18446744073709551616), (mb, 24)]
  | .pageRetireSet t mb _ => [(t, 18446744073709551616), (mb, 24)]
  | .twinBind t mb _ _ _ _ => [(t, 18446744073709551616), (mb, 24)]
  | .twinUnbind t mb _ => [(t, 18446744073709551616), (mb, 24)]
  | .mirrorExport t mb _ => [(t, 18446744073709551616), (mb, 24)]
  | .restoreBegin t mb _ _ _ => [(t, 18446744073709551616), (mb, 24)]
  | .restoreCommit t mb _ => [(t, 18446744073709551616), (mb, 24)]
  | .restorePage t mb _ _ _ => [(t, 18446744073709551616), (mb, 24)]
  | .epactRead t mb _ => [(t, 18446744073709551616), (mb, 24)]
  | .reconcile t mb _ => [(t, 18446744073709551616), (mb, 24)]
  | .censusRead t mb _ => [(t, 18446744073709551616), (mb, 24)]
  | .censusSnapshot t mb _ => [(t, 18446744073709551616), (mb, 24)]
  | .logRead t mb _ => [(t, 18446744073709551616), (mb, 24)]
  | .harvestSet t mb _ => [(t, 18446744073709551616), (mb, 24)]
  | .harvestRead t mb _ => [(t, 18446744073709551616), (mb, 24)]
  | .lentSet t mb _ => [(t, 18446744073709551616), (mb, 24)]
  | .emberRun t mb _ _ _ => [(t, 18446744073709551616), (mb, 24)]
  | .intercalarySet t mb _ => [(t, 18446744073709551616), (mb, 24)]
  | .linkBerTest t mb _ _ => [(t, 18446744073709551616), (mb, 24)]
  | .dvfsSet t mb _ => [(t, 18446744073709551616), (mb, 24)]
  | .powerBudgetSet t mb _ => [(t, 18446744073709551616), (mb, 24)]
  | .prewarnDefaultSet t mb _ => [(t, 18446744073709551616), (mb, 24)]
  | .regionPower t mb _ => [(t, 18446744073709551616), (mb, 24)]
  | .thermalSet t mb _ => [(t, 18446744073709551616), (mb, 24)]
  | .attest t mb _ => [(t, 18446744073709551616), (mb, 24)]
  | .alarmPolicy t mb _ => [(t, 18446744073709551616), (mb, 24)]
  | .debugUnlock t mb _ => [(t, 18446744073709551616), (mb, 24)]
  | .debugLock t mb _ => [(t, 18446744073709551616), (mb, 24)]
  | .keyInstall t mb _ => [(t, 18446744073709551616), (mb, 24)]
  | .keyErase t mb _ => [(t, 18446744073709551616), (mb, 24)]
  | .mgmtChallenge t mb _ => [(t, 18446744073709551616), (mb, 24)]
  | .mgmtAuth t mb _ => [(t, 18446744073709551616), (mb, 24)]
  | .operatorKeyFuse t mb _ => [(t, 18446744073709551616), (mb, 24)]
  | .powerSample t _ _ => [(t, 18446744073709551616)]
  | .budgetCapRaise t => [(t, 18446744073709551616)]
  | .budgetCapLower t => [(t, 18446744073709551616)]
  | .pmbusPoll t _ => [(t, 18446744073709551616)]
  | .thermalSensorRead t sensor _ => [(t, 18446744073709551616), (sensor, 256)]
  | .thermalCapRaise t g => [(t, 18446744073709551616), (g, 64)]
  | .thermalCapLower t g => [(t, 18446744073709551616), (g, 64)]
  | .thermalTrip t sensor => [(t, 18446744073709551616), (sensor, 256)]
  | .ivrCellFail t g cell _ => [(t, 18446744073709551616), (g, 64), (cell, 10)]
  | .surgeRecharged t g => [(t, 18446744073709551616), (g, 64)]
  | .droopDetect t g _ _ => [(t, 18446744073709551616), (g, 64)]
  | .droopHardFloor t g _ _ => [(t, 18446744073709551616), (g, 64)]
  | .bumpSample t g _ _ => [(t, 18446744073709551616), (g, 64)]
  | .powerGroupClose t g _ => [(t, 18446744073709551616), (g, 64)]
  | .coldBoot t _ _ => [(t, 18446744073709551616)]
  | .readySet t => [(t, 18446744073709551616)]
  | .ledgerAppend t kind cls _ => [(t, 18446744073709551616), (kind, 8), (cls, 65536)]
  | .lockstepMismatch t pair _ => [(t, 18446744073709551616), (pair, 2)]
  | .heartbeatTick t => [(t, 18446744073709551616)]
  | .watchdogExpire t => [(t, 18446744073709551616)]
  | .coldRstNAssert t _ => [(t, 18446744073709551616)]
  | .railRemoval t => [(t, 18446744073709551616)]
  | .alarmRaise t src => [(t, 18446744073709551616), (src.cls, 6), (src.det, 256), (src.val, 65536)]
  | .tamperSample t _ => [(t, 18446744073709551616)]
  | .fuseRecheck t _ => [(t, 18446744073709551616)]
  | .jtagInstruction t _ => [(t, 18446744073709551616)]
  | .coldRstNRelease t => [(t, 18446744073709551616)]
  | .mgmtLinkLoss t port => [(t, 18446744073709551616), (port, 2)]
  | .ftNowRead t => [(t, 18446744073709551616)]
  | .evHoldoffExpire t => [(t, 18446744073709551616)]
  | .normalCompletion t p => [(t, 18446744073709551616), (p, 16)]

/-- Whether a command is well formed. -/
def Instr.wf (i : Instr) : Bool := i.bounds.all fun (x : Nat × Nat) => decide (x.1 < x.2)

end Sys2Proof
end

