-- ==== Sys2Proof/Tests/Slice0.lean ====
section
/-! SUPPORT. The model's own tests: the smoke test of well-formedness, and for every statement with hypotheses states and operands that meet
them, each clause by itself. -/

namespace Sys2Proof.Tests

open Sys2Proof.Machine

set_option Elab.async false

/-- A device that has started: `READY`, out of reset, device 5, partition 0 on region 0, DDR channel 0 in service with 1 GiB. -/
def up : State :=
  { State.reset with
    hub := { State.reset.hub with ready := true, inReset := false, devId := 5 }
    parts := [(0, { exist := true, regions := 1, cred := 7 })]
    mem := { State.reset.mem with chans := [(0, { st := .up, capacity := 1 })] } }

/-- Partition 0 with a job. -/
def withJob (j : Job) : State := up.modPart 0 fun x => { x with job := some j }

/-- Site 0 holding tile 0. -/
def tile (f : Site → Site) : State := up.modSite 0 fun x => f { x with st := .tile, tile := 0 }

/-- A descriptor of a command with its packed arguments (R440, R449); `buf` is its buffer's kind and length. -/
def dsc (f : CmdDef) (part : Nat) (args : List Nat) (buf : Nat × Nat := (0, 0)) : Desc :=
  { word := BitVec.ofNat 512 (f.op + 2 ^ 64 * part + 2 ^ 80 * buf.1 + 2 ^ 96 * buf.2 + 2 ^ 192 * pack (f.widths.zip args)) }

/-- A state whose mailbox `mb` has that descriptor at its front. -/
def queued (s : State) (mb : Nat) (d : Desc) : State := s.modMb mb fun m => { m with queue := [d] }

/-- Whether a command is ready, as a computation. -/
def readyB (f : CmdDef) (s : State) (mb : Nat) (d : Desc) (e : ExtIn) : Bool :=
  (s.mbx mb).running.isNone && decide ((s.mbx mb).queue.head? = some d) && !(s.mbx mb).stalled && (!s.hub.hostload || decide (mb = 0)) &&
    knownOps.contains d.opcode && decide (d.opcode = f.op) && f.sel d && decide ((s.taken mb d e).gate f (f.cmd mb d) = 0) &&
    match f.lock (s.taken mb d e) (f.cmd mb d) with
    | none => true
    | some p => ((s.taken mb d e).part p).lock.isNone && ((s.taken mb d e).part p).lockWait.isEmpty

theorem ready_of {f : CmdDef} {s : State} {mb : Nat} {d : Desc} {e : ExtIn} (h : readyB f s mb d e = true) : Ready f s mb d e := by
  simp only [readyB, Bool.and_eq_true, Option.isNone_iff_eq_none, decide_eq_true_eq, Bool.not_eq_true', Bool.or_eq_true] at h
  obtain ⟨⟨⟨⟨⟨⟨⟨⟨h1, h2⟩, h3⟩, h4⟩, h5⟩, h6⟩, h7⟩, h8⟩, h9⟩ := h
  refine ⟨h1, h2, h3, h4, h5, h6, h7, h8, fun p hp => ?_⟩
  rw [hp] at h9
  simpa using h9

/-- A ready command whose condition holds. -/
def Meets (f : CmdDef) (t mb : Nat) (e : ExtIn) (s : State) (d : Desc) (cond : State → Cmd → Prop) : Prop :=
  Ready f (s.adv t) mb d e ∧ cond (f.begun (s.adv t) mb d e) (f.cmd mb d)

theorem meets {f : CmdDef} {t mb : Nat} {e : ExtIn} {s : State} {d : Desc} {cond : State → Cmd → Prop}
    (h : readyB f (s.adv t) mb d e = true) (hc : cond (f.begun (s.adv t) mb d e) (f.cmd mb d)) : Meets f t mb e s d cond :=
  ⟨ready_of h, hc⟩

/-! Ill-formed commands: for each bound of `Instr.bounds` a command at the bound, which the check refuses, and one below it. -/

theorem test_wf_bounds_1 :
    Instr.wf (.calendsClose 18446744073709551616 0) = false ∧ Instr.wf (.calendsClose 18446744073709551615 0) = true ∧
    Instr.wf (.calendsClose 0 16) = false ∧ Instr.wf (.calendsClose 0 15) = true ∧
    Instr.wf (.voteDeadlineExpire 0 65536 0 0) = false ∧ Instr.wf (.voteDeadlineExpire 0 65535 0 0) = true ∧
    Instr.wf (.voteDeadlineExpire 0 0 0 256) = false ∧ Instr.wf (.voteDeadlineExpire 0 0 0 255) = true ∧
    Instr.wf (.wbWriteBack 0 9216) = false ∧ Instr.wf (.wbWriteBack 0 9215) = true ∧
    Instr.wf (.vigilLoad 0 64) = false ∧ Instr.wf (.vigilLoad 0 63) = true := by decide

theorem test_wf_bounds_2 :
    Instr.wf (.siteFaultDetect 0 0 65536 0 0 0 0) = false ∧ Instr.wf (.siteFaultDetect 0 0 65535 0 0 0 0) = true ∧
    Instr.wf (.routeElementSend 0 0 4 0) = false ∧ Instr.wf (.routeElementSend 0 0 3 0) = true ∧
    Instr.wf (.routeElementSend 0 0 0 4) = false ∧ Instr.wf (.routeElementSend 0 0 0 3) = true ∧
    Instr.wf (.creditReturn 0 0 0 8) = false ∧ Instr.wf (.creditReturn 0 0 0 7) = true ∧
    Instr.wf (.counterAdvance 0 0 8) = false ∧ Instr.wf (.counterAdvance 0 0 7) = true ∧
    Instr.wf (.unitSwitch 0 0 256) = false ∧ Instr.wf (.unitSwitch 0 0 255) = true := by decide

theorem test_wf_bounds_3 :
    Instr.wf (.sliceAccessGrant 0 0 [] [] [(49152, [])]) = false ∧ Instr.wf (.sliceAccessGrant 0 0 [] [] [(49151, [])]) = true ∧
    Instr.wf (.agIteration 0 0 4) = false ∧ Instr.wf (.agIteration 0 0 3) = true ∧
    Instr.wf (.tileMovingRetry 0 2 0) = false ∧ Instr.wf (.tileMovingRetry 0 1 0) = true ∧
    Instr.wf (.tileMovingRetry 0 0 4096) = false ∧ Instr.wf (.tileMovingRetry 0 0 4095) = true ∧
    Instr.wf (.channelCreditReceive 0 0 32 0) = false ∧ Instr.wf (.channelCreditReceive 0 0 31 0) = true ∧
    Instr.wf (.channelCreditReceive 0 0 0 2048) = false ∧ Instr.wf (.channelCreditReceive 0 0 0 2047) = true := by decide

theorem test_wf_bounds_4 :
    Instr.wf (.barrierArrivalReceive 0 576 0 0) = false ∧ Instr.wf (.barrierArrivalReceive 0 575 0 0) = true ∧
    Instr.wf (.barrierArrivalReceive 0 0 0 64) = false ∧ Instr.wf (.barrierArrivalReceive 0 0 0 63) = true ∧
    Instr.wf (.barrierReleaseReceive 0 8192 0) = false ∧ Instr.wf (.barrierReleaseReceive 0 8191 0) = true ∧
    Instr.wf (.ptpMasterLoss 0 2) = false ∧ Instr.wf (.ptpMasterLoss 0 1) = true ∧
    Instr.wf (.timeFrameSend 0 24) = false ∧ Instr.wf (.timeFrameSend 0 23) = true ∧
    Instr.wf (.almanacFire 0 8192) = false ∧ Instr.wf (.almanacFire 0 8191) = true := by decide

theorem test_wf_bounds_5 :
    Instr.wf (.bistComplete 0 0 0 false 32 0 0) = false ∧ Instr.wf (.bistComplete 0 0 0 false 31 0 0) = true ∧
    Instr.wf (.bistComplete 0 0 0 false 0 1536 0) = false ∧ Instr.wf (.bistComplete 0 0 0 false 0 1535 0) = true ∧
    Instr.wf (.bistComplete 0 0 0 false 0 0 256) = false ∧ Instr.wf (.bistComplete 0 0 0 false 0 0 255) = true ∧
    Instr.wf (.laneLockTimeout 0 0 9) = false ∧ Instr.wf (.laneLockTimeout 0 0 8) = true ∧
    Instr.wf (.minWidthReceive 0 0 10) = false ∧ Instr.wf (.minWidthReceive 0 0 9) = true ∧
    Instr.wf (.combineForward 0 0 4) = false ∧ Instr.wf (.combineForward 0 0 3) = true := by decide

theorem test_wf_bounds_6 :
    Instr.wf (.dmaRateIncrease 0 16384 0) = false ∧ Instr.wf (.dmaRateIncrease 0 16383 0) = true ∧
    Instr.wf (.dmaRateIncrease 0 0 65536) = false ∧ Instr.wf (.dmaRateIncrease 0 0 65535) = true ∧
    Instr.wf (.routeDrainComplete 0 4) = false ∧ Instr.wf (.routeDrainComplete 0 3) = true ∧
    Instr.wf (.ddrTrainingComplete 0 16 false false {} 0 {}) = false ∧ Instr.wf (.ddrTrainingComplete 0 15 false false {} 0 {}) = true ∧
    Instr.wf (.ddrTrainingComplete 0 0 false false { rate := 16 } 0 {}) = false ∧ Instr.wf (.ddrTrainingComplete 0 0 false false { rate := 15 } 0 {}) = true ∧
    Instr.wf (.ddrTrainingComplete 0 0 false false { capacity := 512 } 0 {}) = false ∧ Instr.wf (.ddrTrainingComplete 0 0 false false { capacity := 511 } 0 {}) = true := by decide

theorem test_wf_bounds_7 :
    Instr.wf (.pageAccess 0 {} 4 0 0 none) = false ∧ Instr.wf (.pageAccess 0 {} 3 0 0 none) = true ∧
    Instr.wf (.pageAccess 0 {} 0 3 0 none) = false ∧ Instr.wf (.pageAccess 0 {} 0 2 0 none) = true ∧
    Instr.wf (.pageAccess 0 {} 0 0 9 none) = false ∧ Instr.wf (.pageAccess 0 {} 0 0 8 none) = true ∧
    Instr.wf (.pagemapRebuild 0 16777216) = false ∧ Instr.wf (.pagemapRebuild 0 16777215) = true ∧
    Instr.wf (.scrubRead 0 4398046511104 0) = false ∧ Instr.wf (.scrubRead 0 4398046511103 0) = true ∧
    Instr.wf (.pageZeroComplete 0 16777216) = false ∧ Instr.wf (.pageZeroComplete 0 16777215) = true ∧
    Instr.wf (.doorbell 0 24 0) = false ∧ Instr.wf (.doorbell 0 23 0) = true := by decide

theorem test_wf_bounds_8 :
    Instr.wf (.doorbell 0 0 64) = false ∧ Instr.wf (.doorbell 0 0 63) = true ∧
    Instr.wf (.cplHeadWrite 0 0 64) = false ∧ Instr.wf (.cplHeadWrite 0 0 63) = true ∧
    Instr.wf (.evHeadWrite 0 2048) = false ∧ Instr.wf (.evHeadWrite 0 2047) = true ∧
    Instr.wf (.registerWrite 0 0 9 0) = false ∧ Instr.wf (.registerWrite 0 0 8 0) = true ∧
    Instr.wf (.thermalSensorRead 0 256 0) = false ∧ Instr.wf (.thermalSensorRead 0 255 0) = true ∧
    Instr.wf (.ivrCellFail 0 0 10 0) = false ∧ Instr.wf (.ivrCellFail 0 0 9 0) = true := by decide

theorem test_wf_bounds_9 :
    Instr.wf (.ledgerAppend 0 8 0 0) = false ∧ Instr.wf (.ledgerAppend 0 7 0 0) = true ∧
    Instr.wf (.lockstepMismatch 0 2 0) = false ∧ Instr.wf (.lockstepMismatch 0 1 0) = true ∧
    Instr.wf (.alarmRaise 0 { cls := 6 }) = false ∧ Instr.wf (.alarmRaise 0 { cls := 5 }) = true := by decide

/-- A header of an image of 32 bytes, as its length says. -/
def img : List Byte := leBytes 16 0 ++ leBytes 8 32 ++ leBytes 8 0
/-- A small Ordo: one group of the device itself, one tally page. -/
def ord : Ordo := { groups := [{ members := [5] }], classes := [1] }
/-- What an allocation that is done answers. -/
def got {α : Type} [Inhabited α] (x : Alloc α) : State × α := match x with
  | .done s a => (s, a)
  | _ => (State.reset, default)
/-- What a mirror allocation that is done answers. -/
def okOf (x : Except Nat (State × Option Nat)) : State × Option Nat := match x with
  | .ok a => a
  | .error _ => (State.reset, none)

/-- Whether the sequencer of a site stands at an Xmln instruction, as a computation. -/
def xreadyB (op : XOp) (s : State) (k w : Nat) : Bool :=
  s.seqRuns k && (s.site k).seq.bank.wait.isNone && (match (s.site k).fetch with | .word w' _ => w' == w | _ => false) &&
    decide (xDecode w = some op)

theorem xready_of {op : XOp} {s : State} {k w : Nat} (h : xreadyB op s k w = true) : XReady op s k w := by
  simp only [xreadyB, Bool.and_eq_true, Option.isNone_iff_eq_none, decide_eq_true_eq] at h
  obtain ⟨⟨⟨h1, h2⟩, h3⟩, h4⟩ := h
  refine ⟨h1, h2, ?_, h4⟩
  split at h3
  · rename_i w' len hf
    exact ⟨len, by rw [hf, eq_of_beq h3]⟩
  · cases h3

/-- A running step of one phase: the sequencer of site 0, tile 0, stands at the word `w` with `a` in x1 and `b` in x2. -/
def xs (w : Nat) (a b : BitVec 32) (f : Site → Site) : State :=
  ((withJob { st := .running }).modPart 0 fun p => { p with ordo := some { phases := [{}] } }).modSite 0 fun x => f { x with
    st := .tile
    mu := { x.mu with slice := memWriteN [] 0xBA000 (leBytes 4 w) }
    seq := { x.seq with main := { live := true, pc := 0x1BA000, regs := (Tbl.set 0 1 a (Tbl.set 0 2 b [])) } } }

/-- A custom-0 word (R208). -/
def xw (f3 f7 rd rs1 rs2 : Nat) : Nat := 0x0B + 2 ^ 7 * rd + 2 ^ 12 * f3 + 2 ^ 15 * rs1 + 2 ^ 20 * rs2 + 2 ^ 25 * f7

/-- A unit's active word. -/
def Site.word (x : Site) (u n : Nat) : Site := x.setUnit u { active := BitVec.ofNat 512 n }

/-- What an option holds, with a default. -/
def optG {α : Type} [Inhabited α] (x : Option (State × α)) : State × α := x.getD (State.reset, default)

/-- A bound job whose region 0 holds every tile at the first phase. -/
def full (j : Job) : State :=
  { (withJob j) with
    sites := (List.range 128).map fun k => (k, { st := .tile, tile := k, phaseAt := some 0 })
    regions := [(0, { tiles := (List.range 128).map fun k => (k, { site := k }), placed := true })] }

/-- What a stalled send's spill request leaves. -/
def stall1 (s : State) : State :=
  (s.request (s.portPool 0 31) (s.portPacket 0 31 .deposit 0
    (hdrBytes (s.sendMsg 0 31 ((s.site 0).seqBytes 0x100000 64)) true ++ (s.sendMsg 0 31 ((s.site 0).seqBytes 0x100000 64)).payload))).getD State.reset

/-- What taking an element answers, with a default. -/
def optE (x : Option (Elem × State)) : Elem × State := x.getD ({}, State.reset)

/-- What taking a beat answers, with a default. -/
def optB (x : Option (List (Nat × List Elem) × State)) : List (Nat × List Elem) × State := x.getD ([], State.reset)

/-- Port 0 of a started device. -/
def port0 (f : Port → Port) : State := { up with ports := [(0, f {})] }

/-- Region 0 of a started device. -/
def region0 (f : Region → Region) : State := { up with regions := [(0, f {})] }

/-- Page 1 of a started device, held by partition 0. -/
def page1 (e : PageEnt) : State := { up with mem := { up.mem with map := [(1, e)], hdmOn := true, hdmBase := 0 },
                                             hub := { up.hub with config := { up.hub.config with hdmSize := 2 ^ 30, hdmPageBase := 1 } } }

theorem no_part {q : Nat → Prop} {f : Nat → Option Nat} {r : Nat → Nat → Prop} (h : ∀ g < 64, q g → f g = none) :
    ∀ g < 64, q g → ∀ p, f g = some p → r g p := fun g hg hq p hp => by rw [h g hg hq] at hp; cases hp
theorem bufIn_of {s : State} {c : Cmd} {b : List Byte} (hk : c.d.bufKind = 1) (hb : (s.mbx c.mb).ext.buf = some b) (hn : c.d.bufLen = b.length) :
    s.bufIn c = (s, some b) := by simp [State.bufIn, hk, hb, hn]

theorem begun_ext (f : CmdDef) (s : State) (mb : Nat) (d : Desc) (e : ExtIn) : ((f.begun s mb d e).mbx mb).ext = e := by
  unfold CmdDef.begun
  generalize f.lock _ _ = l
  cases l <;> simp [State.lockFor, State.taken, State.modPart, State.modMb, State.mbx]

theorem begun_job (f : CmdDef) (s : State) (mb : Nat) (d : Desc) (e : ExtIn) (p : Nat) : (f.begun s mb d e).job p = s.job p := by
  unfold CmdDef.begun
  generalize f.lock _ _ = l
  cases l with
  | none => rfl
  | some q =>
    by_cases h : p = q
    · subst h; simp only [State.lockFor, State.job, modPart_same]; rfl
    · simp only [State.lockFor, State.job]; rw [modPart_other _ h]; rfl

theorem queued_job (s : State) (mb : Nat) (d : Desc) (t p : Nat) : ((queued s mb d).adv t).job p = s.job p := rfl

theorem rebuild_one {p first i : Nat} {m : MirrorIn} {s s' : State} {j : Job} (h : s.job p = some j)
    (hd : digestOf i (blocksOf (fun o => ((m.pages.getD (i - first) []).take pageBytes ++ List.replicate (pageBytes - (m.pages.getD (i - first) []).length) 0).getD o 0) 16384) = Tbl.get 0 j.digSealed i)
    (hr : s.rebuildPage p i (m.pages.getD (i - first) []) = some s') : State.rebuildAll p first m [i] s = (s', none) := by
  simp only [State.rebuildAll, h, ne_eq, hd, not_true_eq_false, if_false, hr]

/-- The digest of page 0 holding zeros. -/
def zeroDigest : BitVec 128 :=
  digestOf 0 (blocksOf (fun o => (([] : List Byte).take pageBytes ++ List.replicate (pageBytes - 0) 0).getD o 0) 16384)

/-- A held job of one page, its digest sealed. -/
def heldJob : Job := { st := .hold, classes := [1], sideB := [(0, 1)], digSealed := [(0, zeroDigest)] }

/-- That job, its partition bound to a twin. -/
def heldBound : State := (withJob heldJob).modTwin 0 fun x => { x with st := .bound, outFull := true }
/-- `RESTORE_PAGE` of page 0. -/
@[irreducible] def pageDesc : Desc := dsc cmdRestorePage 0 [0, 0]

theorem test_restore_page :
    (∃ t : Nat, ∃ mb : Nat, ∃ buf : Option (List Byte), ∃ m : MirrorIn, ∃ j : Job, ∃ s' : State, ∃ (s_ : State) (d_ : Desc), Meets cmdRestorePage t mb { buf, mirror := m, later := false } s_ d_ (fun s c => s.job c.part = some j ∧
      (j.st = .hold ∨ j.st = .stopped ∨ j.st = .atGate) ∧ ((s.part c.part).twin.st = .syncing ∨ (s.part c.part).twin.st = .bound) ∧
      (s.part c.part).twin.phase = .idle ∧
      (s.part c.part).twin.outFull = true ∧ c.arg 0 ≤ c.arg 1 ∧ c.arg 1 < j.classes.length ∧ (s.mbx c.mb).ext = { buf, mirror := m, later := false } ∧ m.answered = true ∧
      State.rebuildAll c.part (c.arg 0) m ((List.range (c.arg 1 + 1 - c.arg 0)).map (c.arg 0 + ·))
        ((s.askOnce c.mb (.mirrorRead (s.part c.part).twin.peerDev (s.part c.part).twin.peerPart)).zeroAll) = (s', none))) := by
  have hp : (cmdRestorePage.cmd 0 pageDesc).part = 0 := by decide +kernel
  have h0 : (cmdRestorePage.cmd 0 pageDesc).arg 0 = 0 := by decide +kernel
  have h1 : (cmdRestorePage.cmd 0 pageDesc).arg 1 = 0 := by decide +kernel
  have hs : ((((cmdRestorePage.begun ((queued heldBound 0 pageDesc).adv 0) 0 pageDesc { mirror := { answered := true, pages := [[]] } }).askOnce (cmdRestorePage.cmd 0 pageDesc).mb (.mirrorRead (((cmdRestorePage.begun ((queued heldBound 0 pageDesc).adv 0) 0 pageDesc { mirror := { answered := true, pages := [[]] } }).part 0).twin.peerDev) (((cmdRestorePage.begun ((queued heldBound 0 pageDesc).adv 0) 0 pageDesc { mirror := { answered := true, pages := [[]] } }).part 0).twin.peerPart))).zeroAll).rebuildPage 0 0 []).isSome = true := by decide +kernel
  obtain ⟨s', hs'⟩ := Option.isSome_iff_exists.mp hs
  refine ⟨0, 0, none, { answered := true, pages := [[]] }, heldJob, s', queued heldBound 0 pageDesc, pageDesc, meets (by decide +kernel) ?_⟩
  refine ⟨?_, Or.inl rfl, Or.inr (by decide +kernel), by decide +kernel, by decide +kernel, by decide +kernel, by rw [h1]; decide, ?_, rfl, ?_⟩
  · rw [hp, begun_job, queued_job]; rfl
  · exact begun_ext ..
  · rw [hp, h0, h1]
    refine rebuild_one (j := heldJob) ?_ rfl hs'
    have hm : (((cmdRestorePage.begun ((queued heldBound 0 pageDesc).adv 0) 0 pageDesc { mirror := { answered := true, pages := [[]] } }).askOnce (cmdRestorePage.cmd 0 pageDesc).mb (.mirrorRead (((cmdRestorePage.begun ((queued heldBound 0 pageDesc).adv 0) 0 pageDesc { mirror := { answered := true, pages := [[]] } }).part 0).twin.peerDev) (((cmdRestorePage.begun ((queued heldBound 0 pageDesc).adv 0) 0 pageDesc { mirror := { answered := true, pages := [[]] } }).part 0).twin.peerPart)))).mem.zeroing = [] := by decide +kernel
    unfold State.zeroAll
    rw [hm]
    exact (askOnce_job ..).trans ((begun_job cmdRestorePage ((queued heldBound 0 pageDesc).adv 0) 0 pageDesc _ 0).trans (queued_job ..))

theorem no_part' {q : Nat → Prop} {f : Nat → Option Nat} {r : Nat → Nat → Prop} {k : Nat → Prop} (h : ∀ g < 64, q g → f g = none ∧ k g) :
    ∀ g < 64, q g → (∀ p, f g = some p → r g p) ∧ k g := fun g hg hq => ⟨fun p hp => (by rw [(h g hg hq).1] at hp; cases hp), (h g hg hq).2⟩

theorem ok_of {α : Type} {x : Except Nat α} (h : (match x with | .ok _ => true | .error _ => false) = true) : ∃ a, x = .ok a := by
  cases x with
  | ok a => exact ⟨a, rfl⟩
  | error e => cases h

theorem ok_with {α : Type} {x : Except Nat α} {p : α → Prop} [DecidablePred p] (h : (match x with | .ok a => decide (p a) | .error _ => false) = true) :
    ∃ a, x = .ok a ∧ p a := by
  cases x with
  | ok a => exact ⟨a, rfl, of_decide_eq_true h⟩
  | error e => cases h

/-- What taking elements leaves, with a default. -/
def optN (x : Option (List Elem × State)) : State := (x.map (·.2)).getD State.reset

/-- What a send that passes its checks leaves. -/
def inlS (x : State ⊕ Bool) : State := match x with
  | .inl s => s
  | .inr _ => State.reset

/-- The message that a handler or a receive takes, with a default. -/
def optM (x : Option (Taken × State)) : Taken × State := x.getD ({}, State.reset)

/-- What a packet's coming to a place answers, with a default. -/
def optR (x : Option (Packet × Bool × Option Nat × State)) : Packet × Bool × Option Nat × State := x.getD ({}, false, none, State.reset)

theorem sends_one {s : State} {k slot c : Nat} {x : XArgs} (h : s.sendFails k slot x = [c]) : s.sendChecks k slot x = some c := by
  simp [State.sendChecks, h, Nat.mod_one]

/-- Of two manifest entries for one page that name different digests one is bad. -/
theorem staged_two {s : State} {b tp : Nat} (h : (s.stagedEnt b tp 0).page = (s.stagedEnt b tp 1).page ∧ (s.stagedEnt b tp 0).mask = (s.stagedEnt b tp 1).mask ∧
    (s.stagedEnt b tp 0).digest ≠ (s.stagedEnt b tp 1).digest) : s.stagedBad b tp ((List.range 2).map (s.stagedEnt b tp)) ≠ [] := by
  intro e
  simp only [State.stagedBad, List.map_eq_nil_iff, List.filter_eq_nil_iff, List.mem_map, List.mem_range, forall_exists_index, and_imp] at e
  have h0 := e _ 0 (by decide) rfl
  have h1 := e _ 1 (by decide) rfl
  simp only [bne_iff_ne, ne_eq, not_not] at h0 h1
  rw [h.1, h.2.1, h1] at h0
  exact h.2.2 h0.symm

/-- A time flit under `ENC` that carries a tag. -/
def tagFlit (tag : List Byte) : RxFlit :=
  let p := leBytes 4 0 ++ [19] ++ List.replicate 615 0 ++ tag
  { bytes := p ++ leBytes 4 (crc32c p).toNat }

/-- Of two tags one does not match. -/
theorem bad_tag {x a b : List Byte} (h : a ≠ b) : x ≠ a ∨ x ≠ b := by
  rcases eq_or_ne x a with e | e
  · exact Or.inr (e ▸ h)
  · exact Or.inl e

theorem tagFlit_bytes {tag : List Byte} (h : tag.length = 16) :
    crcOk (tagFlit tag).bytes = true ∧ (flitHeadOf (tagFlit tag).bytes).enc = true ∧ (flitHeadOf (tagFlit tag).bytes).kind = 3 ∧
      (flitHeadOf (tagFlit tag).bytes).keySel = false ∧
      (tagFlit tag).bytes.take 620 = leBytes 4 0 ++ [19] ++ List.replicate 615 0 ∧ slice (tagFlit tag).bytes 620 16 = tag := by
  unfold tagFlit
  have hz : (List.replicate 615 (0 : Byte)).length = 615 := List.length_replicate
  generalize List.replicate 615 (0 : Byte) = z at hz ⊢
  refine ⟨Laws.crcOk_frame (by simp [h, hz, leBytes]), ?_, ?_, ?_, ?_, ?_⟩
  · simp [flitHeadOf, num, slice, leBytes, ofLe, bitOn, bitsN]
  · simp [flitHeadOf, num, slice, leBytes, ofLe]
  · simp [flitHeadOf, num, slice, leBytes, ofLe, bitOn, bitsN]
  · simp [List.take_append, leBytes, hz]
  · simp [slice, List.drop_append, List.take_append, h, hz, leBytes]

/-- A time flit whose tag does not match comes to a port in service. -/
theorem test_bad_tag : ∃ t p : Nat, ∃ f : RxFlit, ∃ s_ : State,
    (fun s => let s1 := (s.modPort p fun x => { x with slotRx := (s.port p).slotRx + f.idle + 1 }).countSymbols p f
      (s.port p).st ≠ .off ∧ (s.port p).st ≠ .down ∧ f.fecOk = true ∧ crcOk f.bytes = true ∧
        s1.flitBody p ((s.port p).slotRx + f.idle) (flitHeadOf f.bytes) f.bytes = none) (s_.adv t) := by
  let s : State := (port0 fun x => { x with st := .up }).adv 0
  let s1 : State := s.modPort 0 fun x => { x with slotRx := (s.port 0).slotRx + 0 + 1 }
  have hb := bad_tag (x := slice (Config.gcmSeal (s1.linkKey 0 1 false).key (nonceOf (s1.linkKey 0 1 false) ((s.port 0).slotRx + 0))
    (leBytes 4 0 ++ [19] ++ List.replicate 615 0) []) 0 16) (a := List.replicate 16 0) (b := List.replicate 16 1) (by decide)
  rcases hb with hb | hb
  · obtain ⟨h1, h2, h3, h4, h5, h6⟩ := tagFlit_bytes (tag := List.replicate 16 0) rfl
    refine ⟨0, 0, tagFlit (List.replicate 16 0), port0 fun x => { x with st := .up }, by decide +kernel, by decide +kernel, rfl, h1,
      Laws.flitBody_bad h2 h3 ?_⟩
    rw [h4, h5, h6]; exact hb
  · obtain ⟨h1, h2, h3, h4, h5, h6⟩ := tagFlit_bytes (tag := List.replicate 16 1) rfl
    refine ⟨0, 0, tagFlit (List.replicate 16 1), port0 fun x => { x with st := .up }, by decide +kernel, by decide +kernel, rfl, h1,
      Laws.flitBody_bad h2 h3 ?_⟩
    rw [h4, h5, h6]; exact hb

/-- An idle flit in clear. -/
def clearFlit : RxFlit := { bytes := List.replicate 636 0 ++ leBytes 4 (crc32c (List.replicate 636 0)).toNat }

/-- An Xmln row at a state: its site's sequencer is ready at the word, and a condition holds. -/
def MeetsX (t k : Nat) (op : XOp) (s : State) (w : Nat) (cond : State → XIn → Prop) : Prop :=
  XReady op (s.adv t) k w ∧ cond ((s.adv t).fetched k) ((s.adv t).xIn k w)

theorem meetsX {t k : Nat} {op : XOp} {s : State} {w : Nat} {cond : State → XIn → Prop} (h : xreadyB op (s.adv t) k w = true)
    (hc : cond ((s.adv t).fetched k) ((s.adv t).xIn k w)) : MeetsX t k op s w cond := ⟨xready_of h, hc⟩

/-- A base instruction at a state: its site's sequencer is ready at the word, and a condition on the word holds. -/
def MeetsRv (t k : Nat) (s : State) (w len : Nat) (u : Option (List Byte)) (cond : Nat → Prop) : Prop :=
  RvReady ((s.adv t).fetchUpset k u) k w len ∧ cond w

/-- Whether the sequencer of a site stands at a base instruction, as a computation. -/
def rvB (s : State) (k w len : Nat) : Bool :=
  s.seqRuns k && (s.site k).seq.bank.wait.isNone && decide ((s.site k).fetch = .word w len) && decide (xDecode w = none)

theorem meetsRv {t k : Nat} {s : State} {w len : Nat} {u : Option (List Byte)} {cond : Nat → Prop}
    (h : rvB ((s.adv t).fetchUpset k u) k w len = true) (hc : cond w) : MeetsRv t k s w len u cond := by
  simp only [rvB, Bool.and_eq_true, Option.isNone_iff_eq_none, decide_eq_true_eq] at h
  exact ⟨⟨h.1.1.1, h.1.1.2, h.1.2, h.2⟩, hc⟩

/-- Witnesses of `DeviceCommandsRun`: for each clause a state and operands that meet its hypotheses. -/
theorem test_DeviceCommandsRun_meets :
    (∃ t : Nat, ∃ mb : Nat, ∃ buf : Option (List Byte), ∃ (s_ : State) (d_ : Desc), Meets cmdIdentify t mb { buf } s_ d_ (fun _ _ => True)) ∧
    (∃ t : Nat, ∃ mb : Nat, ∃ buf : Option (List Byte), ∃ (s_ : State) (d_ : Desc), Meets cmdDeviceIdSet t mb { buf } s_ d_ (fun s _ => s.jobsMask = 0)) ∧
    (∃ t : Nat, ∃ mb : Nat, ∃ buf : Option (List Byte), ∃ s' : State, ∃ b : List Byte, ∃ (s_ : State) (d_ : Desc), Meets cmdConfigWrite t mb { buf } s_ d_ (fun s c => s.bufIn c = (s', some b) ∧ b.length = 4096)) ∧
    (∃ t : Nat, ∃ mb : Nat, ∃ buf : Option (List Byte), ∃ fails : List MemFail, ∃ s' : State, ∃ b : List Byte, ∃ (s_ : State) (d_ : Desc), Meets (cmdFwHostload fails) t mb { buf } s_ d_ (fun s c => s.hub.hostload = true ∧ s.bufIn c = (s', some b) ∧
      (b.length = (imageOf b).length ∨ b.length = (imageOf b).length + 4096))) ∧
    (∃ t : Nat, ∃ mb : Nat, ∃ buf : Option (List Byte), ∃ sigs : List (Nat × BitVec 64), ∃ slow : List Nat, ∃ (s_ : State) (d_ : Desc), Meets (cmdShutdown sigs slow) t mb { buf } s_ d_ (fun s c => c.arg 0 ≤ 1 ∧ s.jobsMask = 0)) ∧
    (∃ t : Nat, ∃ mb : Nat, ∃ buf : Option (List Byte), ∃ sigs : List (Nat × BitVec 64), ∃ slow : List Nat, ∃ (s_ : State) (d_ : Desc), Meets (cmdEmberRun sigs slow) t mb { buf } s_ d_ (fun s c => ∀ g < 64, bitOn (c.arg 0) g = true → ∀ p, s.partOfRegion g = some p → s.job p = none)) :=
  ⟨⟨0, 0, none, (queued (up) 0 (dsc cmdIdentify 0 [])), (dsc cmdIdentify 0 []), meets (by decide +kernel) (by decide +kernel)⟩,
    ⟨0, 0, none, (queued (up) 0 (dsc cmdDeviceIdSet 0 [9])), (dsc cmdDeviceIdSet 0 [9]), meets (by decide +kernel) (by decide +kernel)⟩,
    ⟨0, 0, some (List.replicate 4096 0), _, List.replicate 4096 0, queued up 0 (dsc cmdConfigWrite 0 [] (1, 4096)), dsc cmdConfigWrite 0 [] (1, 4096), meets (by decide +kernel) ⟨bufIn_of (by decide +kernel) (by rw [show (cmdConfigWrite.cmd 0 (dsc cmdConfigWrite 0 [] (1, 4096))).mb = 0 from rfl, begun_ext]) (by rw [List.length_replicate]; decide +kernel), List.length_replicate⟩⟩,
    ⟨0, 0, some img, [], (((cmdFwHostload ([])).begun (((queued ({ up with hub := { up.hub with hostload := true, ready := false } }) 0 (dsc (cmdFwHostload []) 0 [] (1, 32)))).adv (0)) (0) ((dsc (cmdFwHostload []) 0 [] (1, 32))) ({ buf := (some img) } : ExtIn)).bufIn ((cmdFwHostload ([])).cmd (0) ((dsc (cmdFwHostload []) 0 [] (1, 32))))).1, img, (queued ({ up with hub := { up.hub with hostload := true, ready := false } }) 0 (dsc (cmdFwHostload []) 0 [] (1, 32))), (dsc (cmdFwHostload []) 0 [] (1, 32)), meets (by decide +kernel) (by decide +kernel)⟩,
    ⟨0, 0, none, [], [], (queued (up) 0 (dsc (cmdShutdown [] []) 0 [0])), (dsc (cmdShutdown [] []) 0 [0]), meets (by decide +kernel) (by decide +kernel)⟩,
    ⟨0, 0, none, [], [], (queued (up) 0 (dsc (cmdEmberRun [] []) 0 [2])), (dsc (cmdEmberRun [] []) 0 [2]), meets (by decide +kernel) (by exact no_part (by decide +kernel))⟩⟩

/-- Witnesses of `ResetCommandsRun`: for each clause a state and operands that meet its hypotheses. -/
theorem test_ResetCommandsRun_meets :
    (∃ t : Nat, ∃ mb : Nat, ∃ buf : Option (List Byte), ∃ (s_ : State) (d_ : Desc), Meets cmdResetJubilee t mb { buf } s_ d_ (fun s _ => s.hub.shutdown = false ∧ s.hub.reset = none)) ∧
    (∃ t : Nat, ∃ mb : Nat, ∃ buf : Option (List Byte), ∃ (s_ : State) (d_ : Desc), Meets cmdResetJubilee t mb { buf } s_ d_ (fun s _ => s.hub.shutdown = false ∧ s.hub.reset.isSome = true)) ∧
    (∃ t : Nat, ∃ mb : Nat, ∃ buf : Option (List Byte), ∃ on, ∃ (s_ : State) (d_ : Desc), Meets (cmdResetRecovery on) t mb { buf } s_ d_ (fun s _ => s.hub.shutdown = false ∧ (s.hub.tripped = true → ∀ n < 256, s.hot n 95 = false) ∧
      ∀ i < 6, (s.alarmOf i).asserts = false ∧ on.contains i = false)) ∧
    (∃ t : Nat, ∃ mb : Nat, ∃ buf : Option (List Byte), ∃ (s_ : State) (d_ : Desc), Meets cmdResetPartition t mb { buf } s_ d_ (fun s c => c.arg 0 = 3 ∧ c.part < 16 ∧ (s.part c.part).exist = true ∧ s.hub.shutdown = false ∧ s.hub.reset = none ∧
      (s.part c.part).underReset = false)) :=
  ⟨⟨0, 0, none, (queued (up) 0 (dsc cmdResetJubilee 0 [1])), (dsc cmdResetJubilee 0 [1]), meets (by decide +kernel) (by decide +kernel)⟩,
    ⟨0, 0, none, (queued ({ up with hub := { up.hub with reset := some (.jubilee, none, 0) } }) 0 (dsc cmdResetJubilee 0 [1])), (dsc cmdResetJubilee 0 [1]), meets (by decide +kernel) (by decide +kernel)⟩,
    ⟨0, 0, none, [], (queued (up) 0 (dsc (cmdResetRecovery []) 0 [2])), (dsc (cmdResetRecovery []) 0 [2]), meets (by decide +kernel) (by decide +kernel)⟩,
    ⟨0, 0, none, (queued (up) 0 (dsc cmdResetPartition 0 [3])), (dsc cmdResetPartition 0 [3]), meets (by decide +kernel) (by decide +kernel)⟩⟩

/-- Witnesses of `MailboxCommandsRun`: for each clause a state and operands that meet its hypotheses. -/
theorem test_MailboxCommandsRun_meets :
    (∃ t : Nat, ∃ mb : Nat, ∃ buf : Option (List Byte), ∃ p : Nat, ∃ (s_ : State) (d_ : Desc), Meets cmdMailboxClaim t mb { buf } s_ d_ (fun s c => c.arg 1 = 2 ∧ c.mb ≠ 0 ∧ s.credPart (c.arg 2) = some p)) ∧
    (∃ t : Nat, ∃ mb : Nat, ∃ buf : Option (List Byte), ∃ (s_ : State) (d_ : Desc), Meets cmdMailboxClaim t mb { buf } s_ d_ (fun s c => c.arg 1 = 1 ∧ c.arg 0 ≤ 23 ∧ (s.mbx c.mb).role = 1)) ∧
    (∃ t : Nat, ∃ mb : Nat, ∃ buf : Option (List Byte), ∃ (s_ : State) (d_ : Desc), Meets cmdMailboxRelease t mb { buf } s_ d_ (fun _ c => c.mb ≠ 0)) ∧
    (∃ t : Nat, ∃ mb : Nat, ∃ buf : Option (List Byte), ∃ (s_ : State) (d_ : Desc), Meets cmdEventMaskSet t mb { buf } s_ d_ (fun _ c => c.arg 0 ≤ 2)) ∧
    (∃ t : Nat, ∃ mb : Nat, ∃ buf : Option (List Byte), ∃ (s_ : State) (d_ : Desc), Meets cmdEventStreamSet t mb { buf } s_ d_ (fun _ c => c.arg 0 ≤ 1 ∧ c.arg 1 ≤ 1)) :=
  ⟨⟨0, 1, none, 0, (queued (up) 1 (dsc cmdMailboxClaim 0 [1, 2, 7])), (dsc cmdMailboxClaim 0 [1, 2, 7]), meets (by decide +kernel) (by decide +kernel)⟩,
    ⟨0, 0, none, (queued (up) 0 (dsc cmdMailboxClaim 0 [23, 1, 0])), (dsc cmdMailboxClaim 0 [23, 1, 0]), meets (by decide +kernel) (by decide +kernel)⟩,
    ⟨0, 1, none, (queued (up.modMb 1 fun m => { m with role := 2 }) 1 (dsc cmdMailboxRelease 0 [])), (dsc cmdMailboxRelease 0 []), meets (by decide +kernel) (by decide +kernel)⟩,
    ⟨0, 0, none, (queued (up) 0 (dsc cmdEventMaskSet 0 [2, 4, 255])), (dsc cmdEventMaskSet 0 [2, 4, 255]), meets (by decide +kernel) (by decide +kernel)⟩,
    ⟨0, 0, none, (queued (up) 0 (dsc cmdEventStreamSet 0 [1, 1, 0xFFFFFFFFFFFF])), (dsc cmdEventStreamSet 0 [1, 1, 0xFFFFFFFFFFFF]), meets (by decide +kernel) (by decide +kernel)⟩⟩

/-- Witnesses of `PartitionCommandsRun`: for each clause a state and operands that meet its hypotheses. -/
theorem test_PartitionCommandsRun_meets :
    (∃ t : Nat, ∃ mb : Nat, ∃ buf : Option (List Byte), ∃ p : Nat, ∃ (s_ : State) (d_ : Desc), Meets cmdPartitionCreate t mb { buf } s_ d_ (fun s c => c.arg 0 ≠ 0 ∧ (∀ g < 64, bitOn (c.arg 0) g = true → s.partOfRegion g = none) ∧
      (List.range 16).find? (fun p => !(s.part p).exist) = some p)) ∧
    (∃ t : Nat, ∃ mb : Nat, ∃ buf : Option (List Byte), ∃ (s_ : State) (d_ : Desc), Meets cmdPartitionDestroy t mb { buf } s_ d_ (fun s c => (s.part c.part).job = none)) ∧
    (∃ t : Nat, ∃ mb : Nat, ∃ buf : Option (List Byte), ∃ s' : State, ∃ b : List Byte, ∃ (s_ : State) (d_ : Desc), Meets cmdOrdoLoad t mb { buf } s_ d_ (fun s c => (s.part c.part).sweep = none ∧ (s.part c.part).job = none ∧ s.testing c.part = false ∧ s.bufIn c = (s', some b))) ∧
    (∃ t : Nat, ∃ mb : Nat, ∃ buf : Option (List Byte), ∃ (s_ : State) (d_ : Desc), Meets cmdOrdoUnload t mb { buf } s_ d_ (fun s c => s.job c.part = none)) ∧
    (∃ t : Nat, ∃ mb : Nat, ∃ buf : Option (List Byte), ∃ tables : List (Nat × List ChanEnt), ∃ o : Ordo, ∃ s' : State, ∃ a : Tbl Nat, ∃ b : Tbl Nat, ∃ ls : List Nat, ∃ (s_ : State) (d_ : Desc), Meets cmdJobStart t mb { buf, tables, later := false } s_ d_ (fun s c => c.arg 0 = 0 ∧ (s.part c.part).sweep = none ∧ (s.part c.part).job = none ∧ (s.part c.part).ordo = some o ∧
      s.hub.devId ≠ 0xFFFF ∧ (s.part c.part).twin.st = .unbound ∧ (s.part c.part).kept = none ∧ rootOmits o s.hub.devId = false ∧
      s.heraldMembers (s.ownGroups c.part []) ≤ 65536 ∧ crossBad ((s.hub.devId, o.chans) :: tables) = false ∧
      (s.tablesSend c.mb c.part o).almRoom o = true ∧ (s.mbx c.mb).ext = { buf, tables, later := false } ∧
      ((s.tablesSend c.mb c.part o).allocWith fun s => match s.allocSides c.part o.classes.length with
        | none => none
        | some (s, a, b) => match s.allocJob c.part o with
          | none => none
          | some (s, ls) => some (s, a, b, ls)) = .done s' (a, b, ls))) ∧
    (∃ t : Nat, ∃ mb : Nat, ∃ buf : Option (List Byte), ∃ j : Job, ∃ (s_ : State) (d_ : Desc), Meets cmdJobKill t mb { buf } s_ d_ (fun s c => s.job c.part = some j ∧ j.startMb = none ∧ ((s.abortLocked c.part c.mb fun _ => false).part c.part).underReset = false ∧
      ((((s.abortLocked c.part c.mb fun _ => false).endBinding c.part 1 (.jobKill c.mb)).closeHeralds c.part).part c.part).underReset = false)) ∧
    (∃ t : Nat, ∃ mb : Nat, ∃ buf : Option (List Byte), ∃ (s_ : State) (d_ : Desc), Meets cmdIntercalarySet t mb { buf } s_ d_ (fun _ c => c.arg 0 ≤ 7)) :=
  ⟨⟨0, 0, none, 1, (queued (up) 0 (dsc cmdPartitionCreate 0 [2])), (dsc cmdPartitionCreate 0 [2]), meets (by decide +kernel) (by decide +kernel)⟩,
    ⟨0, 0, none, (queued (up) 0 (dsc cmdPartitionDestroy 0 [])), (dsc cmdPartitionDestroy 0 []), meets (by decide +kernel) (by decide +kernel)⟩,
    ⟨0, 0, some (List.replicate 64 0), ((cmdOrdoLoad.begun (((queued (up) 0 (dsc cmdOrdoLoad 0 [] (1, 64)))).adv (0)) (0) ((dsc cmdOrdoLoad 0 [] (1, 64))) ({ buf := (some (List.replicate 64 0)) } : ExtIn)).bufIn (cmdOrdoLoad.cmd (0) ((dsc cmdOrdoLoad 0 [] (1, 64))))).1, List.replicate 64 0, (queued (up) 0 (dsc cmdOrdoLoad 0 [] (1, 64))), (dsc cmdOrdoLoad 0 [] (1, 64)), meets (by decide +kernel) (by decide +kernel)⟩,
    ⟨0, 0, none, (queued (up.modPart 0 fun x => { x with ordo := some {} }) 0 (dsc cmdOrdoUnload 0 [])), (dsc cmdOrdoUnload 0 []), meets (by decide +kernel) (by decide +kernel)⟩,
    ⟨0, 0, none, [], ord, (got (((cmdJobStart.begun (((queued (up.modPart 0 fun x => { x with ordo := some ord }) 0 (dsc cmdJobStart 0 [0, 0]))).adv (0)) (0) ((dsc cmdJobStart 0 [0, 0])) ({ buf := (none), tables := ([]),  later := false } : ExtIn)).tablesSend 0 0 ord).allocWith fun s => match s.allocSides 0 ord.classes.length with | none => none | some (s, a, b) => match s.allocJob 0 ord with | none => none | some (s, ls) => some (s, a, b, ls))).1, (got (((cmdJobStart.begun (((queued (up.modPart 0 fun x => { x with ordo := some ord }) 0 (dsc cmdJobStart 0 [0, 0]))).adv (0)) (0) ((dsc cmdJobStart 0 [0, 0])) ({ buf := (none), tables := ([]),  later := false } : ExtIn)).tablesSend 0 0 ord).allocWith fun s => match s.allocSides 0 ord.classes.length with | none => none | some (s, a, b) => match s.allocJob 0 ord with | none => none | some (s, ls) => some (s, a, b, ls))).2.1, (got (((cmdJobStart.begun (((queued (up.modPart 0 fun x => { x with ordo := some ord }) 0 (dsc cmdJobStart 0 [0, 0]))).adv (0)) (0) ((dsc cmdJobStart 0 [0, 0])) ({ buf := (none), tables := ([]),  later := false } : ExtIn)).tablesSend 0 0 ord).allocWith fun s => match s.allocSides 0 ord.classes.length with | none => none | some (s, a, b) => match s.allocJob 0 ord with | none => none | some (s, ls) => some (s, a, b, ls))).2.2.1, (got (((cmdJobStart.begun (((queued (up.modPart 0 fun x => { x with ordo := some ord }) 0 (dsc cmdJobStart 0 [0, 0]))).adv (0)) (0) ((dsc cmdJobStart 0 [0, 0])) ({ buf := (none), tables := ([]),  later := false } : ExtIn)).tablesSend 0 0 ord).allocWith fun s => match s.allocSides 0 ord.classes.length with | none => none | some (s, a, b) => match s.allocJob 0 ord with | none => none | some (s, ls) => some (s, a, b, ls))).2.2.2, (queued (up.modPart 0 fun x => { x with ordo := some ord }) 0 (dsc cmdJobStart 0 [0, 0])), (dsc cmdJobStart 0 [0, 0]), meets (by decide +kernel) (by decide +kernel)⟩,
    ⟨0, 0, none, {}, (queued (withJob {}) 0 (dsc cmdJobKill 0 [])), (dsc cmdJobKill 0 []), meets (by decide +kernel) (by decide +kernel)⟩,
    ⟨0, 0, none, (queued (up) 0 (dsc cmdIntercalarySet 0 [7])), (dsc cmdIntercalarySet 0 [7]), meets (by decide +kernel) (by decide +kernel)⟩⟩

/-- Witnesses of `TimeCommandsRun`: for each clause a state and operands that meet its hypotheses. -/
theorem test_TimeCommandsRun_meets :
    (∃ t : Nat, ∃ mb : Nat, ∃ buf : Option (List Byte), ∃ (s_ : State) (d_ : Desc), Meets cmdAlmanacWrite t mb { buf } s_ d_ (fun s c => s.alm.armed = none ∧ c.arg 0 < 8192 ∧ (s.mbx c.mb).mayEntry (almOf (c.arg 1)) = true ∧
      (s.mbx c.mb).mayEntry (Tbl.get {} s.alm.shadow (c.arg 0)) = true ∧ (almOf (c.arg 1)).action ≠ 0 ∧
      almOk (almOf (c.arg 1)) (s.part (almOf (c.arg 1)).part).regions.toNat = true)) ∧
    (∃ t : Nat, ∃ mb : Nat, ∃ buf : Option (List Byte), ∃ (s_ : State) (d_ : Desc), Meets cmdAlmanacWrite t mb { buf } s_ d_ (fun s c => s.alm.armed = none ∧ c.arg 0 < 8192 ∧ (s.mbx c.mb).mayEntry {} = true ∧
      (s.mbx c.mb).mayEntry (Tbl.get {} s.alm.shadow (c.arg 0)) = true ∧ c.arg 1 = 0)) ∧
    (∃ t : Nat, ∃ mb : Nat, ∃ buf : Option (List Byte), ∃ (s_ : State) (d_ : Desc), Meets cmdAlmanacArm t mb { buf } s_ d_ (fun s c => s.alm.armed = none ∧ s.now + 10 * ftUs ≤ c.arg 0)) ∧
    (∃ t : Nat, ∃ mb : Nat, ∃ buf : Option (List Byte), ∃ (s_ : State) (d_ : Desc), Meets cmdAlmanacDisarm t mb { buf } s_ d_ (fun _ _ => True)) ∧
    (∃ t : Nat, ∃ mb : Nat, ∃ buf : Option (List Byte), ∃ step : Int, ∃ (s_ : State) (d_ : Desc), Meets cmdTimeSet t mb { buf } s_ d_ (fun s c => c.arg 0 < 16 ∧ (bitOn (c.arg 0) 1 = true → c.arg 1 ≤ 127) ∧ (bitOn (c.arg 0) 2 = true → c.arg 2 ≤ 1) ∧
      (bitOn (c.arg 0) 0 = true → 0 ≤ (s.now : Int) + ftSec * ((s.time.epoch : Int) - c.arg 3)) ∧
      step = (if bitOn (c.arg 0) 3 then bitsZ (c.arg 4) 0 64 else 0) ∧
      (400000 ≤ step.natAbs → 0 ≤ (s.now : Int) + step ∧ s.jobsMask = 0))) ∧
    (∃ t : Nat, ∃ mb : Nat, ∃ buf : Option (List Byte), ∃ (s_ : State) (d_ : Desc), Meets cmdIdesSet t mb { buf } s_ d_ (fun _ c => (c.arg 0 < 2 ∧ 10 ≤ c.arg 1 ∧ c.arg 1 ≤ 600000000) ∨ (c.arg 0 = 2 ∧ 1000 ≤ c.arg 1 ∧ c.arg 1 ≤ 3600000000) ∨
      (c.arg 0 = 3 ∧ 10000 ≤ c.arg 1 ∧ c.arg 1 ≤ 86400000000))) ∧
    (∃ t : Nat, ∃ mb : Nat, ∃ buf : Option (List Byte), ∃ h, ∃ (s_ : State) (d_ : Desc), Meets cmdHeraldStatsSet t mb { buf } s_ d_ (fun s c => s.herald (c.arg 0) = some h ∧ c.arg 2 ≤ 1)) ∧
    (∃ t : Nat, ∃ mb : Nat, ∃ buf : Option (List Byte), ∃ (s_ : State) (d_ : Desc), Meets cmdLentSet t mb { buf } s_ d_ (fun _ c => 1 ≤ c.arg 0 ∧ c.arg 0 ≤ 10000)) :=
  ⟨⟨0, 0, none, (queued (up) 0 (dsc cmdAlmanacWrite 0 [8191, 2 ^ 64 + 2 ^ 77])), (dsc cmdAlmanacWrite 0 [8191, 2 ^ 64 + 2 ^ 77]), meets (by decide +kernel) (by decide +kernel)⟩,
    ⟨0, 0, none, (queued (up) 0 (dsc cmdAlmanacWrite 0 [8191, 0])), (dsc cmdAlmanacWrite 0 [8191, 0]), meets (by decide +kernel) (by decide +kernel)⟩,
    ⟨0, 0, none, (queued (up) 0 (dsc cmdAlmanacArm 0 [40000])), (dsc cmdAlmanacArm 0 [40000]), meets (by decide +kernel) (by decide +kernel)⟩,
    ⟨0, 0, none, (queued (up) 0 (dsc cmdAlmanacDisarm 0 [])), (dsc cmdAlmanacDisarm 0 []), meets (by decide +kernel) (by decide +kernel)⟩,
    ⟨0, 0, none, 400000, (queued (up) 0 (dsc cmdTimeSet 0 [8, 0, 0, 0, 400000])), (dsc cmdTimeSet 0 [8, 0, 0, 0, 400000]), meets (by decide +kernel) (by decide +kernel)⟩,
    ⟨0, 0, none, (queued (up) 0 (dsc cmdIdesSet 0 [3, 86400000000])), (dsc cmdIdesSet 0 [3, 86400000000]), meets (by decide +kernel) (by decide +kernel)⟩,
    ⟨0, 0, none, {}, (queued (up.setHerald 3 (some {})) 0 (dsc cmdHeraldStatsSet 0 [3, 9, 0])), (dsc cmdHeraldStatsSet 0 [3, 9, 0]), meets (by decide +kernel) (by decide +kernel)⟩,
    ⟨0, 0, none, (queued (up) 0 (dsc cmdLentSet 0 [10000])), (dsc cmdLentSet 0 [10000]), meets (by decide +kernel) (by decide +kernel)⟩⟩

/-- Witnesses of `CommitCommandsRun`: for each clause a state and operands that meet its hypotheses. -/
theorem test_CommitCommandsRun_meets :
    (∃ t : Nat, ∃ mb : Nat, ∃ buf : Option (List Byte), ∃ (s_ : State) (d_ : Desc), Meets cmdCommitStatus t mb { buf } s_ d_ (fun _ _ => True)) ∧
    (∃ t : Nat, ∃ mb : Nat, ∃ buf : Option (List Byte), ∃ j : Job, ∃ g, ∃ (s_ : State) (d_ : Desc), Meets cmdDigestRead t mb { buf } s_ d_ (fun s c => c.arg 0 ≤ 1 ∧ s.job c.part = some j ∧ j.genOf (if c.arg 1 = 2 ^ 64 - 1 then j.step else c.arg 1) = some g)) ∧
    (∃ t : Nat, ∃ mb : Nat, ∃ buf : Option (List Byte), ∃ h : Herald, ∃ o : OutcomePkt, ∃ (s_ : State) (d_ : Desc), Meets cmdHoldRelease t mb { buf } s_ d_ (fun s c => s.herald (c.arg 0) = some h ∧ h.heldFor (c.arg 3) (c.arg 2) = some o ∧ 1 ≤ c.arg 1 ∧ c.arg 1 ≤ 3 ∧
      (c.arg 1 = 1 → h.sealable (c.arg 3) (c.arg 2) = true) ∧ (c.arg 1 = 2 → c.arg 2 ≠ 255))) ∧
    (∃ t : Nat, ∃ mb : Nat, ∃ buf : Option (List Byte), ∃ j : Job, ∃ o : Ordo, ∃ g, ∃ s' : State, ∃ st, ∃ (s_ : State) (d_ : Desc), Meets cmdReplayForce t mb { buf } s_ d_ (fun s c => s.job c.part = some j ∧ (s.part c.part).ordo = some o ∧ (o.groups.find? fun g => g.group == j.rootGroup) = some g ∧
      j.heraldOf g = s.hub.devId ∧ s.holdRelease j.rootGroup 2 j.heldStep.2 j.heldStep.1 = (s', st))) ∧
    (∃ t : Nat, ∃ mb : Nat, ∃ buf : Option (List Byte), ∃ st, ∃ j : Job, ∃ o : Ordo, ∃ g, ∃ (s_ : State) (d_ : Desc), Meets cmdReplayForce t mb { buf, herald := some st, later := false } s_ d_ (fun s c => s.job c.part = some j ∧ (s.part c.part).ordo = some o ∧ (o.groups.find? fun g => g.group == j.rootGroup) = some g ∧
      j.heraldOf g ≠ s.hub.devId ∧ (s.mbx c.mb).ext = { buf, herald := some st, later := false })) ∧
    (∃ t : Nat, ∃ mb : Nat, ∃ buf : Option (List Byte), ∃ j : Job, ∃ x, ∃ (s_ : State) (d_ : Desc), Meets cmdCommitRewind t mb { buf } s_ d_ (fun s c => s.job c.part = some j ∧ j.st = .hold ∧ j.genOf (c.arg 0) = some x)) ∧
    (∃ t : Nat, ∃ mb : Nat, ∃ buf : Option (List Byte), ∃ k, ∃ (s_ : State) (d_ : Desc), Meets cmdFenceSite t mb { buf } s_ d_ (fun _ c => siteOfId (c.arg 0) = some k ∧ c.arg 1 ≤ 1)) ∧
    (∃ t : Nat, ∃ mb : Nat, ∃ buf : Option (List Byte), ∃ (s_ : State) (d_ : Desc), Meets cmdVigilSet t mb { buf } s_ d_ (fun s c => c.arg 0 < 64 ∧ c.arg 1 ≤ 4 ∧ bitAt (s.part c.part).regions (c.arg 0) = true)) :=
  ⟨⟨0, 0, none, (queued (up) 0 (dsc cmdCommitStatus 0 [])), (dsc cmdCommitStatus 0 []), meets (by decide +kernel) (by decide +kernel)⟩,
    ⟨0, 0, none, {}, {}, (queued (withJob {}) 0 (dsc cmdDigestRead 0 [1, 2 ^ 64 - 1])), (dsc cmdDigestRead 0 [1, 2 ^ 64 - 1]), meets (by decide +kernel) (by decide +kernel)⟩,
    ⟨0, 0, none, { held := [{ step := 4, attempt := 1 }] }, { step := 4, attempt := 1 }, (queued (up.setHerald 0 (some { held := [{ step := 4, attempt := 1 }] })) 0 (dsc cmdHoldRelease 0 [0, 2, 1, 4])), (dsc cmdHoldRelease 0 [0, 2, 1, 4]), meets (by decide +kernel) (by decide +kernel)⟩,
    ⟨0, 0, none, { step := 4, attempt := 1, heralds := [(0, 5)] }, { groups := [{}] }, {}, ((cmdReplayForce.begun (((queued (((up.setHerald 0 (some { held := [{ step := 4, attempt := 1 }] })).modPart 0 fun x => { x with job := some { step := 4, attempt := 1, heralds := [(0, 5)] }, ordo := some { groups := [{}] } })) 0 (dsc cmdReplayForce 0 []))).adv (0)) (0) ((dsc cmdReplayForce 0 [])) ({ buf := (none) } : ExtIn)).holdRelease 0 2 1 4).1, ((cmdReplayForce.begun (((queued (((up.setHerald 0 (some { held := [{ step := 4, attempt := 1 }] })).modPart 0 fun x => { x with job := some { step := 4, attempt := 1, heralds := [(0, 5)] }, ordo := some { groups := [{}] } })) 0 (dsc cmdReplayForce 0 []))).adv (0)) (0) ((dsc cmdReplayForce 0 [])) ({ buf := (none) } : ExtIn)).holdRelease 0 2 1 4).2, (queued (((up.setHerald 0 (some { held := [{ step := 4, attempt := 1 }] })).modPart 0 fun x => { x with job := some { step := 4, attempt := 1, heralds := [(0, 5)] }, ordo := some { groups := [{}] } })) 0 (dsc cmdReplayForce 0 [])), (dsc cmdReplayForce 0 []), meets (by decide +kernel) (by decide +kernel)⟩,
    ⟨0, 0, none, 0, { step := 4, attempt := 1, heralds := [(0, 6)] }, { groups := [{}] }, {}, (queued (((up.setHerald 0 (some { held := [{ step := 4, attempt := 1 }] })).modPart 0 fun x => { x with job := some { step := 4, attempt := 1, heralds := [(0, 6)] }, ordo := some { groups := [{}] } })) 0 (dsc cmdReplayForce 0 [])), (dsc cmdReplayForce 0 []), meets (by decide +kernel) (by decide +kernel)⟩,
    ⟨0, 0, none, { st := .hold, step := 4, gens := [{ gen := 3 }] }, { gen := 3 }, (queued (withJob { st := .hold, step := 4, gens := [{ gen := 3 }] }) 0 (dsc cmdCommitRewind 0 [3])), (dsc cmdCommitRewind 0 [3]), meets (by decide +kernel) (by decide +kernel)⟩,
    ⟨0, 0, none, 63 * 144 + 143, (queued (up) 0 (dsc cmdFenceSite 0 [0x3F8F, 1])), (dsc cmdFenceSite 0 [0x3F8F, 1]), meets (by decide +kernel) (by decide +kernel)⟩,
    ⟨0, 0, none, (queued (up) 0 (dsc cmdVigilSet 0 [0, 4])), (dsc cmdVigilSet 0 [0, 4]), meets (by decide +kernel) (by decide +kernel)⟩⟩

/-- Witnesses of `NetworkCommandsRun`: for each clause a state and operands that meet its hypotheses. -/
theorem test_NetworkCommandsRun_meets :
    (∃ t : Nat, ∃ mb : Nat, ∃ buf : Option (List Byte), ∃ (s_ : State) (d_ : Desc), Meets cmdPortConfig t mb { buf } s_ d_ (fun _ c => c.arg 0 < 24 ∧ (c.arg 1 = 0xFF ∨ (4 ≤ c.arg 1 ∧ c.arg 1 ≤ 8)) ∧ (c.arg 2 = 0xFF ∨ c.arg 2 ≤ 1) ∧
      (c.arg 3 = 0xFF ∨ c.arg 3 ≤ 2))) ∧
    (∃ t : Nat, ∃ mb : Nat, ∃ buf : Option (List Byte), ∃ (s_ : State) (d_ : Desc), Meets cmdPortRetrain t mb { buf } s_ d_ (fun s c => c.arg 0 < 24 ∧ (s.port (c.arg 0)).enabled = true)) ∧
    (∃ t : Nat, ∃ mb : Nat, ∃ buf : Option (List Byte), ∃ ratios : List Nat, ∃ (s_ : State) (d_ : Desc), Meets (cmdLinkBerTest ratios) t mb { buf } s_ d_ (fun s c => c.arg 0 < 24 ∧ (s.port (c.arg 0)).st ≠ .up)) ∧
    (∃ t : Nat, ∃ mb : Nat, ∃ buf : Option (List Byte), ∃ (s_ : State) (d_ : Desc), Meets cmdRouteCfgSet t mb { buf } s_ d_ (fun _ c => (c.arg 0 ≤ 3 ∨ c.arg 0 = 0xFF) ∧ (c.arg 1 ≤ 1 ∨ c.arg 1 = 0xFF) ∧ (c.arg 2 ≤ 1 ∨ c.arg 2 = 0xFF) ∧
      ((1 ≤ c.arg 3 ∧ c.arg 3 ≤ 15) ∨ c.arg 3 = 0xFF) ∧ ((1 ≤ c.arg 4 ∧ c.arg 4 ≤ 100) ∨ c.arg 4 = 0xFF) ∧
      (c.arg 5 ≤ 1023 ∨ c.arg 5 = 0xFFFF) ∧ ((100 ≤ c.arg 6 ∧ c.arg 6 ≤ 100000) ∨ c.arg 6 = 0xFFFFFFFF) ∧
      (c.arg 0 = 0xFF → c.arg 1 = 0xFF ∧ c.arg 2 = 0xFF ∧ c.arg 3 = 0xFF ∧ c.arg 4 = 0xFF))) ∧
    (∃ t : Nat, ∃ mb : Nat, ∃ buf : Option (List Byte), ∃ s' : State, ∃ b : List Byte, ∃ s1, ∃ (s_ : State) (d_ : Desc), Meets cmdRouteTableWrite t mb { buf } s_ d_ (fun s c => c.arg 0 ≤ 1 ∧ c.arg 1 ≤ 3 ∧ c.arg 3 ≠ 0 ∧ c.arg 2 + c.arg 3 ≤ routeEntries (c.arg 1) ∧ s.verFree (c.arg 0 == 1) = true ∧
      s.bufIn c = (s', some b) ∧ routeEntBytes (c.arg 1) * c.arg 3 ≤ b.length ∧
      (List.range (c.arg 3)).foldl (fun (o : Option State) i => match o with
        | none => none
        | some s => s.routeWrite (c.arg 0 == 1) (c.arg 1) (c.arg 2 + i) (slice b (routeEntBytes (c.arg 1) * i) (routeEntBytes (c.arg 1))))
        (some s') = some s1)) ∧
    (∃ t : Nat, ∃ mb : Nat, ∃ buf : Option (List Byte), ∃ (s_ : State) (d_ : Desc), Meets cmdRouteSwap t mb { buf } s_ d_ (fun s c => c.arg 0 ≤ 3 ∧ (s.rcfg (c.arg 0)).swap = none)) ∧
    (∃ t : Nat, ∃ mb : Nat, ∃ buf : Option (List Byte), ∃ (s_ : State) (d_ : Desc), Meets cmdRouteEpochSwitch t mb { buf } s_ d_ (fun _ c => c.arg 0 ≤ 1)) ∧
    (∃ t : Nat, ∃ mb : Nat, ∃ buf : Option (List Byte), ∃ p : Nat, ∃ d, ∃ rest, ∃ (s_ : State) (d_ : Desc), Meets cmdGroupHeraldSet t mb { buf } s_ d_ (fun s c => s.jobsOfGroup (c.arg 0) = (p, d) :: rest ∧ d.members.contains (c.arg 1) = true ∧
      (c.arg 1 = s.hub.devId → s.heraldRoom d = true))) :=
  ⟨⟨0, 0, none, (queued (up) 0 (dsc cmdPortConfig 0 [23, 8, 1, 2])), (dsc cmdPortConfig 0 [23, 8, 1, 2]), meets (by decide +kernel) (by decide +kernel)⟩,
    ⟨0, 0, none, (queued (up) 0 (dsc cmdPortRetrain 0 [23])), (dsc cmdPortRetrain 0 [23]), meets (by decide +kernel) (by decide +kernel)⟩,
    ⟨0, 0, some [], [], (queued (up) 0 (dsc (cmdLinkBerTest []) 0 [23, 10] (1, 72))), (dsc (cmdLinkBerTest []) 0 [23, 10] (1, 72)), meets (by decide +kernel) (by decide +kernel)⟩,
    ⟨0, 0, none, (queued (up) 0 (dsc cmdRouteCfgSet 0 [3, 1, 1, 15, 100, 1023, 100000])), (dsc cmdRouteCfgSet 0 [3, 1, 1, 15, 100, 1023, 100000]), meets (by decide +kernel) (by decide +kernel)⟩,
    ⟨0, 0, some (leBytes 4 0x100017), ((cmdRouteTableWrite.begun (((queued (up) 0 (dsc cmdRouteTableWrite 0 [1, 0, 65535, 1] (1, 4)))).adv (0)) (0) ((dsc cmdRouteTableWrite 0 [1, 0, 65535, 1] (1, 4))) ({ buf := (some (leBytes 4 0x100017)) } : ExtIn)).bufIn (cmdRouteTableWrite.cmd (0) ((dsc cmdRouteTableWrite 0 [1, 0, 65535, 1] (1, 4))))).1, leBytes 4 0x100017, (((cmdRouteTableWrite.begun (((queued (up) 0 (dsc cmdRouteTableWrite 0 [1, 0, 65535, 1] (1, 4)))).adv (0)) (0) ((dsc cmdRouteTableWrite 0 [1, 0, 65535, 1] (1, 4))) ({ buf := (some (leBytes 4 0x100017)) } : ExtIn)).bufIn (cmdRouteTableWrite.cmd (0) ((dsc cmdRouteTableWrite 0 [1, 0, 65535, 1] (1, 4))))).1.routeWrite true 0 65535 (leBytes 4 0x100017)).getD up, (queued (up) 0 (dsc cmdRouteTableWrite 0 [1, 0, 65535, 1] (1, 4))), (dsc cmdRouteTableWrite 0 [1, 0, 65535, 1] (1, 4)), meets (by decide +kernel) (by decide +kernel)⟩,
    ⟨0, 0, none, (queued (up) 0 (dsc cmdRouteSwap 0 [3])), (dsc cmdRouteSwap 0 [3]), meets (by decide +kernel) (by decide +kernel)⟩,
    ⟨0, 0, none, (queued (up) 0 (dsc cmdRouteEpochSwitch 0 [0])), (dsc cmdRouteEpochSwitch 0 [0]), meets (by decide +kernel) (by decide +kernel)⟩,
    ⟨0, 0, none, 0, { group := 2, members := [5, 6] }, [], (queued ((up.modPart 0 fun x => { x with job := some {}, ordo := some { groups := [{ group := 2, members := [5, 6] }] } })) 0 (dsc cmdGroupHeraldSet 0 [2, 6])), (dsc cmdGroupHeraldSet 0 [2, 6]), meets (by decide +kernel) (by decide +kernel)⟩⟩

/-- Witnesses of `MemoryCommandsRun`: for each clause a state and operands that meet its hypotheses, part 1. -/
theorem test_MemoryCommandsRun_meets :
    (∃ t : Nat, ∃ mb : Nat, ∃ buf : Option (List Byte), ∃ l, ∃ s' : State, ∃ (s_ : State) (d_ : Desc), Meets cmdPagemapAlloc t mb { buf } s_ d_ (fun s c => c.arg 0 ≤ 1 ∧ (c.arg 1 = 1 ∨ c.arg 1 = 6) ∧ c.arg 2 ≠ 0 ∧
      (if c.arg 3 = 0xFFFFFFFF then
        firstFree (fun l => s.runFree (c.arg 0) l (c.arg 2) ((s.mbx c.mb).role == 2)) 8388608 (8388608 * c.arg 0) = some l
      else l = c.arg 3 ∧ s.runFree (c.arg 0) l (c.arg 2) true = true ∧
        ((s.mbx c.mb).role = 2 ∨ ((List.range (c.arg 2)).any fun i => s.inHdm (l + i)) = false)) ∧
      ((s.mbx c.mb).role = 2 ∨ ((List.range (c.arg 2)).any fun i => s.inHdm (l + i)) = false) ∧
      (s.allocWith fun s => (s.mapPages ((List.range (c.arg 2)).map (l + ·)) c.part (if c.arg 1 = 1 then .plain else .window) false).map
        fun s => (s, ())) = .done s' ())) ∧
    (∃ t : Nat, ∃ mb : Nat, ∃ buf : Option (List Byte), ∃ (s_ : State) (d_ : Desc), Meets cmdPagemapFree t mb { buf } s_ d_ (fun s c => c.arg 1 ≠ 0 ∧ ∀ i < c.arg 1, s.hostPage c.part (c.arg 0 + i) = true)) ∧
    (∃ t : Nat, ∃ mb : Nat, ∃ buf : Option (List Byte), ∃ (s_ : State) (d_ : Desc), Meets cmdWindowOpen t mb { buf } s_ d_ (fun s c => (s.part c.part).sweep = none ∧ c.arg 0 = 0 ∧ 1 ≤ c.arg 2 ∧ c.arg 2 ≤ 3 ∧ c.arg 3 ≤ 1 ∧ c.arg 1 ≤ 7 ∧ c.arg 5 ≤ 8191 ∧
      bitAt (s.part c.part).regions (tileBlock (c.arg 5)) = true ∧ c.arg 6 % 64 = 0 ∧ c.arg 7 % 64 = 0 ∧ c.arg 7 ≠ 0 ∧
      c.arg 6 + c.arg 7 ≤ 0xBA000)) ∧
    (∃ t : Nat, ∃ mb : Nat, ∃ buf : Option (List Byte), ∃ (s_ : State) (d_ : Desc), Meets cmdWindowOpen t mb { buf } s_ d_ (fun s c => (s.part c.part).sweep = none ∧ c.arg 0 = 1 ∧ 1 ≤ c.arg 2 ∧ c.arg 2 ≤ 3 ∧ c.arg 3 ≤ 1 ∧ c.arg 7 ≠ 0 ∧
      c.arg 6 + c.arg 7 ≤ 16777216 ∧ pageDie (c.arg 6) = pageDie (c.arg 6 + c.arg 7 - 1) ∧
      ((Tbl.get {} s.mem.wins (256 * pageDie (c.arg 6) + c.arg 1) : PageWin).isOpen = true →
        (Tbl.get {} s.mem.wins (256 * pageDie (c.arg 6) + c.arg 1) : PageWin).owner = c.part))) ∧
    (∃ t : Nat, ∃ mb : Nat, ∃ buf : Option (List Byte), ∃ (s_ : State) (d_ : Desc), Meets cmdWindowClose t mb { buf } s_ d_ (fun s c => c.arg 0 = 0 ∧ c.arg 1 ≤ 7 ∧ c.arg 2 ≤ 8191 ∧ bitAt (s.part c.part).regions (tileBlock (c.arg 2)) = true)) ∧
    (∃ t : Nat, ∃ mb : Nat, ∃ buf : Option (List Byte), ∃ (s_ : State) (d_ : Desc), Meets cmdWindowClose t mb { buf } s_ d_ (fun _ c => c.arg 0 = 1)) ∧
    (∃ t : Nat, ∃ mb : Nat, ∃ buf : Option (List Byte), ∃ s' : State, ∃ (s_ : State) (d_ : Desc), Meets cmdKeepSet t mb { buf } s_ d_ (fun s c => c.arg 0 ≤ 1 ∧ c.arg 2 ≠ 0 ∧ (∀ i < c.arg 2, (s.pageEnt (c.arg 1 + i)).kind = .plain ∧ (s.pageEnt (c.arg 1 + i)).owner = c.part) ∧
      ((List.range (c.arg 2)).map (c.arg 1 + ·)).foldl (fun (s : State) l => s.setPage l { s.pageEnt l with kept := c.arg 0 == 1 }) s = s' ∧
      s'.keptFull = false)) ∧
    (∃ t : Nat, ∃ mb : Nat, ∃ buf : Option (List Byte), ∃ (s_ : State) (d_ : Desc), Meets cmdScrubSet t mb { buf } s_ d_ (fun _ c => 1 ≤ c.arg 0 ∧ c.arg 0 ≤ 168)) :=
  ⟨⟨0, 1, none, 8388608, (got ((cmdPagemapAlloc.begun (((queued ({ (up.modMb 1 fun m => { m with role := 2 }) with mem := { up.mem with chans := [(8, { st := .up, capacity := 1 })] } }) 1 (dsc cmdPagemapAlloc 0 [1, 6, 1, 8388608]))).adv (0)) (1) ((dsc cmdPagemapAlloc 0 [1, 6, 1, 8388608])) ({ buf := (none) } : ExtIn)).allocWith fun s => (s.mapPages ((List.range 1).map (8388608 + ·)) 0 .window false).map fun s => (s, ()))).1, (queued ({ (up.modMb 1 fun m => { m with role := 2 }) with mem := { up.mem with chans := [(8, { st := .up, capacity := 1 })] } }) 1 (dsc cmdPagemapAlloc 0 [1, 6, 1, 8388608])), (dsc cmdPagemapAlloc 0 [1, 6, 1, 8388608]), meets (by decide +kernel) (by decide +kernel)⟩,
    ⟨0, 0, none, (queued ({ up with mem := { up.mem with map := [(16777215, { kind := .plain })] } }) 0 (dsc cmdPagemapFree 0 [16777215, 1])), (dsc cmdPagemapFree 0 [16777215, 1]), meets (by decide +kernel) (by decide +kernel)⟩,
    ⟨0, 0, none, (queued (up) 0 (dsc cmdWindowOpen 0 [0, 7, 3, 1, 0, 15, 0, 0xBA000])), (dsc cmdWindowOpen 0 [0, 7, 3, 1, 0, 15, 0, 0xBA000]), meets (by decide +kernel) (by decide +kernel)⟩,
    ⟨0, 0, none, (queued (up) 0 (dsc cmdWindowOpen 0 [1, 255, 3, 0, 0, 0, 8388608, 8388608])), (dsc cmdWindowOpen 0 [1, 255, 3, 0, 0, 0, 8388608, 8388608]), meets (by decide +kernel) (by decide +kernel)⟩,
    ⟨0, 0, none, (queued (up) 0 (dsc cmdWindowClose 0 [0, 7, 15])), (dsc cmdWindowClose 0 [0, 7, 15]), meets (by decide +kernel) (by decide +kernel)⟩,
    ⟨0, 0, none, (queued (up) 0 (dsc cmdWindowClose 0 [1, 255, 0])), (dsc cmdWindowClose 0 [1, 255, 0]), meets (by decide +kernel) (by decide +kernel)⟩,
    ⟨0, 0, none, ((cmdKeepSet.begun (((queued ({ up with mem := { up.mem with map := [(2, { kind := .plain })] } }) 0 (dsc cmdKeepSet 0 [1, 2, 1]))).adv (0)) (0) ((dsc cmdKeepSet 0 [1, 2, 1])) ({ buf := (none) } : ExtIn)).setPage 2 { kind := .plain, kept := true }), (queued ({ up with mem := { up.mem with map := [(2, { kind := .plain })] } }) 0 (dsc cmdKeepSet 0 [1, 2, 1])), (dsc cmdKeepSet 0 [1, 2, 1]), meets (by decide +kernel) (by decide +kernel)⟩,
    ⟨0, 0, none, (queued (up) 0 (dsc cmdScrubSet 0 [168])), (dsc cmdScrubSet 0 [168]), meets (by decide +kernel) (by decide +kernel)⟩⟩

/-- Witnesses of `MemoryCommandsRun`: for each clause a state and operands that meet its hypotheses, part 2. -/
theorem test_MemoryCommandsRun_meets_2 :
    (∃ t : Nat, ∃ mb : Nat, ∃ buf : Option (List Byte), ∃ (s_ : State) (d_ : Desc), Meets cmdPageRetire t mb { buf } s_ d_ (fun s c => s.ppnExists (c.arg 0) = true)) ∧
    (∃ t : Nat, ∃ mb : Nat, ∃ buf : Option (List Byte), ∃ (s_ : State) (d_ : Desc), Meets cmdPageRetireSet t mb { buf } s_ d_ (fun _ c => c.arg 0 ≠ 0)) :=
  ⟨⟨0, 0, none, (queued (up) 0 (dsc cmdPageRetire 0 [4095])), (dsc cmdPageRetire 0 [4095]), meets (by decide +kernel) (by decide +kernel)⟩,
    ⟨0, 0, none, (queued (up) 0 (dsc cmdPageRetireSet 0 [1])), (dsc cmdPageRetireSet 0 [1]), meets (by decide +kernel) (by decide +kernel)⟩⟩

/-- Witnesses of `TwinCommandsRun`: for each clause a state and operands that meet its hypotheses. -/
theorem test_TwinCommandsRun_meets :
    (∃ t : Nat, ∃ mb : Nat, ∃ buf : Option (List Byte), ∃ w : TwinPeer, ∃ s' : State, ∃ base, ∃ (s_ : State) (d_ : Desc), Meets cmdTwinBind t mb { buf, peer := some w, later := false } s_ d_ (fun s c => c.arg 0 ≤ 15 ∧ 1 ≤ c.arg 4 ∧ c.arg 4 ≤ 1000 ∧ 1 ≤ c.arg 5 ∧ c.arg 5 ≤ 600 ∧ s.bindPort c.part (c.arg 1) (c.arg 3) = true ∧
      (c.arg 2 = 0xFF ∨ (c.arg 2 ≠ c.arg 1 ∧ s.bindPort c.part (c.arg 2) (c.arg 3) = true)) ∧ ((s.part c.part).twin.st = .unbound ∨ (s.part c.part).twin.st = .broken) ∧
      w.dev = s.hub.devId ∧ w.part = c.part ∧
      (s.mbx c.mb).ext = { buf, peer := some w, later := false } ∧
      (if (s.part c.part).twin.st == .broken && (s.part c.part).twin.reserve == c.arg 6 then s' = s ∧ base = (s.part c.part).twin.base
      else (match (s.part c.part).twin.base with
        | some l => (s.unmapPages ((List.range (s.part c.part).twin.reserve).map (l + ·))).zeroAll
        | none => s.zeroAll).mirrorAlloc c.part (c.arg 6) = .ok (s', base)))) ∧
    (∃ t : Nat, ∃ mb : Nat, ∃ buf : Option (List Byte), ∃ (s_ : State) (d_ : Desc), Meets cmdTwinUnbind t mb { buf } s_ d_ (fun s c => (s.part c.part).twin.st = .unbound)) ∧
    (∃ t : Nat, ∃ mb : Nat, ∃ buf : Option (List Byte), ∃ (s_ : State) (d_ : Desc), Meets cmdTwinUnbind t mb { buf } s_ d_ (fun s c => (s.part c.part).twin.st ≠ .unbound)) ∧
    (∃ t : Nat, ∃ mb : Nat, ∃ buf : Option (List Byte), ∃ p : Nat, ∃ (s_ : State) (d_ : Desc), Meets cmdMirrorExport t mb { buf } s_ d_ (fun s c => s.twinWith c.part (c.arg 1) = some p)) ∧
    (∃ t : Nat, ∃ mb : Nat, ∃ buf : Option (List Byte), ∃ j : Job, ∃ (s_ : State) (d_ : Desc), Meets cmdEpactRead t mb { buf } s_ d_ (fun s c => s.job c.part = some j)) :=
  ⟨⟨0, 0, none, { dev := 5, reserve := 9 }, (okOf ((cmdTwinBind.begun (((queued (up.modPort 0 fun x => { x with st := .up, twin := true, partnerDev := 6 }) 0 (dsc cmdTwinBind 0 [15, 0, 0xFF, 6, 1000, 600, 1]))).adv (0)) (0) ((dsc cmdTwinBind 0 [15, 0, 0xFF, 6, 1000, 600, 1])) ({ buf := (none),  peer := some ({ dev := 5, reserve := 9 }),  later := false } : ExtIn)).zeroAll.mirrorAlloc 0 1)).1, (okOf ((cmdTwinBind.begun (((queued (up.modPort 0 fun x => { x with st := .up, twin := true, partnerDev := 6 }) 0 (dsc cmdTwinBind 0 [15, 0, 0xFF, 6, 1000, 600, 1]))).adv (0)) (0) ((dsc cmdTwinBind 0 [15, 0, 0xFF, 6, 1000, 600, 1])) ({ buf := (none),  peer := some ({ dev := 5, reserve := 9 }),  later := false } : ExtIn)).zeroAll.mirrorAlloc 0 1)).2, (queued (up.modPort 0 fun x => { x with st := .up, twin := true, partnerDev := 6 }) 0 (dsc cmdTwinBind 0 [15, 0, 0xFF, 6, 1000, 600, 1])), (dsc cmdTwinBind 0 [15, 0, 0xFF, 6, 1000, 600, 1]), meets (by decide +kernel) (by decide +kernel)⟩,
    ⟨0, 0, none, (queued (up) 0 (dsc cmdTwinUnbind 0 [])), (dsc cmdTwinUnbind 0 []), meets (by decide +kernel) (by decide +kernel)⟩,
    ⟨0, 0, none, (queued (up.modTwin 0 fun x => { x with st := .broken }) 0 (dsc cmdTwinUnbind 0 [])), (dsc cmdTwinUnbind 0 []), meets (by decide +kernel) (by decide +kernel)⟩,
    ⟨0, 0, none, 0, (queued (up.modTwin 0 fun x => { x with st := .bound, peerDev := 6 }) 0 (dsc cmdMirrorExport 0xFF [1, 6, 9])), (dsc cmdMirrorExport 0xFF [1, 6, 9]), meets (by decide +kernel) (by decide +kernel)⟩,
    ⟨0, 0, none, {}, (queued (withJob {}) 0 (dsc cmdEpactRead 0 [])), (dsc cmdEpactRead 0 []), meets (by decide +kernel) (by decide +kernel)⟩⟩

/-- Witnesses of `RestoreCommandsRun`: for each clause a state and operands that meet its hypotheses, part 1. -/
theorem test_RestoreCommandsRun_meets :
    (∃ t : Nat, ∃ mb : Nat, ∃ buf : Option (List Byte), ∃ m : MirrorIn, ∃ o : Ordo, ∃ z1, ∃ a : Tbl Nat, ∃ b : Tbl Nat, ∃ z2 : State, ∃ ls : List Nat, ∃ (s_ : State) (d_ : Desc), Meets cmdRestoreBegin t mb { buf, mirror := m, later := false } s_ d_ (fun s c => (s.part c.part).ordo = some o ∧ c.arg 1 ≤ 1 ∧ s.anyJob = false ∧
      (((s.dropRestore c.part).askOnce c.mb (.mirrorRead (c.arg 0) 0xFF)).mbx c.mb).ext.later = false ∧ (s.mbx c.mb).ext.mirror = m ∧ m.exported = true ∧ m.answered = true ∧ m.lrec.ordoId = o.digest.setWidth 64 ∧
      (m.lrec.step + 1) % 2 ^ 64 = c.arg 2 ∧ ((s.dropRestore c.part).askOnce c.mb (.mirrorRead (c.arg 0) 0xFF)).zeroAll.allocSides c.part o.classes.length = some (z1, a, b) ∧
      z1.allocJob c.part o = some (z2, ls) ∧ z2.keptFull = false)) ∧
    (∃ t : Nat, ∃ mb : Nat, ∃ buf : Option (List Byte), ∃ j : Job, ∃ s' : State, ∃ d : Tbl (BitVec 128), ∃ (s_ : State) (d_ : Desc), Meets cmdReconcile t mb { buf } s_ d_ (fun s c => c.arg 0 < 2 ^ 48 ∧ (s.part c.part).job = some j ∧ j.st = .hold ∧
      s.reconcileIn j (epactAt j.epactSealed (c.arg 0)) j.digSealed = (s', d))) ∧
    (∃ t : Nat, ∃ mb : Nat, ∃ buf : Option (List Byte), ∃ o : Ordo, ∃ s' : State, ∃ d, ∃ (s_ : State) (d_ : Desc), Meets cmdReconcile t mb { buf } s_ d_ (fun s c => c.arg 0 < 2 ^ 48 ∧ (s.part c.part).job = none ∧ (s.part c.part).ordo = some o ∧
      ((s.part c.part).restore.st = .epact ∨ ((s.part c.part).restore.st = .verified ∧ (s.part c.part).restore.reconciled = true)) ∧
      s.reconcileIn ((s.part c.part).restore.job o) (epactAt (epactOfBytes (s.sealedClass ((s.part c.part).restore.job o) 4 0 16)) (c.arg 0))
        ((s.part c.part).restore.pages.map fun y => (y.1, y.2.2)) = (s', d))) :=
  ⟨⟨0, 0, none, { exported := true, answered := true, lrec := { step := 3 } }, {}, (optG ((((cmdRestoreBegin.begun (((queued (up.modPart 0 fun x => { x with ordo := some {} }) 0 (dsc cmdRestoreBegin 0 [9, 0, 4, 0, 0]))).adv (0)) (0) ((dsc cmdRestoreBegin 0 [9, 0, 4, 0, 0])) ({ buf := (none),  mirror := ({ exported := true, answered := true, lrec := { step := 3 } }),  later := false } : ExtIn)).dropRestore 0).askOnce 0 (.mirrorRead 9 0xFF)).zeroAll.allocSides 0 0)).1, (optG ((((cmdRestoreBegin.begun (((queued (up.modPart 0 fun x => { x with ordo := some {} }) 0 (dsc cmdRestoreBegin 0 [9, 0, 4, 0, 0]))).adv (0)) (0) ((dsc cmdRestoreBegin 0 [9, 0, 4, 0, 0])) ({ buf := (none),  mirror := ({ exported := true, answered := true, lrec := { step := 3 } }),  later := false } : ExtIn)).dropRestore 0).askOnce 0 (.mirrorRead 9 0xFF)).zeroAll.allocSides 0 0)).2.1, (optG ((((cmdRestoreBegin.begun (((queued (up.modPart 0 fun x => { x with ordo := some {} }) 0 (dsc cmdRestoreBegin 0 [9, 0, 4, 0, 0]))).adv (0)) (0) ((dsc cmdRestoreBegin 0 [9, 0, 4, 0, 0])) ({ buf := (none),  mirror := ({ exported := true, answered := true, lrec := { step := 3 } }),  later := false } : ExtIn)).dropRestore 0).askOnce 0 (.mirrorRead 9 0xFF)).zeroAll.allocSides 0 0)).2.2, (optG ((optG ((((cmdRestoreBegin.begun (((queued (up.modPart 0 fun x => { x with ordo := some {} }) 0 (dsc cmdRestoreBegin 0 [9, 0, 4, 0, 0]))).adv (0)) (0) ((dsc cmdRestoreBegin 0 [9, 0, 4, 0, 0])) ({ buf := (none),  mirror := ({ exported := true, answered := true, lrec := { step := 3 } }),  later := false } : ExtIn)).dropRestore 0).askOnce 0 (.mirrorRead 9 0xFF)).zeroAll.allocSides 0 0)).1.allocJob 0 {})).1, (optG ((optG ((((cmdRestoreBegin.begun (((queued (up.modPart 0 fun x => { x with ordo := some {} }) 0 (dsc cmdRestoreBegin 0 [9, 0, 4, 0, 0]))).adv (0)) (0) ((dsc cmdRestoreBegin 0 [9, 0, 4, 0, 0])) ({ buf := (none),  mirror := ({ exported := true, answered := true, lrec := { step := 3 } }),  later := false } : ExtIn)).dropRestore 0).askOnce 0 (.mirrorRead 9 0xFF)).zeroAll.allocSides 0 0)).1.allocJob 0 {})).2, (queued (up.modPart 0 fun x => { x with ordo := some {} }) 0 (dsc cmdRestoreBegin 0 [9, 0, 4, 0, 0])), (dsc cmdRestoreBegin 0 [9, 0, 4, 0, 0]), meets (by decide +kernel) (by decide +kernel)⟩,
    ⟨0, 0, none, { st := .hold }, ((cmdReconcile.begun (((queued (withJob { st := .hold }) 0 (dsc cmdReconcile 0 [2 ^ 48 - 1]))).adv (0)) (0) ((dsc cmdReconcile 0 [2 ^ 48 - 1])) ({ buf := (none) } : ExtIn)).reconcileIn { st := .hold } (epactAt {} (2 ^ 48 - 1)) []).1, ((cmdReconcile.begun (((queued (withJob { st := .hold }) 0 (dsc cmdReconcile 0 [2 ^ 48 - 1]))).adv (0)) (0) ((dsc cmdReconcile 0 [2 ^ 48 - 1])) ({ buf := (none) } : ExtIn)).reconcileIn { st := .hold } (epactAt {} (2 ^ 48 - 1)) []).2, (queued (withJob { st := .hold }) 0 (dsc cmdReconcile 0 [2 ^ 48 - 1])), (dsc cmdReconcile 0 [2 ^ 48 - 1]), meets (by decide +kernel) (by decide +kernel)⟩,
    ⟨0, 0, none, {}, ((cmdReconcile.begun (((queued (up.modPart 0 fun x => { x with ordo := some {}, restore := { st := .epact } }) 0 (dsc cmdReconcile 0 [7]))).adv (0)) (0) ((dsc cmdReconcile 0 [7])) ({ buf := (none) } : ExtIn)).reconcileIn (((cmdReconcile.begun (((queued (up.modPart 0 fun x => { x with ordo := some {}, restore := { st := .epact } }) 0 (dsc cmdReconcile 0 [7]))).adv (0)) (0) ((dsc cmdReconcile 0 [7])) ({ buf := (none) } : ExtIn)).part 0).restore.job {}) (epactAt (epactOfBytes ((cmdReconcile.begun (((queued (up.modPart 0 fun x => { x with ordo := some {}, restore := { st := .epact } }) 0 (dsc cmdReconcile 0 [7]))).adv (0)) (0) ((dsc cmdReconcile 0 [7])) ({ buf := (none) } : ExtIn)).sealedClass (((cmdReconcile.begun (((queued (up.modPart 0 fun x => { x with ordo := some {}, restore := { st := .epact } }) 0 (dsc cmdReconcile 0 [7]))).adv (0)) (0) ((dsc cmdReconcile 0 [7])) ({ buf := (none) } : ExtIn)).part 0).restore.job {}) 4 0 16)) 7) (((cmdReconcile.begun (((queued (up.modPart 0 fun x => { x with ordo := some {}, restore := { st := .epact } }) 0 (dsc cmdReconcile 0 [7]))).adv (0)) (0) ((dsc cmdReconcile 0 [7])) ({ buf := (none) } : ExtIn)).part 0).restore.pages.map fun y => (y.1, y.2.2))).1, ((cmdReconcile.begun (((queued (up.modPart 0 fun x => { x with ordo := some {}, restore := { st := .epact } }) 0 (dsc cmdReconcile 0 [7]))).adv (0)) (0) ((dsc cmdReconcile 0 [7])) ({ buf := (none) } : ExtIn)).reconcileIn (((cmdReconcile.begun (((queued (up.modPart 0 fun x => { x with ordo := some {}, restore := { st := .epact } }) 0 (dsc cmdReconcile 0 [7]))).adv (0)) (0) ((dsc cmdReconcile 0 [7])) ({ buf := (none) } : ExtIn)).part 0).restore.job {}) (epactAt (epactOfBytes ((cmdReconcile.begun (((queued (up.modPart 0 fun x => { x with ordo := some {}, restore := { st := .epact } }) 0 (dsc cmdReconcile 0 [7]))).adv (0)) (0) ((dsc cmdReconcile 0 [7])) ({ buf := (none) } : ExtIn)).sealedClass (((cmdReconcile.begun (((queued (up.modPart 0 fun x => { x with ordo := some {}, restore := { st := .epact } }) 0 (dsc cmdReconcile 0 [7]))).adv (0)) (0) ((dsc cmdReconcile 0 [7])) ({ buf := (none) } : ExtIn)).part 0).restore.job {}) 4 0 16)) 7) (((cmdReconcile.begun (((queued (up.modPart 0 fun x => { x with ordo := some {}, restore := { st := .epact } }) 0 (dsc cmdReconcile 0 [7]))).adv (0)) (0) ((dsc cmdReconcile 0 [7])) ({ buf := (none) } : ExtIn)).part 0).restore.pages.map fun y => (y.1, y.2.2))).2, (queued (up.modPart 0 fun x => { x with ordo := some {}, restore := { st := .epact } }) 0 (dsc cmdReconcile 0 [7])), (dsc cmdReconcile 0 [7]), meets (by decide +kernel) (by decide +kernel)⟩⟩

/-- Witnesses of `RestoreCommandsRun`: for each clause a state and operands that meet its hypotheses, part 2. -/
theorem test_RestoreCommandsRun_meets_2 :
    (∃ t : Nat, ∃ mb : Nat, ∃ buf : Option (List Byte), ∃ o : Ordo, ∃ (s_ : State) (d_ : Desc), Meets cmdRestoreCommit t mb { buf } s_ d_ (fun s c => (s.part c.part).ordo = some o ∧ (s.part c.part).restore.st = .verified ∧ s.anyJob = false ∧
      s.almRoom o = true)) ∧
    (∃ t : Nat, ∃ mb : Nat, ∃ buf : Option (List Byte), ∃ m : MirrorIn, ∃ j : Job, ∃ s' : State, ∃ (s_ : State) (d_ : Desc), Meets cmdRestorePage t mb { buf, mirror := m, later := false } s_ d_ (fun s c => s.job c.part = some j ∧ (j.st = .hold ∨ j.st = .stopped ∨ j.st = .atGate) ∧
      ((s.part c.part).twin.st = .syncing ∨ (s.part c.part).twin.st = .bound) ∧ (s.part c.part).twin.phase = .idle ∧
      (s.part c.part).twin.outFull = true ∧ c.arg 0 ≤ c.arg 1 ∧ c.arg 1 < j.classes.length ∧ (s.mbx c.mb).ext = { buf, mirror := m, later := false } ∧ m.answered = true ∧
      State.rebuildAll c.part (c.arg 0) m ((List.range (c.arg 1 + 1 - c.arg 0)).map (c.arg 0 + ·))
        ((s.askOnce c.mb (.mirrorRead (s.part c.part).twin.peerDev (s.part c.part).twin.peerPart)).zeroAll) = (s', none))) :=
  ⟨⟨0, 0, none, {}, (queued (up.modPart 0 fun x => { x with ordo := some {}, restore := { st := .verified, lostDev := 6 } }) 0 (dsc cmdRestoreCommit 0 [])), (dsc cmdRestoreCommit 0 []), meets (by decide +kernel) (by decide +kernel)⟩,
    test_restore_page⟩

/-- Witnesses of `CensusCommandsRun`: for each clause a state and operands that meet its hypotheses. -/
theorem test_CensusCommandsRun_meets :
    (∃ t : Nat, ∃ mb : Nat, ∃ buf : Option (List Byte), ∃ us : List (List Byte), ∃ (s_ : State) (d_ : Desc), Meets cmdCensusRead t mb { buf } s_ d_ (fun s c => s.readObjects c (c.arg 0) (c.arg 1) = .ok us)) ∧
    (∃ t : Nat, ∃ mb : Nat, ∃ buf : Option (List Byte), ∃ us : List (List Byte), ∃ (s_ : State) (d_ : Desc), Meets cmdCensusSnapshot t mb { buf } s_ d_ (fun s c => c.arg 0 = 0 ∧ s.readObjects c (c.arg 1) (c.arg 2) = .ok us)) ∧
    (∃ t : Nat, ∃ mb : Nat, ∃ buf : Option (List Byte), ∃ us : List (List Byte), ∃ j : Job, ∃ (s_ : State) (d_ : Desc), Meets cmdCensusSnapshot t mb { buf } s_ d_ (fun s c => c.arg 0 = 1 ∧ s.readObjects c (c.arg 1) (c.arg 2) = .ok us ∧ c.part < 16 ∧ s.job c.part = some j ∧
      (us.map List.length).sum ≤ 16777216)) ∧
    (∃ t : Nat, ∃ mb : Nat, ∃ buf : Option (List Byte), ∃ (s_ : State) (d_ : Desc), Meets cmdLogRead t mb { buf } s_ d_ (fun _ _ => True)) ∧
    (∃ t : Nat, ∃ mb : Nat, ∃ buf : Option (List Byte), ∃ (s_ : State) (d_ : Desc), Meets cmdHarvestSet t mb { buf } s_ d_ (fun s c => 1 ≤ c.arg 0 ∧ c.arg 0 ≤ 4 ∧
      (∀ i < c.arg 0, c.arg (1 + 2 * i) % 256 = 0 ∧ c.arg (2 + 2 * i) % 256 = 0 ∧ c.arg (2 + 2 * i) ≠ 0 ∧
        c.arg (1 + 2 * i) + c.arg (2 + 2 * i) ≤ 786432) ∧
      s.sampleSize c.part ((List.range (c.arg 0)).map fun i => (c.arg (1 + 2 * i), c.arg (2 + 2 * i))) +
        (((List.range 16).filter fun q => q != c.part && (s.part q).exist).map fun q => s.sampleSize q (s.part q).harvest).sum ≤ 67108864)) ∧
    (∃ t : Nat, ∃ mb : Nat, ∃ buf : Option (List Byte), ∃ (s_ : State) (d_ : Desc), Meets cmdHarvestRead t mb { buf } s_ d_ (fun s c => (s.part c.part).harvested.present = true ∧ (s.part c.part).harvested.cred = (s.part c.part).cred ∧ c.arg 1 ≠ 0)) ∧
    (∃ t : Nat, ∃ mb : Nat, ∃ buf : Option (List Byte), ∃ (s_ : State) (d_ : Desc), Meets cmdHarvestRead t mb { buf } s_ d_ (fun s c => (s.part c.part).harvested.present = true ∧ (s.part c.part).harvested.cred = (s.part c.part).cred ∧ c.arg 1 = 0)) :=
  ⟨(by
    obtain ⟨us, h⟩ := ok_of (x := ((cmdCensusRead.begun ((queued (up) 0 (dsc cmdCensusRead 0 [0x01000000, 1] (3, 4096))).adv 0) 0 (dsc cmdCensusRead 0 [0x01000000, 1] (3, 4096)) {}).readObjects (cmdCensusRead.cmd 0 (dsc cmdCensusRead 0 [0x01000000, 1] (3, 4096))) ((cmdCensusRead.cmd 0 (dsc cmdCensusRead 0 [0x01000000, 1] (3, 4096))).arg 0) ((cmdCensusRead.cmd 0 (dsc cmdCensusRead 0 [0x01000000, 1] (3, 4096))).arg 1))) (by decide +kernel)
    exact ⟨0, 0, none, us, queued (up) 0 (dsc cmdCensusRead 0 [0x01000000, 1] (3, 4096)), dsc cmdCensusRead 0 [0x01000000, 1] (3, 4096), meets (by decide +kernel) h⟩),
    (by
    obtain ⟨us, h⟩ := ok_of (x := ((cmdCensusSnapshot.begun ((queued (up) 0 (dsc cmdCensusSnapshot 0 [0, 0x01000000, 1] (3, 4096))).adv 0) 0 (dsc cmdCensusSnapshot 0 [0, 0x01000000, 1] (3, 4096)) {}).readObjects (cmdCensusSnapshot.cmd 0 (dsc cmdCensusSnapshot 0 [0, 0x01000000, 1] (3, 4096))) ((cmdCensusSnapshot.cmd 0 (dsc cmdCensusSnapshot 0 [0, 0x01000000, 1] (3, 4096))).arg 1) ((cmdCensusSnapshot.cmd 0 (dsc cmdCensusSnapshot 0 [0, 0x01000000, 1] (3, 4096))).arg 2))) (by decide +kernel)
    exact ⟨0, 0, none, us, queued (up) 0 (dsc cmdCensusSnapshot 0 [0, 0x01000000, 1] (3, 4096)), dsc cmdCensusSnapshot 0 [0, 0x01000000, 1] (3, 4096), meets (by decide +kernel) ⟨by decide +kernel, h⟩⟩),
    (by
    obtain ⟨us, h, hl⟩ := ok_with (x := ((cmdCensusSnapshot.begun ((queued (withJob {}) 0 (dsc cmdCensusSnapshot 0 [1, 0x01000000, 1] (3, 4096))).adv 0) 0 (dsc cmdCensusSnapshot 0 [1, 0x01000000, 1] (3, 4096)) {}).readObjects (cmdCensusSnapshot.cmd 0 (dsc cmdCensusSnapshot 0 [1, 0x01000000, 1] (3, 4096))) ((cmdCensusSnapshot.cmd 0 (dsc cmdCensusSnapshot 0 [1, 0x01000000, 1] (3, 4096))).arg 1) ((cmdCensusSnapshot.cmd 0 (dsc cmdCensusSnapshot 0 [1, 0x01000000, 1] (3, 4096))).arg 2))) (p := fun us => (us.map List.length).sum ≤ 16777216) (by decide +kernel)
    exact ⟨0, 0, none, us, {}, queued (withJob {}) 0 (dsc cmdCensusSnapshot 0 [1, 0x01000000, 1] (3, 4096)), dsc cmdCensusSnapshot 0 [1, 0x01000000, 1] (3, 4096), meets (by decide +kernel) ⟨by decide +kernel, h, by decide +kernel, by decide +kernel, hl⟩⟩),
    ⟨0, 0, none, (queued (up) 0 (dsc cmdLogRead 0 [1, 0] (3, 64))), (dsc cmdLogRead 0 [1, 0] (3, 64)), meets (by decide +kernel) (by decide +kernel)⟩,
    ⟨0, 0, none, (queued (up) 0 (dsc cmdHarvestSet 0 [1, 786176, 256])), (dsc cmdHarvestSet 0 [1, 786176, 256]), meets (by decide +kernel) (by decide +kernel)⟩,
    ⟨0, 1, none, (queued ((up.modPart 0 fun x => { x with harvested := { present := true, cred := 7, tiles := [(3, 3, 0)] } }).modMb 1 fun m => { m with role := 2 }) 1 (dsc cmdHarvestRead 0 [3, 1] (3, 64))), (dsc cmdHarvestRead 0 [3, 1] (3, 64)), meets (by decide +kernel) (by decide +kernel)⟩,
    ⟨0, 1, none, (queued ((up.modPart 0 fun x => { x with harvested := { present := true, cred := 7, tiles := [(3, 3, 0)] } }).modMb 1 fun m => { m with role := 2 }) 1 (dsc cmdHarvestRead 0 [0, 0] (3, 64))), (dsc cmdHarvestRead 0 [0, 0] (3, 64)), meets (by decide +kernel) (by decide +kernel)⟩⟩

/-- Witnesses of `PowerCommandsRun`: for each clause a state and operands that meet its hypotheses. -/
theorem test_PowerCommandsRun_meets :
    (∃ t : Nat, ∃ mb : Nat, ∃ buf : Option (List Byte), ∃ (s_ : State) (d_ : Desc), Meets cmdDvfsSet t mb { buf } s_ d_ (fun s c => c.arg 1 ≤ 6 ∧ (c.arg 0 = 0xFF ∨ (c.arg 0 < 64 ∧ bitAt (s.part c.part).regions (c.arg 0) = true)))) ∧
    (∃ t : Nat, ∃ mb : Nat, ∃ buf : Option (List Byte), ∃ (s_ : State) (d_ : Desc), Meets cmdPowerBudgetSet t mb { buf } s_ d_ (fun _ c => 1000 ≤ c.arg 0 ∧ c.arg 0 ≤ 2600)) ∧
    (∃ t : Nat, ∃ mb : Nat, ∃ buf : Option (List Byte), ∃ (s_ : State) (d_ : Desc), Meets cmdPrewarnDefaultSet t mb { buf } s_ d_ (fun _ c => c.arg 0 ≤ 15)) ∧
    (∃ t : Nat, ∃ mb : Nat, ∃ buf : Option (List Byte), ∃ (s_ : State) (d_ : Desc), Meets cmdRegionPower t mb { buf } s_ d_ (fun s c => c.arg 1 ≤ 2 ∧ (∀ g < 64, bitOn (c.arg 0) g = true →
      (∀ p, s.partOfRegion g = some p → s.job p = none) ∧ (s.region g).logic ≠ .dark))) ∧
    (∃ t : Nat, ∃ mb : Nat, ∃ buf : Option (List Byte), ∃ (s_ : State) (d_ : Desc), Meets cmdThermalSet t mb { buf } s_ d_ (fun _ c => 85 ≤ c.arg 0 ∧ c.arg 0 ≤ 103)) :=
  ⟨⟨0, 0, none, (queued (up) 0 (dsc cmdDvfsSet 0 [0, 6])), (dsc cmdDvfsSet 0 [0, 6]), meets (by decide +kernel) (by decide +kernel)⟩,
    ⟨0, 0, none, (queued (up) 0 (dsc cmdPowerBudgetSet 0 [2600])), (dsc cmdPowerBudgetSet 0 [2600]), meets (by decide +kernel) (by decide +kernel)⟩,
    ⟨0, 0, none, (queued (up) 0 (dsc cmdPrewarnDefaultSet 0 [15])), (dsc cmdPrewarnDefaultSet 0 [15]), meets (by decide +kernel) (by decide +kernel)⟩,
    ⟨0, 0, none, (queued (up) 0 (dsc cmdRegionPower 0 [2, 0])), (dsc cmdRegionPower 0 [2, 0]), meets (by decide +kernel) ⟨by decide +kernel, by exact no_part' (by decide +kernel)⟩⟩,
    ⟨0, 0, none, (queued (up) 0 (dsc cmdThermalSet 0 [103])), (dsc cmdThermalSet 0 [103]), meets (by decide +kernel) (by decide +kernel)⟩⟩

/-- Witnesses of `SecurityCommandsRun`: for each clause a state and operands that meet its hypotheses, part 1. -/
theorem test_SecurityCommandsRun_meets :
    (∃ t : Nat, ∃ mb : Nat, ∃ buf : Option (List Byte), ∃ (s_ : State) (d_ : Desc), Meets cmdAttest t mb { buf } s_ d_ (fun s c => c.arg 2 = 0 ∧ s.sec.idLost = false ∧ s.fuses.idDestroyed = false)) ∧
    (∃ t : Nat, ∃ mb : Nat, ∃ buf : Option (List Byte), ∃ s' : State, ∃ k, ∃ (s_ : State) (d_ : Desc), Meets cmdAttest t mb { buf } s_ d_ (fun s c => c.arg 2 = 1 ∧ s.sec.idLost = false ∧ s.fuses.idDestroyed = false ∧ s.bufIn c = (s', some k) ∧ 96 ≤ k.length)) ∧
    (∃ t : Nat, ∃ mb : Nat, ∃ buf : Option (List Byte), ∃ (s_ : State) (d_ : Desc), Meets cmdAlarmPolicy t mb { buf } s_ d_ (fun s c => c.arg 0 ≤ 5 ∧ c.arg 1 ≤ 3 ∧ c.arg 2 ≤ 1 ∧ (s.alarmOf (c.arg 0)).locked = false)) ∧
    (∃ t : Nat, ∃ mb : Nat, ∃ buf : Option (List Byte), ∃ (s_ : State) (d_ : Desc), Meets cmdDebugUnlock t mb { buf } s_ d_ (fun _ c => c.arg 0 = 0 ∧ 1 ≤ c.arg 1 ∧ c.arg 1 ≤ 31)) ∧
    (∃ t : Nat, ∃ mb : Nat, ∃ buf : Option (List Byte), ∃ s' : State, ∃ b : List Byte, ∃ ch : BitVec 128, ∃ ft : Nat, ∃ (s_ : State) (d_ : Desc), Meets cmdDebugUnlock t mb { buf } s_ d_ (fun s c => c.arg 0 = 1 ∧ 1 ≤ c.arg 1 ∧ c.arg 1 ≤ 31 ∧ s.bufIn c = (s', some b) ∧ 192 ≤ b.length ∧
      s'.sec.challenge = some (ch, ft, BitVec.ofNat 8 (c.arg 1)) ∧ s'.now ≤ ft + 60 * ftSec)) ∧
    (∃ t : Nat, ∃ mb : Nat, ∃ buf : Option (List Byte), ∃ (s_ : State) (d_ : Desc), Meets cmdDebugLock t mb { buf } s_ d_ (fun _ _ => True)) ∧
    (∃ t : Nat, ∃ mb : Nat, ∃ buf : Option (List Byte), ∃ sk : BitVec 256, ∃ idx, ∃ s' : State, ∃ b : List Byte, ∃ (s_ : State) (d_ : Desc), Meets cmdKeyInstall t mb { buf } s_ d_ (fun s c => (s.mbx c.mb).session = some sk ∧
      (installSlot (c.arg 0) (c.arg 2) (c.arg 3) (c.arg 4)).bind (keyIndex (c.arg 0)) = some idx ∧ c.arg 1 ≤ 1 ∧
      s.linkInForce (c.arg 0) (c.arg 2) (c.arg 3) (c.arg 4) = false ∧ s.bufIn c = (s', some b))) ∧
    (∃ t : Nat, ∃ mb : Nat, ∃ buf : Option (List Byte), ∃ idx, ∃ (s_ : State) (d_ : Desc), Meets cmdKeyErase t mb { buf } s_ d_ (fun _ c => keyIndex (c.arg 0) (c.arg 1) = some idx)) ∧
    (∃ t : Nat, ∃ mb : Nat, ∃ buf : Option (List Byte), ∃ (s_ : State) (d_ : Desc), Meets cmdMgmtChallenge t mb { buf } s_ d_ (fun _ c => 16 ≤ c.mb)) :=
  ⟨⟨0, 0, none, (queued (up) 0 (dsc cmdAttest 0 [1, 0xFFFF, 0] (3, 8192))), (dsc cmdAttest 0 [1, 0xFFFF, 0] (3, 8192)), meets (by decide +kernel) (by decide +kernel)⟩,
    ⟨0, 0, some (List.replicate 96 0), ((cmdAttest.begun (((queued (up) 0 (dsc cmdAttest 0 [0, 0, 1] (1, 96)))).adv (0)) (0) ((dsc cmdAttest 0 [0, 0, 1] (1, 96))) ({ buf := (some (List.replicate 96 0)) } : ExtIn)).bufIn (cmdAttest.cmd (0) ((dsc cmdAttest 0 [0, 0, 1] (1, 96))))).1, List.replicate 96 0, (queued (up) 0 (dsc cmdAttest 0 [0, 0, 1] (1, 96))), (dsc cmdAttest 0 [0, 0, 1] (1, 96)), meets (by decide +kernel) (by decide +kernel)⟩,
    ⟨0, 0, none, (queued (up) 0 (dsc cmdAlarmPolicy 0 [5, 3, 1])), (dsc cmdAlarmPolicy 0 [5, 3, 1]), meets (by decide +kernel) (by decide +kernel)⟩,
    ⟨0, 0, none, (queued (up) 0 (dsc cmdDebugUnlock 0 [0, 31])), (dsc cmdDebugUnlock 0 [0, 31]), meets (by decide +kernel) (by decide +kernel)⟩,
    ⟨60 * ftSec, 0, some (List.replicate 192 0), ((cmdDebugUnlock.begun (((queued ({ up with sec := { up.sec with challenge := some (1, 0, 31) } }) 0 (dsc cmdDebugUnlock 0 [1, 31] (1, 192)))).adv (60 * ftSec)) (0) ((dsc cmdDebugUnlock 0 [1, 31] (1, 192))) ({ buf := (some (List.replicate 192 0)) } : ExtIn)).bufIn (cmdDebugUnlock.cmd (0) ((dsc cmdDebugUnlock 0 [1, 31] (1, 192))))).1, List.replicate 192 0, 1, 0, (queued ({ up with sec := { up.sec with challenge := some (1, 0, 31) } }) 0 (dsc cmdDebugUnlock 0 [1, 31] (1, 192))), (dsc cmdDebugUnlock 0 [1, 31] (1, 192)), meets (by decide +kernel) (by decide +kernel)⟩,
    ⟨0, 0, none, (queued (up) 0 (dsc cmdDebugLock 0 [])), (dsc cmdDebugLock 0 []), meets (by decide +kernel) (by decide +kernel)⟩,
    ⟨0, 0, some (List.replicate 60 0), 3, 2303, ((cmdKeyInstall.begun (((queued (up.modMb 0 fun m => { m with session := some 3 }) 0 (dsc cmdKeyInstall 0 [2, 1, 255, 0, 0] (1, 60)))).adv (0)) (0) ((dsc cmdKeyInstall 0 [2, 1, 255, 0, 0] (1, 60))) ({ buf := (some (List.replicate 60 0)) } : ExtIn)).bufIn (cmdKeyInstall.cmd (0) ((dsc cmdKeyInstall 0 [2, 1, 255, 0, 0] (1, 60))))).1, List.replicate 60 0, (queued (up.modMb 0 fun m => { m with session := some 3 }) 0 (dsc cmdKeyInstall 0 [2, 1, 255, 0, 0] (1, 60))), (dsc cmdKeyInstall 0 [2, 1, 255, 0, 0] (1, 60)), meets (by decide +kernel) (by decide +kernel)⟩,
    ⟨0, 0, none, 4103, (queued (up) 0 (dsc cmdKeyErase 0 [4, 7])), (dsc cmdKeyErase 0 [4, 7]), meets (by decide +kernel) (by decide +kernel)⟩,
    ⟨0, 16, none, (queued (up) 16 (dsc cmdMgmtChallenge 0 [])), (dsc cmdMgmtChallenge 0 []), meets (by decide +kernel) (by decide +kernel)⟩⟩

/-- Witnesses of `SecurityCommandsRun`: for each clause a state and operands that meet its hypotheses, part 2. -/
theorem test_SecurityCommandsRun_meets_2 :
    (∃ t : Nat, ∃ mb : Nat, ∃ buf : Option (List Byte), ∃ s' : State, ∃ b : List Byte, ∃ ch : BitVec 128, ∃ ft : Nat, ∃ k : OpKey, ∃ (s_ : State) (d_ : Desc), Meets cmdMgmtAuth t mb { buf } s_ d_ (fun s c => 16 ≤ c.mb ∧ c.arg 0 ≤ 3 ∧ s.bufIn c = (s', some b) ∧ 192 ≤ b.length ∧ (s'.mbx c.mb).challenge = some (ch, ft) ∧
      s'.now ≤ ft + 10 * ftSec ∧ Tbl.get {} s'.fuses.opKeys (c.arg 0) = k ∧ k.programmed = true ∧ k.revoked = false)) ∧
    (∃ t : Nat, ∃ mb : Nat, ∃ buf : Option (List Byte), ∃ (s_ : State) (d_ : Desc), Meets cmdOperatorKeyFuse t mb { buf } s_ d_ (fun _ c => c.mb = 0 ∧ c.arg 0 ≤ 3 ∧ c.arg 1 = 1)) ∧
    (∃ t : Nat, ∃ mb : Nat, ∃ buf : Option (List Byte), ∃ s' : State, ∃ b : List Byte, ∃ (s_ : State) (d_ : Desc), Meets cmdOperatorKeyFuse t mb { buf } s_ d_ (fun s c => c.mb = 0 ∧ c.arg 0 ≤ 3 ∧ c.arg 1 = 0 ∧ (Tbl.get {} s.fuses.opKeys (c.arg 0) : OpKey).programmed = false ∧
      s.bufIn c = (s', some b) ∧ 48 ≤ b.length)) :=
  ⟨⟨10 * ftSec, 16, some (List.replicate 192 0), ((cmdMgmtAuth.begun (((queued (({ up with fuses := { up.fuses with opKeys := [(3, { programmed := true })] } } : State).modMb 16 fun m => { m with challenge := some (1, 0) }) 16 (dsc cmdMgmtAuth 0 [3] (1, 192)))).adv (10 * ftSec)) (16) ((dsc cmdMgmtAuth 0 [3] (1, 192))) ({ buf := (some (List.replicate 192 0)) } : ExtIn)).bufIn (cmdMgmtAuth.cmd (16) ((dsc cmdMgmtAuth 0 [3] (1, 192))))).1, List.replicate 192 0, 1, 0, { programmed := true }, (queued (({ up with fuses := { up.fuses with opKeys := [(3, { programmed := true })] } } : State).modMb 16 fun m => { m with challenge := some (1, 0) }) 16 (dsc cmdMgmtAuth 0 [3] (1, 192))), (dsc cmdMgmtAuth 0 [3] (1, 192)), meets (by decide +kernel) (by decide +kernel)⟩,
    ⟨0, 0, none, (queued (up) 0 (dsc cmdOperatorKeyFuse 0 [3, 1])), (dsc cmdOperatorKeyFuse 0 [3, 1]), meets (by decide +kernel) (by decide +kernel)⟩,
    ⟨0, 0, some (List.replicate 48 1), ((cmdOperatorKeyFuse.begun (((queued (up) 0 (dsc cmdOperatorKeyFuse 0 [3, 0] (1, 48)))).adv (0)) (0) ((dsc cmdOperatorKeyFuse 0 [3, 0] (1, 48))) ({ buf := (some (List.replicate 48 1)) } : ExtIn)).bufIn (cmdOperatorKeyFuse.cmd (0) ((dsc cmdOperatorKeyFuse 0 [3, 0] (1, 48))))).1, List.replicate 48 1, (queued (up) 0 (dsc cmdOperatorKeyFuse 0 [3, 0] (1, 48))), (dsc cmdOperatorKeyFuse 0 [3, 0] (1, 48)), meets (by decide +kernel) (by decide +kernel)⟩⟩

/-- Witnesses of `AlarmRowsAct`: for each clause a state and operands that meet its hypotheses. -/
theorem test_AlarmRowsAct_meets :
    (∃ t : Nat, ∃ c, ∃ det : Nat, ∃ val : Nat, ∃ s_ : State, ((fun _ => c ≤ 5)) (s_.adv t)) ∧
    (∃ t : Nat, ∃ s_ : State, ((fun _ => True)) (s_.adv t)) ∧
    (∃ t : Nat, ∃ s_ : State, ((fun s => (s.alarmOf 3).asserts = false)) (s_.adv t)) ∧
    (∃ t : Nat, ∃ s_ : State, ((fun _ => True)) (s_.adv t)) ∧
    (∃ t : Nat, ∃ s_ : State, ((fun s => (s.alarmOf 4).asserts = false)) (s_.adv t)) :=
  ⟨⟨0, 5, 63, 7, (up), by beta_reduce; decide +kernel⟩,
    ⟨0, (up), by beta_reduce; decide +kernel⟩,
    ⟨0, (up), by beta_reduce; decide +kernel⟩,
    ⟨0, (up), by beta_reduce; decide +kernel⟩,
    ⟨0, (up), by beta_reduce; decide +kernel⟩⟩

/-- Witnesses of `CollectorRowsAct`: for each clause a state and operands that meet its hypotheses. -/
theorem test_CollectorRowsAct_meets :
    (∃ t : Nat, ∃ r : ErrRec, ∃ s_ : State, ((fun _ => r.cls ∈ errClasses)) (s_.adv t)) ∧
    (∃ t : Nat, ∃ r : ErrRec, ∃ s_ : State, ((fun _ => r.cls ∉ errClasses)) (s_.adv t)) ∧
    (∃ t : Nat, ∃ c : Nat, ∃ k : Nat, ∃ u : BitVec 32, ∃ e : ErrRec, ∃ s_ : State, ((fun s => (s.col.table.find? fun e => e.cls == c && e.unitKind == k && e.unit == u) = some e ∧ e.ft + ftSec ≤ s.now ∧
      s.col.fifo.length < 960)) (s_.adv t)) ∧
    (∃ t : Nat, ∃ r : ErrRec, ∃ rest : List ErrRec, ∃ s_ : State, ((fun s => s.col.fifo = r :: rest ∧ 512 < rest.length)) (s_.adv t)) ∧
    (∃ t : Nat, ∃ r : ErrRec, ∃ rest : List ErrRec, ∃ s_ : State, ((fun s => s.col.fifo = r :: rest ∧ rest.length ≤ 512)) (s_.adv t)) ∧
    (∃ t : Nat, ∃ s_ : State, ((fun _ => True)) (s_.adv t)) ∧
    (∃ t : Nat, ∃ p : Nat, ∃ s_ : State, ((fun s => s.job p = none)) (s_.adv t)) :=
  ⟨⟨0, { cls := 0x0101 }, (up), by beta_reduce; decide +kernel⟩,
    ⟨0, { cls := 0x0903 }, (up), by beta_reduce; decide +kernel⟩,
    ⟨ftSec, 0x0101, 1, 2, { cls := 0x0101, unitKind := 1, unit := 2 }, ({ up with col := { up.col with table := [{ cls := 0x0101, unitKind := 1, unit := 2 }] } }), by beta_reduce; decide +kernel⟩,
    ⟨0, { cls := 0x0101 }, List.replicate 513 {}, ({ up with col := { up.col with fifo := { cls := 0x0101 } :: List.replicate 513 {} } }), by beta_reduce; decide +kernel⟩,
    ⟨0, { cls := 0x0101 }, List.replicate 512 {}, ({ up with col := { up.col with fifo := { cls := 0x0101 } :: List.replicate 512 {}, table := [{ cls := 0x0101, unitKind := 1, unit := 2 }] } }), by beta_reduce; decide +kernel⟩,
    ⟨0, (up), by beta_reduce; decide +kernel⟩,
    ⟨0, 0, (up), by beta_reduce; decide +kernel⟩⟩

/-- Witnesses of `AlmanacRowsAct`: for each clause a state and operands that meet its hypotheses. -/
theorem test_AlmanacRowsAct_meets :
    (∃ t : Nat, ∃ e : Nat, ∃ s_ : State, ((fun s => s.nextDue (fun x => decide (x.trigger ≤ s.now)) = some e)) (s_.adv t)) ∧
    (∃ t : Nat, ∃ p : Nat, ∃ e : Nat, ∃ w : Watch, ∃ s_ : State, ((fun s => ((s.part p).watches.find? fun w => w.entry == e && decide (w.due ≤ s.now)) = some w)) (s_.adv t)) ∧
    (∃ t : Nat, ∃ f, ∃ s_ : State, ((fun s => s.alm.armed = some f ∧ f ≤ s.now)) (s_.adv t)) ∧
    (∃ t : Nat, ∃ p : Nat, ∃ j : Job, ∃ s_ : State, ((fun s => s.job p = some j ∧ (∀ f, j.releaseHold = some f → f ≤ s.now) ∧
      s.releaseReady p j true (if (s.part p).perm then (s.part p).permTrig else (s.stepAfter p s.now).getD 0) = true ∧
      (((s.gated p = false ∨ (s.part p).perm = true ∨ j.first = true ∨ j.replay = true) ∧
          ∃ g ∈ s.regionsOf p, ∀ w, (s.region g).prewarnAt = some w → w + ftUs < s.now) ∨
        (s.gated p = true ∧ (s.part p).perm = false ∧ j.first = false ∧ j.replay = false ∧
          ∃ e ∈ s.alm.active, e.2.action = 1 ∧ e.2.part = p ∧ s.now < e.2.trigger ∧ e.2.trigger ≤ s.now + 800)))) (s_.adv t)) ∧
    (∃ t : Nat, ∃ p : Nat, ∃ j : Job, ∃ s_ : State, ((fun s => s.job p = some j ∧ j.st = .atGate ∧ (s.part p).gate = true ∧ j.first = false ∧ j.replay = false ∧
      ((s.part p).slots.filter fun sl => sl.opened.isNone && s.slotDue p (s.part p).perm (s.part p).permTrig sl) ≠ [] ∧
      ((s.part p).slots.any (·.opened.isSome)) = false)) (s_.adv t)) ∧
    (∃ t : Nat, ∃ p : Nat, ∃ sl : Slot, ∃ s_ : State, ((fun s => ((s.part p).slots.find? fun sl => sl.opened.isSome) = some sl ∧
      ((sl.running = [] ∧ s.slotIdle p = true) ∨ sl.opened.getD 0 + sl.lenUs * ftUs ≤ s.now))) (s_.adv t)) :=
  ⟨⟨100, 8191, ({ up with alm := { up.alm with active := [(8191, { trigger := 100, action := 4 })] } }), by beta_reduce; decide +kernel⟩,
    ⟨100, 0, 7, { entry := 7, due := 100 }, (up.modPart 0 fun x => { x with watches := [{ entry := 7, due := 100 }] }), by beta_reduce; decide +kernel⟩,
    ⟨100, 100, ({ up with alm := { up.alm with shadow := [(0, { trigger := 50, action := 4 })], armed := some 100 } }), by beta_reduce; decide +kernel⟩,
    ⟨1000, 0, {}, (full {}), (by
    beta_reduce
    refine ⟨by decide +kernel, (fun f h => by cases h), by decide +kernel, Or.inl ⟨by decide +kernel, 0, by decide +kernel, fun w hw => by
    have h0 : (((full {}).adv 1000).region 0).prewarnAt = none := by decide +kernel
    rw [h0] at hw; cases hw⟩⟩)⟩,
    ⟨100, 0, { first := false }, ((withJob { first := false }).modPart 0 fun x => { x with gate := true, slots := [{ lenUs := 5, entries := [3] }] }), by beta_reduce; decide +kernel⟩,
    ⟨100, 0, { opened := some 100 }, ((up.modPart 0 fun x => { x with slots := [{ opened := some 100 }] })), by beta_reduce; decide +kernel⟩⟩

/-- Witnesses of `BootRowsAct`: for each clause a state and operands that meet its hypotheses, part 1. -/
theorem test_BootRowsAct_meets :
    (∃ t : Nat, ∃ fuseOk : Bool, ∃ pufOk : Bool, ∃ fails : List Nat, ∃ s_ : State, ((fun s => s.hub.inReset = true ∧ s.pins.coldRstN = true)) (s_.adv t)) ∧
    (∃ t : Nat, ∃ s_ : State, ((fun s => s.readyDue = true)) (s_.adv t)) ∧
    (∃ t : Nat, ∃ k : Nat, ∃ c : Nat, ∃ i : Nat, ∃ e : LedgerEnt, ∃ s_ : State, ((fun s => (s.flash.ledgerPend.find? fun e => e.kind == k && e.cls == c && e.id == i) = some e)) (s_.adv t)) ∧
    (∃ t : Nat, ∃ pc : Nat, ∃ s_ : State, ((fun s => s.hub.pair0 = true)) (s_.adv t)) ∧
    (∃ t : Nat, ∃ pc : Nat, ∃ s_ : State, ((fun s => s.hub.pair1 = true)) (s_.adv t)) ∧
    (∃ t : Nat, ∃ s_ : State, ((fun s => s.hub.pair0 = true ∨ s.hub.pair1 = true)) (s_.adv t)) ∧
    (∃ t : Nat, ∃ s_ : State, ((fun s => (s.hub.pair0 = true ∨ s.hub.pair1 = true) ∧ s.hub.beatFt + 250 * ftMs ≤ s.now ∧ s.hub.inReset = false)) (s_.adv t)) ∧
    (∃ t : Nat, ∃ us : Nat, ∃ s_ : State, ((fun _ => us < 1)) (s_.adv t)) ∧
    (∃ t : Nat, ∃ us : Nat, ∃ s_ : State, ((fun _ => 10 ≤ us)) (s_.adv t)) :=
  ⟨⟨0, true, true, [], (State.reset), by beta_reduce; decide +kernel⟩,
    ⟨0, ({ up with hub := { up.hub with ready := false, pair0 := true, bootStep := 6, reset := some (.jubilee, none, 0) }, ports := (List.range 24).map fun i => (i, { st := .down }) }), by beta_reduce; decide +kernel⟩,
    ⟨0, 2, 0x0701, 3, { kind := 2, cls := 0x0701, id := 3 }, ({ up with flash := { up.flash with ledgerPend := [{ kind := 2, cls := 0x0701, id := 3 }] } }), by beta_reduce; decide +kernel⟩,
    ⟨0, 0x1000, ({ up with hub := { up.hub with pair0 := true, pair1 := true } }), by beta_reduce; decide +kernel⟩,
    ⟨0, 0x1000, ({ up with hub := { up.hub with pair0 := false, pair1 := true } }), by beta_reduce; decide +kernel⟩,
    ⟨0, ({ up with hub := { up.hub with pair0 := false, pair1 := true } }), by beta_reduce; decide +kernel⟩,
    ⟨250 * ftMs, ({ up with hub := { up.hub with pair0 := true, pair1 := true } }), by beta_reduce; decide +kernel⟩,
    ⟨0, 0, (up), by beta_reduce; decide +kernel⟩,
    ⟨0, 10, (up), by beta_reduce; decide +kernel⟩⟩

/-- Witnesses of `BootRowsAct`: for each clause a state and operands that meet its hypotheses, part 2. -/
theorem test_BootRowsAct_meets_2 :
    (∃ t : Nat, ∃ us : Nat, ∃ s_ : State, ((fun _ => 1 ≤ us ∧ us < 10)) (s_.adv t)) ∧
    (∃ t : Nat, ∃ s_ : State, ((fun _ => True)) (s_.adv t)) ∧
    (∃ t : Nat, ∃ s_ : State, ((fun _ => True)) (s_.adv t)) ∧
    (∃ t : Nat, ∃ port : Nat, ∃ s_ : State, ((fun _ => port < 2)) (s_.adv t)) :=
  ⟨⟨0, 9, (up), by beta_reduce; decide +kernel⟩,
    ⟨0, (up), by beta_reduce; decide +kernel⟩,
    ⟨0, (up), by beta_reduce; decide +kernel⟩,
    ⟨0, 1, (up), by beta_reduce; decide +kernel⟩⟩

/-- Witnesses of `StepRowsAct`: for each clause a state and operands that meet its hypotheses, part 1. -/
theorem test_StepRowsAct_meets :
    (∃ t : Nat, ∃ p : Nat, ∃ j : Job, ∃ s_ : State, ((fun s => s.job p = some j ∧ j.st = .running ∧ s.phaseCount p ≤ j.phase ∧ j.missingTag = none)) (s_.adv t)) ∧
    (∃ t : Nat, ∃ p : Nat, ∃ j : Job, ∃ chunk : Nat, ∃ k, ∃ u : Nat, ∃ s_ : State, ((fun s => s.job p = some j ∧ j.st = .running ∧ s.phaseCount p ≤ j.phase ∧ j.missingTag = some (chunk, k, u))) (s_.adv t)) ∧
    (∃ t : Nat, ∃ p : Nat, ∃ j : Job, ∃ v : Vote, ∃ s_ : State, ((fun s => s.job p = some j ∧ j.vote = some v ∧ j.st = .closed ∧ j.voteSent = false ∧ j.faulted = false ∧ s.mirrorOpen p = false)) (s_.adv t)) ∧
    (∃ t : Nat, ∃ p : Nat, ∃ j : Job, ∃ g : GroupDef, ∃ v : Vote, ∃ s_ : State, ((fun s => s.job p = some j ∧ s.rootGroup p j = some g ∧ j.vote = some v ∧ j.st = .voting ∧ j.prepared.isSome = true ∧ j.queryFt = none ∧
      j.closeFt + 2 * g.deadlineUs * ftUs + 10 * ftUs ≤ s.now)) (s_.adv t)) ∧
    (∃ t : Nat, ∃ p : Nat, ∃ j : Job, ∃ f, ∃ s_ : State, ((fun s => s.job p = some j ∧ j.queryFt = some f ∧ j.st = .voting ∧ f + 10 * ftUs ≤ s.now)) (s_.adv t)) ∧
    (∃ t : Nat, ∃ p : Nat, ∃ o : OutcomePkt, ∃ j : Job, ∃ s_ : State, ((fun s => s.job p = some j ∧ j.debugged = false ∧ j.concerns o = true ∧ o.outcome = .seal ∧ j.prepared.isSome = true ∧
      (j.voteSent = true ∨ j.st = .stopped))) (s_.adv t)) ∧
    (∃ t : Nat, ∃ p : Nat, ∃ o : OutcomePkt, ∃ j : Job, ∃ s_ : State, ((fun s => s.job p = some j ∧ j.debugged = true)) (s_.adv t)) ∧
    (∃ t : Nat, ∃ p : Nat, ∃ o : OutcomePkt, ∃ j : Job, ∃ s_ : State, ((fun s => s.job p = some j ∧ o.group = j.rootGroup ∧ o.step = j.step ∧ o.outcome = .replay ∧ o.attempt = j.attempt ∧ o.reason ≠ 0x14 ∧
      j.debugged = false ∧ j.st ≠ .stopped)) (s_.adv t)) ∧
    (∃ t : Nat, ∃ p : Nat, ∃ o : OutcomePkt, ∃ j : Job, ∃ s_ : State, ((fun s => s.job p = some j ∧ o.group = j.rootGroup ∧ (o.step = j.step ∨ j.rewound = true) ∧ o.outcome = .replay ∧ o.reason = 0x14 ∧
      (j.rewound = true ∨ j.attempt < max 2 (o.attempt + 1)) ∧ j.debugged = false)) (s_.adv t)) :=
  ⟨⟨0, 0, { st := .running }, (withJob { st := .running }), by beta_reduce; decide +kernel⟩,
    ⟨0, 0, { st := .running, contributed := [(7, 3, 0x010)] }, 7, 3, 0x010, (withJob { st := .running, contributed := [(7, 3, 0x010)] }), by beta_reduce; decide +kernel⟩,
    ⟨0, 0, { st := .closed, vote := some { step := 3 } }, { step := 3 }, (withJob { st := .closed, vote := some { step := 3 } }), by beta_reduce; decide +kernel⟩,
    ⟨200000, 0, { st := .voting, vote := some {}, prepared := some 0 }, { members := [5] }, {}, (((withJob { st := .voting, vote := some {}, prepared := some 0 }).modPart 0 fun x => { x with ordo := some { groups := [{ members := [5] }] } })), by beta_reduce; decide +kernel⟩,
    ⟨40000, 0, { st := .voting, queryFt := some 0 }, 0, (withJob { st := .voting, queryFt := some 0 }), by beta_reduce; decide +kernel⟩,
    ⟨0, 0, { step := 3, outcome := .seal }, { st := .voting, step := 3, prepared := some 0, voteSent := true, vote := some {} }, (withJob { st := .voting, step := 3, prepared := some 0, voteSent := true, vote := some {} }), by beta_reduce; decide +kernel⟩,
    ⟨0, 0, { step := 3, outcome := .seal }, { st := .voting, step := 3, debugged := true }, (withJob { st := .voting, step := 3, debugged := true }), by beta_reduce; decide +kernel⟩,
    ⟨0, 0, { step := 3, outcome := .replay }, { st := .voting, step := 3 }, (withJob { st := .voting, step := 3 }), by beta_reduce; decide +kernel⟩,
    ⟨0, 0, { step := 3, outcome := .replay, reason := 0x14 }, { st := .voting, step := 3 }, (withJob { st := .voting, step := 3 }), by beta_reduce; decide +kernel⟩⟩

/-- Witnesses of `StepRowsAct`: for each clause a state and operands that meet its hypotheses, part 2. -/
theorem test_StepRowsAct_meets_2 :
    (∃ t : Nat, ∃ p : Nat, ∃ o : OutcomePkt, ∃ j : Job, ∃ s_ : State, ((fun s => s.job p = some j ∧ o.group = j.rootGroup ∧ o.step = j.step ∧ o.outcome = .replay ∧ o.attempt = j.attempt ∧ o.reason ≠ 0x14 ∧
      (j.debugged = true ∨ j.st = .stopped))) (s_.adv t)) ∧
    (∃ t : Nat, ∃ p : Nat, ∃ o : OutcomePkt, ∃ j : Job, ∃ s_ : State, ((fun s => s.job p = some j ∧ j.concerns o = true ∧ o.outcome = .hold ∧ j.st ≠ .running ∧ (j.st = .closed → j.voteSent = true ∨ j.faulted = true) ∧
      (j.st = .stopped → j.prepared = none ∨ j.faulted = true))) (s_.adv t)) ∧
    (∃ t : Nat, ∃ p : Nat, ∃ o : OutcomePkt, ∃ j : Job, ∃ s_ : State, ((fun s => s.job p = some j ∧ j.concerns o = true ∧ o.outcome = .hold ∧
      (j.st = .running ∨ (j.st = .closed ∧ j.voteSent = false ∧ j.faulted = false)))) (s_.adv t)) ∧
    (∃ t : Nat, ∃ p : Nat, ∃ o : OutcomePkt, ∃ j : Job, ∃ s_ : State, ((fun s => s.job p = some j ∧ j.concerns o = true ∧ o.outcome = .hold ∧ j.st = .stopped ∧ j.prepared.isSome = true ∧ j.faulted = false)) (s_.adv t)) ∧
    (∃ t : Nat, ∃ p : Nat, ∃ o : OutcomePkt, ∃ j : Job, ∃ s_ : State, ((fun s => s.job p = some j ∧ j.concerns o = true ∧ o.outcome = .abandon)) (s_.adv t)) :=
  ⟨⟨0, 0, { step := 3, outcome := .replay }, { st := .voting, step := 3, debugged := true }, (withJob { st := .voting, step := 3, debugged := true }), by beta_reduce; decide +kernel⟩,
    ⟨0, 0, { step := 3, outcome := .hold }, { st := .voting, step := 3 }, (withJob { st := .voting, step := 3 }), ⟨by decide +kernel, by decide +kernel, rfl, by decide +kernel, by decide +kernel, by decide +kernel⟩⟩,
    ⟨0, 0, { step := 3, outcome := .hold }, { st := .running, step := 3 }, (withJob { st := .running, step := 3 }), by beta_reduce; decide +kernel⟩,
    ⟨0, 0, { step := 3, outcome := .hold }, { st := .stopped, step := 3, prepared := some 0 }, (withJob { st := .stopped, step := 3, prepared := some 0 }), by beta_reduce; decide +kernel⟩,
    ⟨0, 0, { step := 3, outcome := .abandon }, { st := .voting, step := 3 }, (withJob { st := .voting, step := 3 }), by beta_reduce; decide +kernel⟩⟩

/-- Witnesses of `GateRowsAct`: for each clause a state and operands that meet its hypotheses. -/
theorem test_GateRowsAct_meets :
    (∃ t : Nat, ∃ p : Nat, ∃ j : Job, ∃ s_ : State, ((fun s => s.job p = some j ∧ j.st = .replayWait ∧ j.fillStopped = false ∧ (s.part p).sweep = none ∧ s.tagsOpen p = false ∧ s.routed p = true ∧
      s.tallyReadable p = true ∧ ∀ g ∈ s.regionsOf p, (s.region g).repairs = [] ∧ s.holdsAll g = true)) (s_.adv t)) ∧
    (∃ t : Nat, ∃ k : Nat, ∃ g : Nat, ∃ rest : List Nat, ∃ p : Nat, ∃ s_ : State, ((fun s => (s.site k).mu.wbQueue = g :: rest ∧
      (s.modSite k fun x => { x with mu := { x.mu with wbQueue := rest } }).partOfRegion (keyRegion k) = some p)) (s_.adv t)) ∧
    (∃ t : Nat, ∃ g : Nat, ∃ p : Nat, ∃ j : Job, ∃ s_ : State, ((fun s => s.partOfRegion g = some p ∧ s.job p = some j ∧ j.st = .atGate)) (s_.adv t)) ∧
    (∃ t : Nat, ∃ p : Nat, ∃ j : Job, ∃ s_ : State, ((fun s => s.job p = some j ∧ s.releaseDue p j = true)) (s_.adv t)) :=
  ⟨⟨0, 0, { st := .replayWait }, (full { st := .replayWait }), by beta_reduce; decide +kernel⟩,
    ⟨0, 0, 191, [3], 0, ((tile fun x => { x with mu := { x.mu with dirty := BitVec.ofNat 192 (2 ^ 191), wbQueue := [191, 3] } })), by beta_reduce; decide +kernel⟩,
    ⟨0, 0, 0, {}, (full {}), by beta_reduce; decide +kernel⟩,
    ⟨800, 0, {}, ((full {}).modRegion 0 fun r => { r with prewarnAt := some 0 }), by beta_reduce; decide +kernel⟩⟩

/-- Witnesses of `HeraldRowsAct`: for each clause a state and operands that meet its hypotheses. -/
theorem test_HeraldRowsAct_meets :
    (∃ t : Nat, ∃ v : Vote, ∃ h : Herald, ∃ s_ : State, ((fun s => s.voteValid v = true ∧ s.herald v.group = some h ∧ h.decided v.step v.attempt = false ∧
      (h.windows.find? fun x => x.step == v.step && x.attempt == v.attempt) = none ∧ s.now ≤ v.closeFt + h.deadlineUs * ftUs ∧
      (∃ m ∈ h.members, m ≠ v.device))) (s_.adv t)) ∧
    (∃ t : Nat, ∃ v : Vote, ∃ s_ : State, ((fun s => s.voteValid v = true)) (s_.adv t)) ∧
    (∃ t : Nat, ∃ v : Vote, ∃ s_ : State, ((fun s => s.voteValid v = false)) (s_.adv t)) ∧
    (∃ t : Nat, ∃ g : Nat, ∃ n : Nat, ∃ a : Nat, ∃ h, ∃ w : Window, ∃ s_ : State, ((fun s => s.herald g = some h ∧ (h.windows.find? fun x => x.step == n && x.attempt == a) = some w ∧ w.deadline ≤ s.now)) (s_.adv t)) ∧
    (∃ t : Nat, ∃ v : Vote, ∃ h : Herald, ∃ s_ : State, ((fun s => s.voteValid v = true ∧ s.herald v.group = some h ∧ h.decided v.step v.attempt = true)) (s_.adv t)) ∧
    (∃ t : Nat, ∃ v : Vote, ∃ h : Herald, ∃ s_ : State, ((fun s => s.voteValid v = true ∧ s.herald v.group = some h ∧ h.decided v.step v.attempt = false)) (s_.adv t)) ∧
    (∃ t : Nat, ∃ v : Vote, ∃ s_ : State, ((fun s => s.voteValid v = false)) (s_.adv t)) :=
  ⟨⟨0, { step := 3, device := 6, group := 63 }, { members := [5, 6] }, (up.setHerald 63 (some { members := [5, 6] })), by beta_reduce; decide +kernel⟩,
    ⟨0, { step := 3, device := 6, group := 63 }, (up.setHerald 63 (some { members := [5, 6] })), by beta_reduce; decide +kernel⟩,
    ⟨0, { step := 3, device := 7, group := 63 }, (up.setHerald 63 (some { members := [5, 6] })), by beta_reduce; decide +kernel⟩,
    ⟨100, 63, 3, 255, { members := [5, 6], windows := [{ step := 3, attempt := 255, deadline := 100 }] }, { step := 3, attempt := 255, deadline := 100 }, (up.setHerald 63 (some { members := [5, 6], windows := [{ step := 3, attempt := 255, deadline := 100 }] })), by beta_reduce; decide +kernel⟩,
    ⟨0, { step := 3, device := 6, group := 63 }, { members := [5, 6], outcomes := [{ step := 3 }] }, (up.setHerald 63 (some { members := [5, 6], outcomes := [{ step := 3 }] })), by beta_reduce; decide +kernel⟩,
    ⟨0, { step := 3, device := 6, group := 63 }, { members := [5, 6] }, (up.setHerald 63 (some { members := [5, 6] })), by beta_reduce; decide +kernel⟩,
    ⟨0, { group := 63 }, (up), by beta_reduce; decide +kernel⟩⟩

/-- Witnesses of `TwinRowsAct`: for each clause a state and operands that meet its hypotheses. -/
theorem test_TwinRowsAct_meets :
    (∃ t : Nat, ∃ p : Nat, ∃ j : Job, ∃ s_ : State, ((fun s => s.job p = some j ∧ (s.part p).twin.phase = .pending ∧ ((s.part p).twin.waitBegin = false ∨ s.almHas p 4 = false) ∧
      ((s.part p).twin.st = .syncing ∨ (s.part p).twin.st = .bound))) (s_.adv t)) ∧
    (∃ t : Nat, ∃ p : Nat, ∃ j : Job, ∃ s_ : State, ((fun s => s.job p = some j ∧ (s.part p).twin.phase = .writing ∧ ((s.part p).twin.st = .syncing ∨ (s.part p).twin.st = .bound) ∧
      s.mirrorAcked p = true)) (s_.adv t)) ∧
    (∃ t : Nat, ∃ p : Nat, ∃ s_ : State, ((fun s => (s.part p).twin.phase = .slotWritten ∧ ((s.part p).twin.st = .syncing ∨ (s.part p).twin.st = .bound) ∧
      s.mirrorAcked p = true)) (s_.adv t)) ∧
    (∃ t : Nat, ∃ p : Nat, ∃ j : Job, ∃ pages : List Nat, ∃ s_ : State, ((fun s => (s.twinCount p 2).job p = some j ∧ (s.part p).twin.phase = .awaitAck ∧
      ((s.part p).twin.st = .syncing ∨ (s.part p).twin.st = .bound) ∧ (s.part p).twin.naked = false)) (s_.adv t)) ∧
    (∃ t : Nat, ∃ p : Nat, ∃ j : Job, ∃ pages : List Nat, ∃ s_ : State, ((fun s => (s.twinCount p 2).job p = some j ∧ (s.part p).twin.phase = .awaitAck ∧
      ((s.part p).twin.st = .syncing ∨ (s.part p).twin.st = .bound) ∧ (s.part p).twin.naked = true)) (s_.adv t)) ∧
    (∃ t : Nat, ∃ p : Nat, ∃ s_ : State, ((fun s => (s.part p).twin.st = .syncing ∨ (s.part p).twin.st = .bound)) (s_.adv t)) ∧
    (∃ t : Nat, ∃ p : Nat, ∃ s_ : State, ((fun s => (s.part p).twin.st ≠ .unbound)) (s_.adv t)) ∧
    (∃ t : Nat, ∃ p : Nat, ∃ s_ : State, ((fun s => (s.part p).twin.phase ≠ .idle ∧ (s.part p).twin.phase ≠ .pending ∧
      ((s.part p).twin.st = .syncing ∨ (s.part p).twin.st = .bound) ∧ (s.part p).twin.deadline ≤ s.now)) (s_.adv t)) ∧
    (∃ t : Nat, ∃ p : Nat, ∃ commit : Bool, ∃ s_ : State, ((fun s => (s.part p).twin.exported = true ∧ (commit = true ∨ (s.part p).twin.exportFt + 600 * ftSec ≤ s.now))) (s_.adv t)) ∧
    (∃ t : Nat, ∃ p : Nat, ∃ s_ : State, ((fun _ => True)) (s_.adv t)) :=
  ⟨⟨0, 0, {}, ((withJob {}).modTwin 0 fun x => { x with st := .bound, phase := .pending, portA := 0 }), by beta_reduce; decide +kernel⟩,
    ⟨0, 0, {}, ((withJob {}).modTwin 0 fun x => { x with st := .syncing, phase := .writing }), by beta_reduce; decide +kernel⟩,
    ⟨0, 0, ((withJob {}).modTwin 0 fun x => { x with st := .bound, phase := .slotWritten }), by beta_reduce; decide +kernel⟩,
    ⟨0, 0, {}, [1], ((withJob {}).modTwin 0 fun x => { x with st := .bound, phase := .awaitAck }), by beta_reduce; decide +kernel⟩,
    ⟨0, 0, {}, [1], ((withJob {}).modTwin 0 fun x => { x with st := .bound, phase := .awaitAck, naked := true }), by beta_reduce; decide +kernel⟩,
    ⟨0, 0, ((withJob {}).modTwin 0 fun x => { x with st := .bound }), by beta_reduce; decide +kernel⟩,
    ⟨0, 0, ((withJob {}).modTwin 0 fun x => { x with st := .broken }), by beta_reduce; decide +kernel⟩,
    ⟨100, 0, ((withJob {}).modTwin 0 fun x => { x with st := .bound, phase := .awaitAck, deadlineMs := 0, mStart := 0 }), by beta_reduce; decide +kernel⟩,
    ⟨600 * ftSec, 0, false, ((withJob {}).modTwin 0 fun x => { x with st := .broken, exported := true }), by beta_reduce; decide +kernel⟩,
    ⟨0, 0, (withJob { st := .running }), by beta_reduce; decide +kernel⟩⟩

/-- Witnesses of `TwinApplyAnswers`: for each clause a state and operands that meet its hypotheses. -/
theorem test_TwinApplyAnswers_meets :
    (∃ t : Nat, ∃ p : Nat, ∃ step : Nat, ∃ b : Nat, ∃ s_ : State, ((fun s => (s.part p).twin.base = some b ∧ ((s.part p).twin.st = .syncing ∨ (s.part p).twin.st = .bound))) (s_.adv t)) ∧
    (∃ t : Nat, ∃ p : Nat, ∃ step : Nat, ∃ b : Nat, ∃ n : Nat, ∃ tp : Nat, ∃ es : List ManEntry, ∃ r : LedgerRec, ∃ s_ : State, ((fun s => (s.part p).twin.base = some b ∧ ((s.part p).twin.st = .syncing ∨ (s.part p).twin.st = .bound) ∧
      s.stagedHead b (s.part p).twin.peerPages = (n, tp) ∧ es = (List.range n).map (s.stagedEnt b tp) ∧ r = recOfBytes (s.logRead b 0x100 128) ∧
      s.stagedBad b tp es = [] ∧ s.stagedDigests b tp es = (r.stateDigest, r.weightDigest) ∧ r.step = step)) (s_.adv t)) ∧
    (∃ t : Nat, ∃ p : Nat, ∃ step : Nat, ∃ b : Nat, ∃ n : Nat, ∃ tp : Nat, ∃ s_ : State, ((fun s => (s.part p).twin.base = some b ∧ ((s.part p).twin.st = .syncing ∨ (s.part p).twin.st = .bound) ∧
      s.stagedHead b (s.part p).twin.peerPages = (n, tp) ∧ s.stagedBad b tp ((List.range n).map (s.stagedEnt b tp)) ≠ [])) (s_.adv t)) ∧
    (∃ t : Nat, ∃ p : Nat, ∃ step : Nat, ∃ b : Nat, ∃ n : Nat, ∃ tp : Nat, ∃ r : LedgerRec, ∃ s_ : State, ((fun s => (s.part p).twin.base = some b ∧ ((s.part p).twin.st = .syncing ∨ (s.part p).twin.st = .bound) ∧
      s.stagedHead b (s.part p).twin.peerPages = (n, tp) ∧ r = recOfBytes (s.logRead b 0x100 128) ∧
      s.stagedBad b tp ((List.range n).map (s.stagedEnt b tp)) = [] ∧
      (s.stagedDigests b tp ((List.range n).map (s.stagedEnt b tp)) ≠ (r.stateDigest, r.weightDigest) ∨ r.step ≠ step))) (s_.adv t)) :=
  ⟨⟨0, 0, 3, 8388608, ((withJob {}).modTwin 0 fun x => { x with st := .bound, base := some 8388608 }), by beta_reduce; decide +kernel⟩,
    ⟨0, 0, 0, 0, 0, 0, [], recOfBytes ((((({ (withJob {}) with mem := { up.mem with dram := [] } } : State).modTwin 0 fun x => { x with st := .bound, base := some 0 })).adv (0)).logRead 0 0x100 128), (({ (withJob {}) with mem := { up.mem with dram := [] } } : State).modTwin 0 fun x => { x with st := .bound, base := some 0 }), by beta_reduce; decide +kernel⟩,
    ⟨0, 0, 0, 0, 2, 0, (({ (withJob {}) with mem := { up.mem with dram := [(48, 1), (0x180, 2)] } } : State).modTwin 0 fun x => { x with st := .bound, base := some 0 }), ⟨by decide +kernel, by decide +kernel, by decide +kernel, staged_two (by decide +kernel)⟩⟩,
    ⟨0, 0, 1, 0, 0, 0, recOfBytes ((((({ (withJob {}) with mem := { up.mem with dram := [] } } : State).modTwin 0 fun x => { x with st := .bound, base := some 0 })).adv (0)).logRead 0 0x100 128), (({ (withJob {}) with mem := { up.mem with dram := [] } } : State).modTwin 0 fun x => { x with st := .bound, base := some 0 }), by beta_reduce; decide +kernel⟩⟩

/-- Witnesses of `GrantRowsAct`: for each clause a state and operands that meet its hypotheses. -/
theorem test_GrantRowsAct_meets :
    (∃ t : Nat, ∃ p : Nat, ∃ mb : Nat, ∃ ft : Nat, ∃ d : Desc, ∃ buf : Option (List Byte), ∃ s_ : State, ((fun s => (s.part p).lock = none ∧ nextWaiter (s.part p).lockWait = some (mb, ft) ∧ (s.mbx mb).running = some d)) (s_.adv t)) ∧
    (∃ t : Nat, ∃ ppn : Nat, ∃ s_ : State, ((fun _ => True)) (s_.adv t)) ∧
    (∃ t : Nat, ∃ p : Nat, ∃ step : Nat, ∃ s_ : State, ((fun s => ((s.twinAck p step).part p).lock = none ∨ ((s.twinAck p step).part p).twin.phase ≠ .idle)) (s_.adv t)) ∧
    (∃ t : Nat, ∃ p : Nat, ∃ step : Nat, ∃ mb : Nat, ∃ d : Desc, ∃ s_ : State, ((fun s => ((s.twinAck p step).part p).lock = some mb ∧ ((s.twinAck p step).part p).twin.phase = .idle ∧
      ((s.twinAck p step).mbx mb).running = some d ∧ d.opcode = 0x0806)) (s_.adv t)) ∧
    (∃ t : Nat, ∃ p : Nat, ∃ why, ∃ s_ : State, ((fun s => (s.part p).sweep = some why ∧ s.tagsOpen p = false ∧ s.sweepPowered p = true)) (s_.adv t)) ∧
    (∃ t : Nat, ∃ p : Nat, ∃ s_ : State, ((fun s => (s.part p).harvesting = true ∧ (s.part p).sweep ≠ some .harvest)) (s_.adv t)) ∧
    (∃ t : Nat, ∃ p : Nat, ∃ j : Job, ∃ s_ : State, ((fun s => s.job p = some j ∧ j.st = .atGate)) (s_.adv t)) :=
  ⟨⟨0, 0, 1, 9, dsc cmdOrdoUnload 0 [], none, (((up.modMb 1 fun m => { m with running := some (dsc cmdOrdoUnload 0 []), role := 1 }).modPart 0 fun x => { x with lockWait := [(1, 9)] })), by beta_reduce; decide +kernel⟩,
    ⟨0, 5, ({ up with mem := { up.mem with zeroing := [5], used := [5] } }), by beta_reduce; decide +kernel⟩,
    ⟨0, 0, 3, ((withJob {}).modTwin 0 fun x => { x with st := .bound, phase := .awaitAck, mStep := 3 }), by beta_reduce; decide +kernel⟩,
    ⟨0, 0, 3, 1, dsc cmdRestorePage 0 [0, 0], (((withJob {}).modTwin 0 fun x => { x with st := .bound, phase := .awaitAck, mStep := 3 }).modPart 0 (fun x => { x with lock := some 1 }) |>.modMb 1 fun m => { m with running := some (dsc cmdRestorePage 0 [0, 0]) }), by beta_reduce; decide +kernel⟩,
    ⟨0, 0, .jobKill 1, (up.modPart 0 fun x => { x with sweep := some (.jobKill 1), underReset := true }), by beta_reduce; decide +kernel⟩,
    ⟨0, 0, ((up.modPart 0 fun x => { x with harvesting := true })), by beta_reduce; decide +kernel⟩,
    ⟨0, 0, {}, (withJob {}), by beta_reduce; decide +kernel⟩⟩

/-- Witnesses of `RepairRowsAct`: for each clause a state and operands that meet its hypotheses, part 1. -/
theorem test_RepairRowsAct_meets :
    (∃ t : Nat, ∃ k : Nat, ∃ c : Nat, ∃ chk : Nat, ∃ lane : Nat, ∃ syn : Nat, ∃ unit : Nat, ∃ s_ : State, ((fun s => (s.site k).st ≠ .defect ∧ (s.site k).st ≠ .fenced ∧ (s.site k).st ≠ .dark ∧ c ≠ 0x0103)) (s_.adv t)) ∧
    (∃ t : Nat, ∃ k : Nat, ∃ chk : Nat, ∃ lane : Nat, ∃ syn : Nat, ∃ unit : Nat, ∃ s_ : State, ((fun s => (s.site k).st ≠ .defect ∧ (s.site k).st ≠ .fenced ∧ (s.site k).st ≠ .dark)) (s_.adv t)) ∧
    (∃ t : Nat, ∃ k : Nat, ∃ s_ : State, ((fun s => s.fenceable k = true ∧ s.slotOpen (keyRegion k) = true ∧ 20 * ftMs ≤ s.slotLeft (s.partField k))) (s_.adv t)) ∧
    (∃ t : Nat, ∃ g : Nat, ∃ rest : List Repair, ∃ s_ : State, ((fun s => s.sitesIn g .test = [] ∧ (s.region g).repairs = .full :: rest ∧ (s.slotOpen g = false ∨ (s.region g).fences < 2 ∨
      s.slotLeft (s.partField (siteKey g 0)) < 20 * ftMs ∨ ((s.sitesOf (s.partField (siteKey g 0))).any s.fenceable) = true))) (s_.adv t)) ∧
    (∃ t : Nat, ∃ g : Nat, ∃ s_ : State, ((fun s => s.sitesIn g .test = [] ∧ s.slotOpen g = true ∧ 2 ≤ (s.region g).fences ∧ 20 * ftMs ≤ s.slotLeft (s.partField (siteKey g 0)) ∧
      ((s.sitesOf (s.partField (siteKey g 0))).any s.fenceable) = false)) (s_.adv t)) ∧
    (∃ t : Nat, ∃ g : Nat, ∃ s_ : State, ((fun s => ∀ k q n rest, ((s.chooseSpare g).region g).repairs ≠ .fill k q n false :: rest)) (s_.adv t)) ∧
    (∃ t : Nat, ∃ g : Nat, ∃ k, ∃ q, ∃ n, ∃ rest : List Repair, ∃ s_ : State, ((fun s => ((s.chooseSpare g).region g).repairs = .fill k q n false :: rest ∧
      (q = 144 ∨ ((s.chooseSpare g).fillBad ((s.chooseSpare g).partField (siteKey g 0)) (tileOf g k) = none ∧
        (s.chooseSpare g).fillDown ((s.chooseSpare g).partField (siteKey g 0)) (tileOf g k) = none)))) (s_.adv t)) ∧
    (∃ t : Nat, ∃ g : Nat, ∃ k, ∃ q, ∃ n, ∃ rest : List Repair, ∃ page : Nat, ∃ l : Nat, ∃ a : Nat, ∃ s_ : State, ((fun s => ((s.chooseSpare g).region g).repairs = .fill k q n false :: rest ∧ q ≠ 144 ∧
      (s.chooseSpare g).fillDown ((s.chooseSpare g).partField (siteKey g 0)) (tileOf g k) = none ∧
      (s.chooseSpare g).fillBad ((s.chooseSpare g).partField (siteKey g 0)) (tileOf g k) = some (page, l, a))) (s_.adv t)) ∧
    (∃ t : Nat, ∃ g : Nat, ∃ k, ∃ q, ∃ n, ∃ rest : List Repair, ∃ l : Nat, ∃ s_ : State, ((fun s => ((s.chooseSpare g).region g).repairs = .fill k q n false :: rest ∧ q ≠ 144 ∧
      (s.chooseSpare g).fillDown ((s.chooseSpare g).partField (siteKey g 0)) (tileOf g k) = some l)) (s_.adv t)) :=
  ⟨⟨0, 0, 0x0101, 1, 2, 3, 4, (tile id), by beta_reduce; decide +kernel⟩,
    ⟨0, 0, 1, 2, 3, 4, (tile id), by beta_reduce; decide +kernel⟩,
    ⟨0, 3, (((up.modSite 3 fun x => { x with planned := true }).modPart 0 fun x => { x with slots := [{ lenUs := 20000, opened := some 0 }] })), by beta_reduce; decide +kernel⟩,
    ⟨0, 0, [], (up.modRegion 0 fun r => { r with repairs := [.full] }), by beta_reduce; decide +kernel⟩,
    ⟨0, 0, ((up.modRegion 0 fun r => { r with fences := 2 }).modPart 0 fun x => { x with slots := [{ opened := some 0, lenUs := 20000 }] }), by beta_reduce; decide +kernel⟩,
    ⟨0, 63, (up), fun k q n rest h => absurd h (by rw [show ((((up).adv 0).chooseSpare 63).region 63).repairs = [] from by decide +kernel]; exact List.cons_ne_nil _ _ ∘ Eq.symm)⟩,
    ⟨0, 0, 3, 9, 0, [], (up.modRegion 0 fun r => { r with repairs := [.fill 3 9 0 false] }), by beta_reduce; decide +kernel⟩,
    ⟨0, 0, 3, 9, 0, [], 0, 1, (withJob { classes := [1], sideA := [(0, 1)] }).granAddr { classes := [1], sideA := [(0, 1)] } 0 0 0, (({ ((withJob { classes := [1], sideA := [(0, 1)] }).modPart 0 (fun x => { x with ordo := some { classes := [1], sliceMaps := [{ tile := 3 }] } }) |>.modRegion 0 fun r => { r with repairs := [.fill 3 9 0 false] }) with mem := { up.mem with bad := [(((withJob { classes := [1], sideA := [(0, 1)] }).granAddr { classes := [1], sideA := [(0, 1)] } 0 0 0) / 64)] } } : State)), by beta_reduce; decide +kernel⟩,
    ⟨0, 0, 3, 9, 0, [], 1, (({ ((withJob { classes := [1], sideA := [(0, 1)] }).modPart 0 (fun x => { x with ordo := some { classes := [1], sliceMaps := [{ tile := 3 }] } }) |>.modRegion 0 fun r => { r with repairs := [.fill 3 9 0 false] }) with mem := { up.mem with chans := [] } } : State)), by beta_reduce; decide +kernel⟩⟩

/-- Witnesses of `RepairRowsAct`: for each clause a state and operands that meet its hypotheses, part 2. -/
theorem test_RepairRowsAct_meets_2 :
    (∃ t : Nat, ∃ g : Nat, ∃ k, ∃ q, ∃ n, ∃ rest : List Repair, ∃ s_ : State, ((fun s => (s.region g).repairs = .fill k q n false :: rest ∧ q ≠ 144 ∧ s.sealOpen (s.partField (siteKey g 0)) = false ∧
      s.tagsOpen (s.partField (siteKey g 0)) = false ∧ s.fillDown (s.partField (siteKey g 0)) (tileOf g k) = none ∧
      s.fillBad (s.partField (siteKey g 0)) (tileOf g k) = none)) (s_.adv t)) ∧
    (∃ t : Nat, ∃ g : Nat, ∃ k, ∃ q, ∃ n, ∃ rest : List Repair, ∃ page : Nat, ∃ l : Nat, ∃ a : Nat, ∃ s_ : State, ((fun s => (s.region g).repairs = .fill k q n false :: rest ∧ q ≠ 144 ∧ s.sealOpen (s.partField (siteKey g 0)) = false ∧
      s.tagsOpen (s.partField (siteKey g 0)) = false ∧ s.fillDown (s.partField (siteKey g 0)) (tileOf g k) = none ∧
      s.fillBad (s.partField (siteKey g 0)) (tileOf g k) = some (page, l, a))) (s_.adv t)) ∧
    (∃ t : Nat, ∃ k : Nat, ∃ sig : BitVec 64, ∃ mem : Bool, ∃ b : Nat, ∃ en : Nat, ∃ e : Nat, ∃ s_ : State, ((fun s => (s.site k).st = .test)) (s_.adv t)) :=
  ⟨⟨0, 0, 3, 9, 0, [], (up.modRegion 0 fun r => { r with repairs := [.fill 3 9 0 false] }), by beta_reduce; decide +kernel⟩,
    ⟨0, 0, 3, 9, 0, [], 0, 1, (withJob { classes := [1], sideA := [(0, 1)] }).granAddr { classes := [1], sideA := [(0, 1)] } 0 0 0, (({ ((withJob { classes := [1], sideA := [(0, 1)] }).modPart 0 (fun x => { x with ordo := some { classes := [1], sliceMaps := [{ tile := 3 }] } }) |>.modRegion 0 fun r => { r with repairs := [.fill 3 9 0 false] }) with mem := { up.mem with bad := [(((withJob { classes := [1], sideA := [(0, 1)] }).granAddr { classes := [1], sideA := [(0, 1)] } 0 0 0) / 64)] } } : State)), by beta_reduce; decide +kernel⟩,
    ⟨0, 9, 0, true, 0, 0, 0, ((up.modSite 9 fun x => { x with st := .test })), by beta_reduce; decide +kernel⟩⟩

/-- Witnesses of `ChannelRowsAct`: for each clause a state and operands that meet its hypotheses, part 1. -/
theorem test_ChannelRowsAct_meets :
    (∃ t : Nat, ∃ k : Nat, ∃ i : Nat, ∃ r : Taken, ∃ s1, ∃ s_ : State, ((fun s => s.siteWorks k seqUnit = true ∧ s.mayRun k seqUnit = true ∧ (s.site k).seq.halted = false ∧ (s.site k).seq.hand.live = false ∧
      (s.site k).nextHandler = some i ∧ s.takeMsg k i = some (r, s1))) (s_.adv t)) ∧
    (∃ t : Nat, ∃ pkt : Packet, ∃ k, ∃ s_ : State, ((fun s => s.Reaches pkt k ∧ pkt.kind = .deposit ∧ (s.site k).cfg (chanUnit (pkt.arg.toNat % 32)) 0 2 = 1 ∧
      pkt.addr + (pkt.payload.length + 63) / 64 ≤ (s.site k).ringLines (pkt.arg.toNat % 32))) (s_.adv t)) ∧
    (∃ t : Nat, ∃ k : Nat, ∃ i : Nat, ∃ n : Nat, ∃ s_ : State, ((fun s => (s.router (routerOf k)).down = false ∧ i < 32 ∧ (s.site k).st = .tile ∧ (s.site k).cfg (chanUnit i) 128 2 = 1 ∧
      ((s.site k).chan i).txCredits + n ≤ (s.site k).cfg (chanUnit i) 176 11)) (s_.adv t)) ∧
    (∃ t : Nat, ∃ k : Nat, ∃ i : Nat, ∃ n : Nat, ∃ s_ : State, ((fun s => (s.router (routerOf k)).down = false ∧ i < 32 ∧ (s.site k).st = .tile ∧ (s.site k).cfg (chanUnit i) 128 2 = 1 ∧
      (s.site k).cfg (chanUnit i) 176 11 < ((s.site k).chan i).txCredits + n)) (s_.adv t)) ∧
    (∃ t : Nat, ∃ k : Nat, ∃ i : Nat, ∃ n : Nat, ∃ s_ : State, ((fun s => (s.router (routerOf k)).down = true)) (s_.adv t)) ∧
    (∃ t : Nat, ∃ k : Nat, ∃ i : Nat, ∃ b : Bank, ∃ w : Wait, ∃ ins : Nat, ∃ s1, ∃ s_ : State, ((fun s =>
      let x := s.site k
      let c := x.chan i
      let m := s.sendMsg k i (x.seqBytes (b.reg (bitsN ins 20 5)).toNat (bitsN (b.reg (bitsN ins 15 5)).toNat 16 16))
      let tl := x.cfg (chanUnit i) 176 11
      x.stalled i = some (b, w, ins) ∧ s.siteWorks k seqUnit = true ∧ s.mayRun k seqUnit = true ∧ x.seq.halted = false ∧
        c.txWait = true ∧ c.txSpill = false ∧ c.txUnacked = 0 ∧ tl ≠ 0 ∧
        c.txCredits < c.padLines tl m.lines + m.lines ∧
        w.since + (if x.cfg (chanUnit i) 192 16 = 0 then 100 else x.cfg (chanUnit i) 192 16) * ftUs ≤ s.now ∧
        s.requests (s.portPool k i) ((depositChunks 0 (hdrBytes m true ++ m.payload) (m.payload.length / 512 + 2)).map fun e =>
          s.portPacket k i .deposit e.1 e.2) = some s1)) (s_.adv t)) ∧
    (∃ t : Nat, ∃ pkt : Packet, ∃ k, ∃ s_ : State, ((fun s => s.Reaches pkt k ∧ pkt.kind = .deposit ∧ (s.site k).cfg (chanUnit (pkt.arg.toNat % 32)) 0 2 = 1 ∧
      spillWhole (Tbl.put pkt.addr pkt.payload ((s.site k).chan (pkt.arg.toNat % 32)).spillIn) = none)) (s_.adv t)) :=
  ⟨⟨0, 0, 31, (optM (((((xs 0 0 0 fun x => (Site.word x (chanUnit 31) (1 + 2 ^ 2 + 2 ^ 4 * 0x1000 + 2 ^ 24 * 4)).modChan 31 fun c => { c with present := [0] }).modSite 0 fun x => { x with mu := { x.mu with slice := memWriteN [] 0x1000 (hdrBytes { lines := 1, chan := 31 } true) }, seq := { x.seq with pending := [(31, 0)] } })).adv (0)).takeMsg 0 31)).1, (optM (((((xs 0 0 0 fun x => (Site.word x (chanUnit 31) (1 + 2 ^ 2 + 2 ^ 4 * 0x1000 + 2 ^ 24 * 4)).modChan 31 fun c => { c with present := [0] }).modSite 0 fun x => { x with mu := { x.mu with slice := memWriteN [] 0x1000 (hdrBytes { lines := 1, chan := 31 } true) }, seq := { x.seq with pending := [(31, 0)] } })).adv (0)).takeMsg 0 31)).2, ((xs 0 0 0 fun x => (Site.word x (chanUnit 31) (1 + 2 ^ 2 + 2 ^ 4 * 0x1000 + 2 ^ 24 * 4)).modChan 31 fun c => { c with present := [0] }).modSite 0 fun x => { x with mu := { x.mu with slice := memWriteN [] 0x1000 (hdrBytes { lines := 1, chan := 31 } true) }, seq := { x.seq with pending := [(31, 0)] } }), by beta_reduce; decide +kernel⟩,
    ⟨0, { kind := .deposit, destIdx := 0, arg := 31, addr := 3, payload := hdrBytes { lines := 1, chan := 31 } true }, 0, ((tile fun x => Site.word x (chanUnit 31) (1 + 2 ^ 2 + 2 ^ 4 * 0x1000 + 2 ^ 24 * 4))), by beta_reduce; decide +kernel⟩,
    ⟨0, 0, 31, 2047, ((tile fun x => Site.word x (chanUnit 31) (2 ^ 128 + 2 ^ 136 * 5 + 2 ^ 176 * 2047))), by beta_reduce; decide +kernel⟩,
    ⟨0, 0, 31, 4, ((tile fun x => Site.word x (chanUnit 31) (2 ^ 128 + 2 ^ 136 * 5 + 2 ^ 176 * 3))), by beta_reduce; decide +kernel⟩,
    ⟨0, 0, 0, 1, (up.modRouter (routerOf 0) fun x => { x with down := true }), by beta_reduce; decide +kernel⟩,
    ⟨100 * ftUs, 0, 31, (((((xs (xw 0 0 3 1 2) (31 + 2 ^ 16 * 64) 0x100000 fun x => (Site.word x (chanUnit 31) (2 ^ 128 + 2 ^ 136 * 5 + 2 ^ 176 * 8)).modChan 31 fun c => { c with txWait := true }).modSite 0 fun x => { x with seq := { x.seq with main := { x.seq.main with wait := some { kind := .send, arg := 31 } } } })).adv (100 * ftUs)).site 0).seq.main, { kind := .send, arg := 31 }, (xw 0 0 3 1 2), stall1 ((((xs (xw 0 0 3 1 2) (31 + 2 ^ 16 * 64) 0x100000 fun x => (Site.word x (chanUnit 31) (2 ^ 128 + 2 ^ 136 * 5 + 2 ^ 176 * 8)).modChan 31 fun c => { c with txWait := true }).modSite 0 fun x => { x with seq := { x.seq with main := { x.seq.main with wait := some { kind := .send, arg := 31 } } } })).adv (100 * ftUs)), ((xs (xw 0 0 3 1 2) (31 + 2 ^ 16 * 64) 0x100000 fun x => (Site.word x (chanUnit 31) (2 ^ 128 + 2 ^ 136 * 5 + 2 ^ 176 * 8)).modChan 31 fun c => { c with txWait := true }).modSite 0 fun x => { x with seq := { x.seq with main := { x.seq.main with wait := some { kind := .send, arg := 31 } } } }), by beta_reduce; decide +kernel⟩,
    ⟨0, { kind := .deposit, destIdx := 0, arg := 31, addr := 8, payload := List.replicate 512 0 }, 0, ((xs 0 0 0 fun x => Site.word x (chanUnit 31) (1 + 2 ^ 2 + 2 ^ 4 * 0x1000 + 2 ^ 24 * 4)).modPart 0 fun p => { p with ordo := some { phases := [{}], chanRecs := [{ spillLog2 := 0 }] } }), by beta_reduce; decide +kernel⟩⟩

/-- Witnesses of `ChannelRowsAct`: for each clause a state and operands that meet its hypotheses, part 2. -/
theorem test_ChannelRowsAct_meets_2 :
    (∃ t : Nat, ∃ pkt : Packet, ∃ k, ∃ bs : List Byte, ∃ s_ : State, ((fun s => s.Reaches pkt k ∧ pkt.kind = .deposit ∧ (s.site k).cfg (chanUnit (pkt.arg.toNat % 32)) 0 2 = 1 ∧
      spillWhole (Tbl.put pkt.addr pkt.payload ((s.site k).chan (pkt.arg.toNat % 32)).spillIn) = some bs ∧
      ((s.site k).spill.map fun e => e.bytes).sum +
        (((s.site k).ringUndispatched (pkt.arg.toNat % 32)).map fun r => 64 * (r.1 + r.2.2)).sum + 64 * (msgOf bs).lines ≤
        2 ^ (if (s.chanRec k).spillLog2 = 0 then 20 else (s.chanRec k).spillLog2))) (s_.adv t)) ∧
    (∃ t : Nat, ∃ pkt : Packet, ∃ k, ∃ bs : List Byte, ∃ s_ : State, ((fun s => s.Reaches pkt k ∧ pkt.kind = .deposit ∧ (s.site k).cfg (chanUnit (pkt.arg.toNat % 32)) 0 2 = 1 ∧
      spillWhole (Tbl.put pkt.addr pkt.payload ((s.site k).chan (pkt.arg.toNat % 32)).spillIn) = some bs ∧
      2 ^ (if (s.chanRec k).spillLog2 = 0 then 20 else (s.chanRec k).spillLog2) < ((s.site k).spill.map fun e => e.bytes).sum +
        (((s.site k).ringUndispatched (pkt.arg.toNat % 32)).map fun r => 64 * (r.1 + r.2.2)).sum + 64 * (msgOf bs).lines)) (s_.adv t)) ∧
    (∃ t : Nat, ∃ pkt : Packet, ∃ k, ∃ s_ : State, ((fun s => s.Reaches pkt k ∧ pkt.kind = .contrib ∧ (s.site k).cfg (chanUnit (pkt.arg.toNat % 32)) 0 2 = 3)) (s_.adv t)) :=
  ⟨⟨0, { kind := .deposit, destIdx := 0, arg := 31, addr := 0, payload := hdrBytes { lines := 1, chan := 31 } true }, 0, hdrBytes { lines := 1, chan := 31 } true, ((xs 0 0 0 fun x => Site.word x (chanUnit 31) (1 + 2 ^ 2 + 2 ^ 4 * 0x1000 + 2 ^ 24 * 4)).modPart 0 fun p => { p with ordo := some { phases := [{}], chanRecs := [{ spillLog2 := 0 }] } }), by beta_reduce; decide +kernel⟩,
    ⟨0, { kind := .deposit, destIdx := 0, arg := 31, addr := 0, payload := hdrBytes { lines := 1, chan := 31 } true }, 0, hdrBytes { lines := 1, chan := 31 } true, ((xs 0 0 0 fun x => Site.word x (chanUnit 31) (1 + 2 ^ 2 + 2 ^ 4 * 0x1000 + 2 ^ 24 * 4)).modPart 0 fun p => { p with ordo := some { phases := [{}], chanRecs := [{ spillLog2 := 5 }] } }), by beta_reduce; decide +kernel⟩,
    ⟨0, { kind := .contrib, arg := 31, payload := List.replicate 24 0 }, 0, ((tile fun x => Site.word x (chanUnit 31) (3 + 2 ^ 4 * 0x1000 + 2 ^ 24 * 1 + 2 ^ 104 * 1))), by beta_reduce; decide +kernel⟩⟩

/-- Witnesses of `FabricRowsAct`: for each clause a state and operands that meet its hypotheses, part 1. -/
theorem test_FabricRowsAct_meets :
    (∃ t : Nat, ∃ k : Nat, ∃ q : Nat, ∃ i : Nat, ∃ s_ : State, ((fun _ => True)) (s_.adv t)) ∧
    (∃ t : Nat, ∃ k : Nat, ∃ q : Nat, ∃ i : Nat, ∃ s_ : State, ((fun _ => True)) (s_.adv t)) ∧
    (∃ t : Nat, ∃ k : Nat, ∃ q : Nat, ∃ i : Nat, ∃ e : Elem, ∃ rest : List Elem, ∃ s_ : State, ((fun s => ((s.site k).inPort q i).outq = e :: rest ∧ e.eve = false ∧ ((s.site k).inPort q i).route.isSome = true ∧
      elemCost q e ≤ ((s.site k).inPort q i).credit)) (s_.adv t)) ∧
    (∃ t : Nat, ∃ k : Nat, ∃ q : Nat, ∃ i : Nat, ∃ e : Elem, ∃ rest : List Elem, ∃ s_ : State, ((fun s => ((s.site k).inPort q i).outq = e :: rest ∧ e.eve = true ∧ ((s.site k).inPort q i).route.isSome = true ∧
      elemCost q e ≤ ((s.site k).inPort q i).credit ∧
      (∀ o ∈ s.fabricWalk q ((s.site k).inPort q i).epoch 128 k (5 + i), ((s.site o.1).unit o.2).valid = true))) (s_.adv t)) ∧
    (∃ t : Nat, ∃ k : Nat, ∃ q : Nat, ∃ i : Nat, ∃ s_ : State, ((fun s => ((s.site k).inPort q i).route.isSome = true ∧ ((s.site k).inPort q i).dests ≠ [] ∧
      (∀ d ∈ ((s.site k).inPort q i).dests, 1 ≤ ((s.site d.1).ejPort q d.2).owed) ∧
      ((s.site k).inPort q i).credit + 1 ≤ ((s.site k).inPort q i).cap)) (s_.adv t)) ∧
    (∃ t : Nat, ∃ k : Nat, ∃ q : Nat, ∃ i : Nat, ∃ s_ : State, ((fun s => ((s.site k).inPort q i).route.isSome = true ∧ ((s.site k).inPort q i).dests ≠ [] ∧
      (∀ d ∈ ((s.site k).inPort q i).dests, 1 ≤ ((s.site d.1).ejPort q d.2).owed) ∧
      ((s.site k).inPort q i).cap < ((s.site k).inPort q i).credit + 1)) (s_.adv t)) ∧
    (∃ t : Nat, ∃ k : Nat, ∃ s_ : State, ((fun _ => True)) (s_.adv t)) ∧
    (∃ t : Nat, ∃ k : Nat, ∃ u : Nat, ∃ s_ : State, ((fun s => switchUnits.contains u = true ∧ (s.eveOwed k u).canSwitch k u = true)) (s_.adv t)) ∧
    (∃ t : Nat, ∃ k : Nat, ∃ u : Nat, ∃ s_ : State, ((fun s => switchUnits.contains u = true ∧ (s.eveOwed k u).canSwitch k u = false)) (s_.adv t)) :=
  ⟨⟨0, 0, 2, 3, (up), by beta_reduce; decide +kernel⟩,
    ⟨0, 0, 3, 7, (up), by beta_reduce; decide +kernel⟩,
    ⟨0, 0, 0, 3, { data := 7 }, [], (tile fun x => x.modIn 0 3 fun p => { p with outq := [{ data := 7 }], credit := 1, route := some 2, dests := [(1, 7)] }), by beta_reduce; decide +kernel⟩,
    ⟨0, 0, 0, 3, eveTok 1, [], (tile fun x => (x.modIn 0 3 fun p => { p with outq := [eveTok 1], credit := 1, route := some 2, dests := [(1, 7)] }).setUnit 0x0C4 { active := 8, valid := true }), by beta_reduce; decide +kernel⟩,
    ⟨0, 0, 0, 3, (((tile fun x => x.modIn 0 3 fun p => { p with credit := 3, cap := 4, route := some 2, dests := [(1, 7)] }).modSite 1 fun x => x.modEj 0 7 fun r => { r with owed := 1 })), by beta_reduce; decide +kernel⟩,
    ⟨0, 0, 0, 3, (((tile fun x => x.modIn 0 3 fun p => { p with credit := 4, cap := 4, route := some 2, dests := [(1, 7)] }).modSite 1 fun x => x.modEj 0 7 fun r => { r with owed := 1 })), by beta_reduce; decide +kernel⟩,
    ⟨0, 0, (full {}), by beta_reduce; decide +kernel⟩,
    ⟨0, 0, 0, (xs 0 0 0 fun x => x.setUnit 0 { valid := true }), by beta_reduce; decide +kernel⟩,
    ⟨0, 0, 0, (xs 0 0 0 id), by beta_reduce; decide +kernel⟩⟩

/-- Witnesses of `FabricRowsAct`: for each clause a state and operands that meet its hypotheses, part 2. -/
theorem test_FabricRowsAct_meets_2 :
    (∃ t : Nat, ∃ k : Nat, ∃ u : Nat, ∃ h : InRef × Elem, ∃ s1, ∃ s_ : State, ((fun s => switchUnits.contains u = true ∧ s.siteWorks k u = true ∧
      ((s.site k).headsOf u).find? (fun h => h.2.eve && !(isEve h.2 (((s.site k).unit u).epoch + 1))) = some h ∧
      isEve h.2 ((s.site k).unit u).epoch = true ∧ (s.takeIn k h.1).map (·.2) = some s1)) (s_.adv t)) ∧
    (∃ t : Nat, ∃ k : Nat, ∃ u : Nat, ∃ h : InRef × Elem, ∃ s_ : State, ((fun s => switchUnits.contains u = true ∧ s.siteWorks k u = true ∧
      ((s.site k).headsOf u).find? (fun h => h.2.eve && !(isEve h.2 (((s.site k).unit u).epoch + 1))) = some h ∧
      isEve h.2 ((s.site k).unit u).epoch = false)) (s_.adv t)) ∧
    (∃ t : Nat, ∃ k : Nat, ∃ u : Nat, ∃ s_ : State, ((fun s => switchUnits.contains u = true ∧ s.siteWorks k u = true ∧
      ((s.site k).headsOf u).find? (fun h => h.2.eve && !(isEve h.2 (((s.site k).unit u).epoch + 1))) = none ∧
      (∃ h ∈ (s.site k).headsOf u, h.2.eve = true ∧ (s.site k).needsNext u h.1 = true) ∧ (∃ h ∈ (s.site k).headsOf u, h.2.eve = false) ∧
      ¬ (0x040 ≤ u ∧ u ≤ 0x047 ∧ (s.site k).cfg u 7 1 = 1))) (s_.adv t)) ∧
    (∃ t : Nat, ∃ k : Nat, ∃ u : Nat, ∃ s_ : State, ((fun s => switchUnits.contains u = true ∧ s.siteWorks k u = true ∧
      ((s.site k).headsOf u).find? (fun h => h.2.eve && !(isEve h.2 (((s.site k).unit u).epoch + 1))) = none ∧
      (∃ h ∈ (s.site k).headsOf u, h.2.eve = true ∧ (s.site k).needsNext u h.1 = true) ∧ (∃ h ∈ (s.site k).headsOf u, h.2.eve = false) ∧
      (0x040 ≤ u ∧ u ≤ 0x047 ∧ (s.site k).cfg u 7 1 = 1))) (s_.adv t)) :=
  ⟨⟨0, 0, 0x040, (.ej 1 0, eveTok 0), (optE ((((tile fun x => (Site.word x 0x040 (1 + 2 ^ 5)).modEj 1 0 fun p => { p with fifo := [eveTok 0] })).adv (0)).takeIn 0 (.ej 1 0))).2, (tile fun x => (Site.word x 0x040 (1 + 2 ^ 5)).modEj 1 0 fun p => { p with fifo := [eveTok 0] }), by beta_reduce; decide +kernel⟩,
    ⟨0, 0, 0x040, (.ej 1 0, eveTok 7), (tile fun x => (Site.word x 0x040 (1 + 2 ^ 5)).modEj 1 0 fun p => { p with fifo := [eveTok 7] }), by beta_reduce; decide +kernel⟩,
    ⟨0, 0, 0x040, (tile fun x => ((Site.word x 0x040 (1 + 2 ^ 5)).modEj 1 0 fun p => { p with fifo := [eveTok 1] }).modEj 0 0 fun p => { p with fifo := [{ data := 1 }] }), by beta_reduce; decide +kernel⟩,
    ⟨0, 0, 0x040, (tile fun x => ((Site.word x 0x040 (1 + 2 ^ 5 + 2 ^ 7)).modEj 1 0 fun p => { p with fifo := [eveTok 1] }).modEj 0 0 fun p => { p with fifo := [{ data := 1 }] }), by beta_reduce; decide +kernel⟩⟩

/-- Witnesses of `ControlRowsAct`: for each clause a state and operands that meet its hypotheses. -/
theorem test_ControlRowsAct_meets :
    (∃ t : Nat, ∃ k : Nat, ∃ n : Nat, ∃ s1, ∃ s_ : State, ((fun s =>
      let x := s.site k
      let u := 0x030 + n
      let mode := x.cfg u 96 3
      let ref := InRef.ej (if mode = 2 then 2 else 1) (x.cfg u 116 3)
      n < 8 ∧ s.siteWorks k u = true ∧ (x.counter n).done = false ∧ x.chainsReady n = true ∧
        (∀ o ∈ x.counterTok n ++ x.counterVal n, x.room u o 1 = true) ∧
        ((mode = 1 ∧ s.mayRun k u = true ∧ s1 = s) ∨
          ((mode = 2 ∨ mode = 3) ∧ x.ownsIn u ref = true ∧ ∃ es, s.takeN k ref 1 = some (es, s1)) ∨
          (mode = 4 ∧ 0 < (x.counter n).pend ∧ s1 = s.modSite k fun x => x.modCounter n fun c => { c with pend := c.pend - 1 })))) (s_.adv t)) ∧
    (∃ t : Nat, ∃ k : Nat, ∃ n : Nat, ∃ c : Elem, ∃ e : Elem, ∃ s1, ∃ s2, ∃ s_ : State, ((fun s =>
      let x := s.site k
      let u := 0x040 + n
      n < 8 ∧ x.cfg u 0 3 = 1 ∧ s.siteWorks k u = true ∧ x.ownsIn u (.ej (if x.cfg u 5 1 = 1 then 1 else 2) (x.cfg u 9 3)) = true ∧
        x.ownsIn u (.ej (x.cfg u 6 1) (x.cfg u (12 + 3 * (bitsN c.data.toNat 0 4 % 4)) 3)) = true ∧
        s.takeN k (.ej (if x.cfg u 5 1 = 1 then 1 else 2) (x.cfg u 9 3)) 1 = some ([c], s1) ∧ bitsN c.data.toNat 0 4 % 4 ≤ x.cfg u 3 2 ∧
        s1.takeN k (.ej (x.cfg u 6 1) (x.cfg u (12 + 3 * (bitsN c.data.toNat 0 4 % 4)) 3)) 1 = some ([e], s2) ∧
        x.room u (.inj (x.cfg u 6 1) (x.cfg u (24 + 2 * 0) 2)) (elemCost (x.cfg u 6 1) e) = true)) (s_.adv t)) ∧
    (∃ t : Nat, ∃ k : Nat, ∃ n : Nat, ∃ c : Elem, ∃ e : Elem, ∃ s1, ∃ s2, ∃ s_ : State, ((fun s =>
      let x := s.site k
      let u := 0x040 + n
      n < 8 ∧ x.cfg u 0 3 = 3 ∧ s.siteWorks k u = true ∧ x.ownsIn u (.ej (if x.cfg u 5 1 = 1 then 1 else 2) (x.cfg u 9 3)) = true ∧
        x.ownsIn u (.ej (x.cfg u 6 1) (x.cfg u (12 + 3 * 0) 3)) = true ∧
        s.takeN k (.ej (if x.cfg u 5 1 = 1 then 1 else 2) (x.cfg u 9 3)) 1 = some ([c], s1) ∧
        s1.takeN k (.ej (x.cfg u 6 1) (x.cfg u (12 + 3 * 0) 3)) 1 = some ([e], s2) ∧
        (bitsN c.data.toNat 0 4 + x.cfg u 8 1) % 2 = 0)) (s_.adv t)) ∧
    (∃ t : Nat, ∃ k : Nat, ∃ n : Nat, ∃ c : Elem, ∃ s1, ∃ s_ : State, ((fun s =>
      let x := s.site k
      let u := 0x040 + n
      n < 8 ∧ (x.cfg u 0 3 = 1 ∨ x.cfg u 0 3 = 2 ∨ x.cfg u 0 3 = 5) ∧ s.siteWorks k u = true ∧
        x.ownsIn u (.ej (if x.cfg u 5 1 = 1 then 1 else 2) (x.cfg u 9 3)) = true ∧
        s.takeN k (.ej (if x.cfg u 5 1 = 1 then 1 else 2) (x.cfg u 9 3)) 1 = some ([c], s1) ∧ x.cfg u 3 2 < bitsN c.data.toNat 0 4 % 4)) (s_.adv t)) :=
  ⟨⟨0, 0, 7, (((xs 0 0 0 fun x => ((Site.word x 0x037 (2 ^ 32 * 1 + 2 ^ 64 * 4 + 2 ^ 96 * 1 + 2 ^ 104 * 3)).modCounter 7 fun c => { c with started := true }).modIn 2 0 fun p => { p with credit := 1 })).adv (0)), (xs 0 0 0 fun x => ((Site.word x 0x037 (2 ^ 32 * 1 + 2 ^ 64 * 4 + 2 ^ 96 * 1 + 2 ^ 104 * 3)).modCounter 7 fun c => { c with started := true }).modIn 2 0 fun p => { p with credit := 1 }), ⟨by decide +kernel, by decide +kernel, by decide +kernel, by decide +kernel, by decide +kernel, Or.inl ⟨by decide +kernel, by decide +kernel, rfl⟩⟩⟩,
    ⟨0, 0, 7, { data := 1 }, { data := 9 }, optN ((((tile fun x => (((Site.word x 0x047 (1 + 2 ^ 3 * 1 + 2 ^ 5 + 2 ^ 6 + 2 ^ 9 * 0 + 2 ^ 12 * 1 + 2 ^ 15 * 2)).modEj 1 0 fun p => { p with fifo := [{ data := 1 }] }).modEj 1 2 fun p => { p with fifo := [{ data := 9 }] }).modIn 1 0 fun p => { p with credit := 1 })).adv (0)).takeN 0 (.ej 1 0) 1), optN ((optN ((((tile fun x => (((Site.word x 0x047 (1 + 2 ^ 3 * 1 + 2 ^ 5 + 2 ^ 6 + 2 ^ 9 * 0 + 2 ^ 12 * 1 + 2 ^ 15 * 2)).modEj 1 0 fun p => { p with fifo := [{ data := 1 }] }).modEj 1 2 fun p => { p with fifo := [{ data := 9 }] }).modIn 1 0 fun p => { p with credit := 1 })).adv (0)).takeN 0 (.ej 1 0) 1)).takeN 0 (.ej 1 2) 1), (tile fun x => (((Site.word x 0x047 (1 + 2 ^ 3 * 1 + 2 ^ 5 + 2 ^ 6 + 2 ^ 9 * 0 + 2 ^ 12 * 1 + 2 ^ 15 * 2)).modEj 1 0 fun p => { p with fifo := [{ data := 1 }] }).modEj 1 2 fun p => { p with fifo := [{ data := 9 }] }).modIn 1 0 fun p => { p with credit := 1 }), by beta_reduce; decide +kernel⟩,
    ⟨0, 0, 7, { data := 1 }, { data := 9 }, optN ((((tile fun x => (((Site.word x 0x047 (3 + 2 ^ 5 + 2 ^ 6 + 2 ^ 8 + 2 ^ 9 * 0 + 2 ^ 12 * 2)).modEj 1 0 fun p => { p with fifo := [{ data := 1 }] }).modEj 1 2 fun p => { p with fifo := [{ data := 9 }] }).modIn 1 0 fun p => { p with credit := 1 })).adv (0)).takeN 0 (.ej 1 0) 1), optN ((optN ((((tile fun x => (((Site.word x 0x047 (3 + 2 ^ 5 + 2 ^ 6 + 2 ^ 8 + 2 ^ 9 * 0 + 2 ^ 12 * 2)).modEj 1 0 fun p => { p with fifo := [{ data := 1 }] }).modEj 1 2 fun p => { p with fifo := [{ data := 9 }] }).modIn 1 0 fun p => { p with credit := 1 })).adv (0)).takeN 0 (.ej 1 0) 1)).takeN 0 (.ej 1 2) 1), (tile fun x => (((Site.word x 0x047 (3 + 2 ^ 5 + 2 ^ 6 + 2 ^ 8 + 2 ^ 9 * 0 + 2 ^ 12 * 2)).modEj 1 0 fun p => { p with fifo := [{ data := 1 }] }).modEj 1 2 fun p => { p with fifo := [{ data := 9 }] }).modIn 1 0 fun p => { p with credit := 1 }), by beta_reduce; decide +kernel⟩,
    ⟨0, 0, 7, { data := 3 }, optN ((((tile fun x => (((Site.word x 0x047 (1 + 2 ^ 3 * 1 + 2 ^ 5 + 2 ^ 6 + 2 ^ 9 * 0 + 2 ^ 12 * 1 + 2 ^ 15 * 2)).modEj 1 0 fun p => { p with fifo := [{ data := 3 }] }).modEj 1 2 fun p => { p with fifo := [{ data := 9 }] }).modIn 1 0 fun p => { p with credit := 1 })).adv (0)).takeN 0 (.ej 1 0) 1), (tile fun x => (((Site.word x 0x047 (1 + 2 ^ 3 * 1 + 2 ^ 5 + 2 ^ 6 + 2 ^ 9 * 0 + 2 ^ 12 * 1 + 2 ^ 15 * 2)).modEj 1 0 fun p => { p with fifo := [{ data := 3 }] }).modEj 1 2 fun p => { p with fifo := [{ data := 9 }] }).modIn 1 0 fun p => { p with credit := 1 }), by beta_reduce; decide +kernel⟩⟩

/-- Witnesses of `DataRowsAct`: for each clause a state and operands that meet its hypotheses, part 1. -/
theorem test_DataRowsAct_meets :
    (∃ t : Nat, ∃ k : Nat, ∃ bufA : List Byte, ∃ sclA : List Byte, ∃ s1 : State, ∃ bufB : List Byte, ∃ sclB : List Byte, ∃ s2 : State, ∃ cs : List Byte, ∃ scl : List Byte, ∃ s3 : State, ∃ s_ : State, ((fun s =>
      let x := s.site k
      let pl := x.patchPlan
      let first := x.patch.kg == 0 && x.patch.wsRow == 0 && x.patch.wsGrp == 0
      (x.cfg 0 0 2 = 1 ∨ x.cfg 0 0 2 = 2) ∧ s.siteWorks k 0 = true ∧
        s.patchTake k strA x.patchNeed.1 x.patch.bufA x.patch.sclA = some (bufA, sclA, s1) ∧
        s1.patchTake k strB (x.patchNeed.2 * pl.blk) x.patch.bufB x.patch.sclB = some (bufB, sclB, s2) ∧
        (if first = true ∧ x.cfg 0 10 2 = 1 then s2.patchTake k strC (4 * pl.cells.length) [] [] else some ([], [], s2)) = some (cs, scl, s3))) (s_.adv t)) ∧
    (∃ t : Nat, ∃ k : Nat, ∃ got : List (Nat × List Elem), ∃ s1, ∃ s_ : State, ((fun s =>
      let x := (s.site k).viewAt ((s.site k).unit 0x010).epoch
      let r := s.runStages k x got 6 1 (s1.site k) (x.beatFlow got x.prevStream)
      x.pipeActive = true ∧ x.pipeInputs ≠ [] ∧
        (∀ u ∈ (List.range 6).map (0x010 + ·), (x.unit u).epoch = (x.unit 0x010).epoch ∧ s.siteWorks k u = true) ∧
        s.takeBeats k x.pipeInputs = some (got, s1) ∧ (∀ o ∈ (s.site k).outputs 0x015, x.room 0x015 o r.2.length = true))) (s_.adv t)) ∧
    (∃ t : Nat, ∃ k : Nat, ∃ wr : List SliceReq, ∃ nr : List SliceReq, ∃ hits : List (Nat × List Byte), ∃ s_ : State, ((fun _ => True)) (s_.adv t)) ∧
    (∃ t : Nat, ∃ k : Nat, ∃ n : Nat, ∃ s_ : State, ((fun s => n < 4 ∧ bitsN ((s.site k).unit (0x020 + n)).active.toNat 0 3 = 3 ∧
      (Tbl.get {} (s.site k).ags n : AgSt).done = false ∧ s.siteWorks k (0x020 + n) = true ∧ s.mayRun k (0x020 + n) = true ∧
      agPadded ((s.site k).unit (0x020 + n)).active.toNat (Tbl.get {} (s.site k).ags n : AgSt).idx = false)) (s_.adv t)) ∧
    (∃ t : Nat, ∃ k : Nat, ∃ n : Nat, ∃ s_ : State, ((fun s => n < 4 ∧ bitsN ((s.site k).unit (0x020 + n)).active.toNat 0 3 = 4 ∧
      (Tbl.get {} (s.site k).ags n : AgSt).done = false ∧ s.siteWorks k (0x020 + n) = true ∧ s.mayRun k (0x020 + n) = true ∧
      agPadded ((s.site k).unit (0x020 + n)).active.toNat (Tbl.get {} (s.site k).ags n : AgSt).idx = false)) (s_.adv t)) ∧
    (∃ t : Nat, ∃ k : Nat, ∃ n : Nat, ∃ s_ : State, ((fun s => n < 4 ∧ (bitsN ((s.site k).unit (0x020 + n)).active.toNat 0 3 = 3 ∨ bitsN ((s.site k).unit (0x020 + n)).active.toNat 0 3 = 4) ∧
      (Tbl.get {} (s.site k).ags n : AgSt).done = false ∧ s.siteWorks k (0x020 + n) = true ∧ s.mayRun k (0x020 + n) = true ∧
      agPadded ((s.site k).unit (0x020 + n)).active.toNat (Tbl.get {} (s.site k).ags n : AgSt).idx = true)) (s_.adv t)) ∧
    (∃ t : Nat, ∃ k : Nat, ∃ n : Nat, ∃ s_ : State, ((fun s =>
      let x := s.site k
      let cfg := (x.unit (0x020 + n)).active.toNat
      n < 4 ∧ bitsN cfg 0 3 = 1 ∧ (Tbl.get {} x.ags n : AgSt).done = false ∧ s.siteWorks k (0x020 + n) = true ∧ s.mayRun k (0x020 + n) = true ∧
        x.outputs (0x020 + n) ≠ [] ∧ (∀ o ∈ x.outputs (0x020 + n), x.room (0x020 + n) o (x.agRead n o).length = true))) (s_.adv t)) ∧
    (∃ t : Nat, ∃ k : Nat, ∃ n : Nat, ∃ r : InRef, ∃ rest : List InRef, ∃ es : List Elem, ∃ s1, ∃ s_ : State, ((fun s =>
      let x := s.site k
      let cfg := (x.unit (0x020 + n)).active.toNat
      n < 4 ∧ bitsN cfg 0 3 = 2 ∧ (Tbl.get {} x.ags n : AgSt).done = false ∧ s.siteWorks k (0x020 + n) = true ∧
        (x.inputs (0x020 + n)).filter (x.ownsIn (0x020 + n)) = r :: rest ∧ bitOn cfg 15 = false ∧
        agPadded cfg (Tbl.get {} x.ags n : AgSt).idx = false ∧
        s.takeN k r (if r.plane = 1 then vlenBytes (bitsN cfg 11 2) / 4 else 1) = some (es, s1))) (s_.adv t)) :=
  ⟨⟨0, 0, List.replicate 2048 0, [], (((xs 0 0 0 fun x => { (Site.word x 0 1) with patch := { kg := 1, bufA := List.replicate 2048 0, bufB := List.replicate 2048 0 } })).adv (0)), List.replicate 2048 0, [], (((xs 0 0 0 fun x => { (Site.word x 0 1) with patch := { kg := 1, bufA := List.replicate 2048 0, bufB := List.replicate 2048 0 } })).adv (0)), [], [], (((xs 0 0 0 fun x => { (Site.word x 0 1) with patch := { kg := 1, bufA := List.replicate 2048 0, bufB := List.replicate 2048 0 } })).adv (0)), (xs 0 0 0 fun x => { (Site.word x 0 1) with patch := { kg := 1, bufA := List.replicate 2048 0, bufB := List.replicate 2048 0 } }), by beta_reduce; decide +kernel⟩,
    ⟨0, 0, (optB ((((xs 0 0 0 fun x => { (Site.word x 0x020 (1 + 2 ^ 7 * 3)) with streams := [(strV0, [{ data := 7 }])] })).adv (0)).takeBeats 0 ((((xs 0 0 0 fun x => { (Site.word x 0x020 (1 + 2 ^ 7 * 3)) with streams := [(strV0, [{ data := 7 }])] })).adv (0)).site 0).pipeInputs)).1, (optB ((((xs 0 0 0 fun x => { (Site.word x 0x020 (1 + 2 ^ 7 * 3)) with streams := [(strV0, [{ data := 7 }])] })).adv (0)).takeBeats 0 ((((xs 0 0 0 fun x => { (Site.word x 0x020 (1 + 2 ^ 7 * 3)) with streams := [(strV0, [{ data := 7 }])] })).adv (0)).site 0).pipeInputs)).2, (xs 0 0 0 fun x => { (Site.word x 0x020 (1 + 2 ^ 7 * 3)) with streams := [(strV0, [{ data := 7 }])] }), by beta_reduce; decide +kernel⟩,
    ⟨0, 0, [{ who := 5 }, { who := 2, addr := 256, form := .halfColumn, write := true }], [{ who := 3 }], [], (tile id), by beta_reduce; decide +kernel⟩,
    ⟨0, 0, 3, ((xs 0 0 0 fun x => Site.word x 0x023 3)), by beta_reduce; decide +kernel⟩,
    ⟨0, 0, 3, (xs 0 0 0 fun x => { (Site.word x 0x023 (4)) with streams := [(strPW, [{ data := 7 }])] }), by beta_reduce; decide +kernel⟩,
    ⟨0, 0, 3, (xs 0 0 0 fun x => { (Site.word x 0x023 (3 + 2 ^ 107)) with streams := [(strPW, [{ data := 7 }])] }), by beta_reduce; decide +kernel⟩,
    ⟨0, 0, 3, (xs 0 0 0 fun x => { (Site.word x 0x023 (1)) with streams := [(strPW, [{ data := 7 }])] }), by beta_reduce; decide +kernel⟩,
    ⟨0, 0, 3, .stream strPW, [], [{ data := 7 }], optN ((((xs 0 0 0 fun x => { (Site.word x 0x023 (2)) with streams := [(strPW, [{ data := 7 }])] })).adv (0)).takeN 0 (.stream strPW) 1), (xs 0 0 0 fun x => { (Site.word x 0x023 (2)) with streams := [(strPW, [{ data := 7 }])] }), by beta_reduce; decide +kernel⟩⟩

/-- Witnesses of `DataRowsAct`: for each clause a state and operands that meet its hypotheses, part 2. -/
theorem test_DataRowsAct_meets_2 :
    (∃ t : Nat, ∃ k : Nat, ∃ n : Nat, ∃ r : InRef, ∃ rest : List InRef, ∃ es : List Elem, ∃ s1, ∃ s_ : State, ((fun s =>
      let x := s.site k
      let cfg := (x.unit (0x020 + n)).active.toNat
      n < 4 ∧ bitsN cfg 0 3 = 2 ∧ (Tbl.get {} x.ags n : AgSt).done = false ∧ s.siteWorks k (0x020 + n) = true ∧
        (x.inputs (0x020 + n)).filter (x.ownsIn (0x020 + n)) = r :: rest ∧ agPadded cfg (Tbl.get {} x.ags n : AgSt).idx = true ∧
        s.takeN k r (if r.plane = 1 then vlenBytes (bitsN cfg 11 2) / 4 else 1) = some (es, s1))) (s_.adv t)) ∧
    (∃ t : Nat, ∃ k : Nat, ∃ n : Nat, ∃ r : InRef, ∃ rest : List InRef, ∃ es : List Elem, ∃ s1, ∃ s_ : State, ((fun s =>
      let x := s.site k
      let cfg := (x.unit (0x020 + n)).active.toNat
      n < 4 ∧ bitsN cfg 0 3 = 2 ∧ (Tbl.get {} x.ags n : AgSt).done = false ∧ s.siteWorks k (0x020 + n) = true ∧
        (x.inputs (0x020 + n)).filter (x.ownsIn (0x020 + n)) = r :: rest ∧ bitOn cfg 15 = true ∧
        agPadded cfg (Tbl.get {} x.ags n : AgSt).idx = false ∧
        s.takeN k r (if r.plane = 1 then vlenBytes (bitsN cfg 11 2) / 4 else 1) = some (es, s1))) (s_.adv t)) :=
  ⟨⟨0, 0, 3, .stream strPW, [], [{ data := 7 }], optN ((((xs 0 0 0 fun x => { (Site.word x 0x023 (2 + 2 ^ 107)) with streams := [(strPW, [{ data := 7 }])] })).adv (0)).takeN 0 (.stream strPW) 1), (xs 0 0 0 fun x => { (Site.word x 0x023 (2 + 2 ^ 107)) with streams := [(strPW, [{ data := 7 }])] }), by beta_reduce; decide +kernel⟩,
    ⟨0, 0, 3, .stream strPW, [], [{ data := 7 }], optN ((((xs 0 0 0 fun x => { (Site.word x 0x023 (2 + 2 ^ 15)) with streams := [(strPW, [{ data := 7 }])] })).adv (0)).takeN 0 (.stream strPW) 1), (xs 0 0 0 fun x => { (Site.word x 0x023 (2 + 2 ^ 15)) with streams := [(strPW, [{ data := 7 }])] }), by beta_reduce; decide +kernel⟩⟩

/-- Witnesses of `SyncRowsAct`: for each clause a state and operands that meet its hypotheses, part 1. -/
theorem test_SyncRowsAct_meets :
    (∃ t : Nat, ∃ pkt : Packet, ∃ n : Nat, ∃ k, ∃ s_ : State, ((fun s => s.Reaches pkt k)) (s_.adv t)) ∧
    (∃ t : Nat, ∃ r : Nat, ∃ p : Nat, ∃ b : Nat, ∃ d : BarDef, ∃ s_ : State, ((fun s => s.barDef p b = some d ∧ (s.router r).down = false ∧ Tbl.get 0 (s.router r).barArr (64 * p + b) + 1 < s.barTarget p d r)) (s_.adv t)) ∧
    (∃ t : Nat, ∃ r : Nat, ∃ p : Nat, ∃ b : Nat, ∃ d : BarDef, ∃ s_ : State, ((fun s => s.barDef p b = some d ∧ (s.router r).down = false ∧ 0 < s.barTarget p d r ∧
      s.barTarget p d r ≤ Tbl.get 0 (s.router r).barArr (64 * p + b) + 1 ∧ r = s.tileRouter d.root ∧ d.scope ≠ 1)) (s_.adv t)) ∧
    (∃ t : Nat, ∃ r : Nat, ∃ p : Nat, ∃ b : Nat, ∃ d : BarDef, ∃ s_ : State, ((fun s => s.barDef p b = some d ∧ (s.router r).down = false ∧ 0 < s.barTarget p d r ∧
      s.barTarget p d r ≤ Tbl.get 0 (s.router r).barArr (64 * p + b) + 1 ∧ r ≠ s.tileRouter d.root)) (s_.adv t)) ∧
    (∃ t : Nat, ∃ r : Nat, ∃ p : Nat, ∃ b : Nat, ∃ d : BarDef, ∃ h : Nat, ∃ ms : List Nat, ∃ s_ : State, ((fun s => s.barDef p b = some d ∧ (s.router r).down = false ∧ 0 < s.barTarget p d r ∧
      s.barTarget p d r ≤ Tbl.get 0 (s.router r).barArr (64 * p + b) + 1 ∧ r = s.tileRouter d.root ∧ d.scope = 1 ∧
      s.barGroup p d = some (h, ms))) (s_.adv t)) ∧
    (∃ t : Nat, ∃ r : Nat, ∃ p : Nat, ∃ b : Nat, ∃ d : BarDef, ∃ s_ : State, ((fun s => s.barDef p b = some d ∧ s.barTarget p d r ≠ 0 ∧ (s.router r).down = true)) (s_.adv t)) ∧
    (∃ t : Nat, ∃ tile : Nat, ∃ b : Nat, ∃ d : BarDef, ∃ s_ : State, ((fun s => s.barrier (s.siteOfTile tile) b = some d ∧ (s.router (routerOf (s.siteOfTile tile))).down = true)) (s_.adv t)) ∧
    (∃ t : Nat, ∃ tile : Nat, ∃ b : Nat, ∃ d : BarDef, ∃ s_ : State, ((fun s => s.barrier (s.siteOfTile tile) b = some d ∧ (s.router (routerOf (s.siteOfTile tile))).down = false ∧ (s.site (s.siteOfTile tile)).st = .tile ∧
      ((s.site (s.siteOfTile tile)).bar b).a ≠ ((s.site (s.siteOfTile tile)).bar b).c)) (s_.adv t)) ∧
    (∃ t : Nat, ∃ k : Nat, ∃ h : Bool, ∃ c : Nat, ∃ b : Bank, ∃ w : Wait, ∃ s_ : State, ((fun s => ((s.site k).seq.waits.find? fun w => w.2.2.2.expired (s.part (s.partField k)).ides s.now && !s.eventHolds k w.2.1 w.2.2.1) =
        some (h, c, b, w) ∧ s.siteWorks k seqUnit = true ∧ s.idesRuns (s.partField k) = true)) (s_.adv t)) :=
  ⟨⟨0, { kind := .signal, arg := 63 }, 0xFFFFFFFF, 0, (tile id), by beta_reduce; decide +kernel⟩,
    ⟨0, 0, 0, 63, { id := 63, members := [0, 1] }, ((({ up with routers := [(0, { barArr := [] })] } : State).modPart 0 fun p => { p with ordo := some { barriers := [{ id := 63, members := [0, 1] }] } })), by beta_reduce; decide +kernel⟩,
    ⟨0, 0, 0, 63, { id := 63, members := [0, 1] }, ((({ up with routers := [(0, { barArr := [(63, 1)] })] } : State).modPart 0 fun p => { p with ordo := some { barriers := [{ id := 63, members := [0, 1] }] } })), by beta_reduce; decide +kernel⟩,
    ⟨0, ((((full { st := .running }).modPart 0 fun p => { p with ordo := some { phases := [{}], barriers := [{ id := 63, members := [0, 127], root := 0 }], groups := [] } })).adv (0)).tileRouter 127, 0, 63, { id := 63, members := [0, 127], root := 0 }, ((full { st := .running }).modPart 0 fun p => { p with ordo := some { phases := [{}], barriers := [{ id := 63, members := [0, 127], root := 0 }], groups := [] } }), by beta_reduce; decide +kernel⟩,
    ⟨0, ((((full { st := .running }).modPart 0 fun p => { p with ordo := some { phases := [{}], barriers := [{ id := 63, scope := 1, members := [0], root := 0 }], groups := [{ members := [5] }] } })).adv (0)).tileRouter 0, 0, 63, { id := 63, scope := 1, members := [0], root := 0 }, ((((((full { st := .running }).modPart 0 fun p => { p with ordo := some { phases := [{}], barriers := [{ id := 63, scope := 1, members := [0], root := 0 }], groups := [{ members := [5] }] } })).adv (0)).barGroup 0 { id := 63, scope := 1, members := [0], root := 0 }).getD (0, [])).1, [5], ((full { st := .running }).modPart 0 fun p => { p with ordo := some { phases := [{}], barriers := [{ id := 63, scope := 1, members := [0], root := 0 }], groups := [{ members := [5] }] } }), by beta_reduce; decide +kernel⟩,
    ⟨0, ((full { st := .running }).modPart 0 fun p => { p with ordo := some { phases := [{}], barriers := [{ id := 63, members := [0, 127], root := 0 }], groups := [] } }).tileRouter 127, 0, 63, { id := 63, members := [0, 127], root := 0 }, (((full { st := .running }).modPart 0 fun p => { p with ordo := some { phases := [{}], barriers := [{ id := 63, members := [0, 127], root := 0 }], groups := [] } }).modRouter (((full { st := .running }).modPart 0 fun p => { p with ordo := some { phases := [{}], barriers := [{ id := 63, members := [0, 127], root := 0 }], groups := [] } }).tileRouter 127) fun x => { x with down := true }), by beta_reduce; decide +kernel⟩,
    ⟨0, 0, 63, { id := 63, members := [0] }, (((((xs 0 63 0 fun x => x).modPart 0 fun p => { p with ordo := some { phases := [{}], barriers := [{ id := 63, members := [0] }] } }).modSite 0 fun x => { x with bars := [(63, { a := 1 })] })).modRouter (routerOf 0) fun x => { x with down := true }), by beta_reduce; decide +kernel⟩,
    ⟨0, 0, 63, { id := 63, members := [0] }, ((((xs 0 63 0 fun x => x).modPart 0 fun p => { p with ordo := some { phases := [{}], barriers := [{ id := 63, members := [0] }] } }).modSite 0 fun x => { x with bars := [(63, { a := 1 })] })), by beta_reduce; decide +kernel⟩,
    ⟨20000 * ftUs, 0, false, 0, ((((((xs 0 0 0 fun x => x).modJob 0 fun j => { j with timers := true }).modSite 0 fun x => { x with seq := { x.seq with main := { x.seq.main with wait := some { kind := .recv } } } })).adv (20000 * ftUs)).site 0).seq.main, { kind := .recv }, (((xs 0 0 0 fun x => x).modJob 0 fun j => { j with timers := true }).modSite 0 fun x => { x with seq := { x.seq with main := { x.seq.main with wait := some { kind := .recv } } } }), by beta_reduce; decide +kernel⟩⟩

/-- Witnesses of `SyncRowsAct`: for each clause a state and operands that meet its hypotheses, part 2. -/
theorem test_SyncRowsAct_meets_2 :
    (∃ t : Nat, ∃ p : Nat, ∃ j : Job, ∃ ph : Nat, ∃ f : Nat, ∃ s_ : State, ((fun s => s.job p = some j ∧ s.idesRuns p = true ∧
      (j.phaseFt.find? fun e => decide (e.2 + s.phaseUs p e.1 * ftUs ≤ s.now)) = some (ph, f))) (s_.adv t)) ∧
    (∃ t : Nat, ∃ p : Nat, ∃ j : Job, ∃ s_ : State, ((fun s => s.job p = some j ∧ s.idesRuns p = true ∧ j.stepTimer = true ∧ j.phase < s.phaseCount p ∧
      j.releaseFt + (s.part p).ides.stepUs * ftUs ≤ s.now)) (s_.adv t)) :=
  ⟨⟨1000000 * ftUs, 0, { st := .running, timers := true, phaseFt := [(0, 0)] }, 0, 0, ((withJob { st := .running, timers := true, phaseFt := [(0, 0)] }).modPart 0 fun p => { p with ordo := some { phases := [{}] } }), by beta_reduce; decide +kernel⟩,
    ⟨60000000 * ftUs, 0, { st := .running, timers := true, stepTimer := true }, ((withJob { st := .running, timers := true, stepTimer := true }).modPart 0 fun p => { p with ordo := some { phases := [{}] } }), by beta_reduce; decide +kernel⟩⟩

/-- Witnesses of `SeqInstructionActs`: for each clause a state and operands that meet its hypotheses, part 1. -/
theorem test_SeqInstructionActs_meets :
    (∃ t : Nat, ∃ k : Nat, ∃ (s_ : State) (w len : Nat) (u : Option (List Byte)), MeetsRv t k s_ w len u (fun w => w % 128 = 0x13 ∧ bitsN w 12 3 ≠ 1 ∧ bitsN w 12 3 ≠ 5)) ∧
    (∃ t : Nat, ∃ k : Nat, ∃ (s_ : State) (w len : Nat) (u : Option (List Byte)), MeetsRv t k s_ w len u (fun w => w % 128 = 0x13 ∧ (bitsN w 12 3 = 1 ∧ bitsN w 25 7 = 0 ∨ bitsN w 12 3 = 5 ∧ (bitsN w 25 7 = 0 ∨ bitsN w 25 7 = 32)))) ∧
    (∃ t : Nat, ∃ k : Nat, ∃ (s_ : State) (w len : Nat) (u : Option (List Byte)), MeetsRv t k s_ w len u (fun w => w % 128 = 0x33 ∧ (bitsN w 25 7 = 0 ∨ bitsN w 25 7 = 32 ∧ (bitsN w 12 3 = 0 ∨ bitsN w 12 3 = 5)))) ∧
    (∃ t : Nat, ∃ k : Nat, ∃ (s_ : State) (w len : Nat) (u : Option (List Byte)), MeetsRv t k s_ w len u (fun w => w % 128 = 0x33 ∧ bitsN w 25 7 = 1)) ∧
    (∃ t : Nat, ∃ k : Nat, ∃ (s_ : State) (w len : Nat) (u : Option (List Byte)), MeetsRv t k s_ w len u (fun w => w % 128 = 0x37)) ∧
    (∃ t : Nat, ∃ k : Nat, ∃ (s_ : State) (w len : Nat) (u : Option (List Byte)), MeetsRv t k s_ w len u (fun w => w % 128 = 0x17)) ∧
    (∃ t : Nat, ∃ k : Nat, ∃ (s_ : State) (w len : Nat) (u : Option (List Byte)), MeetsRv t k s_ w len u (fun w => w % 128 = 0x6F)) ∧
    (∃ t : Nat, ∃ k : Nat, ∃ (s_ : State) (w len : Nat) (u : Option (List Byte)), MeetsRv t k s_ w len u (fun w => w % 128 = 0x67 ∧ bitsN w 12 3 = 0)) ∧
    (∃ t : Nat, ∃ k : Nat, ∃ (s_ : State) (w len : Nat) (u : Option (List Byte)), MeetsRv t k s_ w len u (fun w => w % 128 = 0x63 ∧ bitsN w 12 3 ≠ 2 ∧ bitsN w 12 3 ≠ 3)) :=
  ⟨⟨0, 0, (xs 0xfff10193 1 0x100000 id), (0xfff10193), 4, none, meetsRv (by decide +kernel) (by beta_reduce; decide +kernel)⟩,
    ⟨0, 0, (xs 0x41f1d193 1 0x100000 id), (0x41f1d193), 4, none, meetsRv (by decide +kernel) (by beta_reduce; decide +kernel)⟩,
    ⟨0, 0, (xs 0x402081b3 1 0x100000 id), (0x402081b3), 4, none, meetsRv (by decide +kernel) (by beta_reduce; decide +kernel)⟩,
    ⟨0, 0, (xs 0x22081b3 1 0x100000 id), (0x22081b3), 4, none, meetsRv (by decide +kernel) (by beta_reduce; decide +kernel)⟩,
    ⟨0, 0, (xs 0x123451b7 1 0x100000 id), (0x123451b7), 4, none, meetsRv (by decide +kernel) (by beta_reduce; decide +kernel)⟩,
    ⟨0, 0, (xs 0x12345197 1 0x100000 id), (0x12345197), 4, none, meetsRv (by decide +kernel) (by beta_reduce; decide +kernel)⟩,
    ⟨0, 0, (xs 0xfe1ff1ef 1 0x100000 id), (0xfe1ff1ef), 4, none, meetsRv (by decide +kernel) (by beta_reduce; decide +kernel)⟩,
    ⟨0, 0, (xs 0xc101e7 1 0x100000 id), (0xc101e7), 4, none, meetsRv (by decide +kernel) (by beta_reduce; decide +kernel)⟩,
    ⟨0, 0, (xs 0x209463 1 0x100000 id), (0x209463), 4, none, meetsRv (by decide +kernel) (by beta_reduce; decide +kernel)⟩⟩

/-- Witnesses of `SeqInstructionActs`: for each clause a state and operands that meet its hypotheses, part 2. -/
theorem test_SeqInstructionActs_meets_2 :
    (∃ t : Nat, ∃ k : Nat, ∃ (s_ : State) (w len : Nat) (u : Option (List Byte)), MeetsRv t k s_ w len u (fun w => w % 128 = 0x03)) ∧
    (∃ t : Nat, ∃ k : Nat, ∃ (s_ : State) (w len : Nat) (u : Option (List Byte)), MeetsRv t k s_ w len u (fun w => w % 128 = 0x23)) ∧
    (∃ t : Nat, ∃ k : Nat, ∃ (s_ : State) (w len : Nat) (u : Option (List Byte)), MeetsRv t k s_ w len u (fun w => w % 128 = 0x0F ∧ bitsN w 12 3 = 0)) ∧
    (∃ t : Nat, ∃ k : Nat, ∃ (s_ : State) (w len : Nat) (u : Option (List Byte)), MeetsRv t k s_ w len u (fun w => w = 0x73)) ∧
    (∃ t : Nat, ∃ k : Nat, ∃ (s_ : State) (w len : Nat) (u : Option (List Byte)), MeetsRv t k s_ w len u (fun w => w = 0x100073)) ∧
    (∃ t : Nat, ∃ k : Nat, ∃ (s_ : State) (w len : Nat) (u : Option (List Byte)), MeetsRv t k s_ w len u (fun w => w = 0x30200073)) ∧
    (∃ t : Nat, ∃ k : Nat, ∃ (s_ : State) (w len : Nat) (u : Option (List Byte)), MeetsRv t k s_ w len u (fun w => w = 0x10500073)) ∧
    (∃ t : Nat, ∃ k : Nat, ∃ (s_ : State) (w len : Nat) (u : Option (List Byte)), MeetsRv t k s_ w len u (fun w => w % 128 = 0x73 ∧ bitsN w 12 3 ≠ 0 ∧ bitsN w 12 3 ≠ 4)) ∧
    (∃ t : Nat, ∃ k : Nat, ∃ u : Option (List Byte), ∃ h : Nat, ∃ s_ : State, ((fun s => let s1 := s.fetchUpset k u
      s1.seqRuns k = true ∧ (s1.site k).seq.bank.wait = none ∧ (s1.site k).fetch = .bad h)) (s_.adv t)) ∧
    (∃ t : Nat, ∃ k : Nat, ∃ u : Option (List Byte), ∃ s_ : State, ((fun s => let s1 := s.fetchUpset k u
      s1.seqRuns k = true ∧ (s1.site k).seq.bank.wait = none ∧ (s1.site k).fetch = .fault)) (s_.adv t)) :=
  ⟨⟨0, 0, (xs 0x12183 1 0x100000 id), (0x12183), 4, none, meetsRv (by decide +kernel) (by beta_reduce; decide +kernel)⟩,
    ⟨0, 0, (xs 0x112023 1 0x100000 id), (0x112023), 4, none, meetsRv (by decide +kernel) (by beta_reduce; decide +kernel)⟩,
    ⟨0, 0, (xs 0xff0000f 1 0x100000 id), (0xff0000f), 4, none, meetsRv (by decide +kernel) (by beta_reduce; decide +kernel)⟩,
    ⟨0, 0, (xs 0x73 1 0x100000 id), (0x73), 4, none, meetsRv (by decide +kernel) (by beta_reduce; decide +kernel)⟩,
    ⟨0, 0, (xs 0x100073 1 0x100000 id), (0x100073), 4, none, meetsRv (by decide +kernel) (by beta_reduce; decide +kernel)⟩,
    ⟨0, 0, (xs 0x30200073 1 0x100000 id), (0x30200073), 4, none, meetsRv (by decide +kernel) (by beta_reduce; decide +kernel)⟩,
    ⟨0, 0, (xs 0x10500073 1 0x100000 id), (0x10500073), 4, none, meetsRv (by decide +kernel) (by beta_reduce; decide +kernel)⟩,
    ⟨0, 0, (xs 0x304110f3 1 0x100000 id), (0x304110f3), 4, none, meetsRv (by decide +kernel) (by beta_reduce; decide +kernel)⟩,
    ⟨0, 0, none, 0, (xs 0 0 0 id), by beta_reduce; decide +kernel⟩,
    ⟨0, 0, none, ((xs 0 0 0 id).modSite 0 fun x => { x with seq := { x.seq with main := { x.seq.main with pc := 0x1C0000 } } }), by beta_reduce; decide +kernel⟩⟩

/-- Witnesses of `SendRowsAct`: for each clause a state and operands that meet its hypotheses, part 1. -/
theorem test_SendRowsAct_meets :
    (∃ t : Nat, ∃ k : Nat, ∃ code : Nat, ∃ (s_ : State) (w : Nat), MeetsX t k .send s_ w (fun s c => s.sendChecks k (bitsN c.x.a.toNat 0 5) c.x = some code)) ∧
    (∃ t : Nat, ∃ k : Nat, ∃ bs : List Byte, ∃ s1, ∃ s2, ∃ (s_ : State) (w : Nat), MeetsX t k .send s_ w (fun s c => ((s.site k).chan (bitsN c.x.a.toNat 0 5)).txSpill = false ∧ s.sendChecks k (bitsN c.x.a.toNat 0 5) c.x = none ∧
      s.payload k c.x = (bs, s1) ∧ (s1.site k).st ≠ .vigil ∧ s1.sendTry k (bitsN c.x.a.toNat 0 5) bs = .inl s2)) ∧
    (∃ t : Nat, ∃ k : Nat, ∃ bs : List Byte, ∃ s1, ∃ (s_ : State) (w : Nat), MeetsX t k .send s_ w (fun s c => ((s.site k).chan (bitsN c.x.a.toNat 0 5)).txSpill = false ∧ s.sendChecks k (bitsN c.x.a.toNat 0 5) c.x = none ∧
      s.payload k c.x = (bs, s1) ∧ (s1.site k).st ≠ .vigil ∧ s1.sendTry k (bitsN c.x.a.toNat 0 5) bs = .inr true ∧
      (s.site k).seq.bank.wait = none)) ∧
    (∃ t : Nat, ∃ k : Nat, ∃ bs : List Byte, ∃ s1, ∃ (s_ : State) (w : Nat), MeetsX t k .send s_ w (fun s c => ((s.site k).chan (bitsN c.x.a.toNat 0 5)).txSpill = true ∧ s.sendChecks k (bitsN c.x.a.toNat 0 5) c.x = none ∧
      s.payload k c.x = (bs, s1) ∧ ((s.site k).chan (bitsN c.x.a.toNat 0 5)).txUnacked = 0)) :=
  ⟨⟨0, 0, 3, (xs (xw 0 0 3 1 2) (31 + 2 ^ 16 * 64) 0x100000 fun x => x), ((xw 0 0 3 1 2)), meetsX (by decide +kernel) (by beta_reduce; exact sends_one (by decide +kernel))⟩,
    ⟨0, 0, ((((((xs (xw 0 0 3 1 2) (31 + 2 ^ 16 * 64) 0x100000 fun x => (Site.word x (chanUnit 31) (2 ^ 128 + 2 ^ 136 * 5 + 2 ^ 176 * 8)).modChan 31 fun c => { c with txCredits := 2 }))).adv (0)).fetched (0)).payload 0 (((((xs (xw 0 0 3 1 2) (31 + 2 ^ 16 * 64) 0x100000 fun x => (Site.word x (chanUnit 31) (2 ^ 128 + 2 ^ 136 * 5 + 2 ^ 176 * 8)).modChan 31 fun c => { c with txCredits := 2 }))).adv (0)).xIn 0 (xw 0 0 3 1 2)).x).1, ((((((xs (xw 0 0 3 1 2) (31 + 2 ^ 16 * 64) 0x100000 fun x => (Site.word x (chanUnit 31) (2 ^ 128 + 2 ^ 136 * 5 + 2 ^ 176 * 8)).modChan 31 fun c => { c with txCredits := 2 }))).adv (0)).fetched (0)).payload 0 (((((xs (xw 0 0 3 1 2) (31 + 2 ^ 16 * 64) 0x100000 fun x => (Site.word x (chanUnit 31) (2 ^ 128 + 2 ^ 136 * 5 + 2 ^ 176 * 8)).modChan 31 fun c => { c with txCredits := 2 }))).adv (0)).xIn 0 (xw 0 0 3 1 2)).x).2, inlS (((((((xs (xw 0 0 3 1 2) (31 + 2 ^ 16 * 64) 0x100000 fun x => (Site.word x (chanUnit 31) (2 ^ 128 + 2 ^ 136 * 5 + 2 ^ 176 * 8)).modChan 31 fun c => { c with txCredits := 2 }))).adv (0)).fetched (0)).payload 0 (((((xs (xw 0 0 3 1 2) (31 + 2 ^ 16 * 64) 0x100000 fun x => (Site.word x (chanUnit 31) (2 ^ 128 + 2 ^ 136 * 5 + 2 ^ 176 * 8)).modChan 31 fun c => { c with txCredits := 2 }))).adv (0)).xIn 0 (xw 0 0 3 1 2)).x).2.sendTry 0 31 ((((((xs (xw 0 0 3 1 2) (31 + 2 ^ 16 * 64) 0x100000 fun x => (Site.word x (chanUnit 31) (2 ^ 128 + 2 ^ 136 * 5 + 2 ^ 176 * 8)).modChan 31 fun c => { c with txCredits := 2 }))).adv (0)).fetched (0)).payload 0 (((((xs (xw 0 0 3 1 2) (31 + 2 ^ 16 * 64) 0x100000 fun x => (Site.word x (chanUnit 31) (2 ^ 128 + 2 ^ 136 * 5 + 2 ^ 176 * 8)).modChan 31 fun c => { c with txCredits := 2 }))).adv (0)).xIn 0 (xw 0 0 3 1 2)).x).1), ((xs (xw 0 0 3 1 2) (31 + 2 ^ 16 * 64) 0x100000 fun x => (Site.word x (chanUnit 31) (2 ^ 128 + 2 ^ 136 * 5 + 2 ^ 176 * 8)).modChan 31 fun c => { c with txCredits := 2 })), ((xw 0 0 3 1 2)), meetsX (by decide +kernel) (by beta_reduce; decide +kernel)⟩,
    ⟨0, 0, ((((((xs (xw 0 0 3 1 2) (31 + 2 ^ 16 * 64) 0x100000 fun x => (Site.word x (chanUnit 31) (2 ^ 128 + 2 ^ 136 * 5 + 2 ^ 176 * 8)).modChan 31 fun c => { c with txCredits := 1 }))).adv (0)).fetched (0)).payload 0 (((((xs (xw 0 0 3 1 2) (31 + 2 ^ 16 * 64) 0x100000 fun x => (Site.word x (chanUnit 31) (2 ^ 128 + 2 ^ 136 * 5 + 2 ^ 176 * 8)).modChan 31 fun c => { c with txCredits := 1 }))).adv (0)).xIn 0 (xw 0 0 3 1 2)).x).1, ((((((xs (xw 0 0 3 1 2) (31 + 2 ^ 16 * 64) 0x100000 fun x => (Site.word x (chanUnit 31) (2 ^ 128 + 2 ^ 136 * 5 + 2 ^ 176 * 8)).modChan 31 fun c => { c with txCredits := 1 }))).adv (0)).fetched (0)).payload 0 (((((xs (xw 0 0 3 1 2) (31 + 2 ^ 16 * 64) 0x100000 fun x => (Site.word x (chanUnit 31) (2 ^ 128 + 2 ^ 136 * 5 + 2 ^ 176 * 8)).modChan 31 fun c => { c with txCredits := 1 }))).adv (0)).xIn 0 (xw 0 0 3 1 2)).x).2, ((xs (xw 0 0 3 1 2) (31 + 2 ^ 16 * 64) 0x100000 fun x => (Site.word x (chanUnit 31) (2 ^ 128 + 2 ^ 136 * 5 + 2 ^ 176 * 8)).modChan 31 fun c => { c with txCredits := 1 })), ((xw 0 0 3 1 2)), meetsX (by decide +kernel) (by beta_reduce; decide +kernel)⟩,
    ⟨0, 0, ((((((xs (xw 0 0 3 1 2) (31 + 2 ^ 16 * 64) 0x100000 fun x => (Site.word x (chanUnit 31) (2 ^ 128 + 2 ^ 136 * 5 + 2 ^ 176 * 8)).modChan 31 fun c => { c with txCredits := 2, txSpill := true }))).adv (0)).fetched (0)).payload 0 (((((xs (xw 0 0 3 1 2) (31 + 2 ^ 16 * 64) 0x100000 fun x => (Site.word x (chanUnit 31) (2 ^ 128 + 2 ^ 136 * 5 + 2 ^ 176 * 8)).modChan 31 fun c => { c with txCredits := 2, txSpill := true }))).adv (0)).xIn 0 (xw 0 0 3 1 2)).x).1, ((((((xs (xw 0 0 3 1 2) (31 + 2 ^ 16 * 64) 0x100000 fun x => (Site.word x (chanUnit 31) (2 ^ 128 + 2 ^ 136 * 5 + 2 ^ 176 * 8)).modChan 31 fun c => { c with txCredits := 2, txSpill := true }))).adv (0)).fetched (0)).payload 0 (((((xs (xw 0 0 3 1 2) (31 + 2 ^ 16 * 64) 0x100000 fun x => (Site.word x (chanUnit 31) (2 ^ 128 + 2 ^ 136 * 5 + 2 ^ 176 * 8)).modChan 31 fun c => { c with txCredits := 2, txSpill := true }))).adv (0)).xIn 0 (xw 0 0 3 1 2)).x).2, ((xs (xw 0 0 3 1 2) (31 + 2 ^ 16 * 64) 0x100000 fun x => (Site.word x (chanUnit 31) (2 ^ 128 + 2 ^ 136 * 5 + 2 ^ 176 * 8)).modChan 31 fun c => { c with txCredits := 2, txSpill := true })), ((xw 0 0 3 1 2)), meetsX (by decide +kernel) (by beta_reduce; decide +kernel)⟩⟩

/-- Witnesses of `SendRowsAct`: for each clause a state and operands that meet its hypotheses, part 2. -/
theorem test_SendRowsAct_meets_2 :
    (∃ t : Nat, ∃ k : Nat, ∃ bs : List Byte, ∃ s1, ∃ (s_ : State) (w : Nat), MeetsX t k .send s_ w (fun s c => ((s.site k).chan (bitsN c.x.a.toNat 0 5)).txSpill = false ∧ s.sendChecks k (bitsN c.x.a.toNat 0 5) c.x = none ∧
      s.payload k c.x = (bs, s1) ∧ (s1.site k).st = .vigil ∧
      ¬ ((s1.site k).cfg (chanUnit (bitsN c.x.a.toNat 0 5)) 129 1 = 0 ∧ (s1.site k).cfg (chanUnit (bitsN c.x.a.toNat 0 5)) 176 11 = 0))) ∧
    (∃ t : Nat, ∃ k : Nat, ∃ code : Nat, ∃ (s_ : State) (w : Nat), MeetsX t k .trysend s_ w (fun s c => s.sendChecks k (bitsN c.x.a.toNat 0 5) c.x = some code)) ∧
    (∃ t : Nat, ∃ k : Nat, ∃ bs : List Byte, ∃ s1, ∃ s2, ∃ (s_ : State) (w : Nat), MeetsX t k .trysend s_ w (fun s c => s.sendChecks k (bitsN c.x.a.toNat 0 5) c.x = none ∧ s.payload k c.x = (bs, s1) ∧ (s1.site k).st ≠ .vigil ∧
      s1.sendTry k (bitsN c.x.a.toNat 0 5) bs = .inl s2)) ∧
    (∃ t : Nat, ∃ k : Nat, ∃ bs : List Byte, ∃ s1, ∃ (s_ : State) (w : Nat), MeetsX t k .trysend s_ w (fun s c => s.sendChecks k (bitsN c.x.a.toNat 0 5) c.x = none ∧ s.payload k c.x = (bs, s1) ∧ (s1.site k).st ≠ .vigil ∧
      s1.sendTry k (bitsN c.x.a.toNat 0 5) bs = .inr true)) ∧
    (∃ t : Nat, ∃ k : Nat, ∃ bs : List Byte, ∃ s1, ∃ code : Nat, ∃ rest : List Nat, ∃ (s_ : State) (w : Nat), MeetsX t k .trysend s_ w (fun s c => s.sendChecks k (bitsN c.x.a.toNat 0 5) c.x = none ∧ s.payload k c.x = (bs, s1) ∧ (s1.site k).st = .vigil ∧
      fwdStatus (s1.site k).fwdTry = code :: rest ∧ code ≠ 0)) :=
  ⟨⟨0, 0, ((((((xs (xw 0 0 3 1 2) (31 + 2 ^ 16 * 64) 0x100000 fun x => (Site.word x (chanUnit 31) (2 ^ 128 + 2 ^ 136 * 5 + 2 ^ 176 * 8)).modChan 31 fun c => { c with txCredits := 2 }).modSite 0 fun x => { x with st := .vigil })).adv (0)).fetched (0)).payload 0 (((((xs (xw 0 0 3 1 2) (31 + 2 ^ 16 * 64) 0x100000 fun x => (Site.word x (chanUnit 31) (2 ^ 128 + 2 ^ 136 * 5 + 2 ^ 176 * 8)).modChan 31 fun c => { c with txCredits := 2 }).modSite 0 fun x => { x with st := .vigil })).adv (0)).xIn 0 (xw 0 0 3 1 2)).x).1, ((((((xs (xw 0 0 3 1 2) (31 + 2 ^ 16 * 64) 0x100000 fun x => (Site.word x (chanUnit 31) (2 ^ 128 + 2 ^ 136 * 5 + 2 ^ 176 * 8)).modChan 31 fun c => { c with txCredits := 2 }).modSite 0 fun x => { x with st := .vigil })).adv (0)).fetched (0)).payload 0 (((((xs (xw 0 0 3 1 2) (31 + 2 ^ 16 * 64) 0x100000 fun x => (Site.word x (chanUnit 31) (2 ^ 128 + 2 ^ 136 * 5 + 2 ^ 176 * 8)).modChan 31 fun c => { c with txCredits := 2 }).modSite 0 fun x => { x with st := .vigil })).adv (0)).xIn 0 (xw 0 0 3 1 2)).x).2, ((xs (xw 0 0 3 1 2) (31 + 2 ^ 16 * 64) 0x100000 fun x => (Site.word x (chanUnit 31) (2 ^ 128 + 2 ^ 136 * 5 + 2 ^ 176 * 8)).modChan 31 fun c => { c with txCredits := 2 }).modSite 0 fun x => { x with st := .vigil }), ((xw 0 0 3 1 2)), meetsX (by decide +kernel) (by beta_reduce; decide +kernel)⟩,
    ⟨0, 0, 3, (xs (xw 0 1 3 1 2) (31 + 2 ^ 16 * 64) 0x100000 fun x => x), ((xw 0 1 3 1 2)), meetsX (by decide +kernel) (by beta_reduce; exact sends_one (by decide +kernel))⟩,
    ⟨0, 0, ((((((xs (xw 0 1 3 1 2) (31 + 2 ^ 16 * 64) 0x100000 fun x => (Site.word x (chanUnit 31) (2 ^ 128 + 2 ^ 136 * 5 + 2 ^ 176 * 8)).modChan 31 fun c => { c with txCredits := 2 }))).adv (0)).fetched (0)).payload 0 (((((xs (xw 0 1 3 1 2) (31 + 2 ^ 16 * 64) 0x100000 fun x => (Site.word x (chanUnit 31) (2 ^ 128 + 2 ^ 136 * 5 + 2 ^ 176 * 8)).modChan 31 fun c => { c with txCredits := 2 }))).adv (0)).xIn 0 (xw 0 1 3 1 2)).x).1, ((((((xs (xw 0 1 3 1 2) (31 + 2 ^ 16 * 64) 0x100000 fun x => (Site.word x (chanUnit 31) (2 ^ 128 + 2 ^ 136 * 5 + 2 ^ 176 * 8)).modChan 31 fun c => { c with txCredits := 2 }))).adv (0)).fetched (0)).payload 0 (((((xs (xw 0 1 3 1 2) (31 + 2 ^ 16 * 64) 0x100000 fun x => (Site.word x (chanUnit 31) (2 ^ 128 + 2 ^ 136 * 5 + 2 ^ 176 * 8)).modChan 31 fun c => { c with txCredits := 2 }))).adv (0)).xIn 0 (xw 0 1 3 1 2)).x).2, inlS (((((((xs (xw 0 1 3 1 2) (31 + 2 ^ 16 * 64) 0x100000 fun x => (Site.word x (chanUnit 31) (2 ^ 128 + 2 ^ 136 * 5 + 2 ^ 176 * 8)).modChan 31 fun c => { c with txCredits := 2 }))).adv (0)).fetched (0)).payload 0 (((((xs (xw 0 1 3 1 2) (31 + 2 ^ 16 * 64) 0x100000 fun x => (Site.word x (chanUnit 31) (2 ^ 128 + 2 ^ 136 * 5 + 2 ^ 176 * 8)).modChan 31 fun c => { c with txCredits := 2 }))).adv (0)).xIn 0 (xw 0 1 3 1 2)).x).2.sendTry 0 31 ((((((xs (xw 0 1 3 1 2) (31 + 2 ^ 16 * 64) 0x100000 fun x => (Site.word x (chanUnit 31) (2 ^ 128 + 2 ^ 136 * 5 + 2 ^ 176 * 8)).modChan 31 fun c => { c with txCredits := 2 }))).adv (0)).fetched (0)).payload 0 (((((xs (xw 0 1 3 1 2) (31 + 2 ^ 16 * 64) 0x100000 fun x => (Site.word x (chanUnit 31) (2 ^ 128 + 2 ^ 136 * 5 + 2 ^ 176 * 8)).modChan 31 fun c => { c with txCredits := 2 }))).adv (0)).xIn 0 (xw 0 1 3 1 2)).x).1), ((xs (xw 0 1 3 1 2) (31 + 2 ^ 16 * 64) 0x100000 fun x => (Site.word x (chanUnit 31) (2 ^ 128 + 2 ^ 136 * 5 + 2 ^ 176 * 8)).modChan 31 fun c => { c with txCredits := 2 })), ((xw 0 1 3 1 2)), meetsX (by decide +kernel) (by beta_reduce; decide +kernel)⟩,
    ⟨0, 0, ((((((xs (xw 0 1 3 1 2) (31 + 2 ^ 16 * 64) 0x100000 fun x => (Site.word x (chanUnit 31) (2 ^ 128 + 2 ^ 136 * 5 + 2 ^ 176 * 8)).modChan 31 fun c => { c with txCredits := 1 }))).adv (0)).fetched (0)).payload 0 (((((xs (xw 0 1 3 1 2) (31 + 2 ^ 16 * 64) 0x100000 fun x => (Site.word x (chanUnit 31) (2 ^ 128 + 2 ^ 136 * 5 + 2 ^ 176 * 8)).modChan 31 fun c => { c with txCredits := 1 }))).adv (0)).xIn 0 (xw 0 1 3 1 2)).x).1, ((((((xs (xw 0 1 3 1 2) (31 + 2 ^ 16 * 64) 0x100000 fun x => (Site.word x (chanUnit 31) (2 ^ 128 + 2 ^ 136 * 5 + 2 ^ 176 * 8)).modChan 31 fun c => { c with txCredits := 1 }))).adv (0)).fetched (0)).payload 0 (((((xs (xw 0 1 3 1 2) (31 + 2 ^ 16 * 64) 0x100000 fun x => (Site.word x (chanUnit 31) (2 ^ 128 + 2 ^ 136 * 5 + 2 ^ 176 * 8)).modChan 31 fun c => { c with txCredits := 1 }))).adv (0)).xIn 0 (xw 0 1 3 1 2)).x).2, ((xs (xw 0 1 3 1 2) (31 + 2 ^ 16 * 64) 0x100000 fun x => (Site.word x (chanUnit 31) (2 ^ 128 + 2 ^ 136 * 5 + 2 ^ 176 * 8)).modChan 31 fun c => { c with txCredits := 1 })), ((xw 0 1 3 1 2)), meetsX (by decide +kernel) (by beta_reduce; decide +kernel)⟩,
    ⟨0, 0, ((((((xs (xw 0 1 3 1 2) (31 + 2 ^ 16 * 64) 0x100000 fun x => (Site.word x (chanUnit 31) (2 ^ 128 + 2 ^ 136 * 5 + 2 ^ 176 * 8)).modChan 31 fun c => { c with txCredits := 2 }).modSite 0 fun x => { x with st := .vigil, fwdTry := [7, 4] })).adv (0)).fetched (0)).payload 0 (((((xs (xw 0 1 3 1 2) (31 + 2 ^ 16 * 64) 0x100000 fun x => (Site.word x (chanUnit 31) (2 ^ 128 + 2 ^ 136 * 5 + 2 ^ 176 * 8)).modChan 31 fun c => { c with txCredits := 2 }).modSite 0 fun x => { x with st := .vigil, fwdTry := [7, 4] })).adv (0)).xIn 0 (xw 0 1 3 1 2)).x).1, ((((((xs (xw 0 1 3 1 2) (31 + 2 ^ 16 * 64) 0x100000 fun x => (Site.word x (chanUnit 31) (2 ^ 128 + 2 ^ 136 * 5 + 2 ^ 176 * 8)).modChan 31 fun c => { c with txCredits := 2 }).modSite 0 fun x => { x with st := .vigil, fwdTry := [7, 4] })).adv (0)).fetched (0)).payload 0 (((((xs (xw 0 1 3 1 2) (31 + 2 ^ 16 * 64) 0x100000 fun x => (Site.word x (chanUnit 31) (2 ^ 128 + 2 ^ 136 * 5 + 2 ^ 176 * 8)).modChan 31 fun c => { c with txCredits := 2 }).modSite 0 fun x => { x with st := .vigil, fwdTry := [7, 4] })).adv (0)).xIn 0 (xw 0 1 3 1 2)).x).2, 4, [], ((xs (xw 0 1 3 1 2) (31 + 2 ^ 16 * 64) 0x100000 fun x => (Site.word x (chanUnit 31) (2 ^ 128 + 2 ^ 136 * 5 + 2 ^ 176 * 8)).modChan 31 fun c => { c with txCredits := 2 }).modSite 0 fun x => { x with st := .vigil, fwdTry := [7, 4] }), ((xw 0 1 3 1 2)), meetsX (by decide +kernel) (by beta_reduce; decide +kernel)⟩⟩

/-- Witnesses of `ReceiveRowsAct`: for each clause a state and operands that meet its hypotheses. -/
theorem test_ReceiveRowsAct_meets :
    (∃ t : Nat, ∃ k : Nat, ∃ i, ∃ (s_ : State) (w : Nat), MeetsX t k .done s_ w (fun _ c => c.x.ctx = i + 1)) ∧
    (∃ t : Nat, ∃ k : Nat, ∃ (s_ : State) (w : Nat), MeetsX t k .done s_ w (fun _ c => c.x.ctx = 0)) ∧
    (∃ t : Nat, ∃ k : Nat, ∃ r : Taken, ∃ s1, ∃ (s_ : State) (w : Nat), MeetsX t k .recv s_ w (fun s c => c.x.ctx = 0 ∧ (s.site k).cfg (chanUnit (bitsN c.x.a.toNat 0 5)) 2 1 = 0 ∧ s.takeMsg k (bitsN c.x.a.toNat 0 5) = some (r, s1))) ∧
    (∃ t : Nat, ∃ k : Nat, ∃ (s_ : State) (w : Nat), MeetsX t k .recv s_ w (fun s c => c.x.ctx = 0 ∧ (s.site k).seq.bank.wait = none ∧
      ((s.site k).cfg (chanUnit (bitsN c.x.a.toNat 0 5)) 2 1 = 1 ∨ s.takeMsg k (bitsN c.x.a.toNat 0 5) = none))) ∧
    (∃ t : Nat, ∃ k : Nat, ∃ (s_ : State) (w : Nat), MeetsX t k .recv s_ w (fun _ c => c.x.ctx ≠ 0)) ∧
    (∃ t : Nat, ∃ k : Nat, ∃ (s_ : State) (w : Nat), MeetsX t k .release s_ w (fun _ c => c.x.ctx = 0)) ∧
    (∃ t : Nat, ∃ k : Nat, ∃ (s_ : State) (w : Nat), MeetsX t k .release s_ w (fun _ c => c.x.ctx ≠ 0)) :=
  ⟨⟨0, 0, 31, ((xs (xw 0 2 0 0 0) 0 0 id).modSite 0 fun x => { x with seq := { x.seq with hand := { live := true, pc := 0x1BA000 }, ctx := 32 } }), ((xw 0 2 0 0 0)), meetsX (by decide +kernel) (by beta_reduce; decide +kernel)⟩,
    ⟨0, 0, (xs (xw 0 2 0 0 0) 0 0 id), ((xw 0 2 0 0 0)), meetsX (by decide +kernel) (by beta_reduce; decide +kernel)⟩,
    ⟨0, 0, (optM ((((((xs (xw 0 3 3 1 0) 31 0 fun x => (Site.word x (chanUnit 31) (1 + 2 ^ 4 * 0x1000 + 2 ^ 24 * 4)).modChan 31 fun c => { c with present := [0] }).modSite 0 fun x => { x with mu := { x.mu with slice := memWriteN x.mu.slice 0x1000 (hdrBytes { lines := 1, chan := 31 } true) }, seq := { x.seq with pending := [(31, 0)] } })).adv (0)).fetched (0)).takeMsg 0 31)).1, (optM ((((((xs (xw 0 3 3 1 0) 31 0 fun x => (Site.word x (chanUnit 31) (1 + 2 ^ 4 * 0x1000 + 2 ^ 24 * 4)).modChan 31 fun c => { c with present := [0] }).modSite 0 fun x => { x with mu := { x.mu with slice := memWriteN x.mu.slice 0x1000 (hdrBytes { lines := 1, chan := 31 } true) }, seq := { x.seq with pending := [(31, 0)] } })).adv (0)).fetched (0)).takeMsg 0 31)).2, ((xs (xw 0 3 3 1 0) 31 0 fun x => (Site.word x (chanUnit 31) (1 + 2 ^ 4 * 0x1000 + 2 ^ 24 * 4)).modChan 31 fun c => { c with present := [0] }).modSite 0 fun x => { x with mu := { x.mu with slice := memWriteN x.mu.slice 0x1000 (hdrBytes { lines := 1, chan := 31 } true) }, seq := { x.seq with pending := [(31, 0)] } }), ((xw 0 3 3 1 0)), meetsX (by decide +kernel) (by beta_reduce; decide +kernel)⟩,
    ⟨0, 0, (xs (xw 0 3 3 1 0) 31 0 id), ((xw 0 3 3 1 0)), meetsX (by decide +kernel) (by beta_reduce; decide +kernel)⟩,
    ⟨0, 0, ((xs (xw 0 3 3 1 0) 31 0 id).modSite 0 fun x => { x with seq := { x.seq with hand := { live := true, pc := 0x1BA000 }, ctx := 32 } }), ((xw 0 3 3 1 0)), meetsX (by decide +kernel) (by beta_reduce; decide +kernel)⟩,
    ⟨0, 0, (xs (xw 0 4 0 1 0) 31 0 id), ((xw 0 4 0 1 0)), meetsX (by decide +kernel) (by beta_reduce; decide +kernel)⟩,
    ⟨0, 0, ((xs (xw 0 4 0 1 0) 31 0 id).modSite 0 fun x => { x with seq := { x.seq with hand := { live := true, pc := 0x1BA000 }, ctx := 32 } }), ((xw 0 4 0 1 0)), meetsX (by decide +kernel) (by beta_reduce; decide +kernel)⟩⟩

/-- Witnesses of `PortRowsAct`: for each clause a state and operands that meet its hypotheses, part 1. -/
theorem test_PortRowsAct_meets :
    (∃ t : Nat, ∃ k : Nat, ∃ (s_ : State) (w : Nat), MeetsX t k .putw s_ w (fun s c => (s.site k).inCode ((s.site k).unit seqUnit).epoch 1 (bitsN c.x.a.toNat 0 2) = 8 ∧
      (s.site k).room seqUnit (.inj 1 (bitsN c.x.a.toNat 0 2)) 1 = true)) ∧
    (∃ t : Nat, ∃ k : Nat, ∃ (s_ : State) (w : Nat), MeetsX t k .putt s_ w (fun s c => bitsN c.x.b.toNat 0 4 ≠ 0xF ∧ (s.site k).inCode ((s.site k).unit seqUnit).epoch 2 (bitsN c.x.a.toNat 0 2) = 8 ∧
      (s.site k).room seqUnit (.inj 2 (bitsN c.x.a.toNat 0 2)) 1 = true)) ∧
    (∃ t : Nat, ∃ k : Nat, ∃ (s_ : State) (w : Nat), MeetsX t k .putt s_ w (fun _ c => bitsN c.x.b.toNat 0 4 = 0xF)) ∧
    (∃ t : Nat, ∃ k : Nat, ∃ (s_ : State) (w : Nat), MeetsX t k .putv s_ w (fun s c =>
      let y := (s.seqRead k c.x.b.toNat 64).site k
      c.x.b.toNat % 64 = 0 ∧ (s.site k).mayLoad c.x.b.toNat 64 = true ∧ y.inCode (y.unit seqUnit).epoch 0 (bitsN c.x.a.toNat 0 2) = 8 ∧
        y.room seqUnit (.inj 0 (bitsN c.x.a.toNat 0 2)) 1 = true)) ∧
    (∃ t : Nat, ∃ k : Nat, ∃ (s_ : State) (w : Nat), MeetsX t k .putv s_ w (fun _ c => c.x.b.toNat % 64 ≠ 0)) ∧
    (∃ t : Nat, ∃ k : Nat, ∃ (s_ : State) (w : Nat), MeetsX t k .putv s_ w (fun s c => c.x.b.toNat % 64 = 0 ∧ (s.site k).mayLoad c.x.b.toNat 64 = false)) ∧
    (∃ t : Nat, ∃ k : Nat, ∃ e : Elem, ∃ s1, ∃ (s_ : State) (w : Nat), MeetsX t k .getw s_ w (fun s c => (s.site k).ejCode ((s.site k).unit seqUnit).epoch 1 (bitsN c.x.a.toNat 0 3) = 7 ∧
      (s.site k).ownsIn seqUnit (.ej 1 (bitsN c.x.a.toNat 0 3)) = true ∧ s.takeEj k 1 (bitsN c.x.a.toNat 0 3) = some (e, s1) ∧ e.eve = false)) ∧
    (∃ t : Nat, ∃ k : Nat, ∃ (s_ : State) (w : Nat), MeetsX t k .getw s_ w (fun s c => s.takeEj k 1 (bitsN c.x.a.toNat 0 3) = none ∧ (s.site k).seq.bank.wait = none)) ∧
    (∃ t : Nat, ∃ k : Nat, ∃ e : Elem, ∃ s1, ∃ (s_ : State) (w : Nat), MeetsX t k .getw s_ w (fun s c => (s.site k).ejCode ((s.site k).unit seqUnit).epoch 1 (bitsN c.x.a.toNat 0 3) = 7 ∧
      (s.site k).ownsIn seqUnit (.ej 1 (bitsN c.x.a.toNat 0 3)) = true ∧ s.takeEj k 1 (bitsN c.x.a.toNat 0 3) = some (e, s1) ∧ e.eve = true)) :=
  ⟨⟨0, 0, (xs (xw 1 0 0 1 2) 3 0xFFFFFFFF fun x => (Site.word x (0x050 + 1) (2 ^ (32 + 4 * 3) * 8)).modIn 1 3 fun p => { p with credit := 1 }), ((xw 1 0 0 1 2)), meetsX (by decide +kernel) (by beta_reduce; decide +kernel)⟩,
    ⟨0, 0, (xs (xw 1 2 0 1 2) 3 0xE fun x => (Site.word x (0x050 + 2) (2 ^ (32 + 4 * 3) * 8)).modIn 2 3 fun p => { p with credit := 1 }), ((xw 1 2 0 1 2)), meetsX (by decide +kernel) (by beta_reduce; decide +kernel)⟩,
    ⟨0, 0, (xs (xw 1 2 0 1 2) 3 0xF fun x => (Site.word x (0x050 + 2) (2 ^ (32 + 4 * 3) * 8)).modIn 2 3 fun p => { p with credit := 1 }), ((xw 1 2 0 1 2)), meetsX (by decide +kernel) (by beta_reduce; decide +kernel)⟩,
    ⟨0, 0, (xs (xw 1 4 0 1 2) 3 0x1BFFC0 fun x => (Site.word x (0x050 + 0) (2 ^ (32 + 4 * 3) * 8)).modIn 0 3 fun p => { p with credit := 1 }), ((xw 1 4 0 1 2)), meetsX (by decide +kernel) (by beta_reduce; decide +kernel)⟩,
    ⟨0, 0, (xs (xw 1 4 0 1 2) 3 0x100001 fun x => (Site.word x (0x050 + 0) (2 ^ (32 + 4 * 3) * 8)).modIn 0 3 fun p => { p with credit := 1 }), ((xw 1 4 0 1 2)), meetsX (by decide +kernel) (by beta_reduce; decide +kernel)⟩,
    ⟨0, 0, (xs (xw 1 4 0 1 2) 3 0x1C0000 fun x => (Site.word x (0x050 + 0) (2 ^ (32 + 4 * 3) * 8)).modIn 0 3 fun p => { p with credit := 1 }), ((xw 1 4 0 1 2)), meetsX (by decide +kernel) (by beta_reduce; decide +kernel)⟩,
    ⟨0, 0, { data := 9 }, (optE (((((xs (xw 1 1 3 1 0) 7 0 fun x => (Site.word x (0x050 + 1) (2 ^ (4 * 7) * 7)).modEj 1 7 fun p => { p with fifo := [{ data := 9 }] })).adv (0)).fetched (0)).takeEj 0 1 7)).2, (xs (xw 1 1 3 1 0) 7 0 fun x => (Site.word x (0x050 + 1) (2 ^ (4 * 7) * 7)).modEj 1 7 fun p => { p with fifo := [{ data := 9 }] }), ((xw 1 1 3 1 0)), meetsX (by decide +kernel) (by beta_reduce; decide +kernel)⟩,
    ⟨0, 0, (xs (xw 1 1 3 1 0) 7 0 fun x => (Site.word x (0x050 + 1) (2 ^ (4 * 7) * 7)).modEj 1 7 fun p => { p with fifo := [] }), ((xw 1 1 3 1 0)), meetsX (by decide +kernel) (by beta_reduce; decide +kernel)⟩,
    ⟨0, 0, eveTok 1, (optE (((((xs (xw 1 1 3 1 0) 7 0 fun x => (Site.word x (0x050 + 1) (2 ^ (4 * 7) * 7)).modEj 1 7 fun p => { p with fifo := [eveTok 1] })).adv (0)).fetched (0)).takeEj 0 1 7)).2, (xs (xw 1 1 3 1 0) 7 0 fun x => (Site.word x (0x050 + 1) (2 ^ (4 * 7) * 7)).modEj 1 7 fun p => { p with fifo := [eveTok 1] }), ((xw 1 1 3 1 0)), meetsX (by decide +kernel) (by beta_reduce; decide +kernel)⟩⟩

/-- Witnesses of `PortRowsAct`: for each clause a state and operands that meet its hypotheses, part 2. -/
theorem test_PortRowsAct_meets_2 :
    (∃ t : Nat, ∃ k : Nat, ∃ e : Elem, ∃ s1, ∃ (s_ : State) (w : Nat), MeetsX t k .gett s_ w (fun s c => (s.site k).ejCode ((s.site k).unit seqUnit).epoch 2 (bitsN c.x.a.toNat 0 3) = 7 ∧
      (s.site k).ownsIn seqUnit (.ej 2 (bitsN c.x.a.toNat 0 3)) = true ∧ s.takeEj k 2 (bitsN c.x.a.toNat 0 3) = some (e, s1) ∧ e.eve = false)) ∧
    (∃ t : Nat, ∃ k : Nat, ∃ e : Elem, ∃ s1, ∃ (s_ : State) (w : Nat), MeetsX t k .getv s_ w (fun s c => c.x.b.toNat % 64 = 0 ∧ (s.site k).mayStore c.x.b.toNat 64 = true ∧
      (s.site k).ejCode ((s.site k).unit seqUnit).epoch 0 (bitsN c.x.a.toNat 0 3) = 7 ∧
      (s.site k).ownsIn seqUnit (.ej 0 (bitsN c.x.a.toNat 0 3)) = true ∧ s.takeEj k 0 (bitsN c.x.a.toNat 0 3) = some (e, s1) ∧ e.eve = false)) ∧
    (∃ t : Nat, ∃ k : Nat, ∃ (s_ : State) (w : Nat), MeetsX t k .getv s_ w (fun _ c => c.x.b.toNat % 64 ≠ 0)) ∧
    (∃ t : Nat, ∃ k : Nat, ∃ (s_ : State) (w : Nat), MeetsX t k .getv s_ w (fun s c => c.x.b.toNat % 64 = 0 ∧ (s.site k).mayStore c.x.b.toNat 64 = false)) ∧
    (∃ t : Nat, ∃ k : Nat, ∃ (s_ : State) (w : Nat), MeetsX t k .ephase s_ w (fun s c => c.x.ctx = 0 ∧ (s.site k).seq.ephase = false ∧
      (∀ o ∈ (s.site k).outputs seqUnit, (s.site k).room seqUnit o (eveCost o) = true))) ∧
    (∃ t : Nat, ∃ k : Nat, ∃ (s_ : State) (w : Nat), MeetsX t k .ephase s_ w (fun _ c => c.x.ctx ≠ 0)) :=
  ⟨⟨0, 0, { data := 9 }, (optE (((((xs (xw 1 3 3 1 0) 7 0 fun x => (Site.word x (0x050 + 2) (2 ^ (4 * 7) * 7)).modEj 2 7 fun p => { p with fifo := [{ data := 9 }] })).adv (0)).fetched (0)).takeEj 0 2 7)).2, (xs (xw 1 3 3 1 0) 7 0 fun x => (Site.word x (0x050 + 2) (2 ^ (4 * 7) * 7)).modEj 2 7 fun p => { p with fifo := [{ data := 9 }] }), ((xw 1 3 3 1 0)), meetsX (by decide +kernel) (by beta_reduce; decide +kernel)⟩,
    ⟨0, 0, { data := 9 }, (optE (((((xs (xw 1 5 0 1 2) 7 0x1BFFC0 fun x => (Site.word x (0x050 + 0) (2 ^ (4 * 7) * 7)).modEj 0 7 fun p => { p with fifo := [{ data := 9 }] })).adv (0)).fetched (0)).takeEj 0 0 7)).2, (xs (xw 1 5 0 1 2) 7 0x1BFFC0 fun x => (Site.word x (0x050 + 0) (2 ^ (4 * 7) * 7)).modEj 0 7 fun p => { p with fifo := [{ data := 9 }] }), ((xw 1 5 0 1 2)), meetsX (by decide +kernel) (by beta_reduce; decide +kernel)⟩,
    ⟨0, 0, (xs (xw 1 5 0 1 2) 7 0x10003F fun x => (Site.word x (0x050 + 0) (2 ^ (4 * 7) * 7)).modEj 0 7 fun p => { p with fifo := [{ data := 9 }] }), ((xw 1 5 0 1 2)), meetsX (by decide +kernel) (by beta_reduce; decide +kernel)⟩,
    ⟨0, 0, (xs (xw 1 5 0 1 2) 7 0x1C0000 fun x => (Site.word x (0x050 + 0) (2 ^ (4 * 7) * 7)).modEj 0 7 fun p => { p with fifo := [{ data := 9 }] }), ((xw 1 5 0 1 2)), meetsX (by decide +kernel) (by beta_reduce; decide +kernel)⟩,
    ⟨0, 0, (xs (xw 1 6 0 0 0) 0 0 id), ((xw 1 6 0 0 0)), meetsX (by decide +kernel) (by beta_reduce; decide +kernel)⟩,
    ⟨0, 0, ((xs (xw 1 6 0 0 0) 0 0 id).modSite 0 fun x => { x with seq := { x.seq with hand := { live := true, pc := 0x1BA000 }, ctx := 32 } }), ((xw 1 6 0 0 0)), meetsX (by decide +kernel) (by beta_reduce; decide +kernel)⟩⟩

/-- Witnesses of `SignalRowsAct`: for each clause a state and operands that meet its hypotheses, part 1. -/
theorem test_SignalRowsAct_meets :
    (∃ t : Nat, ∃ k : Nat, ∃ (s_ : State) (w : Nat), MeetsX t k .sigraise s_ w (fun _ _ => True)) ∧
    (∃ t : Nat, ∃ k : Nat, ∃ (s_ : State) (w : Nat), MeetsX t k .sigwait s_ w (fun s c => c.x.b ≤ (s.site k).signal (bitsN c.x.a.toNat 0 6))) ∧
    (∃ t : Nat, ∃ k : Nat, ∃ (s_ : State) (w : Nat), MeetsX t k .sigwait s_ w (fun s c => (s.site k).signal (bitsN c.x.a.toNat 0 6) < c.x.b ∧ (s.site k).seq.bank.wait = none)) ∧
    (∃ t : Nat, ∃ k : Nat, ∃ (s_ : State) (w : Nat), MeetsX t k .sigwaitl s_ w (fun s c => c.x.b ≤ (s.site k).signal (bitsN c.x.a.toNat 0 6))) ∧
    (∃ t : Nat, ∃ k : Nat, ∃ (s_ : State) (w : Nat), MeetsX t k .sigwaitl s_ w (fun s c => (s.site k).signal (bitsN c.x.a.toNat 0 6) < c.x.b ∧ (s.site k).seq.bank.wait = none)) ∧
    (∃ t : Nat, ∃ k : Nat, ∃ (s_ : State) (w : Nat), MeetsX t k .sigsub s_ w (fun s c => c.x.b ≤ (s.site k).signal (bitsN c.x.a.toNat 0 6))) ∧
    (∃ t : Nat, ∃ k : Nat, ∃ (s_ : State) (w : Nat), MeetsX t k .sigsub s_ w (fun s c => (s.site k).signal (bitsN c.x.a.toNat 0 6) < c.x.b)) ∧
    (∃ t : Nat, ∃ k : Nat, ∃ (s_ : State) (w : Nat), MeetsX t k .sigread s_ w (fun _ _ => True)) ∧
    (∃ t : Nat, ∃ k : Nat, ∃ d : BarDef, ∃ (s_ : State) (w : Nat), MeetsX t k .barrive s_ w (fun s c => s.barrier k (bitsN c.x.a.toNat 0 6) = some d ∧
      ((s.site k).bar (bitsN c.x.a.toNat 0 6)).a = ((s.site k).bar (bitsN c.x.a.toNat 0 6)).c)) :=
  ⟨⟨0, 0, (xs (xw 2 0 0 1 2) 63 0xFFFFFFFF fun x => { x with signals := [(63, 1)] }), ((xw 2 0 0 1 2)), meetsX (by decide +kernel) (by beta_reduce; decide +kernel)⟩,
    ⟨0, 0, (xs (xw 2 1 0 1 2) 63 5 fun x => { x with signals := [(63, 5)] }), ((xw 2 1 0 1 2)), meetsX (by decide +kernel) (by beta_reduce; decide +kernel)⟩,
    ⟨0, 0, (xs (xw 2 1 0 1 2) 63 5 fun x => { x with signals := [(63, 4)] }), ((xw 2 1 0 1 2)), meetsX (by decide +kernel) (by beta_reduce; decide +kernel)⟩,
    ⟨0, 0, (xs (xw 2 2 0 1 2) 63 5 fun x => { x with signals := [(63, 5)] }), ((xw 2 2 0 1 2)), meetsX (by decide +kernel) (by beta_reduce; decide +kernel)⟩,
    ⟨0, 0, (xs (xw 2 2 0 1 2) 63 5 fun x => { x with signals := [(63, 4)] }), ((xw 2 2 0 1 2)), meetsX (by decide +kernel) (by beta_reduce; decide +kernel)⟩,
    ⟨0, 0, (xs (xw 2 3 0 1 2) 63 5 fun x => { x with signals := [(63, 5)] }), ((xw 2 3 0 1 2)), meetsX (by decide +kernel) (by beta_reduce; decide +kernel)⟩,
    ⟨0, 0, (xs (xw 2 3 0 1 2) 63 5 fun x => { x with signals := [(63, 4)] }), ((xw 2 3 0 1 2)), meetsX (by decide +kernel) (by beta_reduce; decide +kernel)⟩,
    ⟨0, 0, (xs (xw 2 4 3 1 0) 63 0 fun x => { x with signals := [(63, 5)] }), ((xw 2 4 3 1 0)), meetsX (by decide +kernel) (by beta_reduce; decide +kernel)⟩,
    ⟨0, 0, { id := 63, members := [0] }, (((xs (xw 3 0 0 1 0) 63 0 fun x => x).modPart 0 fun p => { p with ordo := some { phases := [{}], barriers := [{ id := 63, members := [0] }] } })), ((xw 3 0 0 1 0)), meetsX (by decide +kernel) (by beta_reduce; decide +kernel)⟩⟩

/-- Witnesses of `SignalRowsAct`: for each clause a state and operands that meet its hypotheses, part 2. -/
theorem test_SignalRowsAct_meets_2 :
    (∃ t : Nat, ∃ k : Nat, ∃ (s_ : State) (w : Nat), MeetsX t k .barrive s_ w (fun s c => s.barrier k (bitsN c.x.a.toNat 0 6) = none)) ∧
    (∃ t : Nat, ∃ k : Nat, ∃ d : BarDef, ∃ (s_ : State) (w : Nat), MeetsX t k .barrive s_ w (fun s c => s.barrier k (bitsN c.x.a.toNat 0 6) = some d ∧ (s.site k).seq.bank.wait = none ∧
      ((s.site k).bar (bitsN c.x.a.toNat 0 6)).a ≠ ((s.site k).bar (bitsN c.x.a.toNat 0 6)).c)) ∧
    (∃ t : Nat, ∃ k : Nat, ∃ d : BarDef, ∃ (s_ : State) (w : Nat), MeetsX t k .barwait s_ w (fun s c => s.barrier k (bitsN c.x.a.toNat 0 6) = some d ∧
      ((s.site k).bar (bitsN c.x.a.toNat 0 6)).c = ((s.site k).bar (bitsN c.x.a.toNat 0 6)).a)) ∧
    (∃ t : Nat, ∃ k : Nat, ∃ d : BarDef, ∃ (s_ : State) (w : Nat), MeetsX t k .barwait s_ w (fun s c => s.barrier k (bitsN c.x.a.toNat 0 6) = some d ∧ (s.site k).seq.bank.wait = none ∧
      ((s.site k).bar (bitsN c.x.a.toNat 0 6)).c ≠ ((s.site k).bar (bitsN c.x.a.toNat 0 6)).a)) ∧
    (∃ t : Nat, ∃ k : Nat, ∃ (s_ : State) (w : Nat), MeetsX t k .barwait s_ w (fun s c => s.barrier k (bitsN c.x.a.toNat 0 6) = none)) ∧
    (∃ t : Nat, ∃ k : Nat, ∃ (s_ : State) (w : Nat), MeetsX t k .fence s_ w (fun s _ => (s.site k).seq.unacked = 0 ∧ ∀ q i, OutRef.inj q i ∈ (s.site k).outputs seqUnit → ((s.site k).inPort q i).outq = [])) ∧
    (∃ t : Nat, ∃ k : Nat, ∃ (s_ : State) (w : Nat), MeetsX t k .fence s_ w (fun s _ => (s.site k).seq.bank.wait = none ∧ ((s.site k).seq.unacked ≠ 0 ∨
      ∃ q i, OutRef.inj q i ∈ (s.site k).outputs seqUnit ∧ ((s.site k).inPort q i).outq ≠ []))) ∧
    (∃ t : Nat, ∃ k : Nat, ∃ (s_ : State) (w : Nat), MeetsX t k .semset s_ w (fun s _ => (s.site k).seq.compat = true)) ∧
    (∃ t : Nat, ∃ k : Nat, ∃ (s_ : State) (w : Nat), MeetsX t k .semclr s_ w (fun s _ => (s.site k).seq.compat = true)) :=
  ⟨⟨0, 0, (xs (xw 3 0 0 1 0) 63 0 id), ((xw 3 0 0 1 0)), meetsX (by decide +kernel) (by beta_reduce; decide +kernel)⟩,
    ⟨0, 0, { id := 63, members := [0] }, (((xs (xw 3 0 0 1 0) 63 0 fun x => { x with bars := [(63, { a := 1 })] }).modPart 0 fun p => { p with ordo := some { phases := [{}], barriers := [{ id := 63, members := [0] }] } })), ((xw 3 0 0 1 0)), meetsX (by decide +kernel) (by beta_reduce; decide +kernel)⟩,
    ⟨0, 0, { id := 63, members := [0] }, (((xs (xw 3 1 0 1 0) 63 0 fun x => x).modPart 0 fun p => { p with ordo := some { phases := [{}], barriers := [{ id := 63, members := [0] }] } })), ((xw 3 1 0 1 0)), meetsX (by decide +kernel) (by beta_reduce; decide +kernel)⟩,
    ⟨0, 0, { id := 63, members := [0] }, (((xs (xw 3 1 0 1 0) 63 0 fun x => { x with bars := [(63, { a := 1 })] }).modPart 0 fun p => { p with ordo := some { phases := [{}], barriers := [{ id := 63, members := [0] }] } })), ((xw 3 1 0 1 0)), meetsX (by decide +kernel) (by beta_reduce; decide +kernel)⟩,
    ⟨0, 0, (xs (xw 3 1 0 1 0) 63 0 id), ((xw 3 1 0 1 0)), meetsX (by decide +kernel) (by beta_reduce; decide +kernel)⟩,
    ⟨0, 0, (xs (xw 3 2 0 0 0) 0 0 id), ((xw 3 2 0 0 0)), meetsX (by decide +kernel) (by
    refine ⟨by decide +kernel, fun q i h => ?_⟩
    have h0 : ((((xs (xw 3 2 0 0 0) 0 0 id).adv 0).fetched 0).site 0).outputs seqUnit = [] := by decide +kernel
    rw [h0] at h; cases h)⟩,
    ⟨0, 0, ((xs (xw 3 2 0 0 0) 0 0 id).modSite 0 fun x => { x with seq := { x.seq with unacked := 1 } }), ((xw 3 2 0 0 0)), meetsX (by decide +kernel) ⟨by decide +kernel, Or.inl (by decide +kernel)⟩⟩,
    ⟨0, 0, ((xs (xw 6 0 0 1 0) 15 0 id).modSite 0 fun x => { x with sem := 0, seq := { x.seq with compat := true } }), ((xw 6 0 0 1 0)), meetsX (by decide +kernel) (by beta_reduce; decide +kernel)⟩,
    ⟨0, 0, ((xs (xw 6 1 0 1 0) 15 0 id).modSite 0 fun x => { x with sem := 0x8000, seq := { x.seq with compat := true } }), ((xw 6 1 0 1 0)), meetsX (by decide +kernel) (by beta_reduce; decide +kernel)⟩⟩

/-- Witnesses of `SignalRowsAct`: for each clause a state and operands that meet its hypotheses, part 3. -/
theorem test_SignalRowsAct_meets_3 :
    (∃ t : Nat, ∃ k : Nat, ∃ (s_ : State) (w : Nat), MeetsX t k .semwait s_ w (fun s c => (s.site k).seq.compat = true ∧ bitAt (s.site k).sem (bitsN c.x.a.toNat 0 4) = true)) ∧
    (∃ t : Nat, ∃ k : Nat, ∃ (s_ : State) (w : Nat), MeetsX t k .semwait s_ w (fun s c => (s.site k).seq.compat = true ∧ (s.site k).seq.bank.wait = none ∧ bitAt (s.site k).sem (bitsN c.x.a.toNat 0 4) = false)) ∧
    (∃ t : Nat, ∃ k : Nat, ∃ (s_ : State) (w : Nat), MeetsX t k .semset s_ w (fun s _ => (s.site k).seq.compat = false)) ∧
    (∃ t : Nat, ∃ k : Nat, ∃ (s_ : State) (w : Nat), MeetsX t k .semclr s_ w (fun s _ => (s.site k).seq.compat = false)) ∧
    (∃ t : Nat, ∃ k : Nat, ∃ (s_ : State) (w : Nat), MeetsX t k .semwait s_ w (fun s _ => (s.site k).seq.compat = false)) :=
  ⟨⟨0, 0, ((xs (xw 6 2 0 1 0) 15 0 id).modSite 0 fun x => { x with sem := 0x8000, seq := { x.seq with compat := true } }), ((xw 6 2 0 1 0)), meetsX (by decide +kernel) (by beta_reduce; decide +kernel)⟩,
    ⟨0, 0, ((xs (xw 6 2 0 1 0) 15 0 id).modSite 0 fun x => { x with sem := 0, seq := { x.seq with compat := true } }), ((xw 6 2 0 1 0)), meetsX (by decide +kernel) (by beta_reduce; decide +kernel)⟩,
    ⟨0, 0, ((xs (xw 6 0 0 1 0) 15 0 id).modSite 0 fun x => { x with sem := 0, seq := { x.seq with compat := false } }), ((xw 6 0 0 1 0)), meetsX (by decide +kernel) (by beta_reduce; decide +kernel)⟩,
    ⟨0, 0, ((xs (xw 6 1 0 1 0) 15 0 id).modSite 0 fun x => { x with sem := 0, seq := { x.seq with compat := false } }), ((xw 6 1 0 1 0)), meetsX (by decide +kernel) (by beta_reduce; decide +kernel)⟩,
    ⟨0, 0, ((xs (xw 6 2 0 1 0) 15 0 id).modSite 0 fun x => { x with sem := 0, seq := { x.seq with compat := false } }), ((xw 6 2 0 1 0)), meetsX (by decide +kernel) (by beta_reduce; decide +kernel)⟩⟩

/-- Witnesses of `WaitRowsAct`: for each clause a state and operands that meet its hypotheses. -/
theorem test_WaitRowsAct_meets :
    (∃ t : Nat, ∃ k : Nat, ∃ w : Nat, ∃ len : Nat, ∃ op : XOp, ∃ s_ : State, ((fun s => s.seqRuns k = true ∧ (s.site k).seq.bank.wait.isSome = true ∧ (s.site k).fetch = .word w len ∧ xDecode w = some op ∧
      (xTry op s k ((s.site k).xArgs w)).goesOn = true)) (s_.adv t)) ∧
    (∃ t : Nat, ∃ k : Nat, ∃ w : Nat, ∃ len : Nat, ∃ s_ : State, ((fun s => s.seqRuns k = true ∧ (s.site k).seq.bank.wait.isSome = true ∧ (s.site k).fetch = .word w len ∧ xDecode w = some .sigwait ∧
      ((s.site k).xArgs w).b ≤ (s.site k).signal (bitsN ((s.site k).xArgs w).a.toNat 0 6))) (s_.adv t)) ∧
    (∃ t : Nat, ∃ k : Nat, ∃ s_ : State, ((fun s => s.siteWorks k seqUnit = true ∧ (s.site k).seq.bank.wait.isSome = true)) (s_.adv t)) ∧
    (∃ t : Nat, ∃ k : Nat, ∃ s_ : State, ((fun _ => True)) (s_.adv t)) :=
  ⟨⟨0, 0, (xw 2 1 0 1 2), 4, .sigwait, ((xs (xw 2 1 0 1 2) 63 5 fun x => { x with signals := [(63, 5)] }).modSite 0 fun x => { x with seq := { x.seq with main := { x.seq.main with wait := some { kind := .sigwait, arg := 63 } } } }), by beta_reduce; decide +kernel⟩,
    ⟨0, 0, (xw 2 1 0 1 2), 4, ((xs (xw 2 1 0 1 2) 63 5 fun x => { x with signals := [(63, 5)] }).modSite 0 fun x => { x with seq := { x.seq with main := { x.seq.main with wait := some { kind := .sigwait, arg := 63 } } } }), by beta_reduce; decide +kernel⟩,
    ⟨0, 0, (((xs 0 0 0 fun x => x).modSite 0 fun x => { x with seq := { x.seq with main := { x.seq.main with wait := some { kind := .recv } } } })), by beta_reduce; decide +kernel⟩,
    ⟨0, 0, (up), by beta_reduce; decide +kernel⟩⟩

/-- Witnesses of `DramRowsAct`: for each clause a state and operands that meet its hypotheses, part 1. -/
theorem test_DramRowsAct_meets :
    (∃ t : Nat, ∃ ch : Nat, ∃ pr : Bool, ∃ dis : Bool, ∃ spd : DdrSpd, ∃ n : Nat, ∃ test : DdrTest, ∃ s_ : State, ((fun s => (s.chan ch).st = .training ∧ pr = true ∧ dis = false ∧ ddrSupported spd.rate spd.capacity = true ∧ n < 2 ∧
      test.corrected ≤ 64 ∧ test.uncorrectable = 0)) (s_.adv t)) ∧
    (∃ t : Nat, ∃ ch : Nat, ∃ pr : Bool, ∃ dis : Bool, ∃ spd : DdrSpd, ∃ n : Nat, ∃ test : DdrTest, ∃ s_ : State, ((fun s => (s.chan ch).st = .training ∧ pr = true ∧ ddrCause dis spd n test ≠ 0)) (s_.adv t)) ∧
    (∃ t : Nat, ∃ ch : Nat, ∃ pr : Bool, ∃ dis : Bool, ∃ spd : DdrSpd, ∃ n : Nat, ∃ test : DdrTest, ∃ s_ : State, ((fun s => (s.chan ch).st = .training ∧ pr = false)) (s_.adv t)) ∧
    (∃ t : Nat, ∃ ch : Nat, ∃ s_ : State, ((fun _ => True)) (s_.adv t)) ∧
    (∃ t : Nat, ∃ l : Nat, ∃ s_ : State, ((fun s => l ∈ s.mem.mapBad ∧ s.journalReads l = true)) (s_.adv t)) ∧
    (∃ t : Nat, ∃ a : Nat, ∃ e : Nat, ∃ s_ : State, ((fun s => (s.chan (ppnChan (a / pageBytes))).st = .up ∧ a / pageBytes % 1048576 < (s.chan (ppnChan (a / pageBytes))).capacity * 4096)) (s_.adv t)) ∧
    (∃ t : Nat, ∃ die : Nat, ∃ m : Migration, ∃ s_ : State, ((fun s => Tbl.get none s.mem.mig die = some m ∧ (s.chan (ppnChan m.oldPpn)).st = .up ∧ (s.chan (ppnChan m.newPpn)).st = .up ∧
      (s.mem.bad.find? fun c => decide (pageBytes * m.oldPpn + 4096 * m.done ≤ 64 * c ∧ 64 * c < pageBytes * m.oldPpn + 4096 * m.done + 4096)) = none)) (s_.adv t)) ∧
    (∃ t : Nat, ∃ die : Nat, ∃ m : Migration, ∃ u, ∃ c : Nat, ∃ s_ : State, ((fun s => Tbl.get none s.mem.mig die = some m ∧ (s.chan (ppnChan m.oldPpn)).st = .up ∧ (s.chan (ppnChan m.newPpn)).st = .up ∧
      ((s.markBad (pageBytes * m.oldPpn + 4096 * m.done + 64 * (u % 64))).mem.bad.find? fun c =>
        decide (pageBytes * m.oldPpn + 4096 * m.done ≤ 64 * c ∧ 64 * c < pageBytes * m.oldPpn + 4096 * m.done + 4096)) = some c)) (s_.adv t)) ∧
    (∃ t : Nat, ∃ die : Nat, ∃ m : Migration, ∃ u : Nat, ∃ s_ : State, ((fun s => Tbl.get none s.mem.mig die = some m ∧ (s.chan (ppnChan m.oldPpn)).st = .up ∧ (s.chan (ppnChan m.newPpn)).st = .up ∧
      ((pageBytes * m.oldPpn + 4096 * m.done + 64 * (u % 64)) / 64) ∉ s.mem.bad ∧
      ((s.ddrCe (pageBytes * m.oldPpn + 4096 * m.done + 64 * (u % 64)) 2).mem.bad.find? fun c =>
        decide (pageBytes * m.oldPpn + 4096 * m.done ≤ 64 * c ∧ 64 * c < pageBytes * m.oldPpn + 4096 * m.done + 4096)) = none ∧ m.done < 63)) (s_.adv t)) :=
  ⟨⟨0, 0, true, false, {}, 1, { corrected := 64 }, ({ up with mem := { up.mem with chans := [(0, { st := .training })] } }), by beta_reduce; decide +kernel⟩,
    ⟨0, 0, true, false, {}, 0, { corrected := 65 }, ({ up with mem := { up.mem with chans := [(0, { st := .training })] } }), by beta_reduce; decide +kernel⟩,
    ⟨0, 0, false, false, {}, 0, {}, ({ up with mem := { up.mem with chans := [(0, { st := .training })] } }), by beta_reduce; decide +kernel⟩,
    ⟨0, 0, (up), by beta_reduce; decide +kernel⟩,
    ⟨0, 7, ({ up with mem := { up.mem with mapBad := [7] } }), by beta_reduce; decide +kernel⟩,
    ⟨0, 0, 2, (up), by beta_reduce; decide +kernel⟩,
    ⟨0, 0, { page := 1, oldPpn := 1, newPpn := 2, done := 5 }, ({ up with mem := { up.mem with mig := [(0, some { page := 1, oldPpn := 1, newPpn := 2, done := 5 })], bad := [] } }), by beta_reduce; decide +kernel⟩,
    ⟨0, 0, { page := 1, oldPpn := 1, newPpn := 2, done := 5 }, 63, 4096 + 64 * 5 + 63, ({ up with mem := { up.mem with mig := [(0, some { page := 1, oldPpn := 1, newPpn := 2, done := 5 })], bad := [] } }), by beta_reduce; decide +kernel⟩,
    ⟨0, 0, { page := 1, oldPpn := 1, newPpn := 2, done := 62 }, 63, ({ up with mem := { up.mem with chans := up.mem.chans, mig := [(0, some { page := 1, oldPpn := 1, newPpn := 2, done := 62 })], bad := [] } }), by beta_reduce; decide +kernel⟩⟩

/-- Witnesses of `DramRowsAct`: for each clause a state and operands that meet its hypotheses, part 2. -/
theorem test_DramRowsAct_meets_2 :
    (∃ t : Nat, ∃ die : Nat, ∃ m : Migration, ∃ e : Option (Nat × Nat), ∃ s_ : State, ((fun s => Tbl.get none s.mem.mig die = some m ∧ ((s.chan (ppnChan m.oldPpn)).st ≠ .up ∨ (s.chan (ppnChan m.newPpn)).st ≠ .up))) (s_.adv t)) ∧
    (∃ t : Nat, ∃ pkt : Packet, ∃ ecc : Nat, ∃ mapEcc : Nat, ∃ word : Nat, ∃ port : Option Nat, ∃ s_ : State, ((fun s => (pkt.kind = .readReq ∨ pkt.kind = .write) ∧ (s.mapEcc (bitsN pkt.addr 18 24) mapEcc).pageCheck pkt port ≠ 0)) (s_.adv t)) ∧
    (∃ t : Nat, ∃ pkt : Packet, ∃ ecc : Nat, ∃ mapEcc : Nat, ∃ word : Nat, ∃ port : Option Nat, ∃ s_ : State, ((fun s => pkt.kind = .readReq ∧ (s.mapEcc (bitsN pkt.addr 18 24) mapEcc).pageCheck pkt port = 0)) (s_.adv t)) ∧
    (∃ t : Nat, ∃ pkt : Packet, ∃ ecc : Nat, ∃ mapEcc : Nat, ∃ word : Nat, ∃ port : Option Nat, ∃ s_ : State, ((fun s => let s1 := s.mapEcc (bitsN pkt.addr 18 24) mapEcc
      pkt.kind = .write ∧ s1.pageCheck pkt port = 0 ∧
        ((s1.pageAcc pkt).src ≠ 0 ∨ (s1.pageNote pkt).closedTally (bitsN pkt.addr 18 24) = false))) (s_.adv t)) ∧
    (∃ t : Nat, ∃ pkt : Packet, ∃ ecc : Nat, ∃ mapEcc : Nat, ∃ word : Nat, ∃ port : Option Nat, ∃ s_ : State, ((fun s => let s1 := s.mapEcc (bitsN pkt.addr 18 24) mapEcc
      pkt.kind = .write ∧ s1.pageCheck pkt port = 0 ∧ (s1.pageAcc pkt).src = 0 ∧
        (s1.pageNote pkt).closedTally (bitsN pkt.addr 18 24) = true)) (s_.adv t)) ∧
    (∃ t : Nat, ∃ hpa : Nat, ∃ a, ∃ len : Nat, ∃ ecc : CxlEcc, ∃ s_ : State, ((fun s => s.hdmAddr hpa = some a ∧
      (s.mapEcc (bitsN a 18 24) ecc.map).accCause { addr := a, len, src := 2, dev := s.hub.devId, part := 0xFF } 0 none (fun _ => false) = 0)) (s_.adv t)) ∧
    (∃ t : Nat, ∃ hpa : Nat, ∃ a, ∃ len : Nat, ∃ ecc : CxlEcc, ∃ c, ∃ s_ : State, ((fun s => s.hdmAddr hpa = some a ∧ c ≠ 0 ∧
      (s.mapEcc (bitsN a 18 24) ecc.map).accCause { addr := a, len, src := 2, dev := s.hub.devId, part := 0xFF } 0 none (fun _ => false) = c)) (s_.adv t)) ∧
    (∃ t : Nat, ∃ hpa : Nat, ∃ a, ∃ d : CxlData, ∃ s_ : State, ((fun s => s.hdmAddr hpa = some a ∧ (s.mapEcc (bitsN a 18 24) d.ecc.map).accCause
      { addr := a, len := d.bytes.length, write := true, src := 2, dev := s.hub.devId, part := 0xFF } 0 none (fun _ => false) = 0)) (s_.adv t)) ∧
    (∃ t : Nat, ∃ hpa : Nat, ∃ a, ∃ d : CxlData, ∃ c, ∃ s_ : State, ((fun s => s.hdmAddr hpa = some a ∧ c ≠ 0 ∧ (s.mapEcc (bitsN a 18 24) d.ecc.map).accCause
      { addr := a, len := d.bytes.length, write := true, src := 2, dev := s.hub.devId, part := 0xFF } 0 none (fun _ => false) = c)) (s_.adv t)) :=
  ⟨⟨0, 0, { page := 1, oldPpn := 1, newPpn := 2, done := 5 }, none, ({ up with mem := { up.mem with chans := [], mig := [(0, some { page := 1, oldPpn := 1, newPpn := 2, done := 5 })], bad := [] } }), by beta_reduce; decide +kernel⟩,
    ⟨0, { kind := .write }, 0, 0, 0, none, (up), by beta_reduce; decide +kernel⟩,
    ⟨0, { kind := .readReq, srcDev := 5, addr := pageBytes, arg := 256 * 64 }, 0, 0, 0, none, (page1 { ppn := 1, owner := 0, kind := .window }), by beta_reduce; decide +kernel⟩,
    ⟨0, { kind := .write, srcDev := 5, addr := pageBytes, payload := List.replicate 16 1 }, 0, 0, 0, none, (page1 { ppn := 1, owner := 0, kind := .window }), by beta_reduce; decide +kernel⟩,
    ⟨0, { kind := .write, srcDev := 5, addr := pageBytes, payload := List.replicate 16 1 }, 0, 0, 0, none, (((page1 { ppn := 1, owner := 0, kind := .tallyA }).modPart 0 fun x => { x with job := some { st := .closed, writesBlocked := true, classes := [1], sideA := [(0, 1)] } })), by beta_reduce; decide +kernel⟩,
    ⟨0, 0, pageBytes, 64, {}, (page1 { ppn := 1, owner := 0xFF, kind := .window }), by beta_reduce; decide +kernel⟩,
    ⟨0, pageBytes, 2 * pageBytes, 64, {}, 1, (page1 { ppn := 1, owner := 0xFF, kind := .window }), by beta_reduce; decide +kernel⟩,
    ⟨0, 0, pageBytes, { bytes := List.replicate 64 1 }, (page1 { ppn := 1, owner := 0xFF, kind := .window }), by beta_reduce; decide +kernel⟩,
    ⟨0, pageBytes, 2 * pageBytes, { bytes := List.replicate 64 1 }, 1, (page1 { ppn := 1, owner := 0xFF, kind := .window }), by beta_reduce; decide +kernel⟩⟩

/-- Witnesses of `DmaRowsAct`: for each clause a state and operands that meet its hypotheses, part 1. -/
theorem test_DmaRowsAct_meets :
    (∃ t : Nat, ∃ die : Nat, ∃ tile : Nat, ∃ d : DmaDesc, ∃ rest : List DmaDesc, ∃ s_ : State, ((fun s => Tbl.get [] s.dma.queues tile = d :: rest ∧ tileDie tile = die ∧ (s.rcfg d.tclass).hold = false ∧
      ({ s with dma := { s.dma with queues := Tbl.set [] tile rest s.dma.queues } } : State).descOk (s.partField (s.siteOfTile tile)) d = false)) (s_.adv t)) ∧
    (∃ t : Nat, ∃ die : Nat, ∃ tile : Nat, ∃ d : DmaDesc, ∃ rest : List DmaDesc, ∃ s_ : State, ((fun s => Tbl.get [] s.dma.queues tile = d :: rest ∧ tileDie tile = die ∧ (s.rcfg d.tclass).hold = false ∧
      ({ s with dma := { s.dma with queues := Tbl.set [] tile rest s.dma.queues } } : State).descOk (s.partField (s.siteOfTile tile)) d = true ∧
      ({ s with dma := { s.dma with queues := Tbl.set [] tile rest s.dma.queues } } : State).keysMissing
        { desc := d, part := s.partField (s.siteOfTile tile), tile, todo := d.length } = true)) (s_.adv t)) ∧
    (∃ t : Nat, ∃ die : Nat, ∃ tile : Nat, ∃ d : DmaDesc, ∃ rest : List DmaDesc, ∃ s_ : State, ((fun s => Tbl.get [] s.dma.queues tile = d :: rest ∧ tileDie tile = die ∧ (s.rcfg d.tclass).hold = false ∧
      ({ s with dma := { s.dma with queues := Tbl.set [] tile rest s.dma.queues } } : State).descOk (s.partField (s.siteOfTile tile)) d = true ∧
      ({ s with dma := { s.dma with queues := Tbl.set [] tile rest s.dma.queues } } : State).keysMissing
        { desc := d, part := s.partField (s.siteOfTile tile), tile, todo := d.length } = false)) (s_.adv t)) ∧
    (∃ t : Nat, ∃ die : Nat, ∃ tag : Nat, ∃ x : Txn, ∃ st : PStatus, ∃ ece : Bool, ∃ ue : Bool, ∃ bs : List Byte, ∃ s_ : State, ((fun s => s.txn die tag = some x ∧ s.turnedAway x.pkt = false ∧ x.dead = true)) (s_.adv t)) ∧
    (∃ t : Nat, ∃ die : Nat, ∃ tag : Nat, ∃ x : Txn, ∃ st : PStatus, ∃ ece : Bool, ∃ ue : Bool, ∃ bs : List Byte, ∃ s_ : State, ((fun s => s.txn die tag = some x ∧ s.turnedAway x.pkt = true ∧ x.dead = false)) (s_.adv t)) ∧
    (∃ t : Nat, ∃ die : Nat, ∃ tag : Nat, ∃ x : Txn, ∃ st : PStatus, ∃ ece : Bool, ∃ bs : List Byte, ∃ s_ : State, ((fun s => s.txn die tag = some x ∧ s.turnedAway x.pkt = false ∧ x.dead = false ∧ x.xfer = none ∧ x.pkt.srcKind ≠ .combiner ∧
      ¬ (x.slot ≤ 1 ∧ (st = .tileMoving ∨ x.moved = true) ∧ x.retries < 2000))) (s_.adv t)) ∧
    (∃ t : Nat, ∃ die : Nat, ∃ tag : Nat, ∃ x : Txn, ∃ n : Nat, ∃ y : Xfer, ∃ bs : List Byte, ∃ s_ : State, ((fun s => s.txn die tag = some x ∧ s.turnedAway x.pkt = false ∧ x.dead = false ∧ x.xfer = some n ∧ s.xfer n = some y ∧
      x.pkt.srcKind ≠ .combiner ∧ x.pkt.kind = .readReq ∧ x.moved = false)) (s_.adv t)) ∧
    (∃ t : Nat, ∃ die : Nat, ∃ tag : Nat, ∃ x : Txn, ∃ n : Nat, ∃ y : Xfer, ∃ st : PStatus, ∃ bs : List Byte, ∃ s_ : State, ((fun s => s.txn die tag = some x ∧ s.turnedAway x.pkt = false ∧ x.dead = false ∧ x.xfer = some n ∧ s.xfer n = some y ∧
      x.pkt.srcKind ≠ .combiner ∧ (x.pkt.kind ≠ .readReq ∨ st ≠ .ok) ∧
      ¬ (x.slot ≤ 1 ∧ (st = .tileMoving ∨ x.moved = true) ∧ x.retries < 2000))) (s_.adv t)) ∧
    (∃ t : Nat, ∃ die : Nat, ∃ tag : Nat, ∃ x : Txn, ∃ st : PStatus, ∃ ece : Bool, ∃ bs : List Byte, ∃ s_ : State, ((fun s => s.txn die tag = some x ∧ x.dead = false ∧ x.xfer = none ∧ x.pkt.srcKind = .combiner)) (s_.adv t)) :=
  ⟨⟨0, 0, 0, { op := 9 }, [], (({ (Sys2Proof.Tests.tile fun x => x) with dma := { up.dma with queues := [(0, [{ op := 9 }])] } } : State)), by beta_reduce; decide +kernel⟩,
    ⟨0, 0, 0, { length := 64, srcKind := 2, srcDev := 6 }, [], (({ (Sys2Proof.Tests.tile fun x => x) with dma := { up.dma with queues := [(0, [{ length := 64, srcKind := 2, srcDev := 6 }])] } } : State)), by beta_reduce; decide +kernel⟩,
    ⟨0, 0, 0, { length := 64 }, [], (({ (Sys2Proof.Tests.tile fun x => x) with dma := { up.dma with queues := [(0, [{ length := 64 }])] } } : State)), by beta_reduce; decide +kernel⟩,
    ⟨0, 0, 5, { pkt := { kind := .write }, dead := true }, .ok, true, true, [], ({ up with dma := { up.dma with tags := [(5, some { pkt := { kind := .write }, dead := true })], xfers := [] } }), by beta_reduce; decide +kernel⟩,
    ⟨0, 0, 5, { pkt := { kind := .write, srcKind := .tile } }, .ok, true, true, [], ((({ up with dma := { up.dma with tags := [(5, some { pkt := { kind := .write, srcKind := .tile } })], xfers := [] } }) : State).modRouter (routerOf (up.siteOfTile 0)) fun r => { r with down := true }), by beta_reduce; decide +kernel⟩,
    ⟨0, 0, 5, { pkt := { kind := .write } }, .ok, true, [], ({ up with dma := { up.dma with tags := [(5, some { pkt := { kind := .write } })], xfers := [] } }), by beta_reduce; decide +kernel⟩,
    ⟨0, 0, 5, { pkt := { kind := .readReq }, xfer := some 1 }, 1, { left := 1 }, [], ({ up with dma := { up.dma with tags := [(5, some { pkt := { kind := .readReq }, xfer := some 1 })], xfers := [(1, some { left := 1 })] } }), by beta_reduce; decide +kernel⟩,
    ⟨0, 0, 5, { pkt := { kind := .write }, xfer := some 1 }, 1, { left := 1 }, .ok, [], ({ up with dma := { up.dma with tags := [(5, some { pkt := { kind := .write }, xfer := some 1 })], xfers := [(1, some { left := 1 })] } }), by beta_reduce; decide +kernel⟩,
    ⟨0, 0, 5, { pkt := { kind := .contrib, srcKind := .combiner } }, .ok, true, [], ({ up with dma := { up.dma with tags := [(5, some { pkt := { kind := .contrib, srcKind := .combiner } })], xfers := [] } }), by beta_reduce; decide +kernel⟩⟩

/-- Witnesses of `DmaRowsAct`: for each clause a state and operands that meet its hypotheses, part 2. -/
theorem test_DmaRowsAct_meets_2 :
    (∃ t : Nat, ∃ die : Nat, ∃ tag : Nat, ∃ x : Txn, ∃ bs : List Byte, ∃ s_ : State, ((fun s => s.txn die tag = some x ∧ s.turnedAway x.pkt = false ∧ x.dead = false ∧ x.pkt.srcKind ≠ .combiner ∧ x.slot ≤ 1 ∧
      x.retries < 2000)) (s_.adv t)) ∧
    (∃ t : Nat, ∃ die : Nat, ∃ tag : Nat, ∃ x : Txn, ∃ s_ : State, ((fun s => s.txn die tag = some x ∧ x.movedAt = none ∧ x.since + s.routing.timeoutUs * ftUs < s.now ∧ x.pkt.srcKind ≠ .combiner)) (s_.adv t)) ∧
    (∃ t : Nat, ∃ die : Nat, ∃ tag : Nat, ∃ x : Txn, ∃ s_ : State, ((fun s => s.txn die tag = some x ∧ x.movedAt = none ∧ x.since + s.routing.timeoutUs * ftUs < s.now ∧ x.pkt.srcKind = .combiner)) (s_.adv t)) ∧
    (∃ t : Nat, ∃ die : Nat, ∃ tag : Nat, ∃ x : Txn, ∃ m, ∃ s_ : State, ((fun s => s.txn die tag = some x ∧ x.movedAt = some m ∧ m + 10 * ftUs ≤ s.now)) (s_.adv t)) ∧
    (∃ t : Nat, ∃ q : Nat, ∃ d : Nat, ∃ s_ : State, ((fun s => (Tbl.get {} s.dma.flows (65536 * q + d) : Flow).rate ≠ 0 ∧ (Tbl.get {} s.dma.flows (65536 * q + d) : Flow).rate < s.portRate d ∧
      (Tbl.get {} s.dma.flows (65536 * q + d) : Flow).lastUp + 20 * ftUs ≤ s.now)) (s_.adv t)) ∧
    (∃ t : Nat, ∃ pkt : Packet, ∃ hits : List (Nat × List Byte), ∃ k, ∃ w : WinDesc, ∃ s_ : State, ((fun s => s.Reaches pkt k ∧ w = (Tbl.get {} (s.site k).mu.windows (pkt.arg.toNat % 256) : WinDesc) ∧ pkt.kind = .readReq ∧
      pkt.arg.toNat % 256 < 8 ∧ w.isOpen = true ∧ pkt.addr + reqLen (pkt.srcDev != s.hub.devId) pkt ≤ w.size ∧ w.rights % 2 = 1 ∧
      s.sourceOk w pkt = true)) (s_.adv t)) ∧
    (∃ t : Nat, ∃ pkt : Packet, ∃ hits : List (Nat × List Byte), ∃ k, ∃ w : WinDesc, ∃ s_ : State, ((fun s => s.Reaches pkt k ∧ w = (Tbl.get {} (s.site k).mu.windows (pkt.arg.toNat % 256) : WinDesc) ∧ pkt.kind = .write ∧
      pkt.arg.toNat % 256 < 8 ∧ w.isOpen = true ∧ pkt.addr + reqLen (pkt.srcDev != s.hub.devId) pkt ≤ w.size ∧ w.rights / 2 % 2 = 1 ∧
      s.sourceOk w pkt = true)) (s_.adv t)) ∧
    (∃ t : Nat, ∃ pkt : Packet, ∃ hits : List (Nat × List Byte), ∃ k, ∃ w : WinDesc, ∃ s_ : State, ((fun s => s.Reaches pkt k ∧ w = (Tbl.get {} (s.site k).mu.windows (pkt.arg.toNat % 256) : WinDesc) ∧ (pkt.kind = .write ∨ pkt.kind = .readReq) ∧
      (8 ≤ pkt.arg.toNat % 256 ∨ w.isOpen = false ∨ w.size < pkt.addr + reqLen (pkt.srcDev != s.hub.devId) pkt ∨
        (pkt.kind = .readReq ∧ w.rights % 2 = 0) ∨ (pkt.kind = .write ∧ w.rights / 2 % 2 = 0) ∨ s.sourceOk w pkt = false))) (s_.adv t)) :=
  ⟨⟨0, 0, 5, { pkt := { kind := .write }, retries := 1999 }, [], ({ up with dma := { up.dma with tags := [(5, some { pkt := { kind := .write }, retries := 1999 })], xfers := [] } }), by beta_reduce; decide +kernel⟩,
    ⟨2001 * ftUs, 0, 5, { pkt := { kind := .write } }, ({ up with dma := { up.dma with tags := [(5, some { pkt := { kind := .write } })] } }), by beta_reduce; decide +kernel⟩,
    ⟨2001 * ftUs, 0, 5, { pkt := { kind := .contrib, srcKind := .combiner } }, ({ up with dma := { up.dma with tags := [(5, some { pkt := { kind := .contrib, srcKind := .combiner } })], xfers := [] } }), by beta_reduce; decide +kernel⟩,
    ⟨10 * ftUs, 0, 5, { movedAt := some 0 }, 0, ({ up with dma := { up.dma with tags := [(5, some { movedAt := some 0 })] } }), by beta_reduce; decide +kernel⟩,
    ⟨20 * ftUs, 0, 3, ({ up with dma := { up.dma with flows := [(3, { rate := 100 })] } }), by beta_reduce; decide +kernel⟩,
    ⟨0, { kind := .readReq, srcDev := 5, arg := 1 + 256 * 4096 }, [], 0, { size := 4096, rights := 3, isOpen := true }, (tile fun x => { x with mu := { x.mu with windows := [(1, { size := 4096, rights := 3, isOpen := true })] } }), by beta_reduce; decide +kernel⟩,
    ⟨0, { kind := .write, srcDev := 5, arg := 1, addr := 4080, payload := List.replicate 16 0 }, [], 0, { size := 4096, rights := 3, isOpen := true }, (tile fun x => { x with mu := { x.mu with windows := [(1, { size := 4096, rights := 3, isOpen := true })] } }), by beta_reduce; decide +kernel⟩,
    ⟨0, { kind := .write, srcDev := 5, arg := 1, addr := 4096, payload := List.replicate 16 0 }, [], 0, { size := 4096, rights := 3, isOpen := true }, (tile fun x => { x with mu := { x.mu with windows := [(1, { size := 4096, rights := 3, isOpen := true })] } }), by beta_reduce; decide +kernel⟩⟩

/-- Witnesses of `RoutingRowsAct`: for each clause a state and operands that meet its hypotheses. -/
theorem test_RoutingRowsAct_meets :
    (∃ t : Nat, ∃ r : Nat, ∃ die : Option Nat, ∃ pkt : Packet, ∃ s_ : State, ((fun s => s.routeIn (match die with
      | some d => .die d
      | none => .router r) pkt = none)) (s_.adv t)) ∧
    (∃ t : Nat, ∃ r : Nat, ∃ die : Option Nat, ∃ pkt : Packet, ∃ p : Packet, ∃ ver : Bool, ∃ port : Option Nat, ∃ s1 : State, ∃ s_ : State, ((fun s => s.routeIn (match die with
      | some d => .die d
      | none => .router r) pkt = some (p, ver, port, s1) ∧ p.kind = .steward ∧ p.destKind = .hub ∧ p.destDev = s1.hub.devId)) (s_.adv t)) ∧
    (∃ t : Nat, ∃ r : Nat, ∃ die : Option Nat, ∃ pkt : Packet, ∃ p : Packet, ∃ ver : Bool, ∃ port : Option Nat, ∃ s1 : State, ∃ s_ : State, ((fun s => s.routeIn (match die with
      | some d => .die d
      | none => .router r) pkt = some (p, ver, port, s1) ∧ p.kind = .reserved)) (s_.adv t)) ∧
    (∃ t : Nat, ∃ r : Nat, ∃ d : Nat, ∃ pkt : Packet, ∃ p : Packet, ∃ ver : Bool, ∃ port : Option Nat, ∃ s1 : State, ∃ s_ : State, ((fun s => s.routeIn (.die d) pkt = some (p, ver, port, s1) ∧ p.kind ≠ .reserved ∧
      ¬ (p.kind = .steward ∧ p.destKind = .hub ∧ p.destDev = s1.hub.devId))) (s_.adv t)) ∧
    (∃ t : Nat, ∃ r : Nat, ∃ pkt : Packet, ∃ p : Packet, ∃ ver : Bool, ∃ port : Option Nat, ∃ s1 : State, ∃ s_ : State, ((fun s => s.routeIn (.router r) pkt = some (p, ver, port, s1) ∧ p.kind ≠ .reserved ∧
      ¬ (p.kind = .steward ∧ p.destKind = .hub ∧ p.destDev = s1.hub.devId))) (s_.adv t)) ∧
    (∃ t : Nat, ∃ r : Nat, ∃ n : Nat, ∃ g : CuSeg, ∃ tag : Nat, ∃ s_ : State, ((fun s => s.cu r n = some g ∧ g.sentTag = none ∧ s.freeTag (rtrDie r) = some tag ∧
      (10 * s.routing.cmbWait ≤ 3 * (s.now - g.since) ∨ 16 ≤ g.merges))) (s_.adv t)) ∧
    (∃ t : Nat, ∃ cls : Nat, ∃ mb : Nat, ∃ start, ∃ s_ : State, ((fun s => (s.rcfg cls).swap = some (mb, some start) ∧ (s.drained cls = true ∨ start + 100 * ftUs ≤ s.now))) (s_.adv t)) :=
  ⟨⟨0, 5, none, { kind := .write }, ({ up with routing := { up.routing with mesh := [{ src := 3, out := .router 5, pkt := { kind := .write, destIdx := 1 } }, { src := 3, out := .router 5, pkt := { kind := .write } }] } }), by beta_reduce; decide +kernel⟩,
    ⟨0, 0, none, { kind := .steward, destKind := .hub, destDev := 5 }, { kind := .steward, destKind := .hub, destDev := 5 }, (optR ((((up)).adv (0)).routeIn (.router 0) { kind := .steward, destKind := .hub, destDev := 5 })).2.1, none, (optR ((((up)).adv (0)).routeIn (.router 0) { kind := .steward, destKind := .hub, destDev := 5 })).2.2.2, (up), by beta_reduce; decide +kernel⟩,
    ⟨0, 0, none, { kind := .reserved }, { kind := .reserved }, (optR ((((up)).adv (0)).routeIn (.router 0) { kind := .reserved })).2.1, none, (optR ((((up)).adv (0)).routeIn (.router 0) { kind := .reserved })).2.2.2, (up), by beta_reduce; decide +kernel⟩,
    ⟨0, 3, 1, { kind := .write }, { kind := .write }, (optR ((((up)).adv (0)).routeIn (.die 1) { kind := .write })).2.1, none, (optR ((((up)).adv (0)).routeIn (.die 1) { kind := .write })).2.2.2, (up), by beta_reduce; decide +kernel⟩,
    ⟨0, 3, { kind := .write }, { kind := .write }, (optR ((((up)).adv (0)).routeIn (.router 3) { kind := .write })).2.1, none, (optR ((((up)).adv (0)).routeIn (.router 3) { kind := .write })).2.2.2, (up), by beta_reduce; decide +kernel⟩,
    ⟨0, 3, 0, { merges := 16 }, 0, (up.setCu 3 0 (some { merges := 16 })), by beta_reduce; decide +kernel⟩,
    ⟨100 * ftUs, 2, 0, 0, ({ up with routing := { up.routing with cfg := [(2, { swap := some (0, some 0) })] } }), by beta_reduce; decide +kernel⟩⟩

/-- Witnesses of `HostRowsAct`: for each clause a state and operands that meet its hypotheses, part 1. -/
theorem test_HostRowsAct_meets :
    (∃ t : Nat, ∃ mb : Nat, ∃ tail : Nat, ∃ s_ : State, ((fun s => mb < 16 ∧ s.hub.inReset = false)) (s_.adv t)) ∧
    (∃ t : Nat, ∃ mb : Nat, ∃ s_ : State, ((fun s => mb < 24 ∧ s.hub.inReset = false)) (s_.adv t)) ∧
    (∃ t : Nat, ∃ mb : Nat, ∃ h : Nat, ∃ s_ : State, ((fun s => mb < 16 ∧ s.hub.inReset = false)) (s_.adv t)) ∧
    (∃ t : Nat, ∃ h : Nat, ∃ s_ : State, ((fun s => s.hub.inReset = false)) (s_.adv t)) ∧
    (∃ t : Nat, ∃ off : Nat, ∃ val : Nat, ∃ s_ : State, ((fun s => s.hub.inReset = false ∧ off % 8 = 0)) (s_.adv t)) ∧
    (∃ t : Nat, ∃ s_ : State, ((fun _ => True)) (s_.adv t)) ∧
    (∃ t : Nat, ∃ s_ : State, ((fun _ => True)) (s_.adv t)) ∧
    (∃ t : Nat, ∃ port : Nat, ∃ frame : List Byte, ∃ mac : Nat, ∃ b : List Byte, ∃ bs : List Byte, ∃ s_ : State, ((fun s => framePayload frame = some (mac, b) ∧ port < 2 ∧ s.hub.inReset = false ∧ num b 0 1 = 1 ∧
      num b 8 1 % 16 = 1 ∧ num b 9 1 = s.hub.config.mctpEid ∧ 12 ≤ b.length ∧ b.length ≤ 1036 ∧
      joinPacket (((s.mgmtPort port).reasm.find? (·.1 == (mac, num b 10 1, num b 11 1 % 16))).map (·.2)) (bitOn (num b 11 1) 7)
        (num b 11 1 / 16 % 4) (b.drop 12) = some bs)) (s_.adv t)) ∧
    (∃ t : Nat, ∃ s_ : State, ((fun _ => True)) (s_.adv t)) :=
  ⟨⟨0, 0, 5, (up), by beta_reduce; decide +kernel⟩,
    ⟨0, 0, (up), by beta_reduce; decide +kernel⟩,
    ⟨0, 0, 1, (up), by beta_reduce; decide +kernel⟩,
    ⟨0, 5, (up), by beta_reduce; decide +kernel⟩,
    ⟨0, 8, 0, (up), by beta_reduce; decide +kernel⟩,
    ⟨0, (up), by beta_reduce; decide +kernel⟩,
    ⟨0, (up), by beta_reduce; decide +kernel⟩,
    ⟨0, 0, List.replicate 12 2 ++ leBytes 2 0xB588 ++ [1, 0, 0, 0, 0, 0, 0, 0, 1, 8, 0, 0xD0, 7], 0x020202020202, [1, 0, 0, 0, 0, 0, 0, 0, 1, 8, 0, 0xD0, 7], [7], ({ up with mgmt := [(0, { link := true })] }), by beta_reduce; decide +kernel⟩,
    ⟨0, (up), by beta_reduce; decide +kernel⟩⟩

/-- Witnesses of `HostRowsAct`: for each clause a state and operands that meet its hypotheses, part 2. -/
theorem test_HostRowsAct_meets_2 :
    (∃ t : Nat, ∃ s_ : State, ((fun _ => True)) (s_.adv t)) ∧
    (∃ t : Nat, ∃ ir : Nat, ∃ s_ : State, ((fun s => 2 ≤ ir ∧ ir ≤ 6 ∧ bitAt s.sec.debug (ir - 2) = true)) (s_.adv t)) ∧
    (∃ t : Nat, ∃ ir : Nat, ∃ s_ : State, ((fun s => 2 ≤ ir ∧ (6 < ir ∨ bitAt s.sec.debug (ir - 2) = false))) (s_.adv t)) :=
  ⟨⟨0, (up), by beta_reduce; decide +kernel⟩,
    ⟨0, 3, ({ up with sec := { up.sec with debug := 31 } }), by beta_reduce; decide +kernel⟩,
    ⟨0, 3, (up), by beta_reduce; decide +kernel⟩⟩

/-- Witnesses of `TrainingRowsAct`: for each clause a state and operands that meet its hypotheses. -/
theorem test_TrainingRowsAct_meets :
    (∃ t : Nat, ∃ p : Nat, ∃ mask : BitVec 9, ∃ peer : Option (BitVec 9 × Nat), ∃ s_ : State, ((fun s => p < 24 ∧ (s.port p).enabled = true ∧ (s.port p).st ≠ .gate ∧ s.hub.inReset = false)) (s_.adv t)) ∧
    (∃ t : Nat, ∃ p : Nat, ∃ l : Nat, ∃ s_ : State, ((fun s => (s.port p).st = .training ∧ l < 9 ∧ bitAt (s.port p).locked l = false)) (s_.adv t)) ∧
    (∃ t : Nat, ∃ p : Nat, ∃ errs : List Nat, ∃ s_ : State, ((fun s => (s.port p).st = .gate ∧ (s.port p).trainStep = 3)) (s_.adv t)) ∧
    (∃ t : Nat, ∃ p : Nat, ∃ mask : BitVec 9, ∃ lanes : BitVec 9, ∃ mw : Nat, ∃ s_ : State, ((fun s => p < 24 ∧ (s.port p).enabled = true ∧ (s.port p).st = .gate ∧ 4 ≤ (s.port p).trainStep ∧ s.hub.inReset = false)) (s_.adv t)) ∧
    (∃ t : Nat, ∃ p : Nat, ∃ s_ : State, ((fun s => (s.port p).st = .training ∨ (s.port p).st = .gate)) (s_.adv t)) ∧
    (∃ t : Nat, ∃ p : Nat, ∃ s_ : State, ((fun s => (s.port p).st = .up ∨ (s.port p).st = .down)) (s_.adv t)) ∧
    (∃ t : Nat, ∃ p : Nat, ∃ s_ : State, ((fun s => (s.port p).st ≠ .up ∧ (s.port p).st ≠ .down ∧ (s.port p).awaits 3 = true)) (s_.adv t)) ∧
    (∃ t : Nat, ∃ p : Nat, ∃ dev : Nat, ∃ pp : Nat, ∃ res : List Nat, ∃ sh : List Nat, ∃ slot : Nat, ∃ ks : Bool, ∃ ack : BitVec 16, ∃ s_ : State, ((fun s => (s.port p).st = .up ∧ (s.port p).swap = none)) (s_.adv t)) ∧
    (∃ t : Nat, ∃ p : Nat, ∃ dev : Nat, ∃ pp : Nat, ∃ res : List Nat, ∃ sh : List Nat, ∃ slot : Nat, ∃ ks : Bool, ∃ ack : BitVec 16, ∃ w : Nat × Nat × Bool, ∃ s_ : State, ((fun s => (s.port p).st = .up ∧ (s.port p).swap = some w)) (s_.adv t)) ∧
    (∃ t : Nat, ∃ p : Nat, ∃ dev : Nat, ∃ pp : Nat, ∃ res : List Nat, ∃ sh : List Nat, ∃ slot : Nat, ∃ ks : Bool, ∃ ack : BitVec 16, ∃ s_ : State, ((fun s => (s.port p).st = .gate ∧ (s.port p).trainStep = 6)) (s_.adv t)) :=
  ⟨⟨0, 0, 0x1FF, none, (port0 fun x => { x with st := .down }), by beta_reduce; decide +kernel⟩,
    ⟨0, 0, 3, (port0 fun x => { x with st := .training }), by beta_reduce; decide +kernel⟩,
    ⟨0, 0, [], (port0 fun x => { x with st := .gate, trainStep := 3 }), by beta_reduce; decide +kernel⟩,
    ⟨0, 0, 0x1FF, 0x1FF, 4, (port0 fun x => { x with st := .gate, trainStep := 4 }), by beta_reduce; decide +kernel⟩,
    ⟨0, 0, (port0 fun x => { x with st := .gate }), by beta_reduce; decide +kernel⟩,
    ⟨0, 0, (port0 fun x => { x with st := .up, lanes := [0, 1, 2, 3, 4, 5, 6, 7], lsOk := true }), by beta_reduce; decide +kernel⟩,
    ⟨0, 0, (port0 fun x => { x with st := .training, ctlPend := [(.retrain, 0)] }), by beta_reduce; decide +kernel⟩,
    ⟨0, 0, 6, 1, [], [], 0, false, 0, (port0 fun x => { x with st := .up, lanes := [0, 1, 2, 3, 4, 5, 6, 7], lsOk := true }), by beta_reduce; decide +kernel⟩,
    ⟨0, 0, 6, 1, [], [], 0, false, 0, (8, 0, true), (port0 fun x => { x with st := .up, lanes := [0, 1, 2, 3, 4, 5, 6, 7], lsOk := true, swap := some (8, 0, true) }), by beta_reduce; decide +kernel⟩,
    ⟨0, 0, 6, 1, [], [], 0, false, 0, (port0 fun x => { x with st := .gate, trainStep := 6 }), by beta_reduce; decide +kernel⟩⟩

/-- Witnesses of `LinkRowsAct`: for each clause a state and operands that meet its hypotheses, part 1. -/
theorem test_LinkRowsAct_meets :
    (∃ t : Nat, ∃ p : Nat, ∃ ack : BitVec 16, ∃ s_ : State, ((fun s => (s.port p).st = .up ∧ (s.port p).swap = none)) (s_.adv t)) ∧
    (∃ t : Nat, ∃ p : Nat, ∃ e : RetryEnt, ∃ rest : List RetryEnt, ∃ s_ : State, ((fun s => (s.port p).retry = e :: rest ∧ (s.port p).st = .up ∧ (s.port p).swap = none ∧ e.ft + 2 * ftUs ≤ s.now)) (s_.adv t)) ∧
    (∃ t : Nat, ∃ p : Nat, ∃ f : RxFlit, ∃ body : List Byte, ∃ s_ : State, ((fun s => let s1 := (s.modPort p fun x => { x with slotRx := (s.port p).slotRx + f.idle + 1 }).countSymbols p f
      (s.port p).st ≠ .off ∧ (s.port p).st ≠ .down ∧ f.fecOk = true ∧ crcOk f.bytes = true ∧
        s1.flitBody p ((s.port p).slotRx + f.idle) (flitHeadOf f.bytes) f.bytes = some body)) (s_.adv t)) ∧
    (∃ t : Nat, ∃ p : Nat, ∃ f : RxFlit, ∃ s_ : State, ((fun s => let s1 := (s.modPort p fun x => { x with slotRx := (s.port p).slotRx + f.idle + 1 }).countSymbols p f
      (s.port p).st ≠ .off ∧ (s.port p).st ≠ .down ∧ f.fecOk = true ∧ crcOk f.bytes = true ∧
        s1.flitBody p ((s.port p).slotRx + f.idle) (flitHeadOf f.bytes) f.bytes = none)) (s_.adv t)) ∧
    (∃ t : Nat, ∃ p : Nat, ∃ f : RxFlit, ∃ s_ : State, ((fun s => (s.port p).st ≠ .off ∧ (s.port p).st ≠ .down ∧ f.fecOk = true ∧ crcOk f.bytes = false)) (s_.adv t)) ∧
    (∃ t : Nat, ∃ p : Nat, ∃ f : RxFlit, ∃ s_ : State, ((fun s => (s.port p).st ≠ .off ∧ (s.port p).st ≠ .down ∧ f.fecOk = false)) (s_.adv t)) ∧
    (∃ t : Nat, ∃ p : Nat, ∃ l : Nat, ∃ c : Nat, ∃ r : Nat, ∃ s_ : State, ((fun s => (s.port p).st = .up ∧ l ∈ (s.port p).lanes ∧ (c ≠ 3 ∨ (s.port p).canSwap l = false ∨ (s.port p).swap.isSome = true))) (s_.adv t)) ∧
    (∃ t : Nat, ∃ p : Nat, ∃ l : Nat, ∃ r : Nat, ∃ s_ : State, ((fun s => (s.port p).st = .up ∧ (s.port p).swap = none ∧ l ∈ (s.port p).lanes ∧ (s.port p).canSwap l = true)) (s_.adv t)) ∧
    (∃ t : Nat, ∃ p : Nat, ∃ c : Nat, ∃ r : Nat, ∃ s_ : State, ((fun s => (s.port p).st = .up ∧ 8 ∉ (s.port p).lanes ∧ (s.port p).lsOk = true)) (s_.adv t)) :=
  ⟨⟨0, 0, 0, (port0 fun x => { x with st := .up, lanes := [0, 1, 2, 3, 4, 5, 6, 7], lsOk := true }), by beta_reduce; decide +kernel⟩,
    ⟨2 * ftUs, 0, {}, [], (port0 fun x => { x with st := .up, lanes := [0, 1, 2, 3, 4, 5, 6, 7], lsOk := true, retry := [{}] }), by beta_reduce; decide +kernel⟩,
    ⟨0, 0, clearFlit, slice clearFlit.bytes 12 624, (port0 fun x => { x with st := .up, lanes := [0, 1, 2, 3, 4, 5, 6, 7], lsOk := true }), ⟨by decide +kernel, by decide +kernel, rfl, Laws.crcOk_frame List.length_replicate, Laws.flitBody_clear (by decide +kernel)⟩⟩,
    test_bad_tag,
    ⟨0, 0, {}, (port0 fun x => { x with st := .up, lanes := [0, 1, 2, 3, 4, 5, 6, 7], lsOk := true }), by beta_reduce; decide +kernel⟩,
    ⟨0, 0, { fecOk := false }, (port0 fun x => { x with st := .up, lanes := [0, 1, 2, 3, 4, 5, 6, 7], lsOk := true }), by beta_reduce; decide +kernel⟩,
    ⟨0, 0, 2, 1, 0, (port0 fun x => { x with st := .up, lanes := [0, 1, 2, 3, 4, 5, 6, 7], lsOk := true }), by beta_reduce; decide +kernel⟩,
    ⟨0, 0, 2, 0, (port0 fun x => { x with st := .up, lanes := [0, 1, 2, 3, 4, 5, 6, 7], lsOk := true }), by beta_reduce; decide +kernel⟩,
    ⟨0, 0, 1, 0, (port0 fun x => { x with st := .up, lanes := [0, 1, 2, 3, 4, 5, 6, 7], lsOk := true }), by beta_reduce; decide +kernel⟩⟩

/-- Witnesses of `LinkRowsAct`: for each clause a state and operands that meet its hypotheses, part 2. -/
theorem test_LinkRowsAct_meets_2 :
    (∃ t : Nat, ∃ p : Nat, ∃ l : Nat, ∃ s_ : State, ((fun s => (s.port p).st = .up ∧ (s.port p).swap = none ∧ l ∈ (s.port p).lanes)) (s_.adv t)) ∧
    (∃ t : Nat, ∃ p : Nat, ∃ l : Nat, ∃ s_ : State, ((fun s => (s.port p).st = .up ∧ (s.port p).swap = none ∧ l ∈ (s.port p).lanes)) (s_.adv t)) ∧
    (∃ t : Nat, ∃ p : Nat, ∃ l, ∃ since, ∃ pl, ∃ s_ : State, ((fun s => (s.port p).swap = some (l, since, pl) ∧ (s.port p).canSwap l = true ∧ (s.port p).swapInit = false)) (s_.adv t)) ∧
    (∃ t : Nat, ∃ p : Nat, ∃ l : Nat, ∃ since : Nat, ∃ pl : Bool, ∃ s_ : State, ((fun s => (s.port p).swap = some (l, since, pl) ∧ (s.port p).canSwap l = false ∧ (s.port p).swapInit = false)) (s_.adv t)) ∧
    (∃ t : Nat, ∃ p : Nat, ∃ slot : Nat, ∃ s_ : State, ((fun s => (s.port p).st = .up ∧ ((s.port p).keyNextTx ≠ some slot ∨ (s.port p).awaits 2 = false))) (s_.adv t)) ∧
    (∃ t : Nat, ∃ p : Nat, ∃ slot : Nat, ∃ s_ : State, ((fun s => (s.port p).st = .up ∧ (s.port p).keyNextTx = some slot ∧ (s.port p).awaits 2 = true)) (s_.adv t)) ∧
    (∃ t : Nat, ∃ p : Nat, ∃ n, ∃ s_ : State, ((fun s => (s.port p).keyNextRx = some n)) (s_.adv t)) ∧
    (∃ t : Nat, ∃ p : Nat, ∃ n, ∃ s_ : State, ((fun s => (s.port p).keyNextTx = some n)) (s_.adv t)) ∧
    (∃ t : Nat, ∃ p : Nat, ∃ s_ : State, ((fun s => (s.port p).st = .up)) (s_.adv t)) :=
  ⟨⟨0, 0, 2, (port0 fun x => { x with st := .up, lanes := [0, 1, 2, 3, 4, 5, 6, 7], lsOk := true }), by beta_reduce; decide +kernel⟩,
    ⟨0, 0, 2, (port0 fun x => { x with st := .up, lanes := [0, 1, 2, 3, 4, 5, 6, 7], lsOk := true }), by beta_reduce; decide +kernel⟩,
    ⟨0, 0, 2, 0, true, (port0 fun x => { x with st := .up, lanes := [0, 1, 2, 3, 4, 5, 6, 7], lsOk := true, swap := some (2, 0, true) }), by beta_reduce; decide +kernel⟩,
    ⟨0, 0, 8, 0, true, (port0 fun x => { x with st := .up, lanes := [0, 1, 2, 3, 4, 5, 6, 7], lsOk := true, swap := some (8, 0, true) }), by beta_reduce; decide +kernel⟩,
    ⟨0, 0, 7, (port0 fun x => { x with st := .up, lanes := [0, 1, 2, 3, 4, 5, 6, 7], lsOk := true }), by beta_reduce; decide +kernel⟩,
    ⟨0, 0, 7, (port0 fun x => { x with st := .up, lanes := [0, 1, 2, 3, 4, 5, 6, 7], lsOk := true, keyNextTx := some 7, ctlPend := [(.keyNext 7, 0)] }), by beta_reduce; decide +kernel⟩,
    ⟨0, 0, 7, (port0 fun x => { x with st := .up, lanes := [0, 1, 2, 3, 4, 5, 6, 7], lsOk := true, keyNextRx := some 7 }), by beta_reduce; decide +kernel⟩,
    ⟨0, 0, 7, (port0 fun x => { x with st := .up, lanes := [0, 1, 2, 3, 4, 5, 6, 7], lsOk := true, keyNextTx := some 7 }), by beta_reduce; decide +kernel⟩,
    ⟨0, 0, (port0 fun x => { x with st := .up, lanes := [0, 1, 2, 3, 4, 5, 6, 7], lsOk := true }), by beta_reduce; decide +kernel⟩⟩

/-- Witnesses of `LinkRowsAct`: for each clause a state and operands that meet its hypotheses, part 3. -/
theorem test_LinkRowsAct_meets_3 :
    (∃ t : Nat, ∃ p : Nat, ∃ w : Nat, ∃ s_ : State, ((fun s => ((s.port p).st = .up ∨ ((s.port p).st = .gate ∧ 6 ≤ (s.port p).trainStep)) ∧ 4 ≤ w ∧ w ≤ 8)) (s_.adv t)) ∧
    (∃ t : Nat, ∃ p : Nat, ∃ s_ : State, ((fun s => (s.port p).st ≠ .off ∧ (s.port p).st ≠ .down ∧
      ((s.port p).ctlPend.any fun e => ctlCode e.1 == 5 && decide (e.2.1 + 10 * ftUs ≤ s.now)) = true)) (s_.adv t)) ∧
    (∃ t : Nat, ∃ p : Nat, ∃ s_ : State, ((fun s => (s.port p).st ≠ .off ∧ (s.port p).st ≠ .down ∧
      ((s.port p).ctlPend.any fun e => ctlCode e.1 == 5 && decide (e.2.1 + 10 * ftUs ≤ s.now)) = false)) (s_.adv t)) :=
  ⟨⟨0, 0, 8, (port0 fun x => { x with st := .gate, trainStep := 6 }), by beta_reduce; decide +kernel⟩,
    ⟨10 * ftUs, 0, (port0 fun x => { x with st := .up, lanes := [0, 1, 2, 3, 4, 5, 6, 7], lsOk := true, ctlPend := [(.downNotice, 0)] }), by beta_reduce; decide +kernel⟩,
    ⟨10 * ftUs, 0, (port0 fun x => { x with st := .up, lanes := [0, 1, 2, 3, 4, 5, 6, 7], lsOk := true, ctlPend := [(.retrain, 0)] }), by beta_reduce; decide +kernel⟩⟩

/-- Witnesses of `PowerRowsAct`: for each clause a state and operands that meet its hypotheses, part 1. -/
theorem test_PowerRowsAct_meets :
    (∃ t : Nat, ∃ mw : Nat, ∃ cells : List Nat, ∃ s_ : State, ((fun s => 3000000 ≤ s.power.avg10ms ∨ meanOf ((mw :: s.power.samples).take 1000) < 3000000)) (s_.adv t)) ∧
    (∃ t : Nat, ∃ mw : Nat, ∃ cells : List Nat, ∃ s_ : State, ((fun s => s.power.avg10ms < 3000000 ∧ 3000000 ≤ meanOf ((mw :: s.power.samples).take 1000))) (s_.adv t)) ∧
    (∃ t : Nat, ∃ g, ∃ s_ : State, ((fun s => s.power.budget * 980 < s.power.avg1s ∧ s.power.lastRaise + ftMs ≤ s.now ∧
      pickMax ((List.range 64).filter fun g => decide ((s.region g).capBudget < 6) && (s.region g).logic == .on)
        (fun g => (s.region g).logicCur) = some g)) (s_.adv t)) ∧
    (∃ t : Nat, ∃ g, ∃ s_ : State, ((fun s => s.power.avg1s < s.power.budget * 950 ∧ s.power.lastLower + 10 * ftMs ≤ s.now ∧
      pickMax ((List.range 64).filter fun g => decide (0 < (s.region g).capBudget)) (fun g => (s.region g).capBudget) = some g)) (s_.adv t)) ∧
    (∃ t : Nat, ∃ g, ∃ s_ : State, ((fun s => s.power.budget * 950 ≤ s.power.avg1s ∧ s.power.avg1s < s.power.budget * 950 + s.power.lent ∧ s.power.lastLower + 10 * ftMs ≤ s.now ∧
      pickMax ((List.range 64).filter fun g => decide (0 < (s.region g).capBudget) && !(s.region g).lent) (fun g => (s.region g).capBudget) =
        some g)) (s_.adv t)) ∧
    (∃ t : Nat, ∃ i, ∃ x : PmbusTel, ∃ s_ : State, ((fun s => x.answered = true ∧ i < s.hub.config.pmbus.length)) (s_.adv t)) ∧
    (∃ t : Nat, ∃ i, ∃ x : PmbusTel, ∃ s_ : State, ((fun s => x.answered = false ∧ i < s.hub.config.pmbus.length)) (s_.adv t)) ∧
    (∃ t : Nat, ∃ g : Nat, ∃ s_ : State, ((fun _ => True)) (s_.adv t)) ∧
    (∃ t : Nat, ∃ g : Nat, ∃ mv : Nat, ∃ ns : Nat, ∃ s_ : State, ((fun s => (s.region g).logic = .on ∧ mv < stepMv (s.region g).dvfs - 30)) (s_.adv t)) :=
  ⟨⟨0, 2999999, [], (up), by beta_reduce; decide +kernel⟩,
    ⟨0, 3000000, [], (up), by beta_reduce; decide +kernel⟩,
    ⟨ftMs, 3, (({ up with power := { up.power with avg1s := 2600000 }, regions := [(3, { logicCur := 9 })] } : State)), by beta_reduce; decide +kernel⟩,
    ⟨10 * ftMs, 3, (({ up with regions := [(3, { capBudget := 2 })] } : State)), by beta_reduce; decide +kernel⟩,
    ⟨10 * ftMs, 3, (({ up with power := { up.power with avg1s := 2470000, lent := 1 }, regions := [(3, { capBudget := 2 })] } : State)), by beta_reduce; decide +kernel⟩,
    ⟨0, 0, {}, (({ up with hub := { up.hub with config := { up.hub.config with pmbus := [0x10] } } } : State)), by beta_reduce; decide +kernel⟩,
    ⟨0, 0, { answered := false }, (({ up with hub := { up.hub with config := { up.hub.config with pmbus := [0x10] } } } : State)), by beta_reduce; decide +kernel⟩,
    ⟨0, 0, (up), by beta_reduce; decide +kernel⟩,
    ⟨0, 0, stepMv 0 - 31, 5, (up), by beta_reduce; decide +kernel⟩⟩

/-- Witnesses of `PowerRowsAct`: for each clause a state and operands that meet its hypotheses, part 2. -/
theorem test_PowerRowsAct_meets_2 :
    (∃ t : Nat, ∃ g : Nat, ∃ mv : Nat, ∃ ns : Nat, ∃ s_ : State, ((fun s => (s.region g).logic = .on ∧ stepMv (s.region g).dvfs - 30 ≤ mv)) (s_.adv t)) ∧
    (∃ t : Nat, ∃ g : Nat, ∃ mv : Nat, ∃ ns : Nat, ∃ s_ : State, ((fun s => (s.region g).logic = .on ∧ mv < stepMv (s.region g).dvfs - 90 ∧ 20 ≤ ns)) (s_.adv t)) ∧
    (∃ t : Nat, ∃ g : Nat, ∃ i : Nat, ∃ mv : Nat, ∃ s_ : State, ((fun s => mv ≤ i * Tbl.get 0 s.fuses.bumpRes g / 1000000 + 30)) (s_.adv t)) ∧
    (∃ t : Nat, ∃ g : Nat, ∃ i : Nat, ∃ mv : Nat, ∃ s_ : State, ((fun s => i * Tbl.get 0 s.fuses.bumpRes g / 1000000 + 30 < mv ∧ (s.region g).bumpRun < 15)) (s_.adv t)) ∧
    (∃ t : Nat, ∃ g : Nat, ∃ i : Nat, ∃ mv : Nat, ∃ s_ : State, ((fun s => i * Tbl.get 0 s.fuses.bumpRes g / 1000000 + 30 < mv ∧ 15 ≤ (s.region g).bumpRun ∧
      ((s.modRegion g fun r => { r with bumpRun := 16 }).region g).bump = false)) (s_.adv t)) :=
  ⟨⟨0, 0, stepMv 0 - 30, 5, (up), by beta_reduce; decide +kernel⟩,
    ⟨0, 0, stepMv 0 - 91, 20, (up), by beta_reduce; decide +kernel⟩,
    ⟨0, 0, 5, 30, (up), by beta_reduce; decide +kernel⟩,
    ⟨0, 0, 5, 31, (up), by beta_reduce; decide +kernel⟩,
    ⟨0, 0, 0, 31, (region0 fun x => { x with bumpRun := 15 }), by beta_reduce; decide +kernel⟩⟩

/-- Witnesses of `HeatRowsAct`: for each clause a state and operands that meet its hypotheses, part 1. -/
theorem test_HeatRowsAct_meets :
    (∃ t : Nat, ∃ n : Nat, ∃ r : Int, ∃ s_ : State, ((fun _ => 192 ≤ n ∧ n < 240)) (s_.adv t)) ∧
    (∃ t : Nat, ∃ n : Nat, ∃ r : Int, ∃ s_ : State, ((fun s => n < 192 ∧ (n % 3 = 2 ∨ (s.region (n / 3)).logic = .on))) (s_.adv t)) ∧
    (∃ t : Nat, ∃ n : Nat, ∃ r : Int, ∃ s_ : State, ((fun _ => 240 ≤ n ∧ n < 256)) (s_.adv t)) ∧
    (∃ t : Nat, ∃ g : Nat, ∃ i, ∃ s_ : State, ((fun s => g < 64 ∧ ((List.range 3).find? fun i => s.hot (3 * g + i) s.power.throttle) = some i ∧
      (∀ f, (s.region g).thermRaise = some f → f + ftMs ≤ s.now) ∧ 0 < (s.region g).capTherm ∧ (s.region g).capTherm < 6)) (s_.adv t)) ∧
    (∃ t : Nat, ∃ g : Nat, ∃ i, ∃ s_ : State, ((fun s => g < 64 ∧ ((List.range 3).find? fun i => s.hot (3 * g + i) s.power.throttle) = some i ∧
      (∀ f, (s.region g).thermRaise = some f → f + ftMs ≤ s.now) ∧ (s.region g).capTherm = 0)) (s_.adv t)) ∧
    (∃ t : Nat, ∃ g : Nat, ∃ c, ∃ s_ : State, ((fun s => (s.region g).coolSince = some c ∧ c + 10 * ftMs ≤ s.now ∧ 0 < (s.region g).capTherm)) (s_.adv t)) ∧
    (∃ t : Nat, ∃ n : Nat, ∃ h, ∃ s_ : State, ((fun s => Tbl.get none s.power.hotSince n = some h ∧ h + 100 * ftUs ≤ s.now ∧ s.hub.tripped = false)) (s_.adv t)) ∧
    (∃ t : Nat, ∃ g : Nat, ∃ c : Nat, ∃ cause : Nat, ∃ s_ : State, ((fun s => g < 64 ∧ c < 8 ∧ (if c < 6 then bitAt (s.region g).logicFail c else bitAt (s.region g).arrayFail (c - 6)) = false ∧
      (s.region g).logic ≠ .dark)) (s_.adv t)) ∧
    (∃ t : Nat, ∃ g : Nat, ∃ c : Nat, ∃ cause : Nat, ∃ s_ : State, ((fun s => g < 64 ∧ 8 ≤ c ∧ c < 10 ∧ s.power.netFail.contains (2 * (g / 8) + (c - 8)) = false)) (s_.adv t)) :=
  ⟨⟨0, 192, 0, (up), by beta_reduce; decide +kernel⟩,
    ⟨0, 191, 5, (up), by beta_reduce; decide +kernel⟩,
    ⟨0, 240, -5, (up), by beta_reduce; decide +kernel⟩,
    ⟨0, 0, 1, (region0 fun x => { x with sensors := [(1, some 2000)], capTherm := 2 }), ⟨by decide +kernel, by decide +kernel, (fun f hf => by
      have h0 : ((((region0 fun x => { x with sensors := [(1, some 2000)], capTherm := 2 }) : State).adv 0).region 0).thermRaise = none := by decide +kernel
      rw [h0] at hf; cases hf), by decide +kernel, by decide +kernel⟩⟩,
    ⟨0, 0, 1, (region0 fun x => { x with sensors := [(1, some 2000)], capTherm := 0 }), ⟨by decide +kernel, by decide +kernel, (fun f hf => by
      have h0 : ((((region0 fun x => { x with sensors := [(1, some 2000)], capTherm := 0 }) : State).adv 0).region 0).thermRaise = none := by decide +kernel
      rw [h0] at hf; cases hf), by decide +kernel⟩⟩,
    ⟨10 * ftMs, 0, 0, (region0 fun x => { x with coolSince := some 0, capTherm := 1 }), by beta_reduce; decide +kernel⟩,
    ⟨100 * ftUs, 3, 0, ({ up with power := { up.power with hotSince := [(3, some 0)] } }), by beta_reduce; decide +kernel⟩,
    ⟨0, 63, 7, 2, (up), by beta_reduce; decide +kernel⟩,
    ⟨0, 63, 9, 2, (up), by beta_reduce; decide +kernel⟩⟩

/-- Witnesses of `HeatRowsAct`: for each clause a state and operands that meet its hypotheses, part 2. -/
theorem test_HeatRowsAct_meets_2 :
    (∃ t : Nat, ∃ g : Nat, ∃ m : Bool, ∃ s_ : State, ((fun s => (s.region g).logic = .poweringUp ∧ (s.region g).puDue ≤ s.now ∧ (200 * ftUs ≤ (s.region g).puPaused ∨ m = true))) (s_.adv t)) ∧
    (∃ t : Nat, ∃ g : Nat, ∃ s_ : State, ((fun s => (s.region g).logic = .poweringUp ∧ (s.region g).puPaused < 200 * ftUs ∧ (s.region g).puLast + 2000 ≤ s.now)) (s_.adv t)) :=
  ⟨⟨2000, 0, true, (region0 fun x => { x with logic := .poweringUp, puGroups := 3 }), by beta_reduce; decide +kernel⟩,
    ⟨2000, 0, (region0 fun x => { x with logic := .poweringUp, puGroups := 3 }), by beta_reduce; decide +kernel⟩⟩

/-- Witnesses of `TimeRowsAct`: for each clause a state and operands that meet its hypotheses, part 1. -/
theorem test_TimeRowsAct_meets :
    (∃ t : Nat, ∃ m : PtpMsg, ∃ a : PtpMaster, ∃ s_ : State, ((fun s => s.time.takes m = true)) (s_.adv t)) ∧
    (∃ t : Nat, ∃ m : PtpMsg, ∃ b : PtpBody, ∃ s_ : State, ((fun s => s.time.takes m = true ∧ (∀ a, b ≠ .announce a) ∧ b ≠ .pdelayReq ∧ (∀ x y, b ≠ .pdelayResp x y) ∧ s.time.fromMaster m = true)) (s_.adv t)) ∧
    (∃ t : Nat, ∃ m : PtpMsg, ∃ s_ : State, ((fun s => s.time.takes m = true)) (s_.adv t)) ∧
    (∃ t : Nat, ∃ m : PtpMsg, ∃ a : Nat, ∃ b : Nat, ∃ s_ : State, ((fun s => s.time.takes m = true ∧ (∃ y ∈ s.time.master, y.port = m.port))) (s_.adv t)) ∧
    (∃ t : Nat, ∃ m : PtpMsg, ∃ b : PtpBody, ∃ s_ : State, ((fun s => s.time.takes m = false ∨ ((∀ a, b ≠ .announce a) ∧ b ≠ .pdelayReq ∧ (∀ x y, b ≠ .pdelayResp x y) ∧ s.time.fromMaster m = false) ∨
      ((∃ x y, b = .pdelayResp x y) ∧ ∀ y ∈ s.time.master, y.port ≠ m.port))) (s_.adv t)) ∧
    (∃ t : Nat, ∃ port : Nat, ∃ s_ : State, ((fun _ => True)) (s_.adv t)) ∧
    (∃ t : Nat, ∃ p : Nat, ∃ s_ : State, ((fun s => (s.port p).st = .up)) (s_.adv t)) ∧
    (∃ t : Nat, ∃ s_ : State, ((fun s => s.time.state = 2 ∧ s.sourceLives = false)) (s_.adv t)) ∧
    (∃ t : Nat, ∃ s_ : State, ((fun s => (s.time.state = 2 → s.sourceLives = true) ∧ s.timeSource.code = 0)) (s_.adv t)) :=
  ⟨⟨0, { port := 1 }, { port := 1 }, (up), by beta_reduce; decide +kernel⟩,
    ⟨0, {}, PtpBody.sync (logInterval := 0) (origin := none), ({ up with time := { up.time with master := some {} } }), (by
    refine ⟨by decide +kernel, ?_, by decide +kernel, ?_, by decide +kernel⟩
    · intro a h; cases h
    · intro a b h; cases h)⟩,
    ⟨0, {}, (up), by beta_reduce; decide +kernel⟩,
    ⟨0, {}, 5, 3, ({ up with time := { up.time with master := some {} } }), ⟨by decide +kernel, {}, rfl, rfl⟩⟩,
    ⟨0, { version := 1 }, .other, (up), Or.inl (by decide +kernel)⟩,
    ⟨0, 0, (up), by beta_reduce; decide +kernel⟩,
    ⟨0, 0, (port0 fun x => { x with st := .up, lanes := [0, 1, 2, 3, 4, 5, 6, 7], lsOk := true }), by beta_reduce; decide +kernel⟩,
    ⟨0, ({ up with time := { up.time with state := 2, source := 1 } }), by beta_reduce; decide +kernel⟩,
    ⟨0, ({ up with time := { up.time with state := 1 } }), by beta_reduce; decide +kernel⟩⟩

/-- Witnesses of `TimeRowsAct`: for each clause a state and operands that meet its hypotheses, part 2. -/
theorem test_TimeRowsAct_meets_2 :
    (∃ t : Nat, ∃ o : Int, ∃ s_ : State, ((fun s => (s.time.state = 2 → s.sourceLives = true) ∧ s.timeSource.code ≠ 0 ∧ s.timeSource.offset = some o)) (s_.adv t)) ∧
    (∃ t : Nat, ∃ s_ : State, ((fun s => (s.time.state = 2 → s.sourceLives = true) ∧ s.timeSource.code ≠ 0 ∧ s.timeSource.offset = none)) (s_.adv t)) ∧
    (∃ t : Nat, ∃ s_ : State, ((fun s => s.time.state = 3 ∧ s.time.holdSince + 600 * ftSec ≤ s.now)) (s_.adv t)) ∧
    (∃ t : Nat, ∃ d, ∃ i, ∃ s_ : State, ((fun s => s.time.syncEn = true ∧ (∀ e, s.time.syncEdge = some e → e + ftMs ≤ s.now) ∧ s.syncTwin = some (d, i))) (s_.adv t)) ∧
    (∃ t : Nat, ∃ c : Nat, ∃ s_ : State, ((fun s => s.time.syncEn = true)) (s_.adv t)) ∧
    (∃ t : Nat, ∃ s_ : State, ((fun s => s.time.syncOffset.isSome = true ∧ s.time.syncPair + 2 * ftSec ≤ s.now)) (s_.adv t)) :=
  ⟨⟨0, (((({ up with time := { up.time with master := some {}, ptpPair := some (9, 5) } })).adv (0)).timeSource.offset).getD 0, ({ up with time := { up.time with master := some {}, ptpPair := some (9, 5) } }), by beta_reduce; decide +kernel⟩,
    ⟨0, ({ up with time := { up.time with master := some {} } }), by beta_reduce; decide +kernel⟩,
    ⟨600 * ftSec, ({ up with time := { up.time with state := 3 } }), by beta_reduce; decide +kernel⟩,
    ⟨0, 6, 1, (({ up with time := { up.time with syncEn := true } } : State).modTwin 0 fun x => { x with st := .bound, peerDev := 6, portA := 1 }), ⟨by decide +kernel, (fun f hf => by
      have h0 : ((({ up with time := { up.time with syncEn := true } } : State).modTwin 0 fun x => { x with st := .bound, peerDev := 6, portA := 1 }).adv 0).time.syncEdge = none := by decide +kernel
      rw [h0] at hf; cases hf), by decide +kernel⟩⟩,
    ⟨0, 5, ({ up with time := { up.time with syncEn := true } }), by beta_reduce; decide +kernel⟩,
    ⟨2 * ftSec, ({ up with time := { up.time with syncOffset := some 3 } }), by beta_reduce; decide +kernel⟩⟩

/-- Witnesses of `HeraldRetains`: for each clause a state and operands that meet its hypotheses. -/
theorem test_HeraldRetains_meets :
    (∃ t : Nat, ∃ v : Vote, ∃ h : Herald, ∃ o : OutcomePkt, ∃ s_ : State, ((fun s => s.voteValid v = true ∧ s.herald v.group = some h ∧ o ∈ h.outcomes ∧
      (h.outcomes.find? fun o => o.step == v.step && o.attempt == v.attempt) = some o)) (s_.adv t)) :=
  ⟨0, { device := 5 }, { members := [5], outcomes := [{}] }, {}, ({ up with heralds := [(0, some { members := [5], outcomes := [{}] })] }), by beta_reduce; decide +kernel⟩

/-- Witnesses of `EventsNeverWait`: for each clause a state and operands that meet its hypotheses. -/
theorem test_EventsNeverWait_meets :
    (∃ t : Nat, ∃ h : Nat, ∃ s_ : State, ((fun s => s.hub.inReset = false ∧ s.ev.dropped ≠ 0 ∧ (s.ev.tail + 1) % 2048 ≠ h % 2048)) (s_.adv t)) :=
  ⟨0, 5, ({ up with ev := { up.ev with dropped := 1 } }), by beta_reduce; decide +kernel⟩

/-- Witnesses of `FramesMeasure`: for each clause a state and operands that meet its hypotheses. -/
theorem test_FramesMeasure_meets :
    (∃ t : Nat, ∃ p : Nat, ∃ f : TimeFrame, ∃ s_ : State, ((fun s => (s.port p).st = .up ∧ f.echoTx ≠ 0 ∧ (s.portTime p).sent.contains f.echoTx = true ∧
      0 ≤ (((s.now : Int) - f.echoTx) - ((f.txFt : Int) - f.echoRx)) / 2 ∧ (((s.now : Int) - f.echoTx) - ((f.txFt : Int) - f.echoRx)) / 2 ≤ 40000)) (s_.adv t)) ∧
    (∃ t : Nat, ∃ p : Nat, ∃ f : TimeFrame, ∃ s_ : State, ((fun s => (s.port p).st = .up ∧ (f.echoTx = 0 ∨ (s.portTime p).sent.contains f.echoTx = false ∨
      (((s.now : Int) - f.echoTx) - ((f.txFt : Int) - f.echoRx)) / 2 < 0 ∨ 40000 < (((s.now : Int) - f.echoTx) - ((f.txFt : Int) - f.echoRx)) / 2))) (s_.adv t)) ∧
    (∃ t : Nat, ∃ p : Nat, ∃ s_ : State, ((fun s => (s.port p).st = .up)) (s_.adv t)) :=
  ⟨⟨1100, 0, { echoTx := 1000, echoRx := 50, txFt := 60 }, (({ (port0 fun x => { x with st := .up }) with time := { up.time with ports := [(0, { sent := [1000] })] } } : State)), by beta_reduce; decide +kernel⟩,
    ⟨1100, 0, {}, (({ (port0 fun x => { x with st := .up }) with time := { up.time with ports := [(0, { sent := [1000] })] } } : State)), by beta_reduce; decide +kernel⟩,
    ⟨0, 0, (port0 fun x => { x with st := .up, lanes := [0, 1, 2, 3, 4, 5, 6, 7], lsOk := true }), by beta_reduce; decide +kernel⟩⟩

/-- `StepTakesTheFront`, `ExecKeepsQueue`: a queue with a command at its front, which answers a next state, and the empty one. -/
theorem test_front :
    (∃ c rest, ∃ s : State, s.pending = c :: rest ∧ ∃ s', exec c { s with pending := rest } = .next s') ∧ (∃ s : State, s.pending = [] ∧ step s = .next s) :=
  ⟨⟨.ftNowRead 5, [.servoUpdate 6], { up with pending := [.ftNowRead 5, .servoUpdate 6] }, rfl, _, rfl⟩, up, rfl, rfl⟩

/-- `StepKeepsMemory`: a write of CXL.mem into a mapped page, from a memory in its canonical form. -/
theorem test_StepKeepsMemory_meets : ∃ s s' : State, s.MemInv ∧ s.mem.dram ≠ [] ∧ step s = .next s' :=
  ⟨{ page1 { ppn := 1, owner := 0xFF, kind := .window } with
      mem := { (page1 { ppn := 1, owner := 0xFF, kind := .window }).mem with dram := [(pageBytes, 7)] }
      pending := [.cxlMemWrite 0 pageBytes { bytes := [1, 2] }] }, _, by unfold State.MemInv; decide +kernel, by simp, rfl⟩

/-- `ArgumentsRoundTrip`: fields at their largest values, the second aligned after a pad; bytes that unpack. -/
theorem test_ArgumentsRoundTrip_meets :
    (∃ fs : List (Nat × Nat), (∀ f ∈ fs, f.2 < 2 ^ f.1) ∧ fs.length = 2) ∧ unpack [8, 32] (pack [(8, 255), (32, 2 ^ 32 - 1)]) = some [255, 2 ^ 32 - 1] ∧
    pack [(8, 255), (32, 7)] = 255 + 2 ^ 32 * 7 :=
  ⟨⟨[(8, 255), (32, 2 ^ 32 - 1)], by decide, rfl⟩, by decide +kernel, by decide +kernel⟩

/-- `DigestsAreLinear`: two pages of one length. -/
theorem test_DigestsAreLinear_meets : ∃ xs ys : List (BitVec 128), xs.length = ys.length ∧ xs ≠ ys := ⟨[1], [2], rfl, by decide⟩

/-- `HeraldRetains`: a group with a Herald here, packets of class 0 on hold and not. -/
theorem test_HeraldRetains_group : ∃ (s : State) (g : Nat) (h : Herald), s.herald g = some h ∧ 5 ∈ h.members ∧ (s.rcfg 0).hold = false ∧
    ({ s with routing := { s.routing with cfg := [(0, { hold := true })] } }.rcfg 0).hold = true :=
  ⟨{ up with heralds := [(0, some { members := [5] })] }, 0, { members := [5] }, by decide +kernel, by decide, by decide +kernel, by decide +kernel⟩

/-- Mailbox 3 of a started device. -/
def mb3 (f : Mailbox → Mailbox) : State := up.modMb 3 f

/-- `CompletionStalls`: a running command with a full ring; a stalled mailbox; a kept completion and a freed slot. -/
theorem test_CompletionStalls_meets :
    (∃ (s : State) (mb : Nat) (d : Desc), mb < 16 ∧ (s.mbx mb).running = some d ∧ (s.mbx mb).discard = false ∧ (s.mbx mb).cplFull = true) ∧
    (∃ (s : State) (mb : Nat), (s.mbx mb).running = none ∧ (s.mbx mb).stalled = true) ∧
    (∃ (s : State) (mb head : Nat) (c : Completion) (irq : Bool), (s.mbx mb).kept = some (c, irq) ∧ ((s.mbx mb).cplTail + 1) % 64 ≠ head % 64) :=
  ⟨⟨mb3 fun m => { m with running := some {}, cplTail := 63 }, 3, {}, by decide +kernel, by decide +kernel, by decide +kernel, by decide +kernel⟩,
    ⟨mb3 fun m => { m with stalled := true }, 3, by decide +kernel, by decide +kernel⟩,
    mb3 fun m => { m with stalled := true, kept := some ({}, true), cplTail := 63 }, 3, 1, {}, true, by decide +kernel, by decide +kernel⟩

/-- `MailboxResetLeaves`: an owner's mailbox, an admin's, another mailbox, and a running command whose completion is discarded. -/
theorem test_MailboxResetLeaves_meets :
    (∃ (s : State) (mb : Nat), mb < 16 ∧ (s.mbx mb).role = 2) ∧ (∃ (s : State) (mb : Nat), mb < 16 ∧ (s.mbx mb).role = 1) ∧
    (∃ (s : State) (mb : Nat) (d : Desc), (s.mbx mb).running = some d ∧ (s.mbx mb).discard = true) :=
  ⟨⟨mb3 fun m => { m with role := 2, queue := [{}] }, 3, by decide +kernel, by decide +kernel⟩, ⟨up, 0, by decide +kernel, by decide +kernel⟩,
    mb3 fun m => { m with running := some {}, discard := true }, 3, {}, by decide +kernel, by decide +kernel⟩

/-- `EventsNeverWait`: a full ring and an unmasked event. -/
theorem test_EventsNeverWait_full : ∃ (s : State) (code : Nat), s.ev.enable = true ∧ s.masked 0 code = false ∧ s.evFull = true ∧
    (Tbl.get ({}, {}) s.ev.latest code).2.v < ctr48Max ∧ s.ev.lost.v < ctr48Max :=
  ⟨{ up with ev := { up.ev with enable := true, tail := 2047 } }, 0x0105, by decide +kernel, by decide +kernel, by decide +kernel,
    by decide +kernel, by decide +kernel⟩

/-- `GateRefuses`: each check refuses some command. -/
theorem test_GateRefuses_meets :
    (∃ (f : CmdDef) (s : State) (mb : Nat) (d : Desc) (e : ExtIn) (st : Nat), (s.mbx mb).running = none ∧ (s.mbx mb).queue.head? = some d ∧
      (s.mbx mb).stalled = false ∧ (s.hub.hostload = false ∨ mb = 0) ∧ knownOps.contains d.opcode = true ∧ d.opcode = f.op ∧ f.sel d = true ∧
      (s.taken mb d e).gate f (f.cmd mb d) = st ∧ st ≠ 0) ∧
    (∃ (s : State) (f : CmdDef), f.early = false ∧ (s.hub.ready = false ∨ s.hub.halted = true)) ∧
    (∃ (s : State) (f : CmdDef) (c : Cmd), s.hub.ready = true ∧ s.hub.halted = false ∧ roleOk f.role (s.mbx c.mb) c.mb c.part = false) ∧
    (∃ (s : State) (f : CmdDef) (c : Cmd), s.hub.ready = true ∧ s.hub.halted = false ∧ roleOk f.role (s.mbx c.mb) c.mb c.part = true ∧
      c.d.reservedZero = false) ∧
    (∃ r mb part, (({} : Mailbox).role = 0) ∧ roleOk r {} mb part = true) ∧
    (∃ (s : State) (mb : Nat) (d : Desc) (rest : List Desc), (s.mbx mb).running = none ∧ (s.mbx mb).stalled = false ∧ (s.mbx mb).queue = d :: rest ∧
      knownOps.contains d.opcode = false) :=
  ⟨⟨cmdThermalSet, queued up 1 (dsc cmdThermalSet 0 [90]), 1, dsc cmdThermalSet 0 [90], {}, stNoCredential, by decide +kernel, by decide +kernel,
      by decide +kernel, by decide +kernel, by decide +kernel, by decide +kernel, by decide +kernel, by decide +kernel, by decide +kernel⟩,
    ⟨State.reset, cmdThermalSet, by decide +kernel, by decide +kernel⟩,
    ⟨up, cmdThermalSet, cmdThermalSet.cmd 1 (dsc cmdThermalSet 0 [90]), by decide +kernel, by decide +kernel, by decide +kernel⟩,
    ⟨up, cmdThermalSet, cmdThermalSet.cmd 0 { word := 2 ^ 17 }, by decide +kernel, by decide +kernel, by decide +kernel, by decide +kernel⟩,
    ⟨.free, 3, 0, by decide +kernel, by decide +kernel⟩,
    queued up 0 { word := 0xEEEE }, 0, { word := 0xEEEE }, [], by decide +kernel, by decide +kernel, by decide +kernel, by decide +kernel⟩

/-- `SealMovesSides`: a prepared attempt of a job that retains one earlier generation, with a dirty mask. -/
theorem test_SealMovesSides_meets : ∃ (j : Job) (i : Nat), j.prepared = some i ∧ j.depth = 2 ∧ j.maskTable ≠ [] :=
  ⟨{ prepared := some 3, depth := 2, maskTable := [(1, 5)] }, 3, by decide +kernel, by decide +kernel, by decide +kernel⟩

/-- `TilesHaveBlocks`: the last tile. -/
theorem test_tile_last : tileBlock 8191 = 63 ∧ tileLocal 8191 = 127 ∧ tileOf 63 127 = 8191 := by decide +kernel

/-- A reading of no row: no word of the table spells a command. -/
theorem test_no_words (n w : Nat) : decodeTableWord n w = none ∧ up.withFetchWord n w = up := ⟨rfl, rfl⟩

end Sys2Proof.Tests
end

section
/-! PROOFS. The host's ports, the management Ethernet and the TAP (00 R7; 14 R435 to R464; 17 R544; 18 R566): for each row the condition under
which it takes effect, and the next state. -/

namespace Sys2Proof.Machine

/-! ## Rows that the host sends (R435 to R446, R459) -/

/-- A row with one guard, which leaves the device as it is where the guard fails, has its effect where the guard holds. -/
theorem does_of_guard {t : Nat} {i : Instr} {cond guard : State → Prop} [DecidablePred guard] {effect : State → State}
    (hexec : ∀ s, exec i s = .next (if guard (s.adv t) then effect (s.adv t) else s.adv t)) (hguard : ∀ s, cond s → guard s) :
    Does t i cond effect := by
  intro s hcond
  rw [hexec, if_pos (hguard _ hcond)]

/-- A doorbell is taken out of reset (R439). -/
theorem doorbell_does (t mb tail : Nat) :
    Does t (.doorbell t mb tail) (fun s => mb < 16 ∧ s.hub.inReset = false) fun s => s.doorbell mb tail :=
  does_of_guard (guard := fun s => mb < 16 ∧ ¬ s.hub.inReset) (fun _ => rfl) fun _ h => by simpa using h

/-- A mailbox reset is taken out of reset, on a management mailbox too (R446). -/
theorem mailboxReset_does (t mb : Nat) :
    Does t (.mailboxReset t mb) (fun s => mb < 24 ∧ s.hub.inReset = false) fun s => s.mbReset mb :=
  does_of_guard (guard := fun s => mb < 24 ∧ ¬ s.hub.inReset) (fun _ => rfl) fun _ h => by simpa using h

/-- A completion head is taken out of reset (R444). -/
theorem cplHeadWrite_does (t mb head : Nat) :
    Does t (.cplHeadWrite t mb head) (fun s => mb < 16 ∧ s.hub.inReset = false) fun s => s.cplHeadTo mb head :=
  does_of_guard (guard := fun s => mb < 16 ∧ ¬ s.hub.inReset) (fun _ => rfl) fun _ h => by simpa using h

/-- An event head is taken out of reset, and the space it frees is used (R460). -/
theorem evHeadWrite_does (t head : Nat) :
    Does t (.evHeadWrite t head) (fun s => s.hub.inReset = false) fun s =>
      ({ s with ev := { s.ev with head := head % 2048 } } : State).evSpace := by
  intro s hup
  show execEvHeadWrite t head s = _
  simp only [execEvHeadWrite, hup, Bool.false_eq_true, if_false]

/-- A write of an aligned word touches that word alone (R7). -/
theorem registerWrite_word_does (t off val : Nat) :
    Does t (.registerWrite t off 8 val) (fun s => s.hub.inReset = false ∧ off % 8 = 0) fun s =>
      s.writeWord off (wordAt off (leBytes 8 val) off).1 (wordAt off (leBytes 8 val) off).2 := by
  rintro s ⟨hup, halign⟩
  have hwords : List.range ((off % 8 + 8 + 7) / 8) = [0] := by rw [halign]; rfl
  have hfirst : off / 8 * 8 + 8 * 0 = off := by omega
  show execRegisterWrite t off 8 val s = _
  simp only [execRegisterWrite, hup, Bool.false_eq_true, if_false, hwords, List.foldl_cons, List.foldl_nil, hfirst]

/-- A reset of the host port resets the BAR0 mailboxes, masks every MSI-X vector, empties the event ring and clears the HDM decoder (R435). -/
theorem hostPortReset_does (t : Nat) : Does t (.hostPortReset t) (fun _ => True) fun s =>
    let s1 := (List.range 16).foldl State.mbReset s
    ({ s1 with
      msix := (List.range 64).foldl (fun m v => Tbl.set {} v { (Tbl.get {} m v : MsixEnt) with masked := true } m) s1.msix
      ev := { s1.ev with ring := [], tail := 0, head := 0, phase := true }
      mem := { s1.mem with hdmOn := false, hdmBase := 0 } } : State).evSpace := by
  intro s _
  show execHostPortReset t s = _
  simp only [execHostPortReset]

/-- A read of `FT_NOW` samples the time that the row has reached (R437). -/
theorem ftNowRead_does (t : Nat) :
    Does t (.ftNowRead t) (fun _ => True) fun s => s.modHub fun h => { h with ftNow := s.now } := fun _ _ => rfl

/-! ## A frame of the management Ethernet (R463, R464) -/

/-- A packet that joins its message: the message is taken when the packet ends it, else it is kept for the packets to come (R464). -/
theorem mgmtFrameReceive_does (t port : Nat) (frame : List Byte) (mac : Nat) (b bs : List Byte) :
    Does t (.mgmtFrameReceive t port frame)
      (fun s => framePayload frame = some (mac, b) ∧ port < 2 ∧ s.hub.inReset = false ∧ num b 0 1 = 1 ∧
        num b 8 1 % 16 = 1 ∧ num b 9 1 = s.hub.config.mctpEid ∧ 12 ≤ b.length ∧ b.length ≤ 1036 ∧
        joinPacket (((s.mgmtPort port).reasm.find? (·.1 == (mac, num b 10 1, num b 11 1 % 16))).map (·.2)) (bitOn (num b 11 1) 7)
          (num b 11 1 / 16 % 4) (b.drop 12) = some bs) fun s =>
      let rest := (s.mgmtPort port).reasm.filter fun x => x.1 != (mac, num b 10 1, num b 11 1 % 16)
      let s1 := s.modMgmt port fun x => { x with link := true, reasm := rest }
      if bitOn (num b 11 1) 6 = true then s1.mgmtTake port { mac := leBytes 6 mac, eid := num b 10 1, tag := num b 11 1 % 8 } bs
      else s1.modMgmt port fun x => { x with reasm := rest ++ [((mac, num b 10 1, num b 11 1 % 16), (num b 11 1 / 16 + 1) % 4, bs)] } := by
  rintro s ⟨hpayload, hport, hup, hversion, hdest, heid, hmin, hmax, hjoin⟩
  have haccept : ¬ (2 ≤ port ∨ (s.adv t).hub.inReset = true ∨ num b 0 1 ≠ 1 ∨ num b 8 1 % 16 ≠ 1 ∨
      num b 9 1 ≠ (s.adv t).hub.config.mctpEid ∨ 1036 < b.length ∨ b.length < 12) := by
    simp only [hup, Bool.false_eq_true, false_or]
    omega
  show execMgmtFrameReceive t port frame s = _
  simp only [execMgmtFrameReceive, hpayload, if_neg haccept, hjoin]

/-! ## The TAP (R544, R566) -/

/-- `IDCODE` answers at all times, with the TAP in bypass (R566). -/
theorem jtagInstruction_idcode_does (t : Nat) : Does t (.jtagInstruction t 0) (fun _ => True) fun s =>
    ({ s with sec := { s.sec with tap := 0 } } : State).emit (.jtag (1#4 ++ 0x8A08#16 ++ Config.jedec ++ 1#1)) := fun _ _ => rfl

/-- `BYPASS` is answered at all times (R566). -/
theorem jtagInstruction_bypass_does (t : Nat) :
    Does t (.jtagInstruction t 1) (fun _ => True) fun s => { s with sec := { s.sec with tap := 0 } } := fun _ _ => rfl

/-- An instruction of an open debug scope goes to the TAP (R544). -/
theorem jtagInstruction_open_does (t ir : Nat) :
    Does t (.jtagInstruction t ir) (fun s => 2 ≤ ir ∧ ir ≤ 6 ∧ bitAt s.sec.debug (ir - 2) = true) fun s =>
      { s with sec := { s.sec with tap := ir } } := by
  rintro s ⟨hmin, hmax, hopen⟩
  have h0 : ir ≠ 0 := by omega
  have h1 : ir ≠ 1 := by omega
  show execJtagInstruction t ir s = _
  simp only [execJtagInstruction, if_neg h0, if_neg h1, if_pos (And.intro hmin (And.intro hmax hopen))]

/-- An instruction of no open scope leaves the TAP in bypass and alarms (R544, R566). -/
theorem jtagInstruction_closed_does (t ir : Nat) :
    Does t (.jtagInstruction t ir) (fun s => 2 ≤ ir ∧ (6 < ir ∨ bitAt s.sec.debug (ir - 2) = false)) fun s =>
      ({ s with sec := { s.sec with tap := 0 } } : State).alarm 5 0 0 := by
  rintro s ⟨hmin, hclosed⟩
  have h0 : ir ≠ 0 := by omega
  have h1 : ir ≠ 1 := by omega
  have hscope : ¬ (2 ≤ ir ∧ ir ≤ 6 ∧ bitAt (s.adv t).sec.debug (ir - 2) = true) := by
    rintro ⟨-, hmax, hopen⟩
    rcases hclosed with hbig | hshut
    · omega
    · exact Bool.false_ne_true (hshut.symm.trans hopen)
  show execJtagInstruction t ir s = _
  simp only [execJtagInstruction, if_neg h0, if_neg h1, if_neg hscope]

/-- Settles O39: each row of the host's ports has its effect, one lemma per row and branch. A reset of the host port, a read of `FT_NOW` and the
TAP act in reset too: their conditions do not ask for it. -/
theorem hostRowsAct : Obligations.HostRowsAct := by
  unfold Obligations.HostRowsAct
  exact ⟨doorbell_does, mailboxReset_does, cplHeadWrite_does, evHeadWrite_does, registerWrite_word_does, hostPortReset_does,
    ftNowRead_does, mgmtFrameReceive_does, jtagInstruction_idcode_does, jtagInstruction_bypass_does, jtagInstruction_open_does,
    jtagInstruction_closed_does⟩

end Sys2Proof.Machine
end

section
/-! PROOFS. What a signal to the host changes, and where an injected packet stands (11 R358, R359; 14 R458 to R465). -/

namespace Sys2Proof.Machine

/-! ## Signals (R458 to R465) -/

/-- `s'` is `s` after signals to the host: the event block, the MSI-X table and the management ports may have changed, and more may have been sent. -/
def State.Signalled (s s' : State) : Prop :=
  ∃ ev msix mgmt out, s' = { s with ev := ev, msix := msix, mgmt := mgmt, sent := s.sent ++ out }

namespace State.Signalled

theorem refl (s : State) : s.Signalled s := ⟨s.ev, s.msix, s.mgmt, [], by rw [List.append_nil]⟩

theorem trans {s s' s'' : State} (h : s.Signalled s') (h' : s'.Signalled s'') : s.Signalled s'' := by
  obtain ⟨ev, msix, mgmt, out, rfl⟩ := h
  obtain ⟨ev', msix', mgmt', out', rfl⟩ := h'
  exact ⟨ev', msix', mgmt', out ++ out', by simp only [List.append_assoc]⟩

/-- A run of signals is a signal. -/
theorem foldl {α : Type} {f : State → α → State} (hf : ∀ (s : State) a, s.Signalled (f s a)) (l : List α) (s : State) :
    s.Signalled (l.foldl f s) :=
  List.foldlRecOn l f (motive := s.Signalled) (refl s) fun x hx a _ => hx.trans (hf x a)

theorem ite {s a b : State} {c : Prop} [Decidable c] (ha : s.Signalled a) (hb : s.Signalled b) : s.Signalled (if c then a else b) := by
  split
  · exact ha
  · exact hb

/-- A change of the event block alone. -/
theorem of_ev (s : State) (e : Events) : s.Signalled { s with ev := e } := ⟨e, s.msix, s.mgmt, [], by rw [List.append_nil]⟩

variable {s s' : State} (h : s.Signalled s')
include h

theorem heralds : s'.heralds = s.heralds := by obtain ⟨_, _, _, _, rfl⟩ := h; rfl
theorem herald (g : Nat) : s'.herald g = s.herald g := by rw [State.herald, h.heralds]; rfl
theorem routing : s'.routing = s.routing := by obtain ⟨_, _, _, _, rfl⟩ := h; rfl
theorem hub : s'.hub = s.hub := by obtain ⟨_, _, _, _, rfl⟩ := h; rfl
theorem parts : s'.parts = s.parts := by obtain ⟨_, _, _, _, rfl⟩ := h; rfl
theorem regions : s'.regions = s.regions := by obtain ⟨_, _, _, _, rfl⟩ := h; rfl
theorem time : s'.time = s.time := by obtain ⟨_, _, _, _, rfl⟩ := h; rfl

/-- What had been sent stays sent. -/
theorem mem_sent {m : OutMsg} (hm : m ∈ s.sent) : m ∈ s'.sent := by
  obtain ⟨_, _, _, out, rfl⟩ := h
  exact List.mem_append_left out hm

end State.Signalled

theorem msixFire_signalled (s : State) (v : Nat) : s.Signalled (s.msixFire v) :=
  .ite ⟨s.ev, _, s.mgmt, [], by rw [List.append_nil]⟩ ⟨s.ev, _, s.mgmt, [.msix v], rfl⟩

theorem evSignal_signalled (s : State) : s.Signalled s.evSignal :=
  .ite ((State.Signalled.of_ev s _).trans (msixFire_signalled _ 16)) (.refl s)

theorem evWrite_signalled (s : State) (e : EventRec) : s.Signalled (s.evWrite e) := by
  unfold State.evWrite
  extract_lets r t ev s1
  have hwritten : s.Signalled s1 := (State.Signalled.of_ev s _).trans (evSignal_signalled _)
  exact .ite (hwritten.trans (msixFire_signalled _ 17)) hwritten

theorem evPost_signalled (s : State) (e : EventRec) : s.Signalled (s.evPost e) :=
  .ite (.ite (.of_ev s _) (evWrite_signalled s e)) (.refl s)

theorem mgmtSend_signalled (s : State) (port : Nat) (dst : MgmtAddr) (own : Bool) (mop mb : Nat) (body : List Byte) :
    s.Signalled (s.mgmtSend port dst own mop mb body) :=
  State.Signalled.foldl (fun x _ => ⟨x.ev, x.msix, _, [_], rfl⟩) _ s

theorem evStream_signalled (s : State) (i : Nat) (e : EventRec) : s.Signalled (s.evStream i e) :=
  .ite (mgmtSend_signalled s i _ _ _ _ _) (.refl s)

theorem eventRaw_signalled (s : State) (code part : Nat) (arg : List (Nat × Nat)) : s.Signalled (s.eventRaw code part arg) :=
  (((State.Signalled.of_ev s _).trans (evPost_signalled _ _)).trans (evStream_signalled _ 0 _)).trans (evStream_signalled _ 1 _)

/-- An event is a signal, with the counter overflows that it raises (R330). -/
theorem event_signalled (s : State) (code part : Nat) (arg : List (Nat × Nat)) : s.Signalled (s.event code part arg) :=
  (eventRaw_signalled s code part arg).trans <| State.Signalled.foldl
    (fun x a => (eventRaw_signalled x 0x0103 0xFF a).trans <|
      State.Signalled.foldl (fun y b => eventRaw_signalled y 0x0103 0xFF b) _ _) _ _

theorem ovfEvent_signalled (s : State) (obj idx : Nat) : s.Signalled (s.ovfEvent obj idx) :=
  .ite (.refl s) ((State.Signalled.of_ev s _).trans (event_signalled _ 0x0103 0xFF _))

theorem ovfIf_signalled (s : State) (o : Bool) (obj idx : Nat) : s.Signalled (s.ovfIf o obj idx) :=
  .ite (ovfEvent_signalled s obj idx) (.refl s)

/-! ## Injection (R358, R359) -/

@[simp] theorem inject_rcfg (s : State) (p : Packet) (c : Nat) : (s.inject p).rcfg c = s.rcfg c := by
  unfold State.inject
  split <;> rfl

@[simp] theorem inject_heralds (s : State) (p : Packet) : (s.inject p).heralds = s.heralds := by
  unfold State.inject
  split <;> rfl

@[simp] theorem inject_mbs (s : State) (p : Packet) : (s.inject p).mbs = s.mbs := by
  unfold State.inject
  split <;> rfl

/-- A packet on hold stays on hold while another is injected. -/
theorem mem_held_inject {s : State} {p : Packet} (h : p ∈ s.routing.held) (q : Packet) : p ∈ (s.inject q).routing.held := by
  unfold State.inject
  split
  · exact List.mem_append_left _ h
  · exact h

/-- What had been sent stays sent while a packet is injected. -/
theorem mem_sent_inject {s : State} {m : OutMsg} (h : m ∈ s.sent) (q : Packet) : m ∈ (s.inject q).sent := by
  unfold State.inject
  split
  · exact h
  · exact List.mem_append_left _ h

/-- A packet of class 0 has entered the network that stood in `s`: it is among the held ones while that class is on hold, else among those
sent, under the injection version of the class (R358, R359). -/
def State.Enters (s s' : State) (p : Packet) : Prop :=
  if (s.rcfg 0).hold = true then p ∈ s'.routing.held else OutMsg.packet { p with epoch := (s.rcfg 0).ver } ∈ s'.sent

theorem inject_enters (s : State) {p : Packet} (hcls : p.cls = 0) : s.Enters (s.inject p) p := by
  unfold State.Enters State.inject
  rw [hcls]
  split
  · exact List.mem_append_right _ (List.mem_singleton.mpr rfl)
  · exact List.mem_append_right _ (List.mem_singleton.mpr rfl)

/-- What keeps the held packets and what had been sent keeps a packet where it has entered. -/
theorem State.Enters.mono {s s' s'' : State} {p : Packet} (h : s.Enters s' p) (hheld : p ∈ s'.routing.held → p ∈ s''.routing.held)
    (hsent : ∀ m ∈ s'.sent, m ∈ s''.sent) : s.Enters s'' p := by
  unfold State.Enters at *
  split at h
  case isTrue hhold => rw [if_pos hhold]; exact hheld h
  case isFalse hhold => rw [if_neg hhold]; exact hsent _ h

@[simp] theorem injects_rcfg (s : State) (ps : List Packet) (c : Nat) : (s.injects ps).rcfg c = s.rcfg c :=
  List.foldlRecOn ps _ (motive := fun x : State => x.rcfg c = s.rcfg c) rfl fun x hx p _ => (inject_rcfg x p c).trans hx

@[simp] theorem injects_heralds (s : State) (ps : List Packet) : (s.injects ps).heralds = s.heralds :=
  List.foldlRecOn ps _ (motive := fun x : State => x.heralds = s.heralds) rfl fun x hx p _ => (inject_heralds x p).trans hx

/-- A packet that has entered stays while more are injected. -/
theorem State.Enters.injects {s s' : State} {p : Packet} (h : s.Enters s' p) (ps : List Packet) : s.Enters (s'.injects ps) p :=
  List.foldlRecOn ps _ (motive := fun x : State => s.Enters x p) h fun _ hx q _ =>
    hx.mono (mem_held_inject · q) fun _ hm => mem_sent_inject hm q

/-- Every packet of class 0 of an injected list enters the network. -/
theorem injects_enters {p : Packet} (hcls : p.cls = 0) {ps : List Packet} (hp : p ∈ ps) (s : State) : s.Enters (s.injects ps) p := by
  obtain ⟨before, after, rfl⟩ := List.append_of_mem hp
  have hat : (s.injects before).Enters ((s.injects before).inject p) p := inject_enters _ hcls
  have hat' : s.Enters ((s.injects before).inject p) p := by simpa only [State.Enters, injects_rcfg] using hat
  simpa only [State.injects, List.foldl_append, List.foldl_cons] using hat'.injects after

end Sys2Proof.Machine
end

section
/-! PROOFS. The Herald (01 R44 to R50, R578): what a decided window retains and sends, what a query answers, and the effect of each of its rows. -/

namespace Sys2Proof.Machine

/-! ## What a decision retains and sends (R47, R48) -/

/-- A Herald context once it has decided a window, its statistics apart (R46 to R48). -/
def Herald.afterDecision (h : Herald) (dev now : Nat) (w : Window) : Herald :=
  let o := h.packet dev now w
  let keep := fun (st : Nat) => decide (w.step < st + 4)
  { h with
    windows := h.windows.filter fun x => !(x.step == w.step && x.attempt == w.attempt)
    outcomes := (o :: h.outcomes).filter fun x => keep x.step
    held := if o.outcome = .hold then o :: h.held else h.held
    heldVotes := if o.outcome = .hold then h.heldVotes ++ w.votes.map (·.1) else h.heldVotes
    decidedVotes := (w.votes.map (·.1) ++ h.decidedVotes).filter fun v => keep v.step }

/-- A decision sets the context, sends the outcome packet to every member, and updates the statistics. -/
theorem decideWindow_eq {s : State} {g : Nat} {h : Herald} (hg : s.herald g = some h) (w : Window) :
    s.decideWindow g w = ((s.setHerald g (some (h.afterDecision s.hub.devId s.now w))).broadcast h.members
      (h.packet s.hub.devId s.now w)).heraldStats g w := by
  simp only [State.decideWindow, hg]
  rfl

/-- The update of a group's statistics changes the statistics of its context, and signals the overflows and stragglers (R293, R294). -/
theorem heraldStats_signalled {s : State} {g : Nat} {h : Herald} (hg : s.herald g = some h) (w : Window) :
    ∃ stats, (s.setHerald g (some { h with stats := stats })).Signalled (s.heraldStats g w) := by
  simp only [State.heraldStats, hg]
  exact ⟨_, .trans (.foldl (fun x u => .foldl (fun y c => ovfEvent_signalled y _ c) _ x) _ _)
    (.foldl (fun x _ => event_signalled x _ _ _) _ _)⟩

/-- A broadcast changes no Herald context. -/
@[simp] theorem broadcast_herald (s : State) (ms : List Nat) (o : OutcomePkt) (g : Nat) : (s.broadcast ms o).herald g = s.herald g := by
  rw [State.herald, State.broadcast, injects_heralds, State.herald]

/-- A decided window leaves the context of its group after the decision, but for the statistics. -/
theorem decideWindow_herald {s : State} {g : Nat} {h : Herald} (hg : s.herald g = some h) (w : Window) :
    ∃ stats, (s.decideWindow g w).herald g = some { h.afterDecision s.hub.devId s.now w with stats := stats } := by
  rw [decideWindow_eq hg]
  obtain ⟨stats, hsig⟩ := heraldStats_signalled (s := (s.setHerald g (some (h.afterDecision s.hub.devId s.now w))).broadcast h.members
    (h.packet s.hub.devId s.now w)) (by rw [broadcast_herald, setHerald_same]) w
  exact ⟨stats, by rw [hsig.herald, setHerald_same]⟩

/-- The outcome packet of a decided window goes to every member (R47), on hold with the others of its class (R359). -/
theorem decideWindow_enters {s : State} {g m : Nat} {h : Herald} (hg : s.herald g = some h) (hm : m ∈ h.members) (w : Window) :
    s.Enters (s.decideWindow g w) (s.outcomePacket m (h.packet s.hub.devId s.now w)) := by
  rw [decideWindow_eq hg]
  set s1 := s.setHerald g (some (h.afterDecision s.hub.devId s.now w)) with hs1
  set o := h.packet s.hub.devId s.now w
  have hsent : s.Enters (s1.broadcast h.members o) (s.outcomePacket m o) :=
    injects_enters (s := s1) rfl (List.mem_map.mpr ⟨m, hm, rfl⟩)
  obtain ⟨stats, hsig⟩ := heraldStats_signalled (s := s1.broadcast h.members o) (by rw [broadcast_herald, hs1, setHerald_same]) w
  exact hsent.mono (fun hheld => by rw [hsig.routing]; exact hheld) fun _ => hsig.mem_sent

/-! ## What a query answers (R48 to R50) -/

/-- A step and attempt whose packet is retained is decided (R48). -/
theorem decided_of_find {h : Herald} {step attempt : Nat} {o : OutcomePkt}
    (hfind : (h.outcomes.find? fun o => o.step == step && o.attempt == attempt) = some o) : h.decided step attempt = true := by
  have hmem := List.mem_of_find?_eq_some hfind
  have hsame := List.find?_some hfind
  exact List.any_eq_true.mpr ⟨o, hmem, by rw [hsame, Bool.true_or]⟩

/-- A late vote changes the statistics and the votes of a context, and signals; the network and the hub stay (R49). -/
theorem lateVote_keeps (s : State) (v : Vote) : (s.lateVote v).routing = s.routing ∧ (s.lateVote v).hub = s.hub := by
  unfold State.lateVote
  split
  case h_1 => exact ⟨rfl, rfl⟩
  case h_2 h _ =>
    split
    · exact ⟨rfl, rfl⟩
    · have hsig (x : State) (o : Bool) (obj : Nat) := ovfIf_signalled x o obj 2
      exact ⟨(hsig _ _ _).routing, (hsig _ _ _).hub⟩

/-- A query of a valid vote whose step and attempt the Herald has decided: it answers with the retained packet, if it retains it still, and takes the
carried vote as late (R48, R50). -/
theorem heraldQueryReceive_decided_does (t : Nat) (v : Vote) (h : Herald) : Does t (.heraldQueryReceive t v)
    (fun s => s.voteValid v = true ∧ s.herald v.group = some h ∧ h.decided v.step v.attempt = true) fun s =>
    match h.outcomes.find? fun o => o.step == v.step && o.attempt == v.attempt with
    | some o => (s.lateVote v).inject ((s.lateVote v).outcomePacket v.device o)
    | none => s.lateVote v := by
  rintro s ⟨hvalid, hherald, hdecided⟩
  show execHeraldQueryReceive t v s = _
  simp only [execHeraldQueryReceive, hvalid, not_true_eq_false, if_false, hherald, hdecided, if_true] <;> rfl

/-- A query of a valid vote for an outcome that the Herald retains is answered with that packet (R48). -/
theorem heraldQueryReceive_gives (t : Nat) (v : Vote) (h : Herald) (o : OutcomePkt) : Gives t (.heraldQueryReceive t v)
    (fun s => s.voteValid v = true ∧ s.herald v.group = some h ∧ o ∈ h.outcomes ∧
      (h.outcomes.find? fun o => o.step == v.step && o.attempt == v.attempt) = some o) fun s s' =>
    s.Enters s' (s.outcomePacket v.device o) := by
  rintro s ⟨hvalid, hherald, -, hfind⟩
  obtain ⟨hrouting, hhub⟩ := lateVote_keeps (s.adv t) v
  refine ⟨_, heraldQueryReceive_decided_does t v h s ⟨hvalid, hherald, decided_of_find hfind⟩, ?_⟩
  have henters := inject_enters ((s.adv t).lateVote v) (p := (s.adv t).outcomePacket v.device o) rfl
  simp only [State.outcomePacket, State.commitPacket, State.Enters, State.rcfg, hfind, hrouting, hhub] at henters ⊢
  exact henters

/-- Settles O52: the retained list and the sent packets of a decision, and the answer to a query. -/
theorem heraldRetains : Obligations.HeraldRetains := by
  unfold Obligations.HeraldRetains
  refine ⟨fun s g w h hg => ⟨?_, fun m hm => decideWindow_enters hg hm w⟩, heraldQueryReceive_gives⟩
  obtain ⟨stats, hafter⟩ := decideWindow_herald hg w
  exact ⟨_, hafter, rfl⟩

/-! ## The rows of a Herald (R45, R46, R48 to R50, R578) -/

/-- A vote that fails the test of R578 is a stray vote. -/
theorem voteReceive_stray_does (t : Nat) (v : Vote) : Does t (.voteReceive t v) (fun s => s.voteValid v = false) fun s => s.strayVote := by
  intro s hinvalid
  show execVoteReceive t v s = _
  simp only [execVoteReceive, hinvalid, Bool.false_eq_true, if_false]

/-- A vote that passes it is taken. -/
theorem voteReceive_valid_does (t : Nat) (v : Vote) : Does t (.voteReceive t v) (fun s => s.voteValid v = true) fun s => s.acceptVote v := by
  intro s hvalid
  show execVoteReceive t v s = _
  simp only [execVoteReceive, hvalid, if_true]

/-- The one vote of a window is on time where it came by the deadline (R46). -/
theorem onTime_single {w : Window} {v : Vote} {ft : Nat} (hvotes : w.votes = [(v, ft)]) (hby : ft ≤ w.deadline) : w.onTime = [(v, ft)] := by
  simp [Window.onTime, hvotes, hby]

/-- A window that holds the vote of one member alone lacks every other (R46). -/
theorem missing_single {h : Herald} {w : Window} {v : Vote} {ft m : Nat} (hvotes : w.votes = [(v, ft)]) (hby : ft ≤ w.deadline)
    (hm : m ∈ h.members) (hother : m ≠ v.device) : h.missing w ≠ [] := by
  refine List.ne_nil_of_mem (a := m) (List.mem_filter.mpr ⟨hm, ?_⟩)
  simpa [onTime_single hvotes hby] using hother.symm

/-- The first vote of a step and attempt opens their window, and a Herald of more members waits for the others (R45, R46). -/
theorem acceptVote_opens {s : State} {v : Vote} {h : Herald} (hherald : s.herald v.group = some h)
    (hdecided : h.decided v.step v.attempt = false)
    (hnew : (h.windows.find? fun x => x.step == v.step && x.attempt == v.attempt) = none) (hby : s.now ≤ v.closeFt + h.deadlineUs * ftUs)
    (hmore : ∃ m ∈ h.members, m ≠ v.device) : s.acceptVote v = s.setHerald v.group (some { h with
      windows := (h.windows.filter fun x => !(x.step == v.step && x.attempt == v.attempt)) ++
        [{ step := v.step, attempt := v.attempt, baseFt := v.closeFt, deadline := v.closeFt + h.deadlineUs * ftUs, votes := [(v, s.now)] }] }) := by
  obtain ⟨m, hm, hother⟩ := hmore
  have hopen : ¬ v.closeFt + h.deadlineUs * ftUs < s.now := Nat.not_lt.mpr hby
  simp only [State.acceptVote, hherald, hdecided, hnew, if_neg hopen, List.any_nil, Bool.false_eq_true, if_false, List.nil_append]
  exact if_neg (missing_single rfl hby hm hother)

/-- A vote that opens a window (R45, R46). -/
theorem voteReceive_opens_does (t : Nat) (v : Vote) (h : Herald) : Does t (.voteReceive t v)
    (fun s => s.voteValid v = true ∧ s.herald v.group = some h ∧ h.decided v.step v.attempt = false ∧
      (h.windows.find? fun x => x.step == v.step && x.attempt == v.attempt) = none ∧ s.now ≤ v.closeFt + h.deadlineUs * ftUs ∧
      (∃ m ∈ h.members, m ≠ v.device)) fun s =>
    s.setHerald v.group (some { h with
      windows := (h.windows.filter fun x => !(x.step == v.step && x.attempt == v.attempt)) ++
        [{ step := v.step, attempt := v.attempt, baseFt := v.closeFt, deadline := v.closeFt + h.deadlineUs * ftUs, votes := [(v, s.now)] }] }) := by
  rintro s ⟨hvalid, hherald, hdecided, hnew, hby, hmore⟩
  exact (voteReceive_valid_does t v s hvalid).trans (congrArg Host.Outcome.next (acceptVote_opens hherald hdecided hnew hby hmore))

/-- A window whose deadline has passed is decided (R46 to R48). -/
theorem voteDeadlineExpire_does (t g n a : Nat) (h : Herald) (w : Window) : Does t (.voteDeadlineExpire t g n a)
    (fun s => s.herald g = some h ∧ (h.windows.find? fun x => x.step == n && x.attempt == a) = some w ∧ w.deadline ≤ s.now) fun s =>
    ((s.setHerald g (some (h.afterDecision s.hub.devId s.now w))).broadcast h.members (h.packet s.hub.devId s.now w)).heraldStats g w := by
  rintro s ⟨hherald, hfind, hpassed⟩
  show execVoteDeadlineExpire t g n a s = _
  simp only [execVoteDeadlineExpire, hherald, hfind, if_pos hpassed, decideWindow_eq hherald]

/-- A query whose vote fails the test is a stray vote (R578, log 91). -/
theorem heraldQueryReceive_stray_does (t : Nat) (v : Vote) :
    Does t (.heraldQueryReceive t v) (fun s => s.voteValid v = false) fun s => s.strayVote := by
  intro s hinvalid
  show execHeraldQueryReceive t v s = _
  simp only [execHeraldQueryReceive, hinvalid, Bool.false_eq_true, not_false_eq_true, if_true]

/-- A query for an outcome that is not decided brings its vote (R48, R50). -/
theorem heraldQueryReceive_undecided_does (t : Nat) (v : Vote) (h : Herald) : Does t (.heraldQueryReceive t v)
    (fun s => s.voteValid v = true ∧ s.herald v.group = some h ∧ h.decided v.step v.attempt = false) fun s => s.acceptVote v := by
  rintro s ⟨hvalid, hherald, hdecided⟩
  show execHeraldQueryReceive t v s = _
  simp only [execHeraldQueryReceive, hvalid, not_true_eq_false, if_false, hherald, hdecided, Bool.false_eq_true]

/-- Settles O20: each row of a Herald has its effect, one lemma per row and branch. -/
theorem heraldRowsAct : Obligations.HeraldRowsAct := by
  unfold Obligations.HeraldRowsAct
  exact ⟨voteReceive_opens_does, voteReceive_valid_does, voteReceive_stray_does, voteDeadlineExpire_does, heraldQueryReceive_decided_does,
    heraldQueryReceive_undecided_does, heraldQueryReceive_stray_does⟩

end Sys2Proof.Machine
end

section
/-! PROOFS. The seal of a prepared attempt (01 R24 to R26, R53). -/

namespace Sys2Proof.Machine

/-- A run of flips changes each page by its own masks, in their order (R24). -/
theorem get_foldl_flips (page : Nat) (flips : Tbl (BitVec 64)) : ∀ live : Tbl (BitVec 64),
    Tbl.get 0 (flips.foldl (fun t e => Tbl.set 0 e.1 (Tbl.get 0 t e.1 ^^^ e.2) t) live) page =
      (flips.filter fun e => e.1 == page).foldl (fun a e => a ^^^ e.2) (Tbl.get 0 live page) := by
  induction flips with
  | nil => exact fun _ => rfl
  | cons e flips ih =>
    intro live
    rw [List.foldl_cons, ih]
    by_cases hpage : e.1 = page
    · subst hpage
      rw [List.filter_cons_of_pos (by simp), List.foldl_cons, Tbl.get_set_same]
    · rw [List.filter_cons_of_neg (by simpa using hpage), Tbl.get_set_other _ (Ne.symm hpage)]

/-- Settles O60: the seal writes each field, the live masks by the run of flips. -/
theorem sealMovesSides : Obligations.SealMovesSides := by
  unfold Obligations.SealMovesSides
  intro j now i hprepared
  simp only [Job.seal, hprepared, List.head?_take, List.head?_cons, Nat.sub_eq_zero_iff_le, Tbl.get_set_same, true_and, and_true]
  exact ⟨fun page => get_foldl_flips page j.maskTable j.live, List.length_take_le _ _⟩

end Sys2Proof.Machine
end

section
/-! PROOFS. The mailbox commands of commit, hold, fence and Vigil: the next state of each where it succeeds (01 R25, R28, R51, R52; 10 R295, R309;
14 R450). -/

namespace Sys2Proof.Machine

/-- `COMMIT_STATUS` answers the commit status of its partition (R450). -/
theorem commitStatus_runs (t mb : Nat) (buf : Option (List Byte)) : Runs cmdCommitStatus t mb { buf } (.commitStatus t mb buf) (fun _ _ => True)
    fun s c => s.finish c.mb stOk 0 (s.commitResult c.part) :=
  runs_of (fun _ => rfl) fun _ _ _ => rfl

/-- `DIGEST_READ` answers the state or the weight digest of a retained generation (R25, R450). -/
theorem digestRead_runs (t mb : Nat) (buf : Option (List Byte)) (j : Job) (g : GenRec) :
    Runs cmdDigestRead t mb { buf } (.digestRead t mb buf)
      (fun s c => c.arg 0 ≤ 1 ∧ s.job c.part = some j ∧ j.genOf (if c.arg 1 = 2 ^ 64 - 1 then j.step else c.arg 1) = some g) fun s c =>
      s.finish c.mb stOk 0 (if c.arg 0 = 0 then g.lrec.stateDigest else g.lrec.weightDigest).toNat := by
  refine runs_of (fun _ => rfl) ?_
  rintro s c ⟨hwhich, hjob, hgen⟩
  simp only [cmdDigestRead, if_neg (Nat.not_lt.mpr hwhich), hjob, hgen]

/-- A HOLD in force is released with `SEAL` where its votes allow, with `REPLAY` where an attempt is left, or with `ABANDON` (R51). -/
theorem holdRelease_eq {s : State} {g action attempt step : Nat} {h : Herald} {o : OutcomePkt} (hherald : s.herald g = some h)
    (hheld : h.heldFor step attempt = some o) (hmin : 1 ≤ action) (hmax : action ≤ 3) (hseal : action = 1 → h.sealable step attempt = true)
    (hreplay : action = 2 → attempt ≠ 255) :
    s.holdRelease g action attempt step =
      (let o1 : OutcomePkt := { o with outcome := if action = 1 then .seal else if action = 2 then .replay else .abandon, reason := 0x14,
                                       decideFt := s.now, herald := s.hub.devId }
      (s.setHerald g (some { h with
        held := h.held.filter fun x => !(x.step == step && x.attempt == attempt)
        heldVotes := h.heldVotes.filter fun v => !(v.step == step && v.attempt == attempt)
        outcomes := o1 :: h.outcomes.filter fun x => !(x.step == step && x.attempt == attempt) })).broadcast h.members o1, stOk) := by
  have hknown : ¬ (action = 0 ∨ 3 < action) := by omega
  have hallowed : ¬ ((action = 1 ∧ ¬ h.sealable step attempt = true) ∨ (action = 2 ∧ attempt = 255)) := by
    rintro (⟨hone, hnot⟩ | ⟨htwo, hlast⟩)
    · exact hnot (hseal hone)
    · exact hreplay htwo hlast
  simp only [State.holdRelease, hherald, hheld, if_neg hknown, if_neg hallowed]

/-- `HOLD_RELEASE` (R51). -/
theorem holdRelease_runs (t mb : Nat) (buf : Option (List Byte)) (h : Herald) (o : OutcomePkt) :
    Runs cmdHoldRelease t mb { buf } (.holdRelease t mb buf)
      (fun s c => s.herald (c.arg 0) = some h ∧ h.heldFor (c.arg 3) (c.arg 2) = some o ∧ 1 ≤ c.arg 1 ∧ c.arg 1 ≤ 3 ∧
        (c.arg 1 = 1 → h.sealable (c.arg 3) (c.arg 2) = true) ∧ (c.arg 1 = 2 → c.arg 2 ≠ 255)) fun s c =>
      let o1 : OutcomePkt := { o with outcome := if c.arg 1 = 1 then .seal else if c.arg 1 = 2 then .replay else .abandon, reason := 0x14,
                                      decideFt := s.now, herald := s.hub.devId }
      ((s.setHerald (c.arg 0) (some { h with
        held := h.held.filter fun x => !(x.step == c.arg 3 && x.attempt == c.arg 2)
        heldVotes := h.heldVotes.filter fun v => !(v.step == c.arg 3 && v.attempt == c.arg 2)
        outcomes := o1 :: h.outcomes.filter fun x => !(x.step == c.arg 3 && x.attempt == c.arg 2) })).broadcast h.members o1).finish c.mb stOk := by
  refine runs_of (fun _ => rfl) ?_
  rintro s c ⟨hherald, hheld, hmin, hmax, hseal, hreplay⟩
  simp only [cmdHoldRelease, holdRelease_eq hherald hheld hmin hmax hseal hreplay]

/-- `REPLAY_FORCE` on the device of the root Herald releases the HOLD there (R52). -/
theorem replayForce_here_runs (t mb : Nat) (buf : Option (List Byte)) (j : Job) (o : Ordo) (g : GroupDef) (s' : State) (st : Nat) :
    Runs cmdReplayForce t mb { buf } (.replayForce t mb buf none false)
      (fun s c => s.job c.part = some j ∧ (s.part c.part).ordo = some o ∧ (o.groups.find? fun g => g.group == j.rootGroup) = some g ∧
        j.heraldOf g = s.hub.devId ∧ s.holdRelease j.rootGroup 2 j.heldStep.2 j.heldStep.1 = (s', st)) fun _ c => s'.finish c.mb st := by
  refine runs_of (fun _ => rfl) ?_
  rintro s c ⟨hjob, hordo, hgroup, hhere, hrelease⟩
  simp only [cmdReplayForce, hjob, hordo, hgroup, if_pos hhere, hrelease]

/-- `REPLAY_FORCE` elsewhere asks the device of the root Herald, and completes with the status that it answers (R52, log 128). -/
theorem replayForce_away_runs (t mb : Nat) (buf : Option (List Byte)) (st : Nat) (j : Job) (o : Ordo) (g : GroupDef) :
    Runs cmdReplayForce t mb { buf, herald := some st, later := false } (.replayForce t mb buf (some st) false)
      (fun s c => s.job c.part = some j ∧ (s.part c.part).ordo = some o ∧ (o.groups.find? fun g => g.group == j.rootGroup) = some g ∧
        j.heraldOf g ≠ s.hub.devId ∧ (s.mbx c.mb).ext = { buf, herald := some st, later := false }) fun s c =>
      ((s.inject { destDev := j.heraldOf g, destKind := .hub, srcDev := s.hub.devId, srcKind := .hub, kind := PKind.steward, cls := 1,
                   srcPart := c.part,
                   payload := leBytes 1 j.rootGroup ++ leBytes 1 2 ++ leBytes 1 j.heldStep.2 ++ leBytes 5 0 ++ leBytes 8 j.heldStep.1 }).askedOf c.mb).finish
        c.mb st := by
  refine runs_of (fun _ => rfl) ?_
  rintro s c ⟨hjob, hordo, hgroup, haway, hext⟩
  have hasked (pkt : Packet) : (((s.inject pkt).askedOf c.mb).mbx c.mb).ext = { buf, herald := some st, later := false, asked := true } := by
    rw [State.askedOf, modMb_same, State.mbx, inject_mbs, ← State.mbx, hext]
  simp only [cmdReplayForce, hjob, hordo, hgroup, if_neg haway, hext, hasked, Bool.false_eq_true, if_false, Option.getD_some]

/-- `COMMIT_REWIND` of a job on HOLD puts the granules of the later generations back and sets the job at the earlier one (R28). -/
theorem commitRewind_runs (t mb : Nat) (buf : Option (List Byte)) (j : Job) (x : GenRec) :
    Runs cmdCommitRewind t mb { buf } (.commitRewind t mb buf)
      (fun s c => s.job c.part = some j ∧ j.st = .hold ∧ j.genOf (c.arg 0) = some x) fun s c =>
      let s1 := s.undoLog j x.gen
      let k : Job := { j with live := x.live }
      ((s1.modJob c.part fun j => j.rewindTo x (epactOfBytes (s1.sealedClass k 4 0 16)) (s1.sealedAnchors k) (s1.sealedChanState k)
        (s1.sealedHeralds k (j.heraldsSealed.map (·.1)))).ledgerOut c.part).finish c.mb stOk := by
  refine runs_of (fun _ => rfl) ?_
  rintro s c ⟨hjob, hhold, hgen⟩
  simp only [cmdCommitRewind, hjob, hhold, hgen, ne_eq, not_true_eq_false, if_false]

/-- `FENCE_SITE` fences at once or plans the fence (R309). -/
theorem fenceSite_runs (t mb : Nat) (buf : Option (List Byte)) (k : Nat) : Runs cmdFenceSite t mb { buf } (.fenceSite t mb buf)
    (fun _ c => siteOfId (c.arg 0) = some k ∧ c.arg 1 ≤ 1) fun s c =>
    (if c.arg 1 = 0 then s.fenceNow k 0 2 else s.planFence k 0).finish c.mb stOk := by
  refine runs_of (fun _ => rfl) ?_
  rintro s c ⟨hsite, hkind⟩
  simp only [cmdFenceSite, hsite, if_neg (Nat.not_lt.mpr hkind)]

/-- `VIGIL_SET` sets the depth of a region, in force at once where no job is bound (R295). -/
theorem vigilSet_runs (t mb : Nat) (buf : Option (List Byte)) : Runs cmdVigilSet t mb { buf } (.vigilSet t mb buf)
    (fun s c => c.arg 0 < 64 ∧ c.arg 1 ≤ 4 ∧ bitAt (s.part c.part).regions (c.arg 0) = true) fun s c =>
    let s1 := s.modRegion (c.arg 0) fun r => { r with vigilD := c.arg 1 }
    (if (s1.job c.part).isNone then s1.vigilSelect (c.arg 0) else s1).finish c.mb stOk := by
  refine runs_of (fun _ => rfl) ?_
  rintro s c ⟨hregion, hdepth, hown⟩
  have hgood : ¬ (64 ≤ c.arg 0 ∨ 4 < c.arg 1 ∨ ¬ bitAt (s.part c.part).regions (c.arg 0) = true) := by
    simp only [hown, not_true_eq_false, or_false]
    omega
  simp only [cmdVigilSet, if_neg hgood]

/-- Settles O6: each command runs to its next state, one lemma per command and form. -/
theorem commitCommandsRun : Obligations.CommitCommandsRun := by
  unfold Obligations.CommitCommandsRun
  exact ⟨commitStatus_runs, digestRead_runs, holdRelease_runs, replayForce_here_runs, replayForce_away_runs, commitRewind_runs, fenceSite_runs,
    vigilSet_runs⟩

end Sys2Proof.Machine
end

section
/-! PROOFS. The rows of a step (01 R34, R41, R42, R47, R50 to R54; 04 R165; 16 R511): the close, the vote, the query, and the four outcomes. -/

namespace Sys2Proof.Machine

/-! ## The close and the vote (R41, R42, R50) -/

/-- The last phase of a running job ends: the step closes (R41). -/
theorem calendsClose_closes_does (t p : Nat) (j : Job) : Does t (.calendsClose t p)
    (fun s => s.job p = some j ∧ j.st = .running ∧ s.phaseCount p ≤ j.phase ∧ j.missingTag = none) fun s =>
    (s.closeStep p false).watchMet p fun w => w.action == 6 && w.armed && w.arg == 0xFFFF := by
  rintro s ⟨hjob, hrunning, hlast, htag⟩
  show execCalendsClose t p s = _
  simp only [execCalendsClose, hjob, if_pos (And.intro hrunning hlast), htag]

/-- A chunk without its final tag is a configuration fault of the unit that contributed to it, which forces the close (R120, R165). -/
theorem calendsClose_faults_does (t p : Nat) (j : Job) (chunk k u : Nat) : Does t (.calendsClose t p)
    (fun s => s.job p = some j ∧ j.st = .running ∧ s.phaseCount p ≤ j.phase ∧ j.missingTag = some (chunk, k, u)) fun s =>
    (s.configFault k u 5 0x0205).watchMet p fun w => w.action == 6 && w.armed && w.arg == 0xFFFF := by
  rintro s ⟨hjob, hrunning, hlast, htag⟩
  show execCalendsClose t p s = _
  simp only [execCalendsClose, hjob, if_pos (And.intro hrunning hlast), htag]

/-- The vote of a closed attempt goes to the Herald of every group once no mirror of the step before is open (R42). -/
theorem voteSend_does (t p : Nat) (j : Job) (v : Vote) : Does t (.voteSend t p)
    (fun s => s.job p = some j ∧ j.vote = some v ∧ j.st = .closed ∧ j.voteSent = false ∧ j.faulted = false ∧ s.mirrorOpen p = false) fun s =>
    let v1 := { v with flags := (v.flags &&& ~~~2) ||| (if j.unmirrored then 2 else 0) }
    (s.injects ((s.groupsOf p).map fun g => s.votePacket (j.heraldOf g) { v1 with group := g.group })).modJob p fun j =>
      { j with voteSent := true, vote := some v1, st := if j.holdSeen then .hold else .voting } := by
  rintro s ⟨hjob, hvote, hclosed, hsent, hfaulted, hmirror⟩
  show execVoteSend t p s = _
  simp only [execVoteSend, hjob, hvote, hclosed, hsent, hfaulted, hmirror, Bool.false_eq_true, not_false_eq_true, and_self, if_true,
    State.sendVotes]

/-- A vote without an outcome is queried of the root Herald by the routes of every group shared with it (R50). -/
theorem outcomeQueryTimeout_does (t p : Nat) (j : Job) (g : GroupDef) (v : Vote) : Does t (.outcomeQueryTimeout t p)
    (fun s => s.job p = some j ∧ s.rootGroup p j = some g ∧ j.vote = some v ∧ j.st = .voting ∧ j.prepared.isSome = true ∧ j.queryFt = none ∧
      j.closeFt + 2 * g.deadlineUs * ftUs + 10 * ftUs ≤ s.now) fun s =>
    (s.injects (((s.groupsOf p).filter fun x => x.members.contains (j.heraldOf g)).map fun _ =>
      s.queryPacket (j.heraldOf g) { v with group := g.group })).modJob p fun j => { j with queryFt := some s.now } := by
  rintro s ⟨hjob, hroot, hvote, hdue⟩
  show execOutcomeQueryTimeout t p s = _
  simp only [execOutcomeQueryTimeout, hjob, hroot, hvote, if_pos hdue]

/-- A query without an answer is a HOLD, recorded and raised (R50). -/
theorem heraldSilent_does (t p : Nat) (j : Job) (f : Nat) : Does t (.heraldSilent t p)
    (fun s => s.job p = some j ∧ j.queryFt = some f ∧ j.st = .voting ∧ f + 10 * ftUs ≤ s.now) fun s =>
    ((s.modJob p fun j => { j with st := .hold, queryFt := none }).report 0x0902 9 p (p + 16 * j.rootGroup + 1024) []).event 0x0401 p
      [(8, j.rootGroup), (64, j.step)] := by
  rintro s ⟨hjob, hquery, hdue⟩
  show execHeraldSilent t p s = _
  simp only [execHeraldSilent, hjob, hquery, if_pos hdue]

/-! ## `SEAL` (R53) -/

/-- A `SEAL` of the attempt that voted, or that a reset stopped, seals its prepared record (R53, R511). -/
theorem sealOutcome_seals_does (t p : Nat) (o : OutcomePkt) (j : Job) : Does t (.sealOutcome t p o)
    (fun s => s.job p = some j ∧ j.debugged = false ∧ j.concerns o = true ∧ o.outcome = .seal ∧ j.prepared.isSome = true ∧
      (j.voteSent = true ∨ j.st = .stopped)) fun s =>
    let s1 := (((s.keepOutcome o).modJob p fun j => j.seal (s.keepOutcome o).now).ledgerOut p).modJob p fun x =>
      { x with st := if j.st = .stopped then .stopped else .atGate }
    let s2 := s1.lastClean j.matched j.step
    let d := match s2.job p with
      | some j => j.lastSealed.stateDigest
      | none => 0
    ((((s2.event 0x0405 p [(64, j.step), (128, d.toNat)]).mirrorPend p j.maskTable j.step true).loadSeqs p).vigilGate p).modPart p
      fun x => { x with gate := true } := by
  rintro s ⟨hjob, hdebugged, hseals⟩
  show execSealOutcome t p o s = _
  simp only [execSealOutcome, hjob, hdebugged, Bool.false_eq_true, if_false, if_pos hseals] <;> rfl

/-- A job that ran while a debug scope opened seals no more (R34). -/
theorem sealOutcome_debugged_does (t p : Nat) (o : OutcomePkt) (j : Job) : Does t (.sealOutcome t p o)
    (fun s => s.job p = some j ∧ j.debugged = true) fun s => s.keepOutcome o := by
  rintro s ⟨hjob, hdebugged⟩
  show execSealOutcome t p o s = _
  simp only [execSealOutcome, hjob, hdebugged, if_true]

/-! ## `REPLAY` (R51, R52, R54) -/

/-- A member takes a `REPLAY` (R54): the attempt is discarded and the partition flushed, third sites are placed, and the job waits for its repairs
before attempt `next`. -/
def State.toReplay (s : State) (p : Nat) (o : OutcomePkt) (next : Nat) : State :=
  let s1 := (((s.keepOutcome o).discardAttempt p).stopPart p).flush p false
  ((s1.regionsOf p).foldl (fun s g => s.placeThird g) s1).modJob p fun j =>
    { j with st := .replayWait, replay := true, released := false, faulted := false, holdSeen := false, queryFt := none, vote := none,
             voteSent := false, rewound := false, attempt := next }

/-- The Herald's own `REPLAY` of the attempt in hand (R54). -/
theorem replayOutcome_herald_does (t p : Nat) (o : OutcomePkt) (j : Job) : Does t (.replayOutcome t p o)
    (fun s => s.job p = some j ∧ o.group = j.rootGroup ∧ o.step = j.step ∧ o.outcome = .replay ∧ o.attempt = j.attempt ∧ o.reason ≠ 0x14 ∧
      j.debugged = false ∧ j.st ≠ .stopped) fun s => s.toReplay p o 1 := by
  rintro s ⟨hjob, hgroup, hstep, hreplay, hattempt, hherald, hdebugged, hst⟩
  show execReplayOutcome t p o s = _
  have hreason : (o.reason == 0x14) = false := beq_false_of_ne hherald
  simp only [execReplayOutcome, hjob, hreason, hgroup, hstep, hreplay, hattempt, hdebugged, hst, Bool.false_eq_true, true_or, and_self,
    false_and, or_self, if_true, if_false, State.toReplay]

/-- An operator's `REPLAY`, which reaches a member in any state that is not past it (R28, R51, R52; log 20, log 31). -/
theorem replayOutcome_operator_does (t p : Nat) (o : OutcomePkt) (j : Job) : Does t (.replayOutcome t p o)
    (fun s => s.job p = some j ∧ o.group = j.rootGroup ∧ (o.step = j.step ∨ j.rewound = true) ∧ o.outcome = .replay ∧ o.reason = 0x14 ∧
      (j.rewound = true ∨ j.attempt < max 2 (o.attempt + 1)) ∧ j.debugged = false) fun s => s.toReplay p o (max 2 (o.attempt + 1)) := by
  rintro s ⟨hjob, hgroup, hstep, hreplay, hreason, hnext, hdebugged⟩
  show execReplayOutcome t p o s = _
  have hoperator : (o.reason == 0x14) = true := beq_iff_eq.mpr hreason
  simp only [execReplayOutcome, hjob, hoperator, hgroup, hstep, hreplay, hnext, hdebugged, Bool.false_eq_true, not_true_eq_false, and_true,
    and_false, and_self, or_self, if_true, if_false, State.toReplay]

/-- The Herald's own `REPLAY` of a debugged job, or of one that a reset stopped, discards the attempt and starts no other (R34, R511). -/
theorem replayOutcome_stays_does (t p : Nat) (o : OutcomePkt) (j : Job) : Does t (.replayOutcome t p o)
    (fun s => s.job p = some j ∧ o.group = j.rootGroup ∧ o.step = j.step ∧ o.outcome = .replay ∧ o.attempt = j.attempt ∧ o.reason ≠ 0x14 ∧
      (j.debugged = true ∨ j.st = .stopped)) fun s => (s.keepOutcome o).discardAttempt p := by
  rintro s ⟨hjob, hgroup, hstep, hreplay, hattempt, hherald, hstays⟩
  show execReplayOutcome t p o s = _
  have hreason : (o.reason == 0x14) = false := beq_false_of_ne hherald
  simp only [execReplayOutcome, hjob, hreason, hgroup, hstep, hreplay, hattempt, hstays, Bool.false_eq_true, not_false_eq_true, true_or,
    and_self, and_true, if_true, if_false]

/-! ## `HOLD` and `ABANDON` (R51, R52) -/

/-- A member that receives a `HOLD` keeps the packet and raises the event (R51). -/
def State.holdSeenBy (s : State) (p : Nat) (o : OutcomePkt) : State :=
  (s.keepOutcome o).event 0x0404 p [(8, o.group), (8, o.attempt), (8, o.reason), (16, o.firstMissing), (64, o.step)]

/-- A `HOLD` that finds the attempt closed and its vote sent, or withheld for good, stops the job (R51). -/
theorem holdOutcome_stops_does (t p : Nat) (o : OutcomePkt) (j : Job) : Does t (.holdOutcome t p o)
    (fun s => s.job p = some j ∧ j.concerns o = true ∧ o.outcome = .hold ∧ j.st ≠ .running ∧ (j.st = .closed → j.voteSent = true ∨ j.faulted = true) ∧
      (j.st = .stopped → j.prepared = none ∨ j.faulted = true)) fun s =>
    (s.holdSeenBy p o).modJob p fun j => { j with st := .hold, queryFt := none } := by
  rintro s ⟨hjob, hconcerns, hhold, hnotrunning, hclosed, hstopped⟩
  show execHoldOutcome t p o s = _
  have hnoreset : ¬ (j.st = .stopped ∧ j.prepared.isSome = true ∧ ¬ j.faulted = true) := by
    rintro ⟨hst, hprepared, hclean⟩
    rcases hstopped hst with hnone | hfaulted
    · simp [hnone] at hprepared
    · exact hclean hfaulted
  have hnolate : ¬ (j.st = .running ∨ (j.st = .closed ∧ ¬ j.voteSent = true ∧ ¬ j.faulted = true)) := by
    rintro (hst | ⟨hst, hunsent, hclean⟩)
    · exact hnotrunning hst
    · exact (hclosed hst).elim hunsent hclean
  simp only [execHoldOutcome, hjob, if_pos (And.intro hconcerns hhold), if_neg hnoreset, if_neg hnolate, State.holdSeenBy]

/-- A `HOLD` before the late vote lets the attempt go on to it (R52, log 20). -/
theorem holdOutcome_early_does (t p : Nat) (o : OutcomePkt) (j : Job) : Does t (.holdOutcome t p o)
    (fun s => s.job p = some j ∧ j.concerns o = true ∧ o.outcome = .hold ∧
      (j.st = .running ∨ (j.st = .closed ∧ j.voteSent = false ∧ j.faulted = false))) fun s =>
    (s.holdSeenBy p o).modJob p fun j => { j with holdSeen := true } := by
  rintro s ⟨hjob, hconcerns, hhold, hearly⟩
  show execHoldOutcome t p o s = _
  have hnotstopped : j.st ≠ .stopped := by
    rcases hearly with hst | ⟨hst, -, -⟩ <;> rw [hst] <;> decide
  have hlate : j.st = .running ∨ (j.st = .closed ∧ ¬ j.voteSent = true ∧ ¬ j.faulted = true) := by
    simpa only [Bool.not_eq_true] using hearly
  simp only [execHoldOutcome, hjob, if_pos (And.intro hconcerns hhold), hnotstopped, false_and, if_false, if_pos hlate, State.holdSeenBy]

/-- A `HOLD` for a record that a reset left behind discards it (R511). -/
theorem holdOutcome_reset_does (t p : Nat) (o : OutcomePkt) (j : Job) : Does t (.holdOutcome t p o)
    (fun s => s.job p = some j ∧ j.concerns o = true ∧ o.outcome = .hold ∧ j.st = .stopped ∧ j.prepared.isSome = true ∧ j.faulted = false) fun s =>
    ((s.holdSeenBy p o).discardAttempt p).modJob p fun j => { j with st := .stopped } := by
  rintro s ⟨hjob, hconcerns, hhold, hst, hprepared, hclean⟩
  show execHoldOutcome t p o s = _
  simp only [execHoldOutcome, hjob, if_pos (And.intro hconcerns hhold), hst, hprepared, hclean, Bool.false_eq_true, not_false_eq_true, and_self,
    if_true, State.holdSeenBy]

/-- An `ABANDON` discards the attempt and stops the job (R51). -/
theorem abandonOutcome_does (t p : Nat) (o : OutcomePkt) (j : Job) : Does t (.abandonOutcome t p o)
    (fun s => s.job p = some j ∧ j.concerns o = true ∧ o.outcome = .abandon) fun s =>
    ((s.keepOutcome o).discardAttempt p).modJob p fun j => { j with st := .stopped, queryFt := none, holdSeen := false, vote := none } := by
  rintro s ⟨hjob, habandon⟩
  show execAbandonOutcome t p o s = _
  simp only [execAbandonOutcome, hjob, if_pos habandon]

/-- Settles O18: each row of a step has its effect, one lemma per row and branch. -/
theorem stepRowsAct : Obligations.StepRowsAct := by
  unfold Obligations.StepRowsAct
  exact ⟨calendsClose_closes_does, calendsClose_faults_does, voteSend_does, outcomeQueryTimeout_does, heraldSilent_does,
    sealOutcome_seals_does, sealOutcome_debugged_does, replayOutcome_herald_does, replayOutcome_operator_does, replayOutcome_stays_does,
    holdOutcome_stops_does, holdOutcome_early_does, holdOutcome_reset_does, abandonOutcome_does⟩

end Sys2Proof.Machine
end

section
/-! PROOFS. The rows of the outgoing mirror and of the input records (01 R56; 03 R97; 09 R287; 13 R403 to R423). -/

namespace Sys2Proof.Machine

/-! ## A mirror on its way (R287, R409) -/

/-- A mirror that waits for no `TWIN_BEGIN` is released: its manifest and its granules are read and sent (R287, R409). -/
theorem mirrorRelease_does (t p : Nat) (j : Job) : Does t (.mirrorRelease t p)
    (fun s => s.job p = some j ∧ (s.part p).twin.phase = .pending ∧ ((s.part p).twin.waitBegin = false ∨ s.almHas p 4 = false) ∧
      ((s.part p).twin.st = .syncing ∨ (s.part p).twin.st = .bound)) fun s =>
    let x := (s.part p).twin
    ((s.modTwin p fun y =>
        { y with phase := .writing, mMasks := x.masks j, mStart := s.now, mirrors := y.mirrors + 1, failed := false, todo := [] }).watchMet p
      fun w => w.action == 4).mirrorOut j p true (x.masks j) (x.masks j) := by
  rintro s ⟨hjob, hpending, hfree, hlinked⟩
  show execMirrorRelease t p s = _
  have hnowait : ¬ (((s.adv t).part p).twin.waitBegin = true ∧ (s.adv t).almHas p 4 = true) := by
    rcases hfree with h | h <;> simp only [h, Bool.false_eq_true, false_and, and_false, not_false_eq_true]
  simp only [execMirrorRelease, hjob, if_pos (And.intro hpending (And.intro hnowait hlinked))]

/-- Once every write of a mirror is acknowledged, the incoming slot is written (R409 step 3). -/
theorem mirrorWritesAcked_does (t p : Nat) (j : Job) : Does t (.mirrorWritesAcked t p)
    (fun s => s.job p = some j ∧ (s.part p).twin.phase = .writing ∧ ((s.part p).twin.st = .syncing ∨ (s.part p).twin.st = .bound) ∧
      s.mirrorAcked p = true) fun s =>
    let x := (s.part p).twin
    (s.modTwin p fun x => { x with phase := .slotWritten }).mirrorSend p
      (x.writes p 0x100 (recBytes j.lastSealed ++ leBytes 4 (x.masks j).length ++ leBytes 12 (b1 x.full))) := by
  rintro s ⟨hjob, hacked⟩
  show execMirrorWritesAcked t p s = _
  simp only [execMirrorWritesAcked, hjob, if_pos hacked]

/-- Once the slot is acknowledged, the notice is sent and the mirror awaits its acknowledgement (R409 step 4). -/
theorem mirrorSlotAcked_does (t p : Nat) : Does t (.mirrorSlotAcked t p)
    (fun s => (s.part p).twin.phase = .slotWritten ∧ ((s.part p).twin.st = .syncing ∨ (s.part p).twin.st = .bound) ∧
      s.mirrorAcked p = true) fun s =>
    let x := (s.part p).twin
    (s.modTwin p fun x => { x with phase := .awaitAck, awaitAck := true }).emit (.twinApply x.peerDev x.peerPart x.mStep) := by
  intro s hacked
  show execMirrorSlotAcked t p s = _
  simp only [execMirrorSlotAcked, if_pos hacked]

/-! ## A refused mirror (R410) -/

/-- The first refusal of a mirror sends its granules, or the whole of it, again (R410). -/
theorem twinNakReceive_first_does (t p : Nat) (j : Job) (pages : List Nat) : Does t (.twinNakReceive t p pages)
    (fun s => (s.twinCount p 2).job p = some j ∧ (s.part p).twin.phase = .awaitAck ∧
      ((s.part p).twin.st = .syncing ∨ (s.part p).twin.st = .bound) ∧ (s.part p).twin.naked = false) fun s =>
    let x := (s.part p).twin
    ((s.twinCount p 2).modTwin p fun x => { x with phase := .writing, awaitAck := false, naked := true }).mirrorOut j p
      (pages.contains 0xFFFFFFFF) (x.masks j)
      (if pages.contains 0xFFFFFFFF then x.masks j else (x.masks j).filter fun e => pages.contains e.1) := by
  rintro s ⟨hjob, hphase, hlinked, hfirst⟩
  show execTwinNakReceive t p pages s = _
  simp only [execTwinNakReceive, hjob, hphase, hlinked, hfirst, ne_eq, not_true_eq_false, or_self, Bool.false_eq_true, if_false]

/-- A second refusal of a mirror is counted alone (R410). -/
theorem twinNakReceive_again_does (t p : Nat) (j : Job) (pages : List Nat) : Does t (.twinNakReceive t p pages)
    (fun s => (s.twinCount p 2).job p = some j ∧ (s.part p).twin.phase = .awaitAck ∧
      ((s.part p).twin.st = .syncing ∨ (s.part p).twin.st = .bound) ∧ (s.part p).twin.naked = true) fun s => s.twinCount p 2 := by
  rintro s ⟨hjob, hphase, hlinked, hagain⟩
  show execTwinNakReceive t p pages s = _
  simp only [execTwinNakReceive, hjob, hphase, hlinked, hagain, ne_eq, not_true_eq_false, or_self, if_false, if_true]

/-! ## The end of a binding, and of a mirror lent to a spare (R56, R403, R406, R411, R423) -/

/-- The peer's notice breaks the binding (R406). -/
theorem twinBreakReceive_break_does (t p : Nat) : Does t (.twinBreakReceive t p false)
    (fun s => (s.part p).twin.st = .syncing ∨ (s.part p).twin.st = .bound) fun s =>
    ((s.mirrorCut p).modTwin p fun x =>
      { x with st := .broken, phase := .idle, awaitAck := false, full := false, waitBegin := false, todo := [] }).pageWaitEnd p := by
  intro s hlinked
  show execTwinBreakReceive t p false s = _
  simp only [execTwinBreakReceive, Bool.false_eq_true, if_false, if_pos hlinked]

/-- The peer's `TWIN_UNBIND` takes this end to UNBOUND too (R403). -/
theorem twinBreakReceive_unbind_does (t p : Nat) : Does t (.twinBreakReceive t p true) (fun s => (s.part p).twin.st ≠ .unbound) fun s =>
    (s.twinFree p).pageWaitEnd p := by
  intro s hbound
  show execTwinBreakReceive t p true s = _
  simp only [execTwinBreakReceive, if_true, if_neg hbound]

/-- A mirror that is not acknowledged by its deadline breaks the binding: its record is flagged late, and the peer is told (R56, R411). -/
theorem mirrorDeadlineExpire_does (t p : Nat) : Does t (.mirrorDeadlineExpire t p)
    (fun s => (s.part p).twin.phase ≠ .idle ∧ (s.part p).twin.phase ≠ .pending ∧
      ((s.part p).twin.st = .syncing ∨ (s.part p).twin.st = .bound) ∧ (s.part p).twin.deadline ≤ s.now) fun s =>
    let x := (s.part p).twin
    let s1 := (s.modTwin p fun x =>
      { x with st := .broken, phase := .idle, awaitAck := false, full := false, waitBegin := false, todo := [] }).twinCount p 1
    let s2 := ((s1.modJob p fun j => { j.flagSealed 1 with unmirrored := true }).ledgerOut p).report 0x0901 9 p p []
    ((s2.event 0x0402 p [(16, x.peerDev), (64, x.mStep)]).emit (.twinBreak x.peerDev x.peerPart)).pageWaitEnd p := by
  intro s hexpired
  show execMirrorDeadlineExpire t p s = _
  simp only [execMirrorDeadlineExpire, if_pos hexpired]

/-- A mirror lent to a spare is its own again at the commit of the spare, or after 600 s (R423). -/
theorem mirrorExportExpire_does (t p : Nat) (commit : Bool) : Does t (.mirrorExportExpire t p commit)
    (fun s => (s.part p).twin.exported = true ∧ (commit = true ∨ (s.part p).twin.exportFt + 600 * ftSec ≤ s.now)) fun s =>
    s.modTwin p fun x => { x with exported := false, spare := none } := by
  intro s hends
  show execMirrorExportExpire t p commit s = _
  simp only [execMirrorExportExpire, if_pos hends]

/-! ## Input records (R97, R419) -/

/-- A running job takes the next draw of the ingest stream with each input record (R97, R419). -/
theorem inputRecordConsume_does (t p : Nat) : Does t (.inputRecordConsume t p) (fun _ => True) fun s => s.modJob p fun j =>
    if j.st = .running then
      { j with epact := { j.epact with draws := j.epact.draws + 1, cursor := j.epact.cursor + 1 }
               ingest := ingestDraw ((s.part p).ordo.getD {}).seed (Tbl.get 0 ((s.part p).ordo.getD {}).keys 0xFFFF) j.epact.draws }
    else j := fun _ _ => rfl

/-- Settles O21: each row of the outgoing mirror and of the input records has its effect, one lemma per row and branch. -/
theorem twinRowsAct : Obligations.TwinRowsAct := by
  unfold Obligations.TwinRowsAct
  exact ⟨mirrorRelease_does, mirrorWritesAcked_does, mirrorSlotAcked_does, twinNakReceive_first_does, twinNakReceive_again_does,
    twinBreakReceive_break_does, twinBreakReceive_unbind_does, mirrorDeadlineExpire_does, mirrorExportExpire_does, inputRecordConsume_does⟩

end Sys2Proof.Machine
end

section
/-! PROOFS. The rows around a step (01 R39, R54; 04 R164; 05 R187; 10 R297): replay start, write-back, the load of Vigil shadows, step release. -/

namespace Sys2Proof.Machine

/-! ## What a run of operations keeps -/

/-- A run of operations keeps what each of them keeps. -/
theorem foldl_keeps {α β : Type} (view : State → β) {f : State → α → State} (hf : ∀ s a, view (f s a) = view s) (l : List α) (s : State) :
    view (l.foldl f s) = view s :=
  List.foldlRecOn l f (motive := fun x => view x = view s) rfl fun x hx a _ => (hf x a).trans hx

/-- What both branches keep is kept. -/
theorem ite_keeps {β : Type} (view : State → β) {s a b : State} {c : Prop} [Decidable c] (ha : view a = view s) (hb : view b = view s) :
    view (if c then a else b) = view s := by
  split
  · exact ha
  · exact hb

/-! ## Error records and reads of a slice keep the regions and the time (R172, R322 to R326) -/

/-- The regions and the time of a state. -/
def State.regionsAt (s : State) : Tbl Region × TimeSt := (s.regions, s.time)

theorem State.Signalled.regionsAt {s s' : State} (h : s.Signalled s') : s'.regionsAt = s.regionsAt := Prod.ext h.regions h.time

theorem errAppend_regionsAt (s : State) (r : ErrRec) : (s.errAppend r).regionsAt = s.regionsAt :=
  ite_keeps _ (event_signalled _ 0x0104 0xFF _).regionsAt rfl

theorem errEmit_regionsAt (n : Nat) : ∀ s : State, (State.errEmit n s).regionsAt = s.regionsAt := by
  induction n with
  | zero => exact fun _ => rfl
  | succ n ih =>
    intro s
    unfold State.errEmit
    split
    · rfl
    · exact ite_keeps _ ((ih _).trans (errAppend_regionsAt _ _)) rfl

theorem errLose_regionsAt (s : State) : s.errLose.regionsAt = s.regionsAt := (ovfIf_signalled _ _ 0x20000000 0).regionsAt

theorem collect_regionsAt (s : State) (r : ErrRec) : (s.collect r).regionsAt = s.regionsAt :=
  ite_keeps _ (ite_keeps _ rfl (ite_keeps _ rfl (errLose_regionsAt s))) (ite_keeps _ (errAppend_regionsAt s r) (errLose_regionsAt s))

theorem errArrive_regionsAt (s : State) (r : ErrRec) : (s.errArrive r).regionsAt = s.regionsAt := by
  unfold State.errArrive
  extract_lets s1 s2
  have hcollected : s1.regionsAt = s.regionsAt := collect_regionsAt s r
  have hemptied : s2.regionsAt = s.regionsAt := ite_keeps _ ((errEmit_regionsAt _ s1).trans hcollected) hcollected
  refine ite_keeps _ ?_ hemptied
  split
  · exact hemptied
  · exact hemptied

theorem reportOp_regionsAt (s : State) (cls kind part unit op : Nat) (detail : List (Nat × Nat)) :
    (s.reportOp cls kind part unit op detail).regionsAt = s.regionsAt := by
  have hvolt : (s.voltOf kind).2.regionsAt = s.regionsAt := by
    unfold State.voltOf
    split <;> rfl
  unfold State.reportOp
  rw [errArrive_regionsAt, hvolt]

theorem reportSite_regionsAt (s : State) (cls k op : Nat) (detail : List (Nat × Nat)) :
    (s.reportSite cls k op detail).regionsAt = s.regionsAt := reportOp_regionsAt s cls 1 _ _ op detail

theorem planFence_regionsAt (s : State) (k cls : Nat) : (s.planFence k cls).regionsAt = s.regionsAt := rfl

theorem sliceCe_regionsAt (s : State) (k : Nat) : (s.sliceCe k).regionsAt = s.regionsAt := by
  unfold State.sliceCe
  extract_lets s1
  have hrecorded : s1.regionsAt = s.regionsAt := reportSite_regionsAt _ 0x0102 k 0xFFFF []
  exact ite_keeps State.regionsAt ((planFence_regionsAt s1 k 0x0102).trans hrecorded) hrecorded

theorem sliceUe_regionsAt (s : State) (k : Nat) (consumed : Bool) : (s.sliceUe k consumed).regionsAt = s.regionsAt := by
  unfold State.sliceUe
  extract_lets s1
  have hrecorded : s1.regionsAt = s.regionsAt := reportSite_regionsAt _ 0x0103 k 0xFFFF []
  exact ite_keeps State.regionsAt hrecorded hrecorded

/-- A read of slice entries, with the errors that it meets, keeps the regions and the time. -/
theorem bankRead_regionsAt (s : State) (k : Nat) (hit : Nat → Bool) (consumed : Bool) :
    (s.bankRead k hit consumed).regionsAt = s.regionsAt :=
  foldl_keeps _ (fun x _ => ite_keeps _ (ite_keeps _ (sliceCe_regionsAt (x.clearErr k _) k) (sliceUe_regionsAt (x.clearErr k _) k consumed)) rfl) _ s

theorem vigilReads_regionsAt (s : State) (k : Nat) : (s.vigilReads k).regionsAt = s.regionsAt :=
  (bankRead_regionsAt _ k _ true).trans (bankRead_regionsAt s k _ true)

/-! ## Replay start, write-back and Vigil load (R39, R54, R187, R297) -/

/-- A replay starts once nothing is in its way: the tiles reload, and the spanning chunks raise their anchors (R39, R54). -/
theorem replayStart_does (t p : Nat) (j : Job) : Does t (.replayStart t p)
    (fun s => s.job p = some j ∧ j.st = .replayWait ∧ j.fillStopped = false ∧ (s.part p).sweep = none ∧ s.tagsOpen p = false ∧ s.routed p = true ∧
      s.tallyReadable p = true ∧ ∀ g ∈ s.regionsOf p, (s.region g).repairs = [] ∧ s.holdsAll g = true) fun s =>
    ((j.excess.foldl (fun (s : State) e => s.raiseAnchor p e) (s.reloadPart p)).modJob p fun j => { j with st := .atGate, excess := [] }).modPart p
      fun x => { x with halted := false } := by
  rintro s ⟨hjob, hwait, hfill, hsweep, htags, hrouted, hreadable, hregions⟩
  show execReplayStart t p s = _
  have hrepaired : ((s.adv t).regionsOf p).all (fun g => ((s.adv t).region g).repairs.isEmpty && (s.adv t).holdsAll g) = true := by
    refine List.all_eq_true.mpr fun g hg => ?_
    obtain ⟨hrepairs, hholds⟩ := hregions g hg
    rw [hrepairs, hholds]
    rfl
  simp only [execReplayStart, hjob, hwait, hfill, hsweep, htags, hrouted, hreadable, hrepaired, Bool.false_eq_true, not_false_eq_true, and_self,
    if_true]

/-- A replay raises the anchor of a spanning chunk by its excess, within the range of an anchor (R39, R122). -/
theorem raiseAnchor_eq (s : State) (p : Nat) (e : Nat × Int) (j : Job) (hjob : s.job p = some j) : s.raiseAnchor p e =
    (let a := Tbl.get 0 j.anchors e.1
     s.setAnchor p e.1 (BitVec.ofNat 64 (wrapZ 10 (clampAnchor (anchorOf a + e.2)) + 2 ^ 10 * bitsN a.toNat 10 54))) := by
  simp only [State.raiseAnchor, hjob, anchorRaise]

/-- The write-back engine takes the oldest granule of its queue, and writes it if it is still dirty and its site still holds a tile (R187). -/
theorem wbWriteBack_does (t k g : Nat) (rest : List Nat) (p : Nat) : Does t (.wbWriteBack t k)
    (fun s => (s.site k).mu.wbQueue = g :: rest ∧
      (s.modSite k fun x => { x with mu := { x.mu with wbQueue := rest } }).partOfRegion (keyRegion k) = some p) fun s =>
    let s1 := s.modSite k fun x => { x with mu := { x.mu with wbQueue := rest } }
    if bitAt (s1.site k).mu.dirty g = true ∧ (s1.site k).st = .tile then s1.writeBack p k g else s1 := by
  rintro s ⟨hqueue, hpart⟩
  show execWbWriteBack t k s = _
  simp only [execWbWriteBack, hqueue, hpart]

theorem vigilAssign_time (s : State) (g p step : Nat) : (s.vigilAssign g p step).time = s.time := by
  unfold State.vigilAssign
  exact foldl_keeps State.time (by intros; rfl) _ s

/-- At a gate the shadows of a region take their targets, each is loaded in turn by operations that keep the regions and the time, and the region's
list of loaded shadows becomes that of its targets (R297). -/
theorem execVigilLoad_atGate {t g p : Nat} {s : State} {j : Job} (hpart : (s.adv t).partOfRegion g = some p) (hjob : (s.adv t).job p = some j)
    (hgate : j.st = .atGate) : ∃ load : State → Nat × Nat → State, (∀ x a, (load x a).regionsAt = x.regionsAt) ∧
      execVigilLoad t g s = .next (((((s.adv t).vigilAssign g p j.step).region g).targets.foldl load ((s.adv t).vigilAssign g p j.step)).modRegion g
        fun r => { r with loaded := r.targets.map (·.1) }) := by
  simp only [execVigilLoad, hpart, hjob, if_pos hgate]
  refine ⟨_, ?_, rfl⟩
  exact fun x a => vigilReads_regionsAt x _

/-- At a gate, every shadow of a target is loaded, in no time (R297). -/
theorem vigilLoad_gives (t g p : Nat) (j : Job) : Gives t (.vigilLoad t g)
    (fun s => s.partOfRegion g = some p ∧ s.job p = some j ∧ j.st = .atGate) fun s s' =>
    (s'.region g).loaded = ((s.vigilAssign g p j.step).region g).targets.map (·.1) ∧ s'.now = s.now := by
  rintro s ⟨hpart, hjob, hgate⟩
  obtain ⟨load, hload, hexec⟩ := execVigilLoad_atGate hpart hjob hgate
  obtain ⟨hregions, htime⟩ := Prod.mk.inj (foldl_keeps State.regionsAt hload _ _ : _ = ((s.adv t).vigilAssign g p j.step).regionsAt)
  refine ⟨_, hexec, ?_, congrArg TimeSt.ft (htime.trans (vigilAssign_time _ g p j.step))⟩
  rw [modRegion_same, State.region, hregions]
  rfl

/-! ## Step release (R164) -/

/-- The job of a partition, the mailboxes and the time: what a release keeps before it takes the job on. -/
def State.jobAt (p : Nat) (s : State) : Option Job × Tbl Mailbox × TimeSt := (s.job p, s.mbs, s.time)

theorem modSites_jobAt (p : Nat) (s : State) (ks : List Nat) (f : Nat → Site → Site) : (s.modSites ks f).jobAt p = s.jobAt p := by
  unfold State.modSites
  exact foldl_keeps (State.jobAt p) (by intros; rfl) ks s

theorem clearBarriers_jobAt (p : Nat) (s : State) (q : Nat) : (s.clearBarriers q).jobAt p = s.jobAt p := by
  unfold State.clearBarriers
  exact foldl_keeps (State.jobAt p) (by intros; rfl) _ s

theorem vigilAssign_jobAt (p : Nat) (s : State) (g q step : Nat) : (s.vigilAssign g q step).jobAt p = s.jobAt p := by
  unfold State.vigilAssign
  exact foldl_keeps (State.jobAt p) (by intros; rfl) _ s

/-- A change of a partition that leaves its job leaves the job, the mailboxes and the time. -/
theorem modPart_jobAt (p : Nat) (s : State) {f : Part → Part} (hf : ∀ x, (f x).job = x.job) : (s.modPart p f).jobAt p = s.jobAt p := by
  have hjob : (s.modPart p f).job p = s.job p := by rw [State.job, modPart_same, hf]; rfl
  exact congrArg (·, s.mbs, s.time) hjob

theorem unwatch_jobAt (p : Nat) (s : State) (i : Nat) : (s.unwatch i).jobAt p = s.jobAt p := ite_keeps (State.jobAt p) rfl rfl

theorem watchMet_jobAt (p : Nat) (s : State) (f : Watch → Bool) : (s.watchMet p f).jobAt p = s.jobAt p := by
  unfold State.watchMet
  refine (foldl_keeps (State.jobAt p) ?_ _ _).trans (modPart_jobAt p s fun _ => rfl)
  exact fun x w => ite_keeps (State.jobAt p) rfl (unwatch_jobAt p x w.entry)

theorem freshValues_jobAt (p : Nat) (s : State) (q : Nat) : (s.freshValues q).jobAt p = s.jobAt p := modSites_jobAt p s _ _

/-- A job as a release leaves it: it runs its first phase, and no vote and no fault of an earlier attempt stand (R164). -/
def Job.Released (j' j : Job) (now : Nat) : Prop :=
  j'.st = .running ∧ j'.phase = 0 ∧ j'.vote = none ∧ j'.faulted = false ∧ j'.first = false ∧ j'.step = j.step ∧ j'.releaseFt = now

/-- A release that is due keeps the job, the mailboxes and the time while it prepares the partition; then it takes the job on, opens the gate,
and completes the `JOB_START` that waits for it (R164). -/
theorem execStepRelease_due {t p : Nat} {s : State} {j : Job} (hjob : (s.adv t).job p = some j) (hdue : (s.adv t).releaseDue p j = true) :
    ∃ (s1 : State) (f : Job → Job) (g : Part → Part), s1.jobAt p = (s.adv t).jobAt p ∧ (f j).Released j s1.now ∧
      (∀ x, (g x).gate = false ∧ (g x).idesLater = 0 ∧ (g x).job = x.job) ∧
      execStepRelease t p s = .next (match j.startMb with
        | some mb => ((s1.modJob p f).modPart p g).finish mb stOk (j.step % 65536)
        | none => (s1.modJob p f).modPart p g) := by
  simp only [execStepRelease, hjob, if_pos hdue]
  refine ⟨_, _, _, ?kept, ?released, ?opened, rfl⟩
  case released => exact ⟨rfl, rfl, rfl, rfl, rfl, rfl, rfl⟩
  case opened => exact fun _ => ⟨rfl, rfl, rfl⟩
  case kept =>
    refine (ite_keeps (State.jobAt p) ((modPart_jobAt p _ ?_).trans (watchMet_jobAt p _ _)) rfl).trans ?_
    · exact fun _ => rfl
    refine (foldl_keeps (State.jobAt p) ?targets _ _).trans <| (foldl_keeps (State.jobAt p) ?tiles _ _).trans <|
      (foldl_keeps (State.jobAt p) ?shadows _ _).trans <| (clearBarriers_jobAt p _ p).trans <| (freshValues_jobAt p _ p).trans <|
      modSites_jobAt p _ _ _
    case targets => exact fun x g => foldl_keeps (State.jobAt p) (by intros; rfl) _ x
    case tiles => intros; rfl
    case shadows => exact fun x g => vigilAssign_jobAt p x g p j.step

/-- What a partition shows of a release: its gate, a late fault, its job. -/
def State.shownAt (p : Nat) (s : State) : Bool × Nat × Option Job := ((s.part p).gate, (s.part p).idesLater, s.job p)

theorem shownAt_eq {p : Nat} {s : State} {gate : Bool} {late : Nat} {job : Option Job} :
    s.shownAt p = (gate, late, job) ↔ (s.part p).gate = gate ∧ (s.part p).idesLater = late ∧ s.job p = job := by
  simp only [State.shownAt, Prod.mk.injEq]

theorem shownAt_of_parts {p : Nat} {s s' : State} (h : s'.parts = s.parts) : s'.shownAt p = s.shownAt p := by
  simp only [State.shownAt, State.job, State.part, h]

theorem modPart_shownAt (p q : Nat) (s : State) {f : Part → Part}
    (hf : ∀ x, (f x).gate = x.gate ∧ (f x).idesLater = x.idesLater ∧ (f x).job = x.job) : (s.modPart q f).shownAt p = s.shownAt p := by
  by_cases hpq : p = q
  · subst hpq
    obtain ⟨hgate, hlate, hjob⟩ := hf (s.part p)
    simp only [State.shownAt, State.job, modPart_same, hgate, hlate, hjob]
  · simp only [State.shownAt, State.job, modPart_other s hpq]

theorem unlock_shownAt (p : Nat) (s : State) (mb : Nat) : (s.unlock mb).shownAt p = s.shownAt p := by
  unfold State.unlock
  refine foldl_keeps (State.shownAt p) ?_ _ s
  exact fun x q => modPart_shownAt p q x fun _ => ⟨rfl, rfl, rfl⟩

theorem writeCpl_parts (s : State) (mb : Nat) (c : Completion) (irq : Bool) : (s.writeCpl mb c irq).parts = s.parts := by
  unfold State.writeCpl
  exact ite_keeps State.parts (msixFire_signalled _ mb).parts rfl

/-- A completion leaves what a partition shows: of a partition it changes the lock alone (R443). -/
theorem finish_shownAt (p : Nat) (s : State) (mb status detail result : Nat) : (s.finish mb status detail result).shownAt p = s.shownAt p := by
  unfold State.finish State.finishWith
  split
  · rfl
  · extract_lets m c h mem s1 s2
    have hunlocked : s2.shownAt p = s.shownAt p :=
      (shownAt_of_parts (modMb_parts _ mb _)).trans ((unlock_shownAt p s1 mb).trans (shownAt_of_parts rfl))
    refine (shownAt_of_parts ?_).trans hunlocked
    refine ite_keeps State.parts (modMb_parts s2 mb _) (ite_keeps State.parts (ite_keeps State.parts (modMb_parts s2 mb _) ?_) ?_)
    · exact writeCpl_parts s2 mb _ _
    · exact (mgmtSend_signalled _ _ _ _ _ _ _).parts.trans (modMb_parts s2 mb _)

/-- A step release that is due: the gate opens, the job runs its first phase, and no mailbox changes unless a `JOB_START` waits for the release
(R164). -/
theorem stepRelease_gives (t p : Nat) (j : Job) : Gives t (.stepRelease t p) (fun s => s.job p = some j ∧ s.releaseDue p j = true) fun s s' =>
    (s'.part p).gate = false ∧ (s'.part p).idesLater = 0 ∧
      (∃ j', s'.job p = some j' ∧ j'.st = .running ∧ j'.phase = 0 ∧ j'.vote = none ∧ j'.faulted = false ∧ j'.first = false ∧ j'.step = j.step ∧
        j'.releaseFt = s.now) ∧
      (j.startMb = none → s'.mbx = s.mbx) := by
  rintro s ⟨hjob, hdue⟩
  obtain ⟨s1, f, g, hkept, hreleased, hopened, hexec⟩ := execStepRelease_due hjob hdue
  obtain ⟨hjob1, hmbs, htime⟩ : s1.job p = (s.adv t).job p ∧ s1.mbs = (s.adv t).mbs ∧ s1.time = (s.adv t).time := by
    simpa only [State.jobAt, Prod.mk.injEq] using hkept
  have hshown : ((s1.modJob p f).modPart p g).shownAt p = (false, 0, some (f j)) := by
    obtain ⟨hgate, hlate, hsame⟩ := hopened ((s1.modJob p f).part p)
    have hjob2 : ((s1.modJob p f).part p).job = some (f j) := by rw [← State.job, modJob_same, hjob1, hjob, Option.map_some]
    simp only [State.shownAt, State.job, modPart_same, hgate, hlate, hsame, hjob2]
  have hnow : s1.now = (s.adv t).now := congrArg TimeSt.ft htime
  rw [hnow] at hreleased
  cases hstart : j.startMb with
  | none =>
    obtain ⟨hgate, hlate, hjob'⟩ := shownAt_eq.mp hshown
    simp only [hstart] at hexec
    exact ⟨_, hexec, hgate, hlate, ⟨f j, hjob', hreleased⟩, fun _ => funext fun i => congrArg (Tbl.get ({} : Mailbox) · i) hmbs⟩
  | some mb =>
    obtain ⟨hgate, hlate, hjob'⟩ := shownAt_eq.mp ((finish_shownAt p _ mb stOk (j.step % 65536) 0).trans hshown)
    simp only [hstart] at hexec
    exact ⟨_, hexec, hgate, hlate, ⟨f j, hjob', hreleased⟩, fun hnone => absurd hnone (by simp)⟩

/-- Settles O19: each row around a step has its effect, one lemma per row. -/
theorem gateRowsAct : Obligations.GateRowsAct := by
  unfold Obligations.GateRowsAct
  exact ⟨replayStart_does, raiseAnchor_eq, wbWriteBack_does, vigilLoad_gives, stepRelease_gives⟩

end Sys2Proof.Machine
end

section
/-! PROOFS. The repair rows (02 R76; 10 R284, R307 to R316; 12 R378): a fault and a planned fence of a site, the full placement of a region, the
fill of a spare, the end of an in-service self-test. -/

namespace Sys2Proof.Machine

/-! ## Fences (R309, R310) -/

/-- A site that is neither defect, fenced nor dark is none of those that a fault leaves as they are. -/
theorem siteSt_not_lost {st : SiteSt} (h : st ≠ .defect ∧ st ≠ .fenced ∧ st ≠ .dark) : st ∉ [SiteSt.defect, .fenced, .dark] := by
  simpa only [List.mem_cons, List.not_mem_nil, or_false, not_or] using h

/-- A check that trips leaves its record and fences the site (R309, R310). -/
theorem siteFaultDetect_check_does (t k c chk lane syn unit : Nat) : Does t (.siteFaultDetect t k c chk lane syn unit)
    (fun s => (s.site k).st ≠ .defect ∧ (s.site k).st ≠ .fenced ∧ (s.site k).st ≠ .dark ∧ c ≠ 0x0103) fun s =>
    (s.reportSite 0x0101 k unit [(8, chk), (8, lane), (16, 0), (32, syn)]).fenceNow k 0x0101 0 := by
  rintro s ⟨hdefect, hfenced, hdark, hcheck⟩
  show execSiteFaultDetect t k c chk lane syn unit s = _
  simp only [execSiteFaultDetect, if_neg (siteSt_not_lost ⟨hdefect, hfenced, hdark⟩), if_neg hcheck]

/-- An uncorrectable slice entry, whose record its read has left, fences the site (R310). -/
theorem siteFaultDetect_slice_does (t k chk lane syn unit : Nat) : Does t (.siteFaultDetect t k 0x0103 chk lane syn unit)
    (fun s => (s.site k).st ≠ .defect ∧ (s.site k).st ≠ .fenced ∧ (s.site k).st ≠ .dark) fun s => s.fenceNow k 0x0103 0 := by
  intro s hsite
  show execSiteFaultDetect t k 0x0103 chk lane syn unit s = _
  simp only [execSiteFaultDetect, if_neg (siteSt_not_lost hsite), if_true]

/-- A planned fence is carried out in an open slot with room for it, and the work of the slot goes on (R284, R309). -/
theorem plannedFence_does (t k : Nat) : Does t (.plannedFence t k)
    (fun s => s.fenceable k = true ∧ s.slotOpen (keyRegion k) = true ∧ 20 * ftMs ≤ s.slotLeft (s.partField k)) fun s =>
    (s.plannedFence k).slotWork (s.partField k) :=
  does_of_guard (effect := fun s => (s.plannedFence k).slotWork (s.partField k)) (fun _ => rfl) fun _ h => h

/-! ## Full placement (R76, R284, R313) -/

/-- Whether an open slot admits a full placement of a region: two fences, the length for it, and no planned fence still to be done (R284). -/
def State.slotPlaces (s : State) (g : Nat) : Bool :=
  s.slotOpen g && decide (2 ≤ (s.region g).fences ∧ 20 * ftMs ≤ s.slotLeft (s.partField (siteKey g 0))) &&
    !(s.sitesOf (s.partField (siteKey g 0))).any s.fenceable

/-- The condition as `execFullPlacement` spells it out, to fold it into its name. -/
theorem slotPlaces_eq (s : State) (g : Nat) : s.slotPlaces g =
    (s.slotOpen g && decide (2 ≤ (s.region g).fences ∧ 20 * ftMs ≤ s.slotLeft (s.partField (siteKey g 0))) &&
      !(s.sitesOf (s.partField (siteKey g 0))).any s.fenceable) := rfl

theorem slotPlaces_iff (s : State) (g : Nat) : s.slotPlaces g = true ↔
    s.slotOpen g = true ∧ 2 ≤ (s.region g).fences ∧ 20 * ftMs ≤ s.slotLeft (s.partField (siteKey g 0)) ∧
      ((s.sitesOf (s.partField (siteKey g 0))).any s.fenceable) = false := by
  simp only [State.slotPlaces, Bool.and_eq_true, decide_eq_true_eq, Bool.not_eq_true', and_assoc]

theorem slotPlaces_eq_false_iff (s : State) (g : Nat) : s.slotPlaces g = false ↔
    s.slotOpen g = false ∨ (s.region g).fences < 2 ∨ s.slotLeft (s.partField (siteKey g 0)) < 20 * ftMs ∨
      ((s.sitesOf (s.partField (siteKey g 0))).any s.fenceable) = true := by
  rw [← Bool.not_eq_true, slotPlaces_iff]
  simp only [Classical.not_and_iff_not_or_not, Bool.not_eq_true, Bool.not_eq_false, Nat.not_le]

/-- Without a site under test, a full placement that is no slot's work runs as the active repair of its region (R313). -/
theorem fullPlacement_repair_does (t g : Nat) (rest : List Repair) : Does t (.fullPlacement t g)
    (fun s => s.sitesIn g .test = [] ∧ (s.region g).repairs = .full :: rest ∧ (s.slotOpen g = false ∨ (s.region g).fences < 2 ∨
      s.slotLeft (s.partField (siteKey g 0)) < 20 * ftMs ∨ ((s.sitesOf (s.partField (siteKey g 0))).any s.fenceable) = true)) fun s =>
    ((s.mapFlush (s.partField (siteKey g 0))).placeMove g).modRegion g fun r => { r with repairs := r.repairs.filter fun x => x != .full } := by
  rintro s ⟨htest, hrepair, hnoslot⟩
  have hslot := (slotPlaces_eq_false_iff _ g).mpr hnoslot
  show execFullPlacement t g s = _
  simp only [execFullPlacement, htest, hrepair, ← slotPlaces_eq, hslot, List.isEmpty_nil, not_true_eq_false, true_or, or_self, if_false,
    Bool.false_eq_true]

/-- Without a site under test, a slot that admits a full placement has it done as its item of kind 1, and its work goes on (R76, R284). -/
theorem fullPlacement_slot_does (t g : Nat) : Does t (.fullPlacement t g)
    (fun s => s.sitesIn g .test = [] ∧ s.slotOpen g = true ∧ 2 ≤ (s.region g).fences ∧ 20 * ftMs ≤ s.slotLeft (s.partField (siteKey g 0)) ∧
      ((s.sitesOf (s.partField (siteKey g 0))).any s.fenceable) = false) fun s =>
    let p := s.partField (siteKey g 0)
    (((((s.slotStart p 1).mapFlush p).placeMove g).modRegion g fun r => { r with repairs := r.repairs.filter fun x => x != .full }).slotEnd p 1).slotWork
      p := by
  rintro s ⟨htest, hadmits⟩
  have hslot := (slotPlaces_iff _ g).mpr hadmits
  show execFullPlacement t g s = _
  simp only [execFullPlacement, htest, ← slotPlaces_eq, hslot, List.isEmpty_nil, not_true_eq_false, or_true, or_self, if_false, if_true]

/-! ## The fill of a spare (R311 to R316) -/

/-- A channel out of service that a fill would read stops it, whatever else its reads meet (R378). -/
theorem fillStops_down {s : State} {p tile l : Nat} (g : Nat) (hdown : s.fillDown p tile = some l) :
    s.fillStops g p tile = some ((s.downRefuse l false).haltFill g p) := by
  simp only [State.fillStops, hdown]

/-- Uncorrectable tally data stops a fill (R316). -/
theorem fillStops_bad {s : State} {p tile page l a : Nat} (g : Nat) (hup : s.fillDown p tile = none)
    (hbad : s.fillBad p tile = some (page, l, a)) : s.fillStops g p tile = some (s.stopFill g p page l a) := by
  simp only [State.fillStops, hup, hbad]

/-- A fill goes on when its tally data reads well. -/
theorem fillStops_none {s : State} {p tile : Nat} (g : Nat) (hup : s.fillDown p tile = none) (hgood : s.fillBad p tile = none) :
    s.fillStops g p tile = none := by
  simp only [State.fillStops, hup, hgood]

/-- A repair whose fill has its spare reads the tally data of the fill, which may stop it (R311, R316). -/
theorem repairStart_fill {t g k q n : Nat} {rest : List Repair} {s : State}
    (hhead : (((s.adv t).chooseSpare g).region g).repairs = .fill k q n false :: rest) (hspare : q ≠ 144) :
    exec (.repairStart t g) s = .next ((((s.adv t).chooseSpare g).fillStops g (((s.adv t).chooseSpare g).partField (siteKey g 0))
      (tileOf g k)).getD ((s.adv t).chooseSpare g)) := by
  show execRepairStart t g s = _
  simp only [execRepairStart, hhead, if_neg hspare]

/-- A region whose queue begins with no fill that goes on reads no tally data. -/
theorem repairStart_noFill_does (t g : Nat) : Does t (.repairStart t g)
    (fun s => ∀ k q n rest, ((s.chooseSpare g).region g).repairs ≠ .fill k q n false :: rest) fun s => s.chooseSpare g := by
  intro s hnofill
  show execRepairStart t g s = _
  unfold execRepairStart
  extract_lets s1 s2
  split
  case h_1 k q n rest hhead => exact absurd hhead (hnofill k q n rest)
  case h_2 => rfl

/-- A fill that found no spare waits, and one whose tally data reads well goes on. -/
theorem repairStart_fill_does (t g k q n : Nat) (rest : List Repair) : Does t (.repairStart t g)
    (fun s => ((s.chooseSpare g).region g).repairs = .fill k q n false :: rest ∧
      (q = 144 ∨ ((s.chooseSpare g).fillBad ((s.chooseSpare g).partField (siteKey g 0)) (tileOf g k) = none ∧
        (s.chooseSpare g).fillDown ((s.chooseSpare g).partField (siteKey g 0)) (tileOf g k) = none))) fun s => s.chooseSpare g := by
  rintro s ⟨hhead, hreads⟩
  by_cases hwaits : q = 144
  · show execRepairStart t g s = _
    simp only [execRepairStart, hhead, if_pos hwaits]
  · obtain ⟨hgood, hup⟩ := hreads.resolve_left hwaits
    rw [repairStart_fill hhead hwaits, fillStops_none g hup hgood, Option.getD_none]

/-- A repair's fill stops at uncorrectable tally data (R316). -/
theorem repairStart_bad_does (t g k q n : Nat) (rest : List Repair) (page l a : Nat) : Does t (.repairStart t g)
    (fun s => ((s.chooseSpare g).region g).repairs = .fill k q n false :: rest ∧ q ≠ 144 ∧
      (s.chooseSpare g).fillDown ((s.chooseSpare g).partField (siteKey g 0)) (tileOf g k) = none ∧
      (s.chooseSpare g).fillBad ((s.chooseSpare g).partField (siteKey g 0)) (tileOf g k) = some (page, l, a)) fun s =>
    (s.chooseSpare g).stopFill g ((s.chooseSpare g).partField (siteKey g 0)) page l a := by
  rintro s ⟨hhead, hspare, hup, hbad⟩
  rw [repairStart_fill hhead hspare, fillStops_bad g hup hbad, Option.getD_some]

/-- A repair's fill stops where a channel out of service refuses its read (R378). -/
theorem repairStart_down_does (t g k q n : Nat) (rest : List Repair) (l : Nat) : Does t (.repairStart t g)
    (fun s => ((s.chooseSpare g).region g).repairs = .fill k q n false :: rest ∧ q ≠ 144 ∧
      (s.chooseSpare g).fillDown ((s.chooseSpare g).partField (siteKey g 0)) (tileOf g k) = some l) fun s =>
    ((s.chooseSpare g).downRefuse l false).haltFill g ((s.chooseSpare g).partField (siteKey g 0)) := by
  rintro s ⟨hhead, hspare, hdown⟩
  rw [repairStart_fill hhead hspare, fillStops_down g hdown, Option.getD_some]

/-- The site of a spare once its fill has written it: the tile is on it, the next repair is active and the held first phase is loaded (R312,
R313). -/
def State.spareFilled (s : State) (g k q : Nat) (rest : List Repair) : State :=
  ((((s.mapFlush (s.partField (siteKey g 0))).fillSite (s.partField (siteKey g 0)) (siteKey g q) (tileOf g k)).endFill g k q).modRegion g fun r =>
    { r with repairs := rest }).loadShadow (siteKey g q)

/-- A fill ends with a partition that awaits no outcome and no tag: its tally data is read again, and may stop it (R312, R316). -/
theorem spareFillComplete_fill {t g k q n : Nat} {rest : List Repair} {s : State}
    (hhead : ((s.adv t).region g).repairs = .fill k q n false :: rest) (hspare : q ≠ 144)
    (hseal : (s.adv t).sealOpen ((s.adv t).partField (siteKey g 0)) = false)
    (htags : (s.adv t).tagsOpen ((s.adv t).partField (siteKey g 0)) = false) :
    exec (.spareFillComplete t g) s = .next (((s.adv t).fillStops g ((s.adv t).partField (siteKey g 0)) (tileOf g k)).getD
      ((s.adv t).spareFilled g k q rest)) := by
  show execSpareFillComplete t g s = _
  simp only [execSpareFillComplete, hhead, hspare, hseal, htags, Bool.false_eq_true, or_self, if_false]
  split
  case h_1 hstops => rw [hstops, Option.getD_some]
  case h_2 hstops => rw [hstops, Option.getD_none]; rfl

/-- A fill whose tally data reads well puts its tile on the spare, and the next repair is active (R312, R313). -/
theorem spareFillComplete_does (t g k q n : Nat) (rest : List Repair) : Does t (.spareFillComplete t g)
    (fun s => (s.region g).repairs = .fill k q n false :: rest ∧ q ≠ 144 ∧ s.sealOpen (s.partField (siteKey g 0)) = false ∧
      s.tagsOpen (s.partField (siteKey g 0)) = false ∧ s.fillDown (s.partField (siteKey g 0)) (tileOf g k) = none ∧
      s.fillBad (s.partField (siteKey g 0)) (tileOf g k) = none) fun s =>
    ((((s.mapFlush (s.partField (siteKey g 0))).fillSite (s.partField (siteKey g 0)) (siteKey g q) (tileOf g k)).endFill g k q).modRegion g fun r =>
      { r with repairs := rest }).loadShadow (siteKey g q) := by
  rintro s ⟨hhead, hspare, hseal, htags, hup, hgood⟩
  rw [spareFillComplete_fill hhead hspare hseal htags, fillStops_none g hup hgood, Option.getD_none]
  rfl

/-- A fill that ends on uncorrectable tally data stops instead (R316). -/
theorem spareFillComplete_bad_does (t g k q n : Nat) (rest : List Repair) (page l a : Nat) : Does t (.spareFillComplete t g)
    (fun s => (s.region g).repairs = .fill k q n false :: rest ∧ q ≠ 144 ∧ s.sealOpen (s.partField (siteKey g 0)) = false ∧
      s.tagsOpen (s.partField (siteKey g 0)) = false ∧ s.fillDown (s.partField (siteKey g 0)) (tileOf g k) = none ∧
      s.fillBad (s.partField (siteKey g 0)) (tileOf g k) = some (page, l, a)) fun s =>
    s.stopFill g (s.partField (siteKey g 0)) page l a := by
  rintro s ⟨hhead, hspare, hseal, htags, hup, hbad⟩
  rw [spareFillComplete_fill hhead hspare hseal htags, fillStops_bad g hup hbad, Option.getD_some]

/-! ## In-service self-tests (R76, R307) -/

/-- The tests of a site end under a flushed map; with the last of its partition's, the slot's item ends and a waiting placement goes on (R76,
R284, R307). -/
theorem bistComplete_does (t k : Nat) (sig : BitVec 64) (mem : Bool) (b en e : Nat) : Does t (.bistComplete t k sig mem b en e)
    (fun s => (s.site k).st = .test) fun s =>
    let s1 := (s.mapFlush (s.partField k)).bistResult k sig mem b en e
    if ((s1.sitesOf (s.partField k)).any fun k' => (s1.site k').st == .test) = true then s1
    else (s1.slotEnd (s.partField k) 3).grantLoad (s.partField k) := by
  intro s htest
  show execBistComplete t k sig mem b en e s = _
  simp only [execBistComplete, if_pos htest]
  rfl

/-- Settles O24: each repair row has its effect, one lemma per row and branch. -/
theorem repairRowsAct : Obligations.RepairRowsAct := by
  unfold Obligations.RepairRowsAct
  exact ⟨siteFaultDetect_check_does, siteFaultDetect_slice_does, plannedFence_does, fullPlacement_repair_does, fullPlacement_slot_does,
    repairStart_noFill_does, repairStart_fill_does, repairStart_bad_does, repairStart_down_does, spareFillComplete_does,
    spareFillComplete_bad_does, bistComplete_does⟩

end Sys2Proof.Machine
end

section
/-! PROOFS. The logical grid (02 R60, R61): block and local index of a tile, and the tile of a block and a local index. -/

namespace Sys2Proof.Machine

/-- The block of tile T(x,y) is region r of stack s, in the number 8 × s + r that its block column and block row give (R60). -/
theorem tileBlock_xy {x y : Nat} (hx : x < 128) :
    tileBlock (x + 128 * y) = 8 * (4 * (y / 8 / 4) + x / 16 / 2) + (2 * (y / 8 % 4) + x / 16 % 2) := by
  have hcol : (x + 128 * y) % 128 = x := by omega
  have hrow : (x + 128 * y) / 128 = y := by omega
  simp only [tileBlock, hcol, hrow]

/-- Inside its block, tile T(x,y) is numbered along rows of 16 (R60). -/
theorem tileLocal_xy {x y : Nat} (hx : x < 128) : tileLocal (x + 128 * y) = x % 16 + 16 * (y % 8) := by
  have hcol : (x + 128 * y) % 128 = x := by omega
  have hrow : (x + 128 * y) / 128 = y := by omega
  simp only [tileLocal, hcol, hrow]

theorem tileLocal_le (t : Nat) : tileLocal t ≤ 127 := by
  unfold tileLocal
  omega

theorem tileBlock_le {t : Nat} (ht : t < 8192) : tileBlock t ≤ 63 := by
  simp only [tileBlock]
  omega

/-- The block column and block row of a block, read back from its number (R60, R61). -/
theorem blockNumber_split {bx by' : Nat} (hx : bx < 8) :
    let g := 8 * (4 * (by' / 4) + bx / 2) + (2 * (by' % 4) + bx % 2)
    2 * (g / 8 % 4) + g % 8 % 2 = bx ∧ 4 * (g / 8 / 4) + g % 8 / 2 = by' := by
  omega

/-- The tile of its own block and local index is the tile itself. -/
theorem tileOf_tileBlock_tileLocal (t : Nat) : tileOf (tileBlock t) (tileLocal t) = t := by
  obtain ⟨hbx, hby⟩ := blockNumber_split (bx := t % 128 / 16) (by' := t / 128 / 8) (by omega)
  simp only [tileOf, tileBlock, hbx, hby]
  unfold tileLocal
  omega

/-- The coordinates of local index k of block g: 16 columns and 8 rows from the block's corner. -/
theorem tileOf_xy (g k : Nat) : tileOf g k =
    (16 * (2 * (g / 8 % 4) + g % 8 % 2) + k % 16) + 128 * (8 * (4 * (g / 8 / 4) + g % 8 / 2) + k / 16) := rfl

theorem tileBlock_tileOf {g k : Nat} (hk : k < 128) : tileBlock (tileOf g k) = g := by
  rw [tileOf_xy, tileBlock_xy (by omega)]
  omega

theorem tileLocal_tileOf {g k : Nat} (hk : k < 128) : tileLocal (tileOf g k) = k := by
  rw [tileOf_xy, tileLocal_xy (by omega)]
  omega

theorem tileOf_lt {g k : Nat} (hg : g < 64) (hk : k < 128) : tileOf g k < 8192 := by
  have hbx : 2 * (g / 8 % 4) + g % 8 % 2 ≤ 7 := by omega
  have hby : 4 * (g / 8 / 4) + g % 8 / 2 ≤ 7 := by omega
  rw [tileOf_xy]
  omega

/-- Settles O58: block and local index name the tile, and the tile names them. -/
theorem tilesHaveBlocks : Obligations.TilesHaveBlocks := by
  unfold Obligations.TilesHaveBlocks
  refine ⟨fun x y hx hy => ?_, fun t _ => tileOf_tileBlock_tileLocal t, fun g k hg hk => ?_⟩
  · exact ⟨tileBlock_xy hx, tileLocal_xy hx, tileLocal_le _, tileBlock_le (by omega)⟩
  · exact ⟨tileBlock_tileOf hk, tileLocal_tileOf hk, tileOf_lt hg hk⟩

end Sys2Proof.Machine
end

section
/-! PROOFS. The data rows of a site: a K-group of the matrix patch, a beat of the vector pipeline, a grant of the slice arbiter and an iteration of an
address generator (03 R98 to R104, R572; 05 R172 to R187). -/

namespace Sys2Proof.Machine

/-! ## The patch and the vector pipeline (R98, R99, R572) -/

/-- Where its operand streams give what it needs, the patch folds a K-group into its accumulators, and emits them with the last of an
output block (R98, R99, R104). -/
theorem patchKgroup_does (t k : Nat) (bufA sclA : List Byte) (s1 : State) (bufB sclB : List Byte) (s2 : State) (cs scl : List Byte) (s3 : State) :
    Does t (.patchKgroup t k)
    (fun s =>
      let x := s.site k
      let pl := x.patchPlan
      let first := x.patch.kg == 0 && x.patch.wsRow == 0 && x.patch.wsGrp == 0
      (x.cfg 0 0 2 = 1 ∨ x.cfg 0 0 2 = 2) ∧ s.siteWorks k 0 = true ∧
        s.patchTake k strA x.patchNeed.1 x.patch.bufA x.patch.sclA = some (bufA, sclA, s1) ∧
        s1.patchTake k strB (x.patchNeed.2 * pl.blk) x.patch.bufB x.patch.sclB = some (bufB, sclB, s2) ∧
        (if first = true ∧ x.cfg 0 10 2 = 1 then s2.patchTake k strC (4 * pl.cells.length) [] [] else some ([], [], s2)) = some (cs, scl, s3)) fun s =>
    let x := s.site k
    let w : BitVec 64 := ((x.unit 0).active).setWidth 64
    let pl := x.patchPlan
    let first := x.patch.kg == 0 && x.patch.wsRow == 0 && x.patch.wsGrp == 0
    let na := pl.rows * pl.g * fmtBits (x.cfg 0 2 4) / 8
    let nb := pl.cols * pl.g * fmtBits (x.cfg 0 6 4) / 8
    let nsa := if isMx (x.cfg 0 2 4) then pl.rows else 0
    let nsb := if isMx (x.cfg 0 6 4) then pl.cols else 0
    let r := patchFold w pl.rows pl.cols pl.g x.patch.wsRow (bufA.take na) (sclA.take nsa) ((bufB.drop (nb * x.patch.wsGrp)).take nb)
      ((sclB.drop (nsb * x.patch.wsGrp)).take nsb) (if first then patchInit w pl.cells cs x.patch.acc else x.patch.acc)
    let y := ({ x.patch with acc := r.1, bufA, sclA, bufB, sclB, intWrap := x.patch.intWrap || r.2.1, nanSeen := x.patch.nanSeen || r.2.2 } : PatchSt).after
      pl (x.cfg 0 16 16) na nsa nb nsb
    s3.modSite k fun z =>
      let z := { z with patch := y.1 }
      if y.2 then (patchBeats w pl.cells r.1).foldl (fun z e => z.emitAll (z.outputs 0) e) z else z := by
  rintro s ⟨hmode, hworks, hA, hB, hC⟩
  show execPatchKgroup t k s = _
  simp only [execPatchKgroup, if_pos (And.intro hmode hworks), hA, hB, hC]
  rfl

/-- An active pipeline with a streamed input, whose stages work in one epoch, may pass a beat: the guard of `execVectorBeat`. -/
theorem pipeline_ready {s : State} {k : Nat} {x : Site} (hactive : x.pipeActive = true) (hinputs : x.pipeInputs ≠ [])
    (hstages : ∀ u ∈ (List.range 6).map (0x010 + ·), (x.unit u).epoch = (x.unit 0x010).epoch ∧ s.siteWorks k u = true) :
    x.pipeActive = true ∧ ¬ x.pipeInputs.isEmpty = true ∧
      (((List.range 6).map (0x010 + ·)).all fun u => (x.unit u).epoch == (x.unit 0x010).epoch && s.siteWorks k u) = true :=
  ⟨hactive, mt List.isEmpty_iff.mp hinputs, List.all_eq_true.mpr fun u hu => by
    obtain ⟨hepoch, hworks⟩ := hstages u hu
    rw [hepoch, hworks, beq_self_eq_true, Bool.and_self]⟩

/-- A beat at every streamed input goes through the six stages, where each output has room for what the last emits (R572). -/
theorem vectorBeat_does (t k : Nat) (got : List (Nat × List Elem)) (s1 : State) : Does t (.vectorBeat t k)
    (fun s =>
      let x := (s.site k).viewAt ((s.site k).unit 0x010).epoch
      let r := s.runStages k x got 6 1 (s1.site k) (x.beatFlow got x.prevStream)
      x.pipeActive = true ∧ x.pipeInputs ≠ [] ∧
        (∀ u ∈ (List.range 6).map (0x010 + ·), (x.unit u).epoch = (x.unit 0x010).epoch ∧ s.siteWorks k u = true) ∧
        s.takeBeats k x.pipeInputs = some (got, s1) ∧ (∀ o ∈ (s.site k).outputs 0x015, x.room 0x015 o r.2.length = true)) fun s =>
    let x := (s.site k).viewAt ((s.site k).unit 0x010).epoch
    let r := s.runStages k x got 6 1 (s1.site k) (x.beatFlow got x.prevStream)
    s1.modSite k fun _ => r.2.foldl (fun y e => y.emitAll ((s.site k).outputs 0x015) e) r.1 := by
  rintro s ⟨hactive, hinputs, hstages, hbeats, hroom⟩
  show execVectorBeat t k s = _
  simp only [execVectorBeat, if_pos (pipeline_ready hactive hinputs hstages), hbeats, if_pos (List.all_eq_true.mpr hroom)]

/-! ## The slice arbiter (R172, R175) -/

/-- The accesses that come join the pending ones, the arbiter grants one, and the check bits of its entries are corrected or
reported (R172, R175). -/
theorem sliceAccessGrant_does (t k : Nat) (wr nr : List SliceReq) (hits : List (Nat × List Byte)) :
    Does t (.sliceAccessGrant t k wr nr hits) (fun _ => True) fun s =>
    let s1 := s.disturbs k hits
    let m := (s1.site k).mu
    let wide (r : SliceReq) : Bool := match r.form with
      | .narrow _ => false
      | _ => true
    let r := arbitrate { m with
      wideReq := joinReq m.wideReq (wr.filter wide), narrowReq := joinReq m.narrowReq (nr.filter fun r => !wide r) }
    match r.2 with
    | none => s1.modSite k fun x => { x with mu := r.1 }
    | some q => (s1.modSite k fun x => { x with mu := r.1 }).grantEcc k q := fun _ _ => rfl

/-! ## The address generators (R178 to R187) -/

/-- An address generator with a program that is not done iterates, a write program even where the others may not run: the guard of
`execAgIteration` does not stop it. -/
theorem agIteration_iterates {s : State} {k n mode : Nat} {ag : AgSt} (hn : n < 4) (hmode : 1 ≤ mode ∧ mode ≤ 4) (hdone : ag.done = false)
    (hworks : s.siteWorks k (0x020 + n) = true) (hrun : mode ≠ 2 → s.mayRun k (0x020 + n) = true) :
    ¬ (4 ≤ n ∨ mode = 0 ∨ 4 < mode ∨ ag.done = true ∨ ¬ s.siteWorks k (0x020 + n) = true ∨ (mode ≠ 2 ∧ ¬ s.mayRun k (0x020 + n) = true)) := by
  rintro (h | h | h | h | h | ⟨hwrite, h⟩)
  · omega
  · omega
  · omega
  · exact Bool.false_ne_true (hdone.symm.trans h)
  · exact h hworks
  · exact h (hrun hwrite)

/-- A fill stores its pattern at the address of the iteration, and no scale bytes (R183; DESIGN CHOICE, log 151). -/
theorem agIteration_fill_does (t k n : Nat) : Does t (.agIteration t k n)
    (fun s => n < 4 ∧ bitsN ((s.site k).unit (0x020 + n)).active.toNat 0 3 = 3 ∧
      (Tbl.get {} (s.site k).ags n : AgSt).done = false ∧ s.siteWorks k (0x020 + n) = true ∧ s.mayRun k (0x020 + n) = true ∧
      agPadded ((s.site k).unit (0x020 + n)).active.toNat (Tbl.get {} (s.site k).ags n : AgSt).idx = false) fun s =>
    let cfg := ((s.site k).unit (0x020 + n)).active.toNat
    let ag : AgSt := Tbl.get {} (s.site k).ags n
    let a := agAddr cfg ag.idx
    let vlen := vlenBytes (bitsN cfg 11 2)
    (s.agStore k n cfg a (agScaleAddr cfg ag.idx) ((List.range (vlen / 4)).flatMap fun _ => leBytes 4 (bitsN cfg 128 32)) [] none).agStep k n cfg
      ((agBytesAt cfg a).flatMap (granules · 1)).dedup [] := by
  rintro s ⟨hn, hmode, hdone, hworks, hrun, hpad⟩
  have hiterates := agIteration_iterates hn (mode := 3) (by decide) hdone hworks fun _ => hrun
  show execAgIteration t k n s = _
  simp only [execAgIteration, hmode, if_neg hiterates, hpad]
  rfl

/-- A copy reads at the address of the iteration and stores at the offset from it, without scale bytes; what it writes leaves its transpose
buffer (R183; DESIGN CHOICE, log 151). -/
theorem agIteration_copy_does (t k n : Nat) : Does t (.agIteration t k n)
    (fun s => n < 4 ∧ bitsN ((s.site k).unit (0x020 + n)).active.toNat 0 3 = 4 ∧
      (Tbl.get {} (s.site k).ags n : AgSt).done = false ∧ s.siteWorks k (0x020 + n) = true ∧ s.mayRun k (0x020 + n) = true ∧
      agPadded ((s.site k).unit (0x020 + n)).active.toNat (Tbl.get {} (s.site k).ags n : AgSt).idx = false) fun s =>
    let cfg := ((s.site k).unit (0x020 + n)).active.toNat
    let ag : AgSt := Tbl.get {} (s.site k).ags n
    let a := agAddr cfg ag.idx
    let addrs := agBytesAt cfg a
    let d := ((a : Int) + bitsZ cfg 128 32).toNat
    (((s.agAccess k n (agScaleAddr cfg ag.idx) 0 addrs).agStore k n cfg d (agScaleAddr cfg ag.idx)
        ((s.site k).agBytes n addrs) [] (if bitsN cfg 3 4 = 0xD then (s.site k).tagAt a else none)).agStep k n cfg
      ((agBytesAt cfg d).flatMap (granules · 1)).dedup (if bitOn cfg 13 then (s.site k).agFetch n addrs else [])).modSite k fun y =>
        { y with ags := Tbl.set {} n { (Tbl.get {} y.ags n : AgSt) with
            tbuf := (Tbl.get {} y.ags n : AgSt).tbuf.filter fun h => !(halfCols (agBytesAt cfg d)).contains h.1 } y.ags } := by
  rintro s ⟨hn, hmode, hdone, hworks, hrun, hpad⟩
  have hiterates := agIteration_iterates hn (mode := 4) (by decide) hdone hworks fun _ => hrun
  show execAgIteration t k n s = _
  simp only [execAgIteration, hmode, if_neg hiterates, hpad]
  rfl

/-- The mode of a fill or a copy is one of the four, and neither that of a read nor that of a write (R177). -/
theorem fillOrCopy_mode {mode : Nat} (hmode : mode = 3 ∨ mode = 4) : (1 ≤ mode ∧ mode ≤ 4) ∧ mode ≠ 1 ∧ mode ≠ 2 := by
  omega

/-- A padded iteration of a fill or a copy moves nothing and goes on (R180). -/
theorem agIteration_padded_does (t k n : Nat) : Does t (.agIteration t k n)
    (fun s => n < 4 ∧ (bitsN ((s.site k).unit (0x020 + n)).active.toNat 0 3 = 3 ∨ bitsN ((s.site k).unit (0x020 + n)).active.toNat 0 3 = 4) ∧
      (Tbl.get {} (s.site k).ags n : AgSt).done = false ∧ s.siteWorks k (0x020 + n) = true ∧ s.mayRun k (0x020 + n) = true ∧
      agPadded ((s.site k).unit (0x020 + n)).active.toNat (Tbl.get {} (s.site k).ags n : AgSt).idx = true) fun s =>
    s.agStep k n ((s.site k).unit (0x020 + n)).active.toNat [] [] := by
  rintro s ⟨hn, hmode, hdone, hworks, hrun, hpad⟩
  obtain ⟨hmodes, hnoread, hnowrite⟩ := fillOrCopy_mode hmode
  have hiterates := agIteration_iterates hn hmodes hdone hworks fun _ => hrun
  show execAgIteration t k n s = _
  simp only [execAgIteration, if_neg hiterates, if_neg hnoread, if_neg hnowrite, hpad, if_true]

/-- A read program emits a vector where each of its outputs has room, zeros with scales of one where the iteration is padded (R178, R180). -/
theorem agIteration_read_does (t k n : Nat) : Does t (.agIteration t k n)
    (fun s =>
      let x := s.site k
      let cfg := (x.unit (0x020 + n)).active.toNat
      n < 4 ∧ bitsN cfg 0 3 = 1 ∧ (Tbl.get {} x.ags n : AgSt).done = false ∧ s.siteWorks k (0x020 + n) = true ∧ s.mayRun k (0x020 + n) = true ∧
        x.outputs (0x020 + n) ≠ [] ∧ (∀ o ∈ x.outputs (0x020 + n), x.room (0x020 + n) o (x.agRead n o).length = true)) fun s =>
    let x := s.site k
    let cfg := (x.unit (0x020 + n)).active.toNat
    let ag : AgSt := Tbl.get {} x.ags n
    let addrs := agBytesAt cfg (agAddr cfg ag.idx)
    let pad := agPadded cfg ag.idx
    let s1 := if pad then s else s.agAccess k n (agScaleAddr cfg ag.idx) (bitsN cfg 376 6) addrs
    ((s1.modSite k fun y => (x.outputs (0x020 + n)).foldl (fun y o => (x.agRead n o).foldl (fun y e => y.emit o e) y) y).agStep k n cfg []
      (if bitOn cfg 13 && !pad then x.agFetch n addrs else [])).eveOwed k (0x020 + n) := by
  rintro s ⟨hn, hmode, hdone, hworks, hrun, houts, hroom⟩
  have hiterates := agIteration_iterates hn (mode := 1) (by decide) hdone hworks fun _ => hrun
  show execAgIteration t k n s = _
  simp only [execAgIteration, hmode, if_neg hiterates, if_pos (And.intro (mt List.isEmpty_iff.mp houts) (List.all_eq_true.mpr hroom))]
  rfl

/-- A write program stores the vector that it takes, with its scale bytes (R178, R181). -/
theorem agIteration_write_does (t k n : Nat) (r : InRef) (rest : List InRef) (es : List Elem) (s1 : State) : Does t (.agIteration t k n)
    (fun s =>
      let x := s.site k
      let cfg := (x.unit (0x020 + n)).active.toNat
      n < 4 ∧ bitsN cfg 0 3 = 2 ∧ (Tbl.get {} x.ags n : AgSt).done = false ∧ s.siteWorks k (0x020 + n) = true ∧
        (x.inputs (0x020 + n)).filter (x.ownsIn (0x020 + n)) = r :: rest ∧ bitOn cfg 15 = false ∧
        agPadded cfg (Tbl.get {} x.ags n : AgSt).idx = false ∧
        s.takeN k r (if r.plane = 1 then vlenBytes (bitsN cfg 11 2) / 4 else 1) = some (es, s1)) fun s =>
    let x := s.site k
    let cfg := (x.unit (0x020 + n)).active.toNat
    let ag : AgSt := Tbl.get {} x.ags n
    let a := agAddr cfg ag.idx
    let sa := agScaleAddr cfg ag.idx
    let sc := ((es.headD {}).scales ++ List.replicate (bitsN cfg 376 6) 0).take (bitsN cfg 376 6)
    let bs := writeBytes ((x.unit 0x015).wordAt (x.unit (0x020 + n)).epoch).toNat cfg r.plane es
    (s1.agStore k n cfg a sa bs sc (if bitsN cfg 3 4 = 0xD then (es.headD {}).tag else none)).agStep k n cfg
        (((agBytesAt cfg a).take bs.length).flatMap (granules · 1) ++ granules sa sc.length).dedup [] := by
  rintro s ⟨hn, hmode, hdone, hworks, hinput, hstore, hpad, htake⟩
  have hiterates := agIteration_iterates hn (mode := 2) (by decide) hdone hworks fun h => absurd rfl h
  show execAgIteration t k n s = _
  simp only [execAgIteration, hmode, if_neg hiterates, hinput, htake, hpad, hstore]
  rfl

/-- A write program drops the vector of a padded iteration, and one under `DISCARD` does not count it (R180; DESIGN CHOICE, log 150). -/
theorem agIteration_drop_does (t k n : Nat) (r : InRef) (rest : List InRef) (es : List Elem) (s1 : State) : Does t (.agIteration t k n)
    (fun s =>
      let x := s.site k
      let cfg := (x.unit (0x020 + n)).active.toNat
      n < 4 ∧ bitsN cfg 0 3 = 2 ∧ (Tbl.get {} x.ags n : AgSt).done = false ∧ s.siteWorks k (0x020 + n) = true ∧
        (x.inputs (0x020 + n)).filter (x.ownsIn (0x020 + n)) = r :: rest ∧ agPadded cfg (Tbl.get {} x.ags n : AgSt).idx = true ∧
        s.takeN k r (if r.plane = 1 then vlenBytes (bitsN cfg 11 2) / 4 else 1) = some (es, s1)) fun s =>
    s1.agStep k n ((s.site k).unit (0x020 + n)).active.toNat [] [] := by
  rintro s ⟨hn, hmode, hdone, hworks, hinput, hpad, htake⟩
  have hiterates := agIteration_iterates hn (mode := 2) (by decide) hdone hworks fun h => absurd rfl h
  show execAgIteration t k n s = _
  simp only [execAgIteration, hmode, if_neg hiterates, hinput, htake, hpad]
  rfl

/-- A write program under `DISCARD` counts the vector that it takes and stores nothing (R186). -/
theorem agIteration_discard_does (t k n : Nat) (r : InRef) (rest : List InRef) (es : List Elem) (s1 : State) : Does t (.agIteration t k n)
    (fun s =>
      let x := s.site k
      let cfg := (x.unit (0x020 + n)).active.toNat
      n < 4 ∧ bitsN cfg 0 3 = 2 ∧ (Tbl.get {} x.ags n : AgSt).done = false ∧ s.siteWorks k (0x020 + n) = true ∧
        (x.inputs (0x020 + n)).filter (x.ownsIn (0x020 + n)) = r :: rest ∧ bitOn cfg 15 = true ∧
        agPadded cfg (Tbl.get {} x.ags n : AgSt).idx = false ∧
        s.takeN k r (if r.plane = 1 then vlenBytes (bitsN cfg 11 2) / 4 else 1) = some (es, s1)) fun s =>
    let cfg := ((s.site k).unit (0x020 + n)).active.toNat
    let c := ctrAdd (Tbl.get {} (s1.site k).mu.discards (bitsN cfg 24 8)) 1
    ((s1.modSite k fun x => { x with mu := { x.mu with discard := true, discards := Tbl.set {} (bitsN cfg 24 8) c.1 x.mu.discards } }).ovfIf c.2
      (0x0C000000 + s.tileAt k + 8192 * bitsN cfg 24 8) 0).agStep k n cfg [] [] := by
  rintro s ⟨hn, hmode, hdone, hworks, hinput, hdiscard, hpad, htake⟩
  have hiterates := agIteration_iterates hn (mode := 2) (by decide) hdone hworks fun h => absurd rfl h
  show execAgIteration t k n s = _
  simp only [execAgIteration, hmode, if_neg hiterates, hinput, htake, hpad, hdiscard]
  rfl

/-- Settles O28: each data row has its effect, one lemma per row and branch. -/
theorem dataRowsAct : Obligations.DataRowsAct := by
  unfold Obligations.DataRowsAct
  exact ⟨patchKgroup_does, vectorBeat_does, sliceAccessGrant_does, agIteration_fill_does, agIteration_copy_does, agIteration_padded_does,
    agIteration_read_does, agIteration_write_does, agIteration_drop_does, agIteration_discard_does⟩

end Sys2Proof.Machine
end

section
/-! PROOFS. The partition, Ordo and job commands: the next state of each where it succeeds (04 R155; 09 R284, R291; 14 R443, R447, R450). -/

namespace Sys2Proof.Machine

/-! ## Partitions -/

/-- No region of a mask is of a partition. -/
theorem regionsFree_any {s : State} {r : Nat} (h : ∀ g < 64, bitOn r g = true → s.partOfRegion g = none) :
    ((List.range 64).any fun g => bitOn r g && (s.partOfRegion g).isSome) = false := by
  rw [List.any_eq_false]
  intro g hg hon
  rw [Bool.and_eq_true] at hon
  rw [h g (List.mem_range.mp hg) hon.1] at hon
  exact absurd hon.2 (by decide)

/-- `PARTITION_CREATE` gives the lowest free partition free regions and a credential (R447, R450). -/
theorem partitionCreate_runs (t mb : Nat) (buf : Option (List Byte)) (p : Nat) :
    Runs cmdPartitionCreate t mb { buf } (.partitionCreate t mb buf)
      (fun s c => c.arg 0 ≠ 0 ∧ (∀ g < 64, bitOn (c.arg 0) g = true → s.partOfRegion g = none) ∧
        (List.range 16).find? (fun p => !(s.part p).exist) = some p) fun s c =>
      let cred := (s.draw 128).1
      (((s.draw 128).2).modPart p fun x =>
        { exist := true, regions := BitVec.ofNat 64 (c.arg 0), cred, epoch := x.epoch, harvested := x.harvested, lock := x.lock, lockWait := x.lockWait,
          twin := { mirrors := x.twin.mirrors } }).finish c.mb stOk p cred.toNat := by
  refine runs_of (fun _ => rfl) ?_
  rintro s c ⟨hregions, hfree, hpart⟩
  simp only [cmdPartitionCreate, if_neg hregions, regionsFree_any hfree, Bool.false_eq_true, if_false, hpart]

/-- `PARTITION_DESTROY` frees what a partition without a job holds (R447, R450, log 29). -/
theorem partitionDestroy_runs (t mb : Nat) (buf : Option (List Byte)) : Runs cmdPartitionDestroy t mb { buf } (.partitionDestroy t mb buf)
    (fun s c => (s.part c.part).job = none) fun s c =>
    let p := c.part
    let x := (s.part p).twin
    let s0 := s
    let s := if x.st = .unbound then s else (s.emit (.twinUnbind x.peerDev x.peerPart)).twinFree p
    let s1 := s.unmapPages ((s.mem.map.filter fun e => e.2.owner == p && e.2.kind != .unmapped && e.2.kind != .system).map (·.1) ++
      (s0.part p).imagePages)
    let s2 : State := { s1 with mem := { s1.mem with wins := s1.mem.wins.filter fun e => e.2.owner != p },
                                alm := { s1.alm with active := s1.alm.active.filter fun e => e.2.part != p,
                                                     shadow := s1.alm.shadow.filter fun e => e.2.part != p } }
    let s3 := (s2.modSites (s2.sitesOf p) fun _ y => { y with mu := { y.mu with windows := [] } }).setDown p false
    let s4 := (List.range 24).foldl (fun (s : State) m =>
      if (s.mbx m).role = 2 ∧ (s.mbx m).rolePart = p then s.modMb m fun y => { y with role := 0, rolePart := 0, session := none } else s) s3
    (s4.modPart p fun y =>
      { epoch := y.epoch, harvested := y.harvested, lock := y.lock, lockWait := y.lockWait, twin := { mirrors := y.twin.mirrors } }).finish c.mb stOk := by
  refine runs_of (fun _ => rfl) ?_
  intro s c hjob
  simp only [cmdPartitionDestroy, hjob, Option.isSome_none, Bool.false_eq_true, if_false]

/-- `INTERCALARY_SET` sets which slots the Steward may use (R284, R450). -/
theorem intercalarySet_runs (t mb : Nat) (buf : Option (List Byte)) : Runs cmdIntercalarySet t mb { buf } (.intercalarySet t mb buf)
    (fun _ c => c.arg 0 ≤ 7) fun s c => (s.modPart c.part fun x => { x with work := BitVec.ofNat 3 (c.arg 0) }).finish c.mb stOk := by
  refine runs_of (fun _ => rfl) ?_
  intro s c hwork
  simp only [cmdIntercalarySet, if_neg (Nat.not_lt.mpr hwork)]

/-! ## The Ordo -/

/-- `ORDO_LOAD` checks the image in its buffer and loads it, or answers the first check that fails (R155, R450). -/
theorem ordoLoad_runs (t mb : Nat) (buf : Option (List Byte)) (s' : State) (b : List Byte) :
    Runs cmdOrdoLoad t mb { buf } (.ordoLoad t mb buf)
      (fun s c => (s.part c.part).sweep = none ∧ (s.part c.part).job = none ∧ s.testing c.part = false ∧ s.bufIn c = (s', some b)) fun _ c =>
      match s'.loadChecks c.part c.d.bufLen b with
      | .error e => s'.finish c.mb e.1 0 e.2
      | .ok o => (s'.ordoIn c.part o).finish c.mb stOk := by
  refine runs_of (fun _ => rfl) ?_
  rintro s c ⟨hsweep, hjob, htesting, hbuf⟩
  simp only [cmdOrdoLoad, hsweep, hjob, htesting, hbuf, Option.isSome_none, Bool.false_eq_true, if_false] <;> rfl

/-- `ORDO_UNLOAD` takes the Ordo and its image pages from a partition without a job (R450). -/
theorem ordoUnload_runs (t mb : Nat) (buf : Option (List Byte)) : Runs cmdOrdoUnload t mb { buf } (.ordoUnload t mb buf)
    (fun s c => s.job c.part = none) fun s c =>
    (((s.dropRestore c.part).unmapPages (s.part c.part).imagePages).modPart c.part fun x => { x with ordo := none, imagePages := [] }).finish c.mb stOk := by
  refine runs_of (fun _ => rfl) ?_
  intro s c hjob
  simp only [cmdOrdoUnload, hjob, Option.isSome_none, Bool.false_eq_true, if_false]

/-! ## Jobs -/

/-- Sending the channel table marks the question of the command as put, and leaves what the world has answered (R216). -/
theorem tablesSend_ext (s : State) (mb p : Nat) (o : Ordo) : ((s.tablesSend mb p o).mbx mb).ext = { (s.mbx mb).ext with asked := true } := by
  unfold State.tablesSend
  split
  next hasked => rw [← hasked]
  next =>
    show ((s.askedOf mb).mbx mb).ext = _
    rw [State.askedOf, modMb_same]

/-- `JOB_START` of a fresh job, with every check met and every page had, writes and seals generation 0 and binds it; without a base of its own it
starts at its acknowledgement, rounded up to 4,000 ticks (R291, R450, log 120). -/
theorem jobStart_runs (t mb : Nat) (buf : Option (List Byte)) (tables : List (Nat × List ChanEnt)) (o : Ordo) (s' : State) (a b : Tbl Nat)
    (ls : List Nat) : Runs cmdJobStart t mb { buf, tables, later := false } (.jobStart t mb buf tables false)
    (fun s c => c.arg 0 = 0 ∧ (s.part c.part).sweep = none ∧ (s.part c.part).job = none ∧ (s.part c.part).ordo = some o ∧
      s.hub.devId ≠ 0xFFFF ∧ (s.part c.part).twin.st = .unbound ∧ (s.part c.part).kept = none ∧ rootOmits o s.hub.devId = false ∧
      s.heraldMembers (s.ownGroups c.part []) ≤ 65536 ∧ crossBad ((s.hub.devId, o.chans) :: tables) = false ∧
      (s.tablesSend c.mb c.part o).almRoom o = true ∧ (s.mbx c.mb).ext = { buf, tables, later := false } ∧
      ((s.tablesSend c.mb c.part o).allocWith fun s => match s.allocSides c.part o.classes.length with
        | none => none
        | some (s, a, b) => match s.allocJob c.part o with
          | none => none
          | some (s, ls) => some (s, a, b, ls)) = .done s' (a, b, ls)) fun s c =>
    let s1 := s'.writeGen0 (freshJob o a b) o
    s1.bindJob c.part c.mb (if c.arg 1 = 0 then (c.d.ackFt + 3999) / 4000 * 4000 else c.arg 1) o
      { s1.sealGen0 (freshJob o a b) with jobPages := ls } (o.data.filter (·.slice)) := by
  refine runs_of (fun _ => rfl) ?_
  rintro s c ⟨hmode, hsweep, hjob, hordo, hdev, htwin, hkept, hroot, hmembers, hcross, hroom, hext, halloc⟩
  have hanswer : ((s.tablesSend c.mb c.part o).mbx c.mb).ext = { buf, tables, later := false, asked := true } := by
    rw [tablesSend_ext, hext]
  have hhub : (s.tablesSend c.mb c.part o).hub = s.hub := by
    unfold State.tablesSend
    split <;> rfl
  have hroots : ¬ (rootOmits o s.hub.devId = true ∨ 65536 < s.heraldMembers (s.ownGroups c.part [])) := by
    simp only [hroot, Bool.false_eq_true, false_or]
    omega
  simp only [cmdJobStart, hmode, hsweep, hjob, hordo, hdev, htwin, hkept, hroots, hanswer, hhub, hcross, hroom, reduceCtorEq, or_self,
    false_and, Option.isSome_none, Option.map_none, Option.getD_none, Nat.not_lt_zero, zero_ne_one, not_true_eq_false, Bool.false_eq_true, if_false]
  split
  next st hfail => cases hfail.symm.trans halloc
  next hwait => cases hwait.symm.trans halloc
  next hdone => cases hdone.symm.trans halloc; rfl

/-- `JOB_KILL` of a released job aborts what holds or awaits the lock and ends the binding; it completes after the sweep (R443, R450). -/
theorem jobKill_runs (t mb : Nat) (buf : Option (List Byte)) (j : Job) : Runs cmdJobKill t mb { buf } (.jobKill t mb buf)
    (fun s c => s.job c.part = some j ∧ j.startMb = none ∧ ((s.abortLocked c.part c.mb fun _ => false).part c.part).underReset = false ∧
      ((((s.abortLocked c.part c.mb fun _ => false).endBinding c.part 1 (.jobKill c.mb)).closeHeralds c.part).part c.part).underReset = false) fun s c =>
    ((s.abortLocked c.part c.mb fun _ => false).endBinding c.part 1 (.jobKill c.mb)).closeHeralds c.part := by
  refine runs_of (fun _ => rfl) ?_
  rintro s c ⟨hjob, hreleased, hbefore, hafter⟩
  simp only [cmdJobKill, hjob, hreleased, hbefore, hafter, Option.isNone_some, Option.isSome_none, Bool.false_eq_true, if_false]

/-- Settles O4: each command runs to its next state, one lemma per command. -/
theorem partitionCommandsRun : Obligations.PartitionCommandsRun := by
  unfold Obligations.PartitionCommandsRun
  exact ⟨partitionCreate_runs, partitionDestroy_runs, ordoLoad_runs, ordoUnload_runs, jobStart_runs, jobKill_runs, intercalarySet_runs⟩

end Sys2Proof.Machine
end

section
/-! PROOFS. The rows of the fabric (04 R134 to R136, R157, R158, R160 to R163): port switches, elements and credits of routes, shadow loads, unit
switches, and Eve tokens at the heads of a unit's inputs. -/

namespace Sys2Proof.Machine

/-! ## Ports and routes (R127, R134 to R136, R161) -/

/-- An injection port switches as `State.switchIn` says (R161). -/
theorem portSwitch_inject_does (t k q i : Nat) : Does t (.portSwitch t k q i true) (fun _ => True) fun s => s.switchIn k q i := by
  intro s _
  show execPortSwitch t k q i true s = _
  simp only [execPortSwitch, if_true]

/-- An ejection port switches as `State.switchEj` says (R161). -/
theorem portSwitch_eject_does (t k q i : Nat) : Does t (.portSwitch t k q i false) (fun _ => True) fun s => s.switchEj k q i := by
  intro s _
  show execPortSwitch t k q i false s = _
  simp only [execPortSwitch, Bool.false_eq_true, if_false]

/-- The oldest element of an injection port leaves with the credits it costs, for the FIFO of every ejection port that the switch words give it
(R127, R134, R135). -/
theorem routeElementSend_data_does (t k q i : Nat) (e : Elem) (rest : List Elem) : Does t (.routeElementSend t k q i)
    (fun s => ((s.site k).inPort q i).outq = e :: rest ∧ e.eve = false ∧ ((s.site k).inPort q i).route.isSome = true ∧
      elemCost q e ≤ ((s.site k).inPort q i).credit) fun s =>
    ((s.fabricWalk q ((s.site k).inPort q i).epoch 128 k (5 + i)).filter fun o => decide (4 ≤ o.2 % 16)).foldl (fun s d =>
        s.modSite d.1 fun x => x.modEj q (d.2 % 16 - 4) fun r => { r with fifo := r.fifo ++ [e] })
      (s.modSite k fun x => x.modIn q i fun p => { p with outq := rest, credit := p.credit - elemCost q e }) := by
  rintro s ⟨hfront, hdata, hroute, hcredit⟩
  show execRouteElementSend t k q i s = _
  simp only [execRouteElementSend, hfront, hdata, hroute, hcredit, Bool.not_false, Bool.true_or, Bool.false_eq_true, and_self, if_true, if_false]

/-- An Eve token leaves once every output on its way holds its shadow, and switches each of them (R161, log 21). -/
theorem routeElementSend_eve_does (t k q i : Nat) (e : Elem) (rest : List Elem) : Does t (.routeElementSend t k q i)
    (fun s => ((s.site k).inPort q i).outq = e :: rest ∧ e.eve = true ∧ ((s.site k).inPort q i).route.isSome = true ∧
      elemCost q e ≤ ((s.site k).inPort q i).credit ∧
      (∀ o ∈ s.fabricWalk q ((s.site k).inPort q i).epoch 128 k (5 + i), ((s.site o.1).unit o.2).valid = true)) fun s =>
    let outs := s.fabricWalk q ((s.site k).inPort q i).epoch 128 k (5 + i)
    ((outs.filter fun o => decide (4 ≤ o.2 % 16)).foldl (fun s d =>
        s.modSite d.1 fun x => x.modEj q (d.2 % 16 - 4) fun r => { r with fifo := r.fifo ++ [e] })
      (s.modSite k fun x => x.modIn q i fun p => { p with outq := rest, credit := p.credit - elemCost q e })).evePassed outs
        (BitVec.ofNat 16 (e.data.toNat % 65536)) := by
  rintro s ⟨hfront, heve, hroute, hcredit, hshadows⟩
  show execRouteElementSend t k q i s = _
  simp only [execRouteElementSend, hfront, heve, hroute, hcredit, List.all_eq_true.mpr hshadows, Bool.or_true, and_self, if_true]

/-- A credit is due at a port of a route of which every branch owes one: the guard of `execCreditReturn` (R135, R136). -/
theorem credit_due {s : State} {k q i : Nat} (hroute : ((s.site k).inPort q i).route.isSome = true) (hdests : ((s.site k).inPort q i).dests ≠ [])
    (howed : ∀ d ∈ ((s.site k).inPort q i).dests, 1 ≤ ((s.site d.1).ejPort q d.2).owed) :
    ((s.site k).inPort q i).route.isSome = true ∧ ¬ ((s.site k).inPort q i).dests.isEmpty = true ∧
      (((s.site k).inPort q i).dests.all fun d => decide (1 ≤ ((s.site d.1).ejPort q d.2).owed)) = true :=
  ⟨hroute, mt List.isEmpty_iff.mp hdests, List.all_eq_true.mpr fun d hd => decide_eq_true (howed d hd)⟩

/-- A credit that every branch has returned comes back to the counter of the port (R135). -/
theorem creditReturn_returns_does (t k q i : Nat) : Does t (.creditReturn t k q i)
    (fun s => ((s.site k).inPort q i).route.isSome = true ∧ ((s.site k).inPort q i).dests ≠ [] ∧
      (∀ d ∈ ((s.site k).inPort q i).dests, 1 ≤ ((s.site d.1).ejPort q d.2).owed) ∧
      ((s.site k).inPort q i).credit + 1 ≤ ((s.site k).inPort q i).cap) fun s =>
    (((s.site k).inPort q i).dests.foldl (fun s d => s.modSite d.1 fun x => x.modEj q d.2 fun r => { r with owed := r.owed - 1 }) s).modSite k
      fun x => x.modIn q i fun p => { p with credit := p.credit + 1 } := by
  rintro s ⟨hroute, hdests, howed, hfits⟩
  show execCreditReturn t k q i s = _
  simp only [execCreditReturn, if_pos (credit_due hroute hdests howed), if_neg (Nat.not_lt.mpr hfits)]

/-- A credit past the `CREDITS` of the route is a `CREDIT_OVERRUN` (R136). -/
theorem creditReturn_overrun_does (t k q i : Nat) : Does t (.creditReturn t k q i)
    (fun s => ((s.site k).inPort q i).route.isSome = true ∧ ((s.site k).inPort q i).dests ≠ [] ∧
      (∀ d ∈ ((s.site k).inPort q i).dests, 1 ≤ ((s.site d.1).ejPort q d.2).owed) ∧
      ((s.site k).inPort q i).cap < ((s.site k).inPort q i).credit + 1) fun s =>
    (((s.site k).inPort q i).dests.foldl (fun s d => s.modSite d.1 fun x => x.modEj q d.2 fun r => { r with owed := r.owed - 1 }) s).configFault
      k (portUnit q) 3 0x0203 := by
  rintro s ⟨hroute, hdests, howed, hover⟩
  show execCreditReturn t k q i s = _
  simp only [execCreditReturn, if_pos (credit_due hroute hdests howed), if_pos hover]

/-! ## Shadows and units (R157, R158, R160) -/

/-- The loader of a site loads its shadows as `State.loadShadow` says (R157, R158). -/
theorem shadowLoad_does (t k : Nat) : Does t (.shadowLoad t k) (fun _ => True) fun s => s.loadShadow k := fun _ _ => rfl

/-- A unit that has come to the end of its phase gives the Eve tokens it owes and switches (R160). -/
theorem unitSwitch_switches_does (t k u : Nat) : Does t (.unitSwitch t k u)
    (fun s => switchUnits.contains u = true ∧ (s.eveOwed k u).canSwitch k u = true) fun s => (s.eveOwed k u).unitSwitch k u := by
  rintro s ⟨hunit, hcan⟩
  show execUnitSwitch t k u s = _
  simp only [execUnitSwitch, if_pos hunit, if_pos hcan]

/-- A unit that cannot switch yet gives the Eve tokens it owes (R160). -/
theorem unitSwitch_waits_does (t k u : Nat) : Does t (.unitSwitch t k u)
    (fun s => switchUnits.contains u = true ∧ (s.eveOwed k u).canSwitch k u = false) fun s => s.eveOwed k u := by
  rintro s ⟨hunit, hcannot⟩
  show execUnitSwitch t k u s = _
  simp only [execUnitSwitch, if_pos hunit, hcannot, Bool.false_eq_true, if_false]

/-! ## Eve tokens at a unit's inputs (R162, R163) -/

/-- A unit that works may look at the heads of its inputs: the guard of `execEveTokenHead` does not stop it. -/
theorem eveTokenHead_looks {s : State} {k u : Nat} (hunit : switchUnits.contains u = true) (hworks : s.siteWorks k u = true) :
    ¬ (¬ switchUnits.contains u = true ∨ ¬ s.siteWorks k u = true) := by
  rw [hunit, hworks]
  decide

/-- A second Eve token of the current epoch is removed and counted (R162). -/
theorem eveTokenHead_duplicate_does (t k u : Nat) (h : InRef × Elem) (s1 : State) : Does t (.eveTokenHead t k u)
    (fun s => switchUnits.contains u = true ∧ s.siteWorks k u = true ∧
      ((s.site k).headsOf u).find? (fun h => h.2.eve && !(isEve h.2 (((s.site k).unit u).epoch + 1))) = some h ∧
      isEve h.2 ((s.site k).unit u).epoch = true ∧ (s.takeIn k h.1).map (·.2) = some s1) fun _ =>
    s1.modSite k fun x => { x with dupEve := satAdd 255 x.dupEve 1 } := by
  rintro s ⟨hunit, hworks, hfirst, hcurrent, htake⟩
  obtain ⟨⟨e, s2⟩, htaken, rfl⟩ := Option.map_eq_some_iff.mp htake
  show execEveTokenHead t k u s = _
  simp only [execEveTokenHead, if_neg (eveTokenHead_looks hunit hworks), hfirst, if_pos hcurrent, htaken]

/-- An Eve token of neither the current epoch nor the next is an `EPOCH_FAULT` (R162). -/
theorem eveTokenHead_outOfTurn_does (t k u : Nat) (h : InRef × Elem) : Does t (.eveTokenHead t k u)
    (fun s => switchUnits.contains u = true ∧ s.siteWorks k u = true ∧
      ((s.site k).headsOf u).find? (fun h => h.2.eve && !(isEve h.2 (((s.site k).unit u).epoch + 1))) = some h ∧
      isEve h.2 ((s.site k).unit u).epoch = false) fun s => s.configFault k u 1 0x0201 := by
  rintro s ⟨hunit, hworks, hfirst, hother⟩
  show execEveTokenHead t k u s = _
  simp only [execEveTokenHead, if_neg (eveTokenHead_looks hunit hworks), hfirst, hother, Bool.false_eq_true, if_false]

/-- A unit is stranded where an input that it needs has come to its Eve token while another still holds data (R163). -/
theorem stranded_of_heads {x : Site} {u : Nat} {heads : List (InRef × Elem)} (heve : ∃ h ∈ heads, h.2.eve = true ∧ x.needsNext u h.1 = true)
    (hdata : ∃ h ∈ heads, h.2.eve = false) :
    ((heads.filter fun h => h.2.eve).any fun h => x.needsNext u h.1) = true ∧ ¬ (heads.filter fun h => !h.2.eve).isEmpty = true := by
  obtain ⟨h, hmem, htoken, hneeds⟩ := heve
  obtain ⟨d, dmem, helem⟩ := hdata
  refine ⟨List.any_eq_true.mpr ⟨h, List.mem_filter.mpr ⟨hmem, htoken⟩, hneeds⟩, fun hempty => ?_⟩
  have hd : d ∈ heads.filter fun h => !h.2.eve := List.mem_filter.mpr ⟨dmem, by rw [helem]; rfl⟩
  rw [List.isEmpty_iff.mp hempty] at hd
  cases hd

/-- A stranded unit is an `EPOCH_RESIDUE`, unless it is a steering unit that drains (R163). -/
theorem eveTokenHead_residue_does (t k u : Nat) : Does t (.eveTokenHead t k u)
    (fun s => switchUnits.contains u = true ∧ s.siteWorks k u = true ∧
      ((s.site k).headsOf u).find? (fun h => h.2.eve && !(isEve h.2 (((s.site k).unit u).epoch + 1))) = none ∧
      (∃ h ∈ (s.site k).headsOf u, h.2.eve = true ∧ (s.site k).needsNext u h.1 = true) ∧ (∃ h ∈ (s.site k).headsOf u, h.2.eve = false) ∧
      ¬ (0x040 ≤ u ∧ u ≤ 0x047 ∧ (s.site k).cfg u 7 1 = 1)) fun s => s.configFault k u 2 0x0202 := by
  rintro s ⟨hunit, hworks, hinturn, heve, hdata, hkeeps⟩
  show execEveTokenHead t k u s = _
  simp only [execEveTokenHead, if_neg (eveTokenHead_looks hunit hworks), hinturn, if_pos (stranded_of_heads heve hdata), if_neg hkeeps]

/-- A stranded steering unit that drains discards the data ahead of the Eve tokens, and may then switch (R163). -/
theorem eveTokenHead_drains_does (t k u : Nat) : Does t (.eveTokenHead t k u)
    (fun s => switchUnits.contains u = true ∧ s.siteWorks k u = true ∧
      ((s.site k).headsOf u).find? (fun h => h.2.eve && !(isEve h.2 (((s.site k).unit u).epoch + 1))) = none ∧
      (∃ h ∈ (s.site k).headsOf u, h.2.eve = true ∧ (s.site k).needsNext u h.1 = true) ∧ (∃ h ∈ (s.site k).headsOf u, h.2.eve = false) ∧
      (0x040 ≤ u ∧ u ≤ 0x047 ∧ (s.site k).cfg u 7 1 = 1)) fun s =>
    let s1 := ((((s.site k).headsOf u).filter fun h => !h.2.eve).foldl (fun s h => s.drainIn k h.1) s).eveOwed k u
    if s1.canSwitch k u = true then s1.unitSwitch k u else s1 := by
  rintro s ⟨hunit, hworks, hinturn, heve, hdata, hdrains⟩
  show execEveTokenHead t k u s = _
  simp only [execEveTokenHead, if_neg (eveTokenHead_looks hunit hworks), hinturn, if_pos (stranded_of_heads heve hdata), if_pos hdrains]

/-- Settles O26: each row of the fabric has its effect, one lemma per row and branch. -/
theorem fabricRowsAct : Obligations.FabricRowsAct := by
  unfold Obligations.FabricRowsAct
  exact ⟨portSwitch_inject_does, portSwitch_eject_does, routeElementSend_data_does, routeElementSend_eve_does, creditReturn_returns_does,
    creditReturn_overrun_does, shadowLoad_does, unitSwitch_switches_does, unitSwitch_waits_does, eveTokenHead_duplicate_does,
    eveTokenHead_outOfTurn_does, eveTokenHead_residue_does, eveTokenHead_drains_does⟩

end Sys2Proof.Machine
end

section
/-! PROOFS. What error records and slice reads leave of a sequencer: its contexts and registers (05 R172; 06 R201; 10 R322 to R326). -/

namespace Sys2Proof.Machine

theorem State.Signalled.sites {s s' : State} (h : s.Signalled s') : s'.sites = s.sites := by
  obtain ⟨_, _, _, _, rfl⟩ := h
  rfl

/-! ## The collector touches no site (R325, R326) -/

theorem errAppend_sites (s : State) (r : ErrRec) : (s.errAppend r).sites = s.sites :=
  ite_keeps State.sites (event_signalled _ 0x0104 0xFF _).sites rfl

theorem errEmit_sites (n : Nat) : ∀ s : State, (State.errEmit n s).sites = s.sites := by
  induction n with
  | zero => exact fun _ => rfl
  | succ n ih =>
    intro s
    unfold State.errEmit
    split
    · rfl
    · exact ite_keeps State.sites ((ih _).trans (errAppend_sites _ _)) rfl

theorem errLose_sites (s : State) : s.errLose.sites = s.sites := (ovfIf_signalled _ _ 0x20000000 0).sites

theorem collect_sites (s : State) (r : ErrRec) : (s.collect r).sites = s.sites :=
  ite_keeps State.sites (ite_keeps State.sites rfl (ite_keeps State.sites rfl (errLose_sites s)))
    (ite_keeps State.sites (errAppend_sites s r) (errLose_sites s))

/-! ## Records and slice reads keep every sequencer (R172, R322, R325) -/

/-- The sequencer of a site. -/
def State.seqAt (k : Nat) (s : State) : SeqSt := (s.site k).seq

theorem seqAt_of_sites {s s' : State} (k : Nat) (h : s'.sites = s.sites) : s'.seqAt k = s.seqAt k := by
  simp only [State.seqAt, State.site, h]

/-- A change of a site that keeps its sequencer keeps every sequencer. -/
theorem modSite_seqAt (k : Nat) (s : State) (k' : Nat) {f : Site → Site} (hf : ∀ x, (f x).seq = x.seq) : (s.modSite k' f).seqAt k = s.seqAt k := by
  by_cases hk : k = k'
  · subst hk
    rw [State.seqAt, modSite_same, hf, State.seqAt]
  · rw [State.seqAt, modSite_other s hk, State.seqAt]

theorem errArrive_seqAt (k : Nat) (s : State) (r : ErrRec) : (s.errArrive r).seqAt k = s.seqAt k := by
  unfold State.errArrive
  extract_lets s1 s2
  have hcollected : s2.sites = s.sites := ite_keeps State.sites ((errEmit_sites _ s1).trans (collect_sites s r)) (collect_sites s r)
  have hkept := seqAt_of_sites k hcollected
  clear_value s2
  refine ite_keeps (State.seqAt k) ?_ hkept
  split
  · exact Eq.trans (modSite_seqAt k s2 _ fun _ => rfl) hkept
  · exact hkept

theorem reportOp_seqAt (k : Nat) (s : State) (cls kind part unit op : Nat) (detail : List (Nat × Nat)) :
    (s.reportOp cls kind part unit op detail).seqAt k = s.seqAt k := by
  have hvolt : (s.voltOf kind).2.sites = s.sites := by
    unfold State.voltOf
    split <;> rfl
  unfold State.reportOp
  rw [errArrive_seqAt, seqAt_of_sites k hvolt]

theorem reportSite_seqAt (k : Nat) (s : State) (cls k' op : Nat) (detail : List (Nat × Nat)) :
    (s.reportSite cls k' op detail).seqAt k = s.seqAt k := reportOp_seqAt k s cls 1 _ _ op detail

theorem planFence_seqAt (k : Nat) (s : State) (k' cls : Nat) : (s.planFence k' cls).seqAt k = s.seqAt k :=
  modSite_seqAt k s k' fun x => by split <;> rfl

theorem clearErr_seqAt (k : Nat) (s : State) (k' e : Nat) : (s.clearErr k' e).seqAt k = s.seqAt k := modSite_seqAt k s k' fun _ => rfl

theorem sliceCe_seqAt (k : Nat) (s : State) (k' : Nat) : (s.sliceCe k').seqAt k = s.seqAt k := by
  unfold State.sliceCe
  extract_lets s1
  have hrecorded : s1.seqAt k = s.seqAt k := (reportSite_seqAt k _ 0x0102 k' 0xFFFF []).trans (modSite_seqAt k s k' fun _ => rfl)
  clear_value s1
  exact ite_keeps (State.seqAt k) ((planFence_seqAt k s1 k' 0x0102).trans hrecorded) hrecorded

theorem sliceUe_seqAt (k : Nat) (s : State) (k' : Nat) (consumed : Bool) : (s.sliceUe k' consumed).seqAt k = s.seqAt k := by
  unfold State.sliceUe
  extract_lets s1
  have hrecorded : s1.seqAt k = s.seqAt k := (reportSite_seqAt k _ 0x0103 k' 0xFFFF []).trans (modSite_seqAt k s k' fun _ => rfl)
  clear_value s1
  exact ite_keeps (State.seqAt k) ((seqAt_of_sites k rfl).trans hrecorded) hrecorded

/-- A read of slice entries, with the errors that it meets, keeps every sequencer. -/
theorem bankRead_seqAt (k : Nat) (s : State) (k' : Nat) (hit : Nat → Bool) (consumed : Bool) :
    (s.bankRead k' hit consumed).seqAt k = s.seqAt k := by
  refine foldl_keeps (State.seqAt k) (fun x e => ?_) _ s
  have hcleared := clearErr_seqAt k x k' e.1
  split
  · split
    · rw [sliceCe_seqAt, hcleared]
    · rw [sliceUe_seqAt, hcleared]
  · rfl

/-- A read by the sequencer keeps its contexts and registers (R172, R200). -/
@[simp] theorem seqRead_seq (s : State) (k a n : Nat) : ((s.seqRead k a n).site k).seq = (s.site k).seq := bankRead_seqAt k s k _ true

/-- The fetch of an instruction keeps the contexts and registers of its sequencer (R172, R201). -/
@[simp] theorem fetched_seq (s : State) (k : Nat) : ((s.fetched k).site k).seq = (s.site k).seq := seqRead_seq s k _ _

/-- An instruction has the operands after its fetch that it had before. -/
theorem xArgs_fetched (s : State) (k w : Nat) : ((s.fetched k).site k).xArgs w = (s.site k).xArgs w := by
  simp only [Site.xArgs, fetched_seq]

end Sys2Proof.Machine
end

section
/-! PROOFS. How the row of an Xmln instruction runs (06 R201, R206, R247): what its attempt comes to decides the next state. -/

namespace Sys2Proof.Machine

/-- The row of an instruction at which its sequencer stands carries its attempt out, in the state that the fetch has reached (R206). -/
theorem xRow_ready {op : XOp} {s : State} {k w : Nat} (h : XReady op s k w) (f : State → Nat → XArgs → XRes) :
    s.xRow k op f = (s.fetched k).xApply k w (s.xIn k w).ue (f (s.fetched k) k (s.xIn k w).x) := by
  obtain ⟨len, hword⟩ := h.word
  have hruns : ¬ (¬ s.seqRuns k = true ∨ (s.site k).seq.bank.wait.isSome = true) := by
    rw [h.runs, h.free]
    decide
  simp only [State.xRow, if_neg hruns, hword, h.is, if_true, State.xIn]

/-- The row of an Xmln instruction has an effect where its attempt, carried out, has it. -/
theorem xdoes_of {t k : Nat} {op : XOp} {i : Instr} {f : State → Nat → XArgs → XRes} {cond : State → XIn → Prop} {effect : State → XIn → State}
    (hi : ∀ s, exec i s = .next ((s.adv t).xRow k op f))
    (h : ∀ s c, c.x = (s.site k).xArgs c.w → cond s c → s.xApply k c.w c.ue (f s k c.x) = effect s c) : XDoes t k op i cond effect := by
  intro s w hready hcond
  rw [hi, xRow_ready hready, ← h _ _ (xArgs_fetched _ k w).symm hcond]
  rfl

section
variable {t k : Nat} {op : XOp} {i : Instr} {f : State → Nat → XArgs → XRes} {cond : State → XIn → Prop}
  (hi : ∀ s, exec i s = .next ((s.adv t).xRow k op f))
include hi

/-- An attempt that is done retires its instruction. -/
theorem xdoes_done {v : State → XIn → BitVec 32} {s1 : State → XIn → State} (h : ∀ s c, cond s c → f s k c.x = .done (v s c) (s1 s c)) :
    XDoes t k op i cond fun s c => s.xRetire k c (v s c) (s1 s c) :=
  xdoes_of hi fun s c _ hcond => by rw [h s c hcond]; rfl

/-- An attempt whose event has not come begins the wait of its instruction (R247). -/
theorem xdoes_block {kind : State → XIn → WaitKind} {arg : State → XIn → Nat} (hfree : ∀ s c, cond s c → (s.site k).seq.bank.wait = none)
    (h : ∀ s c, cond s c → f s k c.x = .block (kind s c) (arg s c)) : XDoes t k op i cond fun s c => s.xWait k c (kind s c) (arg s c) :=
  xdoes_of hi fun s c hx hcond => by
    rw [h s c hcond, State.xWait, hx]
    simp only [State.xApply, hfree s c hcond, Option.isSome_none, Bool.false_eq_true, if_false]

/-- An illegal attempt traps (R201). -/
theorem xdoes_illegal (h : ∀ s c, cond s c → f s k c.x = .illegal) : XDoes t k op i cond fun s c => s.xIllegal k c :=
  xdoes_of hi fun s c _ hcond => by rw [h s c hcond]; rfl

/-- An attempt that may not have its address traps with its cause (R201). -/
theorem xdoes_trap {cause : Nat} {v : State → XIn → BitVec 32} (h : ∀ s c, cond s c → f s k c.x = .trap cause (v s c)) :
    XDoes t k op i cond fun s c => s.seqTrap k cause (v s c) c.ue :=
  xdoes_of hi fun s c _ hcond => by rw [h s c hcond]; rfl

end

end Sys2Proof.Machine
end

section
/-! PROOFS. The instructions of fabric ports (04 R128, R135; 06 R200, R201, R207, R209, R210): `PUT` and `GET` on the three planes, and `X.EPHASE`. -/

namespace Sys2Proof.Machine

/-! ## `PUT` -/

/-- A put on a port bound to the sequencer, with credit, injects its element (R128, R209). -/
theorem xPut_done {s : State} {k q i : Nat} {e : Elem} (hbound : (s.site k).inCode ((s.site k).unit seqUnit).epoch q i = 8)
    (hroom : (s.site k).room seqUnit (.inj q i) 1 = true) (hdata : e.eve = false) :
    s.xPut k q i e = .done 0 (s.modSite k fun x => x.emit (.inj q i) e) := by
  have hcost : elemCost q e = 1 := by
    rw [elemCost, hdata, if_neg (by simp)]
  simp only [State.xPut, hcost, hbound, hroom, and_self, if_true]

/-- `X.PUTW` puts the register (R209). -/
theorem xPutw_does (t k : Nat) : XDoes t k .putw (.xPutw t k)
    (fun s c => (s.site k).inCode ((s.site k).unit seqUnit).epoch 1 (bitsN c.x.a.toNat 0 2) = 8 ∧
      (s.site k).room seqUnit (.inj 1 (bitsN c.x.a.toNat 0 2)) 1 = true) fun s c =>
    s.xRetire k c 0 (s.modSite k fun x => x.emit (.inj 1 (bitsN c.x.a.toNat 0 2)) { data := c.x.b.setWidth 512 }) := by
  refine xdoes_done (fun _ => rfl) ?_
  rintro s c ⟨hbound, hroom⟩
  exact xPut_done hbound hroom rfl

/-- `X.PUTT` puts the low 4 bits of the register (R209). -/
theorem xPutt_does (t k : Nat) : XDoes t k .putt (.xPutt t k)
    (fun s c => bitsN c.x.b.toNat 0 4 ≠ 0xF ∧ (s.site k).inCode ((s.site k).unit seqUnit).epoch 2 (bitsN c.x.a.toNat 0 2) = 8 ∧
      (s.site k).room seqUnit (.inj 2 (bitsN c.x.a.toNat 0 2)) 1 = true) fun s c =>
    s.xRetire k c 0 (s.modSite k fun x => x.emit (.inj 2 (bitsN c.x.a.toNat 0 2)) { data := BitVec.ofNat 512 (bitsN c.x.b.toNat 0 4) }) := by
  refine xdoes_done (fun _ => rfl) ?_
  rintro s c ⟨htag, hbound, hroom⟩
  rw [xPutt, if_neg htag, xPut_done hbound hroom rfl]

/-- `X.PUTT` of tag 0xF is illegal (R209). -/
theorem xPutt_illegal_does (t k : Nat) : XDoes t k .putt (.xPutt t k) (fun _ c => bitsN c.x.b.toNat 0 4 = 0xF) fun s c => s.xIllegal k c := by
  refine xdoes_illegal (fun _ => rfl) ?_
  intro s c htag
  rw [xPutt, if_pos htag]

/-- `X.PUTV` puts the 64 bytes at the register (R209). -/
theorem xPutv_does (t k : Nat) : XDoes t k .putv (.xPutv t k)
    (fun s c =>
      let y := (s.seqRead k c.x.b.toNat 64).site k
      c.x.b.toNat % 64 = 0 ∧ (s.site k).mayLoad c.x.b.toNat 64 = true ∧ y.inCode (y.unit seqUnit).epoch 0 (bitsN c.x.a.toNat 0 2) = 8 ∧
        y.room seqUnit (.inj 0 (bitsN c.x.a.toNat 0 2)) 1 = true) fun s c =>
    s.xRetire k c 0 ((s.seqRead k c.x.b.toNat 64).modSite k fun x => x.emit (.inj 0 (bitsN c.x.a.toNat 0 2))
      { data := BitVec.ofNat 512 (ofLe ((s.site k).seqBytes c.x.b.toNat 64)) }) := by
  refine xdoes_done (fun _ => rfl) ?_
  rintro s c ⟨haligned, hload, hbound, hroom⟩
  rw [xPutv, if_neg (not_not_intro haligned), if_pos hload, xPut_done hbound hroom rfl]

/-- A misaligned `X.PUTV` traps with 4 (R201). -/
theorem xPutv_misaligned_does (t k : Nat) : XDoes t k .putv (.xPutv t k) (fun _ c => c.x.b.toNat % 64 ≠ 0) fun s c =>
    s.seqTrap k 4 c.x.b c.ue := by
  refine xdoes_trap (fun _ => rfl) ?_
  intro s c hmisaligned
  rw [xPutv, if_pos hmisaligned]

/-- `X.PUTV` from an address that the context may not load from traps with 5 (R200, R201). -/
theorem xPutv_refused_does (t k : Nat) : XDoes t k .putv (.xPutv t k)
    (fun s c => c.x.b.toNat % 64 = 0 ∧ (s.site k).mayLoad c.x.b.toNat 64 = false) fun s c => s.seqTrap k 5 c.x.b c.ue := by
  refine xdoes_trap (fun _ => rfl) ?_
  rintro s c ⟨haligned, hload⟩
  rw [xPutv, if_neg (not_not_intro haligned), if_neg (Bool.eq_false_iff.mp hload)]

/-! ## `GET` -/

section
variable {s : State} {k q j : Nat} {e : Elem} {s1 : State} {f : Elem → State → XRes}

/-- A get from a port bound to the sequencer uses the data element at its head (R128, R209). -/
theorem xGet_data (hbound : (s.site k).ejCode ((s.site k).unit seqUnit).epoch q j = 7) (howns : (s.site k).ownsIn seqUnit (.ej q j) = true)
    (htake : s.takeEj k q j = some (e, s1)) (hdata : e.eve = false) : s.xGet k q j f = f e s1 := by
  simp only [State.xGet, hbound, howns, htake, hdata, ne_eq, not_true_eq_false, or_self, Bool.false_eq_true, if_false]

/-- A get leaves the Eve token at the head of a port, and shows it (R210). -/
theorem xGet_eve (hbound : (s.site k).ejCode ((s.site k).unit seqUnit).epoch q j = 7) (howns : (s.site k).ownsIn seqUnit (.ej q j) = true)
    (htake : s.takeEj k q j = some (e, s1)) (heve : e.eve = true) :
    s.xGet k q j f = .done 0 (s.modSeq k fun q => { q with eveHead := true }) := by
  simp only [State.xGet, hbound, howns, htake, heve, ne_eq, not_true_eq_false, or_self, if_true, if_false]

/-- A get from an empty port waits (R209). -/
theorem xGet_empty (hempty : s.takeEj k q j = none) : s.xGet k q j f = .block .getw j := by
  simp only [State.xGet, hempty, ite_self]

end

/-- `X.GETW` takes an element to its register (R209). -/
theorem xGetw_does (t k : Nat) (e : Elem) (s1 : State) : XDoes t k .getw (.xGetw t k)
    (fun s c => (s.site k).ejCode ((s.site k).unit seqUnit).epoch 1 (bitsN c.x.a.toNat 0 3) = 7 ∧
      (s.site k).ownsIn seqUnit (.ej 1 (bitsN c.x.a.toNat 0 3)) = true ∧ s.takeEj k 1 (bitsN c.x.a.toNat 0 3) = some (e, s1) ∧ e.eve = false)
    fun s c => s.xRetire k c (e.data.setWidth 32) s1 := by
  refine xdoes_done (fun _ => rfl) ?_
  rintro s c ⟨hbound, howns, htake, hdata⟩
  exact xGet_data hbound howns htake hdata

/-- `X.GETW` from an empty port waits (R209). -/
theorem xGetw_waits_does (t k : Nat) : XDoes t k .getw (.xGetw t k)
    (fun s c => s.takeEj k 1 (bitsN c.x.a.toNat 0 3) = none ∧ (s.site k).seq.bank.wait = none) fun s c =>
    s.xWait k c .getw (bitsN c.x.a.toNat 0 3) :=
  xdoes_block (fun _ => rfl) (fun _ _ hcond => hcond.2) fun _ _ hcond => xGet_empty hcond.1

/-- `X.GETW` answers 0 at an Eve token and leaves it where it stands (R210). -/
theorem xGetw_eve_does (t k : Nat) (e : Elem) (s1 : State) : XDoes t k .getw (.xGetw t k)
    (fun s c => (s.site k).ejCode ((s.site k).unit seqUnit).epoch 1 (bitsN c.x.a.toNat 0 3) = 7 ∧
      (s.site k).ownsIn seqUnit (.ej 1 (bitsN c.x.a.toNat 0 3)) = true ∧ s.takeEj k 1 (bitsN c.x.a.toNat 0 3) = some (e, s1) ∧ e.eve = true)
    fun s c => s.xRetire k c 0 (s.modSeq k fun q => { q with eveHead := true }) := by
  refine xdoes_done (fun _ => rfl) ?_
  rintro s c ⟨hbound, howns, htake, heve⟩
  exact xGet_eve hbound howns htake heve

/-- `X.GETT` takes a tag to its register (R209). -/
theorem xGett_does (t k : Nat) (e : Elem) (s1 : State) : XDoes t k .gett (.xGett t k)
    (fun s c => (s.site k).ejCode ((s.site k).unit seqUnit).epoch 2 (bitsN c.x.a.toNat 0 3) = 7 ∧
      (s.site k).ownsIn seqUnit (.ej 2 (bitsN c.x.a.toNat 0 3)) = true ∧ s.takeEj k 2 (bitsN c.x.a.toNat 0 3) = some (e, s1) ∧ e.eve = false)
    fun s c => s.xRetire k c (BitVec.ofNat 32 (bitsN e.data.toNat 0 4)) s1 := by
  refine xdoes_done (fun _ => rfl) ?_
  rintro s c ⟨hbound, howns, htake, hdata⟩
  exact xGet_data hbound howns htake hdata

/-- `X.GETV` stores the 64 bytes of an element at the register (R209). -/
theorem xGetv_does (t k : Nat) (e : Elem) (s1 : State) : XDoes t k .getv (.xGetv t k)
    (fun s c => c.x.b.toNat % 64 = 0 ∧ (s.site k).mayStore c.x.b.toNat 64 = true ∧
      (s.site k).ejCode ((s.site k).unit seqUnit).epoch 0 (bitsN c.x.a.toNat 0 3) = 7 ∧
      (s.site k).ownsIn seqUnit (.ej 0 (bitsN c.x.a.toNat 0 3)) = true ∧ s.takeEj k 0 (bitsN c.x.a.toNat 0 3) = some (e, s1) ∧ e.eve = false)
    fun s c => s.xRetire k c 0 (s1.seqStore k c.x.b.toNat (leBytes 64 e.data.toNat)) := by
  refine xdoes_done (fun _ => rfl) ?_
  rintro s c ⟨haligned, hstore, hbound, howns, htake, hdata⟩
  rw [xGetv, if_neg (not_not_intro haligned), if_pos hstore, xGet_data hbound howns htake hdata]

/-- A misaligned `X.GETV` traps with 6 (R201). -/
theorem xGetv_misaligned_does (t k : Nat) : XDoes t k .getv (.xGetv t k) (fun _ c => c.x.b.toNat % 64 ≠ 0) fun s c =>
    s.seqTrap k 6 c.x.b c.ue := by
  refine xdoes_trap (fun _ => rfl) ?_
  intro s c hmisaligned
  rw [xGetv, if_pos hmisaligned]

/-- `X.GETV` to an address that the context may not store to traps with 7 (R200, R201). -/
theorem xGetv_refused_does (t k : Nat) : XDoes t k .getv (.xGetv t k)
    (fun s c => c.x.b.toNat % 64 = 0 ∧ (s.site k).mayStore c.x.b.toNat 64 = false) fun s c => s.seqTrap k 7 c.x.b c.ue := by
  refine xdoes_trap (fun _ => rfl) ?_
  rintro s c ⟨haligned, hstore⟩
  rw [xGetv, if_neg (not_not_intro haligned), if_neg (Bool.eq_false_iff.mp hstore)]

/-! ## `X.EPHASE` (R207) -/

/-- `X.EPHASE` of the main program puts the Eve tokens of the next epoch once every bound port has room, and waits for the switch (R207). -/
theorem xEphase_does (t k : Nat) : XDoes t k .ephase (.xEphase t k)
    (fun s c => c.x.ctx = 0 ∧ (s.site k).seq.ephase = false ∧
      (∀ o ∈ (s.site k).outputs seqUnit, (s.site k).room seqUnit o (eveCost o) = true)) fun s _ =>
    ((s.modSite k fun y =>
      let z := y.emitAll (y.outputs seqUnit) (eveTok ((y.unit seqUnit).epoch + 1))
      { z with seq := { z.seq with ephase := true } }).beginWait k .ephase 0 0 0).modSeq k fun q =>
        { q with minstret := q.minstret + 1, fast := false } := by
  refine xdoes_of (fun _ => rfl) ?_
  rintro s c - ⟨hmain, hfirst, hroom⟩
  simp only [xEphase, hmain, hfirst, List.all_eq_true.mpr hroom, ne_eq, not_true_eq_false, Bool.false_eq_true, if_true, if_false, State.xApply]

/-- `X.EPHASE` in a handler is illegal (R207). -/
theorem xEphase_illegal_does (t k : Nat) : XDoes t k .ephase (.xEphase t k) (fun _ c => c.x.ctx ≠ 0) fun s c => s.xIllegal k c := by
  refine xdoes_illegal (fun _ => rfl) ?_
  intro s c hhandler
  rw [xEphase, if_pos hhandler]

/-- Settles O33: each instruction has its effect, one lemma per instruction and branch. -/
theorem portRowsAct : Obligations.PortRowsAct := by
  unfold Obligations.PortRowsAct
  exact ⟨xPutw_does, xPutt_does, xPutt_illegal_does, xPutv_does, xPutv_misaligned_does, xPutv_refused_does, xGetw_does, xGetw_waits_does,
    xGetw_eve_does, xGett_does, xGetv_does, xGetv_misaligned_does, xGetv_refused_does, xEphase_does, xEphase_illegal_does⟩

end Sys2Proof.Machine
end

section
/-! PROOFS. The two units of control (04 R139, R140, R143, R144): a counter advances in each mode, and a steering unit fires, drops or faults. -/

namespace Sys2Proof.Machine

/-! ## Counters (R139, R140) -/

/-- The state in which a counter has what its mode waits for, none before: the local `input` of `execCounterAdvance` (R139). -/
def State.counterInput (s : State) (k n : Nat) : Option State :=
  let x := s.site k
  let u := 0x030 + n
  let mode := x.cfg u 96 3
  let ref := InRef.ej (if mode = 2 then 2 else 1) (x.cfg u 116 3)
  if mode = 1 then (if s.mayRun k u then some s else none)
  else if (mode = 2 ∨ mode = 3) ∧ x.ownsIn u ref then (match s.takeN k ref 1 with
    | some r => some r.2
    | none => none)
  else if mode = 4 ∧ 0 < (x.counter n).pend then some (s.modSite k fun x => x.modCounter n fun c => { c with pend := c.pend - 1 })
  else none

/-- A free counter has its input while its phase may run, one of a port with the head of the port, and a chained one with an advance of the counter
before it (R139, R140). -/
theorem counterInput_some {s s1 : State} {k n : Nat}
    (h : ((s.site k).cfg (0x030 + n) 96 3 = 1 ∧ s.mayRun k (0x030 + n) = true ∧ s1 = s) ∨
      (((s.site k).cfg (0x030 + n) 96 3 = 2 ∨ (s.site k).cfg (0x030 + n) 96 3 = 3) ∧
        (s.site k).ownsIn (0x030 + n) (.ej (if (s.site k).cfg (0x030 + n) 96 3 = 2 then 2 else 1) ((s.site k).cfg (0x030 + n) 116 3)) = true ∧
        ∃ es, s.takeN k (.ej (if (s.site k).cfg (0x030 + n) 96 3 = 2 then 2 else 1) ((s.site k).cfg (0x030 + n) 116 3)) 1 = some (es, s1)) ∨
      ((s.site k).cfg (0x030 + n) 96 3 = 4 ∧ 0 < ((s.site k).counter n).pend ∧
        s1 = s.modSite k fun x => x.modCounter n fun c => { c with pend := c.pend - 1 })) : s.counterInput k n = some s1 := by
  rcases h with ⟨hfree, hrun, rfl⟩ | ⟨hport, howns, es, htake⟩ | ⟨hchained, hpend, rfl⟩
  · simp only [State.counterInput, hfree, hrun, if_true]
  · have hnotfree : ¬ (s.site k).cfg (0x030 + n) 96 3 = 1 := by omega
    simp only [State.counterInput, if_neg hnotfree, if_pos (And.intro hport howns), htake]
  · simp only [State.counterInput, hchained, hpend, OfNat.ofNat_ne_one, Nat.reduceEqDiff, or_self, false_and, and_self, if_true,
      if_false]

/-- A counter with its input and with room for its token and its value takes its next value and puts both out; the last value of a pass raises its
signal and advances the counters chained to it, and after its final value the counter gives its Eve tokens (R139, R140). -/
theorem counterAdvance_does (t k n : Nat) (s1 : State) : Does t (.counterAdvance t k n)
    (fun s =>
      let x := s.site k
      let u := 0x030 + n
      let mode := x.cfg u 96 3
      let ref := InRef.ej (if mode = 2 then 2 else 1) (x.cfg u 116 3)
      n < 8 ∧ s.siteWorks k u = true ∧ (x.counter n).done = false ∧ x.chainsReady n = true ∧
        (∀ o ∈ x.counterTok n ++ x.counterVal n, x.room u o 1 = true) ∧
        ((mode = 1 ∧ s.mayRun k u = true ∧ s1 = s) ∨
          ((mode = 2 ∨ mode = 3) ∧ x.ownsIn u ref = true ∧ ∃ es, s.takeN k ref 1 = some (es, s1)) ∨
          (mode = 4 ∧ 0 < (x.counter n).pend ∧ s1 = s.modSite k fun x => x.modCounter n fun c => { c with pend := c.pend - 1 }))) fun s =>
    let x := s.site k
    let u := 0x030 + n
    let r := x.counterOut n
    let s2 := s1.modSite k fun y =>
      ((y.emitAll (x.counterTok n) { data := BitVec.ofNat 512 r.tag }).emitAll (x.counterVal n)
          { data := BitVec.ofNat 512 (wrapZ 32 r.value) }).modCounter n fun c =>
        { c with cur := r.next, passes := if r.last then c.passes + 1 else c.passes, done := r.final, started := true }
    let s3 := if r.last then
        (s2.modSite k fun y => (y.chainedTo n).foldl (fun y m => y.modCounter m fun c => { c with pend := c.pend + 1 }) y).raise k (56 + n) 1 u
      else s2
    if r.final then s3.eveOwed k u else s3 := by
  rintro s ⟨hn, hworks, hdone, hchains, hroom, hmode⟩
  have hinput := counterInput_some hmode
  show execCounterAdvance t k n s = _
  simp only [execCounterAdvance, hn, hworks, hdone, hchains, List.all_eq_true.mpr hroom, Bool.false_eq_true, not_false_eq_true, and_self, if_true]
  split
  next hnone => cases hnone.symm.trans hinput
  next s2 hsome => cases hsome.symm.trans hinput; rfl

/-! ## Steering units (R143, R144) -/

/-- A `SELECT` removes the head of the queue that its selector names and passes it (R143). -/
theorem steerFire_select_does (t k n : Nat) (c e : Elem) (s1 s2 : State) : Does t (.steerFire t k n)
    (fun s =>
      let x := s.site k
      let u := 0x040 + n
      n < 8 ∧ x.cfg u 0 3 = 1 ∧ s.siteWorks k u = true ∧ x.ownsIn u (.ej (if x.cfg u 5 1 = 1 then 1 else 2) (x.cfg u 9 3)) = true ∧
        x.ownsIn u (.ej (x.cfg u 6 1) (x.cfg u (12 + 3 * (bitsN c.data.toNat 0 4 % 4)) 3)) = true ∧
        s.takeN k (.ej (if x.cfg u 5 1 = 1 then 1 else 2) (x.cfg u 9 3)) 1 = some ([c], s1) ∧ bitsN c.data.toNat 0 4 % 4 ≤ x.cfg u 3 2 ∧
        s1.takeN k (.ej (x.cfg u 6 1) (x.cfg u (12 + 3 * (bitsN c.data.toNat 0 4 % 4)) 3)) 1 = some ([e], s2) ∧
        x.room u (.inj (x.cfg u 6 1) (x.cfg u (24 + 2 * 0) 2)) (elemCost (x.cfg u 6 1) e) = true) fun s =>
    s2.modSite k fun x => x.emitAll [.inj ((s.site k).cfg (0x040 + n) 6 1) ((s.site k).cfg (0x040 + n) (24 + 2 * 0) 2)] e := by
  rintro s ⟨hn, hkind, hworks, hcontrol, hdata, htag, hrange, htake, hroom⟩
  show execSteerFire t k n s = _
  simp only [execSteerFire, hn, hkind, hworks, hcontrol, htag, Nat.not_lt.mpr hrange, le_refl, Nat.one_le_ofNat, and_self, and_false, if_true,
    if_false, List.all_cons, List.all_nil, hdata, Bool.and_self, List.foldl_cons, List.foldl_nil, htake, List.nil_append, List.headD_cons,
    OfNat.one_ne_ofNat, false_and, hroom]

/-- A `FILTER` removes the head that its predicate does not pass, and emits nothing (R143). -/
theorem steerFire_drop_does (t k n : Nat) (c e : Elem) (s1 s2 : State) : Does t (.steerFire t k n)
    (fun s =>
      let x := s.site k
      let u := 0x040 + n
      n < 8 ∧ x.cfg u 0 3 = 3 ∧ s.siteWorks k u = true ∧ x.ownsIn u (.ej (if x.cfg u 5 1 = 1 then 1 else 2) (x.cfg u 9 3)) = true ∧
        x.ownsIn u (.ej (x.cfg u 6 1) (x.cfg u (12 + 3 * 0) 3)) = true ∧
        s.takeN k (.ej (if x.cfg u 5 1 = 1 then 1 else 2) (x.cfg u 9 3)) 1 = some ([c], s1) ∧
        s1.takeN k (.ej (x.cfg u 6 1) (x.cfg u (12 + 3 * 0) 3)) 1 = some ([e], s2) ∧
        (bitsN c.data.toNat 0 4 + x.cfg u 8 1) % 2 = 0) fun _ => s2.modSite k fun x => x.emitAll [] e := by
  rintro s ⟨hn, hkind, hworks, hcontrol, hdata, htag, htake, hdrop⟩
  have hnoselect : 3 ∉ [1, 2, 5] := by decide
  show execSteerFire t k n s = _
  simp only [execSteerFire, hn, hkind, hworks, hcontrol, htag, hnoselect, Nat.one_le_ofNat, Nat.reduceLeDiff, OfNat.ofNat_ne_one, Nat.reduceEqDiff,
    and_self, false_and, if_true, if_false, List.all_cons, List.all_nil, hdata, Bool.and_self, List.foldl_cons, List.foldl_nil, htake, hdrop,
    List.nil_append, List.headD_cons, Nat.reduceBEq, Bool.false_eq_true, not_false_eq_true]

/-- The kinds whose control token is a selector, `SELECT`, `MERGE` and `SPLIT`, are kinds of a steering unit (R143). -/
theorem selectorKind_mem {kind : Nat} (h : kind = 1 ∨ kind = 2 ∨ kind = 5) : 1 ≤ kind ∧ kind ≤ 5 ∧ kind ∈ [1, 2, 5] := by
  rcases h with rfl | rfl | rfl <;> decide

/-- A selector above `NSEL` is a `STEER_RANGE` (R144). -/
theorem steerFire_range_does (t k n : Nat) (c : Elem) (s1 : State) : Does t (.steerFire t k n)
    (fun s =>
      let x := s.site k
      let u := 0x040 + n
      n < 8 ∧ (x.cfg u 0 3 = 1 ∨ x.cfg u 0 3 = 2 ∨ x.cfg u 0 3 = 5) ∧ s.siteWorks k u = true ∧
        x.ownsIn u (.ej (if x.cfg u 5 1 = 1 then 1 else 2) (x.cfg u 9 3)) = true ∧
        s.takeN k (.ej (if x.cfg u 5 1 = 1 then 1 else 2) (x.cfg u 9 3)) 1 = some ([c], s1) ∧ x.cfg u 3 2 < bitsN c.data.toNat 0 4 % 4) fun s =>
    s.configFault k (0x040 + n) 4 0x0204 := by
  rintro s ⟨hn, hkind, hworks, hcontrol, htag, hrange⟩
  obtain ⟨hmin, hmax, hselects⟩ := selectorKind_mem hkind
  show execSteerFire t k n s = _
  simp only [execSteerFire, hn, hmin, hmax, hworks, hcontrol, htag, hselects, hrange, and_self, if_true]

/-- Settles O27: each row of the units of control has its effect, one lemma per row and branch. -/
theorem controlRowsAct : Obligations.ControlRowsAct := by
  unfold Obligations.ControlRowsAct
  exact ⟨counterAdvance_does, steerFire_select_does, steerFire_drop_does, steerFire_range_does⟩

end Sys2Proof.Machine
end
section
/-! PROOFS. The memory commands: the next state of each where it succeeds (05 R189, R197; 12 R381 to R398; 14 R450). -/

namespace Sys2Proof.Machine

/-! ## Pages of the Page Map (R384, R388) -/

/-- The place of an allocation: the first free run where the command names none, else the free run that it names (R384, R398). -/
theorem allocPlace_eq {s : State} {c : Cmd} {own : Bool} {l : Nat} {inside : Prop}
    (h : if c.arg 3 = 0xFFFFFFFF then firstFree (fun l => s.runFree (c.arg 0) l (c.arg 2) own) 8388608 (8388608 * c.arg 0) = some l
      else l = c.arg 3 ∧ s.runFree (c.arg 0) l (c.arg 2) true = true ∧ inside) :
    (if c.arg 3 = 0xFFFFFFFF then firstFree (fun l => s.runFree (c.arg 0) l (c.arg 2) own) 8388608 (8388608 * c.arg 0)
      else if s.runFree (c.arg 0) (c.arg 3) (c.arg 2) true then some (c.arg 3) else none) = some l := by
  by_cases hany : c.arg 3 = 0xFFFFFFFF
  · rw [if_pos hany] at h ⊢
    exact h
  · rw [if_neg hany] at h ⊢
    obtain ⟨rfl, hfree, -⟩ := h
    exact if_pos hfree

/-- `PAGEMAP_ALLOC` maps a free run of pages and answers its first page and its length (R384, R388, R398, log 71). -/
theorem pagemapAlloc_runs (t mb : Nat) (buf : Option (List Byte)) (l : Nat) (s' : State) :
    Runs cmdPagemapAlloc t mb { buf } (.pagemapAlloc t mb buf)
      (fun s c => c.arg 0 ≤ 1 ∧ (c.arg 1 = 1 ∨ c.arg 1 = 6) ∧ c.arg 2 ≠ 0 ∧
        (if c.arg 3 = 0xFFFFFFFF then
          firstFree (fun l => s.runFree (c.arg 0) l (c.arg 2) ((s.mbx c.mb).role == 2)) 8388608 (8388608 * c.arg 0) = some l
        else l = c.arg 3 ∧ s.runFree (c.arg 0) l (c.arg 2) true = true ∧
          ((s.mbx c.mb).role = 2 ∨ ((List.range (c.arg 2)).any fun i => s.inHdm (l + i)) = false)) ∧
        ((s.mbx c.mb).role = 2 ∨ ((List.range (c.arg 2)).any fun i => s.inHdm (l + i)) = false) ∧
        (s.allocWith fun s => (s.mapPages ((List.range (c.arg 2)).map (l + ·)) c.part (if c.arg 1 = 1 then .plain else .window) false).map
          fun s => (s, ())) = .done s' ()) fun _ c => s'.finish c.mb stOk 0 (pack [(32, l), (32, c.arg 2)]) := by
  refine runs_of (fun _ => rfl) ?_
  rintro s c ⟨hhalf, hkind, hcount, hplace, hwindow, halloc⟩
  have hgood : ¬ (1 < c.arg 0 ∨ ¬ (c.arg 1 = 1 ∨ c.arg 1 = 6) ∨ c.arg 2 = 0) := by omega
  have hallowed : ¬ (¬ ((s.mbx c.mb).role == 2) = true ∧ ((List.range (c.arg 2)).any fun i => s.inHdm (l + i)) = true) := by
    rintro ⟨hrole, hinside⟩
    rcases hwindow with howner | houtside
    · exact hrole (beq_iff_eq.mpr howner)
    · exact absurd hinside (by rw [houtside]; decide)
  simp only [cmdPagemapAlloc, if_neg hgood, allocPlace_eq hplace, if_neg hallowed, halloc]

/-- A test holds of every number of a run that begins at `l`. -/
theorem all_run {f : Nat → Bool} {l n : Nat} (h : ∀ i < n, f (l + i) = true) : ((List.range n).map (l + ·)).all f = true := by
  rw [List.all_map, List.all_eq_true]
  exact fun i hi => h i (List.mem_range.mp hi)

/-- `PAGEMAP_FREE` unmaps pages that host commands allocated to the partition (R388). -/
theorem pagemapFree_runs (t mb : Nat) (buf : Option (List Byte)) : Runs cmdPagemapFree t mb { buf } (.pagemapFree t mb buf)
    (fun s c => c.arg 1 ≠ 0 ∧ ∀ i < c.arg 1, s.hostPage c.part (c.arg 0 + i) = true) fun s c =>
    (s.unmapPages ((List.range (c.arg 1)).map (c.arg 0 + ·))).finish c.mb stOk := by
  refine runs_of (fun _ => rfl) ?_
  rintro s c ⟨hcount, hpages⟩
  simp only [cmdPagemapFree, hcount, all_run hpages, not_true_eq_false, or_self, if_false]

/-- `KEEP_SET` sets the `KEPT` bit of plain pages of the partition within the bound of kept pages (R389). -/
theorem keepSet_runs (t mb : Nat) (buf : Option (List Byte)) (s' : State) : Runs cmdKeepSet t mb { buf } (.keepSet t mb buf)
    (fun s c => c.arg 0 ≤ 1 ∧ c.arg 2 ≠ 0 ∧ (∀ i < c.arg 2, (s.pageEnt (c.arg 1 + i)).kind = .plain ∧ (s.pageEnt (c.arg 1 + i)).owner = c.part) ∧
      ((List.range (c.arg 2)).map (c.arg 1 + ·)).foldl (fun (s : State) l => s.setPage l { s.pageEnt l with kept := c.arg 0 == 1 }) s = s' ∧
      s'.keptFull = false) fun _ c => s'.finish c.mb stOk := by
  refine runs_of (fun _ => rfl) ?_
  rintro s c ⟨hbit, hcount, hpages, hset, hbound⟩
  have hplain : (((List.range (c.arg 2)).map (c.arg 1 + ·)).all fun l => (s.pageEnt l).kind == .plain && (s.pageEnt l).owner == c.part) = true :=
    all_run fun i hi => by rw [(hpages i hi).1, (hpages i hi).2, beq_self_eq_true, beq_self_eq_true, Bool.and_self]
  simp only [cmdKeepSet, Nat.not_lt.mpr hbit, hcount, hplain, hset, hbound, not_true_eq_false, or_self, Bool.false_eq_true, if_false]

/-! ## Windows (R189, R197, R386) -/

/-- The arguments that both forms of `WINDOW_OPEN` check pass (R450). -/
theorem windowArgs_good {form rights remote : Nat} (hform : form ≤ 1) (hmin : 1 ≤ rights) (hmax : rights ≤ 3) (hremote : remote ≤ 1) :
    ¬ (1 < form ∨ rights = 0 ∨ 3 < rights ∨ 1 < remote) := by omega

/-- `WINDOW_OPEN` of a tile of the partition writes its window descriptor (R189). -/
theorem windowOpen_slice_runs (t mb : Nat) (buf : Option (List Byte)) : Runs cmdWindowOpen t mb { buf } (.windowOpen t mb buf)
    (fun s c => (s.part c.part).sweep = none ∧ c.arg 0 = 0 ∧ 1 ≤ c.arg 2 ∧ c.arg 2 ≤ 3 ∧ c.arg 3 ≤ 1 ∧ c.arg 1 ≤ 7 ∧ c.arg 5 ≤ 8191 ∧
      bitAt (s.part c.part).regions (tileBlock (c.arg 5)) = true ∧ c.arg 6 % 64 = 0 ∧ c.arg 7 % 64 = 0 ∧ c.arg 7 ≠ 0 ∧
      c.arg 6 + c.arg 7 ≤ 0xBA000) fun s c =>
    let d : WinDesc := { base := c.arg 6, size := c.arg 7, rights := c.arg 2, remote := c.arg 3 == 1, isOpen := true, owner := c.part, key := c.arg 4 }
    (s.modSite (s.siteOfTile (c.arg 5)) fun x => { x with mu := { x.mu with windows := Tbl.set {} (c.arg 1) d x.mu.windows } }).finish c.mb stOk := by
  refine runs_of (fun _ => rfl) ?_
  rintro s c ⟨hsweep, hform, hmin, hmax, hremote, hwindow, htile, hown, hbase, hsize, hsome, hend⟩
  have hplace : ¬ (7 < c.arg 1 ∨ 8191 < c.arg 5 ∨ ¬ bitAt (s.part c.part).regions (tileBlock (c.arg 5)) = true ∨ c.arg 6 % 64 ≠ 0 ∨
      c.arg 7 % 64 ≠ 0 ∨ c.arg 7 = 0 ∨ 0xBA000 < c.arg 6 + c.arg 7) := by
    simp only [hown, not_true_eq_false, false_or]
    omega
  simp only [cmdWindowOpen, hsweep, Option.isSome_none, Bool.false_eq_true, if_false,
    if_neg (windowArgs_good (hform.trans_le (Nat.zero_le 1)) hmin hmax hremote), if_pos hform, if_neg hplace]

/-- `WINDOW_OPEN` of pages of one port die sets the page window of its number there, unless another partition holds it (R386, log 71). -/
theorem windowOpen_page_runs (t mb : Nat) (buf : Option (List Byte)) : Runs cmdWindowOpen t mb { buf } (.windowOpen t mb buf)
    (fun s c => (s.part c.part).sweep = none ∧ c.arg 0 = 1 ∧ 1 ≤ c.arg 2 ∧ c.arg 2 ≤ 3 ∧ c.arg 3 ≤ 1 ∧ c.arg 7 ≠ 0 ∧
      c.arg 6 + c.arg 7 ≤ 16777216 ∧ pageDie (c.arg 6) = pageDie (c.arg 6 + c.arg 7 - 1) ∧
      ((Tbl.get {} s.mem.wins (256 * pageDie (c.arg 6) + c.arg 1) : PageWin).isOpen = true →
        (Tbl.get {} s.mem.wins (256 * pageDie (c.arg 6) + c.arg 1) : PageWin).owner = c.part)) fun s c =>
    let v : PageWin := { first := c.arg 6, count := c.arg 7, rights := c.arg 2, key := c.arg 4, owner := c.part, isOpen := true }
    ({ s with mem := { s.mem with wins := Tbl.set {} (256 * pageDie (c.arg 6) + c.arg 1) v s.mem.wins } } : State).finish c.mb stOk (c.arg 1) := by
  refine runs_of (fun _ => rfl) ?_
  rintro s c ⟨hsweep, hform, hmin, hmax, hremote, hsome, hend, hdie, howner⟩
  have hpages : ¬ (c.arg 7 = 0 ∨ 16777216 < c.arg 6 + c.arg 7 ∨ pageDie (c.arg 6) ≠ pageDie (c.arg 6 + c.arg 7 - 1)) := by omega
  have hfree : ¬ ((Tbl.get {} s.mem.wins (256 * pageDie (c.arg 6) + c.arg 1) : PageWin).isOpen = true ∧
      (Tbl.get {} s.mem.wins (256 * pageDie (c.arg 6) + c.arg 1) : PageWin).owner ≠ c.part) := fun h => h.2 (howner h.1)
  simp only [cmdWindowOpen, hsweep, Option.isSome_none, Bool.false_eq_true, if_false, if_neg (windowArgs_good hform.le hmin hmax hremote),
    if_neg (hform.trans_ne one_ne_zero), if_neg hpages, if_neg hfree]

/-- `WINDOW_CLOSE` of a tile of the partition clears its window descriptor (R189). -/
theorem windowClose_slice_runs (t mb : Nat) (buf : Option (List Byte)) : Runs cmdWindowClose t mb { buf } (.windowClose t mb buf)
    (fun s c => c.arg 0 = 0 ∧ c.arg 1 ≤ 7 ∧ c.arg 2 ≤ 8191 ∧ bitAt (s.part c.part).regions (tileBlock (c.arg 2)) = true) fun s c =>
    (s.modSite (s.siteOfTile (c.arg 2)) fun x =>
      { x with mu := { x.mu with windows := Tbl.set {} (c.arg 1) ({} : WinDesc) x.mu.windows } }).finish c.mb stOk := by
  refine runs_of (fun _ => rfl) ?_
  rintro s c ⟨hform, hwindow, htile, hown⟩
  simp only [cmdWindowClose, hform, Nat.not_lt_zero, Nat.not_lt.mpr hwindow, Nat.not_lt.mpr htile, hown, not_true_eq_false, or_self, if_false, if_true]

/-- `WINDOW_CLOSE` of pages closes the page windows of a number that the partition holds (R386, log 71). -/
theorem windowClose_page_runs (t mb : Nat) (buf : Option (List Byte)) : Runs cmdWindowClose t mb { buf } (.windowClose t mb buf)
    (fun _ c => c.arg 0 = 1) fun s c =>
    ({ s with mem := { s.mem with wins := s.mem.wins.filter fun e => !(e.1 % 256 == c.arg 1 && e.2.owner == c.part) } } : State).finish c.mb
      stOk := by
  refine runs_of (fun _ => rfl) ?_
  intro s c hform
  simp only [cmdWindowClose, hform, lt_self_iff_false, one_ne_zero, if_false]

/-! ## Scrubbing and retirement (R381, R395) -/

/-- `SCRUB_SET` sets the scrub period in hours (R381). -/
theorem scrubSet_runs (t mb : Nat) (buf : Option (List Byte)) : Runs cmdScrubSet t mb { buf } (.scrubSet t mb buf)
    (fun _ c => 1 ≤ c.arg 0 ∧ c.arg 0 ≤ 168) fun s c => ({ s with mem := { s.mem with scrubH := c.arg 0 } } : State).finish c.mb stOk := by
  refine runs_of (fun _ => rfl) ?_
  rintro s c ⟨hmin, hmax⟩
  simp only [cmdScrubSet, Nat.not_lt.mpr hmin, Nat.not_lt.mpr hmax, or_self, if_false]

/-- `PAGE_RETIRE` begins the retirement of a physical page that exists, for the operator's cause (R395). -/
theorem pageRetire_runs (t mb : Nat) (buf : Option (List Byte)) : Runs cmdPageRetire t mb { buf } (.pageRetire t mb buf)
    (fun s c => s.ppnExists (c.arg 0) = true) fun s c => (s.startRetire (c.arg 0) 3).finish c.mb stOk := by
  refine runs_of (fun _ => rfl) ?_
  intro s c hexists
  simp only [cmdPageRetire, hexists, not_true_eq_false, if_false]

/-- `PAGE_RETIRE_SET` sets the count of corrected errors at which a page retires (R395). -/
theorem pageRetireSet_runs (t mb : Nat) (buf : Option (List Byte)) : Runs cmdPageRetireSet t mb { buf } (.pageRetireSet t mb buf)
    (fun _ c => c.arg 0 ≠ 0) fun s c => ({ s with mem := { s.mem with threshold := c.arg 0 } } : State).finish c.mb stOk := by
  refine runs_of (fun _ => rfl) ?_
  intro s c hcount
  simp only [cmdPageRetireSet, if_neg hcount]

/-- Settles O8: each command runs to its next state, one lemma per command and form. -/
theorem memoryCommandsRun : Obligations.MemoryCommandsRun := by
  unfold Obligations.MemoryCommandsRun
  exact ⟨pagemapAlloc_runs, pagemapFree_runs, windowOpen_slice_runs, windowOpen_page_runs, windowClose_slice_runs, windowClose_page_runs,
    keepSet_runs, scrubSet_runs, pageRetire_runs, pageRetireSet_runs⟩

end Sys2Proof.Machine
end
section
/-! PROOFS. The commands of census, error log and Harvest: the next state of each where it succeeds (05 R192 to R194; 10 R329; 14 R450 to R456;
16 R520, R522). -/

namespace Sys2Proof.Machine

/-! ## Census (R452 to R456) -/

/-- `CENSUS_READ` reads its objects and completes with them (R452 to R456). -/
theorem censusRead_runs (t mb : Nat) (buf : Option (List Byte)) (us : List (List Byte)) : Runs cmdCensusRead t mb { buf } (.censusRead t mb buf)
    (fun s c => s.readObjects c (c.arg 0) (c.arg 1) = .ok us) fun s c =>
    (s.sliceReads c.part (c.arg 0) (c.arg 1)).finishOut c us fun b n => pack [(32, b), (32, n)] := by
  refine runs_of (fun _ => rfl) ?_
  intro s c hobjects
  simp only [cmdCensusRead, hobjects, State.finishObjects]

/-- `CENSUS_SNAPSHOT` at once reads as `CENSUS_READ` does (R455). -/
theorem censusSnapshot_once_runs (t mb : Nat) (buf : Option (List Byte)) (us : List (List Byte)) :
    Runs cmdCensusSnapshot t mb { buf } (.censusSnapshot t mb buf)
      (fun s c => c.arg 0 = 0 ∧ s.readObjects c (c.arg 1) (c.arg 2) = .ok us) fun s c =>
      (s.sliceReads c.part (c.arg 1) (c.arg 2)).finishOut c us fun b n => pack [(32, b), (32, n)] := by
  refine runs_of (fun _ => rfl) ?_
  rintro s c ⟨hwhen, hobjects⟩
  simp only [cmdCensusSnapshot, hwhen, hobjects, Nat.not_lt_zero, true_or, if_true, if_false, State.finishObjects]

/-- `CENSUS_SNAPSHOT` at the gate of a partition with a job waits there, when its objects fit the staging area (R455). -/
theorem censusSnapshot_gate_runs (t mb : Nat) (buf : Option (List Byte)) (us : List (List Byte)) (j : Job) :
    Runs cmdCensusSnapshot t mb { buf } (.censusSnapshot t mb buf)
      (fun s c => c.arg 0 = 1 ∧ s.readObjects c (c.arg 1) (c.arg 2) = .ok us ∧ c.part < 16 ∧ s.job c.part = some j ∧
        (us.map List.length).sum ≤ 16777216) fun s c => s.modMb c.mb fun m => { m with capture := some (c.arg 1, c.arg 2) } := by
  refine runs_of (fun _ => rfl) ?_
  rintro s c ⟨hwhen, hobjects, hpart, hjob, hfits⟩
  simp only [cmdCensusSnapshot, hwhen, hobjects, hjob, Nat.not_le.mpr hpart, Nat.not_lt.mpr hfits, lt_self_iff_false, one_ne_zero,
    Option.isNone_some, Bool.false_eq_true, or_self, if_false]

/-! ## The error log (R328, R329) -/

/-- `LOG_READ` answers the records that the ring still holds from the position asked for on (R329). -/
theorem logRead_runs (t mb : Nat) (buf : Option (List Byte)) : Runs cmdLogRead t mb { buf } (.logRead t mb buf) (fun _ _ => True) fun s c =>
    let first := max (c.arg 1) (s.col.total - min s.col.total 1048576)
    let r := s.logUnits first (min (c.arg 0) (s.col.total - first))
    r.2.finishOut c r.1 fun _ k => pack [(64, first), (32, k)] :=
  runs_of (fun _ => rfl) fun _ _ _ => rfl

/-! ## The Harvest (R192 to R194, R520, R522) -/

/-- `HARVEST_SET` sets the sample ranges of a partition, where with the samples of the other partitions they fit the store (R192). -/
theorem harvestSet_runs (t mb : Nat) (buf : Option (List Byte)) : Runs cmdHarvestSet t mb { buf } (.harvestSet t mb buf)
    (fun s c => 1 ≤ c.arg 0 ∧ c.arg 0 ≤ 4 ∧
      (∀ i < c.arg 0, c.arg (1 + 2 * i) % 256 = 0 ∧ c.arg (2 + 2 * i) % 256 = 0 ∧ c.arg (2 + 2 * i) ≠ 0 ∧
        c.arg (1 + 2 * i) + c.arg (2 + 2 * i) ≤ 786432) ∧
      s.sampleSize c.part ((List.range (c.arg 0)).map fun i => (c.arg (1 + 2 * i), c.arg (2 + 2 * i))) +
        (((List.range 16).filter fun q => q != c.part && (s.part q).exist).map fun q => s.sampleSize q (s.part q).harvest).sum ≤ 67108864) fun s c =>
    (s.modPart c.part fun x => { x with harvest := (List.range (c.arg 0)).map fun i => (c.arg (1 + 2 * i), c.arg (2 + 2 * i)) }).finish c.mb stOk := by
  refine runs_of (fun _ => rfl) ?_
  rintro s c ⟨hmin, hmax, hranges, hfits⟩
  have hgood : (((List.range (c.arg 0)).map fun i => (c.arg (1 + 2 * i), c.arg (2 + 2 * i))).any fun r =>
      r.1 % 256 != 0 || r.2 % 256 != 0 || r.2 == 0 || decide (786432 < r.1 + r.2)) = false := by
    rw [List.any_map, List.any_eq_false]
    intro i hi
    obtain ⟨hfirst, hsize, hsome, hend⟩ := hranges i (List.mem_range.mp hi)
    simpa [hfirst, hsize, hsome] using hend
  have hown := (Nat.le_add_right _ _).trans hfits
  simp only [cmdHarvestSet, Nat.one_le_iff_ne_zero.mp hmin, Nat.not_lt.mpr hmax, hgood, Nat.not_lt.mpr hown, Nat.not_lt.mpr hfits,
    Bool.false_eq_true, or_self, if_false]

/-- `HARVEST_READ` answers the sampled tiles from a tile on, to the holder of the credential under which they were taken (R193, R194, R522). -/
theorem harvestRead_tiles_runs (t mb : Nat) (buf : Option (List Byte)) : Runs cmdHarvestRead t mb { buf } (.harvestRead t mb buf)
    (fun s c => (s.part c.part).harvested.present = true ∧ (s.part c.part).harvested.cred = (s.part c.part).cred ∧ c.arg 1 ≠ 0) fun s c =>
    (s.storeTiles c.part).2.finishOut c ((((s.storeTiles c.part).1.filter fun y => decide (c.arg 0 ≤ y.1)).take (c.arg 1)).map (·.2))
      fun b n => pack [(32, b), (16, n)] := by
  refine runs_of (fun _ => rfl) ?_
  rintro s c ⟨hpresent, hcred, htiles⟩
  simp only [cmdHarvestRead, hpresent, hcred, htiles, ne_eq, not_true_eq_false, if_false]

/-- `HARVEST_READ` of no tile answers the partition record: its header, its objects and its error records (R520, R522). -/
theorem harvestRead_record_runs (t mb : Nat) (buf : Option (List Byte)) : Runs cmdHarvestRead t mb { buf } (.harvestRead t mb buf)
    (fun s c => (s.part c.part).harvested.present = true ∧ (s.part c.part).harvested.cred = (s.part c.part).cred ∧ c.arg 1 = 0) fun s c =>
    s.finishOut c ([harvestHead c.part (2 + (s.sitesOf c.part).length) (s.part c.part).harvested, (s.part c.part).harvested.objects] ++
      (s.part c.part).harvested.recs.map errBytes) fun b _ => pack [(32, b), (16, 0)] := by
  refine runs_of (fun _ => rfl) ?_
  rintro s c ⟨hpresent, hcred, htiles⟩
  simp only [cmdHarvestRead, hpresent, hcred, htiles, ne_eq, not_true_eq_false, if_false, if_true]

/-- Settles O11: each command runs to its next state, one lemma per command and form. -/
theorem censusCommandsRun : Obligations.CensusCommandsRun := by
  unfold Obligations.CensusCommandsRun
  exact ⟨censusRead_runs, censusSnapshot_once_runs, censusSnapshot_gate_runs, logRead_runs, harvestSet_runs, harvestRead_tiles_runs,
    harvestRead_record_runs⟩

end Sys2Proof.Machine
end
section
/-! PROOFS. The rows on which a waiting command goes on (05 R195, R197; 12 R388; 13 R411, R433; 14 R443; 16 R512, R518, R519): a lock is granted, a
page is zero, a mirror is acknowledged, a sweep ends, a Harvest ends, a job completes. -/

namespace Sys2Proof.Machine

/-! ## Commands that are granted what they wait for (R388, R411, R433, R443) -/

/-- A free lock passes to the command that has waited for it longest, which goes on with what its host buffer now holds (R443). -/
theorem commandLockGrant_does (t p mb ft : Nat) (d : Desc) (buf : Option (List Byte)) : Does t (.commandLockGrant t p buf)
    (fun s => (s.part p).lock = none ∧ nextWaiter (s.part p).lockWait = some (mb, ft) ∧ (s.mbx mb).running = some d) fun s =>
    let s1 := (s.modPart p fun x => { x with lockWait := x.lockWait.filter (· != (mb, ft)) }).modPart p fun x => { x with lock := some mb }
    (if buf.isSome then s1.modMb mb fun m => { m with ext := { m.ext with buf } } else s1).granted mb d := by
  rintro s ⟨hfree, hfirst, hrunning⟩
  have hstill (f : Part → Part) : ((s.adv t).modPart p f).mbx mb = (s.adv t).mbx mb := rfl
  show execCommandLockGrant t p buf s = _
  simp only [execCommandLockGrant, hfree, hfirst, hstill, hrunning, Option.isSome_none, Bool.false_eq_true, if_false]

/-- A page that has been zeroed is back in the pool, and each allocation that waits is tried again in order (R388). -/
theorem pageZeroComplete_does (t ppn : Nat) : Does t (.pageZeroComplete t ppn) (fun _ => True) fun s =>
    (s.zeroed ppn).mem.allocWait.foldl (fun (s : State) mb => match (s.mbx mb).running with
      | some d => s.granted mb d
      | none => s) (s.zeroed ppn) := fun _ _ => rfl

/-- An acknowledgement with no command that waits for it is that of the mirror alone (R411). -/
theorem twinAckReceive_does (t p step : Nat) : Does t (.twinAckReceive t p step)
    (fun s => ((s.twinAck p step).part p).lock = none ∨ ((s.twinAck p step).part p).twin.phase ≠ .idle) fun s => s.twinAck p step := by
  intro s hnone
  show execTwinAckReceive t p step s = _
  unfold execTwinAckReceive
  rcases hnone with hlock | hphase
  · simp only [hlock, ite_self]
  · simp only [if_pos hphase]

/-- The acknowledgement that ends a mirror lets the `RESTORE_PAGE` that holds the lock go on (R411, R433). -/
theorem twinAckReceive_restores_does (t p step mb : Nat) (d : Desc) : Does t (.twinAckReceive t p step)
    (fun s => ((s.twinAck p step).part p).lock = some mb ∧ ((s.twinAck p step).part p).twin.phase = .idle ∧
      ((s.twinAck p step).mbx mb).running = some d ∧ d.opcode = 0x0806) fun s => (s.twinAck p step).granted mb d := by
  rintro s ⟨hlock, hphase, hrunning, hop⟩
  show execTwinAckReceive t p step s = _
  simp only [execTwinAckReceive, hlock, hphase, hrunning, hop, ne_eq, not_true_eq_false, if_false, if_true]

/-! ## The end of a sweep, of a Harvest and of a job (R195, R197, R512, R518, R519) -/

/-- A sweep with no tag open and every site powered ends: its sites are swept, and what its cause waited for is done (R195, R197). -/
theorem zeroSweepComplete_does (t p : Nat) (why : SweepFor) : Does t (.zeroSweepComplete t p)
    (fun s => (s.part p).sweep = some why ∧ s.tagsOpen p = false ∧ s.sweepPowered p = true) fun s =>
    let s1 := (s.modSites (s.sitesOf p) fun _ => sweptSite).modPart p fun x => { x with sweep := none }
    let s2 := if (s1.part p).underReset = true ∨ s1.hub.halted = true then s1 else s1.setDown p false
    match why with
    | .jobKill mb => s2.finish mb stOk
    | .reset _ => s2.partResetEnd p
    | _ => s2 := by
  rintro s ⟨hsweep, htags, hpowered⟩
  show execZeroSweepComplete t p s = _
  simp only [execZeroSweepComplete, hsweep, htags, hpowered, Bool.false_eq_true, not_true_eq_false, or_self, if_false] <;> rfl

/-- A Harvest whose own sweep is over ends with its event, and a reset that waited for it goes on (R512, R518, R519). -/
theorem harvestComplete_does (t p : Nat) : Does t (.harvestComplete t p)
    (fun s => (s.part p).harvesting = true ∧ (s.part p).sweep ≠ some .harvest) fun s =>
    let s1 := (s.modPart p fun x => { x with harvesting := false }).event 0x0114 p
      [(8, (s.part p).harvested.cause), (64, (s.part p).harvested.step.toNat), (32, (s.part p).harvested.sampleBytes)]
    if (s1.part p).underReset = true then (if s1.hub.reset.isSome = true then s1.resetNext else s1.partResetGo p) else s1 := by
  intro s hover
  show execHarvestComplete t p s = _
  simp only [execHarvestComplete, if_pos hover]

/-- A job at its gate ends its binding normally, and its Heralds close (R195). -/
theorem normalCompletion_does (t p : Nat) (j : Job) : Does t (.normalCompletion t p) (fun s => s.job p = some j ∧ j.st = .atGate) fun s =>
    (s.endBinding p 0 .normal).closeHeralds p := by
  rintro s ⟨hjob, hgate⟩
  show execNormalCompletion t p s = _
  simp only [execNormalCompletion, hjob, if_pos hgate]

/-- Settles O23: each row has its effect, one lemma per row and branch. -/
theorem grantRowsAct : Obligations.GrantRowsAct := by
  unfold Obligations.GrantRowsAct
  exact ⟨commandLockGrant_does, pageZeroComplete_does, twinAckReceive_does, twinAckReceive_restores_does, zeroSweepComplete_does,
    harvestComplete_does, normalCompletion_does⟩

end Sys2Proof.Machine
end
section
/-! PROOFS. The transfer rows (05 R189 to R191; 11 R353, R361, R365 to R368): descriptors, completions, timeouts, retries, flow rates, and accesses to
a window of a tile. -/

namespace Sys2Proof.Machine

/-! ## Descriptors (R365, R366) -/

/-- The state in which the oldest descriptor of a tile has left its queue, of which `rest` stays. -/
def State.descTaken (s : State) (tile : Nat) (rest : List DmaDesc) : State :=
  { s with dma := { s.dma with queues := Tbl.set [] tile rest s.dma.queues } }

/-- The transfer that a descriptor of a tile begins with. -/
def State.xferOf (s : State) (tile : Nat) (d : DmaDesc) : Xfer := { desc := d, part := s.partField (s.siteOfTile tile), tile, todo := d.length }

/-- A tile's oldest descriptor, its class not held, is checked: it ends in `BAD_DESCRIPTOR`, in `NO_KEY`, or starts its transfer (R365, R366). -/
theorem dmaDescriptorStart_checks {t die tile : Nat} {d : DmaDesc} {rest : List DmaDesc} {s : State}
    (hqueue : Tbl.get [] (s.adv t).dma.queues tile = d :: rest) (hdie : tileDie tile = die) (hclass : ((s.adv t).rcfg d.tclass).hold = false) :
    exec (.dmaDescriptorStart t die tile) s = .next (
      let s1 := (s.adv t).descTaken tile rest
      let k := (s.adv t).siteOfTile tile
      if ¬ s1.descOk ((s.adv t).partField k) d then s1.dmaError ((s.adv t).partField k) k .badDescriptor false
      else if s1.keysMissing ((s.adv t).xferOf tile d) then s1.dmaError ((s.adv t).partField k) k .noKey false
      else State.xferPump die s1.dma.nextXfer 4097
        (({ s1 with dma := { s1.dma with nextXfer := s1.dma.nextXfer + 1 } } : State).setXfer s1.dma.nextXfer (some ((s.adv t).xferOf tile d)))) := by
  have hfree : ¬ (tileDie tile ≠ die ∨ ((s.adv t).rcfg d.tclass).hold = true) := by
    simp only [hdie, hclass, ne_eq, not_true_eq_false, Bool.false_eq_true, or_self, not_false_eq_true]
  show execDmaDescriptorStart t die tile s = _
  simp only [execDmaDescriptorStart, hqueue, if_neg hfree]
  rfl

/-- A descriptor that breaks a rule completes with `BAD_DESCRIPTOR` and moves nothing (R365). -/
theorem dmaDescriptorStart_bad_does (t die tile : Nat) (d : DmaDesc) (rest : List DmaDesc) : Does t (.dmaDescriptorStart t die tile)
    (fun s => Tbl.get [] s.dma.queues tile = d :: rest ∧ tileDie tile = die ∧ (s.rcfg d.tclass).hold = false ∧
      (s.descTaken tile rest).descOk (s.partField (s.siteOfTile tile)) d = false) fun s =>
    (s.descTaken tile rest).dmaError (s.partField (s.siteOfTile tile)) (s.siteOfTile tile) .badDescriptor false := by
  rintro s ⟨hqueue, hdie, hclass, hbad⟩
  simp only [dmaDescriptorStart_checks hqueue hdie hclass, hbad, Bool.false_eq_true, not_false_eq_true, if_true]

/-- A descriptor with a remote side that has no outbound key completes with `NO_KEY` and moves nothing (R366). -/
theorem dmaDescriptorStart_noKey_does (t die tile : Nat) (d : DmaDesc) (rest : List DmaDesc) : Does t (.dmaDescriptorStart t die tile)
    (fun s => Tbl.get [] s.dma.queues tile = d :: rest ∧ tileDie tile = die ∧ (s.rcfg d.tclass).hold = false ∧
      (s.descTaken tile rest).descOk (s.partField (s.siteOfTile tile)) d = true ∧
      (s.descTaken tile rest).keysMissing (s.xferOf tile d) = true) fun s =>
    (s.descTaken tile rest).dmaError (s.partField (s.siteOfTile tile)) (s.siteOfTile tile) .noKey false := by
  rintro s ⟨hqueue, hdie, hclass, hgood, hmissing⟩
  simp only [dmaDescriptorStart_checks hqueue hdie hclass, hgood, hmissing, not_true_eq_false, if_false, if_true]

/-- A descriptor that passes becomes a transfer of the next number, which asks for its first pieces (R365). -/
theorem dmaDescriptorStart_starts_does (t die tile : Nat) (d : DmaDesc) (rest : List DmaDesc) : Does t (.dmaDescriptorStart t die tile)
    (fun s => Tbl.get [] s.dma.queues tile = d :: rest ∧ tileDie tile = die ∧ (s.rcfg d.tclass).hold = false ∧
      (s.descTaken tile rest).descOk (s.partField (s.siteOfTile tile)) d = true ∧
      (s.descTaken tile rest).keysMissing (s.xferOf tile d) = false) fun s =>
    let s1 := s.descTaken tile rest
    State.xferPump die s1.dma.nextXfer 4097
      (({ s1 with dma := { s1.dma with nextXfer := s1.dma.nextXfer + 1 } } : State).setXfer s1.dma.nextXfer (some (s.xferOf tile d))) := by
  rintro s ⟨hqueue, hdie, hclass, hgood, hkeys⟩
  simp only [dmaDescriptorStart_checks hqueue hdie hclass, hgood, hkeys, not_true_eq_false, Bool.false_eq_true, if_false]

/-! ## Completions (R191, R353, R365, R368) -/

/-- The completion of a dead transaction ends its tag (R353). -/
theorem completionReceive_dead_does (t die tag : Nat) (x : Txn) (st : PStatus) (ece ue : Bool) (bs : List Byte) :
    Does t (.completionReceive t die tag st ece ue bs)
      (fun s => s.txn die tag = some x ∧ s.turnedAway x.pkt = false ∧ x.dead = true) fun s => ((s.finishTag die tag st).dmaPump die).mirrorGo := by
  rintro s ⟨htxn, htaken, hdead⟩
  show execCompletionReceive t die tag st ece ue bs s = _
  simp only [execCompletionReceive, htxn, htaken, hdead, Bool.false_eq_true, if_false, if_true]

/-- A router that is `DOWN` discards the completion of its tile and counts it; the port die frees the tag (R368, log 157). -/
theorem completionReceive_discarded_does (t die tag : Nat) (x : Txn) (st : PStatus) (ece ue : Bool) (bs : List Byte) :
    Does t (.completionReceive t die tag st ece ue bs)
      (fun s => s.txn die tag = some x ∧ s.turnedAway x.pkt = true ∧ x.dead = false) fun s =>
      ((s.rtrCount (routerOf (s.siteOfTile x.pkt.srcIdx)) 4).setTxn die tag none).dmaPump die := by
  rintro s ⟨htxn, hdown, hlive⟩
  show execCompletionReceive t die tag st ece ue bs s = _
  simp only [execCompletionReceive, htxn, hdown, hlive, Bool.false_eq_true, if_false, if_true]

/-- The completion of a request that is of no transfer ends its tag (R353). -/
theorem completionReceive_ends_does (t die tag : Nat) (x : Txn) (st : PStatus) (ece : Bool) (bs : List Byte) :
    Does t (.completionReceive t die tag st ece false bs)
      (fun s => s.txn die tag = some x ∧ s.turnedAway x.pkt = false ∧ x.dead = false ∧ x.xfer = none ∧ x.pkt.srcKind ≠ .combiner ∧
        ¬ (x.slot ≤ 1 ∧ (st = .tileMoving ∨ x.moved = true) ∧ x.retries < 2000)) fun s =>
      ((s.finishTag die tag st).dmaPump die).mirrorGo := by
  rintro s ⟨htxn, htaken, hlive, hxfer, hsource, honce⟩
  show execCompletionReceive t die tag st ece false bs s = _
  simp only [execCompletionReceive, htxn, htaken, hlive, hxfer, Option.bind_none, if_neg hsource, if_neg honce, Bool.false_eq_true, if_false]

/-- The data of a chunk is handed on to its destination (R365). -/
theorem completionReceive_chunk_does (t die tag : Nat) (x : Txn) (n : Nat) (y : Xfer) (bs : List Byte) :
    Does t (.completionReceive t die tag .ok false false bs)
      (fun s => s.txn die tag = some x ∧ s.turnedAway x.pkt = false ∧ x.dead = false ∧ x.xfer = some n ∧ s.xfer n = some y ∧
        x.pkt.srcKind ≠ .combiner ∧ x.pkt.kind = .readReq ∧ x.moved = false) fun s =>
      ((s.chunkRead die tag n x y bs).dmaPump die).mirrorGo := by
  rintro s ⟨htxn, htaken, hlive, hxfer, hof, hsource, hread, hplaced⟩
  show execCompletionReceive t die tag .ok false false bs s = _
  simp only [execCompletionReceive, htxn, htaken, hlive, hxfer, Option.bind_some, hof, if_neg hsource, hread, hplaced, reduceCtorEq, or_self,
    false_and, and_false, and_self, Bool.false_eq_true, if_false, if_true]

/-- Any other completion of a transfer's request counts one leaf of a multicast, or ends the tag with the last (R353, log 153). -/
theorem completionReceive_leaf_does (t die tag : Nat) (x : Txn) (n : Nat) (y : Xfer) (st : PStatus) (bs : List Byte) :
    Does t (.completionReceive t die tag st false false bs)
      (fun s => s.txn die tag = some x ∧ s.turnedAway x.pkt = false ∧ x.dead = false ∧ x.xfer = some n ∧ s.xfer n = some y ∧
        x.pkt.srcKind ≠ .combiner ∧ (x.pkt.kind ≠ .readReq ∨ st ≠ .ok) ∧
        ¬ (x.slot ≤ 1 ∧ (st = .tileMoving ∨ x.moved = true) ∧ x.retries < 2000)) fun s =>
      let again : Bool := st == .tileMoving && decide (x.retries < 2000)
      ((if 1 < x.slot then (s.setTxn die tag (some { x with slot := x.slot - 1, moved := x.moved || again })).setXfer n
          (some (if again then y else y.note s x.pkt st))
        else s.finishTag die tag st).dmaPump die).mirrorGo := by
  rintro s ⟨htxn, htaken, hlive, hxfer, hof, hsource, hnodata, honce⟩
  have hother : ¬ (x.pkt.kind = .readReq ∧ st = .ok) := not_and_or.mpr hnodata
  show execCompletionReceive t die tag st false false bs s = _
  simp only [execCompletionReceive, htxn, htaken, hlive, hxfer, Option.bind_some, hof, if_neg hsource, if_neg honce, if_neg hother,
    Bool.false_eq_true, if_false]

/-- The completion of a combining unit's packet frees the unit (R363). -/
theorem completionReceive_combiner_does (t die tag : Nat) (x : Txn) (st : PStatus) (ece : Bool) (bs : List Byte) :
    Does t (.completionReceive t die tag st ece false bs)
      (fun s => s.txn die tag = some x ∧ x.dead = false ∧ x.xfer = none ∧ x.pkt.srcKind = .combiner) fun s =>
      (s.setTxn die tag none).cuDone x.pkt.srcIdx st := by
  rintro s ⟨htxn, hlive, hxfer, hsource⟩
  have htaken : (s.adv t).turnedAway x.pkt = false := by rw [State.turnedAway, hsource]; rfl
  show execCompletionReceive t die tag st ece false bs s = _
  simp only [execCompletionReceive, htxn, htaken, hlive, hxfer, Option.bind_none, if_pos hsource, Bool.false_eq_true, if_false]

/-- A request that met a tile between sites is noted to be asked again, a multicast as a whole (R191, log 153). -/
theorem completionReceive_moving_does (t die tag : Nat) (x : Txn) (bs : List Byte) : Does t (.completionReceive t die tag .tileMoving false false bs)
    (fun s => s.txn die tag = some x ∧ s.turnedAway x.pkt = false ∧ x.dead = false ∧ x.pkt.srcKind ≠ .combiner ∧ x.slot ≤ 1 ∧
      x.retries < 2000) fun s =>
    s.setTxn die tag (some { x with movedAt := some s.now, moved := false, slot := ((x.xfer.bind s.xfer).map (·.desc.leaves)).getD x.slot }) := by
  rintro s ⟨htxn, htaken, hlive, hsource, hslot, hretries⟩
  show execCompletionReceive t die tag .tileMoving false false bs s = _
  simp only [execCompletionReceive, htxn, htaken, hlive, if_neg hsource, hslot, hretries, true_or, and_self, Bool.false_eq_true, if_false, if_true]
  cases (x.xfer.bind (s.adv t).xfer) <;> rfl

/-! ## Timeouts, retries and flow rates (R191, R361, R367) -/

/-- A tag held for longer than the completion timeout, its tile not awaited, ends with `TIMEOUT` (R367). -/
theorem transactionTimeout_does (t die tag : Nat) (x : Txn) : Does t (.transactionTimeout t die tag)
    (fun s => s.txn die tag = some x ∧ x.movedAt = none ∧ x.since + s.routing.timeoutUs * ftUs < s.now ∧ x.pkt.srcKind ≠ .combiner) fun s =>
    ((s.finishTag die tag .timeout).dmaPump die).mirrorGo := by
  rintro s ⟨htxn, hmoved, hlate, hsource⟩
  show execTransactionTimeout t die tag s = _
  simp only [execTransactionTimeout, htxn, if_pos (And.intro hmoved hlate), if_neg hsource]

/-- A combining unit whose tag times out reports it and is free (R367). -/
theorem transactionTimeout_combiner_does (t die tag : Nat) (x : Txn) : Does t (.transactionTimeout t die tag)
    (fun s => s.txn die tag = some x ∧ x.movedAt = none ∧ x.since + s.routing.timeoutUs * ftUs < s.now ∧ x.pkt.srcKind = .combiner) fun s =>
    ((s.cuTimeout x.pkt).setTxn die tag none).cuDone x.pkt.srcIdx .timeout := by
  rintro s ⟨htxn, hmoved, hlate, hsource⟩
  show execTransactionTimeout t die tag s = _
  simp only [execTransactionTimeout, htxn, if_pos (And.intro hmoved hlate), if_pos hsource]

/-- 10 µs after it met a tile between sites a request goes again under its tag (R191). -/
theorem tileMovingRetry_does (t die tag : Nat) (x : Txn) (m : Nat) : Does t (.tileMovingRetry t die tag)
    (fun s => s.txn die tag = some x ∧ x.movedAt = some m ∧ m + 10 * ftUs ≤ s.now) fun s =>
    (s.setTxn die tag (some { x with movedAt := none, retries := x.retries + 1, since := s.now })).inject x.pkt := by
  rintro s ⟨htxn, hmoved, hdue⟩
  show execTileMovingRetry t die tag s = _
  simp only [execTileMovingRetry, htxn, hmoved, if_pos hdue]

/-- 20 µs without an `ECE` raise the rate of a flow that is below its port's (R361). -/
theorem dmaRateIncrease_does (t q d : Nat) : Does t (.dmaRateIncrease t q d)
    (fun s => (Tbl.get {} s.dma.flows (65536 * q + d) : Flow).rate ≠ 0 ∧ (Tbl.get {} s.dma.flows (65536 * q + d) : Flow).rate < s.portRate d ∧
      (Tbl.get {} s.dma.flows (65536 * q + d) : Flow).lastUp + 20 * ftUs ≤ s.now) fun s =>
    let f : Flow := Tbl.get {} s.dma.flows (65536 * q + d)
    { s with dma := { s.dma with
        flows := Tbl.set {} (65536 * q + d) { f with rate := min (s.portRate d) (f.rate + 2000), lastUp := s.now } s.dma.flows } } := by
  intro s hdue
  show execDmaRateIncrease t q d s = _
  simp only [execDmaRateIncrease, if_pos hdue]

/-! ## Windows of a tile (R189 to R191, R368) -/

/-- A packet that reaches its site is taken there (R191, R230, R368). -/
theorem arrive_reaches {s : State} {pkt : Packet} {k : Nat} (h : s.Reaches pkt k) (f : Nat → State → State) : s.arrive pkt f = f k s := by
  obtain ⟨rfl, hup, hplaced, htile⟩ := h
  simp only [State.arrive, hup, hplaced, htile, ne_eq, not_true_eq_false, Bool.false_eq_true, or_self, if_false]

/-- What the forward stream carries of an accepted write is the write itself, on every shadow (R298). -/
theorem forward_write (s : State) (k a : Nat) (bs : List Byte) :
    s.forward k (.write a bs) = (s.shadows k).foldl (fun s v => s.sliceWrite v a bs) s := rfl

/-- A read that its window lets through answers the bytes of the slice (R190, R191, R538). -/
theorem windowAccess_read_does (t : Nat) (pkt : Packet) (hits : List (Nat × List Byte)) (k : Nat) (w : WinDesc) : Does t (.windowAccess t pkt hits)
    (fun s => s.Reaches pkt k ∧ w = (Tbl.get {} (s.site k).mu.windows (pkt.arg.toNat % 256) : WinDesc) ∧ pkt.kind = .readReq ∧
      pkt.arg.toNat % 256 < 8 ∧ w.isOpen = true ∧ pkt.addr + reqLen (pkt.srcDev != s.hub.devId) pkt ≤ w.size ∧ w.rights % 2 = 1 ∧
      s.sourceOk w pkt = true) fun s =>
    let s0 := s.disturbs k hits
    let s1 := if (pkt.srcDev != s.hub.devId) = true then s0.authNote w.key pkt else s0
    (s1.eccRange k (w.base + pkt.addr) (reqLen (pkt.srcDev != s.hub.devId) pkt) true).replyData pkt
      (memReadN (s1.site k).mu.slice (w.base + pkt.addr) (reqLen (pkt.srcDev != s.hub.devId) pkt)) := by
  rintro s ⟨hreaches, rfl, hread, hwindow, hopen, hwithin, hright, hsource⟩
  show execWindowAccess t pkt hits s = _
  simp only [execWindowAccess, arrive_reaches hreaches, hread, hwindow, hopen, hwithin, hright, hsource, ne_eq, not_true_eq_false, and_false,
    beq_self_eq_true, and_self, if_false, if_true]

/-- A write that its window lets through goes to the slice and to the slices of the shadows (R190, R191, R298, R538). -/
theorem windowAccess_write_does (t : Nat) (pkt : Packet) (hits : List (Nat × List Byte)) (k : Nat) (w : WinDesc) : Does t (.windowAccess t pkt hits)
    (fun s => s.Reaches pkt k ∧ w = (Tbl.get {} (s.site k).mu.windows (pkt.arg.toNat % 256) : WinDesc) ∧ pkt.kind = .write ∧
      pkt.arg.toNat % 256 < 8 ∧ w.isOpen = true ∧ pkt.addr + reqLen (pkt.srcDev != s.hub.devId) pkt ≤ w.size ∧ w.rights / 2 % 2 = 1 ∧
      s.sourceOk w pkt = true) fun s =>
    let s0 := s.disturbs k hits
    let s1 := if (pkt.srcDev != s.hub.devId) = true then s0.authNote w.key pkt else s0
    let d := reqData (pkt.srcDev != s.hub.devId) pkt
    let s2 := s1.sliceWrite k (w.base + pkt.addr) d
    ((s2.shadows k).foldl (fun s v => s.sliceWrite v (w.base + pkt.addr) d) s2).reply pkt .ok := by
  rintro s ⟨hreaches, rfl, hwrite, hwindow, hopen, hwithin, hright, hsource⟩
  show execWindowAccess t pkt hits s = _
  simp only [execWindowAccess, arrive_reaches hreaches, hwrite, hwindow, hopen, hwithin, hright, hsource, forward_write, ne_eq, not_true_eq_false,
    false_and, reduceCtorEq, beq_self_eq_true, and_self, if_false, if_true]

/-- An access that its window does not let through is counted, reported and refused, and leaves the slice alone (R190). -/
theorem windowAccess_refused_does (t : Nat) (pkt : Packet) (hits : List (Nat × List Byte)) (k : Nat) (w : WinDesc) :
    Does t (.windowAccess t pkt hits)
      (fun s => s.Reaches pkt k ∧ w = (Tbl.get {} (s.site k).mu.windows (pkt.arg.toNat % 256) : WinDesc) ∧ (pkt.kind = .write ∨ pkt.kind = .readReq) ∧
        (8 ≤ pkt.arg.toNat % 256 ∨ w.isOpen = false ∨ w.size < pkt.addr + reqLen (pkt.srcDev != s.hub.devId) pkt ∨
          (pkt.kind = .readReq ∧ w.rights % 2 = 0) ∨ (pkt.kind = .write ∧ w.rights / 2 % 2 = 0) ∨ s.sourceOk w pkt = false)) fun s =>
      (((s.modSite k fun x => { x with mu := { x.mu with winFaults := satAdd 255 x.mu.winFaults 1 } }).reportSite 0x0106 k 0x180 []).reply
        pkt .windowRefused) := by
  rintro s ⟨hreaches, rfl, hkind, hrefused⟩
  have haccess : ¬ (pkt.kind ≠ .write ∧ pkt.kind ≠ .readReq) := fun h => hkind.elim h.1 h.2
  show execWindowAccess t pkt hits s = _
  simp only [execWindowAccess, arrive_reaches hreaches, if_neg haccess]
  rw [if_neg]
  rintro ⟨hwindow, hopen, hwithin, hright, hsource⟩
  rcases hrefused with hnumber | hclosed | hbeyond | ⟨hread, hnoread⟩ | ⟨hwrite, hnowrite⟩ | hforeign
  · exact Nat.not_lt.mpr hnumber hwindow
  · exact absurd hopen (by rw [hclosed]; decide)
  · exact Nat.not_le.mpr hbeyond hwithin
  · rw [if_pos hread, hnoread] at hright
    exact absurd hright (by decide)
  · rw [if_neg (by rw [hwrite]; decide), hnowrite] at hright
    exact absurd hright (by decide)
  · exact absurd hsource (by rw [hforeign]; decide)

/-- Settles O37: each row has its effect, one lemma per row and branch. -/
theorem dmaRowsAct : Obligations.DmaRowsAct := by
  unfold Obligations.DmaRowsAct
  exact ⟨dmaDescriptorStart_bad_does, dmaDescriptorStart_noKey_does, dmaDescriptorStart_starts_does, completionReceive_dead_does,
    completionReceive_discarded_does, completionReceive_ends_does, completionReceive_chunk_does, completionReceive_leaf_does,
    completionReceive_combiner_does, completionReceive_moving_does, transactionTimeout_does, transactionTimeout_combiner_does,
    tileMovingRetry_does, dmaRateIncrease_does, windowAccess_read_does, windowAccess_write_does, windowAccess_refused_does⟩

end Sys2Proof.Machine
end
section
/-! PROOFS. The instructions of the sequencer (06 R199 to R201, R205): what a word does that is no Xmln instruction, and a fetch that finds none. -/

namespace Sys2Proof.Machine

/-! ## The fetch (R199, R200) -/

/-- A sequencer that runs and waits for nothing fetches (R203). -/
theorem seqStep_fetches {s : State} {k : Nat} (hruns : s.seqRuns k = true) (hfree : (s.site k).seq.bank.wait = none) :
    ¬ (¬ s.seqRuns k = true ∨ (s.site k).seq.bank.wait.isSome = true) := by
  rw [hruns, hfree]
  decide

/-- The row of an instruction has the effect that its word has in the state that the fetch has reached (R199). -/
theorem rvdoes_of {t k : Nat} {cond : Nat → Prop} {effect : State → Bank → Nat → Nat → Bool → State}
    (h : ∀ s w len ue, cond w → s.seqWord k w len ue = effect s (s.site k).seq.bank w len ue) : RvDoes t k cond effect := by
  intro s w len u hready hcond
  show execSeqInstruction t k u s = _
  simp only [execSeqInstruction, State.seqStep, if_neg (seqStep_fetches hready.runs hready.free), hready.word, hready.is, Option.isSome_none,
    Bool.false_eq_true, if_false, h _ _ _ _ hcond]

/-- A parcel that is no instruction traps with cause 2 (R201). -/
theorem seqInstruction_bad_does (t k : Nat) (u : Option (List Byte)) (h : Nat) : Does t (.seqInstruction t k u)
    (fun s => let s1 := s.fetchUpset k u
      s1.seqRuns k = true ∧ (s1.site k).seq.bank.wait = none ∧ (s1.site k).fetch = .bad h) fun s =>
    let s1 := s.fetchUpset k u
    (s1.fetched k).seqTrap k 2 (BitVec.ofNat 32 h) (s1.site k).fetchUe := by
  rintro s ⟨hruns, hfree, hfetch⟩
  show execSeqInstruction t k u s = _
  simp only [execSeqInstruction, State.seqStep, if_neg (seqStep_fetches hruns hfree), hfetch]

/-- A fetch outside instruction memory traps with cause 1 (R201). -/
theorem seqInstruction_fault_does (t k : Nat) (u : Option (List Byte)) : Does t (.seqInstruction t k u)
    (fun s => let s1 := s.fetchUpset k u
      s1.seqRuns k = true ∧ (s1.site k).seq.bank.wait = none ∧ (s1.site k).fetch = .fault) fun s =>
    let s1 := s.fetchUpset k u
    s1.seqTrap k 1 (s1.site k).seq.bank.pc false := by
  rintro s ⟨hruns, hfree, hfetch⟩
  show execSeqInstruction t k u s = _
  simp only [execSeqInstruction, State.seqStep, if_neg (seqStep_fetches hruns hfree), hfetch]

/-! ## Computations (R199) -/

/-- A computation with an immediate, not a shift, writes `rd` (R199). -/
theorem opImm_does (t k : Nat) : RvDoes t k (fun w => w % 128 = 0x13 ∧ bitsN w 12 3 ≠ 1 ∧ bitsN w 12 3 ≠ 5) fun s b w len _ =>
    s.seqRetire k (bitsN w 7 5) (aluI (bitsN w 12 3) false (b.reg (bitsN w 15 5)) (immI w)) (b.pc + BitVec.ofNat 32 len) := by
  refine rvdoes_of ?_
  rintro s w len ue ⟨hop, hleft, hright⟩
  simp only [State.seqWord, hop, Nat.reduceEqDiff, hleft, hright, beq_false_of_ne hright, false_and, or_self, Bool.false_and, if_false, if_true]

/-- A shift by an immediate writes `rd`; bit 30 of a right shift keeps the sign (R199). -/
theorem shiftImm_does (t k : Nat) : RvDoes t k
    (fun w => w % 128 = 0x13 ∧ (bitsN w 12 3 = 1 ∧ bitsN w 25 7 = 0 ∨ bitsN w 12 3 = 5 ∧ (bitsN w 25 7 = 0 ∨ bitsN w 25 7 = 32))) fun s b w len _ =>
    s.seqRetire k (bitsN w 7 5) (aluI (bitsN w 12 3) (bitsN w 12 3 == 5 && bitsN w 25 7 == 32) (b.reg (bitsN w 15 5)) (immI w))
      (b.pc + BitVec.ofNat 32 len) := by
  refine rvdoes_of ?_
  rintro s w len ue ⟨hop, hshift⟩
  have hlegal : ¬ (bitsN w 12 3 = 1 ∧ bitsN w 25 7 ≠ 0 ∨ bitsN w 12 3 = 5 ∧ bitsN w 25 7 ≠ 0 ∧ bitsN w 25 7 ≠ 32) := by omega
  simp only [State.seqWord, hop, Nat.reduceEqDiff, if_neg hlegal, if_false, if_true]

/-- A computation of two registers writes `rd`; bit 30 selects subtraction and the right shift that keeps the sign (R199). -/
theorem opReg_does (t k : Nat) : RvDoes t k
    (fun w => w % 128 = 0x33 ∧ (bitsN w 25 7 = 0 ∨ bitsN w 25 7 = 32 ∧ (bitsN w 12 3 = 0 ∨ bitsN w 12 3 = 5))) fun s b w len _ =>
    s.seqRetire k (bitsN w 7 5) (aluI (bitsN w 12 3) (bitsN w 25 7 == 32) (b.reg (bitsN w 15 5)) (b.reg (bitsN w 20 5)))
      (b.pc + BitVec.ofNat 32 len) := by
  refine rvdoes_of ?_
  rintro s w len ue ⟨hop, hlegal⟩
  have hbase : bitsN w 25 7 ≠ 1 := by omega
  simp only [State.seqWord, hop, Nat.reduceEqDiff, if_neg hbase, if_pos hlegal, if_false, if_true]

/-- A multiplication or division writes `rd` (R199). -/
theorem mulDiv_does (t k : Nat) : RvDoes t k (fun w => w % 128 = 0x33 ∧ bitsN w 25 7 = 1) fun s b w len _ =>
    s.seqRetire k (bitsN w 7 5) (aluM (bitsN w 12 3) (b.reg (bitsN w 15 5)) (b.reg (bitsN w 20 5))) (b.pc + BitVec.ofNat 32 len) := by
  refine rvdoes_of ?_
  rintro s w len ue ⟨hop, hmul⟩
  simp only [State.seqWord, hop, Nat.reduceEqDiff, if_pos hmul, if_false, if_true]

/-- `LUI` writes its immediate (R199). -/
theorem lui_does (t k : Nat) : RvDoes t k (fun w => w % 128 = 0x37) fun s b w len _ =>
    s.seqRetire k (bitsN w 7 5) (immU w) (b.pc + BitVec.ofNat 32 len) := by
  refine rvdoes_of ?_
  intro s w len ue hop
  simp only [State.seqWord, hop, if_true]

/-- `AUIPC` adds its immediate to the program counter (R199). -/
theorem auipc_does (t k : Nat) : RvDoes t k (fun w => w % 128 = 0x17) fun s b w len _ =>
    s.seqRetire k (bitsN w 7 5) (b.pc + immU w) (b.pc + BitVec.ofNat 32 len) := by
  refine rvdoes_of ?_
  intro s w len ue hop
  simp only [State.seqWord, hop, Nat.reduceEqDiff, if_false, if_true]

/-! ## Jumps and branches (R199) -/

/-- `JAL` goes to its target and links the word behind it (R199). -/
theorem jal_does (t k : Nat) : RvDoes t k (fun w => w % 128 = 0x6F) fun s b w len _ =>
    s.seqRetire k (bitsN w 7 5) (b.pc + BitVec.ofNat 32 len) (b.pc + immJ w) := by
  refine rvdoes_of ?_
  intro s w len ue hop
  simp only [State.seqWord, hop, Nat.reduceEqDiff, if_false, if_true]

/-- `JALR` goes to the even address that its register and immediate make (R199). -/
theorem jalr_does (t k : Nat) : RvDoes t k (fun w => w % 128 = 0x67 ∧ bitsN w 12 3 = 0) fun s b w len _ =>
    s.seqRetire k (bitsN w 7 5) (b.pc + BitVec.ofNat 32 len) ((b.reg (bitsN w 15 5) + immI w) &&& 0xFFFFFFFE) := by
  refine rvdoes_of ?_
  rintro s w len ue ⟨hop, hcode⟩
  simp only [State.seqWord, hop, Nat.reduceEqDiff, if_pos hcode, if_false, if_true]

/-- Every branch code but 2 and 3 decides its branch (R199). -/
theorem branchTaken_decides {f3 : Nat} (hlt : f3 < 8) (h2 : f3 ≠ 2) (h3 : f3 ≠ 3) (a c : BitVec 32) : ∃ taken, branchTaken f3 a c = some taken := by
  have hcodes : f3 = 0 ∨ f3 = 1 ∨ f3 = 4 ∨ f3 = 5 ∨ f3 = 6 ∨ f3 = 7 := by omega
  rcases hcodes with rfl | rfl | rfl | rfl | rfl | rfl <;> exact ⟨_, rfl⟩

/-- A branch goes to its target if it is taken, else behind its word (R199). -/
theorem branch_does (t k : Nat) : RvDoes t k (fun w => w % 128 = 0x63 ∧ bitsN w 12 3 ≠ 2 ∧ bitsN w 12 3 ≠ 3) fun s b w len _ =>
    s.seqRetire k 0 0 (if (branchTaken (bitsN w 12 3) (b.reg (bitsN w 15 5)) (b.reg (bitsN w 20 5))).getD false then b.pc + immB w
      else b.pc + BitVec.ofNat 32 len) := by
  refine rvdoes_of ?_
  rintro s w len ue ⟨hop, h2, h3⟩
  obtain ⟨taken, htaken⟩ := branchTaken_decides (f3 := bitsN w 12 3) (Nat.mod_lt _ (by decide)) h2 h3 ((s.site k).seq.bank.reg (bitsN w 15 5))
    ((s.site k).seq.bank.reg (bitsN w 20 5))
  simp only [State.seqWord, hop, Nat.reduceEqDiff, htaken, Option.getD_some, if_false, if_true]

/-! ## Loads, stores and `FENCE` (R199, R200, R205) -/

/-- A load is `seqLoad`'s, which reads what its context may (R200, R205). -/
theorem load_does (t k : Nat) : RvDoes t k (fun w => w % 128 = 0x03) fun s _ w len ue => s.seqLoad k w len ue := by
  refine rvdoes_of ?_
  intro s w len ue hop
  simp only [State.seqWord, hop, Nat.reduceEqDiff, if_false, if_true]

/-- A store is `seqStoreOp`'s, which writes what its context may (R200, R205). -/
theorem store_does (t k : Nat) : RvDoes t k (fun w => w % 128 = 0x23) fun s _ w len ue => s.seqStoreOp k w len ue := by
  refine rvdoes_of ?_
  intro s w len ue hop
  simp only [State.seqWord, hop, Nat.reduceEqDiff, if_false, if_true]

/-- `FENCE` goes on behind its word (R199). -/
theorem rvFence_does (t k : Nat) : RvDoes t k (fun w => w % 128 = 0x0F ∧ bitsN w 12 3 = 0) fun s b _ len _ =>
    s.seqRetire k 0 0 (b.pc + BitVec.ofNat 32 len) := by
  refine rvdoes_of ?_
  rintro s w len ue ⟨hop, hcode⟩
  simp only [State.seqWord, hop, Nat.reduceEqDiff, if_pos hcode, if_false, if_true]

/-! ## System instructions (R199, R201, R213) -/

/-- A word of the system opcode is `seqSystem`'s. -/
theorem seqWord_system {w : Nat} (hop : w % 128 = 0x73) (s : State) (k len : Nat) (ue : Bool) : s.seqWord k w len ue = s.seqSystem k w len ue := by
  simp only [State.seqWord, hop, Nat.reduceEqDiff, if_false, if_true]

/-- `ECALL` traps with cause 11 (R201). -/
theorem ecall_does (t k : Nat) : RvDoes t k (fun w => w = 0x73) fun s _ _ _ ue => s.seqTrap k 11 0 ue := by
  refine rvdoes_of ?_
  rintro s _ len ue rfl
  have hcode : bitsN 0x73 12 3 = 0 := by decide
  simp only [seqWord_system (w := 0x73) (by decide), State.seqSystem, hcode, Nat.reduceEqDiff, if_false, if_true]

/-- `EBREAK` traps with cause 3, or halts under a granted debug unlock (R201, R544). -/
theorem ebreak_does (t k : Nat) : RvDoes t k (fun w => w = 0x100073) fun s _ _ _ ue =>
    if bitAt s.sec.debug 1 = true then s.modSeq k fun q => { q with halted := true } else s.seqTrap k 3 (s.site k).seq.bank.pc ue := by
  refine rvdoes_of ?_
  rintro s _ len ue rfl
  have hcode : bitsN 0x100073 12 3 = 0 := by decide
  simp only [seqWord_system (w := 0x100073) (by decide), State.seqSystem, hcode, Nat.reduceEqDiff, if_false, if_true]

/-- `MRET` goes on at `mepc`; `MIE` takes the value of `MPIE`, which becomes 1 (R199). -/
theorem mret_does (t k : Nat) : RvDoes t k (fun w => w = 0x30200073) fun s _ _ _ _ =>
    (s.seqRetire k 0 0 (s.site k).seq.mepc).modSeq k fun q => { q with mstatus := BitVec.ofNat 32 (8 * bitsN q.mstatus.toNat 7 1 + 128) } := by
  refine rvdoes_of ?_
  rintro s _ len ue rfl
  have hcode : bitsN 0x30200073 12 3 = 0 := by decide
  simp only [seqWord_system (w := 0x30200073) (by decide), State.seqSystem, hcode, Nat.reduceEqDiff, if_false, if_true]

/-- `WFI` only goes on, which is the model's (log 23). -/
theorem wfi_does (t k : Nat) : RvDoes t k (fun w => w = 0x10500073) fun s b _ len _ => s.seqRetire k 0 0 (b.pc + BitVec.ofNat 32 len) := by
  refine rvdoes_of ?_
  rintro s _ len ue rfl
  have hcode : bitsN 0x10500073 12 3 = 0 := by decide
  simp only [seqWord_system (w := 0x10500073) (by decide), State.seqSystem, hcode, Nat.reduceEqDiff, if_false, if_true]

/-- A Zicsr instruction is `seqCsr`'s (R213). -/
theorem csr_does (t k : Nat) : RvDoes t k (fun w => w % 128 = 0x73 ∧ bitsN w 12 3 ≠ 0 ∧ bitsN w 12 3 ≠ 4) fun s _ w len ue =>
    s.seqCsr k w len ue := by
  refine rvdoes_of ?_
  rintro s w len ue ⟨hop, hzero, hfour⟩
  simp only [seqWord_system hop, State.seqSystem, if_neg hzero, if_neg hfour]

/-- Settles O30: each instruction has its effect, one lemma per form, and the two fetches that find none trap. -/
theorem seqInstructionActs : Obligations.SeqInstructionActs := by
  unfold Obligations.SeqInstructionActs
  exact ⟨opImm_does, shiftImm_does, opReg_does, mulDiv_does, lui_does, auipc_does, jal_does, jalr_does, branch_does, load_does, store_does, rvFence_does,
    ecall_does, ebreak_does, mret_does, wfi_does, csr_does, seqInstruction_bad_does, seqInstruction_fault_does⟩

end Sys2Proof.Machine
end
section
/-! PROOFS. The instructions that send and receive (06 R201, R206, R209, R211, R218, R219, R225; 07 R247; 10 R298, R299): `X.SEND`, `X.TRYSEND`,
`X.DONE`, `X.RECV` and `X.RELEASE`. -/

namespace Sys2Proof.Machine

/-! ## `X.SEND` (R211, R218, R225) -/

/-- A send whose check fails returns its status at once (R211). -/
theorem xSend_refused_does (t k code : Nat) : XDoes t k .send (.xSend t k)
    (fun s c => s.sendChecks k (bitsN c.x.a.toNat 0 5) c.x = some code) fun s c =>
    s.xRetire k c (BitVec.ofNat 32 code) (s.modSeq k fun q => { q with lastSend := code }) := by
  refine xdoes_done (fun _ => rfl) ?_
  intro s c hchecks
  simp only [xSend, hchecks, State.sendReturn]

/-- A send with its credits leaves and returns 0 (R211, R218). -/
theorem xSend_leaves_does (t k : Nat) (bs : List Byte) (s1 s2 : State) : XDoes t k .send (.xSend t k)
    (fun s c => ((s.site k).chan (bitsN c.x.a.toNat 0 5)).txSpill = false ∧ s.sendChecks k (bitsN c.x.a.toNat 0 5) c.x = none ∧
      s.payload k c.x = (bs, s1) ∧ (s1.site k).st ≠ .vigil ∧ s1.sendTry k (bitsN c.x.a.toNat 0 5) bs = .inl s2) fun s c =>
    s.xRetire k c 0 (s2.modSeq k fun q => { q with lastSend := 0 }) := by
  refine xdoes_done (fun _ => rfl) ?_
  rintro s c ⟨hspill, hchecks, hpayload, htile, hleft⟩
  simp only [xSend, hchecks, hpayload, hspill, if_neg htile, hleft, Bool.false_eq_true, if_false]
  rfl

/-- A send without its credits waits for them (R218, R247). -/
theorem xSend_waits_does (t k : Nat) (bs : List Byte) (s1 : State) : XDoes t k .send (.xSend t k)
    (fun s c => ((s.site k).chan (bitsN c.x.a.toNat 0 5)).txSpill = false ∧ s.sendChecks k (bitsN c.x.a.toNat 0 5) c.x = none ∧
      s.payload k c.x = (bs, s1) ∧ (s1.site k).st ≠ .vigil ∧ s1.sendTry k (bitsN c.x.a.toNat 0 5) bs = .inr true ∧
      (s.site k).seq.bank.wait = none) fun s c =>
    s.xWait k c .send (bitsN c.x.a.toNat 0 5) := by
  refine xdoes_block (fun _ => rfl) (fun _ _ ⟨_, _, _, _, _, hfree⟩ => hfree) ?_
  rintro s c ⟨hspill, hchecks, hpayload, htile, hshort, -⟩
  simp only [xSend, hchecks, hpayload, hspill, if_neg htile, hshort, Bool.false_eq_true, if_false]

/-- A send whose spill deposit is acknowledged has left, and the spill is counted and reported (R225). -/
theorem xSend_spilled_does (t k : Nat) (bs : List Byte) (s1 : State) : XDoes t k .send (.xSend t k)
    (fun s c => ((s.site k).chan (bitsN c.x.a.toNat 0 5)).txSpill = true ∧ s.sendChecks k (bitsN c.x.a.toNat 0 5) c.x = none ∧
      s.payload k c.x = (bs, s1) ∧ ((s.site k).chan (bitsN c.x.a.toNat 0 5)).txUnacked = 0) fun s c =>
    let slot := bitsN c.x.a.toNat 0 5
    let s2 := (s1.sendLeft k slot (s1.sendMsg k slot bs)).modSite k fun y => y.modChan slot fun c =>
      { c with txSpill := false, txSpills := satAdd 255 c.txSpills 1 }
    s.xRetire k c 0 ((s2.report 0x0107 2 (s2.partField k) (s2.tileAt k + 8192 * slot) []).modSeq k fun q => { q with lastSend := 0 }) := by
  refine xdoes_done (fun _ => rfl) ?_
  rintro s c ⟨hspill, hchecks, hpayload, hacked⟩
  simp only [xSend, hchecks, hpayload, hspill, hacked, if_true]
  rfl

/-- A Vigil site sends nothing: its send signs the message, counts it and returns 0 (R298, R299). -/
theorem xSend_vigil_does (t k : Nat) (bs : List Byte) (s1 : State) : XDoes t k .send (.xSend t k)
    (fun s c => ((s.site k).chan (bitsN c.x.a.toNat 0 5)).txSpill = false ∧ s.sendChecks k (bitsN c.x.a.toNat 0 5) c.x = none ∧
      s.payload k c.x = (bs, s1) ∧ (s1.site k).st = .vigil ∧
      ¬ ((s1.site k).cfg (chanUnit (bitsN c.x.a.toNat 0 5)) 129 1 = 0 ∧ (s1.site k).cfg (chanUnit (bitsN c.x.a.toNat 0 5)) 176 11 = 0)) fun s c =>
    let slot := bitsN c.x.a.toNat 0 5
    s.xRetire k c 0 ((s1.sendLeft k slot (s1.sendMsg k slot bs)).modSeq k fun q => { q with lastSend := 0 }) := by
  refine xdoes_done (fun _ => rfl) ?_
  rintro s c ⟨hspill, hchecks, hpayload, hvigil, hmessage⟩
  simp only [xSend, hchecks, hpayload, hspill, hvigil, if_neg hmessage, Bool.false_eq_true, if_false, if_true]
  rfl

/-! ## `X.TRYSEND` (R211, R298, R299) -/

/-- What the forward stream carries of a returned status is the status itself, on every shadow (R299). -/
theorem forward_status (s : State) (k code : Nat) :
    s.forward k (.status code) = (s.shadows k).foldl (fun s v => s.modSite v fun y => { y with fwdTry := y.fwdTry ++ [code] }) s := rfl

/-- A try whose check fails returns its status, which its shadows are told (R211, R299). -/
theorem xTrysend_refused_does (t k code : Nat) : XDoes t k .trysend (.xTrysend t k)
    (fun s c => s.sendChecks k (bitsN c.x.a.toNat 0 5) c.x = some code) fun s c =>
    s.xRetire k c (BitVec.ofNat 32 code) (((s.shadows k).foldl (fun s v => s.modSite v fun y => { y with fwdTry := y.fwdTry ++ [code] }) s).modSeq k
      fun q => { q with lastSend := code }) := by
  refine xdoes_done (fun _ => rfl) ?_
  intro s c hchecks
  simp only [xTrysend, hchecks, State.sendReturn, forward_status]

/-- A try with its credits leaves and returns 0 (R211, R299). -/
theorem xTrysend_leaves_does (t k : Nat) (bs : List Byte) (s1 s2 : State) : XDoes t k .trysend (.xTrysend t k)
    (fun s c => s.sendChecks k (bitsN c.x.a.toNat 0 5) c.x = none ∧ s.payload k c.x = (bs, s1) ∧ (s1.site k).st ≠ .vigil ∧
      s1.sendTry k (bitsN c.x.a.toNat 0 5) bs = .inl s2) fun s c =>
    s.xRetire k c 0 (((s2.shadows k).foldl (fun s v => s.modSite v fun y => { y with fwdTry := y.fwdTry ++ [0] }) s2).modSeq k fun q =>
      { q with lastSend := 0 }) := by
  refine xdoes_done (fun _ => rfl) ?_
  rintro s c ⟨hchecks, hpayload, htile, hleft⟩
  simp only [xTrysend, hchecks, hpayload, if_neg htile, hleft, forward_status]
  rfl

/-- A try without its credits returns 4 at once (R211, R299). -/
theorem xTrysend_short_does (t k : Nat) (bs : List Byte) (s1 : State) : XDoes t k .trysend (.xTrysend t k)
    (fun s c => s.sendChecks k (bitsN c.x.a.toNat 0 5) c.x = none ∧ s.payload k c.x = (bs, s1) ∧ (s1.site k).st ≠ .vigil ∧
      s1.sendTry k (bitsN c.x.a.toNat 0 5) bs = .inr true) fun s c =>
    s.xRetire k c 4 (((s1.shadows k).foldl (fun s v => s.modSite v fun y => { y with fwdTry := y.fwdTry ++ [4] }) s1).modSeq k fun q =>
      { q with lastSend := 4 }) := by
  refine xdoes_done (fun _ => rfl) ?_
  rintro s c ⟨hchecks, hpayload, htile, hshort⟩
  simp only [xTrysend, hchecks, hpayload, if_neg htile, hshort, forward_status]
  rfl

/-- A Vigil site's try sends nothing and returns the status that its target's returned (R299). -/
theorem xTrysend_vigil_does (t k : Nat) (bs : List Byte) (s1 : State) (code : Nat) (rest : List Nat) : XDoes t k .trysend (.xTrysend t k)
    (fun s c => s.sendChecks k (bitsN c.x.a.toNat 0 5) c.x = none ∧ s.payload k c.x = (bs, s1) ∧ (s1.site k).st = .vigil ∧
      fwdStatus (s1.site k).fwdTry = code :: rest ∧ code ≠ 0) fun s c =>
    s.xRetire k c (BitVec.ofNat 32 code) ((s1.modSite k fun y => { y with fwdTry := rest }).modSeq k fun q => { q with lastSend := code }) := by
  refine xdoes_done (fun _ => rfl) ?_
  rintro s c ⟨hchecks, hpayload, hvigil, hstatus, hfailed⟩
  simp only [xTrysend, hchecks, hpayload, hvigil, hstatus, if_pos hfailed, if_true, State.sendReturn]

/-- Settles O31: each send has its effect, one lemma per instruction and branch. -/
theorem sendRowsAct : Obligations.SendRowsAct := by
  unfold Obligations.SendRowsAct
  exact ⟨xSend_refused_does, xSend_leaves_does, xSend_waits_does, xSend_spilled_does, xSend_vigil_does, xTrysend_refused_does, xTrysend_leaves_does,
    xTrysend_short_does, xTrysend_vigil_does⟩

/-! ## Receiving (R201, R206, R209, R219) -/

/-- `X.DONE` ends the handler and completes the message of its channel (R206, R219). -/
theorem xDone_ends_does (t k i : Nat) : XDoes t k .done (.xDone t k) (fun _ c => c.x.ctx = i + 1) fun s _ =>
    (((s.completeMsg k i).modSeq k fun q => { q with hand := {}, ctx := 0 })).modSeq k fun q => { q with minstret := q.minstret + 1, fast := false } := by
  refine xdoes_of (fun _ => rfl) ?_
  intro s c _ hhandler
  simp only [xDone, hhandler, State.xApply]

/-- `X.DONE` of the main program is illegal (R209). -/
theorem xDone_illegal_does (t k : Nat) : XDoes t k .done (.xDone t k) (fun _ c => c.x.ctx = 0) fun s c => s.xIllegal k c := by
  refine xdoes_illegal (fun _ => rfl) ?_
  intro s c hmain
  simp only [xDone, hmain]

/-- `X.RECV` takes the next message of a polled channel (R209, R219). -/
theorem xRecv_takes_does (t k : Nat) (r : Taken) (s1 : State) : XDoes t k .recv (.xRecv t k)
    (fun s c => c.x.ctx = 0 ∧ (s.site k).cfg (chanUnit (bitsN c.x.a.toNat 0 5)) 2 1 = 0 ∧
      s.takeMsg k (bitsN c.x.a.toNat 0 5) = some (r, s1)) fun s c =>
    s.xRetire k c (BitVec.ofNat 32 (0x100000 + r.addr)) (s1.modSeq k fun q => { q with rlen := BitVec.ofNat 32 r.msg.payload.length }) := by
  refine xdoes_done (fun _ => rfl) ?_
  rintro s c ⟨hmain, hpolled, htake⟩
  simp only [xRecv, hmain, hpolled, htake, ne_eq, not_true_eq_false, zero_ne_one, if_false]

/-- `X.RECV` waits where there is no message for it (R209, R247). -/
theorem xRecv_waits_does (t k : Nat) : XDoes t k .recv (.xRecv t k)
    (fun s c => c.x.ctx = 0 ∧ (s.site k).seq.bank.wait = none ∧
      ((s.site k).cfg (chanUnit (bitsN c.x.a.toNat 0 5)) 2 1 = 1 ∨ s.takeMsg k (bitsN c.x.a.toNat 0 5) = none)) fun s c =>
    s.xWait k c .recv (bitsN c.x.a.toNat 0 5) := by
  refine xdoes_block (fun _ => rfl) (fun _ _ ⟨_, hfree, _⟩ => hfree) ?_
  rintro s c ⟨hmain, -, hdispatches | hnone⟩
  · simp only [xRecv, hmain, hdispatches, ne_eq, not_true_eq_false, if_false, if_true]
  · simp only [xRecv, hmain, hnone, ne_eq, not_true_eq_false, if_false, ite_self]

/-- `X.RECV` in a handler is illegal (R209). -/
theorem xRecv_illegal_does (t k : Nat) : XDoes t k .recv (.xRecv t k) (fun _ c => c.x.ctx ≠ 0) fun s c => s.xIllegal k c := by
  refine xdoes_illegal (fun _ => rfl) ?_
  intro s c hhandler
  rw [xRecv, if_pos hhandler]

/-- `X.RELEASE` completes the message that its channel holds (R209, R219). -/
theorem xRelease_does (t k : Nat) : XDoes t k .release (.xRelease t k) (fun _ c => c.x.ctx = 0) fun s c =>
    s.xRetire k c 0 (s.completeMsg k (bitsN c.x.a.toNat 0 5)) := by
  refine xdoes_done (fun _ => rfl) ?_
  intro s c hmain
  rw [xRelease, if_neg (not_not_intro hmain)]

/-- `X.RELEASE` in a handler is illegal (R209). -/
theorem xRelease_illegal_does (t k : Nat) : XDoes t k .release (.xRelease t k) (fun _ c => c.x.ctx ≠ 0) fun s c => s.xIllegal k c := by
  refine xdoes_illegal (fun _ => rfl) ?_
  intro s c hhandler
  rw [xRelease, if_pos hhandler]

/-- Settles O32: each instruction has its effect, one lemma per instruction and branch. -/
theorem receiveRowsAct : Obligations.ReceiveRowsAct := by
  unfold Obligations.ReceiveRowsAct
  exact ⟨xDone_ends_does, xDone_illegal_does, xRecv_takes_does, xRecv_waits_does, xRecv_illegal_does, xRelease_does, xRelease_illegal_does⟩

end Sys2Proof.Machine
end
section
/-! PROOFS. Signals, barriers, fences, semaphores, and the events of waiting (06 R201, R203; 07 R231 to R233, R238, R241, R243, R246 to R248). -/

namespace Sys2Proof.Machine

/-! ## Signals (R231 to R233) -/

/-- `X.SIGRAISE` raises the signal of its own site (R231). -/
theorem xSigraise_does (t k : Nat) : XDoes t k .sigraise (.xSigraise t k) (fun _ _ => True) fun s c =>
    s.xRetire k c 0 (s.raise k (bitsN c.x.a.toNat 0 6) c.x.b.toNat (0x100 + c.x.ctx)) :=
  xdoes_done (fun _ => rfl) fun _ _ _ => rfl

/-- `X.SIGWAIT` retires once its signal has reached its value (R232). -/
theorem xSigwait_retires_does (t k : Nat) : XDoes t k .sigwait (.xSigwait t k)
    (fun s c => c.x.b ≤ (s.site k).signal (bitsN c.x.a.toNat 0 6)) fun s c => s.xRetire k c 0 s :=
  xdoes_done (fun _ => rfl) fun _ _ hreached => if_pos hreached

/-- `X.SIGWAIT` waits while its signal is below its value (R232, R247). -/
theorem xSigwait_waits_does (t k : Nat) : XDoes t k .sigwait (.xSigwait t k)
    (fun s c => (s.site k).signal (bitsN c.x.a.toNat 0 6) < c.x.b ∧ (s.site k).seq.bank.wait = none) fun s c =>
    s.xWait k c .sigwait (bitsN c.x.a.toNat 0 6) :=
  xdoes_block (fun _ => rfl) (fun _ _ hcond => hcond.2) fun _ _ hcond => if_neg (BitVec.not_le.mpr hcond.1)

/-- `X.SIGWAITL` retires once its signal has reached its value (R232). -/
theorem xSigwaitl_retires_does (t k : Nat) : XDoes t k .sigwaitl (.xSigwaitl t k)
    (fun s c => c.x.b ≤ (s.site k).signal (bitsN c.x.a.toNat 0 6)) fun s c => s.xRetire k c 0 s :=
  xdoes_done (fun _ => rfl) fun _ _ hreached => if_pos hreached

/-- `X.SIGWAITL` waits while its signal is below its value, and its wait is long (R232, R248). -/
theorem xSigwaitl_waits_does (t k : Nat) : XDoes t k .sigwaitl (.xSigwaitl t k)
    (fun s c => (s.site k).signal (bitsN c.x.a.toNat 0 6) < c.x.b ∧ (s.site k).seq.bank.wait = none) fun s c =>
    s.xWait k c .sigwaitl (bitsN c.x.a.toNat 0 6) :=
  xdoes_block (fun _ => rfl) (fun _ _ hcond => hcond.2) fun _ _ hcond => if_neg (BitVec.not_le.mpr hcond.1)

/-- `X.SIGSUB` takes its value from its signal (R232). -/
theorem xSigsub_takes_does (t k : Nat) : XDoes t k .sigsub (.xSigsub t k)
    (fun s c => c.x.b ≤ (s.site k).signal (bitsN c.x.a.toNat 0 6)) fun s c =>
    s.xRetire k c 0 (s.modSite k fun y =>
      { y with signals := Tbl.set 0 (bitsN c.x.a.toNat 0 6) ((s.site k).signal (bitsN c.x.a.toNat 0 6) - c.x.b) y.signals }) :=
  xdoes_done (fun _ => rfl) fun _ _ henough => if_neg (BitVec.not_lt.mpr henough)

/-- `X.SIGSUB` of more than its signal holds leaves the signal and is its range fault (R233). -/
theorem xSigsub_range_does (t k : Nat) : XDoes t k .sigsub (.xSigsub t k)
    (fun s c => (s.site k).signal (bitsN c.x.a.toNat 0 6) < c.x.b) fun s c =>
    s.xRetire k c 0 (s.signalRange k (bitsN c.x.a.toNat 0 6) (0x100 + c.x.ctx)) :=
  xdoes_done (fun _ => rfl) fun _ _ hshort => if_pos hshort

/-- `X.SIGREAD` reads its signal (R231). -/
theorem xSigread_does (t k : Nat) : XDoes t k .sigread (.xSigread t k) (fun _ _ => True) fun s c =>
    s.xRetire k c ((s.site k).signal (bitsN c.x.a.toNat 0 6)) s :=
  xdoes_done (fun _ => rfl) fun _ _ _ => rfl

/-! ## Barriers (R241, R243) -/

/-- A member's arrival is counted and signed, and goes up the tree from a tile's own site only (R241, R243). -/
theorem xBarrive_arrives_does (t k : Nat) (d : BarDef) : XDoes t k .barrive (.xBarrive t k)
    (fun s c => s.barrier k (bitsN c.x.a.toNat 0 6) = some d ∧
      ((s.site k).bar (bitsN c.x.a.toNat 0 6)).a = ((s.site k).bar (bitsN c.x.a.toNat 0 6)).c) fun s c =>
    let n := bitsN c.x.a.toNat 0 6
    let b := (s.site k).bar n
    let s1 := s.modSite k fun y =>
      { (y.sign 0x0500 (leBytes 2 d.root ++ leBytes 1 n ++ leBytes 4 1)) with bars := Tbl.set {} n { b with a := b.a + 1 } y.bars }
    s.xRetire k c 0 (if (s.site k).st = .vigil then s1 else s1.inject
      { destDev := s1.hub.devId, destKind := .tile, destIdx := d.root, srcDev := s1.hub.devId, srcKind := .tile, srcIdx := s1.tileAt k,
        kind := .barrier, cls := 0, srcPart := s1.partField k % 16, arg := BitVec.ofNat 32 n }) := by
  refine xdoes_done (fun _ => rfl) ?_
  rintro s c ⟨hmember, hreleased⟩
  simp only [xBarrive, hmember, if_neg (not_not_intro hreleased)]

/-- `X.BARRIVE` at a barrier of which the tile is no member is illegal (R201, R241). -/
theorem xBarrive_illegal_does (t k : Nat) : XDoes t k .barrive (.xBarrive t k)
    (fun s c => s.barrier k (bitsN c.x.a.toNat 0 6) = none) fun s c => s.xIllegal k c := by
  refine xdoes_illegal (fun _ => rfl) ?_
  intro s c hstranger
  simp only [xBarrive, hstranger]

/-- `X.BARRIVE` waits for the release of its last arrival (R241, R247). -/
theorem xBarrive_waits_does (t k : Nat) (d : BarDef) : XDoes t k .barrive (.xBarrive t k)
    (fun s c => s.barrier k (bitsN c.x.a.toNat 0 6) = some d ∧ (s.site k).seq.bank.wait = none ∧
      ((s.site k).bar (bitsN c.x.a.toNat 0 6)).a ≠ ((s.site k).bar (bitsN c.x.a.toNat 0 6)).c) fun s c =>
    s.xWait k c .barrive (bitsN c.x.a.toNat 0 6) := by
  refine xdoes_block (fun _ => rfl) (fun _ _ ⟨_, hfree, _⟩ => hfree) ?_
  rintro s c ⟨hmember, -, harrived⟩
  simp only [xBarrive, hmember, if_pos harrived]

/-- `X.BARWAIT` retires once its barrier is released (R241). -/
theorem xBarwait_retires_does (t k : Nat) (d : BarDef) : XDoes t k .barwait (.xBarwait t k)
    (fun s c => s.barrier k (bitsN c.x.a.toNat 0 6) = some d ∧
      ((s.site k).bar (bitsN c.x.a.toNat 0 6)).c = ((s.site k).bar (bitsN c.x.a.toNat 0 6)).a) fun s c => s.xRetire k c 0 s := by
  refine xdoes_done (fun _ => rfl) ?_
  rintro s c ⟨hmember, hreleased⟩
  simp only [xBarwait, hmember, if_pos hreleased]

/-- `X.BARWAIT` waits for the release of its barrier (R241, R247). -/
theorem xBarwait_waits_does (t k : Nat) (d : BarDef) : XDoes t k .barwait (.xBarwait t k)
    (fun s c => s.barrier k (bitsN c.x.a.toNat 0 6) = some d ∧ (s.site k).seq.bank.wait = none ∧
      ((s.site k).bar (bitsN c.x.a.toNat 0 6)).c ≠ ((s.site k).bar (bitsN c.x.a.toNat 0 6)).a) fun s c =>
    s.xWait k c .barwait (bitsN c.x.a.toNat 0 6) := by
  refine xdoes_block (fun _ => rfl) (fun _ _ ⟨_, hfree, _⟩ => hfree) ?_
  rintro s c ⟨hmember, -, hclosed⟩
  simp only [xBarwait, hmember, if_neg hclosed]

/-- `X.BARWAIT` at a barrier of which the tile is no member is illegal (R201, R241). -/
theorem xBarwait_illegal_does (t k : Nat) : XDoes t k .barwait (.xBarwait t k)
    (fun s c => s.barrier k (bitsN c.x.a.toNat 0 6) = none) fun s c => s.xIllegal k c := by
  refine xdoes_illegal (fun _ => rfl) ?_
  intro s c hstranger
  simp only [xBarwait, hstranger]

/-! ## `X.FENCE` (R238) -/

/-- Nothing that a site's sequencer has sent or put is out (R238). -/
def Site.Settled (y : Site) : Prop := y.seq.unacked = 0 ∧ ∀ q i, OutRef.inj q i ∈ y.outputs seqUnit → (y.inPort q i).outq = []

/-- `X.FENCE` retires when nothing is out (R238). -/
theorem xFence_settled {s : State} {k : Nat} {x : XArgs} (h : (s.site k).Settled) : xFence s k x = .done 0 s := by
  obtain ⟨hacked, hempty⟩ := h
  refine if_pos (Bool.and_eq_true_iff.mpr ⟨beq_iff_eq.mpr hacked, List.all_eq_true.mpr fun o ho => ?_⟩)
  cases o with
  | inj q i => exact List.isEmpty_iff.mpr (hempty q i ho)
  | stream c => rfl

/-- `X.FENCE` waits while something is out (R238, R247). -/
theorem xFence_unsettled {s : State} {k : Nat} {x : XArgs} (h : ¬ (s.site k).Settled) : xFence s k x = .block .fence 0 := by
  refine if_neg fun hclear => h ?_
  obtain ⟨hacked, hempty⟩ := Bool.and_eq_true_iff.mp hclear
  exact ⟨beq_iff_eq.mp hacked, fun q i ho => List.isEmpty_iff.mp (List.all_eq_true.mp hempty _ ho)⟩

/-- A fence of a site that has nothing out retires (R238). -/
theorem xFence_retires_does (t k : Nat) : XDoes t k .fence (.xFence t k)
    (fun s _ => (s.site k).seq.unacked = 0 ∧ ∀ q i, OutRef.inj q i ∈ (s.site k).outputs seqUnit → ((s.site k).inPort q i).outq = []) fun s c =>
    s.xRetire k c 0 s :=
  xdoes_done (fun _ => rfl) fun _ _ hsettled => xFence_settled hsettled

/-- A fence waits for the acknowledgements of sends and for the elements put (R238, R247). -/
theorem xFence_waits_does (t k : Nat) : XDoes t k .fence (.xFence t k)
    (fun s _ => (s.site k).seq.bank.wait = none ∧ ((s.site k).seq.unacked ≠ 0 ∨
      ∃ q i, OutRef.inj q i ∈ (s.site k).outputs seqUnit ∧ ((s.site k).inPort q i).outq ≠ [])) fun s c => s.xWait k c .fence 0 := by
  refine xdoes_block (fun _ => rfl) (fun _ _ hcond => hcond.1) ?_
  rintro s c ⟨-, hout⟩
  refine xFence_unsettled ?_
  rintro ⟨hacked, hempty⟩
  rcases hout with hunacked | ⟨q, i, hport, hqueued⟩
  · exact hunacked hacked
  · exact hqueued (hempty q i hport)

/-! ## Semaphores (R246) -/

/-- `X.SEMSET` sets its flag (R246). -/
theorem xSemset_does (t k : Nat) : XDoes t k .semset (.xSemset t k) (fun s _ => (s.site k).seq.compat = true) fun s c =>
    s.xRetire k c 0 (s.modSite k fun y => y.setSem (bitsN c.x.a.toNat 0 4) true) :=
  xdoes_done (fun _ => rfl) fun _ _ hcompat => if_pos hcompat

/-- `X.SEMCLR` clears its flag (R246). -/
theorem xSemclr_does (t k : Nat) : XDoes t k .semclr (.xSemclr t k) (fun s _ => (s.site k).seq.compat = true) fun s c =>
    s.xRetire k c 0 (s.modSite k fun y => y.setSem (bitsN c.x.a.toNat 0 4) false) :=
  xdoes_done (fun _ => rfl) fun _ _ hcompat => if_pos hcompat

/-- `X.SEMWAIT` clears its flag once it is set (R246). -/
theorem xSemwait_takes_does (t k : Nat) : XDoes t k .semwait (.xSemwait t k)
    (fun s c => (s.site k).seq.compat = true ∧ bitAt (s.site k).sem (bitsN c.x.a.toNat 0 4) = true) fun s c =>
    s.xRetire k c 0 (s.modSite k fun y => y.setSem (bitsN c.x.a.toNat 0 4) false) :=
  xdoes_done (fun _ => rfl) fun _ _ ⟨hcompat, hset⟩ => (if_pos hcompat).trans (if_pos hset)

/-- `X.SEMWAIT` waits while its flag is clear (R246, R247). -/
theorem xSemwait_waits_does (t k : Nat) : XDoes t k .semwait (.xSemwait t k)
    (fun s c => (s.site k).seq.compat = true ∧ (s.site k).seq.bank.wait = none ∧ bitAt (s.site k).sem (bitsN c.x.a.toNat 0 4) = false) fun s c =>
    s.xWait k c .semwait (bitsN c.x.a.toNat 0 4) :=
  xdoes_block (fun _ => rfl) (fun _ _ ⟨_, hfree, _⟩ => hfree) fun _ _ ⟨hcompat, _, hclear⟩ =>
    (if_pos hcompat).trans (if_neg (Bool.eq_false_iff.mp hclear))

/-- `X.SEMSET` without `COMPAT` is illegal (R246). -/
theorem xSemset_illegal_does (t k : Nat) : XDoes t k .semset (.xSemset t k) (fun s _ => (s.site k).seq.compat = false) fun s c => s.xIllegal k c :=
  xdoes_illegal (fun _ => rfl) fun _ _ hplain => if_neg (Bool.eq_false_iff.mp hplain)

/-- `X.SEMCLR` without `COMPAT` is illegal (R246). -/
theorem xSemclr_illegal_does (t k : Nat) : XDoes t k .semclr (.xSemclr t k) (fun s _ => (s.site k).seq.compat = false) fun s c => s.xIllegal k c :=
  xdoes_illegal (fun _ => rfl) fun _ _ hplain => if_neg (Bool.eq_false_iff.mp hplain)

/-- `X.SEMWAIT` without `COMPAT` is illegal (R246). -/
theorem xSemwait_illegal_does (t k : Nat) : XDoes t k .semwait (.xSemwait t k) (fun s _ => (s.site k).seq.compat = false) fun s c =>
    s.xIllegal k c :=
  xdoes_illegal (fun _ => rfl) fun _ _ hplain => if_neg (Bool.eq_false_iff.mp hplain)

/-- Settles O34: each instruction has its effect, one lemma per instruction and branch. -/
theorem signalRowsAct : Obligations.SignalRowsAct := by
  unfold Obligations.SignalRowsAct
  exact ⟨xSigraise_does, xSigwait_retires_does, xSigwait_waits_does, xSigwaitl_retires_does, xSigwaitl_waits_does, xSigsub_takes_does,
    xSigsub_range_does, xSigread_does, xBarrive_arrives_does, xBarrive_illegal_does, xBarrive_waits_does, xBarwait_retires_does,
    xBarwait_waits_does, xBarwait_illegal_does, xFence_retires_does, xFence_waits_does, xSemset_does, xSemclr_does, xSemwait_takes_does,
    xSemwait_waits_does, xSemset_illegal_does, xSemclr_illegal_does, xSemwait_illegal_does⟩

/-! ## The events of waiting (R203, R247, R248) -/

/-- A wait whose instruction can retire ends with it, and the lender region wakes (R203, R247, R248). -/
theorem seqWaitWake_does (t k w len : Nat) (op : XOp) : Does t (.seqWaitWake t k)
    (fun s => s.seqRuns k = true ∧ (s.site k).seq.bank.wait.isSome = true ∧ (s.site k).fetch = .word w len ∧ xDecode w = some op ∧
      (xTry op s k ((s.site k).xArgs w)).goesOn = true) fun s =>
    (s.xApply k w false (xTry op s k ((s.site k).xArgs w))).lentExit (keyRegion k) := by
  rintro s ⟨hruns, hwaits, hfetch, hword, hready⟩
  have hwaiting : ¬ (¬ (s.adv t).seqRuns k = true ∨ ((s.adv t).site k).seq.bank.wait.isNone = true) := by
    rw [hruns, Option.isNone_eq_false_iff.mpr hwaits]
    decide
  show execSeqWaitWake t k s = _
  simp only [execSeqWaitWake, if_neg hwaiting, hfetch, hword, hready, if_true]

/-- A wait for a signal ends once the signal has reached its value (R203, R232). -/
theorem seqWaitWake_sigwait_does (t k w len : Nat) : Does t (.seqWaitWake t k)
    (fun s => s.seqRuns k = true ∧ (s.site k).seq.bank.wait.isSome = true ∧ (s.site k).fetch = .word w len ∧ xDecode w = some .sigwait ∧
      ((s.site k).xArgs w).b ≤ (s.site k).signal (bitsN ((s.site k).xArgs w).a.toNat 0 6)) fun s =>
    (s.seqRetire k (bitsN w 7 5) 0 ((s.site k).seq.bank.pc + 4)).lentExit (keyRegion k) := by
  rintro s ⟨hruns, hwaits, hfetch, hword, hreached⟩
  have hdone : xTry .sigwait (s.adv t) k (((s.adv t).site k).xArgs w) = .done 0 (s.adv t) := if_pos hreached
  have hready : (xTry .sigwait (s.adv t) k (((s.adv t).site k).xArgs w)).goesOn = true := by rw [hdone]; rfl
  have hwake := seqWaitWake_does t k w len .sigwait s ⟨hruns, hwaits, hfetch, hword, hready⟩
  simp only [hdone] at hwake
  exact hwake

/-- A waiting site enters the fast exit, and its region may become a lender (R247, R248). -/
theorem fastEnter_does (t k : Nat) : Does t (.fastEnter t k)
    (fun s => s.siteWorks k seqUnit = true ∧ (s.site k).seq.bank.wait.isSome = true) fun s =>
    (s.modSeq k fun q => { q with fast := true }).lentTry (keyRegion k) :=
  fun _ hwaits => congrArg Host.Outcome.next (if_pos hwaits)

/-- Waits strictly longer than the partition's threshold become long, and the region may become a lender (R248). -/
theorem longWaitThreshold_does (t k : Nat) : Does t (.longWaitThreshold t k) (fun _ => True) fun s =>
    let due := fun (since : Nat) => decide (since + (s.part (s.partField k)).longWaitUs * ftUs < s.now)
    (s.modSeq k fun q => { q with main := q.main.goLong due, hand := q.hand.goLong due }).lentTry (keyRegion k) := fun _ _ => rfl

/-- Settles O35: each event of waiting has its effect, one lemma per event. -/
theorem waitRowsAct : Obligations.WaitRowsAct := by
  unfold Obligations.WaitRowsAct
  exact ⟨seqWaitWake_does, seqWaitWake_sigwait_does, fastEnter_does, longWaitThreshold_does⟩

end Sys2Proof.Machine
end
section
/-! PROOFS. The rows of message channels (06 R204, R214 to R229; 11 R351, R368): dispatch, deposits, credits, spills and contributions. -/

namespace Sys2Proof.Machine

/-! ## Dispatch and deposits (R204, R219, R229) -/

/-- A handler starts with its message in its registers, and its region wakes if it is lent (R204, R229). -/
theorem handlerDispatch_does (t k i : Nat) (r : Taken) (s1 : State) : Does t (.handlerDispatch t k)
    (fun s => s.siteWorks k seqUnit = true ∧ s.mayRun k seqUnit = true ∧ (s.site k).seq.halted = false ∧ (s.site k).seq.hand.live = false ∧
      (s.site k).nextHandler = some i ∧ s.takeMsg k i = some (r, s1)) fun s =>
    let x := s.site k
    let sp := 0x100000 + x.cfg (chanUnit i) 64 20 + x.cfg (chanUnit i) 84 20
    let rs : Tbl (BitVec 32) := [(2, sp), (10, 0x100000 + r.addr), (11, r.msg.payload.length), (12, i), (13, r.a3), (14, r.a4)].foldl
      (fun t e => Tbl.set 0 e.1 (BitVec.ofNat 32 e.2) t) []
    (s1.modSeq k fun q => { q with
      ctx := i + 1, fast := false
      hand := { regs := rs, pc := BitVec.ofNat 32 (0x1BA000 + x.cfg (chanUnit i) 40 14), live := true } }).lentExit (keyRegion k) := by
  rintro s ⟨hworks, hmay, hgoes, hidle, hnext, htake⟩
  show execHandlerDispatch t k s = _
  simp only [execHandlerDispatch, hworks, hmay, hgoes, hidle, hnext, htake, Bool.false_eq_true, not_false_eq_true, and_self, if_true]

/-- A deposit lands in its ring, the messages that it completes become pending, and it is acknowledged (R219). -/
theorem depositReceive_does (t : Nat) (pkt : Packet) (k : Nat) : Does t (.depositReceive t pkt)
    (fun s => s.Reaches pkt k ∧ pkt.kind = .deposit ∧ (s.site k).cfg (chanUnit (pkt.arg.toNat % 32)) 0 2 = 1 ∧
      pkt.addr + (pkt.payload.length + 63) / 64 ≤ (s.site k).ringLines (pkt.arg.toNat % 32)) fun s =>
    let i := pkt.arg.toNat % 32
    let n := (pkt.payload.length + 63) / 64
    let s1 := s.sliceWrite k ((s.site k).ringBase i + 64 * pkt.addr) pkt.payload
    (s1.modSite k fun x =>
      (x.modChan i fun c => { c with present := ((List.range n).map (pkt.addr + ·) ++ c.present).dedup, marked := c.marked || pkt.ce }).notePending i
        s1.now).reply pkt .ok := by
  rintro s ⟨hreaches, hfits⟩
  show execDepositReceive t pkt s = _
  simp only [execDepositReceive, arrive_reaches hreaches, if_pos hfits]

/-- A contribution reaches the combiner of its channel (R222). -/
theorem contributionReceive_does (t : Nat) (pkt : Packet) (k : Nat) : Does t (.contributionReceive t pkt)
    (fun s => s.Reaches pkt k ∧ pkt.kind = .contrib ∧ (s.site k).cfg (chanUnit (pkt.arg.toNat % 32)) 0 2 = 3) fun s => s.cqArrive k pkt := by
  rintro s ⟨hreaches, hcombines⟩
  show execContributionReceive t pkt s = _
  simp only [execContributionReceive, arrive_reaches hreaches, if_pos hcombines]

/-! ## Credits (R219, R368) -/

/-- Credits that return within the grant are the sender's again (R219). -/
theorem channelCreditReceive_returns_does (t k i n : Nat) : Does t (.channelCreditReceive t k i n)
    (fun s => (s.router (routerOf k)).down = false ∧ i < 32 ∧ (s.site k).st = .tile ∧ (s.site k).cfg (chanUnit i) 128 2 = 1 ∧
      ((s.site k).chan i).txCredits + n ≤ (s.site k).cfg (chanUnit i) 176 11) fun s =>
    s.modSite k fun x => x.modChan i fun c => { c with txCredits := c.txCredits + n } := by
  rintro s ⟨hup, hslot, htile, hport, hgrant⟩
  show execChannelCreditReceive t k i n s = _
  simp only [execChannelCreditReceive, hup, if_pos (And.intro hslot (And.intro htile hport)), if_neg (Nat.not_lt.mpr hgrant), Bool.false_eq_true, if_false]

/-- Credits that return past the grant are a fault (R219). -/
theorem channelCreditReceive_overrun_does (t k i n : Nat) : Does t (.channelCreditReceive t k i n)
    (fun s => (s.router (routerOf k)).down = false ∧ i < 32 ∧ (s.site k).st = .tile ∧ (s.site k).cfg (chanUnit i) 128 2 = 1 ∧
      (s.site k).cfg (chanUnit i) 176 11 < ((s.site k).chan i).txCredits + n) fun s => s.configFault k (chanUnit i) 3 0x0203 := by
  rintro s ⟨hup, hslot, htile, hport, hover⟩
  show execChannelCreditReceive t k i n s = _
  simp only [execChannelCreditReceive, hup, if_pos (And.intro hslot (And.intro htile hport)), if_pos hover, Bool.false_eq_true, if_false]

/-- A router that is `DOWN` discards a credit and counts it (R368). -/
theorem channelCreditReceive_down_does (t k i n : Nat) : Does t (.channelCreditReceive t k i n)
    (fun s => (s.router (routerOf k)).down = true) fun s => s.rtrCount (routerOf k) 4 :=
  fun _ hdown => congrArg Host.Outcome.next (if_pos hdown)

/-! ## A stalled send (R225, R351) -/

/-- The pieces of a spill deposit carry its bytes, in packets of at most 512 (R351). -/
theorem depositChunks_carry (line : Nat) (bs : List Byte) (n : Nat) (hfits : bs.length ≤ 512 * n) :
    (depositChunks line bs n).flatMap (·.2) = bs ∧ ∀ e ∈ depositChunks line bs n, e.2.length ≤ 512 := by
  induction n generalizing line bs with
  | zero =>
    obtain rfl : bs = [] := List.eq_nil_of_length_eq_zero (Nat.le_zero.mp hfits)
    exact ⟨rfl, fun _ he => absurd he (List.not_mem_nil)⟩
  | succ n ih =>
    have hfirst : (bs.take 512).length ≤ 512 := List.length_take_le 512 bs
    by_cases hmore : 512 < bs.length
    · obtain ⟨hcarried, hsmall⟩ := ih (line + 8) (bs.drop 512) (by rw [List.length_drop]; omega)
      simp only [depositChunks, if_pos hmore, List.flatMap_cons, List.forall_mem_cons, hcarried, List.take_append_drop]
      exact ⟨trivial, hfirst, hsmall⟩
    · simp only [depositChunks, if_neg hmore, List.flatMap_cons, List.flatMap_nil, List.append_nil, List.forall_mem_singleton]
      exact ⟨List.take_of_length_le (Nat.not_lt.mp hmore), hfirst⟩

/-- A send that has waited its time for credits goes out as a spill deposit (R225). -/
theorem sendStallExpire_does (t k i : Nat) (b : Bank) (w : Wait) (ins : Nat) (s1 : State) : Does t (.sendStallExpire t k i)
    (fun s =>
      let x := s.site k
      let c := x.chan i
      let m := s.sendMsg k i (x.seqBytes (b.reg (bitsN ins 20 5)).toNat (bitsN (b.reg (bitsN ins 15 5)).toNat 16 16))
      let tl := x.cfg (chanUnit i) 176 11
      x.stalled i = some (b, w, ins) ∧ s.siteWorks k seqUnit = true ∧ s.mayRun k seqUnit = true ∧ x.seq.halted = false ∧
        c.txWait = true ∧ c.txSpill = false ∧ c.txUnacked = 0 ∧ tl ≠ 0 ∧
        c.txCredits < c.padLines tl m.lines + m.lines ∧
        w.since + (if x.cfg (chanUnit i) 192 16 = 0 then 100 else x.cfg (chanUnit i) 192 16) * ftUs ≤ s.now ∧
        s.requests (s.portPool k i) ((depositChunks 0 (hdrBytes m true ++ m.payload) (m.payload.length / 512 + 2)).map fun e =>
          s.portPacket k i .deposit e.1 e.2) = some s1) fun s =>
    let x := s.site k
    let m := s.sendMsg k i (x.seqBytes (b.reg (bitsN ins 20 5)).toNat (bitsN (b.reg (bitsN ins 15 5)).toNat 16 16))
    let n := (depositChunks 0 (hdrBytes m true ++ m.payload) (m.payload.length / 512 + 2)).length
    s1.modSite k fun x =>
      let x := x.modChan i fun c => { c with txSpill := true, txUnacked := c.txUnacked + n }
      { x with seq := { x.seq with unacked := x.seq.unacked + n } } := by
  rintro s ⟨hstalled, hworks, hmay, hgoes, hwaits, hfresh, hacked, hgrant, hshort, hdue, hasked⟩
  show execSendStallExpire t k i s = _
  simp only [execSendStallExpire, hstalled, hworks, hmay, hgoes, hwaits, hfresh, hacked, hgrant, hshort, hdue, hasked, Bool.false_eq_true, ne_eq,
    not_false_eq_true, and_self, if_true]

/-! ## A spill deposit (R225, R227, R351) -/

/-- What a spill deposit of the message `m` appends to the spill ring: the channel's undispatched messages, each with its pad, then `m` (R225). -/
def Site.spillEnts (x : Site) (i : Nat) (m : Msg) : List SpillEnt :=
  (x.ringUndispatched i).map (fun r =>
    { msg := { msgOf (x.ringBytes i r.2.1 (64 * r.2.2)) with chan := i, spilled := false }, pads := r.1, bytes := 64 * (r.1 + r.2.2) }) ++
    [{ msg := { m with chan := i, spilled := false }, bytes := 64 * m.lines }]

/-- The bytes that the append takes in the spill ring (R225, R227). -/
theorem spillEnts_bytes (x : Site) (i : Nat) (m : Msg) : ((x.spillEnts i m).map fun e => e.bytes).sum =
    ((x.ringUndispatched i).map fun r => 64 * (r.1 + r.2.2)).sum + 64 * m.lines := by
  simp only [Site.spillEnts, List.map_append, List.map_map, Function.comp_def, List.map_cons, List.map_nil, List.sum_append, List.sum_singleton]

/-- The state in which the undispatched messages of a channel and the message `m` of its spill deposit stand in the spill ring (R225). -/
def State.spillMoved (s : State) (k : Nat) (pkt : Packet) (m : Msg) : State :=
  let i := pkt.arg.toNat % 32
  let x := s.site k
  let c := x.chan i
  let n := ((x.ringUndispatched i).map fun r => r.1 + r.2.2).sum
  let gone := heldLines (x.ringLines i) ((c.rxRptr + c.curLines + c.moved) % max 1 (x.ringLines i)) n
  s.modSite k fun y =>
    let y := y.modChan i fun c =>
      { c with spillIn := [], marked := c.marked || pkt.ce, present := c.present.filter fun l => !gone.contains l
               rxRptr := if c.curLines = 0 then (c.rxRptr + n) % max 1 (x.ringLines i) else c.rxRptr
               moved := if c.curLines = 0 then 0 else c.moved + n }
    { y with spill := x.spill ++ x.spillEnts i m, seq := y.seq.addPending i m.seq s.now }

theorem spillMoved_spill (s : State) (k : Nat) (pkt : Packet) (m : Msg) :
    ((s.spillMoved k pkt m).site k).spill = (s.site k).spill ++ (s.site k).spillEnts (pkt.arg.toNat % 32) m := by
  simp only [State.spillMoved, modSite_same]

theorem spillMoved_seq (s : State) (k : Nat) (pkt : Packet) (m : Msg) :
    ((s.spillMoved k pkt m).site k).seq = (s.site k).seq.addPending (pkt.arg.toNat % 32) m.seq s.now := by
  simp only [State.spillMoved, modSite_same]
  rfl

section
variable {t k : Nat} {pkt : Packet} {s : State} (hreaches : (s.adv t).Reaches pkt k) (hkind : pkt.kind = .deposit)
  (hrole : ((s.adv t).site k).cfg (chanUnit (pkt.arg.toNat % 32)) 0 2 = 1)
include hreaches hkind hrole

/-- A spill deposit whose packets have all come fails or moves by the room that the spill ring has for it (R225, R227). -/
theorem spillDepositReceive_whole {bs : List Byte}
    (hwhole : spillWhole (Tbl.put pkt.addr pkt.payload (((s.adv t).site k).chan (pkt.arg.toNat % 32)).spillIn) = some bs) :
    exec (.spillDepositReceive t pkt) s = .next (
      let i := pkt.arg.toNat % 32
      let s := s.adv t
      let p := s.partField k
      if 2 ^ (if (s.chanRec k).spillLog2 = 0 then 20 else (s.chanRec k).spillLog2) < ((s.site k).spill.map fun e => e.bytes).sum +
          (((s.site k).ringUndispatched i).map fun r => 64 * (r.1 + r.2.2)).sum + 64 * (msgOf bs).lines then
        ((s.event 0x0202 p [(16, s.tileAt k), (8, i)]).report 0x0108 2 p (s.tileAt k + 8192 * i) []).hang p 0x0108 7 (siteId k)
      else ((s.spillMoved k pkt (msgOf bs)).creditBack k i (((s.site k).ringUndispatched i).map fun r => r.1 + r.2.2).sum (msgOf bs)).reply
        pkt .ok) := by
  have htaken : ¬ (pkt.kind ≠ .deposit ∨ ((s.adv t).site k).cfg (chanUnit (pkt.arg.toNat % 32)) 0 2 ≠ 1) := by
    rw [not_or]
    exact ⟨not_not_intro hkind, not_not_intro hrole⟩
  have hbytes := spillEnts_bytes ((s.adv t).site k) (pkt.arg.toNat % 32) (msgOf bs)
  unfold Site.spillEnts at hbytes
  show execSpillDepositReceive t pkt s = _
  simp only [execSpillDepositReceive, arrive_reaches hreaches, if_neg htaken, hwhole, Option.getD_some, Option.isNone_some, Bool.false_eq_true, if_false,
    hbytes, ← Nat.add_assoc]
  rfl

end

/-- A spill deposit is kept until its last packet has come (R225, R351). -/
theorem spillDepositReceive_part_does (t : Nat) (pkt : Packet) (k : Nat) : Does t (.spillDepositReceive t pkt)
    (fun s => s.Reaches pkt k ∧ pkt.kind = .deposit ∧ (s.site k).cfg (chanUnit (pkt.arg.toNat % 32)) 0 2 = 1 ∧
      spillWhole (Tbl.put pkt.addr pkt.payload ((s.site k).chan (pkt.arg.toNat % 32)).spillIn) = none) fun s =>
    (s.modSite k fun x => x.modChan (pkt.arg.toNat % 32) fun c =>
      { c with spillIn := Tbl.put pkt.addr pkt.payload ((s.site k).chan (pkt.arg.toNat % 32)).spillIn, marked := c.marked || pkt.ce }).reply pkt .ok := by
  rintro s ⟨hreaches, hkind, hrole, hpart⟩
  show execSpillDepositReceive t pkt s = _
  simp only [execSpillDepositReceive, arrive_reaches hreaches, hkind, hrole, hpart, ne_eq, not_true_eq_false, or_self, Option.isNone_none, if_false,
    if_true]

/-- With its last packet, a spill deposit that fits goes behind the channel's undispatched messages into the spill ring, and their lines go back as
credits (R225). -/
theorem spillDepositReceive_moves_gives (t : Nat) (pkt : Packet) (k : Nat) (bs : List Byte) : Gives t (.spillDepositReceive t pkt)
    (fun s => s.Reaches pkt k ∧ pkt.kind = .deposit ∧ (s.site k).cfg (chanUnit (pkt.arg.toNat % 32)) 0 2 = 1 ∧
      spillWhole (Tbl.put pkt.addr pkt.payload ((s.site k).chan (pkt.arg.toNat % 32)).spillIn) = some bs ∧
      ((s.site k).spill.map fun e => e.bytes).sum +
        (((s.site k).ringUndispatched (pkt.arg.toNat % 32)).map fun r => 64 * (r.1 + r.2.2)).sum + 64 * (msgOf bs).lines ≤
        2 ^ (if (s.chanRec k).spillLog2 = 0 then 20 else (s.chanRec k).spillLog2)) fun s s' =>
    let recs := (s.site k).ringUndispatched (pkt.arg.toNat % 32)
    ∃ s1 : State, s' = (s1.creditBack k (pkt.arg.toNat % 32) (recs.map fun r => r.1 + r.2.2).sum (msgOf bs)).reply pkt .ok ∧
      (s1.site k).spill = (s.site k).spill ++ (recs.map fun r =>
          { msg := { msgOf ((s.site k).ringBytes (pkt.arg.toNat % 32) r.2.1 (64 * r.2.2)) with chan := pkt.arg.toNat % 32, spilled := false },
            pads := r.1, bytes := 64 * (r.1 + r.2.2) }) ++
        [{ msg := { msgOf bs with chan := pkt.arg.toNat % 32, spilled := false }, bytes := 64 * (msgOf bs).lines }] ∧
      (s1.site k).seq = (s.site k).seq.addPending (pkt.arg.toNat % 32) (msgOf bs).seq s.now := by
  rintro s ⟨hreaches, hkind, hrole, hwhole, hfits⟩
  refine ⟨_, spillDepositReceive_whole hreaches hkind hrole hwhole, (s.adv t).spillMoved k pkt (msgOf bs), if_neg (Nat.not_lt.mpr hfits), ?_,
    spillMoved_seq _ k pkt _⟩
  rw [spillMoved_spill, Site.spillEnts, List.append_assoc]

/-- A spill deposit for which the spill ring has no room is a fatal deadlock (R227). -/
theorem spillDepositReceive_full_does (t : Nat) (pkt : Packet) (k : Nat) (bs : List Byte) : Does t (.spillDepositReceive t pkt)
    (fun s => s.Reaches pkt k ∧ pkt.kind = .deposit ∧ (s.site k).cfg (chanUnit (pkt.arg.toNat % 32)) 0 2 = 1 ∧
      spillWhole (Tbl.put pkt.addr pkt.payload ((s.site k).chan (pkt.arg.toNat % 32)).spillIn) = some bs ∧
      2 ^ (if (s.chanRec k).spillLog2 = 0 then 20 else (s.chanRec k).spillLog2) < ((s.site k).spill.map fun e => e.bytes).sum +
        (((s.site k).ringUndispatched (pkt.arg.toNat % 32)).map fun r => 64 * (r.1 + r.2.2)).sum + 64 * (msgOf bs).lines) fun s =>
    let i := pkt.arg.toNat % 32
    let p := s.partField k
    ((s.event 0x0202 p [(16, s.tileAt k), (8, i)]).report 0x0108 2 p (s.tileAt k + 8192 * i) []).hang p 0x0108 7 (siteId k) := by
  rintro s ⟨hreaches, hkind, hrole, hwhole, hfull⟩
  rw [spillDepositReceive_whole hreaches hkind hrole hwhole]
  exact congrArg Host.Outcome.next (if_pos hfull)

/-- Settles O25: each row has its effect, one lemma per row and branch, and the pieces of a spill deposit carry its bytes. -/
theorem channelRowsAct : Obligations.ChannelRowsAct := by
  unfold Obligations.ChannelRowsAct
  exact ⟨handlerDispatch_does, depositReceive_does, channelCreditReceive_returns_does, channelCreditReceive_overrun_does,
    channelCreditReceive_down_does, sendStallExpire_does, depositChunks_carry, spillDepositReceive_part_does, spillDepositReceive_moves_gives,
    spillDepositReceive_full_does, contributionReceive_does⟩

end Sys2Proof.Machine
end
section
/-! PROOFS. The rows of synchronization (07 R232, R236, R241 to R243, R249, R250; 11 R368): raises, barrier arrivals and releases, Ides expiries. -/

namespace Sys2Proof.Machine

/-! ## Raises (R232, R236) -/

/-- What the forward stream carries of a raise is the raise itself, on every shadow (R298). -/
theorem forward_raise (s : State) (k sig amount src : Nat) :
    s.forward k (.raise sig amount src) = (s.shadows k).foldl (fun s v => s.raise v sig amount src) s := rfl

/-- A raise that reaches its tile is applied there and on the tile's shadows, and acknowledged (R232, R236). -/
theorem signalRaiseReceive_does (t : Nat) (pkt : Packet) (n k : Nat) : Does t (.signalRaiseReceive t pkt n) (fun s => s.Reaches pkt k) fun s =>
    let s1 := s.raise k (pkt.arg.toNat % 64) n 0x180
    ((s1.shadows k).foldl (fun s v => s.raise v (pkt.arg.toNat % 64) n 0x180) s1).reply pkt .ok := by
  intro s hreaches
  show execSignalRaiseReceive t pkt n s = _
  simp only [execSignalRaiseReceive, arrive_reaches hreaches, forward_raise]

/-! ## Barrier arrivals (R241, R242, R368) -/

/-- The arrivals that a router counts do not move the tiles, so the roots of the barriers stay. -/
@[simp] theorem modRouter_tileRouter (s : State) (r : Nat) (f : Router → Router) (tile : Nat) :
    (s.modRouter r f).tileRouter tile = s.tileRouter tile := rfl

/-- Nor do they change the groups of the barriers. -/
@[simp] theorem modRouter_barGroup (s : State) (r : Nat) (f : Router → Router) (p : Nat) (d : BarDef) :
    (s.modRouter r f).barGroup p d = s.barGroup p d := rfl

/-- An arrival before the last of its generation is counted (R241). -/
theorem barrierArrivalReceive_counts_does (t r p b : Nat) (d : BarDef) : Does t (.barrierArrivalReceive t r p b)
    (fun s => s.barDef p b = some d ∧ (s.router r).down = false ∧ Tbl.get 0 (s.router r).barArr (64 * p + b) + 1 < s.barTarget p d r) fun s =>
    s.modRouter r fun x => { x with barArr := Tbl.set 0 (64 * p + b) (Tbl.get 0 (s.router r).barArr (64 * p + b) + 1) x.barArr } := by
  rintro s ⟨hdef, hup, hmore⟩
  show execBarrierArrivalReceive t r p b s = _
  simp only [execBarrierArrivalReceive, hdef, if_neg (Nat.ne_zero_of_lt hmore), hup, Bool.false_eq_true, if_false, if_pos hmore]

/-- The last arrival at the root of a barrier of this device alone releases it (R241). -/
theorem barrierArrivalReceive_releases_does (t r p b : Nat) (d : BarDef) : Does t (.barrierArrivalReceive t r p b)
    (fun s => s.barDef p b = some d ∧ (s.router r).down = false ∧ 0 < s.barTarget p d r ∧
      s.barTarget p d r ≤ Tbl.get 0 (s.router r).barArr (64 * p + b) + 1 ∧ r = s.tileRouter d.root ∧ d.scope ≠ 1) fun s =>
    (s.modRouter r fun x => { x with barArr := Tbl.set 0 (64 * p + b) 0 x.barArr }).barRelease d := by
  rintro s ⟨hdef, hup, htree, hlast, hroot, hlocal⟩
  show execBarrierArrivalReceive t r p b s = _
  simp only [execBarrierArrivalReceive, hdef, if_neg (Nat.ne_of_gt htree), hup, Bool.false_eq_true, if_false, if_neg (Nat.not_lt.mpr hlast),
    modRouter_tileRouter, if_neg (not_not_intro hroot), if_neg hlocal]

/-- The last arrival at another router of the tree sends one up to the root (R241). -/
theorem barrierArrivalReceive_sendsUp_does (t r p b : Nat) (d : BarDef) : Does t (.barrierArrivalReceive t r p b)
    (fun s => s.barDef p b = some d ∧ (s.router r).down = false ∧ 0 < s.barTarget p d r ∧
      s.barTarget p d r ≤ Tbl.get 0 (s.router r).barArr (64 * p + b) + 1 ∧ r ≠ s.tileRouter d.root) fun s =>
    let s1 := s.modRouter r fun x => { x with barArr := Tbl.set 0 (64 * p + b) 0 x.barArr }
    s1.inject { destDev := s1.hub.devId, destKind := .tile, destIdx := d.root, srcDev := s1.hub.devId, srcKind := .combiner, srcIdx := 4 * r,
                kind := .barrier, cls := 0, srcPart := p, arg := BitVec.ofNat 32 b } := by
  rintro s ⟨hdef, hup, htree, hlast, hbelow⟩
  show execBarrierArrivalReceive t r p b s = _
  simp only [execBarrierArrivalReceive, hdef, if_neg (Nat.ne_of_gt htree), hup, Bool.false_eq_true, if_false, if_neg (Nat.not_lt.mpr hlast),
    modRouter_tileRouter, ne_eq, hbelow, not_false_eq_true, if_true]

/-- The last arrival at the root of a barrier of group scope: the group's Herald device tells the other members and releases, any other device sends
its arrival there (R242; log 53, log 111). -/
theorem barrierArrivalReceive_crosses_does (t r p b : Nat) (d : BarDef) (h : Nat) (ms : List Nat) : Does t (.barrierArrivalReceive t r p b)
    (fun s => s.barDef p b = some d ∧ (s.router r).down = false ∧ 0 < s.barTarget p d r ∧
      s.barTarget p d r ≤ Tbl.get 0 (s.router r).barArr (64 * p + b) + 1 ∧ r = s.tileRouter d.root ∧ d.scope = 1 ∧
      s.barGroup p d = some (h, ms)) fun s =>
    let s1 := s.modRouter r fun x => { x with barArr := Tbl.set 0 (64 * p + b) 0 x.barArr }
    if h = s1.hub.devId then (s1.injects ((ms.filter fun m => m != h).map fun m => s1.barLeg p d m true)).barRelease d
    else s1.inject (s1.barLeg p d h false) := by
  rintro s ⟨hdef, hup, htree, hlast, hroot, hgroup, hmembers⟩
  show execBarrierArrivalReceive t r p b s = _
  simp only [execBarrierArrivalReceive, hdef, if_neg (Nat.ne_of_gt htree), hup, Bool.false_eq_true, if_false, if_neg (Nat.not_lt.mpr hlast),
    modRouter_tileRouter, modRouter_barGroup, if_neg (not_not_intro hroot), if_pos hgroup, hmembers]

/-- A router that is `DOWN` discards an arrival and counts it (R368). -/
theorem barrierArrivalReceive_down_does (t r p b : Nat) (d : BarDef) : Does t (.barrierArrivalReceive t r p b)
    (fun s => s.barDef p b = some d ∧ s.barTarget p d r ≠ 0 ∧ (s.router r).down = true) fun s => s.rtrCount r 4 := by
  rintro s ⟨hdef, htree, hdown⟩
  show execBarrierArrivalReceive t r p b s = _
  simp only [execBarrierArrivalReceive, hdef, if_neg htree, hdown, if_true]

/-! ## Barrier releases (R241, R243, R368) -/

/-- A router that is `DOWN` discards a release and counts it (R368). -/
theorem barrierReleaseReceive_down_does (t tile b : Nat) (d : BarDef) : Does t (.barrierReleaseReceive t tile b)
    (fun s => s.barrier (s.siteOfTile tile) b = some d ∧ (s.router (routerOf (s.siteOfTile tile))).down = true) fun s =>
    s.rtrCount (routerOf (s.siteOfTile tile)) 4 := by
  rintro s ⟨hmember, hdown⟩
  show execBarrierReleaseReceive t tile b s = _
  simp only [execBarrierReleaseReceive, hmember, hdown, if_true]

/-- A release that reaches a member which has arrived completes its generation there and on its shadows (R241, R243). -/
theorem barrierReleaseReceive_completes_does (t tile b : Nat) (d : BarDef) : Does t (.barrierReleaseReceive t tile b)
    (fun s => s.barrier (s.siteOfTile tile) b = some d ∧ (s.router (routerOf (s.siteOfTile tile))).down = false ∧
      (s.site (s.siteOfTile tile)).st = .tile ∧ ((s.site (s.siteOfTile tile)).bar b).a ≠ ((s.site (s.siteOfTile tile)).bar b).c) fun s =>
    let up (s : State) (v : Nat) : State := s.modSite v fun y => { y with bars := Tbl.set {} b { (y.bar b) with c := (y.bar b).c + 1 } y.bars }
    ((up s (s.siteOfTile tile)).shadows (s.siteOfTile tile)).foldl up (up s (s.siteOfTile tile)) := by
  rintro s ⟨hmember, hup, harrived⟩
  show execBarrierReleaseReceive t tile b s = _
  simp only [execBarrierReleaseReceive, hmember, hup, Bool.false_eq_true, if_false, if_pos harrived, State.forward, State.fwdApply]

/-! ## Ides timers (R249, R250) -/

/-- The first wait of a site that is past its limit expires (R249, R250; log 54). -/
theorem idesWaitExpire_does (t k : Nat) (h : Bool) (c : Nat) (b : Bank) (w : Wait) : Does t (.idesWaitExpire t k)
    (fun s => ((s.site k).seq.waits.find? fun w => w.2.2.2.expired (s.part (s.partField k)).ides s.now && !s.eventHolds k w.2.1 w.2.2.1) =
        some (h, c, b, w) ∧ s.siteWorks k seqUnit = true ∧ s.idesRuns (s.partField k) = true) fun s =>
    (s.modSeq k fun q => q.timeUp h).idesExpire (s.partField k) 0x0401 1 k true fun s =>
      s.reportSite 0x0401 k (0x100 + c) [(8, waitCode w.kind), (8, w.arg)] := by
  rintro s ⟨hwait, hruns⟩
  show execIdesWaitExpire t k s = _
  simp only [execIdesWaitExpire, hwait, if_pos hruns]

/-- The first phase that is past its limit expires, and its timer ends (R249, R250). -/
theorem idesPhaseExpire_does (t p : Nat) (j : Job) (ph f : Nat) : Does t (.idesPhaseExpire t p)
    (fun s => s.job p = some j ∧ s.idesRuns p = true ∧
      (j.phaseFt.find? fun e => decide (e.2 + s.phaseUs p e.1 * ftUs ≤ s.now)) = some (ph, f)) fun s =>
    (s.modJob p fun j => { j with phaseFt := Tbl.drop ph j.phaseFt }).idesExpire p 0x0402 2 0 false fun s => s.report 0x0402 9 p p [] := by
  rintro s ⟨hjob, hruns, hphase⟩
  show execIdesPhaseExpire t p s = _
  simp only [execIdesPhaseExpire, hjob, if_pos hruns, hphase]

/-- A step that is past its limit before its last phase is complete expires (R249, R250). -/
theorem idesStepExpire_does (t p : Nat) (j : Job) : Does t (.idesStepExpire t p)
    (fun s => s.job p = some j ∧ s.idesRuns p = true ∧ j.stepTimer = true ∧ j.phase < s.phaseCount p ∧
      j.releaseFt + (s.part p).ides.stepUs * ftUs ≤ s.now) fun s =>
    (s.modJob p fun j => { j with stepTimer := false }).idesExpire p 0x0403 3 0 false fun s => s.report 0x0403 9 p p [] := by
  rintro s ⟨hjob, hdue⟩
  show execIdesStepExpire t p s = _
  simp only [execIdesStepExpire, hjob, if_pos hdue]

/-- Settles O29: each row of synchronization has its effect, one lemma per row and branch. -/
theorem syncRowsAct : Obligations.SyncRowsAct := by
  unfold Obligations.SyncRowsAct
  exact ⟨signalRaiseReceive_does, barrierArrivalReceive_counts_does, barrierArrivalReceive_releases_does, barrierArrivalReceive_sendsUp_does,
    barrierArrivalReceive_crosses_does, barrierArrivalReceive_down_does, barrierReleaseReceive_down_does, barrierReleaseReceive_completes_does,
    idesWaitExpire_does, idesPhaseExpire_does, idesStepExpire_does⟩

end Sys2Proof.Machine
end
section
/-! PROOFS. The mailbox commands of the Almanac, of time and of its timers: the next state of each where it succeeds (06 R248; 07 R249; 09 R265,
R272, R278, R289, R294; 14 R450). -/

namespace Sys2Proof.Machine

/-! ## The Almanac (R278, R289) -/

/-- The entry of all zeros is the empty one (R278). -/
theorem almOf_zero : almOf 0 = {} := by decide

/-- `ALMANAC_WRITE` of an entry that keeps the table of R278 fills its place in the shadow table (R278, R289). -/
theorem almanacWrite_fills_runs (t mb : Nat) (buf : Option (List Byte)) : Runs cmdAlmanacWrite t mb { buf } (.almanacWrite t mb buf)
    (fun s c => s.alm.armed = none ∧ c.arg 0 < 8192 ∧ (s.mbx c.mb).mayEntry (almOf (c.arg 1)) = true ∧
      (s.mbx c.mb).mayEntry (Tbl.get {} s.alm.shadow (c.arg 0)) = true ∧ (almOf (c.arg 1)).action ≠ 0 ∧
      almOk (almOf (c.arg 1)) (s.part (almOf (c.arg 1)).part).regions.toNat = true) fun s c =>
    ({ s with alm := { s.alm with shadow := Tbl.set {} (c.arg 0) (almOf (c.arg 1)) s.alm.shadow } } : State).finish c.mb stOk := by
  refine runs_of (fun _ => rfl) ?_
  rintro s c ⟨hdisarmed, hplace, hmayNew, hmayOld, haction, hkeeps⟩
  simp only [cmdAlmanacWrite, hdisarmed, Option.isSome_none, Bool.false_eq_true, if_false, if_neg (Nat.not_le.mpr hplace), hmayNew, hmayOld,
    not_true_eq_false, or_self, if_neg haction, hkeeps]

/-- `ALMANAC_WRITE` of the empty entry empties its place (R278, R289). -/
theorem almanacWrite_empties_runs (t mb : Nat) (buf : Option (List Byte)) : Runs cmdAlmanacWrite t mb { buf } (.almanacWrite t mb buf)
    (fun s c => s.alm.armed = none ∧ c.arg 0 < 8192 ∧ (s.mbx c.mb).mayEntry {} = true ∧
      (s.mbx c.mb).mayEntry (Tbl.get {} s.alm.shadow (c.arg 0)) = true ∧ c.arg 1 = 0) fun s c =>
    ({ s with alm := { s.alm with shadow := Tbl.drop (c.arg 0) s.alm.shadow } } : State).finish c.mb stOk := by
  refine runs_of (fun _ => rfl) ?_
  rintro s c ⟨hdisarmed, hplace, hmayNew, hmayOld, hzero⟩
  simp only [cmdAlmanacWrite, hdisarmed, Option.isSome_none, Bool.false_eq_true, if_false, if_neg (Nat.not_le.mpr hplace), hzero, almOf_zero,
    hmayNew, hmayOld, not_true_eq_false, or_self, Nat.zero_mod, Nat.zero_div, if_true]

/-- `ALMANAC_ARM` arms the shadow table for an FT at least 10 µs ahead (R289). -/
theorem almanacArm_runs (t mb : Nat) (buf : Option (List Byte)) : Runs cmdAlmanacArm t mb { buf } (.almanacArm t mb buf)
    (fun s c => s.alm.armed = none ∧ s.now + 10 * ftUs ≤ c.arg 0) fun s c =>
    ({ s with alm := { s.alm with armed := some (c.arg 0) } } : State).finish c.mb stOk := by
  refine runs_of (fun _ => rfl) ?_
  rintro s c ⟨hdisarmed, hahead⟩
  simp only [cmdAlmanacArm, hdisarmed, Option.isSome_none, Bool.false_eq_true, if_false, if_neg (Nat.not_lt.mpr hahead)]

/-- `ALMANAC_DISARM` (R289). -/
theorem almanacDisarm_runs (t mb : Nat) (buf : Option (List Byte)) : Runs cmdAlmanacDisarm t mb { buf } (.almanacDisarm t mb buf)
    (fun _ _ => True) fun s c => ({ s with alm := { s.alm with armed := none } } : State).finish c.mb stOk :=
  runs_of (fun _ => rfl) fun _ _ _ => rfl

/-! ## Fleet Time (R265, R272) -/

/-- `TIME_SET` makes its settings, and a step of 100 µs or more moves FT where a smaller one is slewed out; a new epoch alone steps no FT
(R265, R272; log 59). -/
theorem timeSet_runs (t mb : Nat) (buf : Option (List Byte)) (step : Int) : Runs cmdTimeSet t mb { buf } (.timeSet t mb buf)
    (fun s c => c.arg 0 < 16 ∧ (bitOn (c.arg 0) 1 = true → c.arg 1 ≤ 127) ∧ (bitOn (c.arg 0) 2 = true → c.arg 2 ≤ 1) ∧
      (bitOn (c.arg 0) 0 = true → 0 ≤ (s.now : Int) + ftSec * ((s.time.epoch : Int) - c.arg 3)) ∧
      step = (if bitOn (c.arg 0) 3 then bitsZ (c.arg 4) 0 64 else 0) ∧
      (400000 ≤ step.natAbs → 0 ≤ (s.now : Int) + step ∧ s.jobsMask = 0)) fun s c =>
    let s1 := s.modTime fun x => x.settings (c.arg 0) (c.arg 1) (c.arg 2) (c.arg 3)
    (if 400000 ≤ step.natAbs then s1.modTime (·.stepBy step) else s1.modTime fun x => { x with slew := x.slew + step }).finish c.mb stOk := by
  refine runs_of (fun _ => rfl) ?_
  rintro s c ⟨hflags, hdomain, hsync, hepoch, hstep, hbig⟩
  have hgood : ¬ (16 ≤ c.arg 0 ∨ (bitOn (c.arg 0) 1 = true ∧ 127 < c.arg 1) ∨ (bitOn (c.arg 0) 2 = true ∧ 1 < c.arg 2) ∨
      (bitOn (c.arg 0) 0 = true ∧ (s.now : Int) + ftSec * ((s.time.epoch : Int) - c.arg 3) < 0) ∨
      (400000 ≤ step.natAbs ∧ (s.now : Int) + step < 0)) := by
    rintro (hover | ⟨hset, hover⟩ | ⟨hset, hover⟩ | ⟨hset, hbefore⟩ | ⟨hmoves, hbefore⟩)
    · exact Nat.not_le.mpr hflags hover
    · exact Nat.not_lt.mpr (hdomain hset) hover
    · exact Nat.not_lt.mpr (hsync hset) hover
    · exact Int.not_lt.mpr (hepoch hset) hbefore
    · exact Int.not_lt.mpr (hbig hmoves).1 hbefore
  have hfree : ¬ (400000 ≤ step.natAbs ∧ s.jobsMask ≠ 0) := fun ⟨hmoves, hbound⟩ => hbound (hbig hmoves).2
  simp only [cmdTimeSet, ← hstep, decide_eq_true_eq, if_neg hgood, if_neg hfree]

/-! ## Timers and statistics (R248, R249, R294) -/

/-- `IDES_SET` sets the limit of a timer within its range (R249). -/
theorem idesSet_runs (t mb : Nat) (buf : Option (List Byte)) : Runs cmdIdesSet t mb { buf } (.idesSet t mb buf)
    (fun _ c => (c.arg 0 < 2 ∧ 10 ≤ c.arg 1 ∧ c.arg 1 ≤ 600000000) ∨ (c.arg 0 = 2 ∧ 1000 ≤ c.arg 1 ∧ c.arg 1 ≤ 3600000000) ∨
      (c.arg 0 = 3 ∧ 10000 ≤ c.arg 1 ∧ c.arg 1 ≤ 86400000000)) fun s c =>
    let put (i : Ides) : Ides :=
      if c.arg 0 = 0 then { i with waitUs := c.arg 1 } else if c.arg 0 = 1 then { i with longUs := c.arg 1 }
      else if c.arg 0 = 2 then { i with phaseUs := c.arg 1 } else { i with stepUs := c.arg 1 }
    (s.modPart c.part fun x => { x with ides := put x.ides }).finish c.mb stOk := by
  refine runs_of (fun _ => rfl) ?_
  rintro s c (⟨htimer, hrange⟩ | ⟨htimer, hrange⟩ | ⟨htimer, hrange⟩)
  · obtain htimer | htimer : c.arg 0 = 0 ∨ c.arg 0 = 1 := by omega
    · simp [cmdIdesSet, htimer, hrange]
    · simp [cmdIdesSet, htimer, hrange]
  · simp [cmdIdesSet, htimer, hrange]
  · simp [cmdIdesSet, htimer, hrange]

/-- `HERALD_STATS_SET` sets the threshold of a context and may clear its statistics (R294). -/
theorem heraldStatsSet_runs (t mb : Nat) (buf : Option (List Byte)) (h : Herald) :
    Runs cmdHeraldStatsSet t mb { buf } (.heraldStatsSet t mb buf) (fun s c => s.herald (c.arg 0) = some h ∧ c.arg 2 ≤ 1) fun s c =>
    let s1 := s.setHerald (c.arg 0) (some { h with threshold := c.arg 1 })
    (if c.arg 2 = 1 then s1.clearStats (c.arg 0) else s1).finish c.mb stOk := by
  refine runs_of (fun _ => rfl) ?_
  rintro s c ⟨hherald, hclear⟩
  simp only [cmdHeraldStatsSet, hherald, if_neg (Nat.not_lt.mpr hclear)]

/-- `LENT_SET` sets the threshold of a long wait, from 1 µs to 10 ms (R248). -/
theorem lentSet_runs (t mb : Nat) (buf : Option (List Byte)) : Runs cmdLentSet t mb { buf } (.lentSet t mb buf)
    (fun _ c => 1 ≤ c.arg 0 ∧ c.arg 0 ≤ 10000) fun s c => (s.modPart c.part fun x => { x with longWaitUs := c.arg 0 }).finish c.mb stOk := by
  refine runs_of (fun _ => rfl) ?_
  rintro s c ⟨hmin, hmax⟩
  have hgood : ¬ (c.arg 0 = 0 ∨ 10000 < c.arg 0) := by omega
  simp only [cmdLentSet, if_neg hgood]

/-- Settles O5: each command runs to its next state, one lemma per command and form. -/
theorem timeCommandsRun : Obligations.TimeCommandsRun := by
  unfold Obligations.TimeCommandsRun
  exact ⟨almanacWrite_fills_runs, almanacWrite_empties_runs, almanacArm_runs, almanacDisarm_runs, timeSet_runs, idesSet_runs,
    heraldStatsSet_runs, lentSet_runs⟩

end Sys2Proof.Machine
end
section
/-! PROOFS. The rows of Fleet Time (09 R265 to R274): PTP messages, time frames, the servo and the pairs of `SYNC`; for each row the condition under
which it takes effect, and the next state. -/

namespace Sys2Proof.Machine

/-! ## The FT block and what sending a flit leaves of it -/

@[simp] theorem modTime_time (s : State) (f : TimeSt → TimeSt) : (s.modTime f).time = f s.time := rfl

@[simp] theorem modPortTime_same (s : State) (i : Nat) (f : PortTime → PortTime) : (s.modPortTime i f).portTime i = f (s.portTime i) :=
  Tbl.get_set_same _ _ _ _

/-- A port that sends a flit changes nothing that it knows of its neighbour's time. -/
@[simp] theorem sendFlit_portTime (s : State) (i : Nat) (b : FlitBody) (k : Nat) : (s.sendFlit i b).portTime k = s.portTime k := rfl

/-! ## Time frames (R269, R270) -/

/-- A time frame of a port in service carries the port's echo fields and the device's source, and its `TX_FT` joins those of the last 16 sent
(R269, R270). -/
theorem timeFrameSend_does (t p : Nat) : Does t (.timeFrameSend t p) (fun s => (s.port p).st = .up) fun s =>
    let x := s.portTime p
    (s.modPortTime p fun x => { x with sent := (s.now :: x.sent).take 16, seq := x.seq + 1 }).sendFlit p (.time
      { txFt := s.now, echoTx := x.echoTx, echoRx := x.echoRx, srcDev := s.hub.devId, hops := if s.time.source = 0 then 255 else s.time.hops,
        state := s.time.state, seq := x.seq }) :=
  does_of_guard (guard := fun s => (s.port p).st = .up) (fun _ => rfl) fun _ h => h

/-- A port in service remembers the `TX_FT` of the last 16 frames that it sent (R270). -/
theorem timeFrameSend_gives (t p : Nat) : Gives t (.timeFrameSend t p) (fun s => (s.port p).st = .up) fun s s' =>
    (s'.portTime p).sent = (s.now :: (s.portTime p).sent).take 16 := by
  intro s hup
  refine ⟨_, timeFrameSend_does t p s hup, ?_⟩
  simp only [sendFlit_portTime, modPortTime_same]

/-- A frame that echoes one of the last 16 sent, over a path of 0 to 10 µs, measures delay and offset (R270). -/
theorem timeFrameReceive_measures_does (t p : Nat) (f : TimeFrame) : Does t (.timeFrameReceive t p f)
    (fun s => (s.port p).st = .up ∧ f.echoTx ≠ 0 ∧ (s.portTime p).sent.contains f.echoTx = true ∧
      0 ≤ (((s.now : Int) - f.echoTx) - ((f.txFt : Int) - f.echoRx)) / 2 ∧ (((s.now : Int) - f.echoTx) - ((f.txFt : Int) - f.echoRx)) / 2 ≤ 40000) fun s =>
    (s.modPortTime p fun x => { x with echoTx := f.txFt, echoRx := s.now }).modPortTime p fun x =>
      { x with last := some f, lastRx := s.now,
               delay := (((s.now : Int) - f.echoTx) - ((f.txFt : Int) - f.echoRx)) / 2,
               offset := (((f.echoTx : Int) - f.echoRx) + ((s.now : Int) - f.txFt)) / 2 - (s.portTime p).alpha } := by
  rintro s ⟨hup, hecho, hsent, hmin, hmax⟩
  show execTimeFrameReceive t p f s = _
  simp only [execTimeFrameReceive, if_pos hup, hecho, hsent, Int.not_lt.mpr hmin, Int.not_lt.mpr hmax, not_true_eq_false, or_self, if_false]
  rfl

/-- A frame that echoes none of the last 16 sent, or whose delay is out of range, leaves its echo fields alone (R269, R270; log 8). -/
theorem timeFrameReceive_discards_does (t p : Nat) (f : TimeFrame) : Does t (.timeFrameReceive t p f)
    (fun s => (s.port p).st = .up ∧ (f.echoTx = 0 ∨ (s.portTime p).sent.contains f.echoTx = false ∨
      (((s.now : Int) - f.echoTx) - ((f.txFt : Int) - f.echoRx)) / 2 < 0 ∨ 40000 < (((s.now : Int) - f.echoTx) - ((f.txFt : Int) - f.echoRx)) / 2)) fun s =>
    s.modPortTime p fun x => { x with echoTx := f.txFt, echoRx := s.now } := by
  rintro s ⟨hup, hbad⟩
  show execTimeFrameReceive t p f s = _
  rw [← Bool.not_eq_true] at hbad
  simp only [execTimeFrameReceive, if_pos hup, if_pos hbad]

/-- Settles O59: a frame measures or is discarded, one lemma each, and the port's memory of what it sent. -/
theorem framesMeasure : Obligations.FramesMeasure := by
  unfold Obligations.FramesMeasure
  exact ⟨timeFrameReceive_measures_does, timeFrameReceive_discards_does, timeFrameSend_gives⟩

/-! ## PTP (R265, R267, R268) -/

/-- A message that the device takes, neither an Announce nor one of the peer-to-peer mechanism, counts where it comes from the selected master
(R267). -/
theorem execPtpMessageReceive_ofMaster {t : Nat} {m : PtpMsg} {b : PtpBody} {s : State} (htakes : (s.adv t).time.takes m = true)
    (hannounce : ∀ a, b ≠ .announce a) (hreq : b ≠ .pdelayReq) (hresp : ∀ x y, b ≠ .pdelayResp x y) :
    execPtpMessageReceive t m b s = .next (
      if (s.adv t).time.fromMaster m = true then
        let s1 := (s.adv t).modTime fun x => x.exchange (s.adv t).now b
        if syncComplete b = true ∧ s1.time.ptpRx.isSome = true then s1.delayAsk m.port else s1
      else s.adv t) := by
  cases b with
  | announce a => exact absurd rfl (hannounce a)
  | pdelayReq => exact absurd rfl hreq
  | pdelayResp x y => exact absurd rfl (hresp x y)
  | sync | followUp | delayResp | other => simp only [execPtpMessageReceive, if_pos htakes]

/-- A neighbour's answer that the device takes counts on the port of the selected master (R267). -/
theorem execPtpMessageReceive_pdelayResp {t : Nat} {m : PtpMsg} {s : State} (a b : Nat) (htakes : (s.adv t).time.takes m = true) :
    execPtpMessageReceive t m (.pdelayResp a b) s = .next (
      if (∃ y ∈ (s.adv t).time.master, y.port = m.port) then
        (s.adv t).modTime fun x => x.exchange (s.adv t).now (.pdelayResp a b)
      else s.adv t) := by
  simp only [execPtpMessageReceive, if_pos htakes, Option.any_eq_true, Option.mem_def, beq_iff_eq]

/-- An Announce renews what is known of its master, and the master is selected afresh (R267, R268). -/
theorem ptpMessageReceive_announce_does (t : Nat) (m : PtpMsg) (a : PtpMaster) :
    Does t (.ptpMessageReceive t m (.announce a)) (fun s => s.time.takes m = true) fun s =>
    let a := { a with port := m.port, sender := m.identity }
    (s.modTime fun x => { x with masters := a :: x.masters.filter fun y => y.port != m.port || y.sender != m.identity }).selectMaster := by
  intro s htakes
  show execPtpMessageReceive t m (.announce a) s = _
  simp only [execPtpMessageReceive, if_pos htakes]

/-- A message of the selected master measures its time, and a Sync that is complete asks for the path delay (R267; logs 108 and 154). -/
theorem ptpMessageReceive_ofMaster_does (t : Nat) (m : PtpMsg) (b : PtpBody) : Does t (.ptpMessageReceive t m b)
    (fun s => s.time.takes m = true ∧ (∀ a, b ≠ .announce a) ∧ b ≠ .pdelayReq ∧ (∀ x y, b ≠ .pdelayResp x y) ∧ s.time.fromMaster m = true) fun s =>
    let s1 := s.modTime fun x => x.exchange s.now b
    if syncComplete b = true ∧ s1.time.ptpRx.isSome = true then s1.delayAsk m.port else s1 := by
  rintro s ⟨htakes, hannounce, hreq, hresp, hfrom⟩
  show execPtpMessageReceive t m b s = _
  simp only [execPtpMessageReceive_ofMaster htakes hannounce hreq hresp, if_pos hfrom]

/-- A neighbour's delay request is answered (R267). -/
theorem ptpMessageReceive_pdelayReq_does (t : Nat) (m : PtpMsg) :
    Does t (.ptpMessageReceive t m .pdelayReq) (fun s => s.time.takes m = true) fun s =>
    (s.modTime fun x => { x with ptpPeer := (m.port :: x.ptpPeer).dedup }).emit (.ptpPdelayResp m.port 0) := by
  intro s htakes
  show execPtpMessageReceive t m .pdelayReq s = _
  simp only [execPtpMessageReceive, if_pos htakes]

/-- A neighbour's answer on the port of the selected master measures the path delay (R267). -/
theorem ptpMessageReceive_pdelayResp_does (t : Nat) (m : PtpMsg) (a b : Nat) : Does t (.ptpMessageReceive t m (.pdelayResp a b))
    (fun s => s.time.takes m = true ∧ (∃ y ∈ s.time.master, y.port = m.port)) fun s =>
    s.modTime fun x => x.exchange s.now (.pdelayResp a b) := by
  rintro s ⟨htakes, hport⟩
  show execPtpMessageReceive t m (.pdelayResp a b) s = _
  rw [execPtpMessageReceive_pdelayResp a b htakes, if_pos hport]

/-- A message outside R267, one of another master, and a neighbour's answer on another port change nothing (R267). -/
theorem ptpMessageReceive_ignored_does (t : Nat) (m : PtpMsg) (b : PtpBody) : Does t (.ptpMessageReceive t m b)
    (fun s => s.time.takes m = false ∨ ((∀ a, b ≠ .announce a) ∧ b ≠ .pdelayReq ∧ (∀ x y, b ≠ .pdelayResp x y) ∧ s.time.fromMaster m = false) ∨
      ((∃ x y, b = .pdelayResp x y) ∧ ∀ y ∈ s.time.master, y.port ≠ m.port)) fun s => s := by
  intro s hignored
  show execPtpMessageReceive t m b s = _
  cases htakes : (s.adv t).time.takes m with
  | false => simp only [execPtpMessageReceive, htakes, Bool.false_eq_true, if_false]
  | true =>
    obtain hnot | ⟨hannounce, hreq, hresp, hfrom⟩ | ⟨⟨x, y, rfl⟩, hother⟩ := hignored
    · exact absurd htakes (Bool.eq_false_iff.mp hnot)
    · rw [execPtpMessageReceive_ofMaster htakes hannounce hreq hresp, if_neg (Bool.eq_false_iff.mp hfrom)]
    · have hnone : ¬ ∃ z ∈ (s.adv t).time.master, z.port = m.port := fun ⟨z, hmaster, hport⟩ => hother z hmaster hport
      rw [execPtpMessageReceive_pdelayResp x y htakes, if_neg hnone]

/-- A port that has lost its masters leaves the selection to the other port (R268). -/
theorem ptpMasterLoss_does (t port : Nat) : Does t (.ptpMasterLoss t port) (fun _ => True) fun s =>
    (s.modTime fun x => { x with masters := x.masters.filter fun y => y.port != port }).selectMaster :=
  fun _ _ => rfl

/-! ## Source and servo (R271 to R273) -/

/-- A LOCKED source that is gone leads to HOLDOVER (R273). -/
theorem servoUpdate_holds_does (t : Nat) : Does t (.servoUpdate t) (fun s => s.time.state = 2 ∧ s.sourceLives = false) fun s =>
    (s.modTime fun x => { x.noSource with state := 3, holdSince := s.now, good := 0, bad := 0, lastUpd := s.now }).event 0x0303 0xFF s.time.eventArg := by
  rintro s ⟨hlocked, hgone⟩
  show execServoUpdate t s = _
  simp only [execServoUpdate, hlocked, hgone, Bool.false_eq_true, not_false_eq_true, and_self, if_true]

/-- The selection of a source moves no FT (R271). -/
theorem modTime_select_now (s : State) (src : TimeSource) : (s.modTime fun y => y.select src).now = s.now := by
  show (s.time.select src).ft = s.time.ft
  unfold TimeSt.select
  split
  · rfl
  · split
    · rfl
    · rfl

/-- Where no LOCKED source is gone, an update goes by the source that R271 selects (R271 to R273). -/
theorem execServoUpdate_selects {t : Nat} {s : State} (hlives : (s.adv t).time.state = 2 → (s.adv t).sourceLives = true) :
    execServoUpdate t s = .next (
      if (s.adv t).timeSource.code = 0 then
        (s.adv t).modTime fun x => { (if x.state = 1 then { x.noSource with state := 0 } else x).coast (s.adv t).now with good := 0, bad := 0 }
      else
        let s1 := (s.adv t).modTime fun y => y.select (s.adv t).timeSource
        (s.adv t).timeSource.offset.elim (s1.modTime fun x => x.coast s1.now) s1.servo) := by
  have hheld : ¬ ((s.adv t).time.state = 2 ∧ ¬ (s.adv t).sourceLives = true) := fun ⟨hlocked, hgone⟩ => hgone (hlives hlocked)
  simp only [execServoUpdate, if_neg hheld]
  cases (s.adv t).timeSource.offset with
  | none => rfl
  | some o => rfl

/-- Without any source FT coasts, and ACQUIRING falls back to FREE (R271, R273). -/
theorem servoUpdate_noSource_does (t : Nat) : Does t (.servoUpdate t)
    (fun s => (s.time.state = 2 → s.sourceLives = true) ∧ s.timeSource.code = 0) fun s =>
    s.modTime fun x => { (if x.state = 1 then { x.noSource with state := 0 } else x).coast s.now with good := 0, bad := 0 } := by
  rintro s ⟨hlives, hnone⟩
  show execServoUpdate t s = _
  rw [execServoUpdate_selects hlives, if_pos hnone]

/-- A selected source with an offset takes effect, and the servo follows it (R271 to R273). -/
theorem servoUpdate_follows_does (t : Nat) (o : Int) : Does t (.servoUpdate t)
    (fun s => (s.time.state = 2 → s.sourceLives = true) ∧ s.timeSource.code ≠ 0 ∧ s.timeSource.offset = some o) fun s =>
    (s.modTime fun y => y.select s.timeSource).servo o := by
  rintro s ⟨hlives, hsource, hoffset⟩
  show execServoUpdate t s = _
  rw [execServoUpdate_selects hlives, if_neg hsource, hoffset]
  rfl

/-- A selected source without an offset takes effect, and FT coasts (R271, R273). -/
theorem servoUpdate_coasts_does (t : Nat) : Does t (.servoUpdate t)
    (fun s => (s.time.state = 2 → s.sourceLives = true) ∧ s.timeSource.code ≠ 0 ∧ s.timeSource.offset = none) fun s =>
    (s.modTime fun y => y.select s.timeSource).modTime fun x => x.coast s.now := by
  rintro s ⟨hlives, hsource, hoffset⟩
  show execServoUpdate t s = _
  simp only [execServoUpdate_selects hlives, if_neg hsource, hoffset, Option.elim_none, modTime_select_now]

/-- With nothing left to slew out, FT coasts at the last rate the servo set (R273). -/
theorem coast_lastRate (x : TimeSt) (now : Nat) (hslew : x.slew = 0) : x.coast now = { x with rate := x.lastRate, lastUpd := now } :=
  if_pos hslew

/-- A HOLDOVER of 600 s ends in FREE (R273). -/
theorem holdoverExpire_does (t : Nat) : Does t (.holdoverExpire t) (fun s => s.time.state = 3 ∧ s.time.holdSince + 600 * ftSec ≤ s.now) fun s =>
    s.modTime fun x => { x with state := 0 } :=
  does_of_guard (guard := fun s => s.time.state = 3 ∧ s.time.holdSince + 600 * ftSec ≤ s.now) (fun _ => rfl) fun _ h => h

/-! ## SYNC (R274) -/

/-- An edge at least 1 ms after the last is captured, sent to the twin and paired (R274). -/
theorem syncEdge_does (t d i : Nat) : Does t (.syncEdge t)
    (fun s => s.time.syncEn = true ∧ (∀ e, s.time.syncEdge = some e → e + ftMs ≤ s.now) ∧ s.syncTwin = some (d, i)) fun s =>
    ((s.modTime fun x => { x with syncEdge := some s.now, captures := s.now :: x.captures }).twinTimeSend d i).syncPairUp := by
  rintro s ⟨hsync, hapart, htwin⟩
  show execSyncEdge t s = _
  cases hedge : (s.adv t).time.syncEdge with
  | none => simp only [execSyncEdge, hsync, hedge, htwin, not_true_eq_false, Bool.false_eq_true, or_self, if_false]
  | some e =>
    simp only [execSyncEdge, hsync, hedge, htwin, Nat.not_lt.mpr (hapart e hedge), decide_false, not_true_eq_false, Bool.false_eq_true, or_self,
      if_false]

/-- The partner's capture is paired (R274). -/
theorem twinTimeReceive_does (t c : Nat) : Does t (.twinTimeReceive t c) (fun s => s.time.syncEn = true) fun s =>
    (s.modTime fun x => { x with partner := c :: x.partner }).syncPairUp :=
  does_of_guard (guard := fun s => s.time.syncEn = true) (fun _ => rfl) fun _ h => h

/-- A follower without a usable pair for 2 s leaves SYNC (R274). -/
theorem syncFollowerTimeout_does (t : Nat) : Does t (.syncFollowerTimeout t)
    (fun s => s.time.syncOffset.isSome = true ∧ s.time.syncPair + 2 * ftSec ≤ s.now) fun s => s.modTime fun x => { x with syncOffset := none } :=
  does_of_guard (guard := fun s => s.time.syncOffset.isSome = true ∧ s.time.syncPair + 2 * ftSec ≤ s.now) (fun _ => rfl) fun _ h => h

/-- Settles O44: each row of time has its effect, one lemma per row and branch. -/
theorem timeRowsAct : Obligations.TimeRowsAct := by
  unfold Obligations.TimeRowsAct
  exact ⟨ptpMessageReceive_announce_does, ptpMessageReceive_ofMaster_does, ptpMessageReceive_pdelayReq_does, ptpMessageReceive_pdelayResp_does,
    ptpMessageReceive_ignored_does, ptpMasterLoss_does, timeFrameSend_does, servoUpdate_holds_does, servoUpdate_noSource_does,
    servoUpdate_follows_does, servoUpdate_coasts_does, coast_lastRate, holdoverExpire_does, syncEdge_does, twinTimeReceive_does,
    syncFollowerTimeout_does⟩

end Sys2Proof.Machine
end
section
/-! PROOFS. The rows of the Almanac (09 R279, R282 to R285, R290): firing, deadlines, the bank exchange, automatic prewarns and intercalary slots. -/

namespace Sys2Proof.Machine

/-! ## Firing, deadlines and the bank exchange (R279, R285, R290) -/

/-- The entry that is due before all others fires (R279). -/
theorem almanacFire_does (t e : Nat) : Does t (.almanacFire t e) (fun s => s.nextDue (fun x => decide (x.trigger ≤ s.now)) = some e) fun s =>
    s.fire e :=
  does_of_guard (guard := fun s => s.nextDue (fun x => decide (x.trigger ≤ s.now)) = some e) (fun _ => rfl) fun _ h => h

/-- A watched action of an entry that is past its deadline is late (R285). -/
theorem almanacDeadlineExpire_does (t p e : Nat) (w : Watch) : Does t (.almanacDeadlineExpire t p e)
    (fun s => ((s.part p).watches.find? fun w => w.entry == e && decide (w.due ≤ s.now)) = some w) fun s => s.watchLate p w := by
  intro s hdue
  show execAlmanacDeadlineExpire t p e s = _
  simp only [execAlmanacDeadlineExpire, hdue]

/-- At the arm FT the banks change places, what lies in the past is advanced or fired, and the shadow bank takes the active one's entries (R290). -/
theorem almanacBankSwap_does (t f : Nat) : Does t (.almanacBankSwap t) (fun s => s.alm.armed = some f ∧ f ≤ s.now) fun s =>
    let s1 := (({ s with alm := { active := s.alm.shadow, shadow := s.alm.active, armed := none } } : State).watchOrphan fun _ => true).advancePast
    let s2 := State.firePast s1.alm.active.length s1
    ({ s2 with alm := { s2.alm with shadow := s2.alm.active.map fun e => (e.1, { e.2 with watching := false }) } } : State) := by
  rintro s ⟨harmed, hreached⟩
  show execAlmanacBankSwap t s = _
  simp only [execAlmanacBankSwap, harmed, if_pos hreached]

/-! ## Prewarns (R282) -/

/-- An automatic prewarn starts for a release that is ready and not held for an earlier prewarn: of a release that waits for a `STEP_START` when that
comes within 200 ns, else when a region of the partition has had no prewarn in the last microsecond (R282). -/
theorem automaticPrewarn_does (t p : Nat) (j : Job) : Does t (.automaticPrewarn t p)
    (fun s => s.job p = some j ∧ (∀ f, j.releaseHold = some f → f ≤ s.now) ∧
      s.releaseReady p j true (if (s.part p).perm then (s.part p).permTrig else (s.stepAfter p s.now).getD 0) = true ∧
      (((s.gated p = false ∨ (s.part p).perm = true ∨ j.first = true ∨ j.replay = true) ∧
          ∃ g ∈ s.regionsOf p, ∀ w, (s.region g).prewarnAt = some w → w + ftUs < s.now) ∨
        (s.gated p = true ∧ (s.part p).perm = false ∧ j.first = false ∧ j.replay = false ∧
          ∃ e ∈ s.alm.active, e.2.action = 1 ∧ e.2.part = p ∧ s.now < e.2.trigger ∧ e.2.trigger ≤ s.now + 800))) fun s =>
    let s1 := (s.regionsOf p).foldl (fun s g => s.prewarnRegion g (s.part p).load) s
    s1.modJob p fun j => { j with releaseHold := some (s.now + 800) } := by
  rintro s ⟨hjob, hold, hready, hcause⟩
  show execAutomaticPrewarn t p s = _
  simp only [execAutomaticPrewarn, hjob]
  rw [if_neg ?unheld]
  case unheld =>
    rintro (hunready | hheld)
    · exact hunready hready
    · split at hheld
      next f hf => exact Nat.not_lt.mpr (hold f hf) (of_decide_eq_true hheld)
      next => exact absurd hheld Bool.false_ne_true
  obtain ⟨hungated, g, hg, hcold⟩ | ⟨hgated, hperm, hfirst, hreplay, e, he, haction, hpart, hafter, hsoon⟩ := hcause
  · rw [if_neg ?ungated, if_neg ?cold]
    · rfl
    case ungated =>
      obtain hfree | hperm | hfirst | hreplay := hungated
      · simp [hfree]
      · simp [hperm]
      · simp [hfirst]
      · simp [hreplay]
    case cold =>
      intro hrecent
      have hall := List.all_eq_true.mp (Bool.and_eq_true_iff.mp hrecent).2 g hg
      split at hall
      next w hw => exact Nat.not_le.mpr (hcold w hw) (of_decide_eq_true hall)
      next => exact absurd hall Bool.false_ne_true
  · have hstep : ((s.adv t).alm.active.any fun e => e.2.action == 1 && e.2.part == p &&
        decide ((s.adv t).now < e.2.trigger ∧ e.2.trigger ≤ (s.adv t).now + 800)) = true :=
      List.any_eq_true.mpr ⟨e, he, by rw [haction, hpart, decide_eq_true ⟨hafter, hsoon⟩]; simp⟩
    simp only [hgated, hperm, hfirst, hreplay, hstep, Bool.not_false, Bool.and_self, if_true]
    rfl

/-! ## Intercalary slots (R283, R284) -/

/-- At a step gate the slots that are due open as one of the greatest length, and its work starts (R283, R284). -/
theorem intercalarySlotOpen_does (t p : Nat) (j : Job) : Does t (.intercalarySlotOpen t p)
    (fun s => s.job p = some j ∧ j.st = .atGate ∧ (s.part p).gate = true ∧ j.first = false ∧ j.replay = false ∧
      ((s.part p).slots.filter fun sl => sl.opened.isNone && s.slotDue p (s.part p).perm (s.part p).permTrig sl) ≠ [] ∧
      ((s.part p).slots.any (·.opened.isSome)) = false) fun s =>
    let due := (s.part p).slots.filter fun sl => sl.opened.isNone && s.slotDue p (s.part p).perm (s.part p).permTrig sl
    let sl : Slot := { lenUs := due.foldl (fun n x => max n x.lenUs) 0, opened := some s.now, entries := due.flatMap (·.entries) }
    let s1 := s.modPart p fun x => { x with slots := sl :: x.slots.filter fun y => !due.contains y }
    (((s1.watchMet p fun w => w.action == 2 && sl.entries.contains (w.entry, w.trigger)).modJob p fun j => { j with releaseHold := none }).slotWork p) := by
  rintro s ⟨hjob, hatGate, hgate, hfirst, hreplay, hdue, hclosed⟩
  show execIntercalarySlotOpen t p s = _
  simp only [execIntercalarySlotOpen, hjob, hatGate, hgate, hfirst, hreplay, hclosed, mt List.isEmpty_iff.mp hdue, ne_eq, not_true_eq_false,
    Bool.false_eq_true, or_self, if_false]

/-- An open slot closes when its work is done or its length has elapsed; an item that still runs completes after it (R284). -/
theorem intercalarySlotClose_does (t p : Nat) (sl : Slot) : Does t (.intercalarySlotClose t p)
    (fun s => ((s.part p).slots.find? fun sl => sl.opened.isSome) = some sl ∧
      ((sl.running = [] ∧ s.slotIdle p = true) ∨ sl.opened.getD 0 + sl.lenUs * ftUs ≤ s.now)) fun s =>
    (s.modPart p fun x => { x with slots := x.slots.filter fun y => y.opened.isNone, overItems := x.overItems ++ sl.running }).vigilGate p := by
  rintro s ⟨hopen, hends⟩
  show execIntercalarySlotClose t p s = _
  rw [← List.isEmpty_iff] at hends
  simp only [execIntercalarySlotClose, hopen, if_pos hends]

/-- Settles O16: each row of the Almanac has its effect, one lemma per row. -/
theorem almanacRowsAct : Obligations.AlmanacRowsAct := by
  unfold Obligations.AlmanacRowsAct
  exact ⟨almanacFire_does, almanacDeadlineExpire_does, almanacBankSwap_does, automaticPrewarn_does, intercalarySlotOpen_does,
    intercalarySlotClose_does⟩

end Sys2Proof.Machine
end
section
/-! PROOFS. The device in cold reset (09 R276; 14 R437, R438, R447, R459): what its registers hold. -/

namespace Sys2Proof.Machine

/-- Mailbox 0 has the admin role at reset (R447). -/
theorem reset_mbx_zero : State.reset.mbx 0 = { role := 1 } := rfl

/-- Every other mailbox is at its reset value (R438, R447). -/
theorem reset_mbx_other {mb : Nat} (h : mb ≠ 0) : State.reset.mbx mb = {} := if_neg h

/-- At reset the mailboxes are alike but for their role (R438, R447). -/
theorem reset_mbx (mb : Nat) : State.reset.mbx mb = { role := if mb = 0 then 1 else 0 } := by
  by_cases h : mb = 0
  · rw [h, reset_mbx_zero, if_pos rfl]
  · rw [reset_mbx_other h, if_neg h]

/-- Settles O46: the reset value of each register, from the tables of mailboxes and partitions and from the fields of the reset state. -/
theorem resetLeaves : Obligations.ResetLeaves := by
  unfold Obligations.ResetLeaves
  refine ⟨⟨rfl, rfl⟩, ⟨rfl, rfl, rfl, rfl, rfl⟩, ⟨rfl, ?_⟩, ?_, ⟨rfl, rfl, rfl, rfl, rfl, rfl, rfl⟩, ⟨rfl, rfl, rfl, rfl, rfl, rfl⟩, ?_⟩
  · intro mb hother
    rw [reset_mbx_other hother]
  · intro mb
    rw [reset_mbx]
    exact ⟨rfl, rfl, rfl, rfl, rfl, rfl, rfl, rfl, rfl, rfl, rfl⟩
  · exact fun _ => ⟨rfl, rfl⟩

end Sys2Proof.Machine
end

section
/-! PROOFS. The rows of the error collector and of the event ring (10 R321, R325, R326, R328; 14 R455, R459): a record arrives, ages and is logged,
the hold-off ends, and the gate captures a census. -/

namespace Sys2Proof.Machine

/-! ## Arrival and coalescing (R321, R325, R326) -/

/-- A record of a class of R321 reaches the collector (R325). -/
theorem errorRecordArrive_known_does (t : Nat) (r : ErrRec) : Does t (.errorRecordArrive t r) (fun _ => r.cls ∈ errClasses) fun s =>
    s.errArrive r :=
  does_of_guard (guard := fun _ => r.cls ∈ errClasses) (fun _ => rfl) fun _ h => h

/-- No unit writes a record of a reserved class: the collector stays as it is (R321). -/
theorem errorRecordArrive_reserved_does (t : Nat) (r : ErrRec) : Does t (.errorRecordArrive t r) (fun _ => r.cls ∉ errClasses) fun s => s := by
  intro s hreserved
  show execErrorRecordArrive t r s = _
  simp only [execErrorRecordArrive, if_neg hreserved]

/-- An entry of the coalescing table that is a second old leaves it for the FIFO, while that has room for a coalesced record (R326). -/
theorem coalesceEntryAge_does (t c k : Nat) (u : BitVec 32) (e : ErrRec) : Does t (.coalesceEntryAge t c k u)
    (fun s => (s.col.table.find? fun e => e.cls == c && e.unitKind == k && e.unit == u) = some e ∧ e.ft + ftSec ≤ s.now ∧
      s.col.fifo.length < 960) fun s =>
    ({ s with col := { s.col with table := s.col.table.erase e } } : State).errAppend e := by
  rintro s ⟨hentry, hold, hroom⟩
  show execCoalesceEntryAge t c k u s = _
  simp only [execCoalesceEntryAge, hentry, if_pos (And.intro hold hroom)]

/-! ## The log ring (R326, R328) -/

/-- The oldest record of the FIFO goes to the log ring; above half the coalescing table keeps its entries (R326, R328). -/
theorem logRingAppend_above_half_does (t : Nat) (r : ErrRec) (rest : List ErrRec) : Does t (.logRingAppend t)
    (fun s => s.col.fifo = r :: rest ∧ 512 < rest.length) fun s =>
    ({ s with col := { s.col with fifo := rest, storm := decide (768 ≤ rest.length) } } : State).ringAppend r := by
  rintro s ⟨hfifo, habove⟩
  show execLogRingAppend t s = _
  simp only [execLogRingAppend, hfifo, if_neg (Nat.not_le.mpr habove)]

/-- At or below half the storm is over, and entries of the coalescing table follow the record (R326, R328). -/
theorem logRingAppend_half_does (t : Nat) (r : ErrRec) (rest : List ErrRec) : Does t (.logRingAppend t)
    (fun s => s.col.fifo = r :: rest ∧ rest.length ≤ 512) fun s =>
    let s1 := ({ s with col := { s.col with fifo := rest, storm := false } } : State).ringAppend r
    State.errEmit s1.col.table.length s1 := by
  rintro s ⟨hfifo, hhalf⟩
  have hcalm : decide (768 ≤ rest.length) = false := decide_eq_false (by omega)
  show execLogRingAppend t s = _
  simp only [execLogRingAppend, hfifo, hcalm, if_pos hhalf]

/-! ## The hold-off and the gate (R455, R459) -/

/-- When the hold-off ends, vector 16 is signalled if it is due (R459). -/
theorem evHoldoffExpire_does (t : Nat) : Does t (.evHoldoffExpire t) (fun _ => True) fun s => s.evSignal := fun _ _ => rfl

/-- In a partition without a job a capture waits for no gate: that of each mailbox's command for the partition is taken (R455). -/
theorem censusGateCapture_does (t p : Nat) : Does t (.censusGateCapture t p) (fun s => s.job p = none) fun s =>
    (List.range 24).foldl (fun (s : State) mb => match (s.mbx mb).running, (s.mbx mb).capture with
      | some d, some (obj, n) => if d.part = p then s.capture { mb, d, a := [1, obj, n] } obj n else s
      | _, _ => s) s := by
  intro s hnojob
  show execCensusGateCapture t p s = _
  refine congrArg Host.Outcome.next (if_neg ?ready)
  case ready => simp only [hnojob, not_true_eq_false, not_false_eq_true]

/-- Settles O15: each row of the collector, of the hold-off and of the gate's capture has its effect, one lemma per row and branch. -/
theorem collectorRowsAct : Obligations.CollectorRowsAct := by
  unfold Obligations.CollectorRowsAct
  exact ⟨errorRecordArrive_known_does, errorRecordArrive_reserved_does, coalesceEntryAge_does, logRingAppend_above_half_does,
    logRingAppend_half_does, evHoldoffExpire_does, censusGateCapture_does⟩

end Sys2Proof.Machine
end
section
/-! PROOFS. The mailbox commands of ports, routing and Herald groups: the next state of each where it succeeds (11 R335, R338, R350, R355 to R362,
R367; 13 R431; 14 R450). -/

namespace Sys2Proof.Machine

/-! ## Ports (R335, R338, R450) -/

/-- `PORT_CONFIG` sets the minimum width, the encryption and the state of a port, each where it is named (R335, R338). -/
theorem portConfig_runs (t mb : Nat) (buf : Option (List Byte)) : Runs cmdPortConfig t mb { buf } (.portConfig t mb buf)
    (fun _ c => c.arg 0 < 24 ∧ (c.arg 1 = 0xFF ∨ (4 ≤ c.arg 1 ∧ c.arg 1 ≤ 8)) ∧ (c.arg 2 = 0xFF ∨ c.arg 2 ≤ 1) ∧
      (c.arg 3 = 0xFF ∨ c.arg 3 ≤ 2)) fun s c =>
    let s1 := if c.arg 1 = 0xFF then s else s.minWidthSet (c.arg 0) (c.arg 1)
    let s2 := if c.arg 2 = 0xFF then s1 else s1.modPort (c.arg 0) fun x => { x with enc := c.arg 2 == 1 }
    (if c.arg 3 = 1 then s2.portEnable (c.arg 0) else if c.arg 3 = 2 then s2.forceDown (c.arg 0) else s2).finish c.mb stOk := by
  refine runs_of (fun _ => rfl) ?_
  rintro s c ⟨hport, hwidth, henc, hstate⟩
  have hgood : ¬ (24 ≤ c.arg 0 ∨ (c.arg 1 ≠ 0xFF ∧ ¬ (4 ≤ c.arg 1 ∧ c.arg 1 ≤ 8)) ∨ (1 < c.arg 2 ∧ c.arg 2 ≠ 0xFF) ∨
      (2 < c.arg 3 ∧ c.arg 3 ≠ 0xFF)) := by omega
  simp only [cmdPortConfig, if_neg hgood]

/-- `PORT_RETRAIN` of an enabled port asks the partner of one in service to retrain, trains, and waits for the end of the training (R338). -/
theorem portRetrain_runs (t mb : Nat) (buf : Option (List Byte)) : Runs cmdPortRetrain t mb { buf } (.portRetrain t mb buf)
    (fun s c => c.arg 0 < 24 ∧ (s.port (c.arg 0)).enabled = true) fun s c =>
    ((if (s.port (c.arg 0)).st = .up then s.sendCtl (c.arg 0) .retrain else s).trainStart (c.arg 0)).modPort (c.arg 0) fun x =>
      { x with waiter := x.waiter ++ [c.mb] } := by
  refine runs_of (fun _ => rfl) ?_
  rintro s c ⟨hport, henabled⟩
  simp only [cmdPortRetrain, Nat.not_le.mpr hport, henabled, not_true_eq_false, if_false]

/-- `LINK_BER_TEST` of a port that carries no traffic answers the nine measured ratios (R450). -/
theorem linkBerTest_runs (t mb : Nat) (buf : Option (List Byte)) (ratios : List Nat) :
    Runs (cmdLinkBerTest ratios) t mb { buf } (.linkBerTest t mb buf ratios) (fun s c => c.arg 0 < 24 ∧ (s.port (c.arg 0)).st ≠ .up) fun s c =>
    s.finishOut c [(List.range 9).flatMap fun i => leBytes 8 (ratios.getD i 0)] fun _ _ => 0 := by
  refine runs_of (fun _ => rfl) ?_
  rintro s c ⟨hport, hidle⟩
  simp only [cmdLinkBerTest, Nat.not_le.mpr hport, hidle, if_false]

/-! ## Routing (R350, R355 to R362, R367) -/

/-- `ROUTE_CFG_SET` sets the fields that are not all ones, those of a class under a class that is named (R350, R356, R361, R362, R367). -/
theorem routeCfgSet_runs (t mb : Nat) (buf : Option (List Byte)) : Runs cmdRouteCfgSet t mb { buf } (.routeCfgSet t mb buf)
    (fun _ c => (c.arg 0 ≤ 3 ∨ c.arg 0 = 0xFF) ∧ (c.arg 1 ≤ 1 ∨ c.arg 1 = 0xFF) ∧ (c.arg 2 ≤ 1 ∨ c.arg 2 = 0xFF) ∧
      ((1 ≤ c.arg 3 ∧ c.arg 3 ≤ 15) ∨ c.arg 3 = 0xFF) ∧ ((1 ≤ c.arg 4 ∧ c.arg 4 ≤ 100) ∨ c.arg 4 = 0xFF) ∧
      (c.arg 5 ≤ 1023 ∨ c.arg 5 = 0xFFFF) ∧ ((100 ≤ c.arg 6 ∧ c.arg 6 ≤ 100000) ∨ c.arg 6 = 0xFFFFFFFF) ∧
      (c.arg 0 = 0xFF → c.arg 1 = 0xFF ∧ c.arg 2 = 0xFF ∧ c.arg 3 = 0xFF ∧ c.arg 4 = 0xFF)) fun s c =>
    let s1 := if c.arg 0 = 0xFF then s else s.modRcfg (c.arg 0) fun x =>
      { x with randomMesh := if c.arg 1 = 0xFF then x.randomMesh else c.arg 1 == 1
               randomLantern := if c.arg 2 = 0xFF then x.randomLantern else c.arg 2 == 1
               weight := if c.arg 3 = 0xFF then x.weight else c.arg 3, markPct := if c.arg 4 = 0xFF then x.markPct else c.arg 4 }
    ({ s1 with routing := { s1.routing with
        cmbWait := if c.arg 5 = 0xFFFF then s1.routing.cmbWait else c.arg 5
        timeoutUs := if c.arg 6 = 0xFFFFFFFF then s1.routing.timeoutUs else c.arg 6 } } : State).finish c.mb stOk := by
  refine runs_of (fun _ => rfl) ?_
  rintro s c ⟨hclass, hmesh, hlantern, hweight, hmark, hwait, htimeout, hnone⟩
  have hgood : ¬ ((3 < c.arg 0 ∧ c.arg 0 ≠ 0xFF) ∨ (1 < c.arg 1 ∧ c.arg 1 ≠ 0xFF) ∨ (1 < c.arg 2 ∧ c.arg 2 ≠ 0xFF) ∨
      (c.arg 3 ≠ 0xFF ∧ ¬ (1 ≤ c.arg 3 ∧ c.arg 3 ≤ 15)) ∨ (c.arg 4 ≠ 0xFF ∧ ¬ (1 ≤ c.arg 4 ∧ c.arg 4 ≤ 100)) ∨
      (c.arg 5 ≠ 0xFFFF ∧ 1023 < c.arg 5) ∨ (c.arg 6 ≠ 0xFFFFFFFF ∧ ¬ (100 ≤ c.arg 6 ∧ c.arg 6 ≤ 100000)) ∨
      (c.arg 0 = 0xFF ∧ ¬ (c.arg 1 = 0xFF ∧ c.arg 2 = 0xFF ∧ c.arg 3 = 0xFF ∧ c.arg 4 = 0xFF))) := by omega
  simp only [cmdRouteCfgSet, if_neg hgood]

/-- `ROUTE_TABLE_WRITE` writes entries of the layout of log 32 into a version that is free (R355, R358). -/
theorem routeTableWrite_runs (t mb : Nat) (buf : Option (List Byte)) (s' : State) (b : List Byte) (s1 : State) :
    Runs cmdRouteTableWrite t mb { buf } (.routeTableWrite t mb buf)
      (fun s c => c.arg 0 ≤ 1 ∧ c.arg 1 ≤ 3 ∧ c.arg 3 ≠ 0 ∧ c.arg 2 + c.arg 3 ≤ routeEntries (c.arg 1) ∧ s.verFree (c.arg 0 == 1) = true ∧
        s.bufIn c = (s', some b) ∧ routeEntBytes (c.arg 1) * c.arg 3 ≤ b.length ∧
        (List.range (c.arg 3)).foldl (fun (o : Option State) i => match o with
          | none => none
          | some s => s.routeWrite (c.arg 0 == 1) (c.arg 1) (c.arg 2 + i) (slice b (routeEntBytes (c.arg 1) * i) (routeEntBytes (c.arg 1))))
          (some s') = some s1) fun _ c => s1.finish c.mb stOk := by
  refine runs_of (fun _ => rfl) ?_
  rintro s c ⟨hversion, hkind, hsome, hend, hfree, hbuf, hlength, hwritten⟩
  have hgood : ¬ (1 < c.arg 0 ∨ 3 < c.arg 1 ∨ c.arg 3 = 0 ∨ routeEntries (c.arg 1) < c.arg 2 + c.arg 3) := by omega
  simp only [cmdRouteTableWrite, if_neg hgood, hfree, not_true_eq_false, if_false, hbuf, if_neg (Nat.not_lt.mpr hlength)]
  split
  next hfails => exact absurd (hwritten.symm.trans hfails) (Option.some_ne_none s1)
  next s2 hwrites => rw [Option.some.inj (hwritten.symm.trans hwrites)]

/-- `ROUTE_SWAP` of a class without a change in progress begins one, which waits for a slot (R359). -/
theorem routeSwap_runs (t mb : Nat) (buf : Option (List Byte)) : Runs cmdRouteSwap t mb { buf } (.routeSwap t mb buf)
    (fun s c => c.arg 0 ≤ 3 ∧ (s.rcfg (c.arg 0)).swap = none) fun s c =>
    (s.modRcfg (c.arg 0) fun x => { x with swap := some (c.mb, none) }).swapTry := by
  refine runs_of (fun _ => rfl) ?_
  rintro s c ⟨hclass, hidle⟩
  simp only [cmdRouteSwap, Nat.not_lt.mpr hclass, hidle, Option.isSome_none, Bool.false_eq_true, if_false]

/-- `ROUTE_EPOCH_SWITCH` lets every class inject under the named version, and the other version retires (R360). -/
theorem routeEpochSwitch_runs (t mb : Nat) (buf : Option (List Byte)) : Runs cmdRouteEpochSwitch t mb { buf } (.routeEpochSwitch t mb buf)
    (fun _ c => c.arg 0 ≤ 1) fun s c =>
    let s1 := (List.range 4).foldl (fun (s : State) k => s.modRcfg k fun x => { x with ver := c.arg 0 == 1 }) s
    let s2 : State := if (List.range 4).any fun k => (s.rcfg k).ver != (c.arg 0 == 1) then
        { s1 with routing := { s1.routing with retiring := (s1.routing.retiring ++ [b1 !(c.arg 0 == 1)]).dedup } }
      else s1
    (s2.finish c.mb stOk).retire := by
  refine runs_of (fun _ => rfl) ?_
  intro s c hversion
  simp only [cmdRouteEpochSwitch, if_neg (Nat.not_lt.mpr hversion)]

/-! ## Herald groups (R431) -/

/-- `GROUP_HERALD_SET` moves a group's Herald to a member: the device takes or drops the context, and its jobs of the group vote there (R431). -/
theorem groupHeraldSet_runs (t mb : Nat) (buf : Option (List Byte)) (p : Nat) (d : GroupDef) (rest : List (Nat × GroupDef)) :
    Runs cmdGroupHeraldSet t mb { buf } (.groupHeraldSet t mb buf)
      (fun s c => s.jobsOfGroup (c.arg 0) = (p, d) :: rest ∧ d.members.contains (c.arg 1) = true ∧
        (c.arg 1 = s.hub.devId → s.heraldRoom d = true)) fun s c =>
      let s1 := if c.arg 1 = s.hub.devId then (if (s.herald (c.arg 0)).isSome then s else s.addHerald d) else s.dropHerald (c.arg 0)
      (((p, d) :: rest).foldl (fun (s : State) x => s.heraldMoved x.1 (c.arg 0) (c.arg 1)) s1).finish c.mb stOk := by
  refine runs_of (fun _ => rfl) ?_
  rintro s c ⟨hjobs, hmember, hroom⟩
  have hfits : ¬ (c.arg 1 = s.hub.devId ∧ ¬ s.heraldRoom d = true) := fun ⟨hown, hfull⟩ => hfull (hroom hown)
  simp only [cmdGroupHeraldSet, hjobs, hmember, not_true_eq_false, if_false, beq_iff_eq, if_neg hfits]

/-- Settles O7: each command runs to its next state, one lemma per command. -/
theorem networkCommandsRun : Obligations.NetworkCommandsRun := by
  unfold Obligations.NetworkCommandsRun
  exact ⟨portConfig_runs, portRetrain_runs, linkBerTest_runs, routeCfgSet_runs, routeTableWrite_runs, routeSwap_runs, routeEpochSwitch_runs,
    groupHeraldSet_runs⟩

end Sys2Proof.Machine
end
section
/-! PROOFS. The routing rows (11 R352, R354, R357 to R360, R362): a packet is routed, a combining unit forwards, a drained change takes effect. -/

namespace Sys2Proof.Machine

/-! ## Routing (R352, R354, R357, R358, R360) -/

/-- A packet that its queue does not yet let pass waits (R357). -/
theorem packetRoute_waits_does (t r : Nat) (die : Option Nat) (pkt : Packet) : Does t (.packetRoute t r die pkt)
    (fun s => s.routeIn (match die with
      | some d => .die d
      | none => .router r) pkt = none) fun s => s := by
  intro s hwaits
  show execPacketRoute t r die pkt s = _
  cases die with
  | none | some d => simp only [execPacketRoute, hwaits]

/-- A packet that passes is dropped where its kind is reserved, taken where it is for this hub's Steward, and else routed by its die or its router;
a version that it was the last of retires then (R352, R354, R360, log 112). -/
theorem packetRoute_routes {t r : Nat} {die : Option Nat} {pkt p : Packet} {ver : Bool} {port : Option Nat} {s s1 : State}
    (hpasses : (s.adv t).routeIn (match die with
      | some d => .die d
      | none => .router r) pkt = some (p, ver, port, s1)) :
    exec (.packetRoute t r die pkt) s = .next (
      if p.kind = .reserved then s1.discard.retire
      else if p.kind = .steward ∧ p.destKind = .hub ∧ p.destDev = s1.hub.devId then (s1.stewardTake p).retire
      else (die.elim (s1.rtrRoute r ver port p) fun d => s1.dieRoute d ver port p).retire) := by
  rw [← apply_ite State.retire, ← apply_ite State.retire]
  show execPacketRoute t r die pkt s = _
  cases die with
  | none | some d => simp only [execPacketRoute, hpasses, Option.elim]

/-- A Steward packet for this device's hub is taken there (R52, R352; log 36). -/
theorem packetRoute_steward_does (t r : Nat) (die : Option Nat) (pkt p : Packet) (ver : Bool) (port : Option Nat) (s1 : State) :
    Does t (.packetRoute t r die pkt)
      (fun s => s.routeIn (match die with
        | some d => .die d
        | none => .router r) pkt = some (p, ver, port, s1) ∧ p.kind = .steward ∧ p.destKind = .hub ∧ p.destDev = s1.hub.devId) fun _ =>
      (s1.stewardTake p).retire := by
  rintro s ⟨hpasses, hsteward⟩
  have hkind : p.kind ≠ .reserved := fun h => PKind.noConfusion (h.symm.trans hsteward.1)
  rw [packetRoute_routes hpasses, if_neg hkind, if_pos hsteward]

/-- A packet of a reserved kind is dropped and counted (R352). -/
theorem packetRoute_reserved_does (t r : Nat) (die : Option Nat) (pkt p : Packet) (ver : Bool) (port : Option Nat) (s1 : State) :
    Does t (.packetRoute t r die pkt)
      (fun s => s.routeIn (match die with
        | some d => .die d
        | none => .router r) pkt = some (p, ver, port, s1) ∧ p.kind = .reserved) fun _ => s1.discard.retire := by
  rintro s ⟨hpasses, hkind⟩
  rw [packetRoute_routes hpasses, if_pos hkind]

/-- Every other packet at a port die goes on from there (R354, R358). -/
theorem packetRoute_die_does (t r d : Nat) (pkt p : Packet) (ver : Bool) (port : Option Nat) (s1 : State) : Does t (.packetRoute t r (some d) pkt)
    (fun s => s.routeIn (.die d) pkt = some (p, ver, port, s1) ∧ p.kind ≠ .reserved ∧
      ¬ (p.kind = .steward ∧ p.destKind = .hub ∧ p.destDev = s1.hub.devId)) fun _ => (s1.dieRoute d ver port p).retire := by
  rintro s ⟨hpasses, hkind, hother⟩
  rw [packetRoute_routes hpasses, if_neg hkind, if_neg hother, Option.elim_some]

/-- Every other packet at a router goes on from there (R354, R358). -/
theorem packetRoute_router_does (t r : Nat) (pkt p : Packet) (ver : Bool) (port : Option Nat) (s1 : State) : Does t (.packetRoute t r none pkt)
    (fun s => s.routeIn (.router r) pkt = some (p, ver, port, s1) ∧ p.kind ≠ .reserved ∧
      ¬ (p.kind = .steward ∧ p.destKind = .hub ∧ p.destDev = s1.hub.devId)) fun _ => (s1.rtrRoute r ver port p).retire := by
  rintro s ⟨hpasses, hkind, hother⟩
  rw [packetRoute_routes hpasses, if_neg hkind, if_neg hother, Option.elim_none]

/-! ## Combining and drained changes (R359, R362) -/

/-- A combining unit whose wait is over, or that has merged 16 packets, forwards its segment under a tag of its own (R362). -/
theorem combineForward_does (t r n : Nat) (g : CuSeg) (tag : Nat) : Does t (.combineForward t r n)
    (fun s => s.cu r n = some g ∧ g.sentTag = none ∧ s.freeTag (rtrDie r) = some tag ∧
      (10 * s.routing.cmbWait ≤ 3 * (s.now - g.since) ∨ 16 ≤ g.merges)) fun s =>
    let p := { g.pkt with srcDev := s.hub.devId, srcKind := .combiner, srcIdx := 4 * r + n, tag }
    (((s.setTxn (rtrDie r) tag (some { part := p.srcPart, pkt := p, since := s.now })).setCu r n
      (some { g with sentTag := some tag })).launch p).retire := by
  rintro s ⟨hholds, hunsent, htag, hdue⟩
  show execCombineForward t r n s = _
  simp only [execCombineForward, hholds, if_pos hdue, State.cuForward, hunsent, htag, Option.isSome_none, Bool.false_eq_true, if_false]

/-- A change of a class that is drained, or 100 µs old, takes effect: what was on hold leaves under the new version, and the command completes
(R359). -/
theorem routeDrainComplete_does (t cls mb start : Nat) : Does t (.routeDrainComplete t cls)
    (fun s => (s.rcfg cls).swap = some (mb, some start) ∧ (s.drained cls = true ∨ start + 100 * ftUs ≤ s.now)) fun s =>
    let s1 := ((s.modRcfg cls fun x => { x with ver := !x.ver, hold := false, swap := none }).retagHeld cls).injectHeld cls
    let s2 := (List.range 16).foldl (fun s p => if (s.part p).slots.any fun sl => sl.running.contains 4 then s.slotEnd p 4 else s) s1
    (((s2.finish mb stOk).dmaPump 0).dmaPump 1).mirrorGo := by
  rintro s ⟨hchange, hdue⟩
  show execRouteDrainComplete t cls s = _
  simp only [execRouteDrainComplete, hchange, if_pos hdue]

/-- Settles O38: each row has its effect, one lemma per row and branch. -/
theorem routingRowsAct : Obligations.RoutingRowsAct := by
  unfold Obligations.RoutingRowsAct
  exact ⟨packetRoute_waits_does, packetRoute_steward_does, packetRoute_reserved_does, packetRoute_die_does, packetRoute_router_does,
    combineForward_does, routeDrainComplete_does⟩

end Sys2Proof.Machine
end
section
/-! PROOFS. The rows of a port's training (11 R336 to R338, R347): lanes lock or fail, the gate judges them, maps and `INIT`s are exchanged, training is
abandoned or asked for again. -/

namespace Sys2Proof.Machine

/-! ## Lanes and the gate (R336, R337) -/

/-- An enabled port that is not at the gate trains, or goes on, with the lanes that have locked (R336). -/
theorem portTrain_locks_does (t p : Nat) (mask : BitVec 9) (peer : Option (BitVec 9 × Nat)) : Does t (.portTrain t p { mask, peer })
    (fun s => p < 24 ∧ (s.port p).enabled = true ∧ (s.port p).st ≠ .gate ∧ s.hub.inReset = false) fun s =>
    ((if (s.port p).st = .training then s else s.trainStart p).modPort p fun x =>
      { x with locked := x.locked ||| (mask &&& ~~~x.failed), trainStep := 2 }).tryGate p := by
  rintro s ⟨hport, henabled, hbefore, hup⟩
  show execPortTrain t p { mask, peer } s = _
  simp only [execPortTrain, Nat.not_le.mpr hport, henabled, hup, if_neg hbefore, not_true_eq_false, Bool.false_eq_true, or_self, if_false]

/-- A lane that has not locked in time is failed (R336). -/
theorem laneLockTimeout_does (t p l : Nat) : Does t (.laneLockTimeout t p l)
    (fun s => (s.port p).st = .training ∧ l < 9 ∧ bitAt (s.port p).locked l = false) fun s =>
    (s.modPort p fun x => { x with failed := failLane x.failed l }).tryGate p :=
  does_of_guard (guard := fun s => (s.port p).st = .training ∧ l < 9 ∧ ¬ bitAt (s.port p).locked l) (fun _ => rfl)
    fun _ ⟨htraining, hlane, hunlocked⟩ => ⟨htraining, hlane, Bool.eq_false_iff.mp hunlocked⟩

/-- The gate fails and records the lanes of too many errors, and the port tells its partner its good lanes (R336, R337). -/
theorem berGateEnd_does (t p : Nat) (errs : List Nat) : Does t (.berGateEnd t p errs)
    (fun s => (s.port p).st = .gate ∧ (s.port p).trainStep = 3) fun s =>
    let bad := (List.range 9).filter fun i => bitAt (s.port p).locked i && decide (20000 < errs.getD i 0)
    let s1 := bad.foldl (fun s i => (s.modPort p fun x => { x with failed := failLane x.failed i }).report 0x0505 3 0xFF
      (lanternUnit p i) [(8, i), (24, 0), (32, errs.getD i 0)]) s
    let s2 := s1.modPort p fun x => { x with trainStep := 4, lsOk := !bitAt x.failed 8 }
    s2.emit (.linkMap p (~~~(s2.port p).failed) (s2.port p).minWidth) :=
  does_of_guard (guard := fun s => (s.port p).st = .gate ∧ (s.port p).trainStep = 3) (fun _ => rfl) fun _ h => h

/-- The partner's map forms the lane map in force; a port too narrow for it goes DOWN, another sends its `INIT` (R336). -/
theorem portTrain_maps_does (t p : Nat) (mask lanes : BitVec 9) (mw : Nat) : Does t (.portTrain t p { mask, peer := some (lanes, mw) })
    (fun s => p < 24 ∧ (s.port p).enabled = true ∧ (s.port p).st = .gate ∧ 4 ≤ (s.port p).trainStep ∧ s.hub.inReset = false) fun s =>
    let f := (s.port p).failed ||| ~~~lanes
    let s1 := s.modPort p fun x =>
      { x with failed := f, lanes := laneMap f, sub := laneSub f, lsOk := !bitAt f 8, peerMin := mw, trainStep := 6 }
    if (laneMap f).length < (s1.port p).needWidth then s1.portDown p 1 else (s1.slotMark p).sendCtl p ((s1.slotMark p).initOp p) := by
  rintro s ⟨hport, henabled, hgate, hjudged, hup⟩
  show execPortTrain t p { mask, peer := some (lanes, mw) } s = _
  simp only [execPortTrain, Nat.not_le.mpr hport, henabled, hup, if_pos hgate, if_pos hjudged, State.mapForm, not_true_eq_false,
    Bool.false_eq_true, or_self, if_false]

/-- A training that the partner does not answer ends DOWN with cause 6 (R337). -/
theorem trainingAbandon_does (t p : Nat) : Does t (.trainingAbandon t p) (fun s => (s.port p).st = .training ∨ (s.port p).st = .gate) fun s =>
    s.portDown p 6 :=
  does_of_guard (guard := fun s => (s.port p).st = .training ∨ (s.port p).st = .gate) (fun _ => rfl) fun _ h => h

/-! ## Requests to retrain (R338, R347) -/

/-- A port that is UP or DOWN answers a request to retrain and trains (R347). -/
theorem retrainRequestReceive_trains_does (t p : Nat) : Does t (.retrainRequestReceive t p)
    (fun s => (s.port p).st = .up ∨ (s.port p).st = .down) fun s => (s.ctlAnswer p .retrain).trainStart p := by
  intro s hst
  show execRetrainRequestReceive t p s = _
  simp only [execRetrainRequestReceive, if_pos hst]

/-- A port that trains takes a request as the answer to its own (R347). -/
theorem retrainRequestReceive_answered_does (t p : Nat) : Does t (.retrainRequestReceive t p)
    (fun s => (s.port p).st ≠ .up ∧ (s.port p).st ≠ .down ∧ (s.port p).awaits 3 = true) fun s =>
    s.modPort p fun x => { x with ctlPend := x.ctlPend.filter fun e => ctlCode e.1 != 3 } := by
  rintro s ⟨hup, hdown, hawaits⟩
  show execRetrainRequestReceive t p s = _
  simp only [execRetrainRequestReceive, hup, hdown, or_self, if_false, if_pos hawaits]

/-! ## `INIT` (R336, R340, R346) -/

/-- The `INIT` of a partner of a port in service acknowledges the port's own, or is answered outside a swap (R347). -/
theorem initFlitReceive_up {t p : Nat} {s : State} (dev pp : Nat) (res sh : List Nat) (slot : Nat) (ks : Bool) (ack : BitVec 16)
    (hup : ((s.adv t).port p).st = .up) : exec (.initFlitReceive t p (.init dev pp res sh slot ks ack)) s = .next (
      let s1 := (s.adv t).modPort p fun x => { x with slotRx := max x.slotRx slot }
      let s2 := if ((s.adv t).port p).awaits 1 = true then s1.modPort p fun x => { x with ctlPend := x.ctlPend.filter fun e => ctlCode e.1 != 1 }
        else if ((s.adv t).port p).swap.isSome = true then s1 else s1.sendFlit p (.control (s1.initOp p))
      if ((s.adv t).port p).swap.isSome = true then (s2.modPort p fun x => { x with swapAck := some ack }).swapEnd p else s2.takeAck p ack) := by
  show execInitFlitReceive t p (.init dev pp res sh slot ks ack) s = _
  simp only [execInitFlitReceive, hup, reduceCtorEq, false_and, if_false, if_true]

/-- The `INIT` of a port in service carries an acknowledgement (R340, R346). -/
theorem initFlitReceive_acks_does (t p dev pp : Nat) (res sh : List Nat) (slot : Nat) (ks : Bool) (ack : BitVec 16) :
    Does t (.initFlitReceive t p (.init dev pp res sh slot ks ack)) (fun s => (s.port p).st = .up ∧ (s.port p).swap = none) fun s =>
    let s1 := s.modPort p fun x => { x with slotRx := max x.slotRx slot }
    (if (s.port p).awaits 1 = true then s1.modPort p fun x => { x with ctlPend := x.ctlPend.filter fun e => ctlCode e.1 != 1 }
      else s1.sendFlit p (.control (s1.initOp p))).takeAck p ack := by
  rintro s ⟨hup, hwhole⟩
  simp only [initFlitReceive_up dev pp res sh slot ks ack hup, hwhole, Option.isSome_none, Bool.false_eq_true, if_false]

/-- The `INIT` of a swap carries its last acknowledgement, and ends the swap once the port's own has gone (R340). -/
theorem initFlitReceive_swaps_does (t p dev pp : Nat) (res sh : List Nat) (slot : Nat) (ks : Bool) (ack : BitVec 16) (w : Nat × Nat × Bool) :
    Does t (.initFlitReceive t p (.init dev pp res sh slot ks ack)) (fun s => (s.port p).st = .up ∧ (s.port p).swap = some w) fun s =>
    let s1 := s.modPort p fun x => { x with slotRx := max x.slotRx slot }
    ((if (s.port p).awaits 1 = true then s1.modPort p fun x => { x with ctlPend := x.ctlPend.filter fun e => ctlCode e.1 != 1 }
      else s1).modPort p fun x => { x with swapAck := some ack }).swapEnd p := by
  rintro s ⟨hup, hswap⟩
  simp only [initFlitReceive_up dev pp res sh slot ks ack hup, hswap, Option.isSome_some, if_true]

/-- The `INIT` of the partner in step 6 gives the port its partner's values and takes it UP (R336). -/
theorem initFlitReceive_gate_does (t p dev pp : Nat) (res sh : List Nat) (slot : Nat) (ks : Bool) (ack : BitVec 16) :
    Does t (.initFlitReceive t p (.init dev pp res sh slot ks ack)) (fun s => (s.port p).st = .gate ∧ (s.port p).trainStep = 6) fun s =>
    ((s.ctlAnswer p (.init dev pp res sh slot ks ack)).modPort p fun x =>
      { x with partnerDev := dev, partnerPort := pp, slotRx := max x.slotRx slot, keySelRx := ks
               usedRes := (List.range 32).foldl (fun t n => Tbl.set 0 n (64 - res.getD n 64) t) []
               usedShared := (List.range 4).foldl (fun t c => Tbl.set 0 c (7680 - sh.getD c 7680) t) [] }).portUp p := by
  intro s hmapped
  show execInitFlitReceive t p (.init dev pp res sh slot ks ack) s = _
  simp only [execInitFlitReceive, if_pos hmapped]

/-- Settles O40: each row has its effect, one lemma per row and branch. -/
theorem trainingRowsAct : Obligations.TrainingRowsAct := by
  unfold Obligations.TrainingRowsAct
  exact ⟨portTrain_locks_does, laneLockTimeout_does, berGateEnd_does, portTrain_maps_does, trainingAbandon_does, retrainRequestReceive_trains_does,
    retrainRequestReceive_answered_does, initFlitReceive_acks_does, initFlitReceive_swaps_does, initFlitReceive_gate_does⟩

end Sys2Proof.Machine
end
section
/-! PROOFS. The rows of a port in service (11 R339 to R341, R344, R345, R347, R349, R372; 17 R537): acknowledgements and resends, flits, lane
failures, swaps, and the control flits of keys, notices and widths. -/

namespace Sys2Proof.Machine

/-! ## Retry (R345) -/

/-- A refused flit is taken as an acknowledgement and leads to a resend (R345). -/
theorem nakReceive_does (t p : Nat) (ack : BitVec 16) : Does t (.nakReceive t p ack)
    (fun s => (s.port p).st = .up ∧ (s.port p).swap = none) fun s => (s.takeAck p ack).goBack p :=
  does_of_guard (guard := fun s => (s.port p).st = .up ∧ (s.port p).swap = none) (fun _ => rfl) fun _ h => h

/-- An acknowledgement that has not come in 2 µs leads to a resend (R345). -/
theorem retryAckTimeout_does (t p : Nat) (e : RetryEnt) (rest : List RetryEnt) : Does t (.retryAckTimeout t p)
    (fun s => (s.port p).retry = e :: rest ∧ (s.port p).st = .up ∧ (s.port p).swap = none ∧ e.ft + 2 * ftUs ≤ s.now) fun s => s.goBack p := by
  rintro s ⟨hretry, hdue⟩
  show execRetryAckTimeout t p s = _
  simp only [execRetryAckTimeout, hretry, if_pos hdue]

/-- A resend is counted and sends what is unacknowledged (R345). -/
theorem goBack_resends {s : State} {p : Nat} {e : RetryEnt} {rest : List RetryEnt} (hretry : (s.port p).retry = e :: rest)
    (hfew : (s.port p).resends < 16) : s.goBack p =
    ((s.modPort p fun x => { x with ctr := { x.ctr with retries := (ctrAdd (s.port p).ctr.retries 1).1 }, resends := x.resends + 1 }).ovfIf
      (ctrAdd (s.port p).ctr.retries 1).2 (0x18000000 + p) 5).resendAll p := by
  simp only [State.goBack, hretry, if_neg (Nat.not_le.mpr hfew)]

/-- A flit that has been resent 16 times takes the port through a retrain, where that has not been tried since the last acknowledgement (R345; log
161). -/
theorem goBack_retrains {s : State} {p : Nat} {e : RetryEnt} {rest : List RetryEnt} (hretry : (s.port p).retry = e :: rest)
    (hmany : 16 ≤ (s.port p).resends) (hfirst : (s.port p).retrained = false) : s.goBack p =
    ((s.report 0x0508 3 0xFF (lanternUnit p 15) [(8, 1), (16, e.seq.toNat)]).trainStart p).modPort p fun x => { x with retrained := true } := by
  simp only [State.goBack, hretry, if_pos hmany, hfirst, Bool.false_eq_true, if_false]

/-! ## Flits (R344, R345, R349) -/

/-- The state of a port that has counted the slot of a received flit and the symbols of its codeword. -/
def State.slotCounted (s : State) (p : Nat) (f : RxFlit) : State :=
  (s.modPort p fun x => { x with slotRx := (s.port p).slotRx + f.idle + 1 }).countSymbols p f

/-- A port that is neither OFF nor DOWN passes the test that turns flits away. -/
theorem not_mem_off_down {st : PortSt} (hoff : st ≠ .off) (hdown : st ≠ .down) : ¬ st ∈ [PortSt.off, .down] := by
  simp only [List.mem_cons, hoff, hdown, List.not_mem_nil, or_self, not_false_eq_true]

/-- A codeword that is corrected and whose `CRC` matches brings a flit: its tag decides (R344, R349). -/
theorem flitReceive_whole {t p : Nat} {f : RxFlit} {s : State} (hoff : ((s.adv t).port p).st ≠ .off) (hdown : ((s.adv t).port p).st ≠ .down)
    (hfec : f.fecOk = true) (hcrc : crcOk f.bytes = true) : exec (.flitReceive t p f) s = .next (
      match ((s.adv t).slotCounted p f).flitBody p (((s.adv t).port p).slotRx + f.idle) (flitHeadOf f.bytes) f.bytes with
      | none => (((s.adv t).slotCounted p f).authFail p (flitHeadOf f.bytes).keySel).flitLost p f.timeSlot
      | some body => ((s.adv t).slotCounted p f).flitGood p (flitHeadOf f.bytes) body f.shared) := by
  show execFlitReceive t p f s = _
  simp only [execFlitReceive, if_neg (not_mem_off_down hoff hdown), hfec, hcrc, not_true_eq_false, if_false]
  rfl

/-- A flit whose tag verifies is taken (R345, R349). -/
theorem flitReceive_good_does (t p : Nat) (f : RxFlit) (body : List Byte) : Does t (.flitReceive t p f)
    (fun s => (s.port p).st ≠ .off ∧ (s.port p).st ≠ .down ∧ f.fecOk = true ∧ crcOk f.bytes = true ∧
      (s.slotCounted p f).flitBody p ((s.port p).slotRx + f.idle) (flitHeadOf f.bytes) f.bytes = some body) fun s =>
    (s.slotCounted p f).flitGood p (flitHeadOf f.bytes) body f.shared := by
  rintro s ⟨hoff, hdown, hfec, hcrc, htag⟩
  rw [flitReceive_whole hoff hdown hfec hcrc, htag]

/-- A flit whose tag does not verify is an authentication failure, and lost (R349). -/
theorem flitReceive_forged_does (t p : Nat) (f : RxFlit) : Does t (.flitReceive t p f)
    (fun s => (s.port p).st ≠ .off ∧ (s.port p).st ≠ .down ∧ f.fecOk = true ∧ crcOk f.bytes = true ∧
      (s.slotCounted p f).flitBody p ((s.port p).slotRx + f.idle) (flitHeadOf f.bytes) f.bytes = none) fun s =>
    ((s.slotCounted p f).authFail p (flitHeadOf f.bytes).keySel).flitLost p f.timeSlot := by
  rintro s ⟨hoff, hdown, hfec, hcrc, htag⟩
  rw [flitReceive_whole hoff hdown hfec hcrc, htag]

/-- The body of an encrypted data flit is what its seal opens to (R349). -/
theorem flitBody_sealed {s : State} {p slot : Nat} {b : List Byte} (henc : (flitHeadOf b).enc = true) (hkind : (flitHeadOf b).kind = 1) :
    s.flitBody p slot (flitHeadOf b) b =
    Config.gcmOpen (s.linkKey p 1 (flitHeadOf b).keySel).key (nonceOf (s.linkKey p 1 (flitHeadOf b).keySel) slot) (b.take 12) (slice b 12 624) := by
  simp only [State.flitBody, henc, hkind, not_true_eq_false, one_ne_zero, OfNat.one_ne_ofNat, or_self, if_false]

/-- A flit whose `CRC` does not match is counted, recorded and lost (R344). -/
theorem flitReceive_crc_does (t p : Nat) (f : RxFlit) : Does t (.flitReceive t p f)
    (fun s => (s.port p).st ≠ .off ∧ (s.port p).st ≠ .down ∧ f.fecOk = true ∧ crcOk f.bytes = false) fun s =>
    let c := ctrAdd (s.port p).ctr.crcFail 1
    (((((s.slotCounted p f).modPort p fun x => { x with ctr := { x.ctr with crcFail := c.1 } }).ovfIf c.2 (0x18000000 + p) 4).report 0x0507 3 0xFF
      (lanternUnit p 15) [(64, c.1.v)]).flitLost p f.timeSlot) := by
  rintro s ⟨hoff, hdown, hfec, hcrc⟩
  show execFlitReceive t p f s = _
  simp only [execFlitReceive, if_neg (not_mem_off_down hoff hdown), hfec, hcrc, not_true_eq_false, Bool.false_eq_true, not_false_eq_true, if_false,
    if_true]
  rfl

/-- A codeword that FEC cannot correct is counted and recorded, and its flit lost (R344). -/
theorem flitReceive_fec_does (t p : Nat) (f : RxFlit) : Does t (.flitReceive t p f)
    (fun s => (s.port p).st ≠ .off ∧ (s.port p).st ≠ .down ∧ f.fecOk = false) fun s =>
    let c := ctrAdd (s.port p).ctr.fecUncorr 1
    (((((s.slotCounted p f).modPort p fun x => { x with ctr := { x.ctr with fecUncorr := c.1 } }).ovfIf c.2 (0x18000000 + p) 3).report 0x0506 3 0xFF
      (lanternUnit p 15) [(64, c.1.v)]).flitLost p f.timeSlot) := by
  rintro s ⟨hoff, hdown, hfec⟩
  show execFlitReceive t p f s = _
  simp only [execFlitReceive, if_neg (not_mem_off_down hoff hdown), hfec, Bool.false_eq_true, not_false_eq_true, if_true]
  rfl

/-! ## Lane failures (R339) -/

/-- An error record takes no time (R322). -/
theorem report_now (s : State) (cls kind part unit : Nat) (detail : List (Nat × Nat)) :
    (s.report cls kind part unit detail).now = s.now := congrArg (fun x => x.2.ft) (reportOp_regionsAt s cls kind part unit 0xFFFF detail)

/-- A mapped lane that fails without a planned swap is recorded, and swapped or removed at once or after the swap that runs (R339). -/
theorem laneFail_swaps_does (t p l c r : Nat) : Does t (.laneFail t p l { cause := c, ratio := r })
    (fun s => (s.port p).st = .up ∧ l ∈ (s.port p).lanes ∧ (c ≠ 3 ∨ (s.port p).canSwap l = false ∨ (s.port p).swap.isSome = true)) fun s =>
    (s.report 0x0501 3 0xFF (lanternUnit p l) [(8, c), (8, l), (16, 0), (32, r)]).swapAlso p l s.now false := by
  rintro s ⟨hup, hmapped, hunplanned⟩
  have hno : ¬ (c = 3 ∧ ((s.adv t).port p).canSwap l = true ∧ ((s.adv t).port p).swap = none) := by
    rintro ⟨hslow, hspare, hwhole⟩
    rcases hunplanned with hcause | hnospare | hswap
    · exact hcause hslow
    · exact Bool.false_ne_true (hnospare.symm.trans hspare)
    · rw [hwhole] at hswap
      exact Bool.false_ne_true hswap
  show execLaneFail t p l { cause := c, ratio := r } s = _
  simp only [execLaneFail, hup, hmapped, true_or, and_self, not_true_eq_false, if_true, if_false, if_neg hno]
  rw [report_now]

/-- A mapped lane that degrades slowly with a spare lane to take its place begins a planned swap (R339, R347). -/
theorem laneFail_plans_does (t p l r : Nat) : Does t (.laneFail t p l { cause := 3, ratio := r })
    (fun s => (s.port p).st = .up ∧ (s.port p).swap = none ∧ l ∈ (s.port p).lanes ∧ (s.port p).canSwap l = true) fun s =>
    (s.report 0x0501 3 0xFF (lanternUnit p l) [(8, 3), (8, l), (16, 0), (32, r)]).sendCtl p (.swapPlan l) := by
  rintro s ⟨hup, hwhole, hmapped, hspare⟩
  show execLaneFail t p l { cause := 3, ratio := r } s = _
  simp only [execLaneFail, hup, hwhole, hmapped, hspare, true_or, and_self, not_true_eq_false, if_true, if_false]

/-- The spare lane, out of use, is lost when it fails (R339). -/
theorem laneFail_spare_does (t p c r : Nat) : Does t (.laneFail t p 8 { cause := c, ratio := r })
    (fun s => (s.port p).st = .up ∧ 8 ∉ (s.port p).lanes ∧ (s.port p).lsOk = true) fun s =>
    (s.report 0x0501 3 0xFF (lanternUnit p 8) [(8, c), (8, 8), (16, 0), (32, r)]).modPort p fun x =>
      { x with lsOk := false, failed := failLane x.failed 8 } := by
  rintro s ⟨hup, hunused, hgood⟩
  show execLaneFail t p 8 { cause := c, ratio := r } s = _
  simp only [execLaneFail, hup, hunused, hgood, and_self, or_true, not_false_eq_true, if_true]

/-! ## Swaps (R339 to R341, R347, R369, R372) -/

/-- The partner's swap ordered set begins a swap where none runs; it is a planned one where this port has asked for it (R340, R372). -/
theorem swapOrderedSetReceive_does (t p l : Nat) : Does t (.swapOrderedSetReceive t p l)
    (fun s => (s.port p).st = .up ∧ (s.port p).swap = none ∧ l ∈ (s.port p).lanes) fun s =>
    s.swapBegin p l ((s.port p).planFt s.now) ((s.port p).awaits 4) := by
  rintro s ⟨hup, hwhole, hmapped⟩
  show execSwapOrderedSetReceive t p l s = _
  simp only [execSwapOrderedSetReceive, hup, hmapped, and_self, if_true, State.swapAlso, hwhole]

/-- The partner's plan is answered and begins a planned swap (R339, R347). -/
theorem swapPlanReceive_does (t p l : Nat) : Does t (.swapPlanReceive t p l)
    (fun s => (s.port p).st = .up ∧ (s.port p).swap = none ∧ l ∈ (s.port p).lanes) fun s =>
    (s.ctlAnswer p (.swapPlan l)).swapBegin p l ((s.port p).planFt s.now) true :=
  does_of_guard (guard := fun s => (s.port p).st = .up ∧ (s.port p).swap = none ∧ l ∈ (s.port p).lanes) (fun _ => rfl) fun _ h => h

/-- The resumption puts the spare lane in the place of the failed one, and the port sends its `INIT` (R340, R369). -/
theorem laneSwapResume_swaps_does (t p l since : Nat) (pl : Bool) : Does t (.laneSwapResume t p)
    (fun s => (s.port p).swap = some (l, since, pl) ∧ (s.port p).canSwap l = true ∧ (s.port p).swapInit = false) fun s =>
    let s1 := (s.slotMark p).modPort p fun x =>
      { x with sub := l, swapInit := true, ctlPend := x.ctlPend.filter fun e => ctlCode e.1 != 4
               lanes := x.lanes.map fun l' => if l' = l then 8 else l'
               failed := failLane x.failed l, lsOk := x.lsOk && l != 8 }
    (s1.sendCtl p (s1.initOp p)).swapEnd p := by
  rintro s ⟨hswap, hspare, hunsent⟩
  show execLaneSwapResume t p s = _
  simp only [execLaneSwapResume, hswap, hspare, hunsent, Bool.false_eq_true, if_false, if_true]

/-- The resumption without a spare lane goes on without the failed one, and the port sends its `INIT` (R341, R369). -/
theorem laneSwapResume_narrows_does (t p l since : Nat) (pl : Bool) : Does t (.laneSwapResume t p)
    (fun s => (s.port p).swap = some (l, since, pl) ∧ (s.port p).canSwap l = false ∧ (s.port p).swapInit = false) fun s =>
    let s1 := (s.slotMark p).modPort p fun x =>
      { x with sub := if l = 8 then 0xF else x.sub, swapInit := true, ctlPend := x.ctlPend.filter fun e => ctlCode e.1 != 4
               lanes := x.lanes.filter fun l' => l' != l
               failed := failLane x.failed l, lsOk := x.lsOk && l != 8 }
    (s1.sendCtl p (s1.initOp p)).swapEnd p := by
  rintro s ⟨hswap, hnospare, hunsent⟩
  show execLaneSwapResume t p s = _
  simp only [execLaneSwapResume, hswap, hnospare, hunsent, Bool.false_eq_true, if_false]

/-- A swap ends once both `INIT`s have passed: it is recorded, and data resumes from what the partner has not acknowledged (R340). -/
theorem swapEnd_resumes {s : State} {p l since : Nat} {pl : Bool} {ack : BitVec 16} (hswap : (s.port p).swap = some (l, since, pl))
    (hack : (s.port p).swapAck = some ack) (hsent : (s.port p).swapInit = true) (hsub : (s.port p).sub = l)
    (hwide : (s.port p).needWidth ≤ (s.port p).lanes.length) (hlast : (s.port p).swapNext = []) : s.swapEnd p =
      ((((s.report 0x0502 3 0xFF (lanternUnit p l) [(8, l), (8, b1 pl), (16, 0), (32, (s.now - since) / ftUs)]).modPort p fun x =>
        { x with swap := none, swapInit := false, swapAck := none, swapNext := x.swapNext.drop 1 }).takeAck p ack).resendAll p).pump p := by
  simp only [State.swapEnd, hswap, hack, hsent, hlast, not_true_eq_false, if_false, if_pos hsub, if_neg (Nat.not_lt.mpr hwide)]

/-! ## Keys (R347, R537) -/

/-- The partner's announcement of a key is kept and answered (R347, R537). -/
theorem keyNextReceive_partner_does (t p slot : Nat) : Does t (.keyNextReceive t p slot)
    (fun s => (s.port p).st = .up ∧ ((s.port p).keyNextTx ≠ some slot ∨ (s.port p).awaits 2 = false)) fun s =>
    (s.modPort p fun x => { x with keyNextRx := some slot }).sendFlit p (.control (.keyNext slot)) := by
  rintro s ⟨hup, hother⟩
  have hno : ¬ (((s.adv t).port p).keyNextTx = some slot ∧ ((s.adv t).port p).awaits 2 = true) := fun ⟨hown, hawaits⟩ =>
    hother.elim (· hown) fun h => Bool.false_ne_true (h.symm.trans hawaits)
  show execKeyNextReceive t p slot s = _
  simp only [execKeyNextReceive, hup, ne_eq, not_true_eq_false, if_false, if_neg hno]

/-- The answer to an own announcement ends its resends (R347). -/
theorem keyNextReceive_own_does (t p slot : Nat) : Does t (.keyNextReceive t p slot)
    (fun s => (s.port p).st = .up ∧ (s.port p).keyNextTx = some slot ∧ (s.port p).awaits 2 = true) fun s => s.ctlAnswer p (.keyNext slot) := by
  rintro s ⟨hup, hown⟩
  show execKeyNextReceive t p slot s = _
  simp only [execKeyNextReceive, hup, ne_eq, not_true_eq_false, if_false, if_pos hown]

/-- The receive direction takes its other key slot at the announced count (R537). -/
theorem keySelChange_rx_does (t p n : Nat) : Does t (.keySelChange t p true) (fun s => (s.port p).keyNextRx = some n) fun s =>
    s.modPort p fun x => { x with keySelRx := !x.keySelRx, keyNextRx := none, slotRx := max x.slotRx n } := by
  intro s hnext
  show execKeySelChange t p true s = _
  simp only [execKeySelChange, hnext, if_true]

/-- The transmit direction takes its other key slot at the announced count (R537). -/
theorem keySelChange_tx_does (t p n : Nat) : Does t (.keySelChange t p false) (fun s => (s.port p).keyNextTx = some n) fun s =>
    s.modPort p fun x => { x with keySelTx := !x.keySelTx, keyNextTx := none, slotTx := max x.slotTx n } := by
  intro s hnext
  show execKeySelChange t p false s = _
  simp only [execKeySelChange, hnext, Bool.false_eq_true, if_false]

/-! ## Notices, widths and resends (R338, R347) -/

/-- A `DOWN_NOTICE`, the partner's or the answer to an own one, takes the port DOWN with cause 5 (R338). -/
theorem downNoticeReceive_does (t p : Nat) : Does t (.downNoticeReceive t p) (fun s => (s.port p).st = .up) fun s =>
    (s.ctlAnswer p .downNotice).portDown p 5 :=
  does_of_guard (guard := fun s => (s.port p).st = .up) (fun _ => rfl) fun _ h => h

/-- The partner's minimum width is answered and kept, and a port that it finds too narrow goes DOWN (R335, R347). -/
theorem minWidthReceive_does (t p w : Nat) : Does t (.minWidthReceive t p w)
    (fun s => ((s.port p).st = .up ∨ ((s.port p).st = .gate ∧ 6 ≤ (s.port p).trainStep)) ∧ 4 ≤ w ∧ w ≤ 8) fun s =>
    let s1 := (if (s.port p).awaits 6 = true then s.ctlAnswer p (.minWidth w) else s.sendFlit p (.control (.minWidth (s.port p).minWidth))).modPort p
      fun x => { x with peerMin := w }
    if (s1.port p).lanes.length < (s1.port p).needWidth then s1.portDown p 1 else s1 :=
  does_of_guard
    (guard := fun s => ((s.port p).st = .up ∨ ((s.port p).st = .gate ∧ 6 ≤ (s.port p).trainStep)) ∧ 4 ≤ w ∧ w ≤ 8) (fun _ => rfl) fun _ h => h

/-- A forced port goes DOWN 10 µs after its notice (R338). -/
theorem controlFlitResend_late_does (t p : Nat) : Does t (.controlFlitResend t p)
    (fun s => (s.port p).st ≠ .off ∧ (s.port p).st ≠ .down ∧
      ((s.port p).ctlPend.any fun e => ctlCode e.1 == 5 && decide (e.2.1 + 10 * ftUs ≤ s.now)) = true) fun s => s.portDown p 5 := by
  rintro s ⟨hoff, hdown, hlate⟩
  show execControlFlitResend t p s = _
  simp only [execControlFlitResend, if_neg (not_mem_off_down hoff hdown), hlate, if_true]

/-- The control flits that are 1 µs old go again (R347). -/
theorem controlFlitResend_resends_does (t p : Nat) : Does t (.controlFlitResend t p)
    (fun s => (s.port p).st ≠ .off ∧ (s.port p).st ≠ .down ∧
      ((s.port p).ctlPend.any fun e => ctlCode e.1 == 5 && decide (e.2.1 + 10 * ftUs ≤ s.now)) = false) fun s =>
    ((s.port p).ctlPend.filter fun e => decide (e.2.2 + ftUs ≤ s.now)).foldl (fun s e => s.sendFlit p (.control e.1))
      (s.modPort p fun x => { x with ctlPend := x.ctlPend.map fun e => if e.2.2 + ftUs ≤ s.now then (e.1, e.2.1, s.now) else e }) := by
  rintro s ⟨hoff, hdown, hearly⟩
  show execControlFlitResend t p s = _
  simp only [execControlFlitResend, if_neg (not_mem_off_down hoff hdown), hearly, Bool.false_eq_true, if_false, decide_eq_true_eq]

/-- Settles O41: each row has its effect, one lemma per row and branch, with what a resend, a sealed flit and the end of a swap come to. -/
theorem linkRowsAct : Obligations.LinkRowsAct := by
  unfold Obligations.LinkRowsAct
  exact ⟨nakReceive_does, retryAckTimeout_does, fun _ _ _ _ => goBack_resends, fun _ _ _ _ => goBack_retrains, flitReceive_good_does,
    flitReceive_forged_does, fun _ _ _ _ => flitBody_sealed, flitReceive_crc_does, flitReceive_fec_does, laneFail_swaps_does, laneFail_plans_does,
    laneFail_spare_does, swapOrderedSetReceive_does, swapPlanReceive_does, laneSwapResume_swaps_does, laneSwapResume_narrows_does,
    fun _ _ _ _ _ _ => swapEnd_resumes, keyNextReceive_partner_does, keyNextReceive_own_does, keySelChange_rx_does, keySelChange_tx_does,
    downNoticeReceive_does, minWidthReceive_does, controlFlitResend_late_does, controlFlitResend_resends_does⟩

end Sys2Proof.Machine
end

section
/-! PROOFS. Encodings: the packed arguments of a command, the product in GF(2^128) and the page digest (12 R413, R414; 14 R449). -/

namespace Sys2Proof.Machine

/-! ## Packed arguments (R449) -/

theorem fieldAlign_pos (w : Nat) : 0 < fieldAlign w := by
  unfold fieldAlign
  split_ifs <;> decide

/-- A field begins at or after the offset where the one before it ends. -/
theorem le_fieldAt (off w : Nat) : off ≤ fieldAt off w := by
  have hpos := fieldAlign_pos w
  have hdiv := Nat.div_add_mod (off + fieldAlign w - 1) (fieldAlign w)
  have hmod := Nat.mod_lt (off + fieldAlign w - 1) hpos
  rw [fieldAt, Nat.mul_comm]
  omega

/-- The bits of a field of `w` bits at byte `a` end before the byte where the next field may begin. -/
theorem field_end_le (a w : Nat) : 8 * a + w ≤ 8 * (a + (w + 7) / 8) := by omega

/-- Fields packed from byte offset `off` leave the bytes before it zero. -/
theorem dvd_packFrom (off : Nat) (fs : List (Nat × Nat)) : 2 ^ (8 * off) ∣ packFrom off fs := by
  induction fs generalizing off with
  | nil => exact Nat.dvd_zero _
  | cons f rest ih =>
    obtain ⟨w, v⟩ := f
    have hle := le_fieldAt off w
    refine Nat.dvd_add (Nat.dvd_mul_left_of_dvd (Nat.pow_dvd_pow 2 (by omega)) _) ((Nat.pow_dvd_pow 2 ?_).trans (ih _))
    omega

/-- The `w` bits at bit `p` of a number whose low part lies below `p`, whose field is `v` and whose rest lies above the field, are `v`. -/
theorem bitsN_field {low p w v rest : Nat} (hlow : low < 2 ^ p) (hv : v < 2 ^ w) (hrest : 2 ^ (p + w) ∣ rest) :
    bitsN (low + (v * 2 ^ p + rest)) p w = v := by
  obtain ⟨k, rfl⟩ := hrest
  have hsum : low + (v * 2 ^ p + 2 ^ (p + w) * k) = low + 2 ^ p * (v + 2 ^ w * k) := by rw [pow_add]; ring
  rw [bitsN, hsum, Nat.add_mul_div_left _ _ (Nat.two_pow_pos p), Nat.div_eq_of_lt hlow, zero_add, Nat.add_mul_mod_self_left, Nat.mod_eq_of_lt hv]

/-- A number below a field's place, with the field added, lies below the place of the next field. -/
theorem low_add_field_lt {low p w v q : Nat} (hlow : low < 2 ^ p) (hv : v < 2 ^ w) (hq : p + w ≤ q) : low + v * 2 ^ p < 2 ^ q := by
  calc low + v * 2 ^ p < 2 ^ p + v * 2 ^ p := Nat.add_lt_add_right hlow _
    _ = (v + 1) * 2 ^ p := by ring
    _ ≤ 2 ^ w * 2 ^ p := Nat.mul_le_mul_right _ hv
    _ = 2 ^ (p + w) := by rw [pow_add, Nat.mul_comm]
    _ ≤ 2 ^ q := Nat.pow_le_pow_right (by decide) hq

/-- Fields packed from an offset, above whatever lies below it, are read back as they were. -/
theorem unpackFrom_packFrom (fs : List (Nat × Nat)) (hfs : ∀ f ∈ fs, f.2 < 2 ^ f.1) (off low : Nat) (hlow : low < 2 ^ (8 * off)) :
    unpackFrom (low + packFrom off fs) off (fs.map (·.1)) = fs.map (·.2) := by
  induction fs generalizing off low with
  | nil => rfl
  | cons f rest ih =>
    obtain ⟨w, v⟩ := f
    obtain ⟨hv, hrest⟩ := List.forall_mem_cons.mp hfs
    have hlow' : low < 2 ^ (8 * fieldAt off w) := hlow.trans_le (Nat.pow_le_pow_right (by decide) (Nat.mul_le_mul_left 8 (le_fieldAt off w)))
    have hend := field_end_le (fieldAt off w) w
    have hhead := bitsN_field hlow' hv ((Nat.pow_dvd_pow 2 hend).trans (dvd_packFrom (fieldAt off w + (w + 7) / 8) rest))
    have htail := ih hrest (fieldAt off w + (w + 7) / 8) (low + v * 2 ^ (8 * fieldAt off w)) (low_add_field_lt hlow' hv hend)
    rw [Nat.add_assoc] at htail
    simp only [packFrom, List.map_cons, unpackFrom, Nat.mod_eq_of_lt hv, hhead, htail]

theorem unpackFrom_length (n off : Nat) (ws : List Nat) : (unpackFrom n off ws).length = ws.length := by
  induction ws generalizing off with
  | nil => rfl
  | cons w ws ih => rw [unpackFrom, List.length_cons, List.length_cons, ih]

/-- Each field read fits its width. -/
theorem unpackFrom_lt (n off : Nat) (ws : List Nat) : ∀ f ∈ ws.zip (unpackFrom n off ws), f.2 < 2 ^ f.1 := by
  induction ws generalizing off with
  | nil => exact fun _ hf => absurd hf List.not_mem_nil
  | cons w ws ih => exact List.forall_mem_cons.mpr ⟨Nat.mod_lt _ (Nat.two_pow_pos w), ih _⟩

/-- The fields of a packed number are read back as they were. -/
theorem unpack_pack (fs : List (Nat × Nat)) (hfs : ∀ f ∈ fs, f.2 < 2 ^ f.1) : unpack (fs.map (·.1)) (pack fs) = some (fs.map (·.2)) := by
  have hread : unpackFrom (pack fs) 0 (fs.map (·.1)) = fs.map (·.2) := by
    have h := unpackFrom_packFrom fs hfs 0 0 (Nat.two_pow_pos _)
    rwa [zero_add] at h
  have hzip : (fs.map (·.1)).zip (fs.map (·.2)) = fs := by rw [← List.unzip_fst, ← List.unzip_snd, List.zip_unzip]
  rw [unpack, hread, hzip, if_pos rfl]

/-- What is read with no reserved byte set packs to the same number, field by field within its width. -/
theorem pack_of_unpack {ws : List Nat} {n : Nat} {vs : List Nat} (h : unpack ws n = some vs) :
    vs.length = ws.length ∧ pack (ws.zip vs) = n ∧ ∀ f ∈ ws.zip vs, f.2 < 2 ^ f.1 := by
  simp only [unpack] at h
  split at h
  case isTrue hpack =>
    obtain rfl := Option.some.inj h
    exact ⟨unpackFrom_length n 0 ws, hpack, unpackFrom_lt n 0 ws⟩
  case isFalse => cases h

/-- Settles O50: reading is the inverse of packing, by induction over the fields above whatever lies below their offset. -/
theorem argumentsRoundTrip : Obligations.ArgumentsRoundTrip := by
  unfold Obligations.ArgumentsRoundTrip
  exact ⟨unpack_pack, fun _ _ _ => pack_of_unpack⟩

/-! ## The product in GF(2^128) and the page digest (R413, R414) -/

@[simp] theorem bitAt_xor (a b : BitVec 128) (n : Nat) : bitAt (a ^^^ b) n = (bitAt a n ^^ bitAt b n) := by
  simp [bitAt]

/-- A value taken under a bit that is an exclusive-OR is the exclusive-OR of the values taken under each. -/
theorem ite_xor_bits (p q : Bool) (a : BitVec 128) :
    (if (p ^^ q) = true then a else 0) = (if p = true then a else 0) ^^^ (if q = true then a else 0) := by
  cases p <;> cases q <;> simp

/-- Two values taken under the same bit. -/
theorem ite_xor_values (p : Bool) (a b : BitVec 128) :
    (if p = true then a ^^^ b else 0) = (if p = true then a else 0) ^^^ (if p = true then b else 0) := by
  cases p <;> simp

theorem gfDouble_xor (a b : BitVec 128) : gfDouble (a ^^^ b) = gfDouble a ^^^ gfDouble b := by
  rw [gfDouble, gfDouble, gfDouble, bitAt_xor, ite_xor_bits, BitVec.shiftLeft_xor_distrib]
  ac_rfl

theorem gfDouble_zero : gfDouble 0 = 0 := by decide

/-- The product from any accumulator is additive in the first factor. -/
theorem gfMulFrom_xor_left (a b c : BitVec 128) (n : Nat) (x y : BitVec 128) :
    gfMulFrom (a ^^^ b) c n (x ^^^ y) = gfMulFrom a c n x ^^^ gfMulFrom b c n y := by
  induction n generalizing x y with
  | zero => rfl
  | succ n ih =>
    rw [gfMulFrom, gfMulFrom, gfMulFrom, gfDouble_xor, ite_xor_values, ← ih]
    congr 1
    ac_rfl

/-- The product from any accumulator is additive in the second factor. -/
theorem gfMulFrom_xor_right (a b c : BitVec 128) (n : Nat) (x y : BitVec 128) :
    gfMulFrom a (b ^^^ c) n (x ^^^ y) = gfMulFrom a b n x ^^^ gfMulFrom a c n y := by
  induction n generalizing x y with
  | zero => rfl
  | succ n ih =>
    rw [gfMulFrom, gfMulFrom, gfMulFrom, gfDouble_xor, bitAt_xor, ite_xor_bits, ← ih]
    congr 1
    ac_rfl

theorem gfMul_xor_left (a b c : BitVec 128) : gfMul (a ^^^ b) c = gfMul a c ^^^ gfMul b c :=
  gfMulFrom_xor_left a b c 128 0 0

theorem gfMul_xor_right (a b c : BitVec 128) : gfMul a (b ^^^ c) = gfMul a b ^^^ gfMul a c :=
  gfMulFrom_xor_right a b c 128 0 0

/-- Of the second factor 1 only the last bit counts. -/
theorem gfMulFrom_one_right (a : BitVec 128) (n : Nat) (hn : n < 128) : gfMulFrom a 1 (n + 1) 0 = a := by
  induction n with
  | zero => rw [gfMulFrom, gfDouble_zero, gfMulFrom, if_pos (by decide)]; exact BitVec.zero_xor
  | succ n ih =>
    have hbit : bitAt (1 : BitVec 128) (n + 1) = false := by simp [bitAt, BitVec.getLsbD_one]
    rw [gfMulFrom, hbit, gfDouble_zero, if_neg Bool.false_ne_true]
    exact ih (by omega)

theorem gfMul_one_right (a : BitVec 128) : gfMul a 1 = a := gfMulFrom_one_right a 127 (by decide)

/-- Doubling the bits of `b` above bit `n` and taking in bit `n` gives the bits from bit `n`: nothing is reduced. -/
theorem gfDouble_shift (b : BitVec 128) (n : Nat) : gfDouble (b >>> (n + 1)) ^^^ (if bitAt b n = true then 1 else 0) = b >>> n := by
  have htop : bitAt (b >>> (n + 1)) 127 = false := by
    simp only [bitAt, BitVec.getLsbD_ushiftRight]
    exact BitVec.getLsbD_of_ge b _ (by omega)
  rw [gfDouble, htop]
  ext i hi
  by_cases h0 : i = 0
  · subst h0
    cases hb : bitAt b n <;> simp_all [bitAt]
  · cases hb : bitAt b n <;> simp [h0, BitVec.getElem_one, show n + 1 + (i - 1) = n + i by omega, show ¬ i < 1 by omega]

/-- With the first factor 1 the accumulator holds the bits of the second that have been taken in. -/
theorem gfMulFrom_one_left (b : BitVec 128) (n : Nat) : gfMulFrom 1 b n (b >>> n) = b := by
  induction n with
  | zero => exact BitVec.ushiftRight_zero b
  | succ n ih => rw [gfMulFrom, gfDouble_shift, ih]

theorem gfMul_one_left (a : BitVec 128) : gfMul 1 a = a := by
  have h := gfMulFrom_one_left a 128
  rwa [BitVec.ushiftRight_eq_zero (by decide)] at h

/-- The digest's step is linear in the accumulator and the block. -/
theorem gfMul_step_xor (a b c x y k : BitVec 128) :
    gfMul (a ^^^ b ^^^ c ^^^ (x ^^^ y)) k = gfMul (a ^^^ x) k ^^^ gfMul (b ^^^ y) k ^^^ gfMul (c ^^^ 0) k := by
  have harrange : a ^^^ b ^^^ c ^^^ (x ^^^ y) = a ^^^ x ^^^ (b ^^^ y) ^^^ (c ^^^ 0) := by
    rw [show c ^^^ 0 = c from BitVec.xor_zero]
    ac_rfl
  rw [harrange, gfMul_xor_left, gfMul_xor_left]

/-- The digest's fold over the exclusive-OR of two pages, from the exclusive-OR of three accumulators. -/
theorem digestFold_xor (k : BitVec 128) (xs ys : List (BitVec 128)) (hlen : xs.length = ys.length) (a b c : BitVec 128) :
    (List.zipWith (· ^^^ ·) xs ys).foldl (fun y m => gfMul (y ^^^ m) k) (a ^^^ b ^^^ c) =
      xs.foldl (fun y m => gfMul (y ^^^ m) k) a ^^^ ys.foldl (fun y m => gfMul (y ^^^ m) k) b ^^^
        (List.replicate xs.length 0).foldl (fun y m => gfMul (y ^^^ m) k) c := by
  induction xs generalizing ys a b c with
  | nil =>
    obtain rfl := List.length_eq_zero_iff.mp hlen.symm
    rfl
  | cons x xs ih =>
    obtain _ | ⟨y, ys⟩ := ys
    · exact absurd hlen (Nat.succ_ne_zero _)
    · simp only [List.zipWith_cons_cons, List.foldl_cons, List.length_cons, List.replicate_succ, gfMul_step_xor]
      exact ih ys (Nat.succ.inj hlen) _ _ _

theorem digestOf_xor (i : Nat) (xs ys : List (BitVec 128)) (hlen : xs.length = ys.length) :
    digestOf i (List.zipWith (· ^^^ ·) xs ys) = digestOf i xs ^^^ digestOf i ys ^^^ digestOf i (List.replicate xs.length 0) := by
  have h := digestFold_xor gfKey xs ys hlen (gfMul (BitVec.ofNat 128 (i % 2 ^ 32 + 2 ^ 32)) gfKey)
    (gfMul (BitVec.ofNat 128 (i % 2 ^ 32 + 2 ^ 32)) gfKey) (gfMul (BitVec.ofNat 128 (i % 2 ^ 32 + 2 ^ 32)) gfKey)
  rwa [BitVec.xor_self, BitVec.zero_xor] at h

/-- Settles O51: the product is bilinear, as doubling is linear; so the fold of R414 is linear in the blocks. -/
theorem digestsAreLinear : Obligations.DigestsAreLinear := by
  unfold Obligations.DigestsAreLinear
  exact ⟨gfMul_xor_left, gfMul_xor_right, gfMul_one_right, gfMul_one_left, digestOf_xor⟩

/-! ## The memory at reset and the front of the queue -/

/-- Settles O47: no byte of the memory at reset is listed. -/
theorem resetMemInv : Obligations.ResetMemInv := reset_memWf

/-- A step takes the command at the front of the queue. -/
theorem step_of_pending {s : State} {c : Instr} {rest : List Instr} (h : s.pending = c :: rest) : step s = exec c { s with pending := rest } := by
  rw [step, h]

/-- An empty queue idles (log 34). -/
theorem step_of_idle {s : State} (h : s.pending = []) : step s = .next s := by
  rw [step, h]

/-- Settles O45: by what a step does with each form of the queue. -/
theorem stepTakesTheFront : Obligations.StepTakesTheFront := by
  unfold Obligations.StepTakesTheFront
  exact ⟨fun _ _ _ => step_of_pending, fun _ => step_of_idle⟩

end Sys2Proof.Machine
end

section
/-! PROOFS. Completions, mailbox resets, events and the checks of a command (14 R442 to R449, R458 to R460). -/

namespace Sys2Proof.Machine

/-! ## Completions (R442 to R444, R465) -/

/-- The state in which a finished command has left its mailbox and the locks, before its completion is put anywhere (R443, R466). -/
def State.ended (s : State) (mb status : Nat) (d : Desc) : State :=
  (({ s with mem := { s.mem with allocWait := s.mem.allocWait.filter (· != mb) } } : State).unlock mb).modMb mb fun m =>
    { m with running := none,
             hist := ({ opcode := BitVec.ofNat 16 d.opcode, tag := BitVec.ofNat 32 d.tag, status, ackFt := d.ackFt, cplFt := s.now } :: m.hist).take 64,
             exec := if m.discard then m.exec else (d.slot + 1) % 64 }

/-- The completion of a command without output (R442). -/
def State.completion (s : State) (mb status detail result : Nat) (d : Desc) : Completion :=
  { tag := BitVec.ofNat 32 d.tag, opcode := BitVec.ofNat 16 d.opcode, status, slot := d.slot, phase := (s.mbx mb).cplPhase,
    more := false, detail := BitVec.ofNat 16 detail, result := BitVec.ofNat 128 result }

theorem finish_idle {s : State} {mb : Nat} (h : (s.mbx mb).running = none) (st detail result : Nat) : s.finish mb st detail result = s := by
  simp only [State.finish, State.finishWith, h]

/-- A finished command's completion is discarded after a mailbox reset, kept by a full ring, written to its ring, or sent in a message. -/
theorem finish_running {s : State} {mb : Nat} {d : Desc} (h : (s.mbx mb).running = some d) (st detail result : Nat) :
    s.finish mb st detail result =
      if (s.mbx mb).discard = true then (s.ended mb st d).modMb mb fun m => { m with discard := false }
      else if mb < 16 then
        if (s.mbx mb).cplFull = true then
          (s.ended mb st d).modMb mb fun m => { m with kept := some (s.completion mb st detail result d, d.irq), stalled := true }
        else (s.ended mb st d).writeCpl mb (s.completion mb st detail result d) d.irq
      else
        ((s.ended mb st d).modMb mb fun m =>
            { m with keptCpl := (((s.completion mb st detail result d).tag, s.completion mb st detail result d) :: m.keptCpl).take 64 }).mgmtSend
          ((mb - 16) / 4) d.reply false 3 mb (completionBytes (s.completion mb st detail result d) ++ []) := by
  unfold State.finish State.finishWith
  split
  · next h' => cases h.symm.trans h'
  · next d' h' =>
    obtain rfl := Option.some.inj (h.symm.trans h')
    rfl

/-- The locks of partitions are no part of a mailbox. -/
theorem unlock_mbs (s : State) (mb : Nat) : (s.unlock mb).mbs = s.mbs := by
  unfold State.unlock
  refine foldl_keeps State.mbs ?_ _ s
  exact fun _ _ => rfl

theorem unlock_sent (s : State) (mb : Nat) : (s.unlock mb).sent = s.sent := by
  unfold State.unlock
  refine foldl_keeps State.sent ?_ _ s
  exact fun _ _ => rfl

/-- The mailbox of a finished command: free, with the command in its history. -/
theorem ended_mbx (s : State) (mb st : Nat) (d : Desc) : (s.ended mb st d).mbx mb =
    { s.mbx mb with
      running := none,
      hist := ({ opcode := BitVec.ofNat 16 d.opcode, tag := BitVec.ofNat 32 d.tag, status := st, ackFt := d.ackFt, cplFt := s.now } ::
        (s.mbx mb).hist).take 64,
      exec := if (s.mbx mb).discard then (s.mbx mb).exec else (d.slot + 1) % 64 } := by
  have hmbx : (({ s with mem := { s.mem with allocWait := s.mem.allocWait.filter (· != mb) } } : State).unlock mb).mbx mb = s.mbx mb := by
    rw [State.mbx, unlock_mbs]
    rfl
  rw [State.ended, modMb_same, hmbx]

/-! ## What a completion leaves unchanged (R442) -/

/-- `s'` is `s` after the end of a command of mailbox `mb`: its mailbox, the locks of partitions, the list of the commands that wait for zeroed
pages, the MSI-X table and the management ports may have changed, and more may have been sent. -/
structure State.Ends (mb : Nat) (s s' : State) : Prop where
  frame : ∃ mbs parts wait msix mgmt out, s' = { s with mbs := mbs, parts := parts, mem := { s.mem with allocWait := wait }, msix := msix,
                                                        mgmt := mgmt, sent := s.sent ++ out }
  part : ∀ p, ∃ lock wait, s'.part p = { s.part p with lock := lock, lockWait := wait }
  others : ∀ mb', mb' ≠ mb → s'.mbx mb' = s.mbx mb'

namespace State.Ends

variable {mb : Nat} {s s' s'' : State}

theorem refl (s : State) : s.Ends mb s :=
  ⟨⟨s.mbs, s.parts, s.mem.allocWait, s.msix, s.mgmt, [], by rw [List.append_nil]⟩, fun p => ⟨(s.part p).lock, (s.part p).lockWait, rfl⟩,
    fun _ _ => rfl⟩

theorem trans (h : s.Ends mb s') (h' : s'.Ends mb s'') : s.Ends mb s'' := by
  refine ⟨?_, fun p => ?_, fun mb' hmb => (h'.others mb' hmb).trans (h.others mb' hmb)⟩
  · obtain ⟨mbs, parts, wait, msix, mgmt, out, rfl⟩ := h.frame
    obtain ⟨mbs', parts', wait', msix', mgmt', out', rfl⟩ := h'.frame
    exact ⟨mbs', parts', wait', msix', mgmt', out ++ out', by simp only [List.append_assoc]⟩
  · obtain ⟨lock, wait, hp⟩ := h.part p
    obtain ⟨lock', wait', hp'⟩ := h'.part p
    exact ⟨lock', wait', by rw [hp', hp]⟩

theorem ite {a b : State} {c : Prop} [Decidable c] (ha : s.Ends mb a) (hb : s.Ends mb b) : s.Ends mb (if c then a else b) := by
  split
  · exact ha
  · exact hb

/-- A change of the mailbox itself. -/
theorem of_modMb (s : State) (f : Mailbox → Mailbox) : s.Ends mb (s.modMb mb f) :=
  ⟨⟨_, s.parts, s.mem.allocWait, s.msix, s.mgmt, [], by rw [List.append_nil]; rfl⟩, (refl (mb := mb) s).part, fun _ h => modMb_other s h f⟩

/-- A change of a partition's lock. -/
theorem of_modPart (s : State) (p : Nat) (f : Part → Part) (hf : ∀ x, ∃ lock wait, f x = { x with lock := lock, lockWait := wait }) :
    s.Ends mb (s.modPart p f) := by
  refine ⟨⟨s.mbs, _, s.mem.allocWait, s.msix, s.mgmt, [], by rw [List.append_nil]; rfl⟩, fun q => ?_, fun _ _ => rfl⟩
  by_cases hq : q = p
  · subst hq
    rw [modPart_same]
    exact hf _
  · rw [modPart_other s hq]
    exact (refl s (mb := mb)).part q

/-- A signal of a vector changes the MSI-X table, or is sent. -/
theorem of_msixFire (s : State) (v : Nat) : s.Ends mb (s.msixFire v) :=
  .ite ⟨⟨s.mbs, s.parts, s.mem.allocWait, _, s.mgmt, [], by rw [List.append_nil]⟩, (refl (mb := mb) s).part, fun _ _ => rfl⟩
    ⟨⟨s.mbs, s.parts, s.mem.allocWait, _, s.mgmt, [.msix v], rfl⟩, (refl (mb := mb) s).part, fun _ _ => rfl⟩

/-- A message of a management port is sent by it. -/
theorem of_mgmtSend (s : State) (port : Nat) (dst : MgmtAddr) (own : Bool) (mop mb' : Nat) (body : List Byte) :
    s.Ends mb (s.mgmtSend port dst own mop mb' body) :=
  List.foldlRecOn _ _ (motive := s.Ends mb) (refl s) fun x hx _ _ =>
    hx.trans ⟨⟨x.mbs, x.parts, x.mem.allocWait, x.msix, _, [_], rfl⟩, (refl (mb := mb) x).part, fun _ _ => rfl⟩

end State.Ends

theorem unlock_ends (s : State) (mb : Nat) : s.Ends mb (s.unlock mb) :=
  List.foldlRecOn _ _ (motive := s.Ends mb) (.refl s) fun x hx p _ => hx.trans (.of_modPart x p _ fun _ => ⟨_, _, rfl⟩)

theorem ended_ends (s : State) (mb st : Nat) (d : Desc) : s.Ends mb (s.ended mb st d) := by
  have hwait : s.Ends mb { s with mem := { s.mem with allocWait := s.mem.allocWait.filter (· != mb) } } :=
    ⟨⟨s.mbs, s.parts, _, s.msix, s.mgmt, [], by rw [List.append_nil]⟩, (State.Ends.refl s (mb := mb)).part, fun _ _ => rfl⟩
  exact (hwait.trans (unlock_ends _ mb)).trans (.of_modMb _ _)

theorem writeCpl_ends (s : State) (mb : Nat) (c : Completion) (irq : Bool) : s.Ends mb (s.writeCpl mb c irq) :=
  .ite ((State.Ends.of_modMb s _).trans (.of_msixFire _ mb)) (.of_modMb s _)

theorem finish_ends (s : State) (mb st detail result : Nat) : s.Ends mb (s.finish mb st detail result) := by
  cases h : (s.mbx mb).running with
  | none => rw [finish_idle h]; exact .refl s
  | some d =>
    have hended := ended_ends s mb st d
    rw [finish_running h]
    exact .ite (hended.trans (.of_modMb _ _)) (.ite (.ite (hended.trans (.of_modMb _ _)) (hended.trans (writeCpl_ends _ mb _ _)))
      ((hended.trans (.of_modMb _ _)).trans (.of_mgmtSend _ _ _ _ _ _ _)))

/-- Settles O56: an event is a signal, and a completion the end of its command. -/
theorem commandFrame : Obligations.CommandFrame := by
  unfold Obligations.CommandFrame
  refine ⟨fun s code part arg => ?_, fun s mb st detail result => ?_⟩
  · obtain ⟨ev, msix, mgmt, out, hs⟩ := event_signalled s code part arg
    simp only [hs, and_self]
  · have hends := finish_ends s mb st detail result
    obtain ⟨mbs, parts, wait, msix, mgmt, out, hs⟩ := hends.frame
    refine ⟨by simp only [hs, and_self], by simp only [hs, and_self], by simp only [hs, and_self], by simp only [hs], fun p => ?_, hends.others⟩
    obtain ⟨lock, wait, hp⟩ := hends.part p
    rw [hp]

/-! ## A full completion ring (R444) -/

/-- A full ring keeps the completion, and the mailbox stalls. -/
theorem finish_full {s : State} {mb : Nat} {d : Desc} (hmb : mb < 16) (hrun : (s.mbx mb).running = some d) (hkeep : (s.mbx mb).discard = false)
    (hfull : (s.mbx mb).cplFull = true) (st : Nat) :
    s.finish mb st =
      (s.ended mb st d).modMb mb fun m => { m with kept := some (s.completion mb st 0 0 d, d.irq), stalled := true } := by
  rw [finish_running hrun, if_neg (by rw [hkeep]; exact Bool.false_ne_true), if_pos hmb, if_pos hfull]

theorem finish_full_stalls {s : State} {mb : Nat} {d : Desc} (st : Nat) (hmb : mb < 16) (hrun : (s.mbx mb).running = some d)
    (hkeep : (s.mbx mb).discard = false) (hfull : (s.mbx mb).cplFull = true) :
    ((s.finish mb st).mbx mb).stalled = true ∧ ((s.finish mb st).mbx mb).running = none ∧
    ((s.finish mb st).mbx mb).cplRing = (s.mbx mb).cplRing ∧ ((s.finish mb st).mbx mb).cplTail = (s.mbx mb).cplTail ∧
    (∃ c, ((s.finish mb st).mbx mb).kept = some (c, d.irq) ∧ c.status = st ∧ c.tag = BitVec.ofNat 32 d.tag ∧
      c.opcode = BitVec.ofNat 16 d.opcode ∧ c.slot = d.slot) ∧
    (s.finish mb st).sites = s.sites ∧ (s.finish mb st).mem.dram = s.mem.dram ∧ (s.finish mb st).mem.map = s.mem.map := by
  obtain ⟨mbs, parts, wait, msix, mgmt, out, hs⟩ := (finish_ends s mb st 0 0).frame
  have hmbx : (s.finish mb st).mbx mb =
      { (s.ended mb st d).mbx mb with kept := some (s.completion mb st 0 0 d, d.irq), stalled := true } := by
    rw [finish_full hmb hrun hkeep hfull, modMb_same]
  rw [ended_mbx] at hmbx
  refine ⟨by rw [hmbx], by rw [hmbx], by rw [hmbx], by rw [hmbx], ⟨s.completion mb st 0 0 d, by rw [hmbx], rfl, rfl, rfl, rfl⟩, ?_, ?_, ?_⟩ <;> rw [hs]

/-- A stalled mailbox takes nothing from its queue. -/
theorem badOps_stalled {s : State} {mb : Nat} (hrun : (s.mbx mb).running = none) (hstall : (s.mbx mb).stalled = true) (n : Nat) :
    s.badOps n mb = s := by
  cases n with
  | zero => rfl
  | succ n =>
    cases hq : (s.mbx mb).queue with
    | nil => simp only [State.badOps, hrun, hq]
    | cons d rest =>
      simp only [State.badOps, hrun, hq]
      exact if_pos (Or.inl hstall)

theorem start_stalled (f : CmdDef) {s : State} {mb : Nat} (e : ExtIn) (hrun : (s.mbx mb).running = none) (hstall : (s.mbx mb).stalled = true) :
    f.start s mb e = s := by
  cases hq : (s.mbx mb).queue with
  | nil => simp only [CmdDef.start, badOps_stalled hrun hstall, hrun, hq]
  | cons d rest =>
    simp only [CmdDef.start, badOps_stalled hrun hstall, hrun, hq]
    exact if_pos (Or.inl hstall)

/-- A completion goes to the ring at the tail, with the ring's phase. -/
theorem writeCpl_mbx (s : State) (mb : Nat) (c : Completion) (irq : Bool) : (s.writeCpl mb c irq).mbx mb =
    { s.mbx mb with
      cplRing := Tbl.set {} (s.mbx mb).cplTail { c with phase := (s.mbx mb).cplPhase } (s.mbx mb).cplRing,
      cplTail := ((s.mbx mb).cplTail + 1) % 64,
      cplPhase := if ((s.mbx mb).cplTail + 1) % 64 = 0 then !(s.mbx mb).cplPhase else (s.mbx mb).cplPhase } := by
  unfold State.writeCpl
  extract_lets m t s1
  have hs1 : s1.mbx mb = _ := modMb_same s mb _
  refine (ite_keeps (fun x => x.mbx mb) ?_ rfl).trans hs1
  exact ite_keeps (fun x => x.mbx mb) rfl rfl

/-- The kept completion is written when the host frees a slot, and the mailbox goes on. -/
theorem cplHeadTo_writes {s : State} {mb head : Nat} {c : Completion} {irq : Bool} (hkept : (s.mbx mb).kept = some (c, irq))
    (hroom : ((s.mbx mb).cplTail + 1) % 64 ≠ head % 64) :
    ∃ s1 : State, s.cplHeadTo mb head = s1.badOps 64 mb ∧ (s1.mbx mb).stalled = false ∧ (s1.mbx mb).kept = none ∧
      (s1.mbx mb).cplTail = ((s.mbx mb).cplTail + 1) % 64 ∧
      Tbl.get {} (s1.mbx mb).cplRing (s.mbx mb).cplTail = { c with phase := (s.mbx mb).cplPhase } := by
  let s1 := ((s.modMb mb fun m => { m with cplHead := head % 64 }).modMb mb fun m => { m with kept := none, stalled := false }).writeCpl mb c irq
  have hmbx := writeCpl_mbx ((s.modMb mb fun m => { m with cplHead := head % 64 }).modMb mb fun m => { m with kept := none, stalled := false }) mb c irq
  rw [modMb_same, modMb_same] at hmbx
  refine ⟨s1, ?_, by rw [hmbx], by rw [hmbx], by rw [hmbx], by rw [hmbx, Tbl.get_set_same]⟩
  have hfree : ¬ ({ s.mbx mb with cplHead := head % 64 } : Mailbox).cplFull = true := by simpa [Mailbox.cplFull] using hroom
  have hkept' : ((s.modMb mb fun m => { m with cplHead := head % 64 }).mbx mb).kept = some (c, irq) := by rw [modMb_same, hkept]
  unfold State.cplHeadTo
  extract_lets s0 m
  split
  · next c' irq' h =>
    obtain ⟨rfl, rfl⟩ := Prod.mk.inj (Option.some.inj (hkept'.symm.trans h))
    exact if_neg (by rw [show m = _ from modMb_same s mb _]; exact hfree)
  · next h => cases hkept'.symm.trans h

/-- Settles O53: by the form of a completion that finds the ring full, and of the write that frees a slot. -/
theorem completionStalls : Obligations.CompletionStalls := by
  unfold Obligations.CompletionStalls
  exact ⟨fun _ _ _ st => finish_full_stalls st, fun f _ _ e => start_stalled f e, fun _ _ _ _ _ => cplHeadTo_writes⟩

/-! ## A mailbox reset (R446) -/

/-- The completion of a command that ran when its mailbox was reset is discarded. -/
theorem finish_discards {s : State} {mb : Nat} {d : Desc} (st : Nat) (hrun : (s.mbx mb).running = some d) (hdrop : (s.mbx mb).discard = true) :
    ((s.finish mb st).mbx mb).cplRing = (s.mbx mb).cplRing ∧ ((s.finish mb st).mbx mb).cplTail = (s.mbx mb).cplTail ∧
    ((s.finish mb st).mbx mb).kept = (s.mbx mb).kept ∧ ((s.finish mb st).mbx mb).running = none ∧
    ((s.finish mb st).mbx mb).discard = false ∧ (s.finish mb st).sent = s.sent := by
  have hfin : s.finish mb st = (s.ended mb st d).modMb mb fun m => { m with discard := false } := by
    rw [finish_running hrun, if_pos hdrop]
  have hsent : (s.ended mb st d).sent = s.sent := by
    unfold State.ended
    rw [modMb_sent, unlock_sent]
  rw [hfin, modMb_same, ended_mbx, modMb_sent]
  exact ⟨rfl, rfl, rfl, rfl, rfl, hsent⟩

/-- Settles O54: by the mailbox that a reset writes, and what a discarded completion leaves. -/
theorem mailboxResetLeaves : Obligations.MailboxResetLeaves := by
  unfold Obligations.MailboxResetLeaves
  refine ⟨fun s mb hmb => ?_, fun s mb mb' hne => modMb_other s hne _, fun _ _ _ st => finish_discards st⟩
  simp only [State.mbReset, modMb_same, hmb, true_and]
  exact ⟨fun howner => if_neg (by rw [howner]; decide), fun hadmin => if_pos hadmin, trivial⟩

/-! ## The checks of a command (R445, R447, R449) -/

/-- A command taken from its queue that fails a check completes with that check's status. -/
theorem go_refused {f : CmdDef} {s : State} {mb : Nat} {d : Desc} {st : Nat} (hgate : s.gate f (f.cmd mb d) = st) (hst : st ≠ 0) :
    s.go f mb d = s.finish mb st := by
  simp only [CmdDef.cmd] at hgate
  simp only [State.go, hgate]
  exact if_pos hst

/-- The command at the front of a free mailbox is taken, where the mailbox is served (R443, R444, R499). -/
theorem start_takes {f : CmdDef} {s : State} {mb : Nat} {d : Desc} (e : ExtIn) (hrun : (s.mbx mb).running = none)
    (hfront : (s.mbx mb).queue.head? = some d) (hstall : (s.mbx mb).stalled = false) (hserved : s.hub.hostload = false ∨ mb = 0)
    (hknown : knownOps.contains d.opcode = true) (hop : d.opcode = f.op) (hsel : f.sel d = true) :
    f.start s mb e = ((s.taken mb d e).go f mb d).badOps 64 mb := by
  obtain ⟨rest, hq⟩ := List.head?_eq_some_iff.mp hfront
  have htaken : (s.modMb mb fun m => { m with queue := rest, running := some d, exec := d.slot, ext := e }) = s.taken mb d e := by
    simp only [State.taken, State.modMb, hq, List.tail_cons]
  have hgo : ¬ ((s.mbx mb).stalled = true ∨ d.opcode ≠ f.op ∨ ¬ f.sel d = true ∨ (s.hub.hostload = true ∧ mb ≠ 0)) := by
    rintro (h | h | h | ⟨h, hmb⟩)
    · exact absurd h (by rw [hstall]; decide)
    · exact h hop
    · exact h hsel
    · exact hserved.elim (fun h0 => absurd h (by rw [h0]; decide)) hmb
  simp only [CmdDef.start, badOps_known hrun hfront hknown, hrun, hq]
  rw [if_neg hgo, htaken]

theorem gate_notReady {s : State} {f : CmdDef} (c : Cmd) (hearly : f.early = false) (h : s.hub.ready = false ∨ s.hub.halted = true) :
    s.gate f c = stNotReady := by
  refine if_pos ?_
  rcases h with h | h <;> simp [hearly, h]

theorem gate_noCredential {s : State} {f : CmdDef} {c : Cmd} (hready : s.hub.ready = true) (hhalt : s.hub.halted = false)
    (hrole : roleOk f.role (s.mbx c.mb) c.mb c.part = false) : s.gate f c = stNoCredential := by
  unfold State.gate
  rw [if_neg (by simp [hready, hhalt]), if_pos (by simp [hrole])]

theorem gate_reserved {s : State} {f : CmdDef} {c : Cmd} (hready : s.hub.ready = true) (hhalt : s.hub.halted = false)
    (hrole : roleOk f.role (s.mbx c.mb) c.mb c.part = true) (hres : c.d.reservedZero = false) : s.gate f c = stBadArgument := by
  unfold State.gate
  rw [if_neg (by simp [hready, hhalt]), if_neg (by simp [hrole]), if_pos (Or.inl (by simp [hres]))]

/-- What is free to a mailbox that nobody has claimed. -/
theorem roleOk_unclaimed {r : Role} {m : Mailbox} {mb part : Nat} (hrole : m.role = 0) (h : roleOk r m mb part = true) :
    r = .free ∨ (r = .claim ∧ mb < 16) ∨ (r = .session ∧ 16 ≤ mb) := by
  cases r with
  | free => exact .inl rfl
  | claim => exact .inr (.inl ⟨rfl, by simpa [roleOk, hrole] using h⟩)
  | session => exact .inr (.inr ⟨rfl, by simpa [roleOk, hrole] using h⟩)
  | any | admin | owner | strict => simp [roleOk, hrole] at h

/-- A command of unknown opcode at the front of a free mailbox completes with `BAD_OPCODE`. -/
theorem badOps_unknown {s : State} {mb : Nat} {d : Desc} {rest : List Desc} (hrun : (s.mbx mb).running = none)
    (hstall : (s.mbx mb).stalled = false) (hq : (s.mbx mb).queue = d :: rest) (hunknown : knownOps.contains d.opcode = false)
    (hserved : s.hub.hostload = false ∨ mb = 0) :
    s.badOps 1 mb = (s.modMb mb fun m => { m with queue := rest, running := some d, exec := d.slot }).finish mb stBadOpcode := by
  have hgo : ¬ ((s.mbx mb).stalled = true ∨ knownOps.contains d.opcode = true ∨ (s.hub.hostload = true ∧ mb ≠ 0)) := by
    rintro (h | h | ⟨h, hmb⟩)
    · exact absurd h (by rw [hstall]; decide)
    · exact absurd h (by rw [hunknown]; decide)
    · exact hserved.elim (fun h0 => absurd h (by rw [h0]; decide)) hmb
  simp only [State.badOps, hrun, hq]
  exact if_neg hgo

/-- Settles O57: by the checks in their order, and by what becomes of a command that fails one. -/
theorem gateRefuses : Obligations.GateRefuses := by
  unfold Obligations.GateRefuses
  refine ⟨?_, fun _ _ c => gate_notReady c, fun _ _ _ => gate_noCredential, fun _ _ _ => gate_reserved, fun _ _ _ _ => roleOk_unclaimed,
    fun _ _ _ _ => badOps_unknown⟩
  intro f s mb d e st hrun hfront hstall hserved hknown hop hsel hgate hst
  rw [start_takes e hrun hfront hstall hserved hknown hop hsel, go_refused hgate hst]

/-! ## Events (R458 to R460, R330) -/

/-- The record of an event (R458). -/
def State.evRecord (s : State) (code part : Nat) (arg : List (Nat × Nat)) : EventRec :=
  { ft := s.now, eseq := (s.ev.eseq + 1) % 2 ^ 64, code, part, count := (ctrAdd (Tbl.get ({}, {}) s.ev.latest code).2 1).1.v % 2 ^ 32,
    arg := BitVec.ofNat 320 (pack arg) }

/-- The event block in which an event is recorded as the latest of its code, before it goes to the ring. -/
def State.evLatest (s : State) (code part : Nat) (arg : List (Nat × Nat)) : State :=
  { s with ev := { s.ev with
      eseq := s.ev.eseq + 1,
      latest := Tbl.set ({}, {}) code (s.evRecord code part arg, (ctrAdd (Tbl.get ({}, {}) s.ev.latest code).2 1).1) s.ev.latest } }

theorem evStream_ev (s : State) (i : Nat) (e : EventRec) : (s.evStream i e).ev = s.ev := by
  refine ite_keeps State.ev ?_ rfl
  obtain ⟨g, o, hs⟩ := mgmtSend_frame s i { mac := macBytes (s.mgmtPort i).destMac } true 4 0 (eventBytes e)
  rw [hs]

/-- The streams leave the event block. -/
theorem eventRaw_ev (s : State) (code part : Nat) (arg : List (Nat × Nat)) :
    (s.eventRaw code part arg).ev = ((s.evLatest code part arg).evPost (s.evRecord code part arg)).ev :=
  (evStream_ev _ 1 _).trans (evStream_ev _ 0 _)

theorem msixFire_ev (s : State) (v : Nat) : (s.msixFire v).ev = s.ev := ite_keeps State.ev rfl rfl

/-- A record in the ring leaves the latest events and the counts. -/
theorem evWrite_counts (s : State) (e : EventRec) : (s.evWrite e).ev.latest = s.ev.latest ∧ (s.evWrite e).ev.lost = s.ev.lost := by
  have hsignal (x : State) : x.evSignal.ev.latest = x.ev.latest ∧ x.evSignal.ev.lost = x.ev.lost :=
    ⟨ite_keeps (fun y => y.ev.latest) (by rw [msixFire_ev]) rfl, ite_keeps (fun y => y.ev.lost) (by rw [msixFire_ev]) rfl⟩
  unfold State.evWrite
  extract_lets r t ev s1
  obtain ⟨hlatest, hlost⟩ : s1.ev.latest = s.ev.latest ∧ s1.ev.lost = s.ev.lost := hsignal _
  exact ⟨(ite_keeps (fun y => y.ev.latest) (by rw [msixFire_ev]) rfl).trans hlatest,
    (ite_keeps (fun y => y.ev.lost) (by rw [msixFire_ev]) rfl).trans hlost⟩

theorem evPost_latest (s : State) (e : EventRec) : (s.evPost e).ev.latest = s.ev.latest :=
  ite_keeps (fun y => y.ev.latest) (ite_keeps (fun y => y.ev.latest) rfl (evWrite_counts s e).1) rfl

/-- A record that is posted leaves `EV_LOST`, or is counted there. -/
theorem evPost_lost (s : State) (e : EventRec) : (s.evPost e).ev.lost = s.ev.lost ∨ (s.evPost e).ev.lost = (ctrAdd s.ev.lost 1).1 := by
  unfold State.evPost
  split_ifs
  · exact .inr rfl
  · exact .inl (evWrite_counts s e).2
  · exact .inl rfl

/-- An event is recorded as the latest of its code, and counted. -/
theorem eventRaw_latest (s : State) (code part : Nat) (arg : List (Nat × Nat)) :
    (s.eventRaw code part arg).ev.latest =
      Tbl.set ({}, {}) code (s.evRecord code part arg, (ctrAdd (Tbl.get ({}, {}) s.ev.latest code).2 1).1) s.ev.latest := by
  rw [eventRaw_ev]
  exact evPost_latest _ _

theorem eventRaw_lost (s : State) (code part : Nat) (arg : List (Nat × Nat)) :
    (s.eventRaw code part arg).ev.lost = s.ev.lost ∨ (s.eventRaw code part arg).ev.lost = (ctrAdd s.ev.lost 1).1 := by
  rw [eventRaw_ev]
  exact evPost_lost _ _

/-- A counter below its end keeps its sticky bit (R330). -/
theorem ctrAdd_one_ovf {c : Ctr48} (h : c.v < ctr48Max) : (ctrAdd c 1).1.ovf = c.ovf := by
  have hfit : c.v + 1 ≤ ctr48Max := h
  rw [ctrAdd, if_pos hfit]

/-- An event that brings no count to its end raises no overflow. -/
theorem evOvf_below {s : State} {code part : Nat} {arg : List (Nat × Nat)} (hcount : (Tbl.get ({}, {}) s.ev.latest code).2.v < ctr48Max)
    (hlost : s.ev.lost.v < ctr48Max) : evOvf s (s.eventRaw code part arg) code = [] := by
  have hsticky : (Tbl.get ({}, {}) (s.eventRaw code part arg).ev.latest code).2.ovf = (Tbl.get ({}, {}) s.ev.latest code).2.ovf := by
    rw [eventRaw_latest, Tbl.get_set_same, ctrAdd_one_ovf hcount]
  have hlost' : (s.eventRaw code part arg).ev.lost.ovf = s.ev.lost.ovf := by
    rcases eventRaw_lost s code part arg with h | h <;> rw [h]
    exact ctrAdd_one_ovf hlost
  unfold evOvf
  extract_lets sticky
  have hnew : (sticky (s.eventRaw code part arg) && !sticky s) = false := by
    rw [show sticky (s.eventRaw code part arg) = sticky s from hsticky, Bool.and_not_self]
  rw [hnew, hlost', Bool.and_not_self]
  rfl

theorem event_below {s : State} {code part : Nat} {arg : List (Nat × Nat)} (hcount : (Tbl.get ({}, {}) s.ev.latest code).2.v < ctr48Max)
    (hlost : s.ev.lost.v < ctr48Max) : s.event code part arg = s.eventRaw code part arg := by
  simp only [State.event, evOvf_below hcount hlost, List.foldl_nil]

/-- The overflows that an event raises leave the latest event of another code than their own. -/
theorem event_latest_of_ne {code : Nat} (hcode : code ≠ 0x0103) (s : State) (part : Nat) (arg : List (Nat × Nat)) :
    Tbl.get ({}, {}) (s.event code part arg).ev.latest code = Tbl.get ({}, {}) (s.eventRaw code part arg).ev.latest code := by
  have hraw (x : State) (a : List (Nat × Nat)) :
      Tbl.get ({}, {}) (x.eventRaw 0x0103 0xFF a).ev.latest code = Tbl.get ({}, {}) x.ev.latest code := by
    rw [eventRaw_latest, Tbl.get_set_other _ hcode]
  refine foldl_keeps (fun x => Tbl.get ({}, {}) x.ev.latest code) (fun x a => ?_) _ _
  exact (foldl_keeps (fun x => Tbl.get ({}, {}) x.ev.latest code) hraw _ _).trans (hraw x a)

theorem event_latest {s : State} {code : Nat} (part : Nat) (arg : List (Nat × Nat))
    (h : code ≠ 0x0103 ∨ ((Tbl.get ({}, {}) s.ev.latest code).2.v < ctr48Max ∧ s.ev.lost.v < ctr48Max)) :
    (Tbl.get ({}, {}) (s.event code part arg).ev.latest code).1 = s.evRecord code part arg := by
  have hraw : Tbl.get ({}, {}) (s.event code part arg).ev.latest code = Tbl.get ({}, {}) (s.eventRaw code part arg).ev.latest code := by
    rcases h with hcode | ⟨hcount, hlost⟩
    · exact event_latest_of_ne hcode s part arg
    · rw [event_below hcount hlost]
  rw [hraw, eventRaw_latest, Tbl.get_set_same]

/-- An unmasked event that finds the ring full is dropped and counted. -/
theorem eventRaw_drops {s : State} {code : Nat} (part : Nat) (arg : List (Nat × Nat)) (hen : s.ev.enable = true) (hmask : s.masked 0 code = false)
    (hfull : s.evFull = true) : (s.eventRaw code part arg).ev =
      { (s.evLatest code part arg).ev with lost := (ctrAdd s.ev.lost 1).1, dropped := s.ev.dropped + 1 } := by
  have hpost : (s.evLatest code part arg).ev.enable = true ∧ ¬ (s.evLatest code part arg).masked 0 (s.evRecord code part arg).code = true :=
    ⟨hen, fun h => absurd (hmask.symm.trans h) (by decide)⟩
  rw [eventRaw_ev, State.evPost, if_pos hpost, if_pos (show (s.evLatest code part arg).evFull = true from hfull)]
  rfl

/-- `s'` is `s`, whose ring is full, after events that found it so: the ring stands, and the dropped are counted. -/
structure State.Dropping (s s' : State) : Prop where
  ring : s'.ev.ring = s.ev.ring
  tail : s'.ev.tail = s.ev.tail
  head : s'.ev.head = s.ev.head
  dropped : s.ev.dropped ≤ s'.ev.dropped

namespace State.Dropping

theorem refl (s : State) : s.Dropping s := ⟨rfl, rfl, rfl, Nat.le_refl _⟩

theorem trans {s s' s'' : State} (h : s.Dropping s') (h' : s'.Dropping s'') : s.Dropping s'' :=
  ⟨h'.ring.trans h.ring, h'.tail.trans h.tail, h'.head.trans h.head, Nat.le_trans h.dropped h'.dropped⟩

theorem evFull {s s' : State} (h : s.Dropping s') : s'.evFull = s.evFull := by rw [State.evFull, State.evFull, h.tail, h.head]

end State.Dropping

/-- An event that finds the ring full leaves it, masked or not. -/
theorem eventRaw_dropping {s : State} (hfull : s.evFull = true) (code part : Nat) (arg : List (Nat × Nat)) :
    s.Dropping (s.eventRaw code part arg) := by
  have hpost : s.Dropping ((s.evLatest code part arg).evPost (s.evRecord code part arg)) := by
    unfold State.evPost
    rw [if_pos (show (s.evLatest code part arg).evFull = true from hfull)]
    split
    · exact ⟨rfl, rfl, rfl, Nat.le_succ _⟩
    · exact ⟨rfl, rfl, rfl, Nat.le_refl _⟩
  exact ⟨by rw [eventRaw_ev, hpost.ring], by rw [eventRaw_ev, hpost.tail], by rw [eventRaw_ev, hpost.head], by rw [eventRaw_ev]; exact hpost.dropped⟩

/-- A run of events that find the ring full leaves it. -/
theorem foldl_dropping {f : State → List (Nat × Nat) → State} (hf : ∀ (x : State) a, x.evFull = true → x.Dropping (f x a))
    (l : List (List (Nat × Nat))) {s : State} (hfull : s.evFull = true) : s.Dropping (l.foldl f s) :=
  List.foldlRecOn l f (motive := s.Dropping) (.refl s) fun x hx a _ => hx.trans (hf x a (hx.evFull.trans hfull))

/-- Raising an event leaves a full ring as its first record does: the overflows that follow are dropped too. -/
theorem event_dropping {s : State} (code part : Nat) (arg : List (Nat × Nat)) (hfull : s.evFull = true) :
    (s.eventRaw code part arg).Dropping (s.event code part arg) := by
  refine foldl_dropping (fun x a hx => ?_) _ ((eventRaw_dropping hfull code part arg).evFull.trans hfull)
  have hfirst := eventRaw_dropping hx 0x0103 0xFF a
  exact hfirst.trans (foldl_dropping (fun y b hy => eventRaw_dropping hy 0x0103 0xFF b) _ (hfirst.evFull.trans hx))

/-- Room for one record: the count of the dropped goes out as one event. -/
theorem evHeadWrite_reports (t h : Nat) : Does t (.evHeadWrite t h)
    (fun s => s.hub.inReset = false ∧ s.ev.dropped ≠ 0 ∧ (s.ev.tail + 1) % 2048 ≠ h % 2048) fun s =>
    ({ s with ev := { s.ev with head := h % 2048, dropped := 0 } } : State).event 0x0105 0xFF [(64, s.ev.dropped)] := by
  rintro s ⟨hup, hdropped, hroom⟩
  have hspace : ¬ ((s.adv t).ev.dropped = 0 ∨ ({ s.adv t with ev := { (s.adv t).ev with head := h % 2048 } } : State).evFull = true) := by
    rintro (h0 | hfull)
    · exact hdropped h0
    · exact hroom (by simpa [State.evFull] using hfull)
  rw [evHeadWrite_does t h s hup]
  exact congrArg Host.Outcome.next (if_neg hspace)

/-- Settles O55: by the record of an event, and by what one that finds the ring full leaves. -/
theorem eventsNeverWait : Obligations.EventsNeverWait := by
  unfold Obligations.EventsNeverWait
  refine ⟨fun s code part arg h => ⟨s.evRecord code part arg, event_latest part arg h, rfl, rfl, rfl, rfl⟩, ?_, ?_, evHeadWrite_reports⟩
  · intro s code part arg hen hmask hfull hcount hlost
    have hev := eventRaw_drops part arg hen hmask hfull
    rw [event_below hcount hlost, hev]
    exact ⟨rfl, rfl, rfl, rfl, rfl⟩
  · intro s code part arg hen hmask hfull
    have hev := eventRaw_drops part arg hen hmask hfull
    have hdrop := event_dropping code part arg hfull
    refine ⟨hdrop.ring.trans (by rw [hev]; rfl), hdrop.tail.trans (by rw [hev]; rfl), ?_⟩
    have hcount := hdrop.dropped
    rwa [hev] at hcount

end Sys2Proof.Machine
end

section
/-! PROOFS. The device, reset, mailbox and power commands: the next state of each where it succeeds (14 R447, R450, R461, R465; 15 R473 to R491;
16 R499, R500, R509 to R514, R523, R526). -/

namespace Sys2Proof.Machine

/-! ## Device commands (R450, R499, R500, R523, R526) -/

theorem identify_runs (t mb : Nat) (buf : Option (List Byte)) : Runs cmdIdentify t mb { buf } (.identify t mb buf) (fun _ _ => True) fun s c =>
    s.finish c.mb stOk 0 (pack [(16, s.hub.devId), (8, s.fuses.grade), (8, s.fuses.hostOpt), (32, s.fw.1.toNat), (16, s.asvMax),
      (16, s.idWord1 % 65536)]) :=
  runs_of (fun _ => rfl) fun _ _ _ => rfl

theorem deviceIdSet_runs (t mb : Nat) (buf : Option (List Byte)) :
    Runs cmdDeviceIdSet t mb { buf } (.deviceIdSet t mb buf) (fun s _ => s.jobsMask = 0) fun s c =>
    ({ s with hub := { s.hub with devId := c.arg 0 } } : State).finish c.mb stOk :=
  runs_of (fun _ => rfl) fun _ _ hidle => if_neg (not_not.mpr hidle)

theorem configWrite_runs (t mb : Nat) (buf : Option (List Byte)) (s' : State) (b : List Byte) :
    Runs cmdConfigWrite t mb { buf } (.configWrite t mb buf) (fun s c => s.bufIn c = (s', some b) ∧ b.length = 4096) fun _ c =>
    if configValid b then ({ s' with flash := s'.flash.putConfig (configOf b) } : State).finish c.mb stOk
    else s'.finish c.mb stBadArgument := by
  refine runs_of (fun _ => rfl) ?_
  rintro s c ⟨hbuf, hlen⟩
  simp only [cmdConfigWrite, hbuf, hlen, true_and]

/-- An image in host-load mode, by itself or with a configuration block after it, is refused or starts (R499). -/
theorem fwHostload_runs (t mb : Nat) (buf : Option (List Byte)) (fails : List MemFail) (s' : State) (b : List Byte) :
    Runs (cmdFwHostload fails) t mb { buf } (.fwHostload t mb buf fails)
    (fun s c => s.hub.hostload = true ∧ s.bufIn c = (s', some b) ∧
      (b.length = (imageOf b).length ∨ b.length = (imageOf b).length + 4096)) fun _ c =>
    let blk := b.drop (imageOf b).length
    if s'.imageCheck (some (imageOf b)) ≠ 0 then s'.finish c.mb stSignature
    else
      let s1 := (s'.startImage (imageOf b) true).finish c.mb stOk
      if s1.hub.reset.isSome then (if configValid blk then s1.applyConfig (some (configOf blk)) else s1)
      else s1.bootOn (if configValid blk then some (configOf blk) else s1.flash.newest) fails := by
  refine runs_of (fun _ => rfl) ?_
  rintro s c ⟨hload, hbuf, hlen⟩
  have hwhole : ¬ (b.length ≠ (imageOf b).length ∧ b.length ≠ (imageOf b).length + 4096) := by omega
  simp only [cmdFwHostload, hload, not_true_eq_false, if_false, hbuf, hwhole, or_false]

theorem shutdown_runs (t mb : Nat) (buf : Option (List Byte)) (sigs : List (Nat × BitVec 64)) (slow : List Nat) :
    Runs (cmdShutdown sigs slow) t mb { buf } (.shutdown t mb buf sigs slow) (fun s c => c.arg 0 ≤ 1 ∧ s.jobsMask = 0) fun s c =>
    let s1 := (s.modHub fun h => { h with shutdown := true }).errDrain
    let s2 : State := { s1 with flash := s1.flash.ledgerFlush }
    let s3 := if c.arg 0 = 1 then (s2.eraseSession 2).emberScan sigs slow else s2.eraseSession 2
    (s3.finish c.mb stOk).emit .pmbusOff := by
  refine runs_of (fun _ => rfl) ?_
  rintro s c ⟨hkind, hidle⟩
  exact (if_neg (by omega)).trans (if_neg (not_not.mpr hidle))

/-- `EMBER_RUN` scans the powered regions of its mask where no job holds one of them (R523, R526). -/
theorem emberRun_runs (t mb : Nat) (buf : Option (List Byte)) (sigs : List (Nat × BitVec 64)) (slow : List Nat) :
    Runs (cmdEmberRun sigs slow) t mb { buf } (.emberRun t mb buf sigs slow)
    (fun s c => ∀ g < 64, bitOn (c.arg 0) g = true → ∀ p, s.partOfRegion g = some p → s.job p = none) fun s c =>
    let gs := ((List.range 64).filter (bitOn (c.arg 0))).filter fun g => (s.region g).logic == .on
    let ran := gs.filter fun g => !slow.contains g
    ((gs.foldl (fun (s : State) g => s.emberRegion sigs (ran.contains g) g) s).emberDone (BitVec.ofNat 64 (ran.map (2 ^ ·)).sum)
      ((ran.flatMap s.scanSites).filter (s.scanFails sigs)).length).finish c.mb stOk := by
  refine runs_of (fun _ => rfl) ?_
  intro s c hfree
  refine if_neg (Bool.not_eq_true _ ▸ List.any_eq_false.mpr fun g hg => ?_)
  obtain ⟨hmem, hon⟩ := List.mem_filter.mp hg
  split
  · next p hp => rw [hfree g (List.mem_range.mp hmem) hon p hp]; exact Bool.false_ne_true
  · exact Bool.false_ne_true

/-- Settles O1: each command past its checks is the body's last branch. -/
theorem deviceCommandsRun : Obligations.DeviceCommandsRun := by
  unfold Obligations.DeviceCommandsRun
  exact ⟨identify_runs, deviceIdSet_runs, configWrite_runs, fwHostload_runs, shutdown_runs, emberRun_runs⟩

/-! ## The RESET commands (R509, R512 to R514) -/

/-- `RESET` kind 1 outside a reset starts one. -/
theorem resetJubilee_runs (t mb : Nat) (buf : Option (List Byte)) : Runs cmdResetJubilee t mb { buf } (.resetJubilee t mb buf)
    (fun s _ => s.hub.shutdown = false ∧ s.hub.reset = none) fun s c => s.deviceReset .jubilee (some c.mb) true := by
  refine runs_of (fun _ => rfl) ?_
  rintro s c ⟨hup, hnone⟩
  simp only [cmdResetJubilee, hup, Bool.false_eq_true, if_false, State.resetCmd, hnone]

/-- `RESET` kind 1 in a reset is ranked against it. -/
theorem resetJubilee_in_reset_runs (t mb : Nat) (buf : Option (List Byte)) : Runs cmdResetJubilee t mb { buf } (.resetJubilee t mb buf)
    (fun s _ => s.hub.shutdown = false ∧ s.hub.reset.isSome = true) fun s c => s.resetCmd .jubilee c.mb := by
  refine runs_of (fun _ => rfl) ?_
  rintro s c ⟨hup, _⟩
  simp only [cmdResetJubilee, hup, Bool.false_eq_true, if_false]

/-- `RESET` kind 2 where nothing stays hot after a trip and no alarm asserts. -/
theorem resetRecovery_runs (t mb : Nat) (buf : Option (List Byte)) (on : List Nat) :
    Runs (cmdResetRecovery on) t mb { buf } (.resetRecovery t mb { buf, asserting := on })
    (fun s _ => s.hub.shutdown = false ∧ (s.hub.tripped = true → ∀ n < 256, s.hot n 95 = false) ∧
      ∀ i < 6, (s.alarmOf i).asserts = false ∧ on.contains i = false) fun s c =>
    let s1 := (s.modHub fun h => { h with tripped := false }).setHalted false
    let s2 : State := { s1 with pins := { s1.pins with thermtripN := true } }
    ((List.range 64).foldl (fun s g => s.modRegion g fun r => { r with clocksOff := false }) s2).resetCmd .recovery c.mb := by
  refine runs_of (fun _ => rfl) ?_
  rintro s c ⟨hup, hcool, hquiet⟩
  have htrip : ¬ (s.hub.tripped = true ∧ ((List.range 256).any (s.hot · 95)) = true) := by
    rintro ⟨htripped, hhot⟩
    obtain ⟨n, hn, h95⟩ := List.any_eq_true.mp hhot
    exact absurd h95 (by rw [hcool htripped n (List.mem_range.mp hn)]; decide)
  have halarm : ¬ ((List.range 6).any fun i => (s.alarmOf i).asserts || on.contains i) = true := by
    rw [Bool.not_eq_true, List.any_eq_false]
    intro i hi
    obtain ⟨hoff, hnot⟩ := hquiet i (List.mem_range.mp hi)
    rw [hoff, hnot]
    exact Bool.false_ne_true
  exact (if_neg (by rw [hup]; exact Bool.false_ne_true)).trans ((if_neg htrip).trans (if_neg halarm))

/-- `RESET` kind 3 resets a partition that exists, outside any reset. -/
theorem resetPartition_runs (t mb : Nat) (buf : Option (List Byte)) : Runs cmdResetPartition t mb { buf } (.resetPartition t mb buf)
    (fun s c => c.arg 0 = 3 ∧ c.part < 16 ∧ (s.part c.part).exist = true ∧ s.hub.shutdown = false ∧ s.hub.reset = none ∧
      (s.part c.part).underReset = false) fun s c => s.partReset c.part c.mb := by
  refine runs_of (fun _ => rfl) ?_
  rintro s c ⟨hkind, hpart, hexist, hup, hnone, hfree⟩
  simp only [cmdResetPartition, hkind, Nat.not_le.mpr hpart, hexist, hup, hnone, hfree, ne_eq, not_true_eq_false, or_self, Option.isSome_none,
    Bool.false_eq_true, if_false]

/-- Settles O2: by the checks of each kind. -/
theorem resetCommandsRun : Obligations.ResetCommandsRun := by
  unfold Obligations.ResetCommandsRun
  exact ⟨resetJubilee_runs, resetJubilee_in_reset_runs, resetRecovery_runs, resetPartition_runs⟩

/-! ## Mailbox and event settings (R447, R461, R465) -/

/-- An owner's claim, by the credential of a partition. -/
theorem mailboxClaim_owner_runs (t mb : Nat) (buf : Option (List Byte)) (p : Nat) : Runs cmdMailboxClaim t mb { buf } (.mailboxClaim t mb buf)
    (fun s c => c.arg 1 = 2 ∧ c.mb ≠ 0 ∧ s.credPart (c.arg 2) = some p) fun s c =>
    (s.modMb c.mb fun m => { m with role := 2, rolePart := p, session := none }).finish c.mb stOk p := by
  refine runs_of (fun _ => rfl) ?_
  rintro s c ⟨hrole, hmb, hcred⟩
  simp only [cmdMailboxClaim, hrole, if_true, hcred, if_neg hmb]

/-- An administrator makes a mailbox one. -/
theorem mailboxClaim_admin_runs (t mb : Nat) (buf : Option (List Byte)) : Runs cmdMailboxClaim t mb { buf } (.mailboxClaim t mb buf)
    (fun s c => c.arg 1 = 1 ∧ c.arg 0 ≤ 23 ∧ (s.mbx c.mb).role = 1) fun s c =>
    (s.modMb (c.arg 0) fun m => { m with role := 1, rolePart := 0, session := if m.role = 2 then none else m.session }).finish c.mb stOk := by
  refine runs_of (fun _ => rfl) ?_
  rintro s c ⟨hrole, hmb, hadmin⟩
  exact (if_neg (by omega)).trans ((if_neg (by omega)).trans (if_neg (not_not.mpr hadmin)))

theorem mailboxRelease_runs (t mb : Nat) (buf : Option (List Byte)) :
    Runs cmdMailboxRelease t mb { buf } (.mailboxRelease t mb buf) (fun _ c => c.mb ≠ 0) fun s c =>
    (s.modMb c.mb fun m => { m with role := 0, rolePart := 0, session := none }).finish c.mb stOk :=
  runs_of (fun _ => rfl) fun _ _ hmb => if_neg hmb

theorem eventMaskSet_runs (t mb : Nat) (buf : Option (List Byte)) :
    Runs cmdEventMaskSet t mb { buf } (.eventMaskSet t mb buf) (fun _ c => c.arg 0 ≤ 2) fun s c =>
    let key := 256 * c.arg 0 + c.arg 1
    ({ s with ev := { s.ev with masks := Tbl.set (maskDefault key) key (BitVec.ofNat 64 (c.arg 2)) s.ev.masks } } : State).finish c.mb stOk :=
  runs_of (fun _ => rfl) fun _ _ hdest => if_neg (Nat.not_lt.mpr hdest)

theorem eventStreamSet_runs (t mb : Nat) (buf : Option (List Byte)) :
    Runs cmdEventStreamSet t mb { buf } (.eventStreamSet t mb buf) (fun _ c => c.arg 0 ≤ 1 ∧ c.arg 1 ≤ 1) fun s c =>
    (s.modMgmt (c.arg 0) fun x => { x with stream := c.arg 1 == 1, destMac := BitVec.ofNat 48 (c.arg 2) }).finish c.mb stOk :=
  runs_of (fun _ => rfl) fun _ _ ⟨hport, hon⟩ => if_neg (by omega)

/-- Settles O3: by the checks of each command. -/
theorem mailboxCommandsRun : Obligations.MailboxCommandsRun := by
  unfold Obligations.MailboxCommandsRun
  exact ⟨mailboxClaim_owner_runs, mailboxClaim_admin_runs, mailboxRelease_runs, eventMaskSet_runs, eventStreamSet_runs⟩

/-! ## Power commands (R473, R475, R478, R483, R488, R491) -/

theorem dvfsSet_runs (t mb : Nat) (buf : Option (List Byte)) : Runs cmdDvfsSet t mb { buf } (.dvfsSet t mb buf)
    (fun s c => c.arg 1 ≤ 6 ∧ (c.arg 0 = 0xFF ∨ (c.arg 0 < 64 ∧ bitAt (s.part c.part).regions (c.arg 0) = true))) fun s c =>
    ((if c.arg 0 = 0xFF then s.regionsOf c.part else [c.arg 0]).foldl (fun (s : State) g =>
      (s.modRegion g fun r => { r with capOp := c.arg 1 }).applyStep g) s).finish c.mb stOk :=
  runs_of (fun _ => rfl) fun _ _ ⟨hstep, hregion⟩ => if_neg (not_or.mpr ⟨Nat.not_lt.mpr hstep, not_not.mpr hregion⟩)

theorem powerBudgetSet_runs (t mb : Nat) (buf : Option (List Byte)) :
    Runs cmdPowerBudgetSet t mb { buf } (.powerBudgetSet t mb buf) (fun _ c => 1000 ≤ c.arg 0 ∧ c.arg 0 ≤ 2600) fun s c =>
    ({ s with power := { s.power with budget := c.arg 0 } } : State).finish c.mb stOk :=
  runs_of (fun _ => rfl) fun _ _ ⟨hlow, hhigh⟩ => if_neg (by omega)

theorem prewarnDefaultSet_runs (t mb : Nat) (buf : Option (List Byte)) :
    Runs cmdPrewarnDefaultSet t mb { buf } (.prewarnDefaultSet t mb buf) (fun _ c => c.arg 0 ≤ 15) fun s c =>
    (s.modPart c.part fun x => { x with load := c.arg 0 }).finish c.mb stOk :=
  runs_of (fun _ => rfl) fun _ _ hload => if_neg (Nat.not_lt.mpr hload)

/-- `REGION_POWER` moves the regions of its mask towards the state asked for, where no job holds one and none is dark. -/
theorem regionPower_runs (t mb : Nat) (buf : Option (List Byte)) : Runs cmdRegionPower t mb { buf } (.regionPower t mb buf)
    (fun s c => c.arg 1 ≤ 2 ∧ (∀ g < 64, bitOn (c.arg 0) g = true →
      (∀ p, s.partOfRegion g = some p → s.job p = none) ∧ (s.region g).logic ≠ .dark)) fun s c =>
    ((((List.range 64).filter fun g => bitOn (c.arg 0) g).foldl (fun (s : State) g =>
      if (s.region g).reached (c.arg 1) then s
      else if c.arg 1 = 2 then s.powerUp g else s.powerDown g (c.arg 1 == 1)) s)).powerWaiters := by
  refine runs_of (fun _ => rfl) ?_
  rintro s c ⟨hstate, hregions⟩
  have hmask {g : Nat} (hg : g ∈ (List.range 64).filter fun g => bitOn (c.arg 0) g) :
      (∀ p, s.partOfRegion g = some p → s.job p = none) ∧ (s.region g).logic ≠ .dark := by
    obtain ⟨hmem, hon⟩ := List.mem_filter.mp hg
    exact hregions g (List.mem_range.mp hmem) hon
  refine (if_neg (Nat.not_lt.mpr hstate)).trans ((if_neg ?unbound).trans (if_neg ?lit))
  case unbound =>
    refine Bool.not_eq_true _ ▸ List.any_eq_false.mpr fun g hg => ?_
    split
    · next p hp => rw [(hmask hg).1 p hp]; exact Bool.false_ne_true
    · exact Bool.false_ne_true
  case lit => exact Bool.not_eq_true _ ▸ List.any_eq_false.mpr fun g hg => fun hdark => (hmask hg).2 (beq_iff_eq.mp hdark)

theorem thermalSet_runs (t mb : Nat) (buf : Option (List Byte)) :
    Runs cmdThermalSet t mb { buf } (.thermalSet t mb buf) (fun _ c => 85 ≤ c.arg 0 ∧ c.arg 0 ≤ 103) fun s c =>
    ({ s with power := { s.power with throttle := c.arg 0 } } : State).finish c.mb stOk :=
  runs_of (fun _ => rfl) fun _ _ ⟨hlow, hhigh⟩ => if_neg (by omega)

/-- Settles O12: by the ranges that each command checks. -/
theorem powerCommandsRun : Obligations.PowerCommandsRun := by
  unfold Obligations.PowerCommandsRun
  exact ⟨dvfsSet_runs, powerBudgetSet_runs, prewarnDefaultSet_runs, regionPower_runs, thermalSet_runs⟩

end Sys2Proof.Machine
end

section
/-! PROOFS. The security commands and the alarm rows (17 R531 to R547). -/

namespace Sys2Proof.Machine

/-! ## Security commands (R531 to R547) -/

/-- `ATTEST` without a session key reports at once. -/
theorem attest_runs (t mb : Nat) (buf : Option (List Byte)) : Runs cmdAttest t mb { buf } (.attest t mb buf)
    (fun s c => c.arg 2 = 0 ∧ s.sec.idLost = false ∧ s.fuses.idDestroyed = false) fun s c =>
    let b := s.attestBody (c.arg 0) (c.arg 1) 0
    s.finishOut c [b ++ beBytes 96 (Config.identitySign (Config.sha384 b)).toNat] fun _ _ => 0 := by
  refine runs_of (fun _ => rfl) ?_
  rintro s c ⟨hkind, hid, hwhole⟩
  simp only [cmdAttest, hkind, hid, hwhole, Nat.not_lt_zero, Bool.false_eq_true, or_self, if_false, if_true]

/-- `ATTEST` with the host's key in the buffer opens a session first. -/
theorem attest_session_runs (t mb : Nat) (buf : Option (List Byte)) (s' : State) (k : List Byte) :
    Runs cmdAttest t mb { buf } (.attest t mb buf)
    (fun s c => c.arg 2 = 1 ∧ s.sec.idLost = false ∧ s.fuses.idDestroyed = false ∧ s.bufIn c = (s', some k) ∧ 96 ≤ k.length) fun _ c =>
    let d := (s'.draw 256).1.toNat
    let s1 := (s'.draw 256).2.modMb c.mb fun m =>
      { m with session := some (Config.sessionKey (BitVec.ofNat 768 (ofBe (k.take 96))) d (BitVec.ofNat 256 (c.arg 0))) }
    let b := s1.attestBody (c.arg 0) (c.arg 1) (Config.ephemeralKey d).toNat
    s1.finishOut c [b ++ beBytes 96 (Config.identitySign (Config.sha384 b)).toNat] fun _ _ => 0 := by
  refine runs_of (fun _ => rfl) ?_
  rintro s c ⟨hkind, hid, hwhole, hbuf, hlen⟩
  simp only [cmdAttest, hkind, hid, hwhole, hbuf, Nat.not_lt.mpr hlen, Nat.lt_irrefl, Nat.one_ne_zero, Bool.false_eq_true, or_self, if_false]

theorem alarmPolicy_runs (t mb : Nat) (buf : Option (List Byte)) : Runs cmdAlarmPolicy t mb { buf } (.alarmPolicy t mb buf)
    (fun s c => c.arg 0 ≤ 5 ∧ c.arg 1 ≤ 3 ∧ c.arg 2 ≤ 1 ∧ (s.alarmOf (c.arg 0)).locked = false) fun s c =>
    (s.modAlarm (c.arg 0) fun a => { a with policy := c.arg 1, locked := c.arg 2 == 1 }).finish c.mb stOk := by
  refine runs_of (fun _ => rfl) ?_
  rintro s c ⟨hcls, hpolicy, hlock, hopen⟩
  exact (if_neg (by omega)).trans (if_neg (by rw [hopen]; exact Bool.false_ne_true))

/-- The first phase of `DEBUG_UNLOCK` gives a challenge. -/
theorem debugUnlock_challenge_runs (t mb : Nat) (buf : Option (List Byte)) : Runs cmdDebugUnlock t mb { buf } (.debugUnlock t mb buf)
    (fun _ c => c.arg 0 = 0 ∧ 1 ≤ c.arg 1 ∧ c.arg 1 ≤ 31) fun s c =>
    ({ (s.draw 128).2 with sec := { s.sec with challenge := some ((s.draw 128).1, s.now, BitVec.ofNat 8 (c.arg 1)) } } : State).finish c.mb stOk 0
      (s.draw 128).1.toNat := by
  refine runs_of (fun _ => rfl) ?_
  rintro s c ⟨hphase, hlow, hhigh⟩
  exact (if_neg (by omega)).trans (if_pos hphase)

/-- A signature is good where its key's hash is the fused one and the check passes. -/
theorem signedBy_good (b msg : List Byte) (h : BitVec 384) : ((signedBy b msg).1 == h && (signedBy b msg).2) = true ↔ signedBy b msg = (h, true) := by
  rw [Bool.and_eq_true, beq_iff_eq, Prod.ext_iff]

/-- The second phase of `DEBUG_UNLOCK`, in time and for the scope of its challenge, opens debug or raises an alarm, by its signature. -/
theorem debugUnlock_answer_runs (t mb : Nat) (buf : Option (List Byte)) (s' : State) (b : List Byte) (ch : BitVec 128) (ft : Nat) :
    Runs cmdDebugUnlock t mb { buf } (.debugUnlock t mb buf)
    (fun s c => c.arg 0 = 1 ∧ 1 ≤ c.arg 1 ∧ c.arg 1 ≤ 31 ∧ s.bufIn c = (s', some b) ∧ 192 ≤ b.length ∧
      s'.sec.challenge = some (ch, ft, BitVec.ofNat 8 (c.arg 1)) ∧ s'.now ≤ ft + 60 * ftSec) fun _ c =>
    let s1 : State := { s' with sec := { s'.sec with challenge := none } }
    if signedBy b (s'.debugMsg ch (c.arg 1)) = (s'.fuses.debugHash, true) then (s1.debugOpen (c.arg 1)).finish c.mb stOk
    else (s1.alarm 5 0 0).finish c.mb stDebugChallenge := by
  refine runs_of (fun _ => rfl) ?_
  rintro s c ⟨hphase, hlow, hhigh, hbuf, hlen, hch, htime⟩
  have hscope : ¬ (1 < 1 ∨ c.arg 1 = 0 ∨ 31 < c.arg 1) := by omega
  simp only [cmdDebugUnlock, hphase, if_neg hscope, Nat.one_ne_zero, if_false, hbuf, hch, decide_eq_true hlen, decide_eq_true htime, beq_self_eq_true,
    Bool.true_and, signedBy_good]

theorem debugLock_runs (t mb : Nat) (buf : Option (List Byte)) : Runs cmdDebugLock t mb { buf } (.debugLock t mb buf) (fun _ _ => True) fun s c =>
    ({ s with sec := { s.sec with debug := 0, tap := 0 } } : State).finish c.mb stOk :=
  runs_of (fun _ => rfl) fun _ _ _ => rfl

/-- `KEY_INSTALL` under a session opens the wrapped key and puts it in its slot. -/
theorem keyInstall_runs (t mb : Nat) (buf : Option (List Byte)) (sk : BitVec 256) (idx : Nat) (s' : State) (b : List Byte) :
    Runs cmdKeyInstall t mb { buf } (.keyInstall t mb buf)
    (fun s c => (s.mbx c.mb).session = some sk ∧
      (installSlot (c.arg 0) (c.arg 2) (c.arg 3) (c.arg 4)).bind (keyIndex (c.arg 0)) = some idx ∧ c.arg 1 ≤ 1 ∧
      s.linkInForce (c.arg 0) (c.arg 2) (c.arg 3) (c.arg 4) = false ∧ s.bufIn c = (s', some b)) fun _ c =>
    match Config.gcmOpen sk (BitVec.ofNat 96 (num b 0 12)) [] (b.drop 12) with
    | none => s'.finish c.mb stKeyAuth
    | some pt => match keyOf (c.arg 0) pt with
      | none => s'.finish c.mb stBadArgument
      | some k =>
        let s1 : State := { s' with sec := { s'.sec with keys := Tbl.set {} idx k s'.sec.keys } }
        (if c.arg 0 = 1 ∧ c.arg 4 = 0 ∧ c.arg 1 = 1 then s1.keyActivate (c.arg 2) (c.arg 3) else s1).finish c.mb stOk := by
  refine runs_of (fun _ => rfl) ?_
  rintro s c ⟨hsession, hslot, hact, hlink, hbuf⟩
  simp only [cmdKeyInstall, hsession, hslot, Nat.not_lt.mpr hact, hlink, Bool.false_eq_true, if_false, hbuf] <;> rfl

theorem keyErase_runs (t mb : Nat) (buf : Option (List Byte)) (idx : Nat) :
    Runs cmdKeyErase t mb { buf } (.keyErase t mb buf) (fun _ c => keyIndex (c.arg 0) (c.arg 1) = some idx) fun s c =>
    ({ s with sec := { s.sec with keys := Tbl.set {} idx ({} : Key) s.sec.keys } } : State).finish c.mb stOk := by
  refine runs_of (fun _ => rfl) ?_
  intro s c hidx
  simp only [cmdKeyErase, hidx]

theorem mgmtChallenge_runs (t mb : Nat) (buf : Option (List Byte)) :
    Runs cmdMgmtChallenge t mb { buf } (.mgmtChallenge t mb buf) (fun _ c => 16 ≤ c.mb) fun s c =>
    (((s.draw 128).2).modMb c.mb fun m => { m with challenge := some ((s.draw 128).1, s.now) }).finish c.mb stOk 0 (s.draw 128).1.toNat :=
  runs_of (fun _ => rfl) fun _ _ hmb => if_neg (Nat.not_lt.mpr hmb)

/-- `MGMT_AUTH` in time gives the administrator's role, or not, by its signature under an operator key in force. -/
theorem mgmtAuth_runs (t mb : Nat) (buf : Option (List Byte)) (s' : State) (b : List Byte) (ch : BitVec 128) (ft : Nat) (k : OpKey) :
    Runs cmdMgmtAuth t mb { buf } (.mgmtAuth t mb buf)
    (fun s c => 16 ≤ c.mb ∧ c.arg 0 ≤ 3 ∧ s.bufIn c = (s', some b) ∧ 192 ≤ b.length ∧ (s'.mbx c.mb).challenge = some (ch, ft) ∧
      s'.now ≤ ft + 10 * ftSec ∧ Tbl.get {} s'.fuses.opKeys (c.arg 0) = k ∧ k.programmed = true ∧ k.revoked = false) fun _ c =>
    let s1 := s'.modMb c.mb fun m => { m with challenge := none }
    if signedBy b (leBytes 16 ch.toNat ++ leBytes 2 s'.hub.devId ++ leBytes 1 c.mb) = (k.hash, true) then
      (s1.modMb c.mb fun m => { m with role := 1 }).finish c.mb stOk
    else s1.finish c.mb stKeyAuth := by
  refine runs_of (fun _ => rfl) ?_
  rintro s c ⟨hmb, hslot, hbuf, hlen, hch, htime, rfl, hprog, hforce⟩
  simp only [cmdMgmtAuth, Nat.not_lt.mpr hmb, Nat.not_lt.mpr hslot, if_false, hbuf, hch, decide_eq_true hlen, decide_eq_true htime, hprog, hforce,
    Bool.not_false, Bool.true_and, signedBy_good]

theorem operatorKeyFuse_revokes (t mb : Nat) (buf : Option (List Byte)) : Runs cmdOperatorKeyFuse t mb { buf } (.operatorKeyFuse t mb buf)
    (fun _ c => c.mb = 0 ∧ c.arg 0 ≤ 3 ∧ c.arg 1 = 1) fun s c =>
    let k : OpKey := Tbl.get {} s.fuses.opKeys (c.arg 0)
    ({ s with fuses := { s.fuses with opKeys := Tbl.set {} (c.arg 0) { k with revoked := true } s.fuses.opKeys } } : State).finish c.mb stOk := by
  refine runs_of (fun _ => rfl) ?_
  rintro s c ⟨hmb, hslot, hrevoke⟩
  exact (if_neg (not_not.mpr hmb)).trans ((if_neg (by omega)).trans (if_pos hrevoke))

theorem operatorKeyFuse_programs (t mb : Nat) (buf : Option (List Byte)) (s' : State) (b : List Byte) :
    Runs cmdOperatorKeyFuse t mb { buf } (.operatorKeyFuse t mb buf)
    (fun s c => c.mb = 0 ∧ c.arg 0 ≤ 3 ∧ c.arg 1 = 0 ∧ (Tbl.get {} s.fuses.opKeys (c.arg 0) : OpKey).programmed = false ∧
      s.bufIn c = (s', some b) ∧ 48 ≤ b.length) fun s c =>
    let k : OpKey := Tbl.get {} s.fuses.opKeys (c.arg 0)
    let n : OpKey := { k with programmed := true, hash := BitVec.ofNat 384 (ofBe (b.take 48)) }
    ({ s' with fuses := { s'.fuses with opKeys := Tbl.set {} (c.arg 0) n s'.fuses.opKeys } } : State).finish c.mb stOk := by
  refine runs_of (fun _ => rfl) ?_
  rintro s c ⟨hmb, hslot, hprogram, hblank, hbuf, hlen⟩
  have hargs : ¬ (3 < c.arg 0 ∨ 1 < 0) := by omega
  simp only [cmdOperatorKeyFuse, hmb, ne_eq, not_true_eq_false, if_false, hprogram, if_neg hargs, Nat.zero_ne_one, hblank, Bool.false_eq_true, hbuf,
    Nat.not_lt.mpr hlen]

/-- Settles O13: by the checks of each command and the buffer that it reads. -/
theorem securityCommandsRun : Obligations.SecurityCommandsRun := by
  unfold Obligations.SecurityCommandsRun
  exact ⟨attest_runs, attest_session_runs, alarmPolicy_runs, debugUnlock_challenge_runs, debugUnlock_answer_runs, debugLock_runs, keyInstall_runs,
    keyErase_runs, mgmtChallenge_runs, mgmtAuth_runs, operatorKeyFuse_revokes, operatorKeyFuse_programs⟩

/-! ## Alarms (R539, R540) -/

theorem alarmRaise_does (t c det val : Nat) : Does t (.alarmRaise t { cls := c, det, val }) (fun _ => c ≤ 5) fun s =>
    (s.modAlarm c fun a => { a with asserts := decide (2 ≤ c ∧ c ≤ 4) }).alarm c det val :=
  fun _ hcls => congrArg Host.Outcome.next (if_pos hcls)

theorem tamperSample_passes (t : Nat) : Does t (.tamperSample t true) (fun _ => True) fun s => s.modAlarm 3 fun a => { a with asserts := false } :=
  fun _ _ => congrArg Host.Outcome.next (if_pos (Or.inl rfl))

theorem tamperSample_fails (t : Nat) : Does t (.tamperSample t false) (fun s => (s.alarmOf 3).asserts = false) fun s =>
    (s.modAlarm 3 fun a => { a with asserts := true }).alarm 3 0 0 :=
  fun _ hoff => congrArg Host.Outcome.next (if_neg (by rw [hoff]; decide))

theorem fuseRecheck_passes (t : Nat) : Does t (.fuseRecheck t true) (fun _ => True) fun s => s.modAlarm 4 fun a => { a with asserts := false } :=
  fun _ _ => congrArg Host.Outcome.next (if_pos (Or.inl rfl))

theorem fuseRecheck_fails (t : Nat) : Does t (.fuseRecheck t false) (fun s => (s.alarmOf 4).asserts = false) fun s =>
    (s.modAlarm 4 fun a => { a with asserts := true }).alarm 4 0 0 :=
  fun _ hoff => congrArg Host.Outcome.next (if_neg (by rw [hoff]; decide))

/-- Settles O14: an alarm rises where its detector did not assert before. -/
theorem alarmRowsAct : Obligations.AlarmRowsAct := by
  unfold Obligations.AlarmRowsAct
  exact ⟨alarmRaise_does, tamperSample_passes, tamperSample_fails, fuseRecheck_passes, fuseRecheck_fails⟩

end Sys2Proof.Machine
end

section
/-! PROOFS. The twin and restore commands, and what the incoming mirror answers (13 R403 to R410, R418 to R433). -/

namespace Sys2Proof.Machine

/-! ## Twin commands (R403, R404, R406, R418, R423) -/

/-- A state in which the old mirror region of a partition has been freed, and all pages that wait for it are zeroed (R404, log 70). -/
def State.mirrorFreed (s : State) (p : Nat) : State :=
  match (s.part p).twin.base with
  | some l => (s.unmapPages ((List.range (s.part p).twin.reserve).map (l + ·))).zeroAll
  | none => s.zeroAll

/-- `TWIN_BIND` that its peer confirms starts a full copy of the partition's sealed record into the mirror region it has got, the old one of a
broken twin of the same size or a new one. -/
theorem twinBind_runs (t mb : Nat) (buf : Option (List Byte)) (w : TwinPeer) (s' : State) (base : Option Nat) :
    Runs cmdTwinBind t mb { buf, peer := some w, later := false } (.twinBind t mb buf true w false)
    (fun s c => c.arg 0 ≤ 15 ∧ 1 ≤ c.arg 4 ∧ c.arg 4 ≤ 1000 ∧ 1 ≤ c.arg 5 ∧ c.arg 5 ≤ 600 ∧ s.bindPort c.part (c.arg 1) (c.arg 3) = true ∧
      (c.arg 2 = 0xFF ∨ (c.arg 2 ≠ c.arg 1 ∧ s.bindPort c.part (c.arg 2) (c.arg 3) = true)) ∧ ((s.part c.part).twin.st = .unbound ∨ (s.part c.part).twin.st = .broken) ∧
      w.dev = s.hub.devId ∧ w.part = c.part ∧
      (s.mbx c.mb).ext = { buf, peer := some w, later := false } ∧
      (if (s.part c.part).twin.st == .broken && (s.part c.part).twin.reserve == c.arg 6 then s' = s ∧ base = (s.part c.part).twin.base
      else (match (s.part c.part).twin.base with
        | some l => (s.unmapPages ((List.range (s.part c.part).twin.reserve).map (l + ·))).zeroAll
        | none => s.zeroAll).mirrorAlloc c.part (c.arg 6) = .ok (s', base))) fun s c =>
    let x := (s.part c.part).twin
    let reuse := x.st == .broken && x.reserve == c.arg 6
    let y : Twin :=
      { st := .syncing, full := true, portA := c.arg 1, portB := if c.arg 2 = 0xFF then 0x1F else c.arg 2, peerDev := c.arg 3,
        peerPart := c.arg 0, deadlineMs := c.arg 4, fullS := c.arg 5, reserve := c.arg 6, base, peerReserve := w.reserve, peerBase := w.base,
        peerLive := w.live.zipIdx.foldl (fun l e => Tbl.set 0 e.2 e.1 l) [], mirrors := x.mirrors,
        peerPages := if reuse then x.peerPages else 0, mirrorGen := if reuse then x.mirrorGen else 0, acked := x.acked, late := x.late,
        naks := x.naks }
    let s0 := s'.askOnce c.mb (.twinBind (c.arg 3) (c.arg 0) s.hub.devId c.part (c.arg 4) (c.arg 5) (c.arg 6))
    let s1 := ((s0.portTwin c.part false).modTwin c.part fun _ => y).portTwin c.part true
    (match s1.job c.part with
      | some j => s1.mirrorPend c.part [] j.lastSealed.step false
      | none => s1).finish c.mb stOk := by
  refine runs_of (fun _ => rfl) ?_
  rintro s c ⟨hpart, hms0, hms1, hs0, hs1, hportA, hportB, hst, hdev, hpeer, hext, hregion⟩
  have hargs : ¬ (15 < c.arg 0 ∨ c.arg 4 < 1 ∨ 1000 < c.arg 4 ∨ c.arg 5 < 1 ∨ 600 < c.arg 5 ∨ ¬ s.bindPort c.part (c.arg 1) (c.arg 3) = true ∨
      ¬ (c.arg 2 = 0xFF ∨ (c.arg 2 ≠ c.arg 1 ∧ s.bindPort c.part (c.arg 2) (c.arg 3) = true))) := by
    simp only [hportA, hportB, not_true_eq_false, or_false]
    omega
  have hfree : ¬ ((s.part c.part).twin.st = .syncing ∨ (s.part c.part).twin.st = .bound) := by
    rcases hst with h | h <;> rw [h] <;> decide
  have htaken : (if (s.part c.part).twin.st == .broken && (s.part c.part).twin.reserve == c.arg 6 then .ok (s, (s.part c.part).twin.base)
      else (s.mirrorFreed c.part).mirrorAlloc c.part (c.arg 6) : Except Nat (State × Option Nat)) = .ok (s', base) := by
    split at hregion
    · next hreuse =>
      obtain ⟨rfl, rfl⟩ := hregion
      exact if_pos hreuse
    · next hreuse => exact (if_neg hreuse).trans hregion
  refine (if_neg hargs).trans ((if_neg hfree).trans ?_)
  extract_lets ext x reuse y s0 s1
  split
  · next h => cases htaken.symm.trans h
  · next s2 base2 h =>
    obtain ⟨rfl, rfl⟩ := Prod.mk.inj (Except.ok.inj (htaken.symm.trans h))
    have hnow : ext.later = false := by rw [show ext = _ from hext]
    have hpeer' : ext.peer = some w := by rw [show ext = _ from hext]
    have hmatch : ¬ (w.dev ≠ s.hub.devId ∨ w.part ≠ c.part) := by simp [hdev, hpeer]
    simp only [hnow, Bool.false_eq_true, if_false, hpeer']
    exact if_neg hmatch

theorem twinUnbind_unbound_runs (t mb : Nat) (buf : Option (List Byte)) :
    Runs cmdTwinUnbind t mb { buf } (.twinUnbind t mb buf) (fun s c => (s.part c.part).twin.st = .unbound) fun s c => s.finish c.mb stOk :=
  runs_of (fun _ => rfl) fun _ _ hunbound => if_pos hunbound

theorem twinUnbind_runs (t mb : Nat) (buf : Option (List Byte)) :
    Runs cmdTwinUnbind t mb { buf } (.twinUnbind t mb buf) (fun s c => (s.part c.part).twin.st ≠ .unbound) fun s c =>
    ((s.emit (.twinUnbind (s.part c.part).twin.peerDev (s.part c.part).twin.peerPart)).twinFree c.part).finish c.mb stOk :=
  runs_of (fun _ => rfl) fun _ _ hbound => if_neg hbound

theorem mirrorExport_runs (t mb : Nat) (buf : Option (List Byte)) (p : Nat) :
    Runs cmdMirrorExport t mb { buf } (.mirrorExport t mb buf) (fun s c => s.twinWith c.part (c.arg 1) = some p) fun s c =>
    ((s.mirrorCut p).modTwin p fun x =>
      { x with st := .broken, phase := .idle, awaitAck := false, full := false, waitBegin := false, todo := [], exported := true,
               spare := some (c.arg 2, c.arg 0), exportFt := s.now }).finish c.mb stOk := by
  refine runs_of (fun _ => rfl) ?_
  intro s c htwin
  simp only [cmdMirrorExport, htwin]

theorem epactRead_runs (t mb : Nat) (buf : Option (List Byte)) (j : Job) :
    Runs cmdEpactRead t mb { buf } (.epactRead t mb buf) (fun s c => s.job c.part = some j) fun s c =>
    s.finish c.mb stOk 0 (epactNum j.epactSealed) := by
  refine runs_of (fun _ => rfl) ?_
  intro s c hjob
  simp only [cmdEpactRead, hjob]

/-- Settles O9: by the checks of each command and the mirror region that `TWIN_BIND` takes. -/
theorem twinCommandsRun : Obligations.TwinCommandsRun := by
  unfold Obligations.TwinCommandsRun
  exact ⟨twinBind_runs, twinUnbind_unbound_runs, twinUnbind_runs, mirrorExport_runs, epactRead_runs⟩

/-! ## Restore commands (R421, R424 to R430, R433) -/

/-- `RESTORE_BEGIN` with the answer of a survivor that holds the generation asked for takes pages and fetches the record. -/
theorem restoreBegin_runs (t mb : Nat) (buf : Option (List Byte)) (m : MirrorIn) (o : Ordo) (z1 : State) (a b : Tbl Nat) (z2 : State)
    (ls : List Nat) : Runs cmdRestoreBegin t mb { buf, mirror := m, later := false } (.restoreBegin t mb buf m false)
    (fun s c => (s.part c.part).ordo = some o ∧ c.arg 1 ≤ 1 ∧ s.anyJob = false ∧
      (((s.dropRestore c.part).askOnce c.mb (.mirrorRead (c.arg 0) 0xFF)).mbx c.mb).ext.later = false ∧ (s.mbx c.mb).ext.mirror = m ∧ m.exported = true ∧ m.answered = true ∧ m.lrec.ordoId = o.digest.setWidth 64 ∧
      (m.lrec.step + 1) % 2 ^ 64 = c.arg 2 ∧ ((s.dropRestore c.part).askOnce c.mb (.mirrorRead (c.arg 0) 0xFF)).zeroAll.allocSides c.part o.classes.length = some (z1, a, b) ∧
      z1.allocJob c.part o = some (z2, ls) ∧ z2.keptFull = false) fun _ c =>
    let r : Restore := { survivor := c.arg 0, lostDev := m.lostDev, gen := c.arg 2, cursor := BitVec.ofNat 64 (c.arg 3), lrec := m.lrec,
                         sideA := a, sideB := b, jobPages := ls }
    ((z2.modPart c.part fun x => { x with restore := r }).restoreFetch c.part o r m
      (if c.arg 1 = 1 then some (BitVec.ofNat 128 (c.arg 4)) else none)).finish c.mb stOk := by
  refine runs_of (fun _ => rfl) ?_
  rintro s c ⟨hordo, hkind, hidle, hlater, hmirror, hexported, hanswered, hid, hgen, hsides, hjob, hkept⟩
  simp only [cmdRestoreBegin, hordo, Nat.not_lt.mpr hkind, hidle, hlater, hmirror, hexported, hanswered, hid, ne_eq, not_true_eq_false,
    Bool.false_eq_true, if_false]
  rw [if_neg (not_not.mpr hgen), hgen]
  -- The two allocations are made opaque, as a checker that reduces them runs the search for pages.
  obtain ⟨alloc, halloc⟩ : ∃ alloc : State → Option (State × List Nat), ∀ z : State, z.allocJob c.part o = alloc z := ⟨_, fun _ => rfl⟩
  rw [halloc] at hjob
  generalize ((s.dropRestore c.part).askOnce c.mb (.mirrorRead (c.arg 0) 0xFF)).zeroAll.allocSides c.part o.classes.length = sides at hsides ⊢
  simp only [halloc]
  subst hsides
  dsimp only
  generalize alloc z1 = job at hjob ⊢
  subst hjob
  exact if_neg (Bool.eq_false_iff.mp hkept)

/-- `RECONCILE` of a job in HOLD gives its sealed record a new cursor. -/
theorem reconcile_hold_runs (t mb : Nat) (buf : Option (List Byte)) (j : Job) (s' : State) (d : List (Nat × BitVec 128)) :
    Runs cmdReconcile t mb { buf } (.reconcile t mb buf)
    (fun s c => c.arg 0 < 2 ^ 48 ∧ (s.part c.part).job = some j ∧ j.st = .hold ∧
      s.reconcileIn j (epactAt j.epactSealed (c.arg 0)) j.digSealed = (s', d)) fun _ c =>
    let e := epactAt j.epactSealed (c.arg 0)
    let r : LedgerRec := { j.lastSealed with stateDigest := stateDigest j.classes d, weightDigest := weightDigest j.classes d, epact := e }
    ((s'.modJob c.part fun j =>
      { j with epactSealed := e, digSealed := d, lastSealed := r,
               ledger := j.ledger.map fun y => if y.2.state = .sealed ∧ y.2.step = r.step then (y.1, r) else y }).ledgerOut c.part).finish c.mb stOk := by
  refine runs_of (fun _ => rfl) ?_
  rintro s c ⟨hcursor, hjob, hhold, hin⟩
  simp only [cmdReconcile, Nat.not_le.mpr hcursor, hjob, hhold, ne_eq, not_true_eq_false, if_false, hin]

/-- `RECONCILE` on a spare gives its restored record the cursor, and reports the restore. -/
theorem reconcile_spare_runs (t mb : Nat) (buf : Option (List Byte)) (o : Ordo) (s' : State) (d : List (Nat × BitVec 128)) :
    Runs cmdReconcile t mb { buf } (.reconcile t mb buf)
    (fun s c => c.arg 0 < 2 ^ 48 ∧ (s.part c.part).job = none ∧ (s.part c.part).ordo = some o ∧
      ((s.part c.part).restore.st = .epact ∨ ((s.part c.part).restore.st = .verified ∧ (s.part c.part).restore.reconciled = true)) ∧
      s.reconcileIn ((s.part c.part).restore.job o) (epactAt (epactOfBytes (s.sealedClass ((s.part c.part).restore.job o) 4 0 16)) (c.arg 0))
        ((s.part c.part).restore.pages.map fun y => (y.1, y.2.2)) = (s', d)) fun s c =>
    let q := (s.part c.part).restore
    let j := q.job o
    let r : LedgerRec := { q.lrec with stateDigest := stateDigest j.classes d, weightDigest := weightDigest j.classes d,
                                       epact := epactAt (epactOfBytes (s.sealedClass j 4 0 16)) (c.arg 0) }
    let q1 : Restore := { q with st := .verified, reconciled := true, lrec := r
                                 pages := q.pages.map fun y => (y.1, (y.2.1, Tbl.get 0 d y.1)) }
    ((s'.modPart c.part fun x => { x with restore := q1 }).event 0x0801 c.part [(8, 1), (64, q1.gen)]).finish c.mb stOk := by
  refine runs_of (fun _ => rfl) ?_
  rintro s c ⟨hcursor, hjob, hordo, hrestore, hin⟩
  simp only [cmdReconcile, Nat.not_le.mpr hcursor, hjob, hordo, if_false, if_neg (not_not.mpr hrestore), hin]

/-- `RESTORE_COMMIT` of a verified restore binds the restored job in HOLD under the lost device's identity, with its Heralds. -/
theorem restoreCommit_runs (t mb : Nat) (buf : Option (List Byte)) (o : Ordo) : Runs cmdRestoreCommit t mb { buf } (.restoreCommit t mb buf)
    (fun s c => (s.part c.part).ordo = some o ∧ (s.part c.part).restore.st = .verified ∧ s.anyJob = false ∧
      s.almRoom o = true) fun s c =>
    let p := c.part
    let r := (s.part p).restore
    let s1 := s.modHub fun h => { h with devId := r.lostDev }
    let j := s1.restoredJob o r
    let s2 := s1.bindJob p c.mb ((s1.now + 3999) / 4000 * 4000) o j []
    let s3 := (s2.modJob p fun j => { j with st := .hold, startMb := none }).modPart p fun x => { x with gate := false, restore := {} }
    let gs := o.groups.filter fun g => j.heraldOf g == r.lostDev
    let s4 := (s3.closeHeralds p).openHeralds gs
    let s5 := gs.foldl (fun (s : State) g => s.setHerald g.group ((s.herald g.group).map fun h => h.holdAt r.lostDev s.now r.gen)) s4
    (s5.emit (.exportEnd r.survivor r.lostDev)).finish c.mb stOk := by
  refine runs_of (fun _ => rfl) ?_
  rintro s c ⟨hordo, hverified, hidle, hroom⟩
  simp only [cmdRestoreCommit, hordo, hverified, hidle, hroom, ne_eq, not_true_eq_false, Bool.false_eq_true, or_self, if_false]

/-- What the world has answered stands when the question is put again. -/
theorem askOnce_ext (s : State) (mb : Nat) (q : OutMsg) : ((s.askOnce mb q).mbx mb).ext = { (s.mbx mb).ext with asked := true } := by
  unfold State.askOnce
  split
  · next hasked => rw [← hasked]
  · exact congrArg Mailbox.ext (modMb_same (s.emit q) mb _)

/-- `RESTORE_PAGE` of pages that the twin's mirror holds whole rebuilds them, and the mirror is filled again. -/
theorem restorePage_runs (t mb : Nat) (buf : Option (List Byte)) (m : MirrorIn) (j : Job) (s' : State) :
    Runs cmdRestorePage t mb { buf, mirror := m, later := false } (.restorePage t mb buf m false)
    (fun s c => s.job c.part = some j ∧ (j.st = .hold ∨ j.st = .stopped ∨ j.st = .atGate) ∧
      ((s.part c.part).twin.st = .syncing ∨ (s.part c.part).twin.st = .bound) ∧ (s.part c.part).twin.phase = .idle ∧
      (s.part c.part).twin.outFull = true ∧ c.arg 0 ≤ c.arg 1 ∧ c.arg 1 < j.classes.length ∧ (s.mbx c.mb).ext = { buf, mirror := m, later := false } ∧ m.answered = true ∧
      State.rebuildAll c.part (c.arg 0) m ((List.range (c.arg 1 + 1 - c.arg 0)).map (c.arg 0 + ·))
        ((s.askOnce c.mb (.mirrorRead (s.part c.part).twin.peerDev (s.part c.part).twin.peerPart)).zeroAll) = (s', none)) fun _ c =>
    ((s'.modJob c.part fun j => { j with retainFloor := j.step, gens := [], log := [], flipped := [] }).fillAgain c.part).finish c.mb stOk := by
  refine runs_of (fun _ => rfl) ?_
  rintro s c ⟨hjob, hst, htwin, hidle, hfull, hfirst, hlast, hext, hanswered, hpages⟩
  have hrange : ¬ (c.arg 1 < c.arg 0 ∨ j.classes.length ≤ c.arg 1) := by omega
  have hasked := askOnce_ext s c.mb (.mirrorRead (s.part c.part).twin.peerDev (s.part c.part).twin.peerPart)
  simp only [cmdRestorePage, hjob, if_neg (not_not.mpr htwin), if_neg (not_not.mpr hst), if_neg hrange, hidle, hfull, hasked, hext, hanswered, hpages,
    ne_eq, not_true_eq_false, Bool.false_eq_true, if_false]

/-- Settles O10: by the checks of each command and the pages and records that it is given. -/
theorem restoreCommandsRun : Obligations.RestoreCommandsRun := by
  unfold Obligations.RestoreCommandsRun
  exact ⟨restoreBegin_runs, reconcile_hold_runs, reconcile_spare_runs, restoreCommit_runs, restorePage_runs⟩

/-! ## The incoming mirror (R408, R410) -/

/-- What the incoming mirror refuses and takes of what has been staged for a step. -/
theorem twinApply_answers {t p step b : Nat} {s : State} (hbase : ((s.adv t).part p).twin.base = some b)
    (hst : ((s.adv t).part p).twin.st = .syncing ∨ ((s.adv t).part p).twin.st = .bound) :
    let x := ((s.adv t).part p).twin
    let r := recOfBytes ((s.adv t).logRead b 0x100 128)
    let n := ((s.adv t).stagedHead b x.peerPages).1
    let tp := ((s.adv t).stagedHead b x.peerPages).2
    let full : Bool := num ((s.adv t).logRead b 0x180 8) 4 1 != 0
    let es := (List.range n).map ((s.adv t).stagedEnt b tp)
    exec (.twinApplyReceive t p step) s = .next (
      if ¬ ((s.adv t).stagedBad b tp es).isEmpty then (s.adv t).emit (.twinNak x.peerDev x.peerPart (((s.adv t).stagedBad b tp es).take 64))
      else if (s.adv t).stagedDigests b tp es ≠ (r.stateDigest, r.weightDigest) ∨ r.step ≠ step then
        (s.adv t).emit (.twinNak x.peerDev x.peerPart [0xFFFFFFFF])
      else
        (((es.foldl (fun s' e => s'.logWrite (b + 1) (32 * e.page) (mirEntBytes ((s.adv t).mirAfter b es e.page))) (s.adv t)).logWrite b 0
          (recBytes r)).modTwin p fun x => Twin.bind { x with mirrorGen := (r.step + 1) % 2 ^ 64, peerPages := tp, inFull := x.inFull || full }).emit
          (.twinAck x.peerDev x.peerPart step r.stateDigest)) := by
  show execTwinApplyReceive t p step s = _
  unfold execTwinApplyReceive
  simp only [hbase, if_neg (not_not.mpr hst)]

/-- A page whose staged digest does not match refuses the step, with the first 64 such pages. -/
theorem twinApply_refuses_pages (t p step b n tp : Nat) : Does t (.twinApplyReceive t p step)
    (fun s => (s.part p).twin.base = some b ∧ ((s.part p).twin.st = .syncing ∨ (s.part p).twin.st = .bound) ∧
      s.stagedHead b (s.part p).twin.peerPages = (n, tp) ∧ s.stagedBad b tp ((List.range n).map (s.stagedEnt b tp)) ≠ []) fun s =>
    s.emit (.twinNak (s.part p).twin.peerDev (s.part p).twin.peerPart ((s.stagedBad b tp ((List.range n).map (s.stagedEnt b tp))).take 64)) := by
  rintro s ⟨hbase, hst, hhead, hbad⟩
  rw [twinApply_answers hbase hst]
  simp only [hhead, List.isEmpty_iff, hbad, not_false_eq_true, if_true]

/-- Digests or a step that do not match refuse the step as a whole. -/
theorem twinApply_refuses_step (t p step b n tp : Nat) (r : LedgerRec) : Does t (.twinApplyReceive t p step)
    (fun s => (s.part p).twin.base = some b ∧ ((s.part p).twin.st = .syncing ∨ (s.part p).twin.st = .bound) ∧
      s.stagedHead b (s.part p).twin.peerPages = (n, tp) ∧ r = recOfBytes (s.logRead b 0x100 128) ∧
      s.stagedBad b tp ((List.range n).map (s.stagedEnt b tp)) = [] ∧
      (s.stagedDigests b tp ((List.range n).map (s.stagedEnt b tp)) ≠ (r.stateDigest, r.weightDigest) ∨ r.step ≠ step)) fun s =>
    s.emit (.twinNak (s.part p).twin.peerDev (s.part p).twin.peerPart [0xFFFFFFFF]) := by
  rintro s ⟨hbase, hst, hhead, rfl, hgood, hwhole⟩
  rw [twinApply_answers hbase hst]
  simp only [hhead, hgood, List.isEmpty_nil, not_true_eq_false, if_false]
  exact congrArg Host.Outcome.next (if_pos hwhole)

/-- A step that matches makes the mirror its record. -/
theorem twinApply_takes (t p step b n tp : Nat) (es : List ManEntry) (r : LedgerRec) : Does t (.twinApplyReceive t p step)
    (fun s => (s.part p).twin.base = some b ∧ ((s.part p).twin.st = .syncing ∨ (s.part p).twin.st = .bound) ∧
      s.stagedHead b (s.part p).twin.peerPages = (n, tp) ∧ es = (List.range n).map (s.stagedEnt b tp) ∧ r = recOfBytes (s.logRead b 0x100 128) ∧
      s.stagedBad b tp es = [] ∧ s.stagedDigests b tp es = (r.stateDigest, r.weightDigest) ∧ r.step = step) fun s =>
    let full := num (s.logRead b 0x180 8) 4 1 != 0
    let s1 := (es.foldl (fun s' e => s'.logWrite (b + 1) (32 * e.page) (mirEntBytes (s.mirAfter b es e.page))) s).logWrite b 0 (recBytes r)
    (s1.modTwin p fun x => Twin.bind { x with mirrorGen := (step + 1) % 2 ^ 64, peerPages := tp, inFull := x.inFull || full }).emit
      (.twinAck (s.part p).twin.peerDev (s.part p).twin.peerPart step r.stateDigest) := by
  rintro s ⟨hbase, hst, hhead, rfl, rfl, hgood, hdigests, hstep⟩
  rw [twinApply_answers hbase hst]
  simp only [hhead, hgood, hdigests, hstep, List.isEmpty_nil, ne_eq, not_true_eq_false, or_self, if_false]

/-- A message leaves the twin that has just been changed. -/
theorem emit_modTwin_twin (s : State) (p : Nat) (f : Twin → Twin) (o : OutMsg) : (((s.modTwin p f).emit o).part p).twin = f (s.part p).twin :=
  modTwin_same s p f

/-- A twin that is bound keeps the generation of its mirror. -/
theorem bind_mirrorGen (x : Twin) : x.bind.mirrorGen = x.mirrorGen := by
  unfold Twin.bind
  split <;> rfl

/-- Whatever has been staged, `TWIN_APPLY` is refused with pages or acknowledged as the mirror of the step. -/
theorem twinApply_gives (t p step b : Nat) : Gives t (.twinApplyReceive t p step)
    (fun s => (s.part p).twin.base = some b ∧ ((s.part p).twin.st = .syncing ∨ (s.part p).twin.st = .bound)) fun s s' =>
    (∃ pages : List Nat, pages ≠ [] ∧ pages.length ≤ 64 ∧ s' = s.emit (.twinNak (s.part p).twin.peerDev (s.part p).twin.peerPart pages)) ∨
    (∃ (s1 : State) (d : BitVec 128), s' = s1.emit (.twinAck (s.part p).twin.peerDev (s.part p).twin.peerPart step d) ∧
      (s'.part p).twin.mirrorGen = (step + 1) % 2 ^ 64) := by
  rintro s ⟨hbase, hst⟩
  obtain ⟨n, tp, hhead⟩ : ∃ n tp, (s.adv t).stagedHead b ((s.adv t).part p).twin.peerPages = (n, tp) := ⟨_, _, rfl⟩
  by_cases hgood : (s.adv t).stagedBad b tp ((List.range n).map ((s.adv t).stagedEnt b tp)) = []
  · by_cases hwhole : (s.adv t).stagedDigests b tp ((List.range n).map ((s.adv t).stagedEnt b tp)) ≠
        ((recOfBytes ((s.adv t).logRead b 0x100 128)).stateDigest, (recOfBytes ((s.adv t).logRead b 0x100 128)).weightDigest) ∨
        (recOfBytes ((s.adv t).logRead b 0x100 128)).step ≠ step
    · exact ⟨_, twinApply_refuses_step t p step b n tp _ s ⟨hbase, hst, hhead, rfl, hgood, hwhole⟩, .inl ⟨_, by decide, by decide, rfl⟩⟩
    · obtain ⟨hdigests, hstep⟩ := not_or.mp hwhole
      refine ⟨_, twinApply_takes t p step b n tp _ _ s ⟨hbase, hst, hhead, rfl, rfl, hgood, not_not.mp hdigests, not_not.mp hstep⟩, .inr ⟨_, _, rfl, ?_⟩⟩
      rw [emit_modTwin_twin, bind_mirrorGen]
  · refine ⟨_, twinApply_refuses_pages t p step b n tp s ⟨hbase, hst, hhead, hgood⟩, .inl ⟨_, ?_, List.length_take_le _ _, rfl⟩⟩
    rw [ne_eq, List.take_eq_nil_iff, not_or]
    exact ⟨by decide, hgood⟩

/-- Settles O22: by the three answers of the incoming mirror. -/
theorem twinApplyAnswers : Obligations.TwinApplyAnswers := by
  unfold Obligations.TwinApplyAnswers
  exact ⟨twinApply_gives, twinApply_takes, twinApply_refuses_pages, twinApply_refuses_step⟩

end Sys2Proof.Machine
end

section
/-! PROOFS. The power rows (15 R469, R475, R476, R484 to R486). -/

namespace Sys2Proof.Machine

/-! ## Samples of the supply and the budget (R469, R475, R476) -/

theorem powerSample_notes (t mw : Nat) (cells : List Nat) : Does t (.powerSample t mw cells)
    (fun s => 3000000 ≤ s.power.avg10ms ∨ meanOf ((mw :: s.power.samples).take 1000) < 3000000) fun s => s.powerNote mw cells := by
  intro s h
  exact congrArg Host.Outcome.next (if_neg (by omega))

theorem powerSample_caps (t mw : Nat) (cells : List Nat) : Does t (.powerSample t mw cells)
    (fun s => s.power.avg10ms < 3000000 ∧ 3000000 ≤ meanOf ((mw :: s.power.samples).take 1000)) fun s =>
    (s.powerNote mw cells).fastCap.event 0x0B07 0xFF [(16, meanOf ((mw :: s.power.samples).take 1000) / 1000)] :=
  fun _ h => congrArg Host.Outcome.next (if_pos h)

theorem powerNote_power (s : State) (mw : Nat) (cells : List Nat) : (s.powerNote mw cells).power =
    { s.power with samples := (mw :: s.power.samples).take 100000, avg1s := meanOf ((mw :: s.power.samples).take 100000),
                   avg10ms := meanOf ((mw :: s.power.samples).take 1000) } := by
  unfold State.powerNote
  refine foldl_keeps State.power ?_ _ _
  exact fun _ _ => rfl

theorem budgetCapRaise_does (t g : Nat) : Does t (.budgetCapRaise t)
    (fun s => s.power.budget * 980 < s.power.avg1s ∧ s.power.lastRaise + ftMs ≤ s.now ∧
      pickMax ((List.range 64).filter fun g => decide ((s.region g).capBudget < 6) && (s.region g).logic == .on)
        (fun g => (s.region g).logicCur) = some g) fun s =>
    (({ s with power := { s.power with lastRaise := s.now } } : State).modRegion g fun r => { r with capBudget := r.capBudget + 1 }).applyStep g := by
  rintro s ⟨hover, hdue, hpick⟩
  show execBudgetCapRaise t s = _
  simp only [execBudgetCapRaise, hpick]
  exact congrArg Host.Outcome.next (if_pos ⟨hover, hdue⟩)

/-- Below its own budget the device throttles back the deepest region. -/
theorem budgetCapLower_own_does (t g : Nat) : Does t (.budgetCapLower t)
    (fun s => s.power.avg1s < s.power.budget * 950 ∧ s.power.lastLower + 10 * ftMs ≤ s.now ∧
      pickMax ((List.range 64).filter fun g => decide (0 < (s.region g).capBudget)) (fun g => (s.region g).capBudget) = some g) fun s =>
    (({ s with power := { s.power with lastLower := s.now } } : State).modRegion g fun r => { r with capBudget := r.capBudget - 1 }).applyStep g := by
  rintro s ⟨hbelow, hdue, hpick⟩
  show execBudgetCapLower t s = _
  simp only [execBudgetCapLower, hbelow, decide_true, Bool.true_or, Bool.and_true, hpick, true_or, true_and, if_true]
  exact congrArg Host.Outcome.next (if_pos hdue)

/-- Within what is lent to it the device throttles back a region that it has not lowered on loan. -/
theorem budgetCapLower_lent_does (t g : Nat) : Does t (.budgetCapLower t)
    (fun s => s.power.budget * 950 ≤ s.power.avg1s ∧ s.power.avg1s < s.power.budget * 950 + s.power.lent ∧ s.power.lastLower + 10 * ftMs ≤ s.now ∧
      pickMax ((List.range 64).filter fun g => decide (0 < (s.region g).capBudget) && !(s.region g).lent) (fun g => (s.region g).capBudget) =
        some g) fun s =>
    (({ s with power := { s.power with lastLower := s.now, lentCaps := g :: s.power.lentCaps } } : State).modRegion g fun r =>
      { r with capBudget := r.capBudget - 1 }).applyStep g := by
  rintro s ⟨habove, hlent, hdue, hpick⟩
  show execBudgetCapLower t s = _
  simp only [execBudgetCapLower, Nat.not_lt.mpr habove, hlent, decide_false, decide_true, Bool.false_or, hpick, Bool.false_eq_true, false_or, true_and,
    if_false]
  exact congrArg Host.Outcome.next (if_pos hdue)

/-! ## Telemetry, surge reservoirs, droops and bumps (R484 to R486) -/

theorem pmbusPoll_answered_does (t i : Nat) (x : PmbusTel) :
    Does t (.pmbusPoll t [(i, x)]) (fun s => x.answered = true ∧ i < s.hub.config.pmbus.length) fun s =>
    { s with power := { s.power with
        pmbus := Tbl.set {} i { vout := x.vout, iout := x.iout, temp := x.temp, status := x.status, absent := false } s.power.pmbus } } := by
  rintro s ⟨hanswered, hi⟩
  show execPmbusPoll t [(i, x)] s = _
  simp only [execPmbusPoll, List.foldl_cons, List.foldl_nil, hanswered, if_true]
  exact congrArg Host.Outcome.next (if_pos hi)

theorem pmbusPoll_absent_does (t i : Nat) (x : PmbusTel) :
    Does t (.pmbusPoll t [(i, x)]) (fun s => x.answered = false ∧ i < s.hub.config.pmbus.length) fun s =>
    { s with power := { s.power with
        pmbus := Tbl.set {} i { (Tbl.get {} s.power.pmbus i : PmbusRec) with absent := true } s.power.pmbus } } := by
  rintro s ⟨habsent, hi⟩
  show execPmbusPoll t [(i, x)] s = _
  simp only [execPmbusPoll, List.foldl_cons, List.foldl_nil, habsent, Bool.false_eq_true, if_false]
  exact congrArg Host.Outcome.next (if_pos hi)

theorem surgeRecharged_does (t g : Nat) :
    Does t (.surgeRecharged t g) (fun _ => True) fun s => s.modRegion g fun r => { r with surgeOk := true } :=
  fun _ _ => rfl

theorem droopDetect_does (t g mv ns : Nat) : Does t (.droopDetect t g mv ns)
    (fun s => (s.region g).logic = .on ∧ mv < stepMv (s.region g).dvfs - 30) fun s => s.droop g 0 mv ns :=
  fun _ ⟨hon, hlow⟩ => congrArg Host.Outcome.next ((if_neg (not_not.mpr hon)).trans (if_pos hlow))

theorem droopDetect_margin_does (t g mv ns : Nat) : Does t (.droopDetect t g mv ns)
    (fun s => (s.region g).logic = .on ∧ stepMv (s.region g).dvfs - 30 ≤ mv) fun s =>
    s.modRegion g fun r => { r with surgeOk := false, margin := min 255 (mv - (stepMv (s.region g).dvfs - 30)) } :=
  fun _ ⟨hon, hhigh⟩ => congrArg Host.Outcome.next ((if_neg (not_not.mpr hon)).trans (if_neg (Nat.not_lt.mpr hhigh)))

theorem droopHardFloor_does (t g mv ns : Nat) : Does t (.droopHardFloor t g mv ns)
    (fun s => (s.region g).logic = .on ∧ mv < stepMv (s.region g).dvfs - 90 ∧ 20 ≤ ns) fun s =>
    (s.droop g 1 mv ns).modJob (s.partField (siteKey g 0)) fun j => if j.st = .running then { j with faultSeen := true } else j :=
  fun _ h => congrArg Host.Outcome.next (if_pos h)

theorem bumpSample_low_does (t g i mv : Nat) : Does t (.bumpSample t g i mv)
    (fun s => mv ≤ i * Tbl.get 0 s.fuses.bumpRes g / 1000000 + 30) fun s => s.modRegion g fun r => { r with bumpRun := 0 } :=
  fun _ hlow => congrArg Host.Outcome.next (if_neg (Nat.not_lt.mpr hlow))

theorem bumpSample_counts (t g i mv : Nat) : Does t (.bumpSample t g i mv)
    (fun s => i * Tbl.get 0 s.fuses.bumpRes g / 1000000 + 30 < mv ∧ (s.region g).bumpRun < 15) fun s =>
    s.modRegion g fun r => { r with bumpRun := (s.region g).bumpRun + 1 } := by
  rintro s ⟨hhigh, hrun⟩
  have hmin : min 16 (((s.adv t).region g).bumpRun + 1) = ((s.adv t).region g).bumpRun + 1 := by omega
  have hfew : ¬ (((s.adv t).region g).bumpRun + 1 = 16 ∧ ¬ (((s.adv t).modRegion g fun r =>
      { r with bumpRun := ((s.adv t).region g).bumpRun + 1 }).region g).bump = true) := by omega
  show execBumpSample t g i mv s = _
  simp only [execBumpSample, if_pos hhigh, hmin, if_neg hfew]

/-- The sixteenth sample in a row above what the fused resistance allows reports the bump. -/
theorem bumpSample_reports (t g i mv : Nat) : Does t (.bumpSample t g i mv)
    (fun s => i * Tbl.get 0 s.fuses.bumpRes g / 1000000 + 30 < mv ∧ 15 ≤ (s.region g).bumpRun ∧
      ((s.modRegion g fun r => { r with bumpRun := 16 }).region g).bump = false) fun s =>
    let e := i * Tbl.get 0 s.fuses.bumpRes g / 1000000
    let s1 := s.modRegion g fun r => { r with bumpRun := 16 }
    ((((s1.report 0x0704 5 (s1.partField (siteKey g 0)) g [(16, mv), (16, e)]).event 0x0B04 0xFF [(8, g), (16, mv - e)]).ledgerAdd 3 0x0704
      g).modRegion g fun r => { r with bump := true }).applyStep g := by
  rintro s ⟨hhigh, hrun, hnew⟩
  have hmin : min 16 (((s.adv t).region g).bumpRun + 1) = 16 := by omega
  show execBumpSample t g i mv s = _
  simp only [execBumpSample, if_pos hhigh, hmin, hnew, Bool.false_eq_true, not_false_eq_true, and_self, if_true]

/-- Settles O42: by the branch that each row takes. -/
theorem powerRowsAct : Obligations.PowerRowsAct := by
  unfold Obligations.PowerRowsAct
  exact ⟨powerSample_notes, powerSample_caps, powerNote_power, budgetCapRaise_does, budgetCapLower_own_does, budgetCapLower_lent_does,
    pmbusPoll_answered_does, pmbusPoll_absent_does, surgeRecharged_does, droopDetect_does, droopDetect_margin_does, droopHardFloor_does,
    bumpSample_low_does, bumpSample_counts, bumpSample_reports⟩

end Sys2Proof.Machine
end

section
/-! PROOFS. The start-up, lockstep and pin rows (16 R502 to R517; 17 R531, R547; 18 R560, R565), and the rows of the device memory (12 R376 to
R398). -/

namespace Sys2Proof.Machine

/-! ## Cold boot, READY and the ledger (R437, R502, R503, R505, R506, R531) -/

/-- What a check of the image in flash leads to. -/
theorem verifyImage_leads (v : State × Bool) (f : State → State) :
    (match v with
      | (s, true) => f s
      | (s, false) => s) = if v.2 = true then f v.1 else v.1 := by
  obtain ⟨s, ok⟩ := v
  cases ok <;> rfl

theorem coldBoot_does (t : Nat) (fuseOk pufOk : Bool) (fails : List MemFail) : Does t (.coldBoot t { fuseOk, pufOk } fails)
    (fun s => s.hub.inReset = true ∧ s.pins.coldRstN = true) fun s =>
    let s1 := (({ s with power := { s.power with railsOk := true } } : State).modHub fun h => { h with inReset := false }).bootReached 1
    let s2 := if fuseOk then s1 else (s1.modAlarm 4 fun a => { a with asserts := true }).alarm 4 0 0
    let s3 : State := { s2 with flash := { s2.flash with boot := { s2.flash.boot with boots := (s2.flash.boot.boots + 1) % 2 ^ 32, hostCause := 0 } } }
    let s4 := if pufOk then s3 else ({ s3 with sec := { s3.sec with idLost := true } } : State).event 0x0C05 0xFF []
    let v := (s4.bootReached 2).verifyImage
    if v.2 then v.1.bootOn v.1.flash.newest fails else v.1 := by
  rintro s ⟨hreset, hpin⟩
  have hgo : ¬ (¬ (s.adv t).hub.inReset = true ∨ ¬ (s.adv t).pins.coldRstN = true) :=
    not_or.mpr ⟨not_not.mpr hreset, not_not.mpr hpin⟩
  exact congrArg Host.Outcome.next ((if_neg hgo).trans (verifyImage_leads _ fun s => s.bootOn s.flash.newest fails))

theorem readySet_does (t : Nat) : Does t (.readySet t) (fun s => s.readyDue = true) fun s =>
    let s0 := match s.hub.reset with
      | some (kind, _, start) => s.resetEnd kind start
      | none => s.bootStepFt.mapSystem
    let s1 := ((s0.hubStatus fun h => { h with ready := true }).event 0x0101 0xFF []).bootReached 7
    match s1.hub.image with
    | some i =>
      if s1.hub.hostBoot ∧ s1.hub.config.flashRepair ∧ s1.flash.image ≠ some i then
        ({ s1 with flash := { s1.flash with image := some i } } : State).event 0x0117 0xFF [(32, i.version.toNat)]
      else s1
    | none => s1 :=
  fun _ hdue => congrArg Host.Outcome.next (if_neg (not_not.mpr hdue))

theorem ledgerAppend_does (t k c i : Nat) (e : LedgerEnt) : Does t (.ledgerAppend t k c i)
    (fun s => (s.flash.ledgerPend.find? fun e => e.kind == k && e.cls == c && e.id == i) = some e) fun s =>
    ({ s with flash := { s.flash with
        ledgerPend := s.flash.ledgerPend.erase e
        ledger := if s.flash.ledger.length < 16384 then s.flash.ledger ++ [e] else s.flash.ledger } } : State) := by
  intro s hfind
  show execLedgerAppend t k c i s = _
  simp only [execLedgerAppend, hfind]

/-! ## Lockstep, heartbeat and watchdog (R515 to R517) -/

theorem lockstepMismatch_pair0_does (t pc : Nat) : Does t (.lockstepMismatch t 0 pc) (fun s => s.hub.pair0 = true) fun s =>
    let s1 := s.modHub fun h => { h with pair0 := false }
    if s.hub.pair1 then (s1.lockstep 0 1 pc).event 0x0115 0xFF [(8, 0)] else (s1.lockstep 0 2 pc).deviceReset .recovery none false := by
  intro s hruns
  have hgo : ¬ (2 ≤ 0 ∨ ¬ (s.adv t).hub.pair0 = true) := not_or.mpr ⟨by decide, not_not.mpr hruns⟩
  exact congrArg Host.Outcome.next (if_neg hgo)

theorem lockstepMismatch_pair1_does (t pc : Nat) : Does t (.lockstepMismatch t 1 pc) (fun s => s.hub.pair1 = true) fun s =>
    let s1 := s.modHub fun h => { h with pair1 := false }
    if s.hub.pair0 then (s1.lockstep 1 1 pc).event 0x0115 0xFF [(8, 1)] else (s1.lockstep 1 2 pc).deviceReset .recovery none false := by
  intro s hruns
  have hgo : ¬ (2 ≤ 1 ∨ ¬ (s.adv t).hub.pair1 = true) := not_or.mpr ⟨by decide, not_not.mpr hruns⟩
  exact congrArg Host.Outcome.next (if_neg hgo)

theorem heartbeatTick_does (t : Nat) : Does t (.heartbeatTick t) (fun s => s.hub.pair0 = true ∨ s.hub.pair1 = true) fun s =>
    s.modHub fun h => { h with heartbeat := h.heartbeat + 1, beatFt := s.now } :=
  fun _ hruns => congrArg Host.Outcome.next (if_pos hruns)

theorem watchdogExpire_does (t : Nat) : Does t (.watchdogExpire t)
    (fun s => (s.hub.pair0 = true ∨ s.hub.pair1 = true) ∧ s.hub.beatFt + 250 * ftMs ≤ s.now ∧ s.hub.inReset = false) fun s =>
    ((s.lockstep (if s.hub.pair0 then 0 else 1) 3 0).modHub fun h => { h with beatFt := s.now }).deviceReset .recovery none false :=
  fun _ ⟨hruns, hlate, hup⟩ => congrArg Host.Outcome.next (if_pos ⟨hruns, hlate, Bool.eq_false_iff.mp hup⟩)

/-! ## Pins, rails and the management link (R547, R560, R565) -/

theorem coldRstNAssert_short_does (t us : Nat) : Does t (.coldRstNAssert t us) (fun _ => us < 1) fun s => s :=
  fun _ hshort => congrArg Host.Outcome.next (if_pos hshort)

theorem coldRstNAssert_long_does (t us : Nat) : Does t (.coldRstNAssert t us) (fun _ => 10 ≤ us) fun s =>
    let s1 := (s.draw 1).2.coldReset
    ({ s1 with pins := { s1.pins with coldRstN := false } } : State) :=
  fun _ hlong => congrArg Host.Outcome.next ((if_neg (by omega)).trans (if_pos (Or.inl hlong)))

/-- A pulse of 1 to 10 us resets or not, as a free value says. -/
theorem coldRstNAssert_between_does (t us : Nat) : Does t (.coldRstNAssert t us) (fun _ => 1 ≤ us ∧ us < 10) fun s =>
    if (s.draw 1).1 = 1 then
      let s1 := (s.draw 1).2.coldReset
      ({ s1 with pins := { s1.pins with coldRstN := false } } : State)
    else (s.draw 1).2 := by
  rintro s ⟨hlow, hhigh⟩
  have hchoice : (10 ≤ us ∨ ((s.adv t).draw 1).1 = 1) ↔ ((s.adv t).draw 1).1 = 1 := or_iff_right (Nat.not_le.mpr hhigh)
  exact congrArg Host.Outcome.next ((if_neg (Nat.not_lt.mpr hlow)).trans (if_congr hchoice rfl rfl))

theorem coldRstNRelease_does (t : Nat) :
    Does t (.coldRstNRelease t) (fun _ => True) fun s => { s with pins := { s.pins with coldRstN := true } } :=
  fun _ _ => rfl

theorem railRemoval_does (t : Nat) : Does t (.railRemoval t) (fun _ => True) fun s =>
    { s.coldReset with power := { s.coldReset.power with railsOk := false } } :=
  fun _ _ => rfl

theorem mgmtLinkLoss_does (t port : Nat) : Does t (.mgmtLinkLoss t port) (fun _ => port < 2) fun s =>
    (List.range 4).foldl (fun s i => s.modMb (16 + 4 * port + i) fun m => { m with role := 0, session := none, challenge := none })
      (s.modMgmt port fun m => { m with link := false, reasm := [] }) :=
  fun _ _ => rfl

/-- Settles O17: by the branch that each row takes. -/
theorem bootRowsAct : Obligations.BootRowsAct := by
  unfold Obligations.BootRowsAct
  exact ⟨coldBoot_does, readySet_does, ledgerAppend_does, lockstepMismatch_pair0_does, lockstepMismatch_pair1_does, heartbeatTick_does,
    watchdogExpire_does, coldRstNAssert_short_does, coldRstNAssert_long_does, coldRstNAssert_between_does, coldRstNRelease_does, railRemoval_does,
    mgmtLinkLoss_does⟩

/-! ## Channels (R376, R378, R381) -/

theorem ddrTraining_serves (t ch : Nat) (pr dis : Bool) (spd : DdrSpd) (n : Nat) (test : DdrTest) :
    Does t (.ddrTrainingComplete t ch pr dis spd n test)
    (fun s => (s.chan ch).st = .training ∧ pr = true ∧ dis = false ∧ ddrSupported spd.rate spd.capacity = true ∧ n < 2 ∧
      test.corrected ≤ 64 ∧ test.uncorrectable = 0) fun s =>
    ((s.modChan ch fun x => { x with st := .up, capacity := spd.capacity, cause := 0, spd := spd.rate }).rateAll.ledgerMerge ch spd.serial).keepCheck ch := by
  rintro s ⟨hst, hpresent, rfl, hsupported, hfew, hcorrected, hclean⟩
  have htest : ¬ (64 < test.corrected ∨ 0 < test.uncorrectable) := by omega
  have hcause : ddrCause false spd n test = 0 := by
    simp [ddrCause, hsupported, Nat.not_le.mpr hfew, htest]
  exact congrArg Host.Outcome.next ((if_neg (not_not.mpr hst)).trans ((if_neg (not_not.mpr hpresent)).trans (if_pos hcause)))

theorem ddrTraining_refuses (t ch : Nat) (pr dis : Bool) (spd : DdrSpd) (n : Nat) (test : DdrTest) :
    Does t (.ddrTrainingComplete t ch pr dis spd n test)
    (fun s => (s.chan ch).st = .training ∧ pr = true ∧ ddrCause dis spd n test ≠ 0) fun s =>
    (s.ddrOmit ch (ddrCause dis spd n test) spd.rate spd.capacity).rateAll :=
  fun _ ⟨hst, hpresent, hcause⟩ =>
    congrArg Host.Outcome.next ((if_neg (not_not.mpr hst)).trans ((if_neg (not_not.mpr hpresent)).trans (if_neg hcause)))

/-- The first check that a module fails. -/
theorem ddrCause_eq (dis : Bool) (spd : DdrSpd) (n : Nat) (test : DdrTest) :
    ddrCause dis spd n test = if dis = true then 4 else if ddrSupported spd.rate spd.capacity = false then 1 else if 2 ≤ n then 2
    else if 64 < test.corrected ∨ 0 < test.uncorrectable then 3 else 0 := by
  simp only [ddrCause, Bool.not_eq_true]

theorem ddrTraining_empty (t ch : Nat) (pr dis : Bool) (spd : DdrSpd) (n : Nat) (test : DdrTest) :
    Does t (.ddrTrainingComplete t ch pr dis spd n test) (fun s => (s.chan ch).st = .training ∧ pr = false) fun s =>
    (s.keptOn ch).foldl (fun s l => s.keptLose l 2)
      (s.modChan ch fun x => { x with st := .empty, rate := 0, capacity := 0, cause := 0, spd := 0 }) :=
  fun _ ⟨hst, habsent⟩ => congrArg Host.Outcome.next ((if_neg (not_not.mpr hst)).trans (if_pos (Bool.eq_false_iff.mp habsent)))

/-- A fold that lowers a bound by the values that are not 0 ends at or below where it began and at or below each of them. -/
theorem foldl_min_le (f : Nat → Nat) (l : List Nat) (n : Nat) :
    l.foldl (fun n c => if f c = 0 then n else min n (f c)) n ≤ n ∧
    ∀ c ∈ l, f c ≠ 0 → l.foldl (fun n c => if f c = 0 then n else min n (f c)) n ≤ f c := by
  induction l generalizing n with
  | nil => exact ⟨Nat.le_refl n, fun c hc => absurd hc List.not_mem_nil⟩
  | cons a l ih =>
    obtain ⟨hle, hmem⟩ := ih (if f a = 0 then n else min n (f a))
    have hhead : (if f a = 0 then n else min n (f a)) ≤ n := by
      split
      · exact Nat.le_refl n
      · exact Nat.min_le_left _ _
    refine ⟨hle.trans hhead, fun c hc hne => ?_⟩
    rcases List.mem_cons.mp hc with rfl | hc
    · exact hle.trans (by rw [if_neg hne]; exact Nat.min_le_right _ _)
    · exact hmem c hc hne

/-- The common rate is at or below that of every module read, and of the configuration. -/
theorem ddrRate_le (s : State) (c : Nat) (hc : c ∈ List.range 16) (hread : (s.chan c).spd ≠ 0) :
    s.ddrRate ≤ (s.chan c).spd ∧ s.ddrRate ≤ min 3 s.hub.config.ddrRateMax := by
  obtain ⟨hinit, hmem⟩ := foldl_min_le (fun c => (s.chan c).spd) (List.range 16) (min 3 s.hub.config.ddrRateMax)
  exact ⟨hmem c hc hread, hinit⟩

theorem ddrPhyLockLoss_does (t ch : Nat) : Does t (.ddrPhyLockLoss t ch) (fun _ => True) fun s => s.chanOffline ch 5 :=
  fun _ _ => rfl

/-! ## The page map, scrubbing and migration (R387, R394, R395, R398) -/

theorem pagemapRebuild_does (t l : Nat) : Does t (.pagemapRebuild t l) (fun s => l ∈ s.mem.mapBad ∧ s.journalReads l = true) fun s =>
    { s with mem := { s.mem with mapBad := s.mem.mapBad.filter (· != l), map := Tbl.set {} l (Tbl.get {} s.mem.journal l) s.mem.map } } :=
  fun _ h => congrArg Host.Outcome.next (if_pos h)

theorem scrubRead_does (t a e : Nat) : Does t (.scrubRead t a e)
    (fun s => (s.chan (ppnChan (a / pageBytes))).st = .up ∧ a / pageBytes % 1048576 < (s.chan (ppnChan (a / pageBytes))).capacity * 4096) fun s =>
    let hit := s.mem.map.find? fun e => e.2.kind != .unmapped && e.2.ppn == a / pageBytes
    let l := (hit.map (·.1)).getD 0xFFFFFF
    let s1 := s.scrubWord a e l
    let s2 := if a % pageBytes / 64 = 4095 ∧ hit.isSome then s1.scrubPage l (a / pageBytes) else s1
    if a / 64 % (4096 * 1048576) = (s2.chan (ppnChan (a / pageBytes))).capacity * 4096 * 4096 - 1 then s2.mcCount (ppnChan (a / pageBytes)) 2
    else s2 :=
  fun _ ⟨hup, hin⟩ => congrArg Host.Outcome.next (if_neg (not_or.mpr ⟨not_not.mpr hup, Nat.not_le.mpr hin⟩))

/-- A step of a migration between channels in service: it stops at an uncorrectable codeword, or copies 4 KiB. -/
theorem pageMigrationCopy_copies {t die : Nat} {err : Option (Nat × Nat)} {s : State} {m : Migration}
    (hmig : Tbl.get none (s.adv t).mem.mig die = some m)
    (hup : ((s.adv t).chan (ppnChan m.oldPpn)).st = .up ∧ ((s.adv t).chan (ppnChan m.newPpn)).st = .up) {s1 : State}
    (hecc : (s.adv t).migEcc (pageBytes * m.oldPpn + 4096 * m.done) err = s1) :
    exec (.pageMigrationCopy t die err) s = .next (
      match s1.mem.bad.find? fun c =>
        decide (pageBytes * m.oldPpn + 4096 * m.done ≤ 64 * c ∧ 64 * c < pageBytes * m.oldPpn + 4096 * m.done + 4096) with
      | some c => (s1.ddrUe (64 * c) 2 m.page (s1.pageEnt m.page).owner).migStop die m
      | none =>
        let s2 := s1.dramCopy (pageBytes * m.newPpn + 4096 * m.done) (pageBytes * m.oldPpn + 4096 * m.done) 4096
        if m.done + 1 = 64 then s2.migEnd die { m with done := m.done + 1 }
        else { s2 with mem := { s2.mem with mig := Tbl.set none die (some { m with done := m.done + 1 }) s2.mem.mig } }) := by
  have hboth : ¬ (((s.adv t).chan (ppnChan m.oldPpn)).st ≠ .up ∨ ((s.adv t).chan (ppnChan m.newPpn)).st ≠ .up) :=
    not_or.mpr ⟨not_not.mpr hup.1, not_not.mpr hup.2⟩
  show execPageMigrationCopy t die err s = _
  simp only [execPageMigrationCopy, hmig, if_neg hboth, hecc] <;> rfl

theorem migEcc_uncorrectable (s : State) (a u : Nat) : s.migEcc a (some (u, 2)) = s.markBad (a + 64 * (u % 64)) := by
  simp only [State.migEcc, if_true]

theorem migEcc_corrected {s : State} {a u : Nat} (hgood : (a + 64 * (u % 64)) / 64 ∉ s.mem.bad) :
    s.migEcc a (some (u, 1)) = s.ddrCe (a + 64 * (u % 64)) 2 := by
  simp [State.migEcc, hgood]

theorem pageMigrationCopy_clean_does (t die : Nat) (m : Migration) : Does t (.pageMigrationCopy t die none)
    (fun s => Tbl.get none s.mem.mig die = some m ∧ (s.chan (ppnChan m.oldPpn)).st = .up ∧ (s.chan (ppnChan m.newPpn)).st = .up ∧
      (s.mem.bad.find? fun c => decide (pageBytes * m.oldPpn + 4096 * m.done ≤ 64 * c ∧ 64 * c < pageBytes * m.oldPpn + 4096 * m.done + 4096)) = none)
    fun s =>
    let s1 := s.dramCopy (pageBytes * m.newPpn + 4096 * m.done) (pageBytes * m.oldPpn + 4096 * m.done) 4096
    if m.done + 1 = 64 then s1.migEnd die { m with done := m.done + 1 }
    else { s1 with mem := { s1.mem with mig := Tbl.set none die (some { m with done := m.done + 1 }) s1.mem.mig } } := by
  rintro s ⟨hmig, hold, hnew, hclean⟩
  rw [pageMigrationCopy_copies hmig ⟨hold, hnew⟩ rfl]
  simp only [State.migEcc, hclean]

theorem pageMigrationCopy_uncorrectable_does (t die : Nat) (m : Migration) (u c : Nat) : Does t (.pageMigrationCopy t die (some (u, 2)))
    (fun s => Tbl.get none s.mem.mig die = some m ∧ (s.chan (ppnChan m.oldPpn)).st = .up ∧ (s.chan (ppnChan m.newPpn)).st = .up ∧
      ((s.markBad (pageBytes * m.oldPpn + 4096 * m.done + 64 * (u % 64))).mem.bad.find? fun c =>
        decide (pageBytes * m.oldPpn + 4096 * m.done ≤ 64 * c ∧ 64 * c < pageBytes * m.oldPpn + 4096 * m.done + 4096)) = some c)
    fun s =>
    let s1 := s.markBad (pageBytes * m.oldPpn + 4096 * m.done + 64 * (u % 64))
    (s1.ddrUe (64 * c) 2 m.page (s1.pageEnt m.page).owner).migStop die m := by
  rintro s ⟨hmig, hold, hnew, hbad⟩
  rw [pageMigrationCopy_copies hmig ⟨hold, hnew⟩ (migEcc_uncorrectable _ _ u)]
  simp only [hbad]

theorem pageMigrationCopy_corrected_does (t die : Nat) (m : Migration) (u : Nat) : Does t (.pageMigrationCopy t die (some (u, 1)))
    (fun s => Tbl.get none s.mem.mig die = some m ∧ (s.chan (ppnChan m.oldPpn)).st = .up ∧ (s.chan (ppnChan m.newPpn)).st = .up ∧
      ((pageBytes * m.oldPpn + 4096 * m.done + 64 * (u % 64)) / 64) ∉ s.mem.bad ∧
      ((s.ddrCe (pageBytes * m.oldPpn + 4096 * m.done + 64 * (u % 64)) 2).mem.bad.find? fun c =>
        decide (pageBytes * m.oldPpn + 4096 * m.done ≤ 64 * c ∧ 64 * c < pageBytes * m.oldPpn + 4096 * m.done + 4096)) = none ∧ m.done < 63)
    fun s =>
    let s1 := (s.ddrCe (pageBytes * m.oldPpn + 4096 * m.done + 64 * (u % 64)) 2).dramCopy (pageBytes * m.newPpn + 4096 * m.done)
      (pageBytes * m.oldPpn + 4096 * m.done) 4096
    { s1 with mem := { s1.mem with mig := Tbl.set none die (some { m with done := m.done + 1 }) s1.mem.mig } } := by
  rintro s ⟨hmig, hold, hnew, hgood, hclean, hmore⟩
  have hmore' : ¬ (m.done + 1 = 64) := by omega
  rw [pageMigrationCopy_copies hmig ⟨hold, hnew⟩ (migEcc_corrected hgood)]
  simp only [hclean, if_neg hmore']

theorem pageMigrationCopy_offline_does (t die : Nat) (m : Migration) (e : Option (Nat × Nat)) : Does t (.pageMigrationCopy t die e)
    (fun s => Tbl.get none s.mem.mig die = some m ∧ ((s.chan (ppnChan m.oldPpn)).st ≠ .up ∨ (s.chan (ppnChan m.newPpn)).st ≠ .up)) fun s =>
    (s.downRefuse m.page false).migStop die m := by
  rintro s ⟨hmig, hdown⟩
  show execPageMigrationCopy t die e s = _
  simp only [execPageMigrationCopy, hmig, if_pos hdown]

/-! ## Accesses of pages (R386, R388, R398) -/

/-- An access of a page: refused, or answered as the write or read that it is. -/
theorem pageAccess_answers {t : Nat} {pkt : Packet} {ecc mapEcc word : Nat} {port : Option Nat} {s : State}
    (hkind : pkt.kind = .write ∨ pkt.kind = .readReq) :
    let s1 := (s.adv t).mapEcc (bitsN pkt.addr 18 24) mapEcc
    let x := s1.pageAcc pkt
    exec (.pageAccess t pkt ecc mapEcc word port) s = .next (
      if s1.pageCheck pkt port ≠ 0 then (s1.pageRefuse x (s1.pageCheck pkt port)).reply pkt .pageRefused
      else if x.src = 0 ∧ x.write ∧ (s1.pageNote pkt).closedTally (bitsN pkt.addr 18 24) then (s1.pageNote pkt).reply pkt .ok
      else if x.write then
        let r := (s1.pageNote pkt).pageWrite (bitsN pkt.addr 18 24) (x.addr % pageBytes) (reqData (s1.pageUnit pkt) pkt) ecc 3 x.part
          (x.src == 0) word
        (if r.2 = true ∧ pkt.srcDev = r.1.hub.devId then r.1.consumedUe x.part else r.1).reply pkt .ok r.2
      else
        let r := (s1.pageNote pkt).pageRead (bitsN pkt.addr 18 24) (x.addr % pageBytes) x.len ecc 0 x.part (x.src == 0) word
        r.1.replyData pkt r.2.1 r.2.2) := by
  have hgo : ¬ (pkt.kind ≠ .write ∧ pkt.kind ≠ .readReq) := by tauto
  exact congrArg Host.Outcome.next (if_neg hgo)

theorem pageAccess_refused_does (t : Nat) (pkt : Packet) (ecc mapEcc word : Nat) (port : Option Nat) :
    Does t (.pageAccess t pkt ecc mapEcc word port)
    (fun s => (pkt.kind = .readReq ∨ pkt.kind = .write) ∧ (s.mapEcc (bitsN pkt.addr 18 24) mapEcc).pageCheck pkt port ≠ 0) fun s =>
    let s1 := s.mapEcc (bitsN pkt.addr 18 24) mapEcc
    (s1.pageRefuse (s1.pageAcc pkt) (s1.pageCheck pkt port)).reply pkt .pageRefused := by
  rintro s ⟨hkind, hcheck⟩
  exact (pageAccess_answers hkind.symm).trans (congrArg Host.Outcome.next (if_pos hcheck))

theorem pageAccess_reads (t : Nat) (pkt : Packet) (ecc mapEcc word : Nat) (port : Option Nat) :
    Does t (.pageAccess t pkt ecc mapEcc word port)
    (fun s => pkt.kind = .readReq ∧ (s.mapEcc (bitsN pkt.addr 18 24) mapEcc).pageCheck pkt port = 0) fun s =>
    let s1 := s.mapEcc (bitsN pkt.addr 18 24) mapEcc
    let x := s1.pageAcc pkt
    let r := (s1.pageNote pkt).pageRead (bitsN pkt.addr 18 24) (x.addr % pageBytes) x.len ecc 0 x.part (x.src == 0) word
    r.1.replyData pkt r.2.1 r.2.2 := by
  rintro s ⟨hkind, hcheck⟩
  have hread : ¬ (((s.adv t).mapEcc (bitsN pkt.addr 18 24) mapEcc).pageAcc pkt).write = true := by simp [State.pageAcc, hkind]
  refine (pageAccess_answers (.inr hkind)).trans (congrArg Host.Outcome.next ?_)
  exact (if_neg (not_not.mpr hcheck)).trans ((if_neg fun h => hread h.2.1).trans (if_neg hread))

/-- The access of a write writes. -/
theorem pageAcc_write {s : State} {pkt : Packet} (hkind : pkt.kind = .write) : (s.pageAcc pkt).write = true := by
  simp [State.pageAcc, hkind]

theorem pageAccess_writes (t : Nat) (pkt : Packet) (ecc mapEcc word : Nat) (port : Option Nat) :
    Does t (.pageAccess t pkt ecc mapEcc word port)
    (fun s => let s1 := s.mapEcc (bitsN pkt.addr 18 24) mapEcc
      pkt.kind = .write ∧ s1.pageCheck pkt port = 0 ∧
        ((s1.pageAcc pkt).src ≠ 0 ∨ (s1.pageNote pkt).closedTally (bitsN pkt.addr 18 24) = false)) fun s =>
    let s1 := s.mapEcc (bitsN pkt.addr 18 24) mapEcc
    let x := s1.pageAcc pkt
    let r := (s1.pageNote pkt).pageWrite (bitsN pkt.addr 18 24) (x.addr % pageBytes) (reqData (s1.pageUnit pkt) pkt) ecc 3 x.part
      (x.src == 0) word
    (if r.2 = true ∧ pkt.srcDev = r.1.hub.devId then r.1.consumedUe x.part else r.1).reply pkt .ok r.2 := by
  rintro s ⟨hkind, hcheck, hopen⟩
  refine (pageAccess_answers (.inl hkind)).trans (congrArg Host.Outcome.next ?_)
  refine (if_neg (not_not.mpr hcheck)).trans ((if_neg ?_).trans (if_pos (pageAcc_write hkind)))
  rintro ⟨hsrc, _, hclosed⟩
  exact hopen.elim (fun h => h hsrc) fun h => absurd hclosed (Bool.eq_false_iff.mp h)

/-- A tile's write to a page of a closed tally is dropped (log 89). -/
theorem pageAccess_drops (t : Nat) (pkt : Packet) (ecc mapEcc word : Nat) (port : Option Nat) :
    Does t (.pageAccess t pkt ecc mapEcc word port)
    (fun s => let s1 := s.mapEcc (bitsN pkt.addr 18 24) mapEcc
      pkt.kind = .write ∧ s1.pageCheck pkt port = 0 ∧ (s1.pageAcc pkt).src = 0 ∧
        (s1.pageNote pkt).closedTally (bitsN pkt.addr 18 24) = true) fun s =>
    ((s.mapEcc (bitsN pkt.addr 18 24) mapEcc).pageNote pkt).reply pkt .ok := by
  rintro s ⟨hkind, hcheck, hsrc, hclosed⟩
  refine (pageAccess_answers (.inl hkind)).trans (congrArg Host.Outcome.next ?_)
  exact (if_neg (not_not.mpr hcheck)).trans (if_pos ⟨hsrc, pageAcc_write hkind, hclosed⟩)

/-! ## The CXL.mem window (R376, R386) -/

theorem cxlMemRead_reads (t hpa a len : Nat) (ecc : CxlEcc) : Does t (.cxlMemRead t hpa len ecc)
    (fun s => s.hdmAddr hpa = some a ∧
      (s.mapEcc (bitsN a 18 24) ecc.map).accCause { addr := a, len, src := 2, dev := s.hub.devId, part := 0xFF } 0 none (fun _ => false) = 0) fun s =>
    let r := (s.mapEcc (bitsN a 18 24) ecc.map).pageRead (bitsN a 18 24) (a % pageBytes) len ecc.data 4 0xFF false
    r.1.emit (.hostRead hpa r.2.1 r.2.2) := by
  rintro s ⟨haddr, hcause⟩
  show execCxlMemRead t hpa len ecc s = _
  simp only [execCxlMemRead, haddr]
  exact congrArg Host.Outcome.next (if_neg (not_not.mpr hcause))

theorem cxlMemRead_refuses (t hpa a len : Nat) (ecc : CxlEcc) (c : Nat) : Does t (.cxlMemRead t hpa len ecc)
    (fun s => s.hdmAddr hpa = some a ∧ c ≠ 0 ∧
      (s.mapEcc (bitsN a 18 24) ecc.map).accCause { addr := a, len, src := 2, dev := s.hub.devId, part := 0xFF } 0 none (fun _ => false) = c) fun s =>
    let r := ((s.mapEcc (bitsN a 18 24) ecc.map).pageRefuse { addr := a, len, src := 2, dev := s.hub.devId, part := 0xFF } c).draw (8 * len)
    r.2.emit (.hostRead hpa (leBytes len r.1.toNat) true) := by
  rintro s ⟨haddr, hne, rfl⟩
  show execCxlMemRead t hpa len ecc s = _
  simp only [execCxlMemRead, haddr]
  exact congrArg Host.Outcome.next (if_pos hne)

theorem cxlMemWrite_writes (t hpa a : Nat) (d : CxlData) : Does t (.cxlMemWrite t hpa d)
    (fun s => s.hdmAddr hpa = some a ∧ (s.mapEcc (bitsN a 18 24) d.ecc.map).accCause
      { addr := a, len := d.bytes.length, write := true, src := 2, dev := s.hub.devId, part := 0xFF } 0 none (fun _ => false) = 0) fun s =>
    ((s.mapEcc (bitsN a 18 24) d.ecc.map).pageWrite (bitsN a 18 24) (a % pageBytes) d.bytes d.ecc.data 3 0xFF false).1 := by
  rintro s ⟨haddr, hcause⟩
  show execCxlMemWrite t hpa d s = _
  simp only [execCxlMemWrite, haddr]
  exact congrArg Host.Outcome.next (if_neg (not_not.mpr hcause))

theorem cxlMemWrite_refuses (t hpa a : Nat) (d : CxlData) (c : Nat) : Does t (.cxlMemWrite t hpa d)
    (fun s => s.hdmAddr hpa = some a ∧ c ≠ 0 ∧ (s.mapEcc (bitsN a 18 24) d.ecc.map).accCause
      { addr := a, len := d.bytes.length, write := true, src := 2, dev := s.hub.devId, part := 0xFF } 0 none (fun _ => false) = c) fun s =>
    ((s.mapEcc (bitsN a 18 24) d.ecc.map).pageRefuse
      { addr := a, len := d.bytes.length, write := true, src := 2, dev := s.hub.devId, part := 0xFF } c).event 0x0705 0xFF [(8, c), (64, hpa)] := by
  rintro s ⟨haddr, hne, rfl⟩
  show execCxlMemWrite t hpa d s = _
  simp only [execCxlMemWrite, haddr]
  exact congrArg Host.Outcome.next (if_pos hne)

/-- Settles O36: by the branch that each row takes, and the minimum that the common rate is. -/
theorem dramRowsAct : Obligations.DramRowsAct := by
  unfold Obligations.DramRowsAct
  exact ⟨ddrTraining_serves, ddrTraining_refuses, ddrCause_eq, ddrTraining_empty, ddrRate_le, ddrPhyLockLoss_does, pagemapRebuild_does, scrubRead_does,
    pageMigrationCopy_clean_does, pageMigrationCopy_uncorrectable_does, pageMigrationCopy_corrected_does, pageMigrationCopy_offline_does,
    pageAccess_refused_does, pageAccess_reads, pageAccess_writes, pageAccess_drops, cxlMemRead_reads, cxlMemRead_refuses, cxlMemWrite_writes,
    cxlMemWrite_refuses⟩

end Sys2Proof.Machine
end

section
/-! PROOFS. What every row keeps: the queue of the commands that wait, and the canonical form of the device memory (12 R388; 14 R443). One lemma
for each function of the model that gives a state, in the order of the model's files; each is the function's own shape. -/

namespace Sys2Proof.Machine

/-! ## What is kept -/

/-- A state from which others come, and whether the readings of the hub's sensors are followed from it, as all but a cold reset and a new
reading keep them. -/
structure Origin where
  state : State
  sensors : Bool := false

/-- A state that has come from `o` keeps its queue, and the canonical form of the memory where `o` has it; and the sensors, where `o` follows
them. -/
structure Origin.Keeps (o : Origin) (s : State) : Prop where
  queue : s.pending = o.state.pending
  memory : o.state.MemInv → s.MemInv
  readings : o.sensors = true → s.power.sensors = o.state.power.sensors

variable {o : Origin} {s : State}

namespace Origin.Keeps

theorem refl (s : State) (b : Bool) : Origin.Keeps { state := s, sensors := b } s := ⟨rfl, id, fun _ => rfl⟩

/-- What changes neither the queue nor the memory nor the sensors keeps them. -/
theorem of_eq {s' : State} (h : o.Keeps s) (hp : s'.pending = s.pending := by rfl) (hm : s'.mem.dram = s.mem.dram := by rfl)
    (hs : s'.power.sensors = s.power.sensors := by rfl) : o.Keeps s' :=
  ⟨hp.trans h.queue, fun ho => (congrArg (memWf · = true) hm).mpr (h.memory ho), fun ho => hs.trans (h.readings ho)⟩

/-- A change of the memory that leaves it in canonical form. -/
theorem dram {x : Mem} (h : o.Keeps s) (hx : memWf s.mem.dram = true → memWf x.dram = true) : o.Keeps { s with mem := x } :=
  ⟨h.queue, fun ho => hx (h.memory ho), h.readings⟩

theorem ite {a b : State} {c : Prop} [Decidable c] (ha : o.Keeps a) (hb : o.Keeps b) : o.Keeps (if c then a else b) := by
  split
  · exact ha
  · exact hb

theorem ite_fst {α : Type} {a b : State × α} {c : Prop} [Decidable c] (ha : o.Keeps a.1) (hb : o.Keeps b.1) :
    o.Keeps (if c then a else b).1 := by
  split
  · exact ha
  · exact hb

theorem ite_snd {α : Type} {a b : α × State} {c : Prop} [Decidable c] (ha : o.Keeps a.2) (hb : o.Keeps b.2) :
    o.Keeps (if c then a else b).2 := by
  split
  · exact ha
  · exact hb

theorem foldl {α : Type} {f : State → α → State} {l : List α} (h : o.Keeps s) (hf : ∀ s x, o.Keeps s → o.Keeps (f s x)) :
    o.Keeps (l.foldl f s) :=
  List.foldlRecOn (motive := fun s => o.Keeps s) l f h fun s hs x _ => hf s x hs

theorem foldl_fst {α β : Type} {f : State × β → α → State × β} {l : List α} {a : State × β} (h : o.Keeps a.1)
    (hf : ∀ a x, o.Keeps a.1 → o.Keeps (f a x).1) : o.Keeps (l.foldl f a).1 :=
  List.foldlRecOn (motive := fun a => o.Keeps a.1) l f h fun a ha x _ => hf a x ha

theorem foldl_snd {α β : Type} {f : β × State → α → β × State} {l : List α} {a : β × State} (h : o.Keeps a.2)
    (hf : ∀ a x, o.Keeps a.2 → o.Keeps (f a x).2) : o.Keeps (l.foldl f a).2 :=
  List.foldlRecOn (motive := fun a => o.Keeps a.2) l f h fun a ha x _ => hf a x ha

theorem foldl_mid {α β γ : Type} {f : β × State × γ → α → β × State × γ} {l : List α} {a : β × State × γ} (h : o.Keeps a.2.1)
    (hf : ∀ a x, o.Keeps a.2.1 → o.Keeps (f a x).2.1) : o.Keeps (l.foldl f a).2.1 :=
  List.foldlRecOn (motive := fun a => o.Keeps a.2.1) l f h fun a ha x _ => hf a x ha

/-- A fold that may fail keeps what each of its steps keeps, where it succeeds. -/
theorem foldl_some {α : Type} {f : Option State → α → Option State} {l : List α} {x : State} (hnone : ∀ a, f none a = none)
    (hf : ∀ s a t, o.Keeps s → f (some s) a = some t → o.Keeps t) (h : o.Keeps s) (e : l.foldl f (some s) = some x) : o.Keeps x := by
  have hmotive : ∀ y, l.foldl f (some s) = some y → o.Keeps y :=
    List.foldlRecOn (motive := fun z => ∀ y, z = some y → o.Keeps y) l f (fun y hy => Option.some.inj hy ▸ h) fun z hz a _ y hy => by
      cases z with
      | none => exact absurd ((hnone a).symm.trans hy) (by simp)
      | some w => exact hf w a y (hz w rfl) hy
  exact hmotive x e

/-- What may fail keeps what its success keeps. -/
theorem of_none : ∀ x : State, none = some x → o.Keeps x := fun _ e => by cases e

theorem of_some (h : o.Keeps s) : ∀ x : State, some s = some x → o.Keeps x := fun _ e => Option.some.inj e ▸ h

theorem ite_some {a b : Option State} {c : Prop} [Decidable c] (ha : ∀ x, a = some x → o.Keeps x) (hb : ∀ x, b = some x → o.Keeps x) :
    ∀ x, (if c then a else b) = some x → o.Keeps x := by
  split
  · exact ha
  · exact hb

theorem getD {a : Option State} (h : o.Keeps s) (ha : ∀ x, a = some x → o.Keeps x) : o.Keeps (a.getD s) := by
  cases a with
  | none => exact h
  | some x => exact ha x rfl

theorem pair {α : Type} {a : α} (h : o.Keeps s) : o.Keeps (s, a).1 := h

theorem paired {α : Type} {a : α} (h : o.Keeps s) : o.Keeps (a, s).2 := h

theorem mid {α β : Type} {a : α} {b : β} (h : o.Keeps s) : o.Keeps (a, s, b).2.1 := h

theorem fst {α : Type} {p r : State × α} (h : o.Keeps p.1) (e : p = r) : o.Keeps r.1 := e ▸ h

theorem snd {α : Type} {p r : α × State} (h : o.Keeps p.2) (e : p = r) : o.Keeps r.2 := e ▸ h

/-! ## The fields of the state -/

theorem time {x : TimeSt} (h : o.Keeps s) : o.Keeps { s with time := x } := ⟨h.queue, h.memory, h.readings⟩
theorem hub {x : Hub} (h : o.Keeps s) : o.Keeps { s with hub := x } := ⟨h.queue, h.memory, h.readings⟩
theorem fuses {x : Fuses} (h : o.Keeps s) : o.Keeps { s with fuses := x } := ⟨h.queue, h.memory, h.readings⟩
theorem flash {x : Flash} (h : o.Keeps s) : o.Keeps { s with flash := x } := ⟨h.queue, h.memory, h.readings⟩

/-- Any change of the supply's record but of the sensors' readings. -/
theorem power {budget avg1s avg10ms lent throttle lastRaise lastLower : Nat} {samples lentCaps netFail : List Nat} {hotSince : Tbl (Option Nat)}
    {pmbus : Tbl PmbusRec} {railsOk : Bool} (h : o.Keeps s) :
    o.Keeps { s with power := { s.power with
      budget, avg1s, avg10ms, samples, lent, lentCaps, throttle, hotSince, pmbus, netFail, lastRaise, lastLower, railsOk } } :=
  ⟨h.queue, h.memory, h.readings⟩

theorem sec {x : Sec} (h : o.Keeps s) : o.Keeps { s with sec := x } := ⟨h.queue, h.memory, h.readings⟩
theorem pins {x : Pins} (h : o.Keeps s) : o.Keeps { s with pins := x } := ⟨h.queue, h.memory, h.readings⟩
theorem sites {x : Tbl Site} (h : o.Keeps s) : o.Keeps { s with sites := x } := ⟨h.queue, h.memory, h.readings⟩
theorem regions {x : Tbl Region} (h : o.Keeps s) : o.Keeps { s with regions := x } := ⟨h.queue, h.memory, h.readings⟩
theorem parts {x : Tbl Part} (h : o.Keeps s) : o.Keeps { s with parts := x } := ⟨h.queue, h.memory, h.readings⟩
theorem heralds {x : Tbl (Option Herald)} (h : o.Keeps s) : o.Keeps { s with heralds := x } := ⟨h.queue, h.memory, h.readings⟩
theorem outcomes {x : Tbl (List OutcomePkt)} (h : o.Keeps s) : o.Keeps { s with outcomes := x } := ⟨h.queue, h.memory, h.readings⟩
theorem alm {x : Almanac} (h : o.Keeps s) : o.Keeps { s with alm := x } := ⟨h.queue, h.memory, h.readings⟩
theorem col {x : Collector} (h : o.Keeps s) : o.Keeps { s with col := x } := ⟨h.queue, h.memory, h.readings⟩
theorem ev {x : Events} (h : o.Keeps s) : o.Keeps { s with ev := x } := ⟨h.queue, h.memory, h.readings⟩
theorem mbs {x : Tbl Mailbox} (h : o.Keeps s) : o.Keeps { s with mbs := x } := ⟨h.queue, h.memory, h.readings⟩
theorem mgmt {x : Tbl MgmtPort} (h : o.Keeps s) : o.Keeps { s with mgmt := x } := ⟨h.queue, h.memory, h.readings⟩
theorem msix {x : Tbl MsixEnt} (h : o.Keeps s) : o.Keeps { s with msix := x } := ⟨h.queue, h.memory, h.readings⟩
theorem ports {x : Tbl Port} (h : o.Keeps s) : o.Keeps { s with ports := x } := ⟨h.queue, h.memory, h.readings⟩
theorem routers {x : Tbl Router} (h : o.Keeps s) : o.Keeps { s with routers := x } := ⟨h.queue, h.memory, h.readings⟩
theorem routing {x : Routing} (h : o.Keeps s) : o.Keeps { s with routing := x } := ⟨h.queue, h.memory, h.readings⟩
theorem dma {x : Dma} (h : o.Keeps s) : o.Keeps { s with dma := x } := ⟨h.queue, h.memory, h.readings⟩

/-- Any change of the memory's record but of its contents. -/
theorem mem {threshold scrubH hdmBase : Nat} {bad mapBad zeroing used migStopped allocWait system : List Nat} {chans : Tbl Mc}
    {map journal : Tbl PageEnt} {wins : Tbl PageWin} {ceTimes : Tbl (List Nat)} {mig : Tbl (Option Migration)} {migWait keptLost : List (Nat × Nat)}
    {keptDig : Tbl (BitVec 128)} {hdmOn : Bool} (h : o.Keeps s) :
    o.Keeps { s with mem := { s.mem with
      bad, chans, map, journal, mapBad, zeroing, used, wins, ceTimes, threshold, scrubH, mig, migWait, migStopped, keptDig, keptLost, allocWait,
      system, hdmBase, hdmOn } } :=
  ⟨h.queue, h.memory, h.readings⟩

theorem sent {x : List OutMsg} (h : o.Keeps s) : o.Keeps { s with sent := x } := ⟨h.queue, h.memory, h.readings⟩
theorem free {x : Nat} (h : o.Keeps s) : o.Keeps { s with free := x } := ⟨h.queue, h.memory, h.readings⟩

end Origin.Keeps

/-- A row answers a next state that keeps what it has come from. -/
def Origin.Answers (o : Origin) (r : Out) : Prop := ∃ t, r = .next t ∧ o.Keeps t

theorem Origin.Answers.next (h : o.Keeps s) : o.Answers (.next s) := ⟨s, rfl, h⟩

theorem Origin.Answers.ite {a b : Out} {c : Prop} [Decidable c] (ha : o.Answers a) (hb : o.Answers b) : o.Answers (if c then a else b) := by
  split
  · exact ha
  · exact hb

/-- The body of a command keeps what its state has come from. -/
def CmdDef.Keeps (f : CmdDef) : Prop := ∀ {o : Origin} {s : State} {c : Cmd}, o.Keeps s → o.Keeps (f.body s c)

/-! ## Shared operations: mailboxes, events, records -/

theorem Origin.Keeps.adv {t : Nat} (h : o.Keeps s) : o.Keeps (s.adv t) := h.time
theorem Origin.Keeps.modPart {p : Nat} {f : Part → Part} (h : o.Keeps s) : o.Keeps (s.modPart p f) := h.parts
theorem Origin.Keeps.modSite {k : Nat} {f : Site → Site} (h : o.Keeps s) : o.Keeps (s.modSite k f) := h.sites
theorem Origin.Keeps.modSites {ks : List Nat} {f : Nat → Site → Site} (h : o.Keeps s) : o.Keeps (s.modSites ks f) := h.foldl fun _ _ h => h.modSite
theorem Origin.Keeps.modRegion {g : Nat} {f : Region → Region} (h : o.Keeps s) : o.Keeps (s.modRegion g f) := h.regions
theorem Origin.Keeps.modMb {i : Nat} {f : Mailbox → Mailbox} (h : o.Keeps s) : o.Keeps (s.modMb i f) := h.mbs
theorem Origin.Keeps.modPort {i : Nat} {f : Port → Port} (h : o.Keeps s) : o.Keeps (s.modPort i f) := h.ports
theorem Origin.Keeps.modRouter {r : Nat} {f : Router → Router} (h : o.Keeps s) : o.Keeps (s.modRouter r f) := h.routers
theorem Origin.Keeps.setHerald {g : Nat} {h' : Option Herald} (h : o.Keeps s) : o.Keeps (s.setHerald g h') := h.heralds
theorem Origin.Keeps.modMgmt {i : Nat} {f : MgmtPort → MgmtPort} (h : o.Keeps s) : o.Keeps (s.modMgmt i f) := h.mgmt
theorem Origin.Keeps.modChan {i : Nat} {f : Mc → Mc} (h : o.Keeps s) : o.Keeps (s.modChan i f) := h.mem
theorem Origin.Keeps.modJob {p : Nat} {f : Job → Job} (h : o.Keeps s) : o.Keeps (s.modJob p f) := h.modPart
theorem Origin.Keeps.modHub {f : Hub → Hub} (h : o.Keeps s) : o.Keeps (s.modHub f) := h.hub
theorem Origin.Keeps.modTwin {p : Nat} {f : Twin → Twin} (h : o.Keeps s) : o.Keeps (s.modTwin p f) := h.modPart
theorem Origin.Keeps.emit {m : OutMsg} (h : o.Keeps s) : o.Keeps (s.emit m) := h.sent
theorem Origin.Keeps.emits {ms : List OutMsg} (h : o.Keeps s) : o.Keeps (s.emits ms) := h.sent
theorem Origin.Keeps.draw (h : o.Keeps s) (w : Nat) : o.Keeps (s.draw w).2 := h.free
theorem Origin.Keeps.modRcfg {c : Nat} {f : RouteCfg → RouteCfg} (h : o.Keeps s) : o.Keeps (s.modRcfg c f) := h.routing
theorem Origin.Keeps.setDown {p : Nat} {v : Bool} (h : o.Keeps s) : o.Keeps (s.setDown p v) := h.foldl fun _ _ h => h.modRouter
theorem Origin.Keeps.launch {p : Packet} (h : o.Keeps s) : o.Keeps (s.launch p) := h.routing.emit
theorem Origin.Keeps.inject {p : Packet} (h : o.Keeps s) : o.Keeps (s.inject p) := .ite h.routing h.launch
theorem Origin.Keeps.injects {ps : List Packet} (h : o.Keeps s) : o.Keeps (s.injects ps) := h.foldl fun _ _ h => h.inject
theorem Origin.Keeps.injectHeld {c : Nat} (h : o.Keeps s) : o.Keeps (s.injectHeld c) := h.routing.injects
theorem Origin.Keeps.msixFire {v : Nat} (h : o.Keeps s) : o.Keeps (s.msixFire v) := .ite h.msix h.msix.emit
theorem Origin.Keeps.evSignal (h : o.Keeps s) : o.Keeps s.evSignal := .ite h.ev.msixFire h
theorem Origin.Keeps.evWrite {e : EventRec} (h : o.Keeps s) : o.Keeps (s.evWrite e) := .ite h.ev.evSignal.msixFire h.ev.evSignal
theorem Origin.Keeps.evPost {e : EventRec} (h : o.Keeps s) : o.Keeps (s.evPost e) := .ite (.ite h.ev h.evWrite) h

theorem Origin.Keeps.mgmtSend {port : Nat} {dst : MgmtAddr} {own : Bool} {mop mb : Nat} {body : List Byte}
    (h : o.Keeps s) : o.Keeps (s.mgmtSend port dst own mop mb body) := h.foldl fun _ _ h => h.modMgmt.emit

theorem Origin.Keeps.evStream {i : Nat} {e : EventRec} (h : o.Keeps s) : o.Keeps (s.evStream i e) := .ite h.mgmtSend h

theorem Origin.Keeps.eventRaw {code part : Nat} {arg : List (Nat × Nat)} (h : o.Keeps s) : o.Keeps (s.eventRaw code part arg) :=
    h.ev.evPost.evStream.evStream

theorem Origin.Keeps.event {code part : Nat} {arg : List (Nat × Nat)} (h : o.Keeps s) : o.Keeps (s.event code part arg) :=
    h.eventRaw.foldl fun _ _ h => h.eventRaw.foldl fun _ _ h => h.eventRaw

theorem Origin.Keeps.ovfEvent {obj idx : Nat} (h : o.Keeps s) : o.Keeps (s.ovfEvent obj idx) := .ite h h.ev.event
theorem Origin.Keeps.ovfClear {obj : Nat} (h : o.Keeps s) : o.Keeps (s.ovfClear obj) := h.ev
theorem Origin.Keeps.ovfIf {o' : Bool} {obj idx : Nat} (h : o.Keeps s) : o.Keeps (s.ovfIf o' obj idx) := .ite h.ovfEvent h
theorem Origin.Keeps.rtrAdd {r idx n : Nat} (h : o.Keeps s) : o.Keeps (s.rtrAdd r idx n) := h.modRouter.ovfIf
theorem Origin.Keeps.rtrCount {r idx : Nat} (h : o.Keeps s) : o.Keeps (s.rtrCount r idx) := h.rtrAdd
theorem Origin.Keeps.errAppend {r : ErrRec} (h : o.Keeps s) : o.Keeps (s.errAppend r) := .ite h.col.col.event h.col

theorem Origin.Keeps.errEmit {n : Nat} (h : o.Keeps s) : o.Keeps (State.errEmit n s) := by
  induction n generalizing s with
  | zero => exact h
  | succ n ih =>
    unfold State.errEmit
    split
    · exact h
    · exact .ite (ih h.col.errAppend) h

theorem Origin.Keeps.errLose (h : o.Keeps s) : o.Keeps s.errLose := h.col.ovfIf

theorem Origin.Keeps.collect {r : ErrRec} (h : o.Keeps s) : o.Keeps (s.collect r) :=
    .ite (.ite h.col (.ite h.col h.errLose)) (.ite h.errAppend h.errLose)

theorem Origin.Keeps.errArrive {r : ErrRec} (h : o.Keeps s) : o.Keeps (s.errArrive r) := by
  unfold State.errArrive
  dsimp only
  refine .ite ?_ (.ite h.collect.errEmit h.collect)
  split
  · exact .modSite (.ite h.collect.errEmit h.collect)
  · exact .ite h.collect.errEmit h.collect

theorem Origin.Keeps.voltOf {kind : Nat} (h : o.Keeps s) : o.Keeps (s.voltOf kind).2 := .ite_snd h (h.draw 16)

theorem Origin.Keeps.reportOp {cls kind part unit op : Nat} {detail : List (Nat × Nat)}
    (h : o.Keeps s) : o.Keeps (s.reportOp cls kind part unit op detail) := h.voltOf.errArrive

theorem Origin.Keeps.report {cls kind part unit : Nat} {detail : List (Nat × Nat)} (h : o.Keeps s) : o.Keeps (s.report cls kind part unit detail) :=
    h.reportOp

theorem Origin.Keeps.reportSite {cls k op : Nat} {detail : List (Nat × Nat)} (h : o.Keeps s) : o.Keeps (s.reportSite cls k op detail) := h.reportOp
theorem Origin.Keeps.ringAppend {r : ErrRec} (h : o.Keeps s) : o.Keeps (s.ringAppend r) := h.col
theorem Origin.Keeps.errDrain (h : o.Keeps s) : o.Keeps s.errDrain := (h.foldl fun _ _ h => h.ringAppend).col
theorem Origin.Keeps.hubStatus {f : Hub → Hub} (h : o.Keeps s) : o.Keeps (s.hubStatus f) := .ite h.modHub h.modHub.msixFire
theorem Origin.Keeps.writeCpl {mb : Nat} {c : Completion} {irq : Bool} (h : o.Keeps s) : o.Keeps (s.writeCpl mb c irq) :=
  .ite h.modMb.msixFire h.modMb
theorem Origin.Keeps.unlock {mb : Nat} (h : o.Keeps s) : o.Keeps (s.unlock mb) := h.foldl fun _ _ h => h.modPart

theorem Origin.Keeps.finishWith {mb status detail result : Nat} {more : Bool} {out : List Byte}
    (h : o.Keeps s) : o.Keeps (s.finishWith mb status detail result more out) := by
  unfold State.finishWith
  dsimp only
  split
  · exact h
  · exact .ite h.mem.unlock.modMb.modMb (.ite (.ite h.mem.unlock.modMb.modMb h.mem.unlock.modMb.writeCpl) h.mem.unlock.modMb.modMb.mgmtSend)

theorem Origin.Keeps.finish {mb status : Nat} {detail result : Nat} (h : o.Keeps s) : o.Keeps (s.finish mb status detail result) := h.finishWith

theorem Origin.Keeps.abortLocked {p except : Nat} {final : Mailbox → Bool} (h : o.Keeps s) : o.Keeps (s.abortLocked p except final) :=
    h.foldl fun _ _ h => .ite h h.finish

/-! ## Paths of a site -/

theorem Origin.Keeps.reroute {p g : Nat} (h : o.Keeps s) : o.Keeps (s.reroute p g).1 := by
  unfold State.reroute
  split
  · exact h
  · extract_lets old new ok
    exact .ite_fst (.pair h.modPart) (.pair h.modPart)

theorem Origin.Keeps.buildPaths {p : Nat} (h : o.Keeps s) : o.Keeps (s.buildPaths p) := by
  unfold State.buildPaths
  dsimp only
  split <;> exact h.modPart

/-! ## Placement of tiles -/

theorem Origin.Keeps.spareEvents {g : Nat} (h : o.Keeps s) : o.Keeps (s.spareEvents g) :=
    .ite (.hubStatus (.ite (.event (.modRegion (.ite h.modRegion.event h))) (.event (.modHub (.event (.modRegion (.ite h.modRegion.event h)))))))
      (.ite h.modRegion.event h)

theorem Origin.Keeps.newGen {g : Nat} (h : o.Keeps s) : o.Keeps (s.newGen g) := h.modRegion
theorem Origin.Keeps.setSt {k : Nat} {st : SiteSt} (h : o.Keeps s) : o.Keeps (s.setSt k st) := h.modSite
theorem Origin.Keeps.unVigil {g p : Nat} (h : o.Keeps s) : o.Keeps (s.unVigil g p) := h.modRegion
theorem Origin.Keeps.placeAt {g k p : Nat} {fill : Bool} (h : o.Keeps s) : o.Keeps (s.placeAt g k p fill) := h.modSite.modRegion.unVigil
theorem Origin.Keeps.endFill {g k p : Nat} (h : o.Keeps s) : o.Keeps (s.endFill g k p) := by
  unfold State.endFill
  exact h.modSite.newGen.modRegion
theorem Origin.Keeps.moveWindows {a b : Nat} (h : o.Keeps s) : o.Keeps (s.moveWindows a b) := .ite h h.modSite.modSite

theorem Origin.Keeps.moveTo {g k q : Nat} {copy : Bool} {st : SiteSt} (h : o.Keeps s) : o.Keeps (s.moveTo g k q copy st) :=
    .placeAt (.newGen (.modSite (.ite h.modSite h.moveWindows)))

theorem Origin.Keeps.putMap {g : Nat} {map : List Nat} (h : o.Keeps s) : o.Keeps (s.putMap g map) := by
  unfold State.putMap
  exact (h.modSites.newGen.foldl fun _ _ h => h.modSite).modRegion

theorem Origin.Keeps.fullPlace {g : Nat} (h : o.Keeps s) : o.Keeps (s.fullPlace g).1 := by
  unfold State.fullPlace
  dsimp only
  refine .ite_fst ?_ h
  split
  · exact h.putMap
  · split
    next e1 => exact h.putMap.reroute.fst e1
    · exact h

theorem Origin.Keeps.unplaceable {g : Nat} (h : o.Keeps s) : o.Keeps (s.unplaceable g) := by
  unfold State.unplaceable
  exact h.report.event.modRegion.spareEvents

theorem Origin.Keeps.placeRegion {g : Nat} (h : o.Keeps s) : o.Keeps (s.placeRegion g) := by
  unfold State.placeRegion
  split
  next e => exact h.fullPlace.fst e
  next e => exact (h.fullPlace.fst e).unplaceable

theorem Origin.Keeps.placePart {p : Nat} (h : o.Keeps s) : o.Keeps (s.placePart p) :=
    (h.modPart.foldl fun _ _ h => h.placeRegion).buildPaths.foldl fun _ _ h => h.unplaceable

theorem Origin.Keeps.vigilSelect {g : Nat} (h : o.Keeps s) : o.Keeps (s.vigilSelect g) := by
  unfold State.vigilSelect
  exact (h.foldl fun _ _ h => h.modSite).modRegion
theorem Origin.Keeps.vigilAssign {g p step : Nat} (h : o.Keeps s) : o.Keeps (s.vigilAssign g p step) := by
  unfold State.vigilAssign
  exact (h.foldl fun _ _ h => h.modSite).modRegion

/-! ## Pages of the device memory -/

theorem Origin.Keeps.setPage {l : Nat} {e : PageEnt} (h : o.Keeps s) : o.Keeps (s.setPage l e) := h.mem

theorem Origin.Keeps.migBoth {a n : Nat} (h : o.Keeps s) : o.Keeps (s.migBoth a n) := by
  unfold State.migBoth
  refine h.foldl fun s _ h => ?_
  split
  · exact h
  · exact .ite h (h.dram fun hw => memWf_blit hw _ _ _)

theorem Origin.Keeps.dramBlit {a n : Nat} {r : List Host.Cell} (h : o.Keeps s) : o.Keeps (s.dramBlit a n r) :=
  (h.dram fun hw => memWf_blit hw a n r).migBoth

theorem Origin.Keeps.dramCopy {dst src n : Nat} (h : o.Keeps s) : o.Keeps (s.dramCopy dst src n) := h.dramBlit

theorem Origin.Keeps.dramWrite {a : Nat} {bs : List Byte} (h : o.Keeps s) : o.Keeps (s.dramWrite a bs) :=
  (h.dram fun hw => memWf_writeN bs hw a).migBoth

theorem Origin.Keeps.mapPage {l owner : Nat} {kind : PageKind} {kept : Bool} {n : Nat} {x : State}
    (h : o.Keeps s) (e : s.mapPage l owner kind kept n = some x) : o.Keeps x := by
  unfold State.mapPage at e
  split at e
  · cases e
  · cases e
    exact .of_eq h

theorem Origin.Keeps.mapPages {ls : List Nat} {owner : Nat} {kind : PageKind} {kept : Bool} {x : State}
    (h : o.Keeps s) (e : s.mapPages ls owner kind kept = some x) : o.Keeps x := by
  unfold State.mapPages at e
  refine h.foldl_some (fun _ => rfl) (fun s a t h e => ?_) e
  exact h.mapPage e

theorem Origin.Keeps.allocPages {n owner : Nat} {kind : PageKind} {kept out : Bool} {x : State × List Nat}
    (h : o.Keeps s) (e : s.allocPages n owner kind kept out = some x) : o.Keeps x.1 := by
  simp only [State.allocPages] at e
  split at e
  · cases e
  · split at e
    · next hm =>
      cases e
      exact h.mapPages hm
    · cases e

theorem Origin.Keeps.retirePpn {ppn : Nat} (h : o.Keeps s) : o.Keeps (s.retirePpn ppn) :=
    .ite h.modChan.mem (.ite h.modChan.mem.flash h.modChan.mem.event)

theorem Origin.Keeps.dropMig {l : Nat} (h : o.Keeps s) : o.Keeps (s.dropMig l) := by
  unfold State.dropMig
  dsimp only
  split
  · exact .ite h.mem h.mem
  · exact h.mem

theorem Origin.Keeps.unmapPages {ls : List Nat} (h : o.Keeps s) : o.Keeps (s.unmapPages ls) :=
    h.foldl fun _ _ h => .ite h (.ite h.setPage.dropMig.retirePpn.report h.setPage.dropMig.mem)

theorem Origin.Keeps.dropRestore {p : Nat} (h : o.Keeps s) : o.Keeps (s.dropRestore p) := by
  unfold State.dropRestore
  exact h.unmapPages.modPart
theorem Origin.Keeps.mcCount {ch idx : Nat} (h : o.Keeps s) : o.Keeps (s.mcCount ch idx) := h.modChan.ovfIf

theorem Origin.Keeps.migStart {die : Nat} (h : o.Keeps s) : o.Keeps (s.migStart die) := by
  unfold State.migStart
  dsimp only
  refine .ite h ?_
  split
  · exact h
  · split
    · exact h
    · exact h.mem

theorem Origin.Keeps.migLoses {ppn : Nat} (h : o.Keeps s) : o.Keeps (s.migLoses ppn) := by
  unfold State.migLoses
  dsimp only
  refine h.foldl fun _ _ h => ?_
  split
  · exact .ite h.mem h
  · exact h

theorem Origin.Keeps.startRetire {ppn cause : Nat} (h : o.Keeps s) : o.Keeps (s.startRetire ppn cause) := by
  unfold State.startRetire
  dsimp only
  refine .ite h ?_
  split
  · exact .ite h h.setPage.mem.migStart
  · exact h.migLoses.retirePpn.report.migStart

theorem Origin.Keeps.chanOffline {ch cause : Nat} (h : o.Keeps s) : o.Keeps (s.chanOffline ch cause) := .ite h h.modChan.report.event

theorem Origin.Keeps.ddrCe {a src : Nat} (h : o.Keeps s) : o.Keeps (s.ddrCe a src) :=
    .ite (h.draw 16).mem.report.mcCount.startRetire (h.draw 16).mem.report.mcCount

theorem Origin.Keeps.ddrUe {a src l part : Nat} {page : Nat} (h : o.Keeps s) : o.Keeps (s.ddrUe a src l part page) := by
  unfold State.ddrUe
  extract_lets ppn ch
  split
  next v s1 e =>
    extract_lets s2 s3 s4
    have h3 : o.Keeps s3 := ((h.draw 16).snd e).report.modChan.mcCount
    have h4 : o.Keeps s4 := .ite h3.chanOffline h3
    exact h4.startRetire

theorem Origin.Keeps.markBad {a : Nat} (h : o.Keeps s) : o.Keeps (s.markBad a) := .ite h h.mem
theorem Origin.Keeps.miscorrect {a : Nat} (h : o.Keeps s) : o.Keeps (s.miscorrect a) := (h.draw 512).dramWrite

theorem Origin.Keeps.eccRead {a ecc src l part : Nat} (h : o.Keeps s) : o.Keeps (s.eccRead a ecc src l part).1 := by
  unfold State.eccRead
  extract_lets s1
  have h1 : o.Keeps s1 := .ite h.markBad h
  exact .ite_fst (.pair h1.ddrUe) (.ite_fst (.pair h1.miscorrect.ddrCe) (.ite_fst (.pair h1.ddrCe) (.pair h1)))

theorem Origin.Keeps.dieRead {a n src l part : Nat} (h : o.Keeps s) : o.Keeps (s.dieRead a n src l part) := h.foldl fun _ _ h => h.ddrUe

theorem Origin.Keeps.dieWrite {a : Nat} {bs : List Byte} {l part : Nat} (h : o.Keeps s) : o.Keeps (s.dieWrite a bs l part) :=
    h.foldl fun _ _ h => .ite h.dramWrite (.ite h.mcCount.ddrUe h.mcCount.dramWrite)

theorem Origin.Keeps.pageRefuse {x : PageAcc} {cause : Nat} (h : o.Keeps s) : o.Keeps (s.pageRefuse x cause) := .ite h.report h.report.mcCount
theorem Origin.Keeps.downRefuse {l : Nat} {write : Bool} (h : o.Keeps s) : o.Keeps (s.downRefuse l write) := h.pageRefuse

/-! ## Tallies and logs -/

theorem Origin.Keeps.granCopy {p dst dstPage src srcPage : Nat} (h : o.Keeps s) : o.Keeps (s.granCopy p dst dstPage src srcPage) :=
    .ite h.downRefuse (.ite h.downRefuse h.dieRead.dramCopy)

theorem Origin.Keeps.putBack {j : Job} {i : PreImage} (h : o.Keeps s) : o.Keeps (s.putBack j i) := by
  unfold State.putBack
  split
  · exact h.granCopy
  · exact h

theorem Origin.Keeps.logPre {p page gran : Nat} (h : o.Keeps s) : o.Keeps (s.logPre p page gran) := by
  unfold State.logPre
  dsimp only
  split
  · exact h
  · split
    · exact h
    · refine .ite (.modJob ?_) h
      split
      · exact h.granCopy
      · exact h

theorem Origin.Keeps.touch {p page gran : Nat} {whole : Bool} (h : o.Keeps s) : o.Keeps (s.touch p page gran whole) := by
  unfold State.touch
  dsimp only
  split
  · exact h.logPre
  · exact .modJob (.ite h.logPre h.logPre.granCopy)

theorem Origin.Keeps.granRefuse {p page gran : Nat} (h : o.Keeps s) : o.Keeps (s.granRefuse p page gran) := by
  unfold State.granRefuse
  split
  · exact h.downRefuse
  · exact h

theorem Origin.Keeps.granWrite {p page gran off : Nat} {bs : List Byte} (h : o.Keeps s) : o.Keeps (s.granWrite p page gran off bs) := by
  unfold State.granWrite
  dsimp only
  refine .ite h.granRefuse ?_
  split
  · exact h.touch
  · exact h.touch.dieWrite

theorem Origin.Keeps.granCarry {p page gran : Nat} {r : List Host.Cell} (h : o.Keeps s) : o.Keeps (s.granCarry p page gran r) := by
  unfold State.granCarry
  dsimp only
  refine .ite h.granRefuse ?_
  split
  · exact h.touch
  · exact h.touch.dramBlit

theorem Origin.Keeps.granLoad {p page gran : Nat} (h : o.Keeps s) : o.Keeps (s.granLoad p page gran) := by
  unfold State.granLoad
  dsimp only
  split
  · exact h
  · exact .ite h.downRefuse (.ite h h.dieRead.modJob)

theorem Origin.Keeps.classWrite {p c off : Nat} {bs : List Byte} (h : o.Keeps s) : o.Keeps (s.classWrite p c off bs) := by
  unfold State.classWrite
  dsimp only
  split
  · exact h
  · exact h.granWrite

theorem Origin.Keeps.logFill {j : Job} {first n : Nat} {cells : List Host.Cell} (h : o.Keeps s) : o.Keeps (s.logFill j first n cells) := by
  unfold State.logFill
  refine h.foldl fun _ _ h => ?_
  split
  · exact h.dramBlit
  · exact h

theorem Origin.Keeps.ledgerOut {p : Nat} (h : o.Keeps s) : o.Keeps (s.ledgerOut p) := by
  unfold State.ledgerOut
  dsimp only
  split
  · exact h
  · exact h.logFill.logFill.logFill

theorem Origin.Keeps.writePrepared {p : Nat} (h : o.Keeps s) : o.Keeps (s.writePrepared p) := by
  unfold State.writePrepared
  dsimp only
  split
  · exact h
  · exact h.modJob.ledgerOut

theorem Origin.Keeps.restorePre {p : Nat} (h : o.Keeps s) : o.Keeps (s.restorePre p) := by
  unfold State.restorePre
  dsimp only
  split
  · exact h
  · exact (h.foldl fun _ _ h => h.putBack).modJob

theorem Origin.Keeps.discardAttempt {p : Nat} (h : o.Keeps s) : o.Keeps (s.discardAttempt p) := h.restorePre.modJob.ledgerOut

/-! ## Partitions and jobs -/

theorem Origin.Keeps.stopPart {p : Nat} (h : o.Keeps s) : o.Keeps (s.stopPart p) := h.modPart
theorem Origin.Keeps.clearBarriers {p : Nat} (h : o.Keeps s) : o.Keeps (s.clearBarriers p) := h.foldl fun _ _ h => h.modRouter
theorem Origin.Keeps.flushEnd {p : Nat} (h : o.Keeps s) : o.Keeps (s.flushEnd p) := .ite (.ite h.modPart h.modPart.setDown) h

theorem Origin.Keeps.flush {p : Nat} {keepDown : Bool} (h : o.Keeps s) : o.Keeps (s.flush p keepDown) :=
    (h.setDown.clearBarriers.foldl fun _ _ h => h.modRegion).modSites.dma.modPart.flushEnd

theorem Origin.Keeps.mapFlush {p : Nat} (h : o.Keeps s) : o.Keeps (s.mapFlush p) := .ite h.flush h
theorem Origin.Keeps.powerUp {g : Nat} (h : o.Keeps s) : o.Keeps (s.powerUp g) := h.modRegion

theorem Origin.Keeps.beginSweep {p : Nat} {why : SweepFor} (h : o.Keeps s) : o.Keeps (s.beginSweep p why) := by
  unfold State.beginSweep
  exact (h.setDown.foldl fun _ _ h => h.powerUp).modSites.modPart

theorem Origin.Keeps.planFence {k cls : Nat} (h : o.Keeps s) : o.Keeps (s.planFence k cls) := h.modSite
theorem Origin.Keeps.sliceCe {k : Nat} (h : o.Keeps s) : o.Keeps (s.sliceCe k) := .ite h.modSite.reportSite.planFence h.modSite.reportSite

theorem Origin.Keeps.sliceUe {k : Nat} {consumed : Bool} (h : o.Keeps s) : o.Keeps (s.sliceUe k consumed) :=
    .ite h.modSite.reportSite.modJob h.modSite.reportSite

theorem Origin.Keeps.clearErr {k e : Nat} (h : o.Keeps s) : o.Keeps (s.clearErr k e) := h.modSite

theorem Origin.Keeps.bankRead {k : Nat} {hit : Nat → Bool} {consumed : Bool} (h : o.Keeps s) : o.Keeps (s.bankRead k hit consumed) :=
    h.foldl fun _ _ h => .ite (.ite h.clearErr.sliceCe h.clearErr.sliceUe) h

theorem Origin.Keeps.eccRange {k a n : Nat} {consumed : Bool} (h : o.Keeps s) : o.Keeps (s.eccRange k a n consumed) := h.bankRead
theorem Origin.Keeps.eccWrite {k a n : Nat} (h : o.Keeps s) : o.Keeps (s.eccWrite k a n) := by
  unfold State.eccWrite
  exact h.bankRead.modSite
theorem Origin.Keeps.disturb {k e : Nat} {raw : List Byte} (h : o.Keeps s) : o.Keeps (s.disturb k e raw) := h.modSite

theorem Origin.Keeps.disturbs {k : Nat} {hits : List (Nat × List Byte)} (h : o.Keeps s) : o.Keeps (s.disturbs k hits) :=
    h.foldl fun _ _ h => .ite h.disturb h

theorem Origin.Keeps.harvestReads {p : Nat} (h : o.Keeps s) : o.Keeps (s.harvestReads p) :=
    h.foldl fun _ _ h => .ite h (h.foldl fun _ _ h => h.eccRange)

theorem Origin.Keeps.storeLost (h : o.Keeps s) : o.Keeps s.storeLost.2 := .ite_snd h (h.draw (8 * storeBytes))

theorem Origin.Keeps.storeWrite {off : Nat} {bs : List Byte} (h : o.Keeps s) : o.Keeps (s.storeWrite off bs) := by
  unfold State.storeWrite
  dsimp only
  refine h.foldl fun _ _ h => .ite h ?_
  split
  · exact h.dramWrite
  · exact h

theorem Origin.Keeps.storeTiles {p : Nat} (h : o.Keeps s) : o.Keeps (s.storeTiles p).2 := h.storeLost

theorem Origin.Keeps.storePut {p : Nat} {tiles : List (Nat × List Byte)} (h : o.Keeps s) : o.Keeps (s.storePut p tiles) := by
  unfold State.storePut
  split
  next all s1 e =>
    have h1 : o.Keeps s1 := by
      rw [show s1 = _ from (congrArg Prod.snd e).symm]
      refine .foldl_snd h fun a q h => .ite_snd h ?_
      split
      next ts s2 e => exact .paired (h.storeTiles.snd e)
    refine .foldl_snd h1 fun a x h => ?_
    split
    next off s2 at' e =>
      have h2 : o.Keeps s2 := by
        rw [show s2 = _ from (congrArg (fun b => b.2.1) e).symm]
        exact .foldl_mid h fun b y h => .mid h.storeWrite
      exact .paired h2.modPart

theorem Origin.Keeps.beginHarvest {p cause cls site : Nat} (h : o.Keeps s) : o.Keeps (s.beginHarvest p cause cls site) :=
    .ite h h.stopPart.flush.harvestReads.modPart.storePut.beginSweep

theorem Origin.Keeps.faultJob {p cls : Nat} (h : o.Keeps s) : o.Keeps (s.faultJob p cls) := by
  unfold State.faultJob
  split
  · exact h
  · exact .ite h h.modJob.stopPart.event

theorem Origin.Keeps.hang {p cls cause site : Nat} (h : o.Keeps s) : o.Keeps (s.hang p cls cause site) := by
  unfold State.hang
  split
  · exact h
  · exact h.faultJob.beginHarvest

theorem Origin.Keeps.faultAsIdes {p cls cause k : Nat} (h : o.Keeps s) : o.Keeps (s.faultAsIdes p cls cause k) := by
  unfold State.faultAsIdes
  split
  · exact h
  · exact .ite h h.event.modJob.hang

theorem Origin.Keeps.modAlm {i : Nat} {f : AlmEntry → AlmEntry} (h : o.Keeps s) : o.Keeps (s.modAlm i f) := h.alm
theorem Origin.Keeps.unwatch {i : Nat} (h : o.Keeps s) : o.Keeps (s.unwatch i) := .ite h h.modAlm
theorem Origin.Keeps.watchMet {p : Nat} {f : Watch → Bool} (h : o.Keeps s) : o.Keeps (s.watchMet p f) := h.modPart.foldl fun _ _ h => .ite h h.unwatch
theorem Origin.Keeps.watchesEnd {p : Nat} (h : o.Keeps s) : o.Keeps (s.watchesEnd p) := h.modPart.alm

theorem Origin.Keeps.unbind {p : Nat} (h : o.Keeps s) : o.Keeps (s.unbind p) := by
  unfold State.unbind
  dsimp only
  split
  · exact h
  · exact (h.alm.watchesEnd.modSites.stopPart.flush.unmapPages.foldl fun _ _ h => h.modRegion).modPart

theorem Origin.Keeps.endBinding {p cause : Nat} {why : SweepFor} (h : o.Keeps s) : o.Keeps (s.endBinding p cause why) := by
  unfold State.endBinding
  split
  · exact h
  · exact h.unbind.event.beginSweep

/-! ## Slices -/

theorem Origin.Keeps.grantWrite {k : Nat} {r : SliceReq} {i e : Nat} (h : o.Keeps s) : o.Keeps (s.grantWrite k r i e) :=
    .ite h (.ite h.clearErr h.bankRead)

theorem Origin.Keeps.grantEcc {k : Nat} {r : SliceReq} (h : o.Keeps s) : o.Keeps (s.grantEcc k r) :=
    .ite (h.foldl fun _ _ h => h.grantWrite) h.bankRead

/-! ## Fencing of sites -/

theorem Origin.Keeps.repairOverflow {g : Nat} (h : o.Keeps s) : o.Keeps (s.repairOverflow g) := h.report.modRegion

theorem Origin.Keeps.endPair {g : Nat} {x : Nat × Nat × Nat × Option Nat} (h : o.Keeps s) : o.Keeps (s.endPair g x) := by
  unfold State.endPair
  split
  · exact h.modSite
  · exact h

theorem Origin.Keeps.queueFill {g k p : Nat} (h : o.Keeps s) : o.Keeps (s.queueFill g k p).1 := by
  unfold State.queueFill
  extract_lets s1
  have h1 : o.Keeps s1 := h.modRegion
  refine .ite_fst h1.repairOverflow ?_
  split
  · exact .pair h1.placeAt.modRegion
  · exact .ite_fst h1 (.pair h1.modRegion)

theorem Origin.Keeps.restartFill {g k p : Nat} (h : o.Keeps s) : o.Keeps (s.restartFill g k p).1 := by
  unfold State.restartFill
  dsimp only
  refine .reportSite (.modRegion ?_)
  split
  · exact h.placeAt
  · exact h

theorem Origin.Keeps.queueFull {g : Nat} (h : o.Keeps s) : o.Keeps (s.queueFull g) := .ite h (.ite h.repairOverflow h.modRegion)

theorem Origin.Keeps.rerouteRegion {g : Nat} (h : o.Keeps s) : o.Keeps (s.rerouteRegion g) := by
  unfold State.rerouteRegion
  split
  · exact h
  · refine .ite h ?_
    split
    next e1 => exact h.reroute.fst e1
    next e1 => exact (h.reroute.fst e1).queueFull

theorem Origin.Keeps.dropPairs {g p : Nat} (h : o.Keeps s) : o.Keeps (s.dropPairs g p) := by
  unfold State.dropPairs
  exact (h.foldl fun _ _ h => h.endPair).modRegion

theorem Origin.Keeps.fenceSite {k cls kind : Nat} (h : o.Keeps s) : o.Keeps (s.fenceSite k cls kind) := by
  unfold State.fenceSite
  extract_lets g p x tile held part bound s1 s2
  have h2 : o.Keeps s2 := h.modSite.newGen.unVigil.dropPairs
  refine .ite h ?_
  split
  next s3 q e =>
    have h3 : o.Keeps s3 := Origin.Keeps.fst (.ite_fst h2.restartFill (.ite_fst h2.queueFill h2)) e
    extract_lets s4 s5 good s6 s7 s8 s9
    have h4 : o.Keeps s4 := by
      cases q with
      | none => exact h3
      | some q => exact h3.moveWindows
    have h5 : o.Keeps s5 := .ite h4.rerouteRegion h4
    exact h5.reportOp.event.event.flash.spareEvents

theorem Origin.Keeps.unrepro {k : Nat} (h : o.Keeps s) : o.Keeps (s.unrepro k) := .ite h.modSite.planFence h.modSite
theorem Origin.Keeps.markShadow {p : Nat} (h : o.Keeps s) : o.Keeps (s.markShadow p) := h.modJob

theorem Origin.Keeps.resolveRec {cls key kP kV : Nat} {t3 : Option Nat} {outcome : Nat}
    (h : o.Keeps s) : o.Keeps (s.resolveRec cls key kP kV t3 outcome) := h.reportSite

theorem Origin.Keeps.resolvePair {g p : Nat} {x : Nat × Nat × Nat × Option Nat} (h : o.Keeps s) : o.Keeps (s.resolvePair g p x).1 := by
  unfold State.resolvePair
  extract_lets kP kV sP sV
  split
  · extract_lets kT sT
    exact .ite_fst (.pair h.unrepro.unrepro.endPair.resolveRec) (.ite_fst (.pair h.endPair.resolveRec) (.ite_fst (.pair h.endPair.resolveRec)
      (.ite_fst (.pair h.markShadow.endPair.resolveRec) (.pair h.markShadow.endPair.resolveRec))))
  · exact .ite_fst (.pair h.unrepro.unrepro) (.pair h.markShadow.resolveRec)

theorem Origin.Keeps.vigilRegion {p g : Nat} (h : o.Keeps s) : o.Keeps (s.vigilRegion p g).1 :=
    .foldl (.modRegion (.foldl_fst h fun _ _ h => h.resolvePair)) fun _ _ h => .ite h h.reportSite.markShadow.modRegion

theorem Origin.Keeps.sealSigmas {p : Nat} (h : o.Keeps s) : o.Keeps (s.sealSigmas p) := h.foldl fun _ _ h => h.modSite.modSite

theorem Origin.Keeps.setAnchor {p chunk : Nat} {e : BitVec 64} (h : o.Keeps s) : o.Keeps (s.setAnchor p chunk e) := by
  unfold State.setAnchor
  dsimp only
  split
  · exact h
  · exact .ite h.modJob.classWrite h.modJob

theorem Origin.Keeps.writeBack {p k gran : Nat} (h : o.Keeps s) : o.Keeps (s.writeBack p k gran) := by
  unfold State.writeBack
  dsimp only
  split
  · exact h
  · split
    · exact h
    · exact .modSite (.granCarry (.eccRange (.ite h h.modJob)))

theorem Origin.Keeps.residue {p : Nat} (h : o.Keeps s) : o.Keeps (s.residue p) := (h.foldl fun _ _ h => h.foldl fun _ _ h => h.writeBack).modSites

theorem Origin.Keeps.writeClasses {p : Nat} (h : o.Keeps s) : o.Keeps (s.writeClasses p) := by
  unfold State.writeClasses
  dsimp only
  split
  · exact h
  · exact (((h.foldl fun _ _ h => h.classWrite).foldl fun _ _ h => h.classWrite).classWrite.classWrite.foldl fun _ _ h => h.classWrite).modJob

theorem Origin.Keeps.closeStep {p : Nat} {forced : Bool} (h : o.Keeps s) : o.Keeps (s.closeStep p forced) := by
  unfold State.closeStep
  dsimp only
  split
  · exact h
  · refine .foldl (.ite ?_ (.mapFlush ?_)) fun _ _ h => h.fenceSite
    · split
      · exact .modJob (.writePrepared (.writeClasses (.modJob (.ite_fst (h.modJob.residue.sealSigmas.modJob.foldl fun _ _ h => (h.foldl
        fun _ _ h => h.endPair).modRegion) (.foldl_fst h.modJob.residue.sealSigmas.modJob fun _ _ h => h.vigilRegion)))))
      · exact .writePrepared (.writeClasses (.modJob (.ite_fst (h.modJob.residue.sealSigmas.modJob.foldl fun _ _ h => (h.foldl
        fun _ _ h => h.endPair).modRegion) (.foldl_fst h.modJob.residue.sealSigmas.modJob fun _ _ h => h.vigilRegion))))
    · split
      · exact .modJob (.writePrepared (.writeClasses (.modJob (.ite_fst (h.modJob.residue.sealSigmas.modJob.foldl fun _ _ h => (h.foldl
        fun _ _ h => h.endPair).modRegion) (.foldl_fst h.modJob.residue.sealSigmas.modJob fun _ _ h => h.vigilRegion)))))
      · exact .writePrepared (.writeClasses (.modJob (.ite_fst (h.modJob.residue.sealSigmas.modJob.foldl fun _ _ h => (h.foldl
        fun _ _ h => h.endPair).modRegion) (.foldl_fst h.modJob.residue.sealSigmas.modJob fun _ _ h => h.vigilRegion))))

theorem Origin.Keeps.forceClose {p : Nat} (h : o.Keeps s) : o.Keeps (s.forceClose p) := by
  unfold State.forceClose
  dsimp only
  split
  · exact h
  · exact .ite h.modJob.stopPart.flush.closeStep.watchMet h.flush

theorem Origin.Keeps.fenceNow {k cls kind : Nat} (h : o.Keeps s) : o.Keeps (s.fenceNow k cls kind) := .ite h h.forceClose.mapFlush.fenceSite
theorem Origin.Keeps.configFault {k unit cause cls : Nat} (h : o.Keeps s) : o.Keeps (s.configFault k unit cause cls) :=
  h.reportSite.modSite.forceClose

/-! ## Almanac entries -/

theorem Origin.Keeps.almCount {p i n : Nat} (h : o.Keeps s) : o.Keeps (s.almCount p i n) := h.modPart.ovfIf
theorem Origin.Keeps.watchOrphan {f : Nat → Bool} (h : o.Keeps s) : o.Keeps (s.watchOrphan f) := h.foldl fun _ _ h => h.modPart

theorem Origin.Keeps.watchLate {p : Nat} {w : Watch} (h : o.Keeps s) : o.Keeps (s.watchLate p w) :=
    .report (.almCount (.ite h.modPart h.modPart.modAlm.unwatch))

theorem Origin.Keeps.prewarnRegion {g code : Nat} (h : o.Keeps s) : o.Keeps (s.prewarnRegion g code) := h.modRegion

end Sys2Proof.Machine
end

section
/-! PROOFS. What every row keeps, on: the commit, the Heralds, and the units of a tile. -/

namespace Sys2Proof.Machine

variable {o : Origin} {s : State}

/-! ## The commit -/

theorem execCalendsClose_answers {t p : Nat} (h : o.Keeps s) : o.Answers (execCalendsClose t p s) := by
  unfold execCalendsClose
  dsimp only
  refine .next ?_
  split
  · exact h.adv
  · refine .ite (.watchMet ?_) h.adv
    split
    · exact h.adv.configFault
    · exact h.adv.closeStep

theorem Origin.Keeps.sendVotes {p : Nat} {j : Job} {v : Vote} (h : o.Keeps s) : o.Keeps (s.sendVotes p j v) := h.injects

theorem execVoteSend_answers {t p : Nat} (h : o.Keeps s) : o.Answers (execVoteSend t p s) := by
  unfold execVoteSend
  dsimp only
  refine .next ?_
  split
  · exact h.adv
  · split
    · exact h.adv
    · exact .ite h.adv.sendVotes.modJob h.adv

theorem execOutcomeQueryTimeout_answers {t p : Nat} (h : o.Keeps s) : o.Answers (execOutcomeQueryTimeout t p s) := by
  unfold execOutcomeQueryTimeout
  dsimp only
  refine .next ?_
  split
  · exact h.adv
  · split
    · exact .ite h.adv.injects.modJob h.adv
    · exact h.adv

theorem execHeraldSilent_answers {t p : Nat} (h : o.Keeps s) : o.Answers (execHeraldSilent t p s) := by
  unfold execHeraldSilent
  dsimp only
  refine .next ?_
  split
  · exact h.adv
  · split
    · exact h.adv
    · exact .ite h.adv.modJob.report.event h.adv

theorem Origin.Keeps.keepOutcome {o' : OutcomePkt} (h : o.Keeps s) : o.Keeps (s.keepOutcome o') := h.outcomes
theorem Origin.Keeps.lastClean {ks : List Nat} {step : Nat} (h : o.Keeps s) : o.Keeps (s.lastClean ks step) := h.foldl fun _ _ h => h.modSite

theorem Origin.Keeps.mirrorPend {p : Nat} {masks : Tbl (BitVec 64)} {step : Nat} {sealing : Bool}
    (h : o.Keeps s) : o.Keeps (s.mirrorPend p masks step sealing) := .ite h.modTwin.modJob h.modJob

theorem Origin.Keeps.vigilGate {p : Nat} (h : o.Keeps s) : o.Keeps (s.vigilGate p) := h.foldl fun _ _ h => h.vigilSelect

theorem Origin.Keeps.loadSlice {p k g : Nat} (h : o.Keeps s) : o.Keeps (s.loadSlice p k g) := by
  unfold State.loadSlice
  dsimp only
  split
  · exact (h.foldl fun _ _ h => h.granLoad).modSite
  · exact h

theorem Origin.Keeps.reloadSite {p k : Nat} (h : o.Keeps s) : o.Keeps (s.reloadSite p k) := by
  unfold State.reloadSite
  dsimp only
  split
  · exact h.loadSlice.modSite
  · exact h

theorem Origin.Keeps.loadSeqs {p : Nat} (h : o.Keeps s) : o.Keeps (s.loadSeqs p) := h.foldl fun _ _ h => h.loadSlice

theorem execSealOutcome_answers {t p : Nat} {o' : OutcomePkt} (h : o.Keeps s) : o.Answers (execSealOutcome t p o' s) := by
  unfold execSealOutcome
  extract_lets s1
  have h1 : o.Keeps s1 := h.adv
  refine .next ?_
  split
  · exact h1
  · exact .ite h1.keepOutcome
      (.ite h1.keepOutcome.modJob.ledgerOut.modJob.lastClean.event.mirrorPend.loadSeqs.vigilGate.modPart h1.keepOutcome)

theorem Origin.Keeps.placeThird {g : Nat} (h : o.Keeps s) : o.Keeps (s.placeThird g) := by
  unfold State.placeThird
  dsimp only
  refine (h.modRegion.foldl fun _ _ h => ?_).rerouteRegion
  split
  · exact h.moveTo.modSite.modRegion
  · exact h.modRegion

theorem execReplayOutcome_answers {t p : Nat} {o' : OutcomePkt} (h : o.Keeps s) : o.Answers (execReplayOutcome t p o' s) := by
  unfold execReplayOutcome
  dsimp only
  refine .next ?_
  split
  · exact h.adv
  · exact .ite (.ite h.adv.keepOutcome.discardAttempt (h.adv.keepOutcome.discardAttempt.stopPart.flush.foldl
    fun _ _ h => h.placeThird).modJob) h.adv.keepOutcome

theorem Origin.Keeps.raiseAnchor {p : Nat} {e : Nat × Int} (h : o.Keeps s) : o.Keeps (s.raiseAnchor p e) := by
  unfold State.raiseAnchor
  split
  · exact h.setAnchor
  · exact h

theorem Origin.Keeps.reloadPart {p : Nat} (h : o.Keeps s) : o.Keeps (s.reloadPart p) := h.foldl fun _ _ h => h.reloadSite

theorem execReplayStart_answers {t p : Nat} (h : o.Keeps s) : o.Answers (execReplayStart t p s) := by
  unfold execReplayStart
  dsimp only
  refine .next ?_
  split
  · exact h.adv
  · exact .ite (h.adv.reloadPart.foldl fun _ _ h => h.raiseAnchor).modJob.modPart h.adv

theorem execHoldOutcome_answers {t p : Nat} {o' : OutcomePkt} (h : o.Keeps s) : o.Answers (execHoldOutcome t p o' s) := by
  unfold execHoldOutcome
  dsimp only
  refine .next ?_
  split
  · exact h.adv
  · exact .ite (.ite h.adv.keepOutcome.event.discardAttempt.modJob
    (.ite h.adv.keepOutcome.event.modJob h.adv.keepOutcome.event.modJob)) h.adv.keepOutcome

theorem execAbandonOutcome_answers {t p : Nat} {o' : OutcomePkt} (h : o.Keeps s) : o.Answers (execAbandonOutcome t p o' s) := by
  unfold execAbandonOutcome
  dsimp only
  refine .next ?_
  split
  · exact h.adv
  · exact .ite h.adv.keepOutcome.discardAttempt.modJob h.adv.keepOutcome

theorem execWbWriteBack_answers {t site : Nat} (h : o.Keeps s) : o.Answers (execWbWriteBack t site s) := by
  unfold execWbWriteBack
  dsimp only
  refine .next ?_
  split
  · exact h.adv
  · split
    · exact h.adv.modSite
    · exact .ite h.adv.modSite.writeBack h.adv.modSite

theorem Origin.Keeps.vigilReads {k : Nat} (h : o.Keeps s) : o.Keeps (s.vigilReads k) := h.bankRead.eccRange

theorem execVigilLoad_answers {t g : Nat} (h : o.Keeps s) : o.Answers (execVigilLoad t g s) := by
  unfold execVigilLoad
  dsimp only
  refine .next ?_
  split
  · exact h.adv
  · split
    · exact h.adv
    · exact .ite (h.adv.vigilAssign.foldl fun _ _ h => h.vigilReads.modSite).modRegion h.adv

theorem Origin.Keeps.freshValues {p : Nat} (h : o.Keeps s) : o.Keeps (s.freshValues p) := h.modSites

theorem execStepRelease_answers {t p : Nat} (h : o.Keeps s) : o.Answers (execStepRelease t p s) := by
  unfold execStepRelease
  dsimp only
  refine .next ?_
  split
  · exact h.adv
  · refine .ite ?_ h.adv
    split
    · exact .finish (.modPart (.modJob (.ite (((h.adv.modSites.freshValues.clearBarriers.foldl fun _ _ h => h.vigilAssign.modRegion).foldl
      fun _ _ h => h.modSite).foldl fun _ _ h => h.foldl fun _ _ h => h.modSite).watchMet.modPart
        (((h.adv.modSites.freshValues.clearBarriers.foldl fun _ _ h => h.vigilAssign.modRegion).foldl fun _ _ h => h.modSite).foldl
          fun _ _ h => h.foldl fun _ _ h => h.modSite))))
    · exact .modPart (.modJob (.ite (((h.adv.modSites.freshValues.clearBarriers.foldl fun _ _ h => h.vigilAssign.modRegion).foldl
      fun _ _ h => h.modSite).foldl fun _ _ h => h.foldl fun _ _ h => h.modSite).watchMet.modPart
        (((h.adv.modSites.freshValues.clearBarriers.foldl fun _ _ h => h.vigilAssign.modRegion).foldl fun _ _ h => h.modSite).foldl
          fun _ _ h => h.foldl fun _ _ h => h.modSite)))

/-! ## Heralds and outcomes -/

theorem Origin.Keeps.strayVote (h : o.Keeps s) : o.Keeps s.strayVote := h.modHub.ovfIf
theorem Origin.Keeps.broadcast {ms : List Nat} {o' : OutcomePkt} (h : o.Keeps s) : o.Keeps (s.broadcast ms o') := h.injects

theorem Origin.Keeps.heraldStats {g : Nat} {w : Window} (h : o.Keeps s) : o.Keeps (s.heraldStats g w) := by
  unfold State.heraldStats
  dsimp only
  split
  · exact h
  · exact (h.setHerald.foldl fun _ _ h => h.foldl fun _ _ h => h.ovfEvent).foldl fun _ _ h => h.event

theorem Origin.Keeps.decideWindow {g : Nat} {w : Window} (h : o.Keeps s) : o.Keeps (s.decideWindow g w) := by
  unfold State.decideWindow
  dsimp only
  split
  · exact h
  · exact h.setHerald.broadcast.heraldStats

theorem Origin.Keeps.lateVote {v : Vote} (h : o.Keeps s) : o.Keeps (s.lateVote v) := by
  unfold State.lateVote
  dsimp only
  split
  · exact h
  · exact .ite h h.setHerald.ovfIf

theorem Origin.Keeps.acceptVote {v : Vote} (h : o.Keeps s) : o.Keeps (s.acceptVote v) := by
  unfold State.acceptVote
  dsimp only
  split
  · exact h
  · exact .ite h.lateVote (.ite h.decideWindow.lateVote (.ite h (.ite h.setHerald.decideWindow h.setHerald)))

theorem execVoteReceive_answers {t : Nat} {v : Vote} (h : o.Keeps s) : o.Answers (execVoteReceive t v s) :=
    .next (.ite h.adv.acceptVote h.adv.strayVote)

theorem execVoteDeadlineExpire_answers {t g step attempt : Nat} (h : o.Keeps s) : o.Answers (execVoteDeadlineExpire t g step attempt s) := by
  unfold execVoteDeadlineExpire
  dsimp only
  refine .next ?_
  split
  · exact h.adv
  · split
    · exact .ite h.adv.decideWindow h.adv
    · exact h.adv

theorem execHeraldQueryReceive_answers {t : Nat} {v : Vote} (h : o.Keeps s) : o.Answers (execHeraldQueryReceive t v s) := by
  unfold execHeraldQueryReceive
  dsimp only
  refine .next (.ite h.adv.strayVote ?_)
  split
  · exact h.adv
  · refine .ite ?_ h.adv.acceptVote
    split
    · exact h.adv.lateVote.inject
    · exact h.adv.lateVote

theorem Origin.Keeps.holdRelease {g action attempt step : Nat} (h : o.Keeps s) : o.Keeps (s.holdRelease g action attempt step).1 := by
  unfold State.holdRelease
  dsimp only
  split
  · exact h
  · split
    · exact h
    · exact .ite_fst h (.ite_fst h h.setHerald.broadcast)

theorem Origin.Keeps.addHerald {g : GroupDef} (h : o.Keeps s) : o.Keeps (s.addHerald g) := by
  unfold State.addHerald
  exact h.setHerald.modHub
theorem Origin.Keeps.dropHerald {g : Nat} (h : o.Keeps s) : o.Keeps (s.dropHerald g) := by
  unfold State.dropHerald
  exact h.setHerald.modHub

theorem Origin.Keeps.openHeralds {gs : List GroupDef} (h : o.Keeps s) : o.Keeps (s.openHeralds gs) := by
  unfold State.openHeralds
  extract_lets s1
  have h1 : o.Keeps s1 := h.foldl fun _ _ h => h.setHerald
  split
  exact h1.of_eq

theorem Origin.Keeps.closeHeralds {p : Nat} (h : o.Keeps s) : o.Keeps (s.closeHeralds p) := by
  unfold State.closeHeralds
  split
  · exact h.foldl fun _ _ h => h.dropHerald
  · exact h

/-! ## Tiles -/

theorem Origin.Keeps.sliceWrite {k a : Nat} {bs : List Byte} (h : o.Keeps s) : o.Keeps (s.sliceWrite k a bs) := by
  unfold State.sliceWrite
  exact h.eccWrite.modSite

theorem Origin.Keeps.putTag {k a : Nat} {tag : Option A64Tag} (h : o.Keeps s) : o.Keeps (s.putTag k a tag) := by
  unfold State.putTag
  dsimp only
  split
  · exact h.modSite
  · exact h

theorem Origin.Keeps.signalRange {k sig src : Nat} (h : o.Keeps s) : o.Keeps (s.signalRange k sig src) := h.reportSite.faultAsIdes
theorem Origin.Keeps.raise {k sig amount src : Nat} (h : o.Keeps s) : o.Keeps (s.raise k sig amount src) := .ite h.signalRange h.modSite

theorem Origin.Keeps.fwdApply {v : Nat} {i : FwdItem} (h : o.Keeps s) : o.Keeps (s.fwdApply v i) := by
  unfold State.fwdApply
  dsimp only
  split
  · exact h.modSite
  · exact h.modSite
  · exact h.raise
  · exact h.modSite
  · exact h.sliceWrite
  · exact h.modSite

theorem Origin.Keeps.forward {k : Nat} {i : FwdItem} (h : o.Keeps s) : o.Keeps (s.forward k i) := h.foldl fun _ _ h => h.fwdApply

theorem Origin.Keeps.takeEj {k q j : Nat} {x : Elem × State} (h : o.Keeps s) (e : s.takeEj k q j = some x) : o.Keeps x.2 := by
  unfold State.takeEj at e
  split at e
  · cases e
  · cases e
    exact .paired h.modSite.forward

theorem Origin.Keeps.takeStream {k c : Nat} {x : Elem × State} (h : o.Keeps s) (e : s.takeStream k c = some x) : o.Keeps x.2 := by
  unfold State.takeStream at e
  split at e
  · cases e
  · cases e
    exact .paired h.modSite

theorem Origin.Keeps.takeIn {k : Nat} {r : InRef} {x : Elem × State} (h : o.Keeps s) (e : s.takeIn k r = some x) : o.Keeps x.2 := by
  unfold State.takeIn at e
  split at e
  · exact h.takeEj e
  · exact h.takeStream e
  · cases e

theorem Origin.Keeps.takeN {k : Nat} {r : InRef} {n : Nat} {x : List Elem × State} (h : o.Keeps s) (e : s.takeN k r n = some x) : o.Keeps x.2 := by
  induction n generalizing s x with
  | zero => cases e; exact h
  | succ n ih =>
    unfold State.takeN at e
    split at e
    · cases e
    · next hin =>
      split at e
      · cases e
      · split at e
        · cases e
        · next hrest =>
          cases e
          have h2 := ih (h.takeIn hin) hrest
          exact h2

theorem Origin.Keeps.applyStep {g : Nat} (h : o.Keeps s) : o.Keeps (s.applyStep g) := h.modRegion
theorem Origin.Keeps.lentEnter {g : Nat} (h : o.Keeps s) : o.Keeps (s.lentEnter g) := (h.draw 32).modRegion.power
theorem Origin.Keeps.lentRestore (h : o.Keeps s) : o.Keeps s.lentRestore := (h.foldl fun _ _ h => h.modRegion.applyStep).power
theorem Origin.Keeps.lentExit {g : Nat} (h : o.Keeps s) : o.Keeps (s.lentExit g) := .ite h.lentRestore.power.modRegion.applyStep h
theorem Origin.Keeps.lentTry {g : Nat} (h : o.Keeps s) : o.Keeps (s.lentTry g) := .ite h.lentEnter h

/-! ## The fabric of a tile -/

theorem Origin.Keeps.tryGrant {k q i : Nat} (h : o.Keeps s) : o.Keeps (s.tryGrant k q i) := .ite (h.foldl fun _ _ h => h.modSite).modSite h

theorem Origin.Keeps.switchIn {k q i : Nat} (h : o.Keeps s) : o.Keeps (s.switchIn k q i) := by
  unfold State.switchIn
  dsimp only
  refine .ite ?_ h
  split
  · exact h.modSite
  · exact .ite h.modSite h.modSite.tryGrant

theorem Origin.Keeps.switchEj {k q j : Nat} (h : o.Keeps s) : o.Keeps (s.switchEj k q j) := by
  unfold State.switchEj
  dsimp only
  refine .ite ?_ h
  split
  · exact h.modSite
  · exact h.modSite.tryGrant

theorem execPortSwitch_answers {t site plane port : Nat} {inject : Bool} (h : o.Keeps s) : o.Answers (execPortSwitch t site plane port inject s) :=
    .next (.ite h.adv.switchIn h.adv.switchEj)

theorem execCreditReturn_answers {t site plane port : Nat} (h : o.Keeps s) : o.Answers (execCreditReturn t site plane port s) :=
    .next (.ite (.ite (h.adv.foldl fun _ _ h => h.modSite).configFault (h.adv.foldl fun _ _ h => h.modSite).modSite) h.adv)

theorem Origin.Keeps.loadShadow {k : Nat} (h : o.Keeps s) : o.Keeps (s.loadShadow k) := by
  unfold State.loadShadow
  dsimp only
  split
  · exact h
  · split
    · exact h
    · exact .ite h.modSite.modPart h

theorem execShadowLoad_answers {t site : Nat} (h : o.Keeps s) : o.Answers (execShadowLoad t site s) := .next h.adv.loadShadow

theorem Origin.Keeps.afterSwitch {k u : Nat} {old : BitVec 512} (h : o.Keeps s) : o.Keeps (s.afterSwitch k u old) := by
  unfold State.afterSwitch
  dsimp only
  refine .ite h.modSite (.ite h.modSite (.ite h.modSite (.ite h.modSite (.ite h.modSite (.ite ?_ h)))))
  split
  · exact h.lentExit.modSite
  · exact h

theorem Origin.Keeps.tileComplete {k : Nat} {before : BitVec 16} (h : o.Keeps s) : o.Keeps (s.tileComplete k before) := by
  unfold State.tileComplete
  dsimp only
  refine .ite h ?_
  split
  · exact h.modSite
  · split
    · exact h.modSite
    · exact .ite h.modSite.modJob.watchMet h.modSite

theorem Origin.Keeps.outSwitched {k u : Nat} (h : o.Keeps s) : o.Keeps (s.outSwitched k u) := by
  unfold State.outSwitched
  split
  · split
    · exact h
    · refine h.foldl fun _ _ h => ?_
      split
      · exact h.tryGrant
      · exact h
  · exact h

theorem Origin.Keeps.phaseBegins {k : Nat} {e : BitVec 16} (h : o.Keeps s) : o.Keeps (s.phaseBegins k e) := by
  unfold State.phaseBegins
  dsimp only
  split
  · exact h
  · exact h.modJob

theorem Origin.Keeps.evePassed {outs : List (Nat × Nat)} {e : BitVec 16} (h : o.Keeps s) : o.Keeps (s.evePassed outs e) :=
    h.foldl fun _ _ h => .outSwitched (.tileComplete (.ite h.modSite.phaseBegins h.modSite))

theorem execRouteElementSend_answers {t site plane port : Nat} (h : o.Keeps s) : o.Answers (execRouteElementSend t site plane port s) := by
  unfold execRouteElementSend
  dsimp only
  refine .next ?_
  split
  · exact .ite (.ite (h.adv.modSite.foldl fun _ _ h => h.modSite).evePassed (h.adv.modSite.foldl fun _ _ h => h.modSite)) h.adv
  · exact h.adv

theorem Origin.Keeps.emitEves {k u : Nat} (h : o.Keeps s) : o.Keeps (s.emitEves k u) := h.modSite
theorem Origin.Keeps.eveOwed {k u : Nat} (h : o.Keeps s) : o.Keeps (s.eveOwed k u) := .ite h.emitEves h

theorem Origin.Keeps.chansSwitch {k : Nat} {e : BitVec 16} (h : o.Keeps s) : o.Keeps (s.chansSwitch k e) :=
    h.foldl fun _ _ h => .ite h.modSite.afterSwitch h

theorem Origin.Keeps.unitSwitch {k u : Nat} (h : o.Keeps s) : o.Keeps (s.unitSwitch k u) := by
  unfold State.unitSwitch
  dsimp only
  refine .ite (.outSwitched (.tileComplete (.afterSwitch (.phaseBegins (.ite (h.foldl fun _ _ h => ?_).modSite.chansSwitch (h.foldl
    fun _ _ h => ?_).modSite))))) (.tileComplete (.afterSwitch (.phaseBegins (.ite (h.foldl fun _ _ h => ?_).modSite.chansSwitch (h.foldl
      fun _ _ h => ?_).modSite))))
  · split
    next e => exact h.takeIn e
    · exact h
  · split
    next e => exact h.takeIn e
    · exact h
  · split
    next e => exact h.takeIn e
    · exact h
  · split
    next e => exact h.takeIn e
    · exact h

theorem execUnitSwitch_answers {t site unit : Nat} (h : o.Keeps s) : o.Answers (execUnitSwitch t site unit s) :=
    .next (.ite (.ite h.adv.eveOwed.unitSwitch h.adv.eveOwed) h.adv)

theorem execCounterAdvance_answers {t site n : Nat} (h : o.Keeps s) : o.Answers (execCounterAdvance t site n s) := by
  unfold execCounterAdvance
  refine .next (.ite ?_ h.adv)
  split
  · exact h.adv
  · next y e =>
    have h1 := h.adv (t := t)
    have h2 : o.Keeps y := by
      refine .ite_some (.ite_some (.of_some h1) .of_none) (.ite_some (fun x e => ?_) (.ite_some (.of_some h1.modSite) .of_none)) y e
      split at e
      · next e' => cases e; exact h1.takeN e'
      · cases e
    extract_lets s2 s3
    have h3 : o.Keeps s3 := .ite h2.modSite.modSite.raise h2.modSite
    exact .ite h3.eveOwed h3

theorem execSteerFire_answers {t site n : Nat} (h : o.Keeps s) : o.Answers (execSteerFire t site n s) := by
  unfold execSteerFire
  extract_lets s1 x u kind nsel dp ctrl din dout
  have h1 : o.Keeps s1 := h.adv
  refine .next (.ite ?_ h1)
  split
  · next s2 e =>
    have h2 : o.Keeps s2 := h1.takeN e
    extract_lets tag sel pass last needs taken
    refine .ite h1.configFault ?_
    have htaken : ∀ y, taken = some y → o.Keeps y.2 := by
      refine List.foldlRecOn (motive := fun a => ∀ y : List Elem × State, a = some y → o.Keeps y.2) _ _ ?first ?more
      case first => rintro _ ⟨⟩; exact h2
      case more =>
        intro a ha r _ y e
        split at e
        · cases e
        · split at e
          · next e' =>
            cases e
            have h3 := (ha _ rfl).takeN e'
            exact h3
          · cases e
    split
    · exact h1
    · next es s3 e =>
      have h3 : o.Keeps s3 := by
        split at e
        · exact htaken _ e
        · cases e
      exact .ite (.modSite (.ite h2 h3)) h1
  · exact h1

theorem Origin.Keeps.drainIn {k : Nat} {r : InRef} (h : o.Keeps s) : o.Keeps (s.drainIn k r) := by
  unfold State.drainIn
  dsimp only
  split
  next e => exact (h.takeN e).modSite
  · exact h

theorem execEveTokenHead_answers {t site unit : Nat} (h : o.Keeps s) : o.Answers (execEveTokenHead t site unit s) := by
  unfold execEveTokenHead
  dsimp only
  refine .next (.ite h.adv ?_)
  split
  · refine .ite ?_ h.adv.configFault
    split
    next e1 => exact (h.adv.takeIn e1).modSite
    · exact h.adv
  · exact .ite (.ite (.ite (h.adv.foldl fun _ _ h => h.drainIn).eveOwed.unitSwitch (h.adv.foldl
    fun _ _ h => h.drainIn).eveOwed) h.adv.configFault) h.adv

/-! ## Patches and vectors -/

theorem Origin.Keeps.patchTake {k c need : Nat} {buf scl : List Byte} {x : List Byte × List Byte × State} (h : o.Keeps s)
    (e : s.patchTake k c need buf scl = some x) : o.Keeps x.2.2 := by
  unfold State.patchTake at e
  obtain ⟨r, hr, rfl⟩ := Option.map_eq_some_iff.mp e
  exact h.takeN hr

theorem execPatchKgroup_answers {t site : Nat} (h : o.Keeps s) : o.Answers (execPatchKgroup t site s) := by
  unfold execPatchKgroup
  extract_lets s1 x w mode fa fb pl first na nb nsa nsb
  have h1 : o.Keeps s1 := h.adv
  refine .next (.ite ?_ h1)
  split
  · exact h1
  · next s2 e2 =>
    have h2 : o.Keeps s2 := h1.patchTake e2
    split
    · exact h1
    · next s3 e3 =>
      have h3 : o.Keeps s3 := h2.patchTake e3
      split
      · exact h1
      · next s4 e4 =>
        have h4 : o.Keeps s4 := by
          split at e4
          · exact h3.patchTake e4
          · cases e4; exact h3
        exact h4.modSite

theorem Origin.Keeps.takeBeats {k : Nat} {cs : List Nat} {x : List (Nat × List Elem) × State} (h : o.Keeps s)
    (e : s.takeBeats k cs = some x) : o.Keeps x.2 := by
  induction cs generalizing s x with
  | nil => cases e; exact h
  | cons c cs ih =>
    unfold State.takeBeats at e
    split at e
    · cases e
    · next hbeat =>
      split at e
      · cases e
      · next hrest =>
        cases e
        have h2 := ih (h.takeN hbeat) hrest
        exact h2

theorem execVectorBeat_answers {t site : Nat} (h : o.Keeps s) : o.Answers (execVectorBeat t site s) := by
  unfold execVectorBeat
  dsimp only
  refine .next (.ite ?_ h.adv)
  split
  · exact h.adv
  next e => exact .ite (h.adv.takeBeats e).modSite h.adv

/-! ## Memory units -/

theorem execSliceAccessGrant_answers {t site : Nat} {wreq nreq : List SliceReq} {hits : List (Nat × List Byte)}
    (h : o.Keeps s) : o.Answers (execSliceAccessGrant t site wreq nreq hits s) := by
  unfold execSliceAccessGrant
  dsimp only
  refine .next ?_
  split
  · exact h.adv.disturbs.modSite
  · exact h.adv.disturbs.modSite.grantEcc

theorem Origin.Keeps.scatter {k : Nat} {addrs : List Nat} {bs : List Byte} {column : Bool} (h : o.Keeps s) : o.Keeps (s.scatter k addrs bs column) :=
    by
  unfold State.scatter
  refine .ite (h.foldl fun _ _ h => h.sliceWrite) ?_
  split
  · exact h
  · exact h.sliceWrite

theorem Origin.Keeps.agEnd {k n : Nat} (h : o.Keeps s) : o.Keeps (s.agEnd k n) := .raise (.ite h.modSite.modSite h.modSite)

theorem Origin.Keeps.agStep {k n cfg : Nat} {wrote cols : List Nat} (h : o.Keeps s) : o.Keeps (s.agStep k n cfg wrote cols) := by
  unfold State.agStep
  dsimp only
  split
  · exact h.modSite
  · exact h.modSite.agEnd

theorem Origin.Keeps.agStore {k n cfg a sa : Nat} {bs scales : List Byte} {tag : Option A64Tag}
    (h : o.Keeps s) : o.Keeps (s.agStore k n cfg a sa bs scales tag) := by
  unfold State.agStore
  exact .modSite (.ite h.scatter.putTag h.scatter.putTag.sliceWrite)

theorem Origin.Keeps.agAccess {k n sa nsc : Nat} {addrs : List Nat} (h : o.Keeps s) : o.Keeps (s.agAccess k n sa nsc addrs) :=
    .ite h.bankRead h.bankRead

theorem execAgIteration_answers {t site n : Nat} (h : o.Keeps s) : o.Answers (execAgIteration t site n s) := by
  unfold execAgIteration
  dsimp only
  refine .next (.ite h.adv (.ite (.ite (.eveOwed (.agStep (.modSite (.ite h.adv h.adv.agAccess)))) h.adv) (.ite ?_ (.ite h.adv.agStep
    (.ite h.adv.agStore.agStep h.adv.agAccess.agStore.agStep.modSite)))))
  split
  · exact h.adv
  · split
    · exact h.adv
    next e1 => exact .ite (h.adv.takeN e1).agStep (.ite (h.adv.takeN e1).modSite.ovfIf.agStep (h.adv.takeN e1).agStore.agStep)

end Sys2Proof.Machine
end

section
/-! PROOFS. What every row keeps, on: repair, the ports, alarms, power, the sequencer, channels, links, routers and the Xmln instructions. -/

namespace Sys2Proof.Machine

variable {o : Origin} {s : State}

/-! ## Repair and placement -/

theorem execSiteFaultDetect_answers {t site cls check lane syndrome unit : Nat}
    (h : o.Keeps s) : o.Answers (execSiteFaultDetect t site cls check lane syndrome unit s) :=
  .next (.ite h.adv (.fenceNow (.ite h.adv h.adv.reportSite)))

theorem Origin.Keeps.slotStart {p kind : Nat} (h : o.Keeps s) : o.Keeps (s.slotStart p kind) := h.modPart
theorem Origin.Keeps.slotEnd {p kind : Nat} (h : o.Keeps s) : o.Keeps (s.slotEnd p kind) := .ite h.modPart.almCount h.modPart

theorem Origin.Keeps.copied {a b : Nat} (h : o.Keeps s) : o.Keeps (s.copied a b) :=
    .ite h.modSite.modSite (h.modSite.modSite.foldl fun _ _ h => h.rtrAdd)

theorem Origin.Keeps.vacate {k : Nat} {st : SiteSt} (h : o.Keeps s) : o.Keeps (s.vacate k st).1 := by
  unfold State.vacate
  dsimp only
  refine .ite_fst ?_ h.modSite.newGen.unVigil
  split
  · exact h.eccRange.moveTo.copied.rerouteRegion
  · exact h

theorem Origin.Keeps.plannedFence {k : Nat} (h : o.Keeps s) : o.Keeps (s.plannedFence k) :=
    .ite h (.slotEnd (.ite (.fenceSite (.ite_fst h.slotStart.mapFlush.vacate h.slotStart.mapFlush))
      (.ite_fst h.slotStart.mapFlush.vacate h.slotStart.mapFlush)))

theorem Origin.Keeps.bistTake {g fuel n : Nat} (h : o.Keeps s) : o.Keeps (State.bistTake g fuel n s) := by
  induction fuel generalizing s n with
  | zero => exact h
  | succ fuel ih =>
    cases n with
    | zero => exact h
    | succ n =>
      unfold State.bistTake
      extract_lets p k x next
      have hnext : ∀ {s : State}, o.Keeps s → o.Keeps (next s) := fun h => h.modRegion
      refine .ite (ih (hnext h)) ?_
      split
      · next e => exact ih (hnext (h.vacate.fst e))
      · next e => exact h.vacate.fst e

theorem Origin.Keeps.bistStart {p : Nat} (h : o.Keeps s) : o.Keeps (s.bistStart p) := by
  unfold State.bistStart
  extract_lets s1
  have h1 : o.Keeps s1 := h.slotStart.mapFlush.foldl fun _ _ h => h.bistTake
  exact .ite h1 h1.slotEnd

theorem Origin.Keeps.swapTiles {g a b : Nat} (h : o.Keeps s) : o.Keeps (s.swapTiles g a b) :=
    .ite h.eccRange.eccRange.modSite.modSite.copied.copied.newGen.placeAt.placeAt.rerouteRegion h

theorem Origin.Keeps.placeSwaps {p : Nat} (h : o.Keeps s) : o.Keeps (s.placeSwaps p) :=
    (h.slotStart.mapFlush.foldl fun _ _ h => h.swapTiles.free).slotEnd

theorem Origin.Keeps.swapTry (h : o.Keeps s) : o.Keeps s.swapTry := by
  unfold State.swapTry
  split
  · exact h.modRcfg.slotStart
  · exact h

theorem Origin.Keeps.slotWork {p : Nat} (h : o.Keeps s) : o.Keeps (s.slotWork p) :=
    .ite h (.swapTry (.ite (.bistStart (.ite h.placeSwaps h)) (.ite h.placeSwaps h)))

theorem execPlannedFence_answers {t site : Nat} (h : o.Keeps s) : o.Answers (execPlannedFence t site s) :=
    .next (.ite h.adv.plannedFence.slotWork h.adv)

theorem Origin.Keeps.placeMove {g : Nat} (h : o.Keeps s) : o.Keeps (s.placeMove g) := by
  unfold State.placeMove
  dsimp only
  split
  · exact h.unplaceable
  next e => exact .ite ((h.foldl fun _ _ h => h.eccRange).fullPlace.fst e) (((h.foldl fun _ _ h => h.eccRange).fullPlace.fst e).foldl fun _ _ h =>
    .ite h h.modSite.copied)

theorem execFullPlacement_answers {t g : Nat} (h : o.Keeps s) : o.Answers (execFullPlacement t g s) :=
    .next (.ite h.adv (.ite (.slotWork (.slotEnd (.modRegion (.placeMove (.mapFlush (.ite h.adv.slotStart h.adv)))))) (.modRegion (.placeMove
      (.mapFlush (.ite h.adv.slotStart h.adv))))))

theorem Origin.Keeps.haltFill {g p : Nat} (h : o.Keeps s) : o.Keeps (s.haltFill g p) := h.modJob.modRegion
theorem Origin.Keeps.stopFill {g p page logical a : Nat} (h : o.Keeps s) : o.Keeps (s.stopFill g p page logical a) := h.ddrUe.haltFill

theorem Origin.Keeps.fillStops {g p tile : Nat} {x : State} (h : o.Keeps s) (e : s.fillStops g p tile = some x) : o.Keeps x := by
  unfold State.fillStops at e
  split at e
  · exact Option.some.inj e ▸ h.downRefuse.haltFill
  · exact Option.some.inj e ▸ h.stopFill
  · cases e

theorem Origin.Keeps.chooseSpare {g : Nat} (h : o.Keeps s) : o.Keeps (s.chooseSpare g) := by
  unfold State.chooseSpare
  dsimp only
  split
  · refine .ite ?_ h
    split
    · exact h.mapFlush.newGen.placeAt.moveWindows.modRegion.rerouteRegion
    · exact h
  · exact h

theorem execRepairStart_answers {t g : Nat} (h : o.Keeps s) : o.Answers (execRepairStart t g s) := by
  unfold execRepairStart
  extract_lets s1 s2
  have h2 : o.Keeps s2 := Origin.Keeps.chooseSpare h.adv
  clear_value s2
  refine .next ?_
  split
  · exact .ite h2 (h2.getD fun _ e => h2.fillStops e)
  · exact h2

theorem Origin.Keeps.fillSite {p k tile : Nat} (h : o.Keeps s) : o.Keeps (s.fillSite p k tile) := by
  unfold State.fillSite
  dsimp only
  split <;> exact h.modSite

theorem execSpareFillComplete_answers {t g : Nat} (h : o.Keeps s) : o.Answers (execSpareFillComplete t g s) := by
  unfold execSpareFillComplete
  dsimp only
  refine .next ?_
  split
  · refine .ite h.adv ?_
    split
    next e1 => exact h.adv.fillStops e1
    · exact h.adv.mapFlush.fillSite.endFill.modRegion.loadShadow
  · exact h.adv

theorem Origin.Keeps.bistResult {k : Nat} {sig : BitVec 64} {memPass : Bool} {bank entry elem : Nat}
    (h : o.Keeps s) : o.Keeps (s.bistResult k sig memPass bank entry elem) :=
  .ite h.reportSite.fenceSite (.ite h.reportSite.fenceSite h.modSite.newGen)

/-! ## The wire -/

theorem Origin.Keeps.sendWire {i : Nat} {lseq : BitVec 16} {b : FlitBody} {shared : List Bool}
    (h : o.Keeps s) : o.Keeps (s.sendWire i lseq b shared) := h.modPort.emit

theorem Origin.Keeps.sendFlit {i : Nat} {b : FlitBody} (h : o.Keeps s) : o.Keeps (s.sendFlit i b) := h.sendWire
theorem Origin.Keeps.slotMark {i : Nat} (h : o.Keeps s) : o.Keeps (s.slotMark i) := h.modPort

/-! ## Packets, ports and transactions -/

theorem Origin.Keeps.pickPort {cls : Nat} {ver : Bool} {dev : Nat} (h : o.Keeps s) : o.Keeps (s.pickPort cls ver dev).2 := by
  unfold State.pickPort
  dsimp only
  split
  · exact h
  · exact .ite_snd (h.draw 16) h

theorem Origin.Keeps.retire (h : o.Keeps s) : o.Keeps s.retire := h.routing.foldl fun _ _ h => h.event
theorem Origin.Keeps.setTxn {die tag : Nat} {x : Option Txn} (h : o.Keeps s) : o.Keeps (s.setTxn die tag x) := h.dma

theorem Origin.Keeps.request {die : Nat} {x : Txn} {y : State} (h : o.Keeps s) (e : s.request die x = some y) : o.Keeps y := by
  unfold State.request at e
  split at e
  · cases e
  · cases e; exact h.setTxn.inject

theorem Origin.Keeps.requests {die : Nat} {xs : List Txn} {y : State} (h : o.Keeps s) (e : s.requests die xs = some y) : o.Keeps y := by
  unfold State.requests at e
  refine .foldl_some ?_ ?_ h e
  · intro _; rfl
  · intro _ _ _ h e
    exact h.request e

theorem Origin.Keeps.discard (h : o.Keeps s) : o.Keeps s.discard := h.routing
theorem Origin.Keeps.reply {p : Packet} {st : PStatus} {ue : Bool} (h : o.Keeps s) : o.Keeps (s.reply p st ue) := .ite h.inject h
theorem Origin.Keeps.replyData {p : Packet} {bs : List Byte} {ue : Bool} (h : o.Keeps s) : o.Keeps (s.replyData p bs ue) := h.inject
theorem Origin.Keeps.refuseDown {r : Nat} {p : Packet} (h : o.Keeps s) : o.Keeps (s.refuseDown r p) := .ite h.rtrCount.reply h.rtrCount

theorem Origin.Keeps.arrive {p : Packet} {f : Nat → State → State} (h : o.Keeps s) (hf : ∀ k {s}, o.Keeps s → o.Keeps (f k s)) :
    o.Keeps (s.arrive p f) := by
  unfold State.arrive
  exact .ite h.refuseDown (.ite h.reply (hf _ h))

theorem Origin.Keeps.dmaError {p k : Nat} {st : PStatus} {fenced : Bool} (h : o.Keeps s) : o.Keeps (s.dmaError p k st fenced) :=
    .ite h.reportSite.forceClose h.reportSite.faultAsIdes

theorem Origin.Keeps.sendHop {h' : Hop} (h : o.Keeps s) : o.Keeps (s.sendHop h') := h.routing.emit

theorem Origin.Keeps.pumpOne {i : Nat} {x : State} (h : o.Keeps s) (e : s.pumpOne i = some x) : o.Keeps x := by
  unfold State.pumpOne at e
  extract_lets port at e
  split at e
  · cases e
  · split at e
    · cases e
    · split at e
      · cases e
      · extract_lets p sh n at e
        split at e
        cases e
        exact h.modPort.sendWire.ovfIf

theorem Origin.Keeps.pumpN {i n : Nat} (h : o.Keeps s) : o.Keeps (State.pumpN i n s) := by
  induction n generalizing s with
  | zero => exact h
  | succ n ih =>
    unfold State.pumpN
    split
    · next e => exact ih (h.pumpOne e)
    · exact h

theorem Origin.Keeps.pump {i : Nat} (h : o.Keeps s) : o.Keeps (s.pump i) := h.pumpN

theorem Origin.Keeps.enqueue {i : Nat} {p : Packet} (h : o.Keeps s) : o.Keeps (s.enqueue i p) := by
  unfold State.enqueue
  dsimp only
  refine .pump (.modPort ?_)
  split
  · exact h.setTxn
  · exact h

theorem Origin.Keeps.noRoute {p : Packet} (h : o.Keeps s) : o.Keeps (s.noRoute p) := .ite h.reply h.discard

theorem Origin.Keeps.exitVia {d : Nat} {ver : Bool} {port : Option Nat} {p : Packet} (h : o.Keeps s) : o.Keeps (s.exitVia d ver port p) := by
  unfold State.exitVia
  dsimp only
  refine .ite h.rtrCount.reply ?_
  split
  · refine .noRoute ?_
    split
    · exact h
    · exact h.pickPort
  · refine .ite (.enqueue ?_) (.sendHop ?_)
    · split
      · exact h
      · exact h.pickPort
    · split
      · exact h
      · exact h.pickPort

theorem Origin.Keeps.mirrorPump {p fuel : Nat} (h : o.Keeps s) : o.Keeps (State.mirrorPump p fuel s) := by
  induction fuel generalizing s with
  | zero => exact h
  | succ fuel ih =>
    unfold State.mirrorPump
    extract_lets x
    split
    · extract_lets i
      split
      · exact h
      · extract_lets q y
        refine ih (Origin.Keeps.enqueue (Origin.Keeps.setTxn (Origin.Keeps.modTwin ?_)))
        exact h
    · exact h

theorem Origin.Keeps.mirrorGo (h : o.Keeps s) : o.Keeps s.mirrorGo := by
  unfold State.mirrorGo
  refine h.foldl ?_
  intro s p h
  exact Origin.Keeps.mirrorPump h
theorem Origin.Keeps.mirrorWritten {x : Txn} {st : PStatus} (h : o.Keeps s) : o.Keeps (s.mirrorWritten x st) := .ite h (.modTwin (.ite h.report h))

theorem Origin.Keeps.mirrorAgain {key : Nat} {y : Txn} (h : o.Keeps s) : o.Keeps (s.mirrorAgain key y) := by
  unfold State.mirrorAgain
  split
  · exact h.enqueue
  · exact h.setTxn

theorem Origin.Keeps.portLoss {i : Nat} (h : o.Keeps s) : o.Keeps (s.portLoss i) := by
  unfold State.portLoss
  dsimp only
  refine ((h.modPort.foldl fun _ _ h => .ite h.noRoute (.ite h h.exitVia)).foldl fun _ _ h => ?_).retire
  split
  · exact h
  · exact .ite h.mirrorAgain h.setTxn.exitVia

theorem Origin.Keeps.portDown {i cause : Nat} (h : o.Keeps s) : o.Keeps (s.portDown i cause) :=
    .ite h (h.modPort.report.event.portLoss.foldl fun _ _ h => h.finish)

theorem Origin.Keeps.trainStart {i : Nat} (h : o.Keeps s) : o.Keeps (s.trainStart i) := .ite h.modPort.portLoss h.modPort

theorem Origin.Keeps.xferEnd {die n : Nat} {x : Xfer} (h : o.Keeps s) : o.Keeps (s.xferEnd die n x) := by
  unfold State.xferEnd
  extract_lets d s1 p
  have h1 : o.Keeps s1 := h.dma
  clear_value s1 p
  refine .ite h1.dmaError (.ite (h1.getD ?_) h1)
  intro _ e
  exact h1.request e

theorem Origin.Keeps.finishTag {die tag : Nat} {st : PStatus} (h : o.Keeps s) : o.Keeps (s.finishTag die tag st) := by
  unfold State.finishTag
  dsimp only
  split
  · exact h
  · refine .ite (.flushEnd (.ite h.setTxn.dmaError h.setTxn)) ?_
    split
    · split
      · exact h.setTxn
      · exact .ite h.setTxn.xferEnd h.setTxn.dma
    · exact .ite h.setTxn.mirrorWritten (.ite (.ite h.setTxn.modSite h.setTxn) (.dmaError (.ite h.setTxn.modSite h.setTxn)))

/-! ## Alarms -/

theorem Origin.Keeps.modAlarm {c : Nat} {f : Alarm → Alarm} (h : o.Keeps s) : o.Keeps (s.modAlarm c f) := h.sec
theorem Origin.Keeps.stopClocks (h : o.Keeps s) : o.Keeps s.stopClocks := h.foldl fun _ _ h => h.modRegion
theorem Origin.Keeps.faultAll {cls : Nat} (h : o.Keeps s) : o.Keeps (s.faultAll cls) := h.foldl fun _ _ h => h.faultJob
theorem Origin.Keeps.setHalted {v : Bool} (h : o.Keeps s) : o.Keeps (s.setHalted v) := h.hubStatus.pins
theorem Origin.Keeps.halt {cls : Nat} (h : o.Keeps s) : o.Keeps (s.halt cls) := (h.stopClocks.faultAll.foldl fun _ _ h => h.modRouter).setHalted
theorem Origin.Keeps.endSessions (h : o.Keeps s) : o.Keeps s.endSessions := (h.foldl fun _ _ h => h.modMb).sec

theorem Origin.Keeps.eraseSession {level : Nat} (h : o.Keeps s) : o.Keeps (s.eraseSession level) :=
    (h.sec.endSessions.foldl fun _ _ h => .ite h.portDown h).event

theorem Origin.Keeps.eraseAll (h : o.Keeps s) : o.Keeps s.eraseAll := h.fuses.event

theorem Origin.Keeps.alarm {c det val : Nat} (h : o.Keeps s) : o.Keeps (s.alarm c det val) :=
    .ite (.eraseAll (.ite (.eraseSession (.ite h.modAlarm.report.event.halt h.modAlarm.report.event))
      (.ite h.modAlarm.report.event.halt h.modAlarm.report.event))) (.ite (.eraseSession
        (.ite h.modAlarm.report.event.halt h.modAlarm.report.event)) (.ite h.modAlarm.report.event.halt h.modAlarm.report.event))

theorem execAlarmRaise_answers {t : Nat} {src : AlarmSrc} (h : o.Keeps s) : o.Answers (execAlarmRaise t src s) :=
    .next (.ite h.adv.modAlarm.alarm h.adv)

theorem execTamperSample_answers {t : Nat} {ok : Bool} (h : o.Keeps s) : o.Answers (execTamperSample t ok s) :=
    .next (.ite h.adv.modAlarm h.adv.modAlarm.alarm)

theorem execFuseRecheck_answers {t : Nat} {ok : Bool} (h : o.Keeps s) : o.Answers (execFuseRecheck t ok s) :=
    .next (.ite h.adv.modAlarm h.adv.modAlarm.alarm)

/-! ## Power and heat -/

theorem Origin.Keeps.powerNote {mw : Nat} {cells : List Nat} (h : o.Keeps s) : o.Keeps (s.powerNote mw cells) :=
  h.power.foldl fun _ _ h => h.modRegion
theorem Origin.Keeps.fastCap (h : o.Keeps s) : o.Keeps s.fastCap := h.foldl fun _ _ h => h.modRegion.applyStep

theorem execPowerSample_answers {t mw : Nat} {cells : List Nat} (h : o.Keeps s) : o.Answers (execPowerSample t mw cells s) :=
    .next (.ite h.adv.powerNote.fastCap.event h.adv.powerNote)

theorem execBudgetCapRaise_answers {t : Nat} (h : o.Keeps s) : o.Answers (execBudgetCapRaise t s) := by
  unfold execBudgetCapRaise
  dsimp only
  refine .next (.ite ?_ h.adv)
  split
  · exact h.adv.power.modRegion.applyStep
  · exact h.adv

theorem execBudgetCapLower_answers {t : Nat} (h : o.Keeps s) : o.Answers (execBudgetCapLower t s) := by
  unfold execBudgetCapLower
  dsimp only
  refine .next (.ite ?_ h.adv)
  split
  · exact h.adv.power.modRegion.applyStep
  · exact h.adv

theorem execPmbusPoll_answers {t : Nat} {telem : List (Nat × PmbusTel)} (h : o.Keeps s) : o.Answers (execPmbusPoll t telem s) :=
    .next (h.adv.foldl fun _ _ h => .ite h.power h)

theorem execThermalSensorRead_answers {t sensor : Nat} {reading : Int} (hs : o.sensors = false) (h : o.Keeps s) :
    o.Answers (execThermalSensorRead t sensor reading s) := by
  unfold execThermalSensorRead
  extract_lets s1 s0 g p1 s2 since since' p2 s3 s4 cool d hot p3
  have h1 : o.Keeps s1 := h.adv
  have h2 : o.Keeps s2 := .ite h1.modRegion ⟨h1.queue, h1.memory, fun hfollowed => by simp [hs] at hfollowed⟩
  clear_value s2
  have h3 : o.Keeps s3 := h2.power
  have h4 : o.Keeps s4 := h3.modAlarm
  exact .next (.ite h1 (.ite h4.modRegion (.ite h4.dma (.ite h4.alarm h4))))

theorem execThermalCapRaise_answers {t g : Nat} (h : o.Keeps s) : o.Answers (execThermalCapRaise t g s) := by
  unfold execThermalCapRaise
  dsimp only
  refine .next ?_
  split
  · exact h.adv
  · exact .ite (.ite h.adv.modRegion.applyStep.report.event h.adv.modRegion.applyStep) h.adv

theorem execThermalCapLower_answers {t g : Nat} (h : o.Keeps s) : o.Answers (execThermalCapLower t g s) := by
  unfold execThermalCapLower
  dsimp only
  refine .next ?_
  split
  · exact h.adv
  · exact .ite h.adv.modRegion.applyStep h.adv

theorem execThermalTrip_answers {t sensor : Nat} (h : o.Keeps s) : o.Answers (execThermalTrip t sensor s) := by
  unfold execThermalTrip
  dsimp only
  refine .next ?_
  split
  · exact h.adv
  · exact .ite h.adv.stopClocks.faultAll.report.event.modHub.pins.modAlarm.alarm h.adv

theorem Origin.Keeps.ledgerAdd {kind cls id : Nat} (h : o.Keeps s) : o.Keeps (s.ledgerAdd kind cls id) := h.flash

theorem Origin.Keeps.darken {g cause : Nat} (h : o.Keeps s) : o.Keeps (s.darken g cause) :=
    .ite h h.lentExit.modRegion.modSites.newGen.forceClose.spareEvents.report.event

theorem Origin.Keeps.cellOff {g cell cause : Nat} (h : o.Keeps s) : o.Keeps (s.cellOff g cell cause) := h.modRegion.report

theorem Origin.Keeps.cellEffect {g before : Nat} (h : o.Keeps s) : o.Keeps (s.cellEffect g before) :=
    .ite h.darken (.ite h.darken (.ite h.applyStep.report.event h))

theorem Origin.Keeps.powerWaiters (h : o.Keeps s) : o.Keeps s.powerWaiters := by
  unfold State.powerWaiters
  dsimp only
  refine h.foldl fun _ _ h => ?_
  split
  · exact .ite h.finish h
  · exact h

theorem execIvrCellFail_answers {t g cell cause : Nat} (h : o.Keeps s) : o.Answers (execIvrCellFail t g cell cause s) :=
    .next (.ite h.adv (.ite (.ite h.adv (.ite (h.adv.power.report.event.foldl fun _ _ h => h.darken).powerWaiters h.adv.power.report.event))
      (.ite h.adv h.adv.cellOff.event.ledgerAdd.cellEffect.powerWaiters)))

theorem execSurgeRecharged_answers {t g : Nat} (h : o.Keeps s) : o.Answers (execSurgeRecharged t g s) := .next h.adv.modRegion
theorem Origin.Keeps.droop {g kind mv ns : Nat} (h : o.Keeps s) : o.Keeps (s.droop g kind mv ns) := h.modRegion.report

theorem execDroopDetect_answers {t g mv ns : Nat} (h : o.Keeps s) : o.Answers (execDroopDetect t g mv ns s) :=
    .next (.ite h.adv (.ite h.adv.droop h.adv.modRegion))

theorem execDroopHardFloor_answers {t g mv ns : Nat} (h : o.Keeps s) : o.Answers (execDroopHardFloor t g mv ns s) :=
    .next (.ite h.adv.droop.modJob h.adv)

theorem execBumpSample_answers {t g current measured : Nat} (h : o.Keeps s) : o.Answers (execBumpSample t g current measured s) :=
    .next (.ite (.ite h.adv.modRegion.report.event.ledgerAdd.modRegion.applyStep h.adv.modRegion) h.adv.modRegion)

theorem Origin.Keeps.powerDown {g : Nat} {retain : Bool} (h : o.Keeps s) : o.Keeps (s.powerDown g retain) :=
    .ite h (.ite h.modRegion h.modRegion.modSites)

theorem Origin.Keeps.regionOn {g : Nat} (h : o.Keeps s) : o.Keeps (s.regionOn g) :=
    .powerWaiters (.foldl (.ite h.modRegion.applyStep.modSites h.modRegion.applyStep) fun _ _ h => h.watchMet)

theorem execPowerGroupClose_answers {t g : Nat} {marginOk : Bool} (h : o.Keeps s) : o.Answers (execPowerGroupClose t g marginOk s) :=
    .next (.ite h.adv (.ite h.adv.modRegion (.ite h.adv.modRegion.regionOn h.adv.modRegion)))

/-! ## The sequencer -/

theorem Origin.Keeps.modSeq {k : Nat} {f : SeqSt → SeqSt} (h : o.Keeps s) : o.Keeps (s.modSeq k f) := h.modSite
theorem Origin.Keeps.seqStore {k a : Nat} {bs : List Byte} (h : o.Keeps s) : o.Keeps (s.seqStore k a bs) := by
  unfold State.seqStore
  exact h.sliceWrite.modSite
theorem Origin.Keeps.seqRead {k a n : Nat} (h : o.Keeps s) : o.Keeps (s.seqRead k a n) := h.eccRange
theorem Origin.Keeps.fetched {k : Nat} (h : o.Keeps s) : o.Keeps (s.fetched k) := h.seqRead

theorem Origin.Keeps.seqTrap {k cause : Nat} {v : BitVec 32} {ue : Bool} (h : o.Keeps s) : o.Keeps (s.seqTrap k cause v ue) :=
    .ite h.modSeq.reportSite.forceClose h.modSeq.reportSite.faultAsIdes

theorem Origin.Keeps.seqRetire {k rd : Nat} {v pc : BitVec 32} (h : o.Keeps s) : o.Keeps (s.seqRetire k rd v pc) := h.modSeq

theorem Origin.Keeps.ite_some_snd {α : Type} {a b : Option (α × State)} {c : Prop} [Decidable c] (ha : ∀ x, a = some x → o.Keeps x.2)
    (hb : ∀ x, b = some x → o.Keeps x.2) : ∀ x, (if c then a else b) = some x → o.Keeps x.2 := by
  split
  · exact ha
  · exact hb

theorem Origin.Keeps.csrRead {k n : Nat} {x : BitVec 32 × State} (h : o.Keeps s) (e : s.csrRead k n = some x) : o.Keeps x.2 := by
  unfold State.csrRead at e
  extract_lets q val cyc at e
  have hval : ∀ v x, val v = some x → o.Keeps x.2 := by rintro v _ ⟨⟩; exact h
  have hcyc : ∀ hi x, cyc hi = some x → o.Keeps x.2 := by
    intro hi x e
    cases e
    exact h.draw 64
  have hsample : ∀ x, some (BitVec.ofNat 32 s.now, s.modSeq k fun q => { q with ftSample := s.now }) = some x → o.Keeps x.2 := by
    rintro _ ⟨⟩
    exact .paired h.modSeq
  have hnone : ∀ x : BitVec 32 × State, none = some x → o.Keeps x.2 := fun _ e => by cases e
  clear_value val cyc
  exact Origin.Keeps.ite_some_snd (hval _) (.ite_some_snd (hval _) (.ite_some_snd (hval _) (.ite_some_snd (hval _) (.ite_some_snd (hval _)
    (.ite_some_snd (hval _) (.ite_some_snd (hval _) (.ite_some_snd (hval _) (.ite_some_snd (hcyc _) (.ite_some_snd (hcyc _)
    (.ite_some_snd (hval _) (.ite_some_snd (hval _) (.ite_some_snd (hval _) (.ite_some_snd (hval _) (.ite_some_snd (hval _)
    (.ite_some_snd (hval _) (.ite_some_snd (hval _) (.ite_some_snd (hval _) (.ite_some_snd (hval _) (.ite_some_snd (hval _)
    (.ite_some_snd (hval _) (.ite_some_snd (hval _) (.ite_some_snd hsample (.ite_some_snd (hval _) (.ite_some_snd (hval _)
    hnone)))))))))))))))))))))))) x e

theorem Origin.Keeps.seqCsr {k w len : Nat} {ue : Bool} (h : o.Keeps s) : o.Keeps (s.seqCsr k w len ue) := by
  unfold State.seqCsr
  dsimp only
  refine .ite h.seqTrap ?_
  split
  · exact h.seqTrap
  next e => exact .ite (.modSeq (.seqRetire (.ite h (h.csrRead e)))) (.seqRetire (.ite h (h.csrRead e)))

theorem Origin.Keeps.seqLoad {k w len : Nat} {ue : Bool} (h : o.Keeps s) : o.Keeps (s.seqLoad k w len ue) :=
    .ite (.ite h.seqTrap (.ite h.seqRead.seqRetire h.seqTrap)) h.seqTrap

theorem Origin.Keeps.seqStoreOp {k w len : Nat} {ue : Bool} (h : o.Keeps s) : o.Keeps (s.seqStoreOp k w len ue) :=
    .ite (.ite h.seqTrap (.ite h.seqStore.seqRetire h.seqTrap)) h.seqTrap

theorem Origin.Keeps.seqSystem {k w len : Nat} {ue : Bool} (h : o.Keeps s) : o.Keeps (s.seqSystem k w len ue) :=
    .ite (.ite h.seqTrap (.ite (.ite h.modSeq h.seqTrap) (.ite h.seqRetire.modSeq (.ite h.seqRetire h.seqTrap)))) (.ite h.seqTrap h.seqCsr)

theorem Origin.Keeps.seqWord {k w len : Nat} {ue : Bool} (h : o.Keeps s) : o.Keeps (s.seqWord k w len ue) := by
  unfold State.seqWord
  dsimp only
  refine .ite h.seqRetire (.ite h.seqRetire (.ite h.seqRetire (.ite (.ite h.seqRetire h.seqTrap) (.ite ?_ (.ite h.seqLoad (.ite h.seqStoreOp (.ite
    (.ite h.seqTrap h.seqRetire) (.ite (.ite h.seqRetire (.ite h.seqRetire h.seqTrap)) (.ite (.ite h.seqRetire h.seqTrap)
      (.ite h.seqSystem h.seqTrap))))))))))
  split
  · exact h.seqRetire
  · exact h.seqTrap

theorem Origin.Keeps.seqStep {k : Nat} (h : o.Keeps s) : o.Keeps (s.seqStep k) := by
  unfold State.seqStep
  dsimp only
  refine .ite h ?_
  split
  · exact h.seqTrap
  · exact h.fetched.seqTrap
  · exact .ite h h.fetched.seqWord

theorem Origin.Keeps.fetchUpset {k : Nat} {upset : Option (List Byte)} (h : o.Keeps s) : o.Keeps (s.fetchUpset k upset) := by
  unfold State.fetchUpset
  split
  · exact .ite h.disturb h
  · exact h

theorem execSeqInstruction_answers {t site : Nat} {upset : Option (List Byte)} (h : o.Keeps s) : o.Answers (execSeqInstruction t site upset s) :=
    .next h.adv.fetchUpset.seqStep

/-! ## Channels of a tile -/

theorem execDepositReceive_answers {t : Nat} {pkt : Packet} (h : o.Keeps s) : o.Answers (execDepositReceive t pkt s) :=
  .next (h.adv.arrive fun _ _ h => .ite h.sliceWrite.modSite.reply h)

theorem Origin.Keeps.nextTaken {k i : Nat} {x : Taken × State} (h : o.Keeps s) (e : s.nextTaken k i = some x) : o.Keeps x.2 := by
  unfold State.nextTaken at e
  extract_lets y c w m at e
  split at e
  · cases e
  · split at e
    · split at e
      · cases e; exact h
      · cases e
    · split at e
      · cases e
        exact .paired h.sliceWrite.modSite
      · split at e
        · cases e
        · cases e; exact h

theorem Origin.Keeps.hand {k i : Nat} {r : Taken} (h : o.Keeps s) : o.Keeps (s.hand k i r) := h.modSite

theorem Origin.Keeps.takeMsg {k i : Nat} {x : Taken × State} (h : o.Keeps s) (e : s.takeMsg k i = some x) : o.Keeps x.2 := by
  unfold State.takeMsg at e
  extract_lets y at e
  split at e
  · split at e
    · cases e
    · split at e
      · cases e
      · cases e
        exact .paired h.sliceWrite.modSite.hand
  · split at e
    · cases e
    · next e1 =>
      have h1 := h.nextTaken e1
      extract_lets s2 f s3 at e
      have h2 : o.Keeps s2 := Origin.Keeps.hand h1.modSeq
      have h3 : o.Keeps s3 := .ite h2 h2.eccRange
      cases e
      exact .paired h3.forward

theorem Origin.Keeps.chanSignal {k i : Nat} (h : o.Keeps s) : o.Keeps (s.chanSignal k i) := .ite h.raise h
theorem Origin.Keeps.deliverSignal {k i : Nat} (h : o.Keeps s) : o.Keeps (s.deliverSignal k i) := .ite h.chanSignal.forward h

theorem Origin.Keeps.recordTag {p : Nat} {t : A64Tag} (h : o.Keeps s) : o.Keeps (s.recordTag p t) := by
  unfold State.recordTag
  split
  · exact h
  · exact h.setAnchor.modJob

theorem Origin.Keeps.cqDeliver {k i : Nat} (h : o.Keeps s) : o.Keeps (s.cqDeliver k i) :=
    .ite h.configFault (h.modSite.foldl fun _ _ h => h.putTag).recordTag.deliverSignal

theorem Origin.Keeps.cqArrive {k : Nat} {p : Packet} (h : o.Keeps s) : o.Keeps (s.cqArrive k p) :=
    .ite h.modSite (.ite h.configFault (.ite (.cqDeliver (.reply (.modSite (.sliceWrite (.eccRange (.ite h.sliceWrite h)))))) (.reply (.modSite
      (.sliceWrite (.eccRange (.ite h.sliceWrite h)))))))

theorem Origin.Keeps.cqRearm {k i : Nat} (h : o.Keeps s) : o.Keeps (s.cqRearm k i) := h.sliceWrite.modSite.foldl fun _ _ h => h.cqArrive
theorem execContributionReceive_answers {t : Nat} {pkt : Packet} (h : o.Keeps s) : o.Answers (execContributionReceive t pkt s) :=
  .next (h.adv.arrive fun _ _ h => .ite h.cqArrive h)
theorem Origin.Keeps.creditBack {k i n : Nat} {m : Msg} (h : o.Keeps s) : o.Keeps (s.creditBack k i n m) := h.inject.modSite

theorem Origin.Keeps.completeMsg {k i : Nat} (h : o.Keeps s) : o.Keeps (s.completeMsg k i) := by
  unfold State.completeMsg
  dsimp only
  split
  · exact h
  · exact .ite (.ite h.modSite h.modSite.cqRearm) (.ite h.modSite.chanSignal
    (.ite h.modSite.modSite.chanSignal h.modSite.modSite.creditBack.chanSignal))

theorem execHandlerDispatch_answers {t site : Nat} (h : o.Keeps s) : o.Answers (execHandlerDispatch t site s) := by
  unfold execHandlerDispatch
  dsimp only
  refine .next (.ite ?_ h.adv)
  split
  · exact h.adv
  · split
    · exact h.adv
    next e1 => exact (h.adv.takeMsg e1).modSeq.lentExit

theorem execChannelCreditReceive_answers {t site slot lines : Nat} (h : o.Keeps s) : o.Answers (execChannelCreditReceive t site slot lines s) :=
    .next (.ite h.adv.rtrCount (.ite (.ite h.adv.configFault h.adv.modSite) h.adv))

theorem execSendStallExpire_answers {t site slot : Nat} (h : o.Keeps s) : o.Answers (execSendStallExpire t site slot s) := by
  unfold execSendStallExpire
  dsimp only
  refine .next ?_
  split
  · refine .ite ?_ h.adv
    split
    · exact h.adv
    next e1 => exact (h.adv.requests e1).modSite
  · exact h.adv

theorem execSpillDepositReceive_answers {t : Nat} {pkt : Packet} (h : o.Keeps s) : o.Answers (execSpillDepositReceive t pkt s) := by
  unfold execSpillDepositReceive
  refine .next (h.adv.arrive ?_)
  intro k s h
  extract_lets i x size recs moved parts last ents log2 cap p s1 c gone s2
  have h2 : o.Keeps s2 := h.modSite
  clear_value s2
  exact .ite h (.ite h.modSite.reply (.ite h.event.report.hang h2.creditBack.reply))

/-! ## Links -/

theorem Origin.Keeps.sendCtl {i : Nat} {op : CtlOp} (h : o.Keeps s) : o.Keeps (s.sendCtl i op) := h.modPort.sendFlit
theorem Origin.Keeps.ctlAnswer {i : Nat} {op : CtlOp} (h : o.Keeps s) : o.Keeps (s.ctlAnswer i op) := .ite h.modPort h.sendFlit
theorem Origin.Keeps.takeAck {i : Nat} {ack : BitVec 16} (h : o.Keeps s) : o.Keeps (s.takeAck i ack) := .ite h h.modPort.retire.pump
theorem Origin.Keeps.resendAll {i : Nat} (h : o.Keeps s) : o.Keeps (s.resendAll i) := by
  unfold State.resendAll
  exact (h.foldl fun _ _ h => h.modPort.sendWire.ovfIf).modPort

theorem Origin.Keeps.goBack {i : Nat} (h : o.Keeps s) : o.Keeps (s.goBack i) := by
  unfold State.goBack
  dsimp only
  split
  · exact h
  · exact .ite (.ite h.report.portDown h.report.trainStart.modPort) h.modPort.ovfIf.resendAll

theorem execNakReceive_answers {t port : Nat} {ack : BitVec 16} (h : o.Keeps s) : o.Answers (execNakReceive t port ack s) :=
    .next (.ite h.adv.takeAck.goBack h.adv)

theorem execRetryAckTimeout_answers {t port : Nat} (h : o.Keeps s) : o.Answers (execRetryAckTimeout t port s) := by
  unfold execRetryAckTimeout
  dsimp only
  refine .next ?_
  split
  · exact .ite h.adv.goBack h.adv
  · exact h.adv

theorem Origin.Keeps.tryGate {i : Nat} (h : o.Keeps s) : o.Keeps (s.tryGate i) := .ite h.modPort h

theorem Origin.Keeps.mapForm {i : Nat} {lanes : BitVec 9} {mw : Nat} (h : o.Keeps s) : o.Keeps (s.mapForm i lanes mw) :=
    .ite h.modPort.portDown h.modPort.slotMark.sendCtl

theorem execPortTrain_answers {t port : Nat} {mask : TrainMap} (h : o.Keeps s) : o.Answers (execPortTrain t port mask s) := by
  unfold execPortTrain
  dsimp only
  refine .next (.ite h.adv (.ite ?_ (.tryGate (.modPort (.ite h.adv h.adv.trainStart)))))
  split
  · exact .ite h.adv.mapForm h.adv
  · exact h.adv

theorem execLaneLockTimeout_answers {t port lane : Nat} (h : o.Keeps s) : o.Answers (execLaneLockTimeout t port lane s) :=
    .next (.ite h.adv.modPort.tryGate h.adv)

theorem execBerGateEnd_answers {t port : Nat} {errors : List Nat} (h : o.Keeps s) : o.Answers (execBerGateEnd t port errors s) :=
    .next (.ite (h.adv.foldl fun _ _ h => h.modPort.report).modPort.emit h.adv)

theorem execTrainingAbandon_answers {t port : Nat} (h : o.Keeps s) : o.Answers (execTrainingAbandon t port s) := .next (.ite h.adv.portDown h.adv)
theorem Origin.Keeps.portUp {i : Nat} (h : o.Keeps s) : o.Keeps (s.portUp i) := ((h.draw 32).time.modPort.foldl fun _ _ h => h.finish).mirrorGo

theorem Origin.Keeps.swapBegin {i lane since : Nat} {planned : Bool} (h : o.Keeps s) : o.Keeps (s.swapBegin i lane since planned) :=
    .ite h.emit.modPort.portDown h.emit.modPort

theorem Origin.Keeps.swapEnd {i : Nat} (h : o.Keeps s) : o.Keeps (s.swapEnd i) := by
  unfold State.swapEnd
  dsimp only
  split
  · refine .ite h (.ite (.portDown (.modPort (.ite h.report h.report))) ?_)
    split
    · exact .swapBegin (.modPort (.ite h.report h.report))
    · exact .pump (.resendAll (.takeAck (.modPort (.ite h.report h.report))))
  · exact h

theorem execInitFlitReceive_answers {t port : Nat} {op : CtlOp} (h : o.Keeps s) : o.Answers (execInitFlitReceive t port op s) := by
  unfold execInitFlitReceive
  dsimp only
  refine .next ?_
  split
  · exact .ite h.adv.ctlAnswer.modPort.portUp (.ite (.ite (.swapEnd (.modPort (.ite h.adv.modPort.modPort
    (.ite h.adv.modPort h.adv.modPort.sendFlit)))) (.takeAck (.ite h.adv.modPort.modPort (.ite h.adv.modPort h.adv.modPort.sendFlit)))) h.adv)
  · exact h.adv

theorem execRetrainRequestReceive_answers {t port : Nat} (h : o.Keeps s) : o.Answers (execRetrainRequestReceive t port s) :=
    .next (.ite h.adv.ctlAnswer.trainStart (.ite h.adv.modPort h.adv))

theorem Origin.Keeps.swapAlso {i lane since : Nat} {planned : Bool} (h : o.Keeps s) : o.Keeps (s.swapAlso i lane since planned) := by
  unfold State.swapAlso
  split
  · exact h.swapBegin
  · exact .ite h h.emit.modPort

theorem execLaneFail_answers {t port lane : Nat} {cause : LaneFault} (h : o.Keeps s) : o.Answers (execLaneFail t port lane cause s) :=
    .next (.ite (.ite h.adv.report.modPort (.ite h.adv.report.sendCtl h.adv.report.swapAlso)) h.adv)

theorem execSwapOrderedSetReceive_answers {t port lane : Nat} (h : o.Keeps s) : o.Answers (execSwapOrderedSetReceive t port lane s) :=
    .next (.ite h.adv.swapAlso h.adv)

theorem execSwapPlanReceive_answers {t port lane : Nat} (h : o.Keeps s) : o.Answers (execSwapPlanReceive t port lane s) :=
    .next (.ite h.adv.ctlAnswer.swapBegin h.adv)

theorem execLaneSwapResume_answers {t port : Nat} (h : o.Keeps s) : o.Answers (execLaneSwapResume t port s) := by
  unfold execLaneSwapResume
  dsimp only
  refine .next ?_
  split
  · exact h.adv
  · exact .ite h.adv h.adv.slotMark.modPort.sendCtl.swapEnd

theorem Origin.Keeps.authFail {i : Nat} {keySel : Bool} (h : o.Keeps s) : o.Keeps (s.authFail i keySel) :=
    .ite h.modPort.ovfIf.report.portDown h.modPort.ovfIf.report

theorem Origin.Keeps.flitLost {i : Nat} {time : Bool} (h : o.Keeps s) : o.Keeps (s.flitLost i time) :=
  .ite h.modPort.ovfIf (.ite h h.modPort.sendFlit)

theorem Origin.Keeps.creditsBack {i : Nat} {f : FlitHead} (h : o.Keeps s) : o.Keeps (s.creditsBack i f) :=
    h.foldl fun _ _ h => .ite h (.ite h.report.trainStart h.modPort.pump)

theorem Origin.Keeps.countSymbols {i : Nat} {f : RxFlit} (h : o.Keeps s) : o.Keeps (s.countSymbols i f) :=
    .ite (h.foldl fun _ _ h => h.modPort.ovfIf).modPort.ovfIf (h.foldl fun _ _ h => h.modPort.ovfIf)

theorem Origin.Keeps.rxTake {i : Nat} {p : Packet} {shared : Bool} (h : o.Keeps s) : o.Keeps (s.rxTake i p shared) := by
  unfold State.rxTake
  exact .modPort (.ite h.rtrCount h)

theorem Origin.Keeps.flitGood {i : Nat} {h' : FlitHead} {body : List Byte} {shared : List Bool}
    (h : o.Keeps s) : o.Keeps (s.flitGood i h' body shared) := .ite (.ite h.takeAck.creditsBack.goBack h.takeAck.creditsBack) (.ite
      (.ite h.takeAck.creditsBack (.ite (h.takeAck.creditsBack.modPort.ovfIf.foldl fun _ _ h => h.rxTake).sendFlit (.flitLost
        (.ite h.takeAck.creditsBack.report h.takeAck.creditsBack)))) h.takeAck.creditsBack)

theorem execFlitReceive_answers {t port : Nat} {f : RxFlit} (h : o.Keeps s) : o.Answers (execFlitReceive t port f s) := by
  unfold execFlitReceive
  dsimp only
  refine .next (.ite h.adv (.ite h.adv.modPort.countSymbols.modPort.ovfIf.report.flitLost
    (.ite h.adv.modPort.countSymbols.modPort.ovfIf.report.flitLost ?_)))
  split
  · exact h.adv.modPort.countSymbols.authFail.flitLost
  · exact h.adv.modPort.countSymbols.flitGood

theorem execKeyNextReceive_answers {t port slot : Nat} (h : o.Keeps s) : o.Answers (execKeyNextReceive t port slot s) :=
    .next (.ite h.adv (.ite h.adv.ctlAnswer h.adv.modPort.sendFlit))

theorem execKeySelChange_answers {t port : Nat} {rx : Bool} (h : o.Keeps s) : o.Answers (execKeySelChange t port rx s) := by
  unfold execKeySelChange
  dsimp only
  refine .next (.ite ?_ ?_)
  · split
    · exact h.adv.modPort
    · exact h.adv
  · split
    · exact h.adv.modPort
    · exact h.adv

theorem execDownNoticeReceive_answers {t port : Nat} (h : o.Keeps s) : o.Answers (execDownNoticeReceive t port s) :=
    .next (.ite h.adv.ctlAnswer.portDown h.adv)

theorem execMinWidthReceive_answers {t port w : Nat} (h : o.Keeps s) : o.Answers (execMinWidthReceive t port w s) :=
    .next (.ite (.ite (.portDown (.modPort (.ite h.adv.ctlAnswer h.adv.sendFlit))) (.modPort (.ite h.adv.ctlAnswer h.adv.sendFlit))) h.adv)

theorem execControlFlitResend_answers {t port : Nat} (h : o.Keeps s) : o.Answers (execControlFlitResend t port s) :=
    .next (.ite h.adv (.ite h.adv.portDown (h.adv.modPort.foldl fun _ _ h => h.sendFlit)))

/-! ## Routers and combining units -/

theorem Origin.Keeps.chooseLeg {ver : Bool} {p : Packet} (h : o.Keeps s) : o.Keeps (s.chooseLeg ver p).2 :=
    .ite_snd (.ite_snd (.ite_snd (h.draw 16) (h.draw 16)) h) (.ite_snd h h)

theorem Origin.Keeps.chooseRtr {r : Nat} {p : Packet} (h : o.Keeps s) : o.Keeps (s.chooseRtr r p).2 :=
    .ite_snd h (.ite_snd (.ite_snd (h.draw 16) (h.draw 16)) (.ite_snd h h))

theorem Origin.Keeps.handOn {src : Nat} {ver : Bool} {port : Option Nat} {p : Packet} {out : MeshOut}
    (h : o.Keeps s) : o.Keeps (s.handOn src ver port p out) := by
  unfold State.handOn
  split
  · exact h.sendHop
  · exact h.sendHop
  · exact h.emit

theorem Origin.Keeps.rxDone {i : Nat} {r : RxPkt} (h : o.Keeps s) : o.Keeps (s.rxDone i r) := .ite h.modPort.sendFlit h.modPort

theorem Origin.Keeps.dieRoute {d : Nat} {ver : Bool} {port : Option Nat} {p : Packet} (h : o.Keeps s) : o.Keeps (s.dieRoute d ver port p) :=
    .ite (.foldl (.ite h.handOn h) fun _ _ h => .ite h.rtrCount.reply (.ite h.enqueue h.noRoute)) (.ite (.ite h.emit h.handOn) (.exitVia
      (.ite_snd h h.chooseLeg)))

theorem Origin.Keeps.setCu {r n : Nat} {g : Option CuSeg} (h : o.Keeps s) : o.Keeps (s.setCu r n g) := h.modRouter

theorem Origin.Keeps.cuForward {r n : Nat} (h : o.Keeps s) : o.Keeps (s.cuForward r n) := by
  unfold State.cuForward
  dsimp only
  split
  · exact h
  · refine .ite h ?_
    split
    · exact h
    · exact h.setTxn.setCu.launch.retire

theorem Origin.Keeps.cuArrive {r : Nat} {p : Packet} (h : o.Keeps s) : o.Keeps (s.cuArrive r p).1 := by
  unfold State.cuArrive
  dsimp only
  refine .ite_fst h ?_
  split
  · split
    · exact h
    · exact .ite h.setCu.rtrCount.cuForward h.setCu.rtrCount
  · split
    · exact h.setCu
    · exact h

theorem execCombineForward_answers {t router cu : Nat} (h : o.Keeps s) : o.Answers (execCombineForward t router cu s) := by
  unfold execCombineForward
  dsimp only
  refine .next ?_
  split
  · exact .ite h.adv.cuForward h.adv
  · exact h.adv

theorem Origin.Keeps.cuDone {unit : Nat} {st : PStatus} (h : o.Keeps s) : o.Keeps (s.cuDone unit st) := by
  unfold State.cuDone
  dsimp only
  split
  · exact h
  · exact h.setCu.foldl fun _ _ h => h.reply

theorem Origin.Keeps.rtrPass {r : Nat} {ver : Bool} {port : Option Nat} {p : Packet} (h : o.Keeps s) : o.Keeps (s.rtrPass r ver port p) := by
  unfold State.rtrPass
  split
  next p1 s1 e1 =>
  extract_lets s2
  have h2 : o.Keeps s2 := (h.chooseRtr.snd e1).rtrCount
  refine .ite h2.handOn ?_
  split
  next p3 port3 s3 e3 =>
  have h3 : o.Keeps s3 := by
    split at e3
    · cases e3; exact h2
    · split at e3
      next e4 =>
      split at e3
      next e5 =>
      cases e3
      exact (h2.chooseLeg.snd e4).pickPort.snd e5
  exact h3.handOn

theorem Origin.Keeps.toLeaf {p : Packet} {k : Nat} (h : o.Keeps s) : o.Keeps (s.toLeaf p k) := .ite h.emit h.reply

theorem Origin.Keeps.rtrRoute {r : Nat} {ver : Bool} {port : Option Nat} {p : Packet} (h : o.Keeps s) : o.Keeps (s.rtrRoute r ver port p) := by
  unfold State.rtrRoute
  dsimp only
  refine .ite (.ite (.foldl (.ite (h.rtrCount.foldl fun _ _ h => h.handOn).emit (h.rtrCount.foldl fun _ _ h => h.handOn)) fun _ _ h => h.refuseDown)
    (.foldl (.ite (h.rtrCount.foldl fun _ _ h => h.handOn).emit (h.rtrCount.foldl fun _ _ h => h.handOn)) fun _ _ h => h.toLeaf)) (.ite ?_
      (.ite h.refuseDown h.rtrPass))
  split
  next e => exact h.cuArrive.fst e
  next e => exact .ite (h.cuArrive.fst e).refuseDown (h.cuArrive.fst e).rtrPass

theorem Origin.Keeps.meshLeave {h' : Hop} {d : Tbl Nat} (h : o.Keeps s) : o.Keeps (s.meshLeave h' d).2 :=
    .ite (.rtrCount (.ite h.routing.modRouter h.routing)) (.ite h.routing.modRouter h.routing)

theorem Origin.Keeps.stewardTake {p : Packet} (h : o.Keeps s) : o.Keeps (s.stewardTake p) := h.holdRelease.inject

theorem Origin.Keeps.routeIn {here : MeshOut} {p : Packet} {x : Packet × Bool × Option Nat × State} (h : o.Keeps s)
    (e : s.routeIn here p = some x) : o.Keeps x.2.2.2 := by
  unfold State.routeIn at e
  split at e
  · split at e
    · cases e; exact h.rxDone
    · split at e
      cases e
      exact .paired (.ite h.rtrCount h)
  · obtain ⟨hop, -, e⟩ := List.exists_of_findSome?_eq_some e
    obtain ⟨d, -, rfl⟩ := Option.map_eq_some_iff.mp e
    exact h.meshLeave

theorem execPacketRoute_answers {t router : Nat} {die : Option Nat} {pkt : Packet} (h : o.Keeps s) :
    o.Answers (execPacketRoute t router die pkt s) := by
  unfold execPacketRoute
  extract_lets s1 here
  have h1 : o.Keeps s1 := h.adv
  refine .next ?_
  split
  · exact h1
  · next e =>
    have h2 := h1.routeIn e
    refine .retire (.ite h2.discard (.ite h2.stewardTake ?_))
    split
    · exact h2.dieRoute
    · exact h2.rtrRoute

theorem Origin.Keeps.retagHeld {c : Nat} (h : o.Keeps s) : o.Keeps (s.retagHeld c) := h.dma

/-! ## The Xmln instructions -/

theorem Origin.Keeps.beginWait {k : Nat} {kind : WaitKind} {arg : Nat} {v : BitVec 32} {rd : Nat}
    (h : o.Keeps s) : o.Keeps (s.beginWait k kind arg v rd) := .ite (.lentTry (.ite h.modSeq.modSite h.modSeq)) (.ite h.modSeq.modSite h.modSeq)

/-- What an attempt of an Xmln instruction answers keeps its state, where it holds one. -/
def XRes.Keeps (o : Origin) : XRes → Prop
  | .ended s => o.Keeps s
  | .done _ s => o.Keeps s
  | _ => True

theorem XRes.Keeps.ite {a b : XRes} {c : Prop} [Decidable c] (ha : a.Keeps o) (hb : b.Keeps o) : (if c then a else b).Keeps o := by
  split
  · exact ha
  · exact hb

/-- An instruction's attempt keeps what its state has come from. -/
def XKeeps (f : State → Nat → XArgs → XRes) : Prop := ∀ {o : Origin} {s : State} {k : Nat} {x : XArgs}, o.Keeps s → (f s k x).Keeps o

theorem Origin.Keeps.xApply {k w : Nat} {ue : Bool} {r : XRes} (h : o.Keeps s) (hr : r.Keeps o) : o.Keeps (s.xApply k w ue r) := by
  unfold State.xApply
  extract_lets x b nxt
  split
  · exact h.seqTrap
  · exact h.seqTrap
  · exact h
  · exact .ite h h.beginWait
  · exact hr.modSeq
  · exact hr.seqRetire

theorem Origin.Keeps.xRow {k : Nat} {op : XOp} {f : State → Nat → XArgs → XRes} (h : o.Keeps s) (hf : XKeeps f) : o.Keeps (s.xRow k op f) := by
  unfold State.xRow
  extract_lets x
  refine .ite h ?_
  split
  · exact .ite (h.fetched.xApply (hf h.fetched)) h
  · exact h

theorem Origin.Keeps.payload {k : Nat} {x : XArgs} (h : o.Keeps s) : o.Keeps (s.payload k x).2 := h.seqRead
theorem Origin.Keeps.sendLeft {k slot : Nat} {m : Msg} (h : o.Keeps s) : o.Keeps (s.sendLeft k slot m) := h.modSite
theorem Origin.Keeps.sent' {k slot n : Nat} {contrib : Bool} (h : o.Keeps s) : o.Keeps (s.sent' k slot n contrib) := h.modSite

theorem Origin.Keeps.sendReturn {k code : Nat} (h : o.Keeps s) : (s.sendReturn k code).Keeps o := Origin.Keeps.modSeq h

/-- A send whose checks have passed keeps what its state has come from, where it goes. -/
theorem Origin.Keeps.sendTry {k slot : Nat} {payload : List Byte} {y : State} (h : o.Keeps s) (e : s.sendTry k slot payload = .inl y) :
    o.Keeps y := by
  unfold State.sendTry at e
  extract_lets x u c tl m n chunks chunk q d s1 lines p line pad deposits at e
  have h1 : o.Keeps s1 := h.dma
  clear_value s1
  split at e
  · split at e
    · cases e
    · split at e
      · cases e
      · next e2 => cases e; exact (h.requests e2).sent'.sendLeft.modJob
  · split at e
    · split at e
      · cases e
      · cases e; exact h1.modSite
    · split at e
      · cases e
      · split at e
        · cases e
        · split at e
          · cases e
          · next e2 => cases e; exact (h.requests e2).sent'.sendLeft.modSite

theorem xSend_keeps : XKeeps xSend := by
  intro o s k x h
  unfold xSend
  extract_lets slot c
  split
  · exact h.sendReturn
  · split
    next payload s1 e =>
    have h1 : o.Keeps s1 := h.payload.snd e
    refine .ite (.ite h1.sendLeft.modSite.report.sendReturn trivial) (.ite ?_ ?_)
    · exact Origin.Keeps.sendReturn (.ite h1.modSite h1.sendLeft)
    · split
      · next e2 => exact (h1.sendTry e2).sendReturn
      · trivial
      · trivial

theorem xTrysend_keeps : XKeeps xTrysend := by
  intro o s k x h
  unfold xTrysend
  extract_lets slot
  split
  · exact h.forward.sendReturn
  · split
    next payload s1 e =>
    have h1 : o.Keeps s1 := h.payload.snd e
    refine .ite ?_ ?_
    · split
      · trivial
      · exact Origin.Keeps.sendReturn (.ite h1.modSite (.ite h1.modSite.modSite h1.modSite.sendLeft))
    · split
      · next e2 => exact (h1.sendTry e2).forward.sendReturn
      · exact h1.forward.sendReturn
      · trivial

theorem xDone_keeps : XKeeps xDone := by
  intro o s k x h
  unfold xDone
  split
  · trivial
  · exact h.completeMsg.modSeq

theorem xRecv_keeps : XKeeps xRecv := by
  intro o s k x h
  unfold xRecv
  refine .ite trivial (.ite trivial ?_)
  split
  · trivial
  · next e => exact (h.takeMsg e).modSeq

theorem xRelease_keeps : XKeeps xRelease := fun h => .ite trivial h.completeMsg

theorem Origin.Keeps.xPut {k q i : Nat} {e : Elem} (h : o.Keeps s) : (s.xPut k q i e).Keeps o := .ite h.modSite trivial

theorem Origin.Keeps.xGet {k q j : Nat} {f : Elem → State → XRes} (h : o.Keeps s) (hf : ∀ e {s}, o.Keeps s → (f e s).Keeps o) :
    (s.xGet k q j f).Keeps o := by
  unfold State.xGet
  refine .ite trivial ?_
  split
  · trivial
  · next e => exact .ite h.modSeq (hf _ (h.takeEj e))

theorem xPutw_keeps : XKeeps xPutw := fun h => h.xPut

theorem xGetw_keeps : XKeeps xGetw := fun h => h.xGet fun _ _ h => h

theorem xPutt_keeps : XKeeps xPutt := fun h => .ite trivial h.xPut

theorem xGett_keeps : XKeeps xGett := fun h => h.xGet fun _ _ h => h

theorem xPutv_keeps : XKeeps xPutv := fun h => .ite trivial (.ite h.seqRead.xPut trivial)

theorem xGetv_keeps : XKeeps xGetv := fun h => .ite trivial (.ite (h.xGet fun _ _ h => h.seqStore) trivial)

theorem xEphase_keeps : XKeeps xEphase := fun h => .ite trivial (.ite trivial (.ite h.modSite.beginWait trivial))

theorem xSigraise_keeps : XKeeps xSigraise := fun h => h.raise

theorem xSigwait_keeps : XKeeps xSigwait := fun h => .ite h trivial

theorem xSigwaitl_keeps : XKeeps xSigwaitl := fun h => .ite h trivial

theorem xSigsub_keeps : XKeeps xSigsub := fun h => .ite h.signalRange h.modSite

theorem xSigread_keeps : XKeeps xSigread := fun h => h

theorem xBarrive_keeps : XKeeps xBarrive := by
  intro o s k x h
  unfold xBarrive
  extract_lets n y
  split
  · trivial
  · exact .ite trivial (Origin.Keeps.ite h.modSite h.modSite.inject)

theorem xBarwait_keeps : XKeeps xBarwait := by
  intro o s k x h
  unfold xBarwait
  extract_lets n
  split
  · trivial
  · exact .ite h trivial

theorem xFence_keeps : XKeeps xFence := by
  intro o s k x h
  exact .ite h trivial

theorem xSemset_keeps : XKeeps xSemset := fun h => .ite h.modSite trivial

theorem xSemclr_keeps : XKeeps xSemclr := fun h => .ite h.modSite trivial

theorem xSemwait_keeps : XKeeps xSemwait := fun h => .ite (.ite h.modSite trivial) trivial

theorem xTry_keeps (op : XOp) : XKeeps (xTry op) := fun {_ _ _ x} h => match op with
  | .send => xSend_keeps h
  | .trysend => xTrysend_keeps h
  | .done => xDone_keeps h
  | .recv => xRecv_keeps h
  | .release => xRelease_keeps h
  | .putw => xPutw_keeps h
  | .getw => xGetw_keeps h
  | .putt => xPutt_keeps h
  | .gett => xGett_keeps h
  | .putv => xPutv_keeps h
  | .getv => xGetv_keeps h
  | .ephase => xEphase_keeps h
  | .sigraise => xSigraise_keeps h
  | .sigwait => xSigwait_keeps h
  | .sigwaitl => xSigwaitl_keeps h
  | .sigsub => xSigsub_keeps h
  | .sigread => xSigread_keeps h
  | .barrive => xBarrive_keeps h
  | .barwait => xBarwait_keeps h
  | .fence => xFence_keeps (x := x) h
  | .semset => xSemset_keeps h
  | .semclr => xSemclr_keeps h
  | .semwait => xSemwait_keeps h

theorem execXSend_answers {t site : Nat} (h : o.Keeps s) : o.Answers (execXSend t site s) :=
  .next (h.adv.xRow xSend_keeps)

theorem execXTrysend_answers {t site : Nat} (h : o.Keeps s) : o.Answers (execXTrysend t site s) :=
  .next (h.adv.xRow xTrysend_keeps)

theorem execXDone_answers {t site : Nat} (h : o.Keeps s) : o.Answers (execXDone t site s) :=
  .next (h.adv.xRow xDone_keeps)

theorem execXRecv_answers {t site : Nat} (h : o.Keeps s) : o.Answers (execXRecv t site s) :=
  .next (h.adv.xRow xRecv_keeps)

theorem execXRelease_answers {t site : Nat} (h : o.Keeps s) : o.Answers (execXRelease t site s) :=
  .next (h.adv.xRow xRelease_keeps)

theorem execXPutw_answers {t site : Nat} (h : o.Keeps s) : o.Answers (execXPutw t site s) :=
  .next (h.adv.xRow xPutw_keeps)

theorem execXGetw_answers {t site : Nat} (h : o.Keeps s) : o.Answers (execXGetw t site s) :=
  .next (h.adv.xRow xGetw_keeps)

theorem execXPutt_answers {t site : Nat} (h : o.Keeps s) : o.Answers (execXPutt t site s) :=
  .next (h.adv.xRow xPutt_keeps)

theorem execXGett_answers {t site : Nat} (h : o.Keeps s) : o.Answers (execXGett t site s) :=
  .next (h.adv.xRow xGett_keeps)

theorem execXPutv_answers {t site : Nat} (h : o.Keeps s) : o.Answers (execXPutv t site s) :=
  .next (h.adv.xRow xPutv_keeps)

theorem execXGetv_answers {t site : Nat} (h : o.Keeps s) : o.Answers (execXGetv t site s) :=
  .next (h.adv.xRow xGetv_keeps)

theorem execXEphase_answers {t site : Nat} (h : o.Keeps s) : o.Answers (execXEphase t site s) :=
  .next (h.adv.xRow xEphase_keeps)

theorem execXSigraise_answers {t site : Nat} (h : o.Keeps s) : o.Answers (execXSigraise t site s) :=
  .next (h.adv.xRow xSigraise_keeps)

theorem execXSigwait_answers {t site : Nat} (h : o.Keeps s) : o.Answers (execXSigwait t site s) :=
  .next (h.adv.xRow xSigwait_keeps)

theorem execXSigwaitl_answers {t site : Nat} (h : o.Keeps s) : o.Answers (execXSigwaitl t site s) :=
  .next (h.adv.xRow xSigwaitl_keeps)

theorem execXSigsub_answers {t site : Nat} (h : o.Keeps s) : o.Answers (execXSigsub t site s) :=
  .next (h.adv.xRow xSigsub_keeps)

theorem execXSigread_answers {t site : Nat} (h : o.Keeps s) : o.Answers (execXSigread t site s) :=
  .next (h.adv.xRow xSigread_keeps)

theorem execXBarrive_answers {t site : Nat} (h : o.Keeps s) : o.Answers (execXBarrive t site s) :=
  .next (h.adv.xRow xBarrive_keeps)

theorem execXBarwait_answers {t site : Nat} (h : o.Keeps s) : o.Answers (execXBarwait t site s) :=
  .next (h.adv.xRow xBarwait_keeps)

theorem execXFence_answers {t site : Nat} (h : o.Keeps s) : o.Answers (execXFence t site s) :=
  .next (h.adv.xRow @xFence_keeps)

theorem execXSemset_answers {t site : Nat} (h : o.Keeps s) : o.Answers (execXSemset t site s) :=
  .next (h.adv.xRow xSemset_keeps)

theorem execXSemclr_answers {t site : Nat} (h : o.Keeps s) : o.Answers (execXSemclr t site s) :=
  .next (h.adv.xRow xSemclr_keeps)

theorem execXSemwait_answers {t site : Nat} (h : o.Keeps s) : o.Answers (execXSemwait t site s) :=
  .next (h.adv.xRow xSemwait_keeps)

theorem execSeqWaitWake_answers {t site : Nat} (h : o.Keeps s) : o.Answers (execSeqWaitWake t site s) := by
  unfold execSeqWaitWake
  extract_lets s1 x
  have h1 : o.Keeps s1 := h.adv
  refine .next (.ite h1 ?_)
  split
  · split
    · exact .ite (h1.xApply (xTry_keeps _ h1)).lentExit h1
    · exact h1
  · exact h1

theorem execFastEnter_answers {t site : Nat} (h : o.Keeps s) : o.Answers (execFastEnter t site s) := .next (.ite h.adv.modSeq.lentTry h.adv)
theorem execLongWaitThreshold_answers {t site : Nat} (h : o.Keeps s) : o.Answers (execLongWaitThreshold t site s) := .next h.adv.modSeq.lentTry

end Sys2Proof.Machine
end

section
/-! PROOFS. What every row keeps, on: transfers, external memory, synchronisation, time, the Almanac, the twin, resets and start-up. -/

namespace Sys2Proof.Machine

variable {o : Origin} {s : State}

/-! ## Transfers -/

theorem Origin.Keeps.sealPacket {i : Nat} {p : Packet} (h : o.Keeps s) : o.Keeps (s.sealPacket i p).2 := h.sec

theorem Origin.Keeps.dmaSend {die tag : Nat} {x : Txn} (h : o.Keeps s) : o.Keeps (s.dmaSend die tag x) := by
  unfold State.dmaSend
  dsimp only
  refine .inject (.setTxn (.ite_snd ?_ h))
  split
  · exact h.sealPacket
  · exact h

theorem Origin.Keeps.setXfer {n : Nat} {x : Option Xfer} (h : o.Keeps s) : o.Keeps (s.setXfer n x) := h.dma

theorem Origin.Keeps.xferPump {die n fuel : Nat} (h : o.Keeps s) : o.Keeps (State.xferPump die n fuel s) := by
  induction fuel generalizing s with
  | zero => exact h
  | succ fuel ih =>
    unfold State.xferPump
    split
    · refine .ite h (.ite ?_ ?_)
      · exact ih h.setXfer.dmaSend
      · split
        · exact .ite (ih h.setXfer.dmaSend) h
        · exact h
    · exact h

theorem Origin.Keeps.dmaPump {die : Nat} (h : o.Keeps s) : o.Keeps (s.dmaPump die) := by
  unfold State.dmaPump
  refine h.foldl fun _ _ h => ?_
  split
  · exact .ite h.xferPump h
  · exact h

theorem execDmaDescriptorStart_answers {t die tile : Nat} (h : o.Keeps s) : o.Answers (execDmaDescriptorStart t die tile s) := by
  unfold execDmaDescriptorStart
  dsimp only
  refine .next ?_
  split
  · exact h.adv
  · exact .ite h.adv (.ite h.adv.dma.dmaError (.ite h.adv.dma.dmaError h.adv.dma.setXfer.xferPump))

theorem Origin.Keeps.flowCut {q dev : Nat} (h : o.Keeps s) : o.Keeps (s.flowCut q dev) := h.dma

theorem Origin.Keeps.chunkRead {die tag n : Nat} {x : Txn} {y : Xfer} {data : List Byte} (h : o.Keeps s) : o.Keeps (s.chunkRead die tag n x y data) :=
    .ite (.ite h.setTxn.modJob.setXfer h.setTxn.setXfer) h.dmaSend

theorem execCompletionReceive_answers {t die tag : Nat} {status : PStatus} {ece ue : Bool} {data : List Byte} (h : o.Keeps s) :
    o.Answers (execCompletionReceive t die tag status ece ue data s) := by
  unfold execCompletionReceive
  extract_lets s1
  have h1 : o.Keeps s1 := h.adv
  clear_value s1
  refine .next ?_
  split
  · exact h1
  · extract_lets refused s2 y s3 s4 again s5
    have h2 : o.Keeps s2 := .ite h1.rtrCount h1
    have h3 : o.Keeps s3 := by
      dsimp only [s3]
      generalize y = z
      split
      · exact .ite h2.flowCut h2
      · exact h2
    have h4 : o.Keeps s4 := .ite h3.modJob h3
    have h5 : o.Keeps s5 := by
      dsimp only [s5]
      generalize y = z
      split
      · exact .ite h4.chunkRead (.ite h4.setTxn.setXfer h4.finishTag)
      · exact h4.finishTag
    clear_value s2 s3 s4 s5
    exact .ite h2.finishTag.dmaPump.mirrorGo (.ite h2.setTxn.dmaPump (.ite h4.setTxn.cuDone (.ite h4.setTxn h5.dmaPump.mirrorGo)))

theorem Origin.Keeps.cuTimeout {p : Packet} (h : o.Keeps s) : o.Keeps (s.cuTimeout p) := by
  unfold State.cuTimeout
  dsimp only
  split
  · exact h.dmaError
  · exact h.report

theorem execTransactionTimeout_answers {t die tag : Nat} (h : o.Keeps s) : o.Answers (execTransactionTimeout t die tag s) := by
  unfold execTransactionTimeout
  dsimp only
  refine .next ?_
  split
  · exact h.adv
  · exact .ite (.ite h.adv.cuTimeout.setTxn.cuDone h.adv.finishTag.dmaPump.mirrorGo) h.adv

theorem execTileMovingRetry_answers {t die tag : Nat} (h : o.Keeps s) : o.Answers (execTileMovingRetry t die tag s) := by
  unfold execTileMovingRetry
  dsimp only
  refine .next ?_
  split
  · exact h.adv
  · split
    · exact h.adv
    · exact .ite h.adv.setTxn.inject h.adv

theorem execDmaRateIncrease_answers {t q dest : Nat} (h : o.Keeps s) : o.Answers (execDmaRateIncrease t q dest s) := .next (.ite h.adv.dma h.adv)

theorem execRouteDrainComplete_answers {t cls : Nat} (h : o.Keeps s) : o.Answers (execRouteDrainComplete t cls s) := by
  unfold execRouteDrainComplete
  dsimp only
  refine .next ?_
  split
  · exact .ite (h.adv.modRcfg.retagHeld.injectHeld.foldl fun _ _ h => .ite h.slotEnd h).finish.dmaPump.dmaPump.mirrorGo h.adv
  · exact h.adv

theorem Origin.Keeps.authNote {slot : Nat} {p : Packet} (h : o.Keeps s) : o.Keeps (s.authNote slot p) := h.sec

theorem execWindowAccess_answers {t : Nat} {pkt : Packet} {hits : List (Nat × List Byte)} (h : o.Keeps s) :
    o.Answers (execWindowAccess t pkt hits s) := by
  unfold execWindowAccess
  refine .next (h.adv.arrive ?_)
  intro k s h
  extract_lets w remote n right s1 s2 s3
  have h1 : o.Keeps s1 := h.disturbs
  have h2 : o.Keeps s2 := .ite h1.authNote h1
  have h3 : o.Keeps s3 := h.modSite
  exact .ite h (.ite (.ite h2.eccRange.replyData h2.sliceWrite.forward.reply) h3.reportSite.reply)

/-! ## External memory -/

theorem Origin.Keeps.pageRead {l off n ecc src part : Nat} {own : Bool} {word : Nat}
    (h : o.Keeps s) : o.Keeps (s.pageRead l off n ecc src part own word).1 := .foldl_fst h fun _ _ h => h.eccRead

theorem Origin.Keeps.pieceWrite {l o' : Nat} {bs : List Byte} {ecc src part : Nat} {own : Bool}
    (h : o.Keeps s) : o.Keeps (s.pieceWrite l o' bs ecc src part own).1 := by
  unfold State.pieceWrite
  dsimp only
  refine .ite_fst (.ite_fst h h.mcCount.eccRead) ?_
  split
  · exact .granWrite (.ite_fst h h.mcCount.eccRead)
  · exact .dramWrite (.ite_fst h h.mcCount.eccRead)

theorem Origin.Keeps.pageWrite {l off : Nat} {bs : List Byte} {ecc src part : Nat} {own : Bool} {word : Nat}
    (h : o.Keeps s) : o.Keeps (s.pageWrite l off bs ecc src part own word).1 := .foldl_fst h fun _ _ h => h.pieceWrite

theorem Origin.Keeps.mapEcc {l e : Nat} (h : o.Keeps s) : o.Keeps (s.mapEcc l e) := .ite (h.draw 8).report (.ite (h.draw 8).mem.report h)
theorem Origin.Keeps.consumedUe {part : Nat} (h : o.Keeps s) : o.Keeps (s.consumedUe part) := .ite h.modJob h
theorem Origin.Keeps.pageNote {pkt : Packet} (h : o.Keeps s) : o.Keeps (s.pageNote pkt) := .ite h.authNote h

theorem execPageAccess_answers {t : Nat} {pkt : Packet} {ecc mapEcc word : Nat} {inPort : Option Nat}
    (h : o.Keeps s) : o.Answers (execPageAccess t pkt ecc mapEcc word inPort s) := .next (.ite h.adv (.ite h.adv.mapEcc.pageRefuse.reply
      (.ite h.adv.mapEcc.pageNote.reply (.ite (.reply
        (.ite h.adv.mapEcc.pageNote.pageWrite.consumedUe h.adv.mapEcc.pageNote.pageWrite)) h.adv.mapEcc.pageNote.pageRead.replyData))))

theorem execPagemapRebuild_answers {t page : Nat} (h : o.Keeps s) : o.Answers (execPagemapRebuild t page s) := .next (.ite h.adv.mem h.adv)
theorem Origin.Keeps.scrubPage {l ppn : Nat} (h : o.Keeps s) : o.Keeps (s.scrubPage l ppn) := .ite h.mem.migStart h

theorem Origin.Keeps.scrubWord {addr ecc l : Nat} (h : o.Keeps s) : o.Keeps (s.scrubWord addr ecc l) :=
    .ite (.ddrUe (.ite h.markBad h)) (.ite (.ddrCe (.miscorrect (.ite h.markBad h))) (.ite (.ddrCe (.ite h.markBad h)) (.ite h.markBad h)))

theorem execScrubRead_answers {t addr ecc : Nat} (h : o.Keeps s) : o.Answers (execScrubRead t addr ecc s) :=
    .next (.ite h.adv (.ite (.mcCount (.ite h.adv.scrubWord.scrubPage h.adv.scrubWord)) (.ite h.adv.scrubWord.scrubPage h.adv.scrubWord)))

theorem Origin.Keeps.migEnd {die : Nat} {m : Migration} (h : o.Keeps s) : o.Keeps (s.migEnd die m) := h.setPage.mem.retirePpn.report.migStart
theorem Origin.Keeps.migStop {die : Nat} {m : Migration} (h : o.Keeps s) : o.Keeps (s.migStop die m) := h.mem.report.migStart

theorem Origin.Keeps.migEcc {a : Nat} {err : Option (Nat × Nat)} (h : o.Keeps s) : o.Keeps (s.migEcc a err) := by
  unfold State.migEcc
  dsimp only
  split
  · exact h
  · exact .ite h.markBad (.ite h (.ddrCe (.ite h.miscorrect h)))

theorem execPageMigrationCopy_answers {t die : Nat} {err : Option (Nat × Nat)} (h : o.Keeps s) : o.Answers (execPageMigrationCopy t die err s) := by
  unfold execPageMigrationCopy
  dsimp only
  refine .next ?_
  split
  · exact h.adv
  · refine .ite h.adv.downRefuse.migStop ?_
    split
    · exact h.adv.migEcc.ddrUe.migStop
    · exact .ite h.adv.migEcc.dramCopy.migEnd h.adv.migEcc.dramCopy.mem

theorem Origin.Keeps.zeroed {ppn : Nat} (h : o.Keeps s) : o.Keeps (s.zeroed ppn) := .ite h.dramBlit.mem.migStart h
theorem Origin.Keeps.zeroAll (h : o.Keeps s) : o.Keeps s.zeroAll := h.foldl fun _ _ h => h.zeroed

theorem Origin.Keeps.keptLose {l cause : Nat} (h : o.Keeps s) : o.Keeps (s.keptLose l cause) := by
  unfold State.keptLose
  dsimp only
  refine .event (.report (.mem (.unmapPages ?_)))
  split
  · exact h.modJob
  · exact h

theorem Origin.Keeps.keepBegin (h : o.Keeps s) : o.Keeps s.keepBegin := h.mem.foldl fun _ _ h => .ite h.modChan h

theorem Origin.Keeps.keepCheck {ch : Nat} (h : o.Keeps s) : o.Keeps (s.keepCheck ch) :=
    h.foldl fun _ _ h => .ite h.dieRead.keptLose (.ite h.keptLose h)

theorem Origin.Keeps.keepOnly (h : o.Keeps s) : o.Keeps s.keepOnly := h.unmapPages
theorem Origin.Keeps.ledgerMerge {ch serial : Nat} (h : o.Keeps s) : o.Keeps (s.ledgerMerge ch serial) := by
  unfold State.ledgerMerge
  exact h.flash.modChan
theorem Origin.Keeps.rateAll (h : o.Keeps s) : o.Keeps s.rateAll := h.foldl fun _ _ h => .ite h.modChan h

theorem Origin.Keeps.ddrOmit {ch cause rate capacity : Nat} (h : o.Keeps s) : o.Keeps (s.ddrOmit ch cause rate capacity) :=
    h.modChan.report.event.foldl fun _ _ h => h.keptLose

theorem execDdrTrainingComplete_answers {t ch : Nat} {present disabled : Bool} {spd : DdrSpd} {fails : Nat} {test : DdrTest}
    (h : o.Keeps s) : o.Answers (execDdrTrainingComplete t ch present disabled spd fails test s) := .next (.ite h.adv (.ite (h.adv.modChan.foldl
      fun _ _ h => h.keptLose) (.ite h.adv.modChan.rateAll.ledgerMerge.keepCheck h.adv.ddrOmit.rateAll)))

theorem execDdrPhyLockLoss_answers {t ch : Nat} (h : o.Keeps s) : o.Answers (execDdrPhyLockLoss t ch s) := .next h.adv.chanOffline

theorem execCxlMemRead_answers {t hpa len : Nat} {ecc : CxlEcc} (h : o.Keeps s) : o.Answers (execCxlMemRead t hpa len ecc s) := by
  unfold execCxlMemRead
  dsimp only
  refine .next ?_
  split
  · exact h.adv
  · exact .ite (h.adv.mapEcc.pageRefuse.draw (8 * len)).emit h.adv.mapEcc.pageRead.emit

theorem execCxlMemWrite_answers {t hpa : Nat} {data : CxlData} (h : o.Keeps s) : o.Answers (execCxlMemWrite t hpa data s) := by
  unfold execCxlMemWrite
  dsimp only
  refine .next ?_
  split
  · exact h.adv
  · exact .ite h.adv.mapEcc.pageRefuse.event h.adv.mapEcc.pageWrite

/-! ## Signals, barriers and waits -/

theorem execSignalRaiseReceive_answers {t : Nat} {pkt : Packet} {amount : Nat} (h : o.Keeps s) :
    o.Answers (execSignalRaiseReceive t pkt amount s) :=
  .next (h.adv.arrive fun _ _ h => h.raise.forward.reply)

theorem Origin.Keeps.barRelease {d : BarDef} (h : o.Keeps s) : o.Keeps (s.barRelease d) := h.injects

theorem execBarrierArrivalReceive_answers {t router p bar : Nat} (h : o.Keeps s) : o.Answers (execBarrierArrivalReceive t router p bar s) := by
  unfold execBarrierArrivalReceive
  dsimp only
  refine .next ?_
  split
  · exact h.adv
  · refine .ite h.adv (.ite h.adv.rtrCount (.ite h.adv.modRouter (.ite h.adv.modRouter.inject (.ite ?_ h.adv.modRouter.barRelease))))
    split
    · exact h.adv.modRouter
    · exact .ite h.adv.modRouter.injects.barRelease h.adv.modRouter.inject

theorem execBarrierReleaseReceive_answers {t tile bar : Nat} (h : o.Keeps s) : o.Answers (execBarrierReleaseReceive t tile bar s) := by
  unfold execBarrierReleaseReceive
  dsimp only
  refine .next ?_
  split
  · exact h.adv
  · exact .ite h.adv.rtrCount (.ite h.adv.fwdApply.forward h.adv)

theorem Origin.Keeps.idesExpire {p cls cause k : Nat} {site : Bool} {rec : State → State} (h : o.Keeps s)
    (hrec : o.Keeps s → o.Keeps (rec s)) : o.Keeps (s.idesExpire p cls cause k site rec) := by
  unfold State.idesExpire
  split
  · exact h
  · exact .ite (hrec h).modPart (hrec h).event.modJob.hang

theorem execIdesWaitExpire_answers {t site : Nat} (h : o.Keeps s) : o.Answers (execIdesWaitExpire t site s) := by
  unfold execIdesWaitExpire
  extract_lets s1 p
  refine .next ?_
  split
  · exact h.adv
  · exact .ite (h.adv.modSeq.idesExpire fun h => h.reportSite) h.adv

theorem execIdesPhaseExpire_answers {t p : Nat} (h : o.Keeps s) : o.Answers (execIdesPhaseExpire t p s) := by
  unfold execIdesPhaseExpire
  refine .next ?_
  split
  · exact h.adv
  · split
    · exact h.adv
    · exact h.adv.modJob.idesExpire fun h => h.report

theorem execIdesStepExpire_answers {t p : Nat} (h : o.Keeps s) : o.Answers (execIdesStepExpire t p s) := by
  unfold execIdesStepExpire
  refine .next ?_
  split
  · exact h.adv
  · exact .ite (h.adv.modJob.idesExpire fun h => h.report) h.adv

/-! ## Time -/

theorem Origin.Keeps.modTime {f : TimeSt → TimeSt} (h : o.Keeps s) : o.Keeps (s.modTime f) := h.time
theorem Origin.Keeps.modPortTime {i : Nat} {f : PortTime → PortTime} (h : o.Keeps s) : o.Keeps (s.modPortTime i f) := h.modTime
theorem Origin.Keeps.selectMaster (h : o.Keeps s) : o.Keeps s.selectMaster := h.modTime
theorem Origin.Keeps.delayAsk {port : Nat} (h : o.Keeps s) : o.Keeps (s.delayAsk port) := h.modTime.emit

theorem execPtpMessageReceive_answers {t : Nat} {m : PtpMsg} {body : PtpBody} (h : o.Keeps s) : o.Answers (execPtpMessageReceive t m body s) := by
  unfold execPtpMessageReceive
  dsimp only
  refine .next (.ite ?_ h.adv)
  split
  · exact h.adv.modTime.selectMaster
  · exact h.adv.modTime.emit
  · exact .ite h.adv.modTime h.adv
  · exact .ite (.ite h.adv.modTime.delayAsk h.adv.modTime) h.adv

theorem execPtpMasterLoss_answers {t port : Nat} (h : o.Keeps s) : o.Answers (execPtpMasterLoss t port s) := .next h.adv.modTime.selectMaster

theorem execTimeFrameSend_answers {t port : Nat} (h : o.Keeps s) : o.Answers (execTimeFrameSend t port s) :=
    .next (.ite h.adv.modPortTime.sendFlit h.adv)

theorem execTimeFrameReceive_answers {t port : Nat} {f : TimeFrame} (h : o.Keeps s) : o.Answers (execTimeFrameReceive t port f s) :=
    .next (.ite (.ite h.adv.modPortTime h.adv.modPortTime.modPortTime) h.adv)

theorem Origin.Keeps.syncPairUp (h : o.Keeps s) : o.Keeps s.syncPairUp := by
  unfold State.syncPairUp
  dsimp only
  split <;> exact h.modTime

theorem Origin.Keeps.twinTimeSend {d i : Nat} (h : o.Keeps s) : o.Keeps (s.twinTimeSend d i) := .ite h.inject (.ite h.enqueue h)

theorem execSyncEdge_answers {t : Nat} (h : o.Keeps s) : o.Answers (execSyncEdge t s) := by
  unfold execSyncEdge
  dsimp only
  refine .next (.ite h.adv ?_)
  split
  · exact h.adv
  · exact h.adv.modTime.twinTimeSend.syncPairUp

theorem execTwinTimeReceive_answers {t capture : Nat} (h : o.Keeps s) : o.Answers (execTwinTimeReceive t capture s) :=
    .next (.ite h.adv.modTime.syncPairUp h.adv)

theorem execSyncFollowerTimeout_answers {t : Nat} (h : o.Keeps s) : o.Answers (execSyncFollowerTimeout t s) := .next (.ite h.adv.modTime h.adv)

theorem Origin.Keeps.servo {off : Int} (h : o.Keeps s) : o.Keeps (s.servo off) :=
    .ite (.event (.ite h.modTime.event h.modTime)) (.ite h.modTime.event h.modTime)

theorem execServoUpdate_answers {t : Nat} (h : o.Keeps s) : o.Answers (execServoUpdate t s) := by
  unfold execServoUpdate
  dsimp only
  refine .next (.ite h.adv.modTime.event (.ite h.adv.modTime ?_))
  split
  · exact h.adv.modTime.servo
  · exact h.adv.modTime.modTime

theorem execHoldoverExpire_answers {t : Nat} (h : o.Keeps s) : o.Answers (execHoldoverExpire t s) := .next (.ite h.adv.modTime h.adv)

/-! ## The Almanac -/

theorem Origin.Keeps.entryRearm {i : Nat} (h : o.Keeps s) : o.Keeps (s.entryRearm i) := .ite h.modAlm.almCount h.modAlm
theorem Origin.Keeps.watchOpen {i : Nat} {e : AlmEntry} (h : o.Keeps s) : o.Keeps (s.watchOpen i e) := .ite h h.modPart.modAlm
theorem Origin.Keeps.fireStep {i : Nat} {e : AlmEntry} (h : o.Keeps s) : o.Keeps (s.fireStep i e) := .ite h.almCount h.modPart.watchOpen
theorem Origin.Keeps.fireSlot {i : Nat} {e : AlmEntry} (h : o.Keeps s) : o.Keeps (s.fireSlot i e) := .ite h.modPart h.modPart.watchOpen

theorem Origin.Keeps.firePrewarn {e : AlmEntry} (h : o.Keeps s) : o.Keeps (s.firePrewarn e) :=
    .ite (h.foldl fun _ _ h => h.prewarnRegion) h.prewarnRegion

theorem Origin.Keeps.fireTwin {i : Nat} {e : AlmEntry} (h : o.Keeps s) : o.Keeps (s.fireTwin i e) := h.modTwin.watchOpen
theorem Origin.Keeps.firePower {i : Nat} {e : AlmEntry} (h : o.Keeps s) : o.Keeps (s.firePower i e) := .ite h h.powerUp.watchOpen

theorem Origin.Keeps.fireDeadline {i : Nat} {e : AlmEntry} (h : o.Keeps s) : o.Keeps (s.fireDeadline i e) := by
  unfold State.fireDeadline
  dsimp only
  split
  · exact h
  · exact .ite h h.watchOpen.modPart

theorem Origin.Keeps.fireEffect {i : Nat} {e : AlmEntry} (h : o.Keeps s) : o.Keeps (s.fireEffect i e) :=
    .ite h.firePower (.ite h.event (.ite h (.ite h.fireStep (.ite h.fireSlot (.ite h.firePrewarn (.ite h.fireTwin (.ite h.fireDeadline h)))))))

theorem Origin.Keeps.fire {i : Nat} (h : o.Keeps s) : o.Keeps (s.fire i) := h.fireEffect.entryRearm
theorem execAlmanacFire_answers {t e : Nat} (h : o.Keeps s) : o.Answers (execAlmanacFire t e s) := .next (.ite h.adv.fire h.adv)

theorem execAlmanacDeadlineExpire_answers {t p e : Nat} (h : o.Keeps s) : o.Answers (execAlmanacDeadlineExpire t p e s) := by
  unfold execAlmanacDeadlineExpire
  dsimp only
  refine .next ?_
  split
  · exact h.adv.watchLate
  · exact h.adv

theorem Origin.Keeps.firePast {fuel : Nat} (h : o.Keeps s) : o.Keeps (State.firePast fuel s) := by
  induction fuel generalizing s with
  | zero => exact h
  | succ fuel ih =>
    unfold State.firePast
    split
    · exact ih h.fire
    · exact h

theorem Origin.Keeps.advancePast (h : o.Keeps s) : o.Keeps s.advancePast := h.foldl fun _ _ h => .ite h h.modAlm

theorem execAlmanacBankSwap_answers {t : Nat} (h : o.Keeps s) : o.Answers (execAlmanacBankSwap t s) := by
  unfold execAlmanacBankSwap
  dsimp only
  refine .next ?_
  split
  · exact h.adv
  · exact .ite h.adv.alm.watchOrphan.advancePast.firePast.alm h.adv

theorem Origin.Keeps.autoPrewarn {p : Nat} (h : o.Keeps s) : o.Keeps (s.autoPrewarn p) := (h.foldl fun _ _ h => h.prewarnRegion).modJob

theorem execAutomaticPrewarn_answers {t p : Nat} (h : o.Keeps s) : o.Answers (execAutomaticPrewarn t p s) := by
  unfold execAutomaticPrewarn
  dsimp only
  refine .next ?_
  split
  · exact h.adv
  · exact .ite h.adv (.ite (.ite h.adv.autoPrewarn h.adv) (.ite h.adv h.adv.autoPrewarn))

theorem execIntercalarySlotOpen_answers {t p : Nat} (h : o.Keeps s) : o.Answers (execIntercalarySlotOpen t p s) := by
  unfold execIntercalarySlotOpen
  dsimp only
  refine .next ?_
  split
  · exact h.adv
  · exact .ite h.adv h.adv.modPart.watchMet.modJob.slotWork

theorem execIntercalarySlotClose_answers {t p : Nat} (h : o.Keeps s) : o.Answers (execIntercalarySlotClose t p s) := by
  unfold execIntercalarySlotClose
  dsimp only
  refine .next ?_
  split
  · exact h.adv
  · exact .ite h.adv.modPart.vigilGate h.adv

/-! ## The twin -/

theorem Origin.Keeps.logWrite {l off : Nat} {bs : List Byte} (h : o.Keeps s) : o.Keeps (s.logWrite l off bs) := h.foldl fun _ _ h => h.dramWrite
theorem Origin.Keeps.mirrorSend {p : Nat} {ps : List Packet} (h : o.Keeps s) : o.Keeps (s.mirrorSend p ps) := h.modTwin.mirrorPump

theorem Origin.Keeps.granReads {j : Job} {p : Nat} {m : Tbl (BitVec 64)} (h : o.Keeps s) : o.Keeps (s.granReads j p m) :=
    h.foldl fun _ _ h => h.foldl fun _ _ h => h.dieRead

theorem Origin.Keeps.mirrorOut {j : Job} {p : Nat} {head : Bool} {all m : Tbl (BitVec 64)} (h : o.Keeps s) : o.Keeps (s.mirrorOut j p head all m) :=
    h.granReads.mirrorSend

theorem execMirrorRelease_answers {t p : Nat} (h : o.Keeps s) : o.Answers (execMirrorRelease t p s) := by
  unfold execMirrorRelease
  dsimp only
  refine .next ?_
  split
  · exact h.adv
  · exact .ite h.adv.modTwin.watchMet.mirrorOut h.adv

theorem execMirrorWritesAcked_answers {t p : Nat} (h : o.Keeps s) : o.Answers (execMirrorWritesAcked t p s) := by
  unfold execMirrorWritesAcked
  dsimp only
  refine .next ?_
  split
  · exact h.adv
  · exact .ite h.adv.modTwin.mirrorSend h.adv

theorem execMirrorSlotAcked_answers {t p : Nat} (h : o.Keeps s) : o.Answers (execMirrorSlotAcked t p s) := .next (.ite h.adv.modTwin.emit h.adv)
theorem Origin.Keeps.twinCount {p idx : Nat} (h : o.Keeps s) : o.Keeps (s.twinCount p idx) := h.modTwin.ovfIf
theorem Origin.Keeps.twinAck {p step : Nat} (h : o.Keeps s) : o.Keeps (s.twinAck p step) := .ite h.modTwin.modJob.ledgerOut.twinCount h

theorem execTwinNakReceive_answers {t p : Nat} {pages : List Nat} (h : o.Keeps s) : o.Answers (execTwinNakReceive t p pages s) := by
  unfold execTwinNakReceive
  dsimp only
  refine .next (.ite h.adv ?_)
  split
  · exact h.adv.twinCount
  · exact .ite h.adv.twinCount h.adv.twinCount.modTwin.mirrorOut

theorem Origin.Keeps.pageWaitEnd {p : Nat} (h : o.Keeps s) : o.Keeps (s.pageWaitEnd p) := by
  unfold State.pageWaitEnd
  split
  · exact h
  · split
    · exact h
    · exact .ite h.finish h

theorem Origin.Keeps.mirrorCut {p : Nat} (h : o.Keeps s) : o.Keeps (s.mirrorCut p) := .ite h h.modJob
theorem Origin.Keeps.portTwin {p : Nat} {v : Bool} (h : o.Keeps s) : o.Keeps (s.portTwin p v) := h.foldl fun _ _ h => .ite h.modPort h

theorem Origin.Keeps.twinFree {p : Nat} (h : o.Keeps s) : o.Keeps (s.twinFree p) := by
  unfold State.twinFree
  dsimp only
  refine .modTwin (.portTwin ?_)
  split
  · exact h.mirrorCut.unmapPages
  · exact h.mirrorCut

theorem execTwinBreakReceive_answers {t p : Nat} {unbind : Bool} (h : o.Keeps s) : o.Answers (execTwinBreakReceive t p unbind s) :=
    .next (.ite (.ite h.adv h.adv.twinFree.pageWaitEnd) (.ite h.adv.mirrorCut.modTwin.pageWaitEnd h.adv))

theorem execMirrorDeadlineExpire_answers {t p : Nat} (h : o.Keeps s) : o.Answers (execMirrorDeadlineExpire t p s) :=
    .next (.ite h.adv.modTwin.twinCount.modJob.ledgerOut.report.event.emit.pageWaitEnd h.adv)

theorem execTwinApplyReceive_answers {t p step : Nat} (h : o.Keeps s) : o.Answers (execTwinApplyReceive t p step s) := by
  unfold execTwinApplyReceive
  dsimp only
  refine .next ?_
  split
  · exact h.adv
  · exact .ite h.adv (.ite h.adv.emit (.ite h.adv.emit (h.adv.foldl fun _ _ h => h.logWrite).logWrite.modTwin.emit))

theorem execMirrorExportExpire_answers {t p : Nat} {commit : Bool} (h : o.Keeps s) : o.Answers (execMirrorExportExpire t p commit s) :=
    .next (.ite h.adv.modTwin h.adv)

theorem execInputRecordConsume_answers {t p : Nat} (h : o.Keeps s) : o.Answers (execInputRecordConsume t p s) := .next h.adv.modJob

/-! ## Resets -/

theorem Origin.Keeps.stopJob {p : Nat} (h : o.Keeps s) : o.Keeps (s.stopJob p) := by
  unfold State.stopJob
  dsimp only
  split
  · exact h
  · exact .modJob (.ite h.discardAttempt h)

theorem Origin.Keeps.resolvePrepared {p : Nat} (h : o.Keeps s) : o.Keeps (s.resolvePrepared p) := by
  unfold State.resolvePrepared
  split
  · exact h
  · split
    · exact .ite h.inject h
    · exact h

theorem Origin.Keeps.dropRepairs {g : Nat} (h : o.Keeps s) : o.Keeps (s.dropRepairs g) := by
  unfold State.dropRepairs
  exact .modRegion (.ite (h.foldl fun _ _ h => h.endPair) (h.foldl fun _ _ h => h.endPair).modSites.newGen)

theorem Origin.Keeps.abandonFills {g : Nat} (h : o.Keeps s) : o.Keeps (s.abandonFills g) := by
  unfold State.abandonFills
  dsimp only
  refine .rerouteRegion (.foldl (.ite h.dropRepairs.newGen h.dropRepairs) fun _ _ h => ?_)
  split
  · exact h.placeAt.moveWindows
  · exact h

theorem Origin.Keeps.resetDone {p : Option Nat} (h : o.Keeps s) : o.Keeps (s.resetDone p) := h.foldl fun _ _ h => h.finish

theorem Origin.Keeps.partResetGo {p : Nat} (h : o.Keeps s) : o.Keeps (s.partResetGo p) :=
    (h.stopPart.flush.foldl fun _ _ h => h.abandonFills).stopJob.beginSweep

theorem Origin.Keeps.resetFaults {p : Nat} (h : o.Keeps s) : o.Keeps (s.resetFaults p) := h.modJob

theorem Origin.Keeps.partReset {p mb : Nat} (h : o.Keeps s) : o.Keeps (s.partReset p mb) := by
  unfold State.partReset
  dsimp only
  refine .ite h.errDrain.setDown.resetFaults.modPart.abortLocked ?_
  split
  · exact .ite h.errDrain.setDown.resetFaults.modPart.abortLocked.beginHarvest h.errDrain.setDown.resetFaults.modPart.abortLocked.partResetGo
  · exact h.errDrain.setDown.resetFaults.modPart.abortLocked.partResetGo

theorem Origin.Keeps.resetNote {kind : Nat} (h : o.Keeps s) : o.Keeps (s.resetNote kind) := h.flash
theorem Origin.Keeps.partResetEnd {p : Nat} (h : o.Keeps s) : o.Keeps (s.partResetEnd p) :=
  h.setDown.modPart.resolvePrepared.resetNote.event.resetDone
theorem Origin.Keeps.hostLoad {cause : Nat} (h : o.Keeps s) : o.Keeps (s.hostLoad cause) := h.hubStatus.modHub.flash.event
theorem Origin.Keeps.startImage {i : Image} {host : Bool} (h : o.Keeps s) : o.Keeps (s.startImage i host) := h.hubStatus.modHub

theorem Origin.Keeps.verifyImage (h : o.Keeps s) : o.Keeps s.verifyImage.1 := by
  unfold State.verifyImage
  split
  · exact h.startImage
  · exact h.hostLoad

theorem Origin.Keeps.regionsUp {why : SweepFor} (h : o.Keeps s) : o.Keeps (s.regionsUp why) :=
    ((h.foldl fun _ _ h => .ite h.powerUp h).foldl fun _ _ h => .ite h.beginSweep h).foldl fun _ _ h => .ite h (.ite h.modSites h.modRegion)

theorem Origin.Keeps.portsTrain (h : o.Keeps s) : o.Keeps s.portsTrain := h.foldl fun _ _ h => .ite h.trainStart h

theorem Origin.Keeps.resetGo {kind : ResetKind} (h : o.Keeps s) : o.Keeps (s.resetGo kind) := by
  unfold State.resetGo
  extract_lets mbs mem recovered s1 s2 s3 s4 s5 s6
  have hmbs : o.Keeps mbs := h.foldl fun _ _ h => h.modMb
  have hrecovered : o.Keeps recovered := hmbs.mem
  have h1 : o.Keeps s1 := .ite hrecovered.verifyImage h
  have h2 : o.Keeps s2 := h1.foldl fun _ _ h => .ite h.stopPart.flush h
  have h3 : o.Keeps s3 := h2.foldl fun _ _ h => h.dropRepairs.modRegion
  have h4 : o.Keeps s4 := h3.foldl fun _ _ h => h.stopJob.modJob
  have h5 : o.Keeps s5 := Origin.Keeps.keepOnly h4.keepBegin
  have h6 : o.Keeps s6 := .ite (Origin.Keeps.portsTrain (h5.foldl fun _ _ h => .ite h.modChan h)) (h5.foldl fun _ _ h => .ite h.modChan.keepCheck h)
  exact h6.regionsUp

theorem Origin.Keeps.resetNext (h : o.Keeps s) : o.Keeps s.resetNext := by
  unfold State.resetNext
  split
  · exact .ite h h.resetGo
  · exact h

theorem Origin.Keeps.deviceReset {kind : ResetKind} {mb : Option Nat} {harvest : Bool} (h : o.Keeps s) : o.Keeps (s.deviceReset kind mb harvest) := by
  unfold State.deviceReset
  dsimp only
  refine ((h.hubStatus.modHub.foldl fun _ _ h => h.modRouter).foldl fun _ _ h => .ite (.ite h.modPart.abortLocked ?_) h).errDrain.resetNext
  split
  · exact .ite h.modPart.abortLocked.beginHarvest h.modPart.abortLocked.stopPart.flush
  · exact h.modPart.abortLocked.stopPart.flush

theorem Origin.Keeps.jobAfterReset {p plain : Nat} (h : o.Keeps s) : o.Keeps (s.jobAfterReset p plain) := by
  unfold State.jobAfterReset
  split
  · exact h.modPart
  · refine .ite h.endBinding.closeHeralds ?_
    extract_lets s1
    have h1 : o.Keeps s1 := h.zeroAll
    clear_value s1
    have halloc : o.Keeps ((s1.allocPages plain p .plain false true).getD (s1, [])).1 := by
      cases e : s1.allocPages plain p .plain false true with
      | none => exact h1
      | some x => exact h1.allocPages e
    split
    · next e => exact (halloc.fst e).modJob.resolvePrepared

theorem Origin.Keeps.resetEnd {kind : ResetKind} {start : Nat} (h : o.Keeps s) : o.Keeps (s.resetEnd kind start) :=
    ((((h.foldl fun _ _ h => .ite h.placeRegion h).foldl fun _ _ h => .ite h.placePart h).foldl fun _ _ h =>
      .ite h.modPart.jobAfterReset h).foldl fun _ _ h => h.modRouter).modHub.resetNote.event.resetDone

theorem execZeroSweepComplete_answers {t p : Nat} (h : o.Keeps s) : o.Answers (execZeroSweepComplete t p s) := by
  unfold execZeroSweepComplete
  dsimp only
  refine .next ?_
  split
  · exact h.adv
  · refine .ite h.adv ?_
    split
    · exact .finish (.ite h.adv.modSites.modPart h.adv.modSites.modPart.setDown)
    · exact .partResetEnd (.ite h.adv.modSites.modPart h.adv.modSites.modPart.setDown)
    · exact .ite h.adv.modSites.modPart h.adv.modSites.modPart.setDown

theorem execHarvestComplete_answers {t p : Nat} (h : o.Keeps s) : o.Answers (execHarvestComplete t p s) :=
    .next (.ite (.ite (.ite h.adv.modPart.event.resetNext h.adv.modPart.event.partResetGo) h.adv.modPart.event) h.adv)

theorem execNormalCompletion_answers {t p : Nat} (h : o.Keeps s) : o.Answers (execNormalCompletion t p s) := by
  unfold execNormalCompletion
  dsimp only
  refine .next ?_
  split
  · exact h.adv
  · exact .ite h.adv.endBinding.closeHeralds h.adv

/-! ## Boot, lockstep and pins -/

theorem Origin.Keeps.setModules (h : o.Keeps s) : o.Keeps s.setModules := h.foldl fun _ _ h => .ite h.emit h

theorem Origin.Keeps.applyConfig {c : Option ConfigBlock} (h : o.Keeps s) : o.Keeps (s.applyConfig c) :=
    .ite (h.modHub.foldl fun _ _ h => h.modPort).event (h.modHub.foldl fun _ _ h => h.modPort)

theorem Origin.Keeps.mergeLedgers (h : o.Keeps s) : o.Keeps s.mergeLedgers :=
    (((h.foldl fun _ _ h => .ite h h.ledgerAdd).foldl fun _ _ h => h.modSite).foldl fun _ _ h => .ite h.cellOff (.ite h.modRegion h)).foldl
      fun _ _ h => .ite h.darken (.ite h.darken h.applyStep)

theorem Origin.Keeps.bootBist {memFail : List MemFail} (h : o.Keeps s) : o.Keeps (s.bootBist memFail) :=
    (h.foldl fun _ _ h => .ite h.reportSite.fenceSite h).foldl fun _ _ h => .ite h.modSite h

theorem Origin.Keeps.bootReached {n : Nat} (h : o.Keeps s) : o.Keeps (s.bootReached n) := h.flash.modHub

theorem Origin.Keeps.bootOn {c : Option ConfigBlock} {memFail : List MemFail} (h : o.Keeps s) : o.Keeps (s.bootOn c memFail) :=
    .bootReached (.ite ((((h.applyConfig.setModules.mergeLedgers.foldl fun _ _ h => h.modChan).portsTrain.foldl fun _ _ h =>
      .ite h.modRegion.powerUp h).bootBist.foldl fun _ _ h => h.spareEvents).foldl fun _ _ h => .ite h.placeRegion h)
        ((((h.applyConfig.setModules.mergeLedgers.foldl fun _ _ h => h.modChan).portsTrain.foldl fun _ _ h =>
          .ite h.modRegion.powerUp h).bootBist.foldl fun _ _ h => h.spareEvents).foldl fun _ _ h => .ite h.placeRegion h).modHub.event)

theorem execColdBoot_answers {t : Nat} {tests : BootTests} {memFail : List MemFail} (h : o.Keeps s) :
    o.Answers (execColdBoot t tests memFail s) := by
  unfold execColdBoot
  extract_lets s1 p1 s2 s3 f1 b1 s4 c1 s5
  have h1 : o.Keeps s1 := h.adv
  have h2 : o.Keeps s2 := Origin.Keeps.bootReached (Origin.Keeps.modHub h1.power)
  have h3 : o.Keeps s3 := .ite h2 h2.modAlarm.alarm
  have h4 : o.Keeps s4 := h3.flash
  have h5 : o.Keeps s5 := .ite h4 h4.sec.event
  clear_value s5
  refine .next (.ite h1 ?_)
  split
  · next e => exact (h5.bootReached.verifyImage.fst e).bootOn
  · next e => exact h5.bootReached.verifyImage.fst e

theorem Origin.Keeps.mapSystem (h : o.Keeps s) : o.Keeps s.mapSystem := by
  unfold State.mapSystem
  dsimp only
  split
  next e => exact (h.allocPages e).mem
  · exact h

theorem Origin.Keeps.bootStepFt (h : o.Keeps s) : o.Keeps s.bootStepFt := by
  unfold State.bootStepFt
  split
  · exact .ite h h.modTime
  · exact h

theorem execReadySet_answers {t : Nat} (h : o.Keeps s) : o.Answers (execReadySet t s) := by
  unfold execReadySet
  dsimp only
  refine .next (.ite h.adv ?_)
  split
  · refine .ite (.event (.flash (.bootReached (.event (.hubStatus ?_))))) (.bootReached (.event (.hubStatus ?_)))
    · split
      · exact h.adv.resetEnd
      · exact h.adv.bootStepFt.mapSystem
    · split
      · exact h.adv.resetEnd
      · exact h.adv.bootStepFt.mapSystem
  · refine .bootReached (.event (.hubStatus ?_))
    split
    · exact h.adv.resetEnd
    · exact h.adv.bootStepFt.mapSystem

theorem execLedgerAppend_answers {t kind cls id : Nat} (h : o.Keeps s) : o.Answers (execLedgerAppend t kind cls id s) := by
  unfold execLedgerAppend
  dsimp only
  refine .next ?_
  split
  · exact h.adv
  · exact h.adv.flash

theorem Origin.Keeps.lockstep {pair cause pc : Nat} (h : o.Keeps s) : o.Keeps (s.lockstep pair cause pc) := h.report

theorem execLockstepMismatch_answers {t pair pc : Nat} (h : o.Keeps s) : o.Answers (execLockstepMismatch t pair pc s) :=
    .next (.ite h.adv (.ite h.adv.modHub.lockstep.event h.adv.modHub.lockstep.deviceReset))

theorem execHeartbeatTick_answers {t : Nat} (h : o.Keeps s) : o.Answers (execHeartbeatTick t s) := .next (.ite h.adv.modHub h.adv)

theorem execWatchdogExpire_answers {t : Nat} (h : o.Keeps s) : o.Answers (execWatchdogExpire t s) :=
    .next (.ite h.adv.lockstep.modHub.deviceReset h.adv)

/-- A cold reset keeps the queue; the memory it leaves is empty, and a new one's sensors have no reading. -/
theorem Origin.Keeps.coldReset (hs : o.sensors = false) (h : o.Keeps s) : o.Keeps s.coldReset :=
  ⟨h.queue, fun _ => resetMemInv, fun hfollowed => by simp [hs] at hfollowed⟩

theorem execColdRstNAssert_answers {t us : Nat} (hs : o.sensors = false) (h : o.Keeps s) : o.Answers (execColdRstNAssert t us s) := by
  unfold execColdRstNAssert
  refine .next (.ite h.adv ?_)
  split
  next e =>
  have h1 := h.adv.draw 1 |>.snd e
  exact .ite (h1.coldReset hs).pins h1

theorem execColdRstNRelease_answers {t : Nat} (h : o.Keeps s) : o.Answers (execColdRstNRelease t s) := .next h.adv.pins
theorem execRailRemoval_answers {t : Nat} (hs : o.sensors = false) (h : o.Keeps s) : o.Answers (execRailRemoval t s) :=
  .next (h.adv.coldReset hs).power

theorem execMgmtLinkLoss_answers {t port : Nat} (h : o.Keeps s) : o.Answers (execMgmtLinkLoss t port s) :=
    .next (h.adv.modMgmt.foldl fun _ _ h => h.modMb)

end Sys2Proof.Machine
end

section
/-! PROOFS. What every row keeps, on: the commands, the collector and the host port. -/

namespace Sys2Proof.Machine

variable {o : Origin} {s : State}

/-! ## How a command runs -/

theorem Origin.Keeps.go {f : CmdDef} {mb : Nat} {d : Desc} (h : o.Keeps s) (hf : f.Keeps) : o.Keeps (s.go f mb d) := by
  unfold State.go
  extract_lets c st
  refine .ite h.finish ?_
  split
  · exact hf h
  · exact .ite (hf h) (.ite (hf h.modPart) h.modPart)

theorem Origin.Keeps.badOps {n mb : Nat} (h : o.Keeps s) : o.Keeps (State.badOps n s mb) := by
  induction n generalizing s with
  | zero => exact h
  | succ n ih =>
    unfold State.badOps
    extract_lets m
    split
    · exact .ite h (ih h.modMb.finish)
    · exact h

theorem CmdDef.Keeps.answer {f : CmdDef} {mb : Nat} {e : ExtIn} {d : Desc} (hf : f.Keeps) (h : o.Keeps s) : o.Keeps (f.answer s mb e d) := by
  unfold CmdDef.answer
  extract_lets m s1 c
  have h1 : o.Keeps s1 := h.modMb
  clear_value s1
  refine .ite h ?_
  split
  · exact (hf h1).badOps
  · exact .ite (hf h1).badOps h1

theorem CmdDef.Keeps.start {f : CmdDef} {mb : Nat} {e : ExtIn} (hf : f.Keeps) (h : o.Keeps s) : o.Keeps (f.start s mb e) := by
  unfold CmdDef.start
  extract_lets s1 m
  have h1 : o.Keeps s1 := h.badOps
  split
  · exact .ite h1 (h1.modMb.go hf).badOps
  · exact hf.answer h1
  · exact h1

theorem CmdDef.Keeps.run {f : CmdDef} {t mb : Nat} {e : ExtIn} (hf : f.Keeps) (h : o.Keeps s) : o.Answers (f.run t mb e s) :=
  .next (hf.start h.adv)

theorem Origin.Keeps.askedOf {mb : Nat} (h : o.Keeps s) : o.Keeps (s.askedOf mb) := h.modMb
theorem Origin.Keeps.askOnce {mb : Nat} {q : OutMsg} (h : o.Keeps s) : o.Keeps (s.askOnce mb q) := .ite h h.emit.askedOf

/-- A fold whose steps are spoken of by what they come to, so that no step has to be computed. -/
theorem Origin.Keeps.foldl_fst_eq {α β : Type} {f : State × β → α → State × β} {l : List α} {a x : State × β} (h : o.Keeps a.1)
    (hf : ∀ a i y, o.Keeps a.1 → f a i = y → o.Keeps y.1) (e : l.foldl f a = x) : o.Keeps x.1 :=
  .fst (.foldl_fst h fun a i ha => hf a i _ ha rfl) e

theorem Origin.Keeps.bufIn {c : Cmd} (h : o.Keeps s) : o.Keeps (s.bufIn c).1 := by
  -- The cuts of the buffer and what is read of them are taken as any, as a checker that computes a match on them walks through the buffer.
  obtain ⟨cut, hcut⟩ : ∃ cut, @pageCuts = cut := ⟨_, rfl⟩
  obtain ⟨read, hread, hkeeps⟩ : ∃ read, @State.pageRead = read ∧
      ∀ {s l off n ecc src part own word}, o.Keeps s → o.Keeps (read s l off n ecc src part own word).1 :=
    ⟨_, rfl, fun h => h.pageRead⟩
  rw [State.bufIn, hcut, hread]
  extract_lets n
  split
  · exact h
  · split
    · exact .pair h.pageRefuse
    · split
      next e =>
      refine .pair (Origin.Keeps.foldl_fst_eq ?_ ?_ e)
      · exact h
      · intro a x y ha hy
        split at hy
        next t b u e =>
        have ht : o.Keeps t := (hkeeps ha).fst e
        cases hy
        exact ht
  · exact h
  · exact h

theorem Origin.Keeps.bufCan {c : Cmd} (h : o.Keeps s) : o.Keeps (s.bufCan c).1 := by
  unfold State.bufCan
  dsimp only
  split
  · exact h
  · split
    · exact h.pageRefuse
    · exact h
  · exact h
  · exact h
  · exact h

theorem Origin.Keeps.bufPut {c : Cmd} {bs : List Byte} (h : o.Keeps s) : o.Keeps (s.bufPut c bs).1 := by
  unfold State.bufPut
  split
  · exact .pair (.ite h h.emit)
  · exact .pair (h.foldl fun _ _ h => h.pageWrite)
  · exact .pair h.modMb
  · exact h
  · exact h

theorem Origin.Keeps.finishOut {c : Cmd} {units : List (List Byte)} {result : Nat → Nat → Nat}
    (h : o.Keeps s) : o.Keeps (s.finishOut c units result) := by
  unfold State.finishOut
  dsimp only
  split
  next e => exact (h.bufCan.fst e).finish
  next e => exact (h.bufCan.fst e).bufPut.finishWith

/-! ## Security commands -/

theorem cmdAttest_keeps : cmdAttest.Keeps := by
  intro o s c h
  dsimp only [cmdAttest]
  refine .ite h.finish (.ite h.finish (.ite h.finishOut ?_))
  split
  next e => exact (h.bufIn.fst e).finish
  next e => exact .ite (h.bufIn.fst e).finish ((h.bufIn.fst e).draw 256).modMb.finishOut

theorem cmdAlarmPolicy_keeps : cmdAlarmPolicy.Keeps := fun h => .ite h.finish (.ite h.finish h.modAlarm.finish)

theorem Origin.Keeps.debugOpen {scope : Nat} (h : o.Keeps s) : o.Keeps (s.debugOpen scope) :=
    .event (.sec (.foldl (.foldl (.ite h.eraseSession h) fun _ _ h => h.modJob) fun _ _ h => .ite h.faultJob h))

theorem cmdDebugUnlock_keeps : cmdDebugUnlock.Keeps := by
  intro o s c h
  dsimp only [cmdDebugUnlock]
  refine .ite h.finish (.ite (h.draw 128).sec.finish ?_)
  split
  next e => exact (h.bufIn.fst e).finish
  next e => exact .ite (h.bufIn.fst e).sec.debugOpen.finish (h.bufIn.fst e).sec.alarm.finish

theorem cmdDebugLock_keeps : cmdDebugLock.Keeps := fun h => h.sec.finish
theorem Origin.Keeps.keyActivate {slot port : Nat} (h : o.Keeps s) : o.Keeps (s.keyActivate slot port) := .ite h h.modPort.sendCtl

theorem cmdKeyInstall_keeps : cmdKeyInstall.Keeps := by
  intro o s c h
  dsimp only [cmdKeyInstall]
  split
  · exact h.finish
  · split
    · exact h.finish
    · refine .ite h.finish (.ite h.finish ?_)
      split
      next e2 => exact (h.bufIn.fst e2).finish
      next e2 =>
        split
        · exact (h.bufIn.fst e2).finish
        · split
          · exact (h.bufIn.fst e2).finish
          · exact .finish (.ite (h.bufIn.fst e2).sec.keyActivate (h.bufIn.fst e2).sec)

theorem cmdKeyErase_keeps : cmdKeyErase.Keeps := by
  intro o s c h
  dsimp only [cmdKeyErase]
  split
  · exact h.finish
  · exact h.sec.finish

theorem cmdMgmtChallenge_keeps : cmdMgmtChallenge.Keeps := fun h => .ite h.finish (h.draw 128).modMb.finish

theorem cmdMgmtAuth_keeps : cmdMgmtAuth.Keeps := by
  intro o s c h
  dsimp only [cmdMgmtAuth]
  refine .ite h.finish (.ite h.finish ?_)
  split
  next e => exact (h.bufIn.fst e).finish
  next e => exact .ite (h.bufIn.fst e).modMb.modMb.finish (h.bufIn.fst e).modMb.finish

theorem cmdOperatorKeyFuse_keeps : cmdOperatorKeyFuse.Keeps := by
  intro o s c h
  dsimp only [cmdOperatorKeyFuse]
  refine .ite h.finish (.ite h.finish (.ite h.fuses.finish (.ite h.finish ?_)))
  split
  next e => exact (h.bufIn.fst e).finish
  next e => exact .ite (h.bufIn.fst e).finish (h.bufIn.fst e).fuses.finish

/-! ## Census -/

theorem Origin.Keeps.sliceReads {p obj n : Nat} (h : o.Keeps s) : o.Keeps (s.sliceReads p obj n) := .ite h (h.foldl fun _ _ h => .ite h h.eccRange)

/-! ## Census, log and harvest commands -/

theorem Origin.Keeps.finishObjects {c : Cmd} {us : List (List Byte)} (h : o.Keeps s) : o.Keeps (s.finishObjects c us) := h.finishOut

theorem cmdCensusRead_keeps : cmdCensusRead.Keeps := by
  intro o s c h
  dsimp only [cmdCensusRead]
  split
  · exact h.finish
  · exact h.sliceReads.finishObjects

theorem Origin.Keeps.capture {c : Cmd} {obj n : Nat} (h : o.Keeps s) : o.Keeps (s.capture c obj n) := by
  unfold State.capture
  dsimp only
  split
  · exact h.modMb.finish
  · exact .ite h.modMb.finish h.modMb.sliceReads.modMb.finishObjects

theorem cmdCensusSnapshot_keeps : cmdCensusSnapshot.Keeps := by
  intro o s c h
  dsimp only [cmdCensusSnapshot]
  refine .ite h.finish ?_
  split
  · exact h.finish
  · exact .ite h.sliceReads.finishObjects (.ite h.finish h.modMb)

theorem execCensusGateCapture_answers {t p : Nat} (h : o.Keeps s) : o.Answers (execCensusGateCapture t p s) := by
  unfold execCensusGateCapture
  dsimp only
  refine .next (.ite h.adv (h.adv.foldl fun _ _ h => ?_))
  split
  · exact .ite h.capture h
  · exact h

theorem Origin.Keeps.logUnits {first n : Nat} (h : o.Keeps s) : o.Keeps (s.logUnits first n).2 := .ite_snd h (h.draw 512)
theorem cmdLogRead_keeps : cmdLogRead.Keeps := by
  intro o s c h
  dsimp -zeta only [cmdLogRead]
  extract_lets oldest first n
  exact Origin.Keeps.finishOut h.logUnits
theorem cmdHarvestSet_keeps : cmdHarvestSet.Keeps := fun h => .ite h.finish (.ite h.finish h.modPart.finish)
theorem cmdHarvestRead_keeps : cmdHarvestRead.Keeps := by
  intro o s c h
  dsimp -zeta only [cmdHarvestRead]
  extract_lets x harvested
  exact .ite h.finish (.ite h.finish (.ite h.finishOut h.storeTiles.finishOut))

/-! ## Commit commands -/

theorem cmdCommitStatus_keeps : cmdCommitStatus.Keeps := fun h => h.finish

theorem cmdDigestRead_keeps : cmdDigestRead.Keeps := by
  intro o s c h
  dsimp only [cmdDigestRead]
  refine .ite h.finish ?_
  split
  · exact h.finish
  · split <;> exact h.finish

theorem cmdHoldRelease_keeps : cmdHoldRelease.Keeps := fun h => h.holdRelease.finish

theorem cmdReplayForce_keeps : cmdReplayForce.Keeps := by
  intro o s c h
  dsimp only [cmdReplayForce]
  split
  · exact h.finish
  · exact .ite h.holdRelease.finish (.ite (.ite h h.inject.askedOf) (.finish (.ite h h.inject.askedOf)))

theorem Origin.Keeps.undoLog {j : Job} {g : Nat} (h : o.Keeps s) : o.Keeps (s.undoLog j g) := h.foldl fun _ _ h => h.putBack

theorem cmdCommitRewind_keeps : cmdCommitRewind.Keeps := by
  intro o s c h
  dsimp only [cmdCommitRewind]
  split
  · exact h.finish
  · refine .ite h.finish ?_
    split
    · exact h.finish
    · exact h.undoLog.modJob.ledgerOut.finish

theorem cmdFenceSite_keeps : cmdFenceSite.Keeps := by
  intro o s c h
  dsimp only [cmdFenceSite]
  split
  · exact h.finish
  · exact .ite h.finish (.finish (.ite h.fenceNow h.planFence))

theorem cmdVigilSet_keeps : cmdVigilSet.Keeps := fun h => .ite h.finish (.finish (.ite h.modRegion.vigilSelect h.modRegion))

/-! ## Device, mailbox and partition commands -/

theorem cmdIdentify_keeps : cmdIdentify.Keeps := fun h => h.finish
theorem cmdDeviceIdSet_keeps : cmdDeviceIdSet.Keeps := fun h => .ite h.finish h.modHub.finish

theorem cmdConfigWrite_keeps : cmdConfigWrite.Keeps := by
  intro o s c h
  dsimp only [cmdConfigWrite]
  split
  next e => exact (h.bufIn.fst e).finish
  next e => exact .ite (h.bufIn.fst e).flash.finish (h.bufIn.fst e).finish

theorem cmdFwHostload_keeps (memFail : List MemFail) : (cmdFwHostload memFail).Keeps := by
  intro o s c h
  dsimp only [cmdFwHostload]
  refine .ite h.finish ?_
  split
  next e => exact (h.bufIn.fst e).finish
  next e => exact .ite (h.bufIn.fst e).finish (.ite (.ite (h.bufIn.fst e).startImage.finish.applyConfig (h.bufIn.fst e).startImage.finish)
    (h.bufIn.fst e).startImage.finish.bootOn)

theorem cmdMailboxClaim_keeps : cmdMailboxClaim.Keeps := by
  intro o s c h
  dsimp only [cmdMailboxClaim]
  refine .ite ?_ (.ite h.finish (.ite h.finish h.modMb.finish))
  split
  · exact h.finish
  · exact .ite h.finish h.modMb.finish

theorem cmdMailboxRelease_keeps : cmdMailboxRelease.Keeps := fun h => .ite h.finish h.modMb.finish
theorem cmdEventMaskSet_keeps : cmdEventMaskSet.Keeps := fun h => .ite h.finish h.ev.finish
theorem cmdEventStreamSet_keeps : cmdEventStreamSet.Keeps := fun h => .ite h.finish h.modMgmt.finish
theorem Origin.Keeps.emberDone {run : BitVec 64} {fails : Nat} (h : o.Keeps s) : o.Keeps (s.emberDone run fails) := h.event
theorem Origin.Keeps.scanned {k : Nat} (h : o.Keeps s) : o.Keeps (s.scanned k) := by
  unfold State.scanned
  exact (h.draw 6291456).modSite

theorem Origin.Keeps.emberScan {sigs : List (Nat × BitVec 64)} {slow : List Nat} (h : o.Keeps s) : o.Keeps (s.emberScan sigs slow) :=
    (h.flash.foldl fun _ _ h => h.scanned).emberDone

theorem cmdShutdown_keeps (sigs : List (Nat × BitVec 64)) (slow : List Nat) : (cmdShutdown sigs slow).Keeps :=
    fun h => .ite h.finish (.ite h.finish (.emit (.finish
      (.ite h.modHub.errDrain.flash.eraseSession.emberScan h.modHub.errDrain.flash.eraseSession))))

theorem Origin.Keeps.emberRegion {sigs : List (Nat × BitVec 64)} {ran : Bool} {g : Nat} (h : o.Keeps s) : o.Keeps (s.emberRegion sigs ran g) :=
    .modSites (.ite (h.foldl fun _ _ h => .ite h.reportSite.fenceNow h.modSite) h)

theorem cmdEmberRun_keeps (sigs : List (Nat × BitVec 64)) (slow : List Nat) : (cmdEmberRun sigs slow).Keeps :=
    fun h => .ite h.finish (h.foldl fun _ _ h => h.emberRegion).emberDone.finish

theorem Origin.Keeps.resetCmd {kind : ResetKind} {mb : Nat} (h : o.Keeps s) : o.Keeps (s.resetCmd kind mb) := by
  unfold State.resetCmd
  split
  · exact .ite h h.deviceReset
  · exact h.deviceReset

theorem cmdResetJubilee_keeps : cmdResetJubilee.Keeps := fun h => .ite h.finish h.resetCmd

theorem cmdResetRecovery_keeps (asserting : List Nat) : (cmdResetRecovery asserting).Keeps :=
    fun h => .ite h.finish (.ite h.finish (.ite h.finish (h.modHub.setHalted.pins.foldl fun _ _ h => h.modRegion).resetCmd))

theorem cmdResetPartition_keeps : cmdResetPartition.Keeps := fun h => .ite h.finish (.ite h.finish (.ite h h.partReset))

theorem cmdPartitionCreate_keeps : cmdPartitionCreate.Keeps := by
  intro o s c h
  dsimp only [cmdPartitionCreate]
  refine .ite h.finish (.ite h.finish ?_)
  split
  · exact h.finish
  · exact (h.draw 128).modPart.finish

theorem cmdPartitionDestroy_keeps : cmdPartitionDestroy.Keeps :=
    fun h => .ite h.finish (.finish (.modPart (.foldl (.setDown (.modSites (.of_eq (.unmapPages (.ite h h.emit.twinFree))))) fun _ _ h =>
      .ite h.modMb h)))

theorem cmdOrdoUnload_keeps : cmdOrdoUnload.Keeps := fun h => .ite h.finish h.dropRestore.unmapPages.modPart.finish
theorem cmdIntercalarySet_keeps : cmdIntercalarySet.Keeps := fun h => .ite h.finish h.modPart.finish

/-! ## Ordo and job commands -/

theorem Origin.Keeps.mapImages {p : Nat} {o' : Ordo} (h : o.Keeps s) : o.Keeps (s.mapImages p o') := by
  unfold State.mapImages
  dsimp only
  split
  next e => exact (h.unmapPages.allocPages e).modPart
  · exact h.unmapPages.modPart

theorem Origin.Keeps.ordoIn {p : Nat} {o' : Ordo} (h : o.Keeps s) : o.Keeps (s.ordoIn p o') := h.dropRestore.mapImages.modPart.flush.placePart

theorem cmdOrdoLoad_keeps : cmdOrdoLoad.Keeps := by
  intro o s c h
  dsimp only [cmdOrdoLoad]
  refine .ite h.finish (.ite h.finish (.ite h ?_))
  split
  next e => exact (h.bufIn.fst e).finish
  next e =>
    split
    · exact (h.bufIn.fst e).finish
    · exact (h.bufIn.fst e).ordoIn.finish

theorem Origin.Keeps.waitZero {mb : Nat} (h : o.Keeps s) : o.Keeps (s.waitZero mb) := h.mem

theorem Origin.Keeps.allocWith {α : Type} {f : State → Option (State × α)} {t : State} {a : α} (h : o.Keeps s)
    (hf : o.Keeps s → ∀ x, f s = some x → o.Keeps x.1) (e : s.allocWith f = .done t a) : o.Keeps t := by
  unfold State.allocWith at e
  split at e
  · next hdone =>
    split at e
    · cases e
    · cases e; exact hf h _ hdone
  · split at e
    · split at e <;> cases e
    · cases e

theorem Origin.Keeps.allocSides {p n : Nat} {x : State × Tbl Nat × Tbl Nat} (h : o.Keeps s) (e : s.allocSides p n = some x) :
    o.Keeps x.1 := by
  unfold State.allocSides at e
  extract_lets tbl at e
  split at e
  · cases e
  · next ea =>
    split at e
    · cases e
    · next eb =>
      cases e
      have hb := (h.allocPages ea).allocPages eb
      exact hb

theorem Origin.Keeps.allocJob {p : Nat} {o' : Ordo} {x : State × List Nat} (h : o.Keeps s) (e : s.allocJob p o' = some x) :
    o.Keeps x.1 := by
  obtain ⟨alloc, halloc, hkeeps⟩ : ∃ alloc, @State.allocPages = alloc ∧
      ∀ {s n owner kind kept out x}, o.Keeps s → alloc s n owner kind kept out = some x → o.Keeps x.1 :=
    ⟨_, rfl, fun h e => h.allocPages e⟩
  -- The definition is unfolded as a function: applied, a checker would compute the search that it matches on.
  have hdef : State.allocJob = State.allocJob := rfl
  conv at hdef => lhs; delta State.allocJob
  rw [← hdef, halloc] at e
  beta_reduce at e
  split at e
  · cases e
  · next el =>
    split at e
    · cases e
    · next em =>
      cases e
      exact .pair (hkeeps (hkeeps h el) em)

/-- The two searches for the pages of a job, with what they keep. They are spoken of as any two functions that keep it, as a checker that
computes a match on what they answer runs the search. -/
theorem exists_alloc : ∃ (sides : State → Nat → Nat → Option (State × Tbl Nat × Tbl Nat)) (job : State → Nat → Ordo → Option (State × List Nat)),
    State.allocSides = sides ∧ State.allocJob = job ∧
    (∀ {o : Origin} {s p n x}, o.Keeps s → sides s p n = some x → o.Keeps x.1) ∧
    ∀ {o : Origin} {s p ordo x}, o.Keeps s → job s p ordo = some x → o.Keeps x.1 :=
  ⟨_, _, rfl, rfl, fun h e => h.allocSides e, fun h e => h.allocJob e⟩

theorem Origin.Keeps.putClass {j : Job} {c off : Nat} {bs : List Byte} (h : o.Keeps s) : o.Keeps (s.putClass j c off bs) := h.dramWrite

theorem Origin.Keeps.writeGen0 {j : Job} {o' : Ordo} (h : o.Keeps s) : o.Keeps (s.writeGen0 j o') :=
    (((h.foldl fun _ _ h => h.putClass).putClass.foldl fun _ _ h => h.putClass).putClass.foldl fun _ _ h => h.putClass).foldl fun _ _ h => h.dramWrite

theorem Origin.Keeps.almTemplatesIn {p base : Nat} {o' : Ordo} (h : o.Keeps s) : o.Keeps (s.almTemplatesIn p base o') := by
  unfold State.almTemplatesIn
  exact h.watchOrphan.alm.modPart

theorem Origin.Keeps.bindJob {p mb base : Nat} {o' : Ordo} {j : Job} {slices : List DataItem}
    (h : o.Keeps s) : o.Keeps (s.bindJob p mb base o' j slices) := .ite ((h.almTemplatesIn.ovfClear.modPart.ledgerOut.reloadPart.foldl
      fun _ _ h => h.modSite).openHeralds.foldl fun _ _ h => h.powerUp).vigilGate.modTwin.mirrorPend
        ((h.almTemplatesIn.ovfClear.modPart.ledgerOut.reloadPart.foldl fun _ _ h => h.modSite).openHeralds.foldl fun _ _ h => h.powerUp).vigilGate

theorem Origin.Keeps.tablesSend {mb p : Nat} {o' : Ordo} (h : o.Keeps s) : o.Keeps (s.tablesSend mb p o') := .ite h h.askedOf.emits

theorem cmdJobStart_keeps : cmdJobStart.Keeps := by
  intro o s c h
  obtain ⟨sides, job, hsides, hjob, hkeepsSides, hkeepsJob⟩ := exists_alloc
  dsimp -zeta only [cmdJobStart]
  rw [hsides, hjob]
  extract_lets p x base
  refine .ite h.finish (.ite h.finish (.ite h.finish ?_))
  split
  · exact h.finish
  · extract_lets t kept s1 freed
    have h1 : o.Keeps s1 := h.tablesSend
    have hfreed : o.Keeps freed := by
      dsimp only [freed]
      split
      · exact h1.unmapPages.zeroAll.modPart
      · exact h1
    clear_value freed s1 kept
    refine .ite h.finish (.ite h.finish (.ite h.finish (.ite h1 (.ite h1.finish (.ite h1.finish ?_)))))
    split
    · split
      · exact h1.finish
      · exact h1.waitZero
      · next e => exact (h1.allocWith (fun h _ e => hkeepsJob h e) e).bindJob
    · split
      · exact h1.finish
      · exact hfreed.waitZero
      · next e =>
        refine (hfreed.allocWith ?_ e).writeGen0.bindJob
        intro _ y e
        split at e
        · cases e
        · next es =>
          split at e
          · cases e
          · next ej =>
            cases e
            exact .pair (hkeepsJob (hkeepsSides hfreed es) ej)

theorem cmdJobKill_keeps : cmdJobKill.Keeps :=
    fun h => .ite h.finish (.ite (.finish (.closeHeralds (.ite h.abortLocked.unbind.beginSweep h.abortLocked.endBinding))) (.closeHeralds
      (.ite h.abortLocked.unbind.beginSweep h.abortLocked.endBinding)))

/-! ## Memory commands -/

theorem cmdPagemapAlloc_keeps : cmdPagemapAlloc.Keeps := by
  intro o s c h
  dsimp -zeta only [cmdPagemapAlloc]
  extract_lets half n l own first kind
  clear_value first
  refine .ite h.finish ?_
  split
  · exact h.finish
  · refine .ite h.finish ?_
    extract_lets ls
    split
    · exact h.finish
    · exact h.waitZero
    · next e =>
      refine (h.allocWith ?_ e).finish
      intro _ x e
      obtain ⟨y, hy, rfl⟩ := Option.map_eq_some_iff.mp e
      exact .pair (h.mapPages hy)

theorem cmdPagemapFree_keeps : cmdPagemapFree.Keeps := fun h => .ite h.finish h.unmapPages.finish

theorem cmdWindowOpen_keeps : cmdWindowOpen.Keeps :=
    fun h => .ite h.finish (.ite h.finish (.ite (.ite h.finish h.modSite.finish) (.ite h.finish (.ite h.finish h.mem.finish))))

theorem cmdWindowClose_keeps : cmdWindowClose.Keeps := fun h => .ite h.finish (.ite (.ite h.finish h.modSite.finish) h.mem.finish)
theorem cmdKeepSet_keeps : cmdKeepSet.Keeps := fun h => .ite h.finish (.ite h.finish (h.foldl fun _ _ h => h.setPage).finish)
theorem cmdScrubSet_keeps : cmdScrubSet.Keeps := fun h => .ite h.finish h.mem.finish
theorem cmdPageRetire_keeps : cmdPageRetire.Keeps := fun h => .ite h.finish h.startRetire.finish
theorem cmdPageRetireSet_keeps : cmdPageRetireSet.Keeps := fun h => .ite h.finish h.mem.finish

/-! ## Network commands -/

theorem Origin.Keeps.forceDown {i : Nat} (h : o.Keeps s) : o.Keeps (s.forceDown i) := .ite h.sendCtl h.portDown
theorem Origin.Keeps.portEnable {i : Nat} (h : o.Keeps s) : o.Keeps (s.portEnable i) := .ite h.modPort.trainStart h.modPort

theorem Origin.Keeps.minWidthSet {i w : Nat} (h : o.Keeps s) : o.Keeps (s.minWidthSet i w) :=
    .ite h.modPort.emit (.ite h.modPort (.ite h.modPort.sendCtl.portDown h.modPort.sendCtl))

theorem cmdPortConfig_keeps : cmdPortConfig.Keeps :=
    fun h => .ite h.finish (.finish (.ite (.portEnable (.ite (.ite h h.minWidthSet) (.modPort (.ite h h.minWidthSet)))) (.ite (.forceDown (.ite
      (.ite h h.minWidthSet) (.modPort (.ite h h.minWidthSet)))) (.ite (.ite h h.minWidthSet) (.modPort (.ite h h.minWidthSet))))))

theorem cmdPortRetrain_keeps : cmdPortRetrain.Keeps := fun h => .ite h.finish (.ite h.finish (.modPort (.trainStart (.ite h.sendCtl h))))
theorem cmdLinkBerTest_keeps (ratios : List Nat) : (cmdLinkBerTest ratios).Keeps := fun h => .ite h.finish (.ite h.finish h.finishOut)
theorem cmdRouteCfgSet_keeps : cmdRouteCfgSet.Keeps := fun h => .ite h.finish (.finish (.routing (.ite h h.modRcfg)))

theorem Origin.Keeps.routeWrite {ver : Bool} {kind i : Nat} {b : List Byte} {x : State} (h : o.Keeps s)
    (e : s.routeWrite ver kind i b = some x) : o.Keeps x := by
  unfold State.routeWrite at e
  split at e
  · obtain ⟨y, -, rfl⟩ := Option.map_eq_some_iff.mp e
    exact h.routing
  · split at e
    · cases e; exact h.routing
    · obtain ⟨y, -, rfl⟩ := Option.map_eq_some_iff.mp e
      exact h.routing

theorem cmdRouteTableWrite_keeps : cmdRouteTableWrite.Keeps := by
  intro o s c h
  dsimp -zeta only [cmdRouteTableWrite]
  extract_lets v kind n
  refine .ite h.finish (.ite h.finish ?_)
  split
  · next e => exact (h.bufIn.fst e).finish
  · next e =>
    have h1 := h.bufIn.fst e
    refine .ite h1.finish ?_
    split
    · exact h1.finish
    · next ewrite =>
      refine (Origin.Keeps.foldl_some ?_ ?_ h1 ewrite).finish
      · intro _; rfl
      · intro _ _ _ h e
        exact h.routeWrite e

theorem cmdRouteSwap_keeps : cmdRouteSwap.Keeps := fun h => .ite h.finish (.ite h.finish h.modRcfg.swapTry)

theorem cmdRouteEpochSwitch_keeps : cmdRouteEpochSwitch.Keeps :=
    fun h => .ite h.finish (.retire (.finish (.ite (h.foldl fun _ _ h => h.modRcfg).routing (h.foldl fun _ _ h => h.modRcfg))))

theorem Origin.Keeps.heraldMoved {p g h' : Nat} (h : o.Keeps s) : o.Keeps (s.heraldMoved p g h') := by
  unfold State.heraldMoved
  dsimp only
  split
  · split
    · exact .ite h.modJob.inject h.modJob
    · exact h.modJob
  · exact h.modJob

theorem cmdGroupHeraldSet_keeps : cmdGroupHeraldSet.Keeps := by
  intro o s c h
  dsimp only [cmdGroupHeraldSet]
  split
  · exact h.finish
  · exact .ite h.finish (.ite h.finish (.finish (.foldl (.ite (.ite h h.addHerald) h.dropHerald) fun _ _ h => h.heraldMoved)))

/-! ## Power commands -/

theorem cmdDvfsSet_keeps : cmdDvfsSet.Keeps := fun h => .ite h.finish (h.foldl fun _ _ h => h.modRegion.applyStep).finish
theorem cmdPowerBudgetSet_keeps : cmdPowerBudgetSet.Keeps := fun h => .ite h.finish h.power.finish
theorem cmdPrewarnDefaultSet_keeps : cmdPrewarnDefaultSet.Keeps := fun h => .ite h.finish h.modPart.finish

theorem cmdRegionPower_keeps : cmdRegionPower.Keeps :=
    fun h => .ite h.finish (.ite h.finish (.ite h.finish (h.foldl fun _ _ h => .ite h (.ite h.powerUp h.powerDown)).powerWaiters))

theorem cmdThermalSet_keeps : cmdThermalSet.Keeps := fun h => .ite h.finish h.power.finish

/-! ## Time commands -/

theorem cmdAlmanacWrite_keeps : cmdAlmanacWrite.Keeps :=
    fun h => .ite h.finish (.ite h.finish (.ite h.finish (.ite (.ite h.alm.finish h.finish) (.ite h.finish h.alm.finish))))

theorem cmdAlmanacArm_keeps : cmdAlmanacArm.Keeps := fun h => .ite h.finish (.ite h.finish h.alm.finish)
theorem cmdAlmanacDisarm_keeps : cmdAlmanacDisarm.Keeps := fun h => h.alm.finish
theorem cmdTimeSet_keeps : cmdTimeSet.Keeps := fun h => .ite h.finish (.ite h.finish (.finish (.ite h.modTime.modTime h.modTime.modTime)))

theorem cmdIdesSet_keeps : cmdIdesSet.Keeps :=
    fun h => .ite h.modPart.finish (.ite h.modPart.finish (.ite h.modPart.finish (.ite h.modPart.finish h.finish)))

theorem Origin.Keeps.clearStats {g : Nat} (h : o.Keeps s) : o.Keeps (s.clearStats g) := by
  unfold State.clearStats
  dsimp only
  split
  · exact h
  · exact h.setHerald.foldl fun _ _ h => h.ovfClear

theorem cmdHeraldStatsSet_keeps : cmdHeraldStatsSet.Keeps := by
  intro o s c h
  dsimp only [cmdHeraldStatsSet]
  split
  · exact h.finish
  · exact .ite h.finish (.finish (.ite h.setHerald.clearStats h.setHerald))

theorem cmdLentSet_keeps : cmdLentSet.Keeps := fun h => .ite h.finish h.modPart.finish

/-! ## Twin and restore commands -/

theorem Origin.Keeps.mirrorAlloc {p n : Nat} {x : State × Option Nat} (h : o.Keeps s) (e : s.mirrorAlloc p n = .ok x) : o.Keeps x.1 := by
  unfold State.mirrorAlloc at e
  split at e
  · cases e; exact h
  · split at e
    · cases e
    · split at e
      · cases e
      · split at e
        · cases e
        · next emap =>
          split at e
          · cases e
          · cases e; exact .pair (h.mapPages emap)

theorem cmdTwinBind_keeps : cmdTwinBind.Keeps := by
  intro o s c h
  dsimp -zeta only [cmdTwinBind]
  extract_lets p x a b dev n ext reuse freed ask
  have hfreed : o.Keeps freed := by
    dsimp only [freed]
    split
    · exact h.unmapPages.zeroAll
    · exact h.zeroAll
  clear_value freed ask
  refine .ite h.finish (.ite h.finish ?_)
  split
  · exact h.finish
  · next s1 base e =>
    have h1 : o.Keeps s1 := by
      split at e
      · cases e; exact h
      · exact hfreed.mirrorAlloc e
    refine .ite h.askOnce ?_
    split
    · exact h.askOnce.finish
    · extract_lets s2 y s3 s4
      have h3 : o.Keeps s3 := Origin.Keeps.portTwin (Origin.Keeps.modTwin (Origin.Keeps.portTwin h1.askOnce))
      have h4 : o.Keeps s4 := by
        dsimp only [s4]
        split
        · exact h3.mirrorPend
        · exact h3
      exact .ite h.askOnce.finish h4.finish

theorem cmdTwinUnbind_keeps : cmdTwinUnbind.Keeps := fun h => .ite h.finish h.emit.twinFree.finish

theorem cmdMirrorExport_keeps : cmdMirrorExport.Keeps := by
  intro o s c h
  dsimp only [cmdMirrorExport]
  split
  · exact h.finish
  · exact h.mirrorCut.modTwin.finish

theorem Origin.Keeps.fetchInto {l : Nat} {bs : List Byte} (h : o.Keeps s) : o.Keeps (s.fetchInto l bs) := h.dramBlit.dramWrite
theorem Origin.Keeps.fetchPage {m : MirrorIn} {l i : Nat} (h : o.Keeps s) : o.Keeps (s.fetchPage m l i).1 := by
  unfold State.fetchPage
  exact .ite_fst h.fetchInto h.fetchInto.fetchInto

theorem Origin.Keeps.putLive {j : Job} {c off : Nat} {bs : List Byte} (h : o.Keeps s) : o.Keeps (s.putLive j c off bs) := by
  unfold State.putLive
  dsimp only
  split
  · exact h
  · exact h.dramWrite

theorem Origin.Keeps.restoreFetch {p : Nat} {o' : Ordo} {r : Restore} {m : MirrorIn} {replica : Option (BitVec 128)} (h : o.Keeps s) :
    o.Keeps (s.restoreFetch p o' r m replica) := by
  unfold State.restoreFetch
  extract_lets n
  split
  next s1 bad e =>
  have h1 : o.Keeps s1 := by
    refine Origin.Keeps.foldl_fst_eq ?_ ?_ e
    · exact h
    · intro a i y ha hy
      split at hy
      next e =>
      cases hy
      exact ha.fetchPage.fst e
  extract_lets digs dt keep wd ep delta
  have hkeep : ∀ {s : State} {st : RestoreSt}, o.Keeps s → o.Keeps (keep s st) := fun h => h.modPart
  clear_value keep
  split
  · exact (hkeep h1).event
  · split
    · exact (hkeep h1).event
    · split
      · exact (hkeep h1).event
      · split
        · exact (hkeep h1).event
        · exact (hkeep h1).event

theorem cmdRestoreBegin_keeps : cmdRestoreBegin.Keeps := by
  intro o s c h
  obtain ⟨sides, job, hsides, hjob, hkeepsSides, hkeepsJob⟩ := exists_alloc
  dsimp -zeta only [cmdRestoreBegin]
  rw [hsides, hjob]
  extract_lets p m s1 gen z
  have h1 : o.Keeps s1 := h.dropRestore.askOnce
  have hz : o.Keeps z := h1.zeroAll
  clear_value z s1
  split
  · exact h.finish
  · refine .ite h.finish (.ite h.finish (.ite h1 (.ite h1.finish (.ite h1.finish (.ite h1.finish ?_)))))
    split
    · exact h1.finish
    · next z1 a b esides =>
      have hz1 : o.Keeps z1 := hkeepsSides hz esides
      split
      · exact h1.finish
      · next z2 ls ejob =>
        have hz2 : o.Keeps z2 := hkeepsJob hz1 ejob
        exact .ite h1.finish (.ite hz2.modPart.dropRestore.finish hz2.modPart.restoreFetch.finish)

theorem Origin.Keeps.reconcileIn {j : Job} {e : Epact} {d : Tbl (BitVec 128)} (h : o.Keeps s) : o.Keeps (s.reconcileIn j e d).1 := h.putLive.putLive

theorem cmdReconcile_keeps : cmdReconcile.Keeps := by
  intro o s c h
  dsimp only [cmdReconcile]
  refine .ite h.finish ?_
  split
  · exact .ite h.finish h.reconcileIn.modJob.ledgerOut.finish
  · split
    · exact h.finish
    · exact .ite h.finish h.reconcileIn.modPart.event.finish

theorem cmdRestoreCommit_keeps : cmdRestoreCommit.Keeps := by
  intro o s c h
  dsimp only [cmdRestoreCommit]
  split
  · exact h.finish
  · exact .ite h.finish (.ite h.finish (h.modHub.bindJob.modJob.modPart.closeHeralds.openHeralds.foldl fun _ _ h => h.setHerald).emit.finish)

theorem Origin.Keeps.rebuildPage {p i : Nat} {bs : List Byte} {x : State} (h : o.Keeps s) (e : s.rebuildPage p i bs = some x) : o.Keeps x := by
  unfold State.rebuildPage at e
  split at e
  · cases e
  · extract_lets a b hurt s1 s2 at e
    have h1 : o.Keeps s1 := h.foldl fun _ _ h => .ite h.startRetire h
    have h2 : o.Keeps s2 := h1.unmapPages
    split at e
    · cases e
    · next ea =>
      split at e
      · cases e
      · next eb => exact Option.some.inj e ▸ ((h2.mapPages ea).mapPages eb).fetchInto.modJob.ledgerOut

theorem Origin.Keeps.rebuildAll {p first : Nat} {m : MirrorIn} {l : List Nat} (h : o.Keeps s) : o.Keeps (State.rebuildAll p first m l s).1 := by
  induction l generalizing s with
  | nil => exact h
  | cons i rest ih =>
    unfold State.rebuildAll
    extract_lets bs padded
    split
    · exact h
    · refine .ite_fst (.pair h.modJob) ?_
      split
      · exact h
      · next e => exact ih (h.rebuildPage e)

theorem Origin.Keeps.fillAgain {p : Nat} (h : o.Keeps s) : o.Keeps (s.fillAgain p) := h.modJob.foldl fun _ _ h => h.modRegion

theorem cmdRestorePage_keeps : cmdRestorePage.Keeps := by
  intro o s c h
  dsimp -zeta only [cmdRestorePage]
  extract_lets p x m s1 s2 s3
  have h1 : o.Keeps s1 := h.askOnce
  have h3 : o.Keeps s3 := Origin.Keeps.modJob (Origin.Keeps.rebuildAll h1.zeroAll)
  split
  · exact h.finish
  · refine .ite h.finish (.ite h.finish (.ite h.finish (.ite h (.ite h.finish (.ite h1 (.ite h1.finish ?_))))))
    clear_value s3
    split
    · exact h3.finish
    · exact h3.fillAgain.finish

theorem cmdEpactRead_keeps : cmdEpactRead.Keeps := by
  intro o s c h
  dsimp only [cmdEpactRead]
  split <;> exact h.finish

/-! ## The collector -/

theorem execErrorRecordArrive_answers {t : Nat} {r : ErrRec} (h : o.Keeps s) : o.Answers (execErrorRecordArrive t r s) :=
    .next (.ite h.adv.errArrive h.adv)

theorem execCoalesceEntryAge_answers {t cls unitKind : Nat} {unit : BitVec 32}
    (h : o.Keeps s) : o.Answers (execCoalesceEntryAge t cls unitKind unit s) := by
  unfold execCoalesceEntryAge
  dsimp only
  refine .next ?_
  split
  · exact .ite h.adv.col.errAppend h.adv
  · exact h.adv

theorem execLogRingAppend_answers {t : Nat} (h : o.Keeps s) : o.Answers (execLogRingAppend t s) := by
  unfold execLogRingAppend
  dsimp only
  refine .next ?_
  split
  · exact h.adv
  · exact .ite h.adv.col.ringAppend.errEmit h.adv.col.ringAppend

theorem execEvHoldoffExpire_answers {t : Nat} (h : o.Keeps s) : o.Answers (execEvHoldoffExpire t s) := .next h.adv.evSignal

/-! ## Commands that go on -/

theorem lockDefs_keep : ∀ f ∈ lockDefs, f.Keeps := by
  intro f hf
  simp only [lockDefs, List.cons_append, List.nil_append, List.mem_cons, List.not_mem_nil, or_false] at hf
  obtain rfl | rfl | rfl | rfl | rfl | rfl | rfl | rfl | rfl | rfl | rfl | rfl | rfl | rfl | rfl | rfl | rfl | rfl | rfl | rfl | rfl | rfl |
    rfl | rfl := hf
  · exact cmdPartitionDestroy_keeps
  · exact cmdOrdoLoad_keeps
  · exact cmdOrdoUnload_keeps
  · exact cmdJobStart_keeps
  · exact cmdAlmanacWrite_keeps
  · exact cmdAlmanacArm_keeps
  · exact cmdIdesSet_keeps
  · exact cmdReplayForce_keeps
  · exact cmdCommitRewind_keeps
  · exact cmdFenceSite_keeps
  · exact cmdVigilSet_keeps
  · exact cmdPagemapAlloc_keeps
  · exact cmdPagemapFree_keeps
  · exact cmdWindowOpen_keeps
  · exact cmdWindowClose_keeps
  · exact cmdKeepSet_keeps
  · exact cmdTwinBind_keeps
  · exact cmdTwinUnbind_keeps
  · exact cmdMirrorExport_keeps
  · exact cmdRestoreBegin_keeps
  · exact cmdRestoreCommit_keeps
  · exact cmdRestorePage_keeps
  · exact cmdReconcile_keeps
  · exact cmdHarvestSet_keeps

theorem Origin.Keeps.granted {mb : Nat} {d : Desc} (h : o.Keeps s) : o.Keeps (s.granted mb d) := by
  unfold State.granted
  split
  · exact h
  · next f e =>
    have hf : f.Keeps := lockDefs_keep f (List.mem_of_find?_eq_some e)
    exact Origin.Keeps.badOps (.ite h.finish (hf h))

theorem execCommandLockGrant_answers {t p : Nat} {buf : Option (List Byte)} (h : o.Keeps s) : o.Answers (execCommandLockGrant t p buf s) := by
  unfold execCommandLockGrant
  dsimp only
  refine .next (.ite h.adv ?_)
  split
  · exact h.adv
  · split
    · exact h.adv.modPart
    · exact .granted (.ite h.adv.modPart.modPart.modMb h.adv.modPart.modPart)

theorem execPageZeroComplete_answers {t ppn : Nat} (h : o.Keeps s) : o.Answers (execPageZeroComplete t ppn s) := by
  unfold execPageZeroComplete
  dsimp only
  refine .next (h.adv.zeroed.foldl fun _ _ h => ?_)
  split
  · exact h.granted
  · exact h

theorem Origin.Keeps.grantLoad {p : Nat} (h : o.Keeps s) : o.Keeps (s.grantLoad p) := by
  unfold State.grantLoad
  split
  · exact h
  · split
    · exact .ite h.granted h
    · exact h

theorem execBistComplete_answers {t site : Nat} {logicSig : BitVec 64} {memPass : Bool} {bank entry elem : Nat}
    (h : o.Keeps s) : o.Answers (execBistComplete t site logicSig memPass bank entry elem s) := .next (.ite
      (.ite h.adv.mapFlush.bistResult h.adv.mapFlush.bistResult.slotEnd.grantLoad) h.adv)

theorem execTwinAckReceive_answers {t p step : Nat} (h : o.Keeps s) : o.Answers (execTwinAckReceive t p step s) := by
  unfold execTwinAckReceive
  dsimp only
  refine .next (.ite h.adv.twinAck ?_)
  split
  · exact h.adv.twinAck
  · split
    · exact .ite h.adv.twinAck.granted h.adv.twinAck
    · exact h.adv.twinAck

/-! ## The host port -/

theorem Origin.Keeps.doorbell {mb tail : Nat} (h : o.Keeps s) : o.Keeps (s.doorbell mb tail) := by
  unfold State.doorbell
  exact .ite h.modMb.badOps h.modMb
theorem execDoorbell_answers {t mb tail : Nat} (h : o.Keeps s) : o.Answers (execDoorbell t mb tail s) := .next (.ite h.adv.doorbell h.adv)
theorem Origin.Keeps.mbReset {mb : Nat} (h : o.Keeps s) : o.Keeps (s.mbReset mb) := h.modMb
theorem execMailboxReset_answers {t mb : Nat} (h : o.Keeps s) : o.Answers (execMailboxReset t mb s) := .next (.ite h.adv.mbReset h.adv)

theorem Origin.Keeps.cplHeadTo {mb head : Nat} (h : o.Keeps s) : o.Keeps (s.cplHeadTo mb head) := by
  unfold State.cplHeadTo
  extract_lets s1 m
  have h1 : o.Keeps s1 := h.modMb
  split
  · exact .ite h1 h1.modMb.writeCpl.badOps
  · exact h1

theorem execCplHeadWrite_answers {t mb head : Nat} (h : o.Keeps s) : o.Answers (execCplHeadWrite t mb head s) := .next (.ite h.adv.cplHeadTo h.adv)
theorem Origin.Keeps.evSpace (h : o.Keeps s) : o.Keeps s.evSpace := .ite h h.ev.event
theorem execEvHeadWrite_answers {t head : Nat} (h : o.Keeps s) : o.Answers (execEvHeadWrite t head s) := .next (.ite h.adv h.adv.ev.evSpace)
theorem Origin.Keeps.msixWord {w mask val : Nat} (h : o.Keeps s) : o.Keeps (s.msixWord w mask val) := .ite h.msix (.ite h.msix.msixFire h.msix)

theorem Origin.Keeps.mbWord {mb r mask val : Nat} (h : o.Keeps s) : o.Keeps (s.mbWord mb r mask val) :=
    .ite (.ite h.modMb.mbReset h.modMb) (.ite h.doorbell (.ite h.cplHeadTo (.ite h.modMb h)))

theorem Origin.Keeps.evWord {r mask val : Nat} (h : o.Keeps s) : o.Keeps (s.evWord r mask val) := .ite h.ev.evSpace (.ite h.ev.evSignal h)
theorem Origin.Keeps.hdmWord {r mask val : Nat} (h : o.Keeps s) : o.Keeps (s.hdmWord r mask val) := .ite h.mem (.ite h.mem h)

theorem Origin.Keeps.writeWord {w mask val : Nat} (h : o.Keeps s) : o.Keeps (s.writeWord w mask val) :=
    .ite h.msixWord (.ite h.mbWord (.ite h.evWord (.ite h.modMb (.ite h.hdmWord h))))

theorem execRegisterWrite_answers {t off len val : Nat} (h : o.Keeps s) : o.Answers (execRegisterWrite t off len val s) :=
    .next (.ite h.adv (h.adv.foldl fun _ _ h => h.writeWord))

theorem execFtNowRead_answers {t : Nat} (h : o.Keeps s) : o.Answers (execFtNowRead t s) := .next h.adv.modHub

theorem execHostPortReset_answers {t : Nat} (h : o.Keeps s) : o.Answers (execHostPortReset t s) := by
  unfold execHostPortReset
  extract_lets s1 s2 s3 ev mem s4
  have h2 : o.Keeps s2 := by
    refine .foldl h.adv ?_
    intro s m h
    exact h.mbReset
  have h3 : o.Keeps s3 := by
    dsimp only [s3]
    exact h2.msix
  clear_value s3
  have h4 : o.Keeps s4 := h3.of_eq
  exact .next h4.evSpace

theorem Origin.Keeps.mgmtCommand {port mb : Nat} {src : MgmtAddr} {body : List Byte} (h : o.Keeps s) : o.Keeps (s.mgmtCommand port mb src body) := by
  unfold State.mgmtCommand
  extract_lets m d tag ack take
  have hack : o.Keeps ack := h.mgmtSend
  have htake : o.Keeps take := Origin.Keeps.badOps hack.modMb
  clear_value ack take
  refine .ite hack ?_
  split
  · exact .ite htake h.mgmtSend
  · exact htake

theorem Origin.Keeps.mgmtTake {port : Nat} {src : MgmtAddr} {b : List Byte} (h : o.Keeps s) : o.Keeps (s.mgmtTake port src b) := .ite h.mgmtCommand h

theorem execMgmtFrameReceive_answers {t port : Nat} {frame : List Byte} (h : o.Keeps s) : o.Answers (execMgmtFrameReceive t port frame s) := by
  unfold execMgmtFrameReceive
  dsimp only
  refine .next ?_
  split
  · exact h.adv
  · refine .ite h.adv ?_
    split
    · exact h.adv.modMgmt
    · exact .ite h.adv.modMgmt.mgmtTake h.adv.modMgmt.modMgmt

theorem execJtagInstruction_answers {t ir : Nat} (h : o.Keeps s) : o.Answers (execJtagInstruction t ir s) :=
    .next (.ite h.adv.sec.emit (.ite h.adv.sec (.ite h.adv.sec h.adv.sec.alarm)))

end Sys2Proof.Machine
end

section
/-! PROOFS. Every row keeps the queue of the commands that wait, and the canonical form of the memory (O48, O49). -/

namespace Sys2Proof.Machine

variable {o : Origin} {s : State}

/-! ## Dispatch and step -/

/-- Every command answers a next state that keeps what its state has come from. The sensors of the hub, which a reading and a cold reset change, are
not followed. -/
theorem exec_answers (hs : o.sensors = false) (i : Instr) (h : o.Keeps s) : o.Answers (exec i s) := by
  cases i with
  | calendsClose => exact execCalendsClose_answers h
  | voteSend => exact execVoteSend_answers h
  | voteReceive => exact execVoteReceive_answers h
  | voteDeadlineExpire => exact execVoteDeadlineExpire_answers h
  | outcomeQueryTimeout => exact execOutcomeQueryTimeout_answers h
  | heraldQueryReceive => exact execHeraldQueryReceive_answers h
  | heraldSilent => exact execHeraldSilent_answers h
  | sealOutcome => exact execSealOutcome_answers h
  | replayOutcome => exact execReplayOutcome_answers h
  | replayStart => exact execReplayStart_answers h
  | holdOutcome => exact execHoldOutcome_answers h
  | abandonOutcome => exact execAbandonOutcome_answers h
  | wbWriteBack => exact execWbWriteBack_answers h
  | mirrorDeadlineExpire => exact execMirrorDeadlineExpire_answers h
  | twinAckReceive => exact execTwinAckReceive_answers h
  | vigilLoad => exact execVigilLoad_answers h
  | stepRelease => exact execStepRelease_answers h
  | fullPlacement => exact execFullPlacement_answers h
  | siteFaultDetect => exact execSiteFaultDetect_answers h
  | plannedFence => exact execPlannedFence_answers h
  | repairStart => exact execRepairStart_answers h
  | spareFillComplete => exact execSpareFillComplete_answers h
  | patchKgroup => exact execPatchKgroup_answers h
  | vectorBeat => exact execVectorBeat_answers h
  | routeElementSend => exact execRouteElementSend_answers h
  | creditReturn => exact execCreditReturn_answers h
  | portSwitch => exact execPortSwitch_answers h
  | counterAdvance => exact execCounterAdvance_answers h
  | steerFire => exact execSteerFire_answers h
  | shadowLoad => exact execShadowLoad_answers h
  | unitSwitch => exact execUnitSwitch_answers h
  | eveTokenHead => exact execEveTokenHead_answers h
  | sliceAccessGrant => exact execSliceAccessGrant_answers h
  | agIteration => exact execAgIteration_answers h
  | windowAccess => exact execWindowAccess_answers h
  | tileMovingRetry => exact execTileMovingRetry_answers h
  | zeroSweepComplete => exact execZeroSweepComplete_answers h
  | seqInstruction => exact execSeqInstruction_answers h
  | xSend => exact execXSend_answers h
  | xTrysend => exact execXTrysend_answers h
  | xDone => exact execXDone_answers h
  | xRecv => exact execXRecv_answers h
  | xRelease => exact execXRelease_answers h
  | xPutw => exact execXPutw_answers h
  | xGetw => exact execXGetw_answers h
  | xPutt => exact execXPutt_answers h
  | xGett => exact execXGett_answers h
  | xPutv => exact execXPutv_answers h
  | xGetv => exact execXGetv_answers h
  | xEphase => exact execXEphase_answers h
  | xSigraise => exact execXSigraise_answers h
  | xSigwait => exact execXSigwait_answers h
  | xSigwaitl => exact execXSigwaitl_answers h
  | xSigsub => exact execXSigsub_answers h
  | xSigread => exact execXSigread_answers h
  | xBarrive => exact execXBarrive_answers h
  | xBarwait => exact execXBarwait_answers h
  | xFence => exact execXFence_answers h
  | xSemset => exact execXSemset_answers h
  | xSemclr => exact execXSemclr_answers h
  | xSemwait => exact execXSemwait_answers h
  | seqWaitWake => exact execSeqWaitWake_answers h
  | fastEnter => exact execFastEnter_answers h
  | handlerDispatch => exact execHandlerDispatch_answers h
  | depositReceive => exact execDepositReceive_answers h
  | channelCreditReceive => exact execChannelCreditReceive_answers h
  | sendStallExpire => exact execSendStallExpire_answers h
  | spillDepositReceive => exact execSpillDepositReceive_answers h
  | contributionReceive => exact execContributionReceive_answers h
  | signalRaiseReceive => exact execSignalRaiseReceive_answers h
  | barrierArrivalReceive => exact execBarrierArrivalReceive_answers h
  | barrierReleaseReceive => exact execBarrierReleaseReceive_answers h
  | longWaitThreshold => exact execLongWaitThreshold_answers h
  | idesWaitExpire => exact execIdesWaitExpire_answers h
  | idesPhaseExpire => exact execIdesPhaseExpire_answers h
  | idesStepExpire => exact execIdesStepExpire_answers h
  | harvestComplete => exact execHarvestComplete_answers h
  | ptpMessageReceive => exact execPtpMessageReceive_answers h
  | ptpMasterLoss => exact execPtpMasterLoss_answers h
  | timeFrameSend => exact execTimeFrameSend_answers h
  | timeFrameReceive => exact execTimeFrameReceive_answers h
  | servoUpdate => exact execServoUpdate_answers h
  | holdoverExpire => exact execHoldoverExpire_answers h
  | syncEdge => exact execSyncEdge_answers h
  | twinTimeReceive => exact execTwinTimeReceive_answers h
  | syncFollowerTimeout => exact execSyncFollowerTimeout_answers h
  | almanacFire => exact execAlmanacFire_answers h
  | almanacDeadlineExpire => exact execAlmanacDeadlineExpire_answers h
  | almanacBankSwap => exact execAlmanacBankSwap_answers h
  | automaticPrewarn => exact execAutomaticPrewarn_answers h
  | intercalarySlotOpen => exact execIntercalarySlotOpen_answers h
  | intercalarySlotClose => exact execIntercalarySlotClose_answers h
  | bistComplete => exact execBistComplete_answers h
  | errorRecordArrive => exact execErrorRecordArrive_answers h
  | coalesceEntryAge => exact execCoalesceEntryAge_answers h
  | logRingAppend => exact execLogRingAppend_answers h
  | portTrain => exact execPortTrain_answers h
  | laneLockTimeout => exact execLaneLockTimeout_answers h
  | berGateEnd => exact execBerGateEnd_answers h
  | trainingAbandon => exact execTrainingAbandon_answers h
  | laneFail => exact execLaneFail_answers h
  | swapOrderedSetReceive => exact execSwapOrderedSetReceive_answers h
  | laneSwapResume => exact execLaneSwapResume_answers h
  | flitReceive => exact execFlitReceive_answers h
  | nakReceive => exact execNakReceive_answers h
  | retryAckTimeout => exact execRetryAckTimeout_answers h
  | initFlitReceive => exact execInitFlitReceive_answers h
  | keyNextReceive => exact execKeyNextReceive_answers h
  | retrainRequestReceive => exact execRetrainRequestReceive_answers h
  | swapPlanReceive => exact execSwapPlanReceive_answers h
  | downNoticeReceive => exact execDownNoticeReceive_answers h
  | minWidthReceive => exact execMinWidthReceive_answers h
  | controlFlitResend => exact execControlFlitResend_answers h
  | keySelChange => exact execKeySelChange_answers h
  | packetRoute => exact execPacketRoute_answers h
  | combineForward => exact execCombineForward_answers h
  | dmaDescriptorStart => exact execDmaDescriptorStart_answers h
  | completionReceive => exact execCompletionReceive_answers h
  | dmaRateIncrease => exact execDmaRateIncrease_answers h
  | transactionTimeout => exact execTransactionTimeout_answers h
  | routeDrainComplete => exact execRouteDrainComplete_answers h
  | ddrTrainingComplete => exact execDdrTrainingComplete_answers h
  | ddrPhyLockLoss => exact execDdrPhyLockLoss_answers h
  | pageAccess => exact execPageAccess_answers h
  | pagemapRebuild => exact execPagemapRebuild_answers h
  | scrubRead => exact execScrubRead_answers h
  | pageMigrationCopy => exact execPageMigrationCopy_answers h
  | pageZeroComplete => exact execPageZeroComplete_answers h
  | cxlMemRead => exact execCxlMemRead_answers h
  | cxlMemWrite => exact execCxlMemWrite_answers h
  | mirrorRelease => exact execMirrorRelease_answers h
  | mirrorWritesAcked => exact execMirrorWritesAcked_answers h
  | mirrorSlotAcked => exact execMirrorSlotAcked_answers h
  | twinApplyReceive => exact execTwinApplyReceive_answers h
  | twinNakReceive => exact execTwinNakReceive_answers h
  | twinBreakReceive => exact execTwinBreakReceive_answers h
  | mirrorExportExpire => exact execMirrorExportExpire_answers h
  | inputRecordConsume => exact execInputRecordConsume_answers h
  | doorbell => exact execDoorbell_answers h
  | commandLockGrant => exact execCommandLockGrant_answers h
  | mailboxReset => exact execMailboxReset_answers h
  | cplHeadWrite => exact execCplHeadWrite_answers h
  | evHeadWrite => exact execEvHeadWrite_answers h
  | registerWrite => exact execRegisterWrite_answers h
  | hostPortReset => exact execHostPortReset_answers h
  | mgmtFrameReceive => exact execMgmtFrameReceive_answers h
  | censusGateCapture => exact execCensusGateCapture_answers h
  | identify => exact cmdIdentify_keeps.run h
  | shutdown => exact CmdDef.Keeps.run (cmdShutdown_keeps _ _) h
  | resetPartition => exact cmdResetPartition_keeps.run h
  | resetJubilee => exact cmdResetJubilee_keeps.run h
  | resetRecovery => exact CmdDef.Keeps.run (cmdResetRecovery_keeps _) h
  | deviceIdSet => exact cmdDeviceIdSet_keeps.run h
  | configWrite => exact cmdConfigWrite_keeps.run h
  | mailboxClaim => exact cmdMailboxClaim_keeps.run h
  | mailboxRelease => exact cmdMailboxRelease_keeps.run h
  | fwHostload => exact CmdDef.Keeps.run (cmdFwHostload_keeps _) h
  | eventMaskSet => exact cmdEventMaskSet_keeps.run h
  | eventStreamSet => exact cmdEventStreamSet_keeps.run h
  | partitionCreate => exact cmdPartitionCreate_keeps.run h
  | partitionDestroy => exact cmdPartitionDestroy_keeps.run h
  | ordoLoad => exact cmdOrdoLoad_keeps.run h
  | ordoUnload => exact cmdOrdoUnload_keeps.run h
  | jobStart => exact cmdJobStart_keeps.run h
  | jobKill => exact cmdJobKill_keeps.run h
  | almanacWrite => exact cmdAlmanacWrite_keeps.run h
  | almanacArm => exact cmdAlmanacArm_keeps.run h
  | almanacDisarm => exact cmdAlmanacDisarm_keeps.run h
  | timeSet => exact cmdTimeSet_keeps.run h
  | idesSet => exact cmdIdesSet_keeps.run h
  | heraldStatsSet => exact cmdHeraldStatsSet_keeps.run h
  | commitStatus => exact cmdCommitStatus_keeps.run h
  | digestRead => exact cmdDigestRead_keeps.run h
  | replayForce => exact cmdReplayForce_keeps.run h
  | commitRewind => exact cmdCommitRewind_keeps.run h
  | holdRelease => exact cmdHoldRelease_keeps.run h
  | fenceSite => exact cmdFenceSite_keeps.run h
  | vigilSet => exact cmdVigilSet_keeps.run h
  | portConfig => exact cmdPortConfig_keeps.run h
  | portRetrain => exact cmdPortRetrain_keeps.run h
  | routeCfgSet => exact cmdRouteCfgSet_keeps.run h
  | routeTableWrite => exact cmdRouteTableWrite_keeps.run h
  | routeSwap => exact cmdRouteSwap_keeps.run h
  | routeEpochSwitch => exact cmdRouteEpochSwitch_keeps.run h
  | groupHeraldSet => exact cmdGroupHeraldSet_keeps.run h
  | pagemapAlloc => exact cmdPagemapAlloc_keeps.run h
  | pagemapFree => exact cmdPagemapFree_keeps.run h
  | windowOpen => exact cmdWindowOpen_keeps.run h
  | windowClose => exact cmdWindowClose_keeps.run h
  | keepSet => exact cmdKeepSet_keeps.run h
  | scrubSet => exact cmdScrubSet_keeps.run h
  | pageRetire => exact cmdPageRetire_keeps.run h
  | pageRetireSet => exact cmdPageRetireSet_keeps.run h
  | twinBind => exact cmdTwinBind_keeps.run h
  | twinUnbind => exact cmdTwinUnbind_keeps.run h
  | mirrorExport => exact cmdMirrorExport_keeps.run h
  | restoreBegin => exact cmdRestoreBegin_keeps.run h
  | restoreCommit => exact cmdRestoreCommit_keeps.run h
  | restorePage => exact cmdRestorePage_keeps.run h
  | epactRead => exact cmdEpactRead_keeps.run h
  | reconcile => exact cmdReconcile_keeps.run h
  | censusRead => exact cmdCensusRead_keeps.run h
  | censusSnapshot => exact cmdCensusSnapshot_keeps.run h
  | logRead => exact cmdLogRead_keeps.run h
  | harvestSet => exact cmdHarvestSet_keeps.run h
  | harvestRead => exact cmdHarvestRead_keeps.run h
  | lentSet => exact cmdLentSet_keeps.run h
  | emberRun => exact CmdDef.Keeps.run (cmdEmberRun_keeps _ _) h
  | intercalarySet => exact cmdIntercalarySet_keeps.run h
  | linkBerTest => exact CmdDef.Keeps.run (cmdLinkBerTest_keeps _) h
  | dvfsSet => exact cmdDvfsSet_keeps.run h
  | powerBudgetSet => exact cmdPowerBudgetSet_keeps.run h
  | prewarnDefaultSet => exact cmdPrewarnDefaultSet_keeps.run h
  | regionPower => exact cmdRegionPower_keeps.run h
  | thermalSet => exact cmdThermalSet_keeps.run h
  | attest => exact cmdAttest_keeps.run h
  | alarmPolicy => exact cmdAlarmPolicy_keeps.run h
  | debugUnlock => exact cmdDebugUnlock_keeps.run h
  | debugLock => exact cmdDebugLock_keeps.run h
  | keyInstall => exact cmdKeyInstall_keeps.run h
  | keyErase => exact cmdKeyErase_keeps.run h
  | mgmtChallenge => exact cmdMgmtChallenge_keeps.run h
  | mgmtAuth => exact cmdMgmtAuth_keeps.run h
  | operatorKeyFuse => exact cmdOperatorKeyFuse_keeps.run h
  | powerSample => exact execPowerSample_answers h
  | budgetCapRaise => exact execBudgetCapRaise_answers h
  | budgetCapLower => exact execBudgetCapLower_answers h
  | pmbusPoll => exact execPmbusPoll_answers h
  | thermalSensorRead => exact execThermalSensorRead_answers hs h
  | thermalCapRaise => exact execThermalCapRaise_answers h
  | thermalCapLower => exact execThermalCapLower_answers h
  | thermalTrip => exact execThermalTrip_answers h
  | ivrCellFail => exact execIvrCellFail_answers h
  | surgeRecharged => exact execSurgeRecharged_answers h
  | droopDetect => exact execDroopDetect_answers h
  | droopHardFloor => exact execDroopHardFloor_answers h
  | bumpSample => exact execBumpSample_answers h
  | powerGroupClose => exact execPowerGroupClose_answers h
  | coldBoot => exact execColdBoot_answers h
  | readySet => exact execReadySet_answers h
  | ledgerAppend => exact execLedgerAppend_answers h
  | lockstepMismatch => exact execLockstepMismatch_answers h
  | heartbeatTick => exact execHeartbeatTick_answers h
  | watchdogExpire => exact execWatchdogExpire_answers h
  | coldRstNAssert => exact execColdRstNAssert_answers hs h
  | railRemoval => exact execRailRemoval_answers hs h
  | alarmRaise => exact execAlarmRaise_answers h
  | tamperSample => exact execTamperSample_answers h
  | fuseRecheck => exact execFuseRecheck_answers h
  | jtagInstruction => exact execJtagInstruction_answers h
  | coldRstNRelease => exact execColdRstNRelease_answers h
  | mgmtLinkLoss => exact execMgmtLinkLoss_answers h
  | ftNowRead => exact execFtNowRead_answers h
  | evHoldoffExpire => exact execEvHoldoffExpire_answers h
  | normalCompletion => exact execNormalCompletion_answers h

/-- Settles O49: a row is a total function to a next state, and each function that it is made of keeps the queue. -/
theorem execKeepsQueue : Obligations.ExecKeepsQueue := by
  intro i s
  obtain ⟨t, hnext, hkeeps⟩ := exec_answers rfl i (Origin.Keeps.refl s false)
  exact ⟨t, hnext, hkeeps.queue⟩

/-- Settles O48: a row keeps the canonical form of the memory, and taking it from the queue leaves the memory as it is. -/
theorem stepKeepsMemory : Obligations.StepKeepsMemory := by
  intro s s' hmem hstep
  cases hqueue : s.pending with
  | nil =>
    rw [step_of_idle hqueue] at hstep
    cases hstep
    exact hmem
  | cons c rest =>
    obtain ⟨t, hnext, hkeeps⟩ := exec_answers rfl c (Origin.Keeps.refl { s with pending := rest } false)
    rw [step_of_pending hqueue, hnext] at hstep
    cases hstep
    exact hkeeps.memory hmem

end Sys2Proof.Machine
end

section
/-! PROOFS. The rows of heat, cells and power states (15 R477 to R482, R489). -/

namespace Sys2Proof.Machine

/-! ## Sensors (R477) -/

/-- A sensor of a die is read: the rest of the device stands. -/
theorem thermalSensorRead_die_gives (t n : Nat) (r : Int) : Gives t (.thermalSensorRead t n r) (fun _ => 192 ≤ n ∧ n < 240) fun s s' =>
    Tbl.get none s'.power.sensors n = some r ∧ s'.sites = s.sites ∧ s'.regions = s.regions ∧ s'.parts = s.parts ∧ s'.mem = s.mem := by
  rintro s ⟨hlow, hhigh⟩
  show ∃ s', execThermalSensorRead t n r s = _ ∧ _
  unfold execThermalSensorRead
  extract_lets s1 s0 g p1 s2 since since' p2 s3 s4 cool d hot p3
  have hread : s2 = { s1 with power := { s1.power with sensors := Tbl.set none n (some r) s1.power.sensors } } := if_neg (by omega)
  rw [if_neg (by omega), if_neg (by omega), if_pos hhigh]
  refine ⟨_, rfl, ?_⟩
  show Tbl.get none s2.power.sensors n = _ ∧ s2.sites = _ ∧ s2.regions = _ ∧ s2.parts = _ ∧ s2.mem = _
  rw [hread]
  exact ⟨Tbl.get_set_same none n (some r) s1.power.sensors, rfl, rfl, rfl, rfl⟩

/-- A sensor of a region that is on, or of its slices, is read: only the region's own record changes. -/
theorem thermalSensorRead_region_gives (t n : Nat) (r : Int) :
    Gives t (.thermalSensorRead t n r) (fun s => n < 192 ∧ (n % 3 = 2 ∨ (s.region (n / 3)).logic = .on)) fun s s' =>
    Tbl.get none (s'.region (n / 3)).sensors (n % 3) = some r ∧ s'.sites = s.sites ∧ s'.parts = s.parts ∧ s'.mem = s.mem := by
  rintro s ⟨hlow, hon⟩
  have hread : ¬ (n < 192 ∧ n % 3 < 2 ∧ ((s.adv t).region (n / 3)).logic ≠ .on ∨ 256 ≤ n) := by
    rintro (⟨-, hlogic, hoff⟩ | hout)
    · exact hon.elim (fun h => by omega) hoff
    · omega
  show ∃ s', execThermalSensorRead t n r s = _ ∧ _
  unfold execThermalSensorRead
  extract_lets s1 s0 g p1 s2 since since' p2 s3 s4 cool d hot p3
  have hnew : s2 = s1.modRegion g fun x => { x with sensors := Tbl.set none (n % 3) (some r) x.sensors } := if_pos hlow
  have hregion : s4.region g = s2.region g := rfl
  rw [if_neg hread, if_pos hlow]
  refine ⟨_, rfl, ?_, ?_⟩
  · show Tbl.get none ((s4.modRegion g _).region g).sensors (n % 3) = _
    rw [modRegion_same]
    show Tbl.get none (s4.region g).sensors (n % 3) = _
    rw [hregion, hnew, modRegion_same]
    exact Tbl.get_set_same none (n % 3) (some r) (s1.region g).sensors
  · show s2.sites = _ ∧ s2.parts = _ ∧ s2.mem = _
    rw [hnew]
    exact ⟨rfl, rfl, rfl⟩

/-- A sensor of the hub is read; an alarm that it raises leaves the readings as they are. -/
theorem thermalSensorRead_hub_gives (t n : Nat) (r : Int) :
    Gives t (.thermalSensorRead t n r) (fun _ => 240 ≤ n ∧ n < 256) fun _ s' => Tbl.get none s'.power.sensors n = some r := by
  rintro s ⟨hlow, hhigh⟩
  show ∃ s', execThermalSensorRead t n r s = _ ∧ _
  unfold execThermalSensorRead
  extract_lets s1 s0 g p1 s2 since since' p2 s3 s4 cool d hot p3
  have hread : s2 = { s1 with power := { s1.power with sensors := Tbl.set none n (some r) s1.power.sensors } } := if_neg (by omega)
  have hget : Tbl.get none s4.power.sensors n = some r := by
    show Tbl.get none s2.power.sensors n = _
    rw [hread]
    exact Tbl.get_set_same none n (some r) s1.power.sensors
  rw [if_neg (by omega), if_neg (by omega), if_neg (by omega)]
  refine ⟨_, rfl, ?_⟩
  clear_value s4
  split
  · rw [((Origin.Keeps.refl s4 true).alarm).readings rfl]
    exact hget
  · exact hget

/-! ## Throttles and the trip (R478 to R480) -/

/-- What a hot region comes to, whether it is throttled already or not. -/
theorem thermalCapRaise_next {t g i : Nat} {s : State} (hg : g < 64)
    (hhot : ((List.range 3).find? fun i => (s.adv t).hot (3 * g + i) (s.adv t).power.throttle) = some i)
    (hdue : ∀ f, ((s.adv t).region g).thermRaise = some f → f + ftMs ≤ (s.adv t).now) (hcap : ((s.adv t).region g).capTherm < 6) :
    exec (.thermalCapRaise t g) s =
      let s := s.adv t
      let s1 := (s.modRegion g fun r => { r with capTherm := r.capTherm + 1, thermRaise := some s.now }).applyStep g
      .next (if (s.region g).capTherm = 0 then
        (s1.report 0x0706 5 (s1.partField (siteKey g 0)) g [(8, 3 * g + i), (16, wrapZ 16 ((s1.sensor (3 * g + i)).getD 0)), (8, 1)]).event
          0x0B05 0xFF [(8, g), (8, 3 * g + i), (8, 1)] else s1) := by
  have hdue' : (match ((s.adv t).region g).thermRaise with
      | none => true
      | some f => decide (f + ftMs ≤ (s.adv t).now)) = true := by
    split
    · rfl
    · next f e => exact decide_eq_true (hdue f e)
  show execThermalCapRaise t g s = _
  simp only [execThermalCapRaise, hhot]
  exact congrArg Host.Outcome.next (if_pos ⟨hg, hdue', hcap⟩)

theorem thermalCapRaise_does (t g i : Nat) : Does t (.thermalCapRaise t g)
    (fun s => g < 64 ∧ ((List.range 3).find? fun i => s.hot (3 * g + i) s.power.throttle) = some i ∧
      (∀ f, (s.region g).thermRaise = some f → f + ftMs ≤ s.now) ∧ 0 < (s.region g).capTherm ∧ (s.region g).capTherm < 6) fun s =>
    (s.modRegion g fun r => { r with capTherm := r.capTherm + 1, thermRaise := some s.now }).applyStep g := by
  rintro s ⟨hg, hhot, hdue, hthrottled, hcap⟩
  exact (thermalCapRaise_next hg hhot hdue hcap).trans (congrArg Host.Outcome.next (if_neg (Nat.ne_of_gt hthrottled)))

theorem thermalCapRaise_first_does (t g i : Nat) : Does t (.thermalCapRaise t g)
    (fun s => g < 64 ∧ ((List.range 3).find? fun i => s.hot (3 * g + i) s.power.throttle) = some i ∧
      (∀ f, (s.region g).thermRaise = some f → f + ftMs ≤ s.now) ∧ (s.region g).capTherm = 0) fun s =>
    let s1 := (s.modRegion g fun r => { r with capTherm := r.capTherm + 1, thermRaise := some s.now }).applyStep g
    (s1.report 0x0706 5 (s1.partField (siteKey g 0)) g [(8, 3 * g + i), (16, wrapZ 16 ((s1.sensor (3 * g + i)).getD 0)), (8, 1)]).event
      0x0B05 0xFF [(8, g), (8, 3 * g + i), (8, 1)] := by
  rintro s ⟨hg, hhot, hdue, hzero⟩
  exact (thermalCapRaise_next hg hhot hdue (by omega)).trans (congrArg Host.Outcome.next (if_pos hzero))

theorem thermalCapLower_does (t g c : Nat) : Does t (.thermalCapLower t g)
    (fun s => (s.region g).coolSince = some c ∧ c + 10 * ftMs ≤ s.now ∧ 0 < (s.region g).capTherm) fun s =>
    (s.modRegion g fun r => { r with capTherm := r.capTherm - 1, coolSince := some (c + 10 * ftMs) }).applyStep g := by
  rintro s ⟨hcool, hdue, hthrottled⟩
  show execThermalCapLower t g s = _
  simp only [execThermalCapLower, hcool]
  exact congrArg Host.Outcome.next (if_pos ⟨hdue, hthrottled⟩)

theorem thermalTrip_does (t n h : Nat) : Does t (.thermalTrip t n)
    (fun s => Tbl.get none s.power.hotSince n = some h ∧ h + 100 * ftUs ≤ s.now ∧ s.hub.tripped = false) fun s =>
    let temp := wrapZ 16 ((s.sensor n).getD 0)
    let s1 := ((s.stopClocks).faultAll 0x0707).report 0x0707 0 0xFF 0 [(8, n), (16, temp)]
    let s2 := (s1.event 0x0B06 0xFF [(8, n), (16, temp)]).modHub fun h => { h with tripped := true }
    (({ s2 with pins := { s2.pins with thermtripN := false } } : State).modAlarm 2 fun a => { a with asserts := true }).alarm 2 n temp := by
  rintro s ⟨hhot, hdue, htripped⟩
  show execThermalTrip t n s = _
  simp only [execThermalTrip, hhot]
  exact congrArg Host.Outcome.next (if_pos ⟨hdue, Bool.eq_false_iff.mp htripped⟩)

/-! ## Cells of a region and regulators of the network (R481, R482) -/

theorem ivrCellFail_region_does (t g c cause : Nat) : Does t (.ivrCellFail t g c cause)
    (fun s => g < 64 ∧ c < 8 ∧ (if c < 6 then bitAt (s.region g).logicFail c else bitAt (s.region g).arrayFail (c - 6)) = false ∧
      (s.region g).logic ≠ .dark) fun s =>
    let s1 := s.cellOff g c cause
    (((s1.event 0x0B01 0xFF [(8, g), (8, c), (8, (s1.region g).logicFailed)]).ledgerAdd 2 0x0701 (g + 256 * c)).cellEffect g
      (s.region g).logicFailed).powerWaiters := by
  rintro s ⟨hg, hcell, hnew, hlit⟩
  show execIvrCellFail t g c cause s = _
  unfold execIvrCellFail
  refine congrArg Host.Outcome.next ((if_neg (by omega)).trans ((if_neg (by omega)).trans (if_neg ?_)))
  exact not_or.mpr ⟨Bool.eq_false_iff.mp hnew, hlit⟩

theorem ivrCellFail_network_does (t g c cause : Nat) : Does t (.ivrCellFail t g c cause)
    (fun s => g < 64 ∧ 8 ≤ c ∧ c < 10 ∧ s.power.netFail.contains (2 * (g / 8) + (c - 8)) = false) fun s =>
    let s1 := (({ s with power := { s.power with netFail := (2 * (g / 8) + (c - 8)) :: s.power.netFail } } : State).report 0x0701 5
        0xFF (8 * (g / 8)) [(8, 0xFF), (8, cause), (8, 0), (8, 0)]).event 0x0B01 0xFF [(8, 8 * (g / 8)), (8, 0xFF), (8, 0)]
    if s1.power.netFail.contains (2 * (g / 8) + (9 - c)) = true then
      ((List.range 8).foldl (fun s r => s.darken (8 * (g / 8) + r) 3) s1).powerWaiters
    else s1 := by
  rintro s ⟨hg, hnetwork, hcell, hnew⟩
  show execIvrCellFail t g c cause s = _
  unfold execIvrCellFail
  extract_lets s1 st n p s2 s3 other
  rw [if_neg (by omega), if_pos hnetwork, if_neg (Bool.eq_false_iff.mp hnew)]

/-! ## Power groups (R489) -/

theorem powerGroupClose_does (t g : Nat) (m : Bool) : Does t (.powerGroupClose t g m)
    (fun s => (s.region g).logic = .poweringUp ∧ (s.region g).puDue ≤ s.now ∧ (200 * ftUs ≤ (s.region g).puPaused ∨ m = true)) fun s =>
    let s1 := s.modRegion g fun r => { r with puGroups := r.puGroups + 1, puLast := s.now }
    if 16 ≤ (s1.region g).puGroups then s1.regionOn g else s1 := by
  rintro s ⟨hup, hdue, hgo⟩
  show execPowerGroupClose t g m s = _
  unfold execPowerGroupClose
  refine congrArg Host.Outcome.next ((if_neg ?_).trans (if_neg ?_))
  · rintro (h | h)
    · exact h hup
    · omega
  · rintro ⟨hpast, hmargin⟩
    exact hgo.elim (fun h => hpast (decide_eq_true h)) hmargin

/-- A group that has waited less than 200 us for its margin waits on. -/
theorem powerGroupClose_waits (t g : Nat) : Does t (.powerGroupClose t g false)
    (fun s => (s.region g).logic = .poweringUp ∧ (s.region g).puPaused < 200 * ftUs ∧ (s.region g).puLast + 2000 ≤ s.now) fun s =>
    s.modRegion g fun r => { r with puPaused := r.puPaused + (s.now - ((s.region g).puLast + 2000)), puLast := s.now - 2000 } := by
  rintro s ⟨hup, hpaused, hdue⟩
  have hgroup : ((s.adv t).region g).puDue = ((s.adv t).region g).puLast + 2000 := by
    rw [Region.puDue, if_neg (Nat.not_le.mpr hpaused)]
  show execPowerGroupClose t g false s = _
  unfold execPowerGroupClose
  simp only [hgroup]
  refine congrArg Host.Outcome.next ((if_neg ?_).trans (if_pos ?_))
  · rintro (h | h)
    · exact h hup
    · omega
  · exact ⟨by simpa using hpaused, by simp⟩

/-- Settles O43: a theorem for each of its rows. -/
theorem heatRowsAct : Obligations.HeatRowsAct :=
  ⟨thermalSensorRead_die_gives, thermalSensorRead_region_gives, thermalSensorRead_hub_gives, thermalCapRaise_does, thermalCapRaise_first_does,
    thermalCapLower_does, thermalTrip_does, ivrCellFail_region_does, ivrCellFail_network_does, powerGroupClose_does, powerGroupClose_waits⟩

end Sys2Proof.Machine
end
